-- ==== Sys2Proof/Word.lean ====
section
/-! DEFINITION. The word and byte types of the Jarwin: registers are 64 bits wide (R276), memory is bytes, and a vector
register, a mask or a tile has at most 8,192 bits (R91, R321, R374). -/

namespace Sys2Proof

/-- A 64-bit register. -/
abbrev Word := BitVec 64

/-- One byte. -/
abbrev Byte := BitVec 8

/-- 8,192 bits: a vector register over 32 lanes, a mask register, a tile. -/
abbrev Wide := BitVec 8192

/-- A virtual or physical address, or an offset: a natural number reached from a word by `toNat`. -/
abbrev Addr := Nat

end Sys2Proof
end

