-- ==== Sys2Proof/Syntax.lean ====
section
/-! DEFINITION. The instruction and step syntax of the Jarwin: one constructor of `Instr` for each row of
spec/opcode_table.json, in the table's order.

The 285 rows that are instruction words carry the operand fields of their encoding (R253 to R269). The 111 rows that
are steps of the device carry what the step concerns: a port and a flit, a brick `b` and a hart number `n`, a queue
`q` and a launch number `n`, a course and the place `i` of a command in that course's list. -/

namespace Sys2Proof

/-- Formats of the scalar FP instructions, the FMT codes 0 to 3 of R259. -/
inductive FpFmt where
  | fp64 | fp32 | fp16 | bf16
deriving DecidableEq, Repr

/-- Access and element widths: 1, 2, 4 or 8 bytes, the W and EW codes 0 to 3 of R253. -/
inductive Width where
  | b1 | b2 | b4 | b8
deriving DecidableEq, Repr

/-- Cache hints, the codes 0 to 3 of R253. -/
inductive Hint where
  | normal | transient | keep | const
deriving DecidableEq, Repr

def FpFmt.code : FpFmt → Nat
  | .fp64 => 0 | .fp32 => 1 | .fp16 => 2 | .bf16 => 3

def FpFmt.ofCode (n : Nat) : FpFmt :=
  if n = 0 then .fp64 else if n = 1 then .fp32 else if n = 2 then .fp16 else .bf16

def Width.code : Width → Nat
  | .b1 => 0 | .b2 => 1 | .b4 => 2 | .b8 => 3

def Width.ofCode (n : Nat) : Width :=
  if n = 0 then .b1 else if n = 1 then .b2 else if n = 2 then .b4 else .b8

/-- The number of bytes of a width. -/
def Width.bytes : Width → Nat
  | .b1 => 1 | .b2 => 2 | .b4 => 4 | .b8 => 8

def Hint.code : Hint → Nat
  | .normal => 0 | .transient => 1 | .keep => 2 | .const => 3

def Hint.ofCode (n : Nat) : Hint :=
  if n = 0 then .normal else if n = 1 then .transient else if n = 2 then .keep else .const

/-- A flit of the Forquin Link: the header fields of R18, the 224 payload bytes, and the trailer fields of R17. -/
structure Flit where
  cls : Nat := 0
  kind : Nat := 0
  dst : Nat := 0
  src : Nat := 0
  vmid : Nat := 0
  ctx : Nat := 0
  pa : Nat := 0
  len : Nat := 0
  seq : Nat := 0
  reserved : Nat := 0
  payload : List Byte := []
  ackseq : Nat := 0
  credits : List Nat := [0, 0, 0, 0]
deriving DecidableEq, Repr

/-- The units of bring-up (R34, R35): a course's engines, a brick, a channel or a port. -/
inductive UnitId where
  | course (i : Nat)
  | brick (i : Nat)
  | chan (i : Nat)
  | port (i : Nat)
deriving DecidableEq, Repr

/-- One constructor for each row of spec/opcode_table.json. -/
inductive Instr where
  | readRequest (p : Nat) (f : Flit)
  | readResponse (p : Nat) (f : Flit)
  | readStatus (p : Nat) (f : Flit)
  | write (p : Nat) (f : Flit)
  | writeAcknowledgement (p : Nat) (f : Flit)
  | atomicRequest (p : Nat) (f : Flit)
  | atomicResponse (p : Nat) (f : Flit)
  | linkControl (p : Nat) (f : Flit)
  | flitDiscard (p : Nat) (f : Flit)
  | flitCrcFailure (p : Nat)
  | replayTimeout (p : Nat)
  | portDown (p : Nat)
  | linkControlKeepalive (p : Nat)
  | portTrainingDone (p : Nat)
  | portTrainingFailed (p : Nat)
  | portFail (p : Nat)
  | scheduledSlotStart (p slot : Nat)
  | systemBarrierArrival (p : Nat) (f : Flit)
  | systemBarrierRelease (p : Nat) (f : Flit)
  | gangReady (p : Nat) (f : Flit)
  | gangGo (p : Nat) (f : Flit)
  | withdrawRequest (p : Nat) (f : Flit)
  | withdraw (p : Nat) (f : Flit)
  | tokenProgress (p : Nat) (f : Flit)
  | preemptionRelay (p : Nat) (f : Flit)
  | gangFailed (p : Nat) (f : Flit)
  | throttleNotice (p : Nat) (f : Flit)
  | gmcManagementRead (p : Nat) (f : Flit)
  | gmcManagementWrite (p : Nat) (f : Flit)
  | gmcWriteThold (p : Nat) (f : Flit)
  | gmcWriteGrandmaster (p : Nat) (f : Flit)
  | gmcWriteMinSecurity (p : Nat) (f : Flit)
  | gmcRestartTraining (p : Nat) (f : Flit)
  | attestationRequest (p : Nat) (f : Flit)
  | sync (p : Nat) (f : Flit)
  | followUp (p : Nat) (f : Flit)
  | pdelayReq (p : Nat) (f : Flit)
  | pdelayResp (p : Nat) (f : Flit)
  | pdelayRespFollowUp (p : Nat) (f : Flit)
  | announce (p : Nat) (f : Flit)
  | syncInterval (p : Nat)
  | pdelayInterval (p : Nat)
  | announceInterval (p : Nat)
  | timeLockGained
  | timeLockLost
  | thermalWarning
  | thermalLimit
  | thermalRecovery
  | throttleHoldStart
  | throttleHoldEnd
  | reset
  | unitStart
  | unitReady (u : UnitId)
  | unitSelfTestFail (u : UnitId)
  | patrolScrub (g : Nat)
  | windowRegisterWrite (p : Nat) (f : Flit)
  | queueEnable (p : Nat) (f : Flit)
  | queueDisable (p : Nat) (f : Flit)
  | qtailWrite (p : Nat) (f : Flit)
  | sigpushSet (p : Nat) (f : Flit)
  | sigpushAdd (p : Nat) (f : Flit)
  | signalApply (q : Nat)
  | ctxentWrite (p : Nat) (f : Flit)
  | evcfgWrite (p : Nat) (f : Flit)
  | evconsWrite (p : Nat) (f : Flit)
  | schedHold (p : Nat) (f : Flit)
  | schedRelease (p : Nat) (f : Flit)
  | schedFlush (p : Nat) (f : Flit)
  | tlbinvAll (p : Nat) (f : Flit)
  | tlbinvPage (p : Nat) (f : Flit)
  | shootdownComplete
  | recordRead (q : Nat)
  | startatReached (q n : Nat)
  | schedulerChoice
  | gangGoEffective (q n : Nat)
  | hartSave (b n : Nat)
  | launchComplete (q n : Nat)
  | retentionEnter (b lg : Nat)
  | laneGroupRetire (b lg : Nat)
  | stripClose (b n : Nat)
  | storeBufferTimeout (b n : Nat)
  | tileClaimServed (b n : Nat)
  | smcastStart (b n : Nat)
  | vectorInstructionComplete (b n : Nat)
  | nameCompareDone (b n : Nat)
  | walkComplete (b ctx vmid va : Nat)
  | probePassDone (b n : Nat)
  | changeoverEnd (b : Nat)
  | autoGearDrop (b n : Nat)
  | gearLeadReached (b n : Nat)
  | waittTargetReached (b n : Nat)
  | barrierRelease (q n bar : Nat)
  | energyInterval
  | streamFetch (b n sn : Nat)
  | streamFetchComplete (b n sn : Nat)
  | copyComplete (course i : Nat)
  | mcastLand (course i : Nat)
  | mergeOpenCommand (course i : Nat)
  | mergeEntryArrival (course i : Nat)
  | mergeFinCommand (course i : Nat)
  | mergeStatCommand (course i : Nat)
  | idleTimeout (b n : Nat)
  | csrWriteFstat (b n : Nat)
  | csrWriteFidx (b n : Nat)
  | csrWriteReusehit (b n : Nat)
  | add (d a b : Nat)
  | sub (d a b : Nat)
  | and (d a b : Nat)
  | or (d a b : Nat)
  | xor (d a b : Nat)
  | sll (d a b : Nat)
  | srl (d a b : Nat)
  | sra (d a b : Nat)
  | slt (d a b : Nat)
  | sltn (d a b : Nat)
  | mul (d a b : Nat)
  | mulh (d a b : Nat)
  | mulhn (d a b : Nat)
  | div (d a b : Nat)
  | divn (d a b : Nat)
  | rem (d a b : Nat)
  | remn (d a b : Nat)
  | min (d a b : Nat)
  | minn (d a b : Nat)
  | max (d a b : Nat)
  | maxn (d a b : Nat)
  | clz (d a : Nat)
  | ctz (d a : Nat)
  | popc (d a : Nat)
  | addi (d a : Nat) (i : BitVec 16)
  | andi (d a : Nat) (i : BitVec 16)
  | ori (d a : Nat) (i : BitVec 16)
  | xori (d a : Nat) (i : BitVec 16)
  | slti (d a : Nat) (i : BitVec 16)
  | sltni (d a : Nat) (i : BitVec 16)
  | slli (d a : Nat) (sh : BitVec 6)
  | srli (d a : Nat) (sh : BitVec 6)
  | srai (d a : Nat) (sh : BitVec 6)
  | lhi (d : Nat) (i : BitVec 21)
  | apc (d : Nat) (i : BitVec 21)
  | ld (d a : Nat) (w : Width) (h : Hint) (off : BitVec 10)
  | ldz (d a : Nat) (w : Width) (h : Hint) (off : BitVec 10)
  | fld (d a : Nat) (w : Width) (h : Hint) (off : BitVec 10)
  | st (rs a : Nat) (w : Width) (h : Hint) (off : BitVec 10)
  | fst (rs a : Nat) (w : Width) (h : Hint) (off : BitVec 10)
  | amoadd (d a b : Nat) (w : Bool) (h : Hint)
  | amoswap (d a b : Nat) (w : Bool) (h : Hint)
  | amocas (d a b : Nat) (w : Bool) (h : Hint)
  | amomin (d a b : Nat) (w : Bool) (h : Hint)
  | amominn (d a b : Nat) (w : Bool) (h : Hint)
  | amomax (d a b : Nat) (w : Bool) (h : Hint)
  | amomaxn (d a b : Nat) (w : Bool) (h : Hint)
  | amoand (d a b : Nat) (w : Bool) (h : Hint)
  | amoor (d a b : Nat) (w : Bool) (h : Hint)
  | amoxor (d a b : Nat) (w : Bool) (h : Hint)
  | jal (d : Nat) (i : BitVec 21)
  | jalr (d a : Nat) (i : BitVec 16)
  | beq (a b : Nat) (off : BitVec 13)
  | bne (a b : Nat) (off : BitVec 13)
  | blt (a b : Nat) (off : BitVec 13)
  | bge (a b : Nat) (off : BitVec 13)
  | bltn (a b : Nat) (off : BitVec 13)
  | bgen (a b : Nat) (off : BitVec 13)
  | bkany (k : Nat) (off : BitVec 13)
  | bknone (k : Nat) (off : BitVec 13)
  | fadd (d a b : Nat) (t : FpFmt)
  | fsub (d a b : Nat) (t : FpFmt)
  | fmul (d a b : Nat) (t : FpFmt)
  | fdiv (d a b : Nat) (t : FpFmt)
  | fsqrt (d a : Nat) (t : FpFmt)
  | fmin (d a b : Nat) (t : FpFmt)
  | fmax (d a b : Nat) (t : FpFmt)
  | fclass (d a : Nat) (t : FpFmt)
  | fmvX (d a : Nat)
  | fmvF (d a : Nat)
  | fma (d a b c : Nat) (t : FpFmt)
  | fms (d a b c : Nat) (t : FpFmt)
  | fcvt (d a t f : Nat)
  | fcmpEq (d a b : Nat) (t : FpFmt)
  | fcmpLt (d a b : Nat) (t : FpFmt)
  | fcmpLe (d a b : Nat) (t : FpFmt)
  | fcmpUnord (d a b : Nat) (t : FpFmt)
  | csrr (d n : Nat)
  | csrw (a n : Nat)
  | csrs (a n : Nat)
  | csrc (a n : Nat)
  | setvli (d a : Nat) (v : BitVec 7)
  | fork (d : Nat) (i : BitVec 16)
  | setvl (d a b : Nat)
  | nexti (d : Nat)
  | join (x : Nat)
  | gear (g : Nat)
  | gearauto (g : Nat)
  | waitt (a : Nat)
  | bara (a scope : Nat)
  | barw (a : Nat)
  | fence (paths : BitVec 6) (scope : Nat)
  | svc (code : BitVec 11)
  | eret
  | idle
  | exit
  | vaddVv (d a b k : Nat)
  | vsubVv (d a b k : Nat)
  | vmulVv (d a b k : Nat)
  | vmulhVv (d a b k : Nat)
  | vmulhnVv (d a b k : Nat)
  | vdivVv (d a b k : Nat)
  | vdivnVv (d a b k : Nat)
  | vremVv (d a b k : Nat)
  | vremnVv (d a b k : Nat)
  | vminVv (d a b k : Nat)
  | vminnVv (d a b k : Nat)
  | vmaxVv (d a b k : Nat)
  | vmaxnVv (d a b k : Nat)
  | vandVv (d a b k : Nat)
  | vorVv (d a b k : Nat)
  | vxorVv (d a b k : Nat)
  | vsllVv (d a b k : Nat)
  | vsrlVv (d a b k : Nat)
  | vsraVv (d a b k : Nat)
  | vsaddVv (d a b k : Nat)
  | vsaddnVv (d a b k : Nat)
  | vssubVv (d a b k : Nat)
  | vssubnVv (d a b k : Nat)
  | vaddVx (d a x k : Nat)
  | vsubVx (d a x k : Nat)
  | vmulVx (d a x k : Nat)
  | vmulhVx (d a x k : Nat)
  | vmulhnVx (d a x k : Nat)
  | vdivVx (d a x k : Nat)
  | vdivnVx (d a x k : Nat)
  | vremVx (d a x k : Nat)
  | vremnVx (d a x k : Nat)
  | vminVx (d a x k : Nat)
  | vminnVx (d a x k : Nat)
  | vmaxVx (d a x k : Nat)
  | vmaxnVx (d a x k : Nat)
  | vandVx (d a x k : Nat)
  | vorVx (d a x k : Nat)
  | vxorVx (d a x k : Nat)
  | vsllVx (d a x k : Nat)
  | vsrlVx (d a x k : Nat)
  | vsraVx (d a x k : Nat)
  | vsaddVx (d a x k : Nat)
  | vsaddnVx (d a x k : Nat)
  | vssubVx (d a x k : Nat)
  | vssubnVx (d a x k : Nat)
  | vaddVi (d a : Nat) (i : BitVec 5) (k : Nat)
  | vsubVi (d a : Nat) (i : BitVec 5) (k : Nat)
  | vmulVi (d a : Nat) (i : BitVec 5) (k : Nat)
  | vmulhVi (d a : Nat) (i : BitVec 5) (k : Nat)
  | vmulhnVi (d a : Nat) (i : BitVec 5) (k : Nat)
  | vdivVi (d a : Nat) (i : BitVec 5) (k : Nat)
  | vdivnVi (d a : Nat) (i : BitVec 5) (k : Nat)
  | vremVi (d a : Nat) (i : BitVec 5) (k : Nat)
  | vremnVi (d a : Nat) (i : BitVec 5) (k : Nat)
  | vminVi (d a : Nat) (i : BitVec 5) (k : Nat)
  | vminnVi (d a : Nat) (i : BitVec 5) (k : Nat)
  | vmaxVi (d a : Nat) (i : BitVec 5) (k : Nat)
  | vmaxnVi (d a : Nat) (i : BitVec 5) (k : Nat)
  | vandVi (d a : Nat) (i : BitVec 5) (k : Nat)
  | vorVi (d a : Nat) (i : BitVec 5) (k : Nat)
  | vxorVi (d a : Nat) (i : BitVec 5) (k : Nat)
  | vsllVi (d a : Nat) (i : BitVec 5) (k : Nat)
  | vsrlVi (d a : Nat) (i : BitVec 5) (k : Nat)
  | vsraVi (d a : Nat) (i : BitVec 5) (k : Nat)
  | vsaddVi (d a : Nat) (i : BitVec 5) (k : Nat)
  | vsaddnVi (d a : Nat) (i : BitVec 5) (k : Nat)
  | vssubVi (d a : Nat) (i : BitVec 5) (k : Nat)
  | vssubnVi (d a : Nat) (i : BitVec 5) (k : Nat)
  | vfaddVv (d a b k : Nat) (bf : Bool)
  | vfsubVv (d a b k : Nat) (bf : Bool)
  | vfmulVv (d a b k : Nat) (bf : Bool)
  | vfdivVv (d a b k : Nat) (bf : Bool)
  | vfminVv (d a b k : Nat) (bf : Bool)
  | vfmaxVv (d a b k : Nat) (bf : Bool)
  | vfsqrt (d a k : Nat) (bf : Bool)
  | vfaddVf (d a f k : Nat) (bf : Bool)
  | vfsubVf (d a f k : Nat) (bf : Bool)
  | vfmulVf (d a f k : Nat) (bf : Bool)
  | vfdivVf (d a f k : Nat) (bf : Bool)
  | vfminVf (d a f k : Nat) (bf : Bool)
  | vfmaxVf (d a f k : Nat) (bf : Bool)
  | vfcvt (d a t k f : Nat)
  | vqz (d a t k f : Nat)
  | vdq (d a t k f : Nat)
  | vfexp (d a k : Nat)
  | vflog (d a k : Nat)
  | vgumbel (d k : Nat)
  | vrng (d k : Nat)
  | vrngSeed (rs : Nat)
  | vscl (d a b k : Nat)
  | vsclg (d a : Nat)
  | vfma (d a b k : Nat) (bf : Bool)
  | vfms (d a b k : Nat) (bf : Bool)
  | vdotS (d a b k t : Nat)
  | vdotG (d a b k t : Nat)
  | vadc (d a b c : Nat)
  | vsbc (d a b c : Nat)
  | vaddk (d a b c : Nat)
  | vcmpEq (d a b k : Nat)
  | vcmpNe (d a b k : Nat)
  | vcmpLt (d a b k : Nat)
  | vcmpLtn (d a b k : Nat)
  | vcmpLe (d a b k : Nat)
  | vcmpLen (d a b k : Nat)
  | vcmpFeq (d a b k : Nat) (bf : Bool)
  | vcmpFlt (d a b k : Nat) (bf : Bool)
  | vcmpFle (d a b k : Nat) (bf : Bool)
  | vcmpFunord (d a b k : Nat) (bf : Bool)
  | vmerge (d a b c : Nat)
  | vmvVv (d a : Nat)
  | vmvVx (d rs : Nat)
  | vmvVf (d rs : Nat)
  | vmvXv (d a : Nat)
  | vmvFv (d a : Nat)
  | vid (d k : Nat)
  | kand (d a b : Nat)
  | kor (d a b : Nat)
  | kxor (d a b : Nat)
  | kandn (d a b : Nat)
  | knot (d a : Nat)
  | kmv (d a : Nat)
  | kshl (d a b : Nat)
  | kshr (d a b : Nat)
  | kpop (d a : Nat)
  | kfirst (d a : Nat)
  | klast (d a : Nat)
  | kld (d a : Nat)
  | kst (ks a : Nat)
  | vld (d a k : Nat) (eo so : Bool) (w : Width) (h : Hint)
  | vlds (d a b k : Nat) (eo so : Bool) (w : Width) (h : Hint)
  | vldx (d a b k : Nat) (eo so : Bool) (w : Width) (h : Hint)
  | vldff (d a k : Nat) (eo so : Bool) (w : Width) (h : Hint)
  | vst (vs a k : Nat) (eo so : Bool) (w : Width) (h : Hint)
  | vsts (vs a b k : Nat) (eo so : Bool) (w : Width) (h : Hint)
  | vstx (vs a b k : Nat) (eo so : Bool) (w : Width) (h : Hint)
  | vstxadd (vs a b k : Nat) (w : Width) (f : Bool)
  | vldseg (d a k : Nat) (f so : Bool) (w : Width) (h : Hint)
  | vldpl (d a k : Nat) (eo so : Bool) (w : Width) (h : Hint)
  | vstseg (vs a k : Nat) (f so : Bool) (w : Width) (h : Hint)
  | vstpl (vs a k : Nat) (eo so : Bool) (w : Width) (h : Hint)
  | vamoadd (d a b k : Nat) (w : Width)
  | vamomin (d a b k : Nat) (w : Width) (n : Bool)
  | vamomax (d a b k : Nat) (w : Width) (n : Bool)
  | vamoswap (d a b k : Nat) (w : Width)
  | sbind (d a n : Nat)
  | sunbind (n : Nat)
  | sclose (n : Nat)
  | scopy (d a c : Nat)
  | sxform (d a c : Nat)
  | smcast (d vs c : Nat)
  | xwait (a c : Nat)
  | xpoll (d a c : Nat)
  | mgopen (d a : Nat)
  | mgpush (a b k : Nat)
  | mgfin (d a : Nat)
  | mgstat (d a : Nat)
  | vpass (d c op start cnt : Nat)
  | vpassD (d c op start cnt : Nat)
  | vredS (d a t k : Nat)
  | vredG (d a t k : Nat)
  | vredOp (d a op k : Nat)
  | vscanS (d a t k : Nat)
  | vscanG (d a t k : Nat)
  | vscanOp (d a op k : Nat)
  | vcompress (d a c : Nat)
  | vmaxi (d a f c : Nat)
  | vmaxiBf16 (d a f c : Nat)
  | vsort (d a k : Nat)
  | vsortD (d a k : Nat)
  | vroute (d a : Nat)
  | spadd (d a b : Nat)
  | spmul (d a b : Nat)
  | splen (d a : Nat)
  | opld (n a : Nat)
  | opclr (n : Nat)
  | topaS (t a b k y : Nat)
  | topaG (t a b k y : Nat)
  | tileon (n : Nat)
  | tileoff
  | tzero (t : Nat)
  | tld (t a b : Nat) (h : Hint)
  | tst (t a b : Nat) (h : Hint)
  | tmvr (d t a k : Nat)
  | tmvc (d t a k : Nat)
  | tvmr (t vs a : Nat)
  | tvmc (t vs a : Nat)
  | nop
  | hpf (a : Nat) (h : Hint) (off : BitVec 12)
  | illegalInstruction (reserved : Bool) (w : BitVec 32)
  | hintNoOp (w : BitVec 32)
  | instructionFetchFault
  | idleEarlyEnd (b n : Nat)
  | flushComplete
  | restoreComplete (b n : Nat)
deriving DecidableEq, Repr

end Sys2Proof
end

