-- ==== Sys2Proof/WellFormed.lean ====
section
/-! DEFINITION. Well-formed instructions: every field within the width its encoding gives it (R253 to R269), a type
code that an encoding assigns (R263, R268), and for the steps of the device a unit, port, brick, hart, queue or flit
that exists. -/

namespace Sys2Proof

/-- A flit whose fields fit the widths of R17 and R18. -/
def Flit.wf (f : Flit) : Bool :=
  f.cls < 4 && f.kind < 64 && f.dst < 4096 && f.src < 4096 && f.vmid < 64 && f.ctx < 4096 && f.pa < 2 ^ 52 &&
  f.len < 224 && f.seq < 256 && f.reserved < 64 && f.payload.length == 224 && f.ackseq < 256 &&
  f.credits.length == 4 && f.credits.all (· < 65536)

/-- A unit that exists (R35). -/
def UnitId.wf : UnitId → Bool
  | .course i => i < 64
  | .brick i => i < 1024
  | .chan i => i < 128
  | .port i => i < 32

/-- A word of major 0x3C that is neither nop nor an hpf (R269). -/
def hintWord (w : Nat) : Bool :=
  w / 2 ^ 26 == 0x3C && w != 0xF0000000 && !(w / 2 ^ 21 % 32 == 1 && w / 2 ^ 14 % 4 == 0)

/-- Well-formed instructions. -/
def Instr.wf : Instr → Bool
  | .readRequest p f => p < 32 && f.wf
  | .readResponse p f => p < 32 && f.wf
  | .readStatus p f => p < 32 && f.wf
  | .write p f => p < 32 && f.wf
  | .writeAcknowledgement p f => p < 32 && f.wf
  | .atomicRequest p f => p < 32 && f.wf
  | .atomicResponse p f => p < 32 && f.wf
  | .linkControl p f => p < 32 && f.wf
  | .flitDiscard p f => p < 32 && f.wf
  | .flitCrcFailure p => p < 32
  | .replayTimeout p => p < 32
  | .portDown p => p < 32
  | .linkControlKeepalive p => p < 32
  | .portTrainingDone p => p < 32
  | .portTrainingFailed p => p < 32
  | .portFail p => p < 32
  | .scheduledSlotStart p slot => p < 32 && slot < 128
  | .systemBarrierArrival p f => p < 32 && f.wf
  | .systemBarrierRelease p f => p < 32 && f.wf
  | .gangReady p f => p < 32 && f.wf
  | .gangGo p f => p < 32 && f.wf
  | .withdrawRequest p f => p < 32 && f.wf
  | .withdraw p f => p < 32 && f.wf
  | .tokenProgress p f => p < 32 && f.wf
  | .preemptionRelay p f => p < 32 && f.wf
  | .gangFailed p f => p < 32 && f.wf
  | .throttleNotice p f => p < 32 && f.wf
  | .gmcManagementRead p f => p < 32 && f.wf
  | .gmcManagementWrite p f => p < 32 && f.wf
  | .gmcWriteThold p f => p < 32 && f.wf
  | .gmcWriteGrandmaster p f => p < 32 && f.wf
  | .gmcWriteMinSecurity p f => p < 32 && f.wf
  | .gmcRestartTraining p f => p < 32 && f.wf
  | .attestationRequest p f => p < 32 && f.wf
  | .sync p f => p < 32 && f.wf
  | .followUp p f => p < 32 && f.wf
  | .pdelayReq p f => p < 32 && f.wf
  | .pdelayResp p f => p < 32 && f.wf
  | .pdelayRespFollowUp p f => p < 32 && f.wf
  | .announce p f => p < 32 && f.wf
  | .syncInterval p => p < 32
  | .pdelayInterval p => p < 32
  | .announceInterval p => p < 32
  | .timeLockGained => true
  | .timeLockLost => true
  | .thermalWarning => true
  | .thermalLimit => true
  | .thermalRecovery => true
  | .throttleHoldStart => true
  | .throttleHoldEnd => true
  | .reset => true
  | .unitStart => true
  | .unitReady u => u.wf
  | .unitSelfTestFail u => u.wf
  | .patrolScrub g => g < 4294967296
  | .windowRegisterWrite p f => p < 32 && f.wf
  | .queueEnable p f => p < 32 && f.wf
  | .queueDisable p f => p < 32 && f.wf
  | .qtailWrite p f => p < 32 && f.wf
  | .sigpushSet p f => p < 32 && f.wf
  | .sigpushAdd p f => p < 32 && f.wf
  | .signalApply q => q < 4096
  | .ctxentWrite p f => p < 32 && f.wf
  | .evcfgWrite p f => p < 32 && f.wf
  | .evconsWrite p f => p < 32 && f.wf
  | .schedHold p f => p < 32 && f.wf
  | .schedRelease p f => p < 32 && f.wf
  | .schedFlush p f => p < 32 && f.wf
  | .tlbinvAll p f => p < 32 && f.wf
  | .tlbinvPage p f => p < 32 && f.wf
  | .shootdownComplete => true
  | .recordRead q => q < 4096
  | .startatReached q n => q < 4096 && n < 4294967296
  | .schedulerChoice => true
  | .gangGoEffective q n => q < 4096 && n < 4294967296
  | .hartSave b n => b < 1024 && n < 4
  | .launchComplete q n => q < 4096 && n < 4294967296
  | .retentionEnter b lg => b < 1024 && lg < 4
  | .laneGroupRetire b lg => b < 1024 && lg < 4
  | .stripClose b n => b < 1024 && n < 4
  | .storeBufferTimeout b n => b < 1024 && n < 4
  | .tileClaimServed b n => b < 1024 && n < 4
  | .smcastStart b n => b < 1024 && n < 4
  | .vectorInstructionComplete b n => b < 1024 && n < 4
  | .nameCompareDone b n => b < 1024 && n < 4
  | .walkComplete b ctx vmid va => b < 1024 && ctx < 4096 && vmid < 64 && va < 72057594037927936
  | .probePassDone b n => b < 1024 && n < 4
  | .changeoverEnd b => b < 1024
  | .autoGearDrop b n => b < 1024 && n < 4
  | .gearLeadReached b n => b < 1024 && n < 4
  | .waittTargetReached b n => b < 1024 && n < 4
  | .barrierRelease q n bar => q < 4096 && n < 4294967296 && bar < 65536
  | .energyInterval => true
  | .streamFetch b n sn => b < 1024 && n < 4 && sn < 8
  | .streamFetchComplete b n sn => b < 1024 && n < 4 && sn < 8
  | .copyComplete course _ => course < 64
  | .mcastLand course _ => course < 64
  | .mergeOpenCommand course _ => course < 64
  | .mergeEntryArrival course _ => course < 64
  | .mergeFinCommand course _ => course < 64
  | .mergeStatCommand course _ => course < 64
  | .idleTimeout b n => b < 1024 && n < 4
  | .csrWriteFstat b n => b < 1024 && n < 4
  | .csrWriteFidx b n => b < 1024 && n < 4
  | .csrWriteReusehit b n => b < 1024 && n < 4
  | .add d a b => d < 32 && a < 32 && b < 32
  | .sub d a b => d < 32 && a < 32 && b < 32
  | .and d a b => d < 32 && a < 32 && b < 32
  | .or d a b => d < 32 && a < 32 && b < 32
  | .xor d a b => d < 32 && a < 32 && b < 32
  | .sll d a b => d < 32 && a < 32 && b < 32
  | .srl d a b => d < 32 && a < 32 && b < 32
  | .sra d a b => d < 32 && a < 32 && b < 32
  | .slt d a b => d < 32 && a < 32 && b < 32
  | .sltn d a b => d < 32 && a < 32 && b < 32
  | .mul d a b => d < 32 && a < 32 && b < 32
  | .mulh d a b => d < 32 && a < 32 && b < 32
  | .mulhn d a b => d < 32 && a < 32 && b < 32
  | .div d a b => d < 32 && a < 32 && b < 32
  | .divn d a b => d < 32 && a < 32 && b < 32
  | .rem d a b => d < 32 && a < 32 && b < 32
  | .remn d a b => d < 32 && a < 32 && b < 32
  | .min d a b => d < 32 && a < 32 && b < 32
  | .minn d a b => d < 32 && a < 32 && b < 32
  | .max d a b => d < 32 && a < 32 && b < 32
  | .maxn d a b => d < 32 && a < 32 && b < 32
  | .clz d a => d < 32 && a < 32
  | .ctz d a => d < 32 && a < 32
  | .popc d a => d < 32 && a < 32
  | .addi d a _ => d < 32 && a < 32
  | .andi d a _ => d < 32 && a < 32
  | .ori d a _ => d < 32 && a < 32
  | .xori d a _ => d < 32 && a < 32
  | .slti d a _ => d < 32 && a < 32
  | .sltni d a _ => d < 32 && a < 32
  | .slli d a _ => d < 32 && a < 32
  | .srli d a _ => d < 32 && a < 32
  | .srai d a _ => d < 32 && a < 32
  | .lhi d _ => d < 32
  | .apc d _ => d < 32
  | .ld d a _ _ _ => d < 32 && a < 32
  | .ldz d a _ _ _ => d < 32 && a < 32
  | .fld d a _ _ _ => d < 32 && a < 32
  | .st rs a _ _ _ => rs < 32 && a < 32
  | .fst rs a _ _ _ => rs < 32 && a < 32
  | .amoadd d a b _ _ => d < 32 && a < 32 && b < 32
  | .amoswap d a b _ _ => d < 32 && a < 32 && b < 32
  | .amocas d a b _ _ => d < 32 && a < 32 && b < 32
  | .amomin d a b _ _ => d < 32 && a < 32 && b < 32
  | .amominn d a b _ _ => d < 32 && a < 32 && b < 32
  | .amomax d a b _ _ => d < 32 && a < 32 && b < 32
  | .amomaxn d a b _ _ => d < 32 && a < 32 && b < 32
  | .amoand d a b _ _ => d < 32 && a < 32 && b < 32
  | .amoor d a b _ _ => d < 32 && a < 32 && b < 32
  | .amoxor d a b _ _ => d < 32 && a < 32 && b < 32
  | .jal d _ => d < 32
  | .jalr d a _ => d < 32 && a < 32
  | .beq a b _ => a < 32 && b < 32
  | .bne a b _ => a < 32 && b < 32
  | .blt a b _ => a < 32 && b < 32
  | .bge a b _ => a < 32 && b < 32
  | .bltn a b _ => a < 32 && b < 32
  | .bgen a b _ => a < 32 && b < 32
  | .bkany k _ => k < 8
  | .bknone k _ => k < 8
  | .fadd d a b _ => d < 32 && a < 32 && b < 32
  | .fsub d a b _ => d < 32 && a < 32 && b < 32
  | .fmul d a b _ => d < 32 && a < 32 && b < 32
  | .fdiv d a b _ => d < 32 && a < 32 && b < 32
  | .fsqrt d a _ => d < 32 && a < 32
  | .fmin d a b _ => d < 32 && a < 32 && b < 32
  | .fmax d a b _ => d < 32 && a < 32 && b < 32
  | .fclass d a _ => d < 32 && a < 32
  | .fmvX d a => d < 32 && a < 32
  | .fmvF d a => d < 32 && a < 32
  | .fma d a b c _ => d < 32 && a < 32 && b < 32 && c < 32
  | .fms d a b c _ => d < 32 && a < 32 && b < 32 && c < 32
  | .fcvt d a t f => d < 32 && a < 32 && t < 16 && f < 16
  | .fcmpEq d a b _ => d < 32 && a < 32 && b < 32
  | .fcmpLt d a b _ => d < 32 && a < 32 && b < 32
  | .fcmpLe d a b _ => d < 32 && a < 32 && b < 32
  | .fcmpUnord d a b _ => d < 32 && a < 32 && b < 32
  | .csrr d n => d < 32 && n < 256
  | .csrw a n => a < 32 && n < 256
  | .csrs a n => a < 32 && n < 256
  | .csrc a n => a < 32 && n < 256
  | .setvli d a _ => d < 32 && a < 32
  | .fork d _ => d < 32
  | .setvl d a b => d < 32 && a < 32 && b < 32
  | .nexti d => d < 32
  | .join x => x < 32
  | .gear g => g < 32
  | .gearauto g => g < 32
  | .waitt a => a < 32
  | .bara a scope => a < 32 && scope < 8
  | .barw a => a < 32
  | .fence _ scope => scope < 8
  | .svc _ => true
  | .eret => true
  | .idle => true
  | .exit => true
  | .vaddVv d a b k => d < 32 && a < 32 && b < 32 && k < 8
  | .vsubVv d a b k => d < 32 && a < 32 && b < 32 && k < 8
  | .vmulVv d a b k => d < 32 && a < 32 && b < 32 && k < 8
  | .vmulhVv d a b k => d < 32 && a < 32 && b < 32 && k < 8
  | .vmulhnVv d a b k => d < 32 && a < 32 && b < 32 && k < 8
  | .vdivVv d a b k => d < 32 && a < 32 && b < 32 && k < 8
  | .vdivnVv d a b k => d < 32 && a < 32 && b < 32 && k < 8
  | .vremVv d a b k => d < 32 && a < 32 && b < 32 && k < 8
  | .vremnVv d a b k => d < 32 && a < 32 && b < 32 && k < 8
  | .vminVv d a b k => d < 32 && a < 32 && b < 32 && k < 8
  | .vminnVv d a b k => d < 32 && a < 32 && b < 32 && k < 8
  | .vmaxVv d a b k => d < 32 && a < 32 && b < 32 && k < 8
  | .vmaxnVv d a b k => d < 32 && a < 32 && b < 32 && k < 8
  | .vandVv d a b k => d < 32 && a < 32 && b < 32 && k < 8
  | .vorVv d a b k => d < 32 && a < 32 && b < 32 && k < 8
  | .vxorVv d a b k => d < 32 && a < 32 && b < 32 && k < 8
  | .vsllVv d a b k => d < 32 && a < 32 && b < 32 && k < 8
  | .vsrlVv d a b k => d < 32 && a < 32 && b < 32 && k < 8
  | .vsraVv d a b k => d < 32 && a < 32 && b < 32 && k < 8
  | .vsaddVv d a b k => d < 32 && a < 32 && b < 32 && k < 8
  | .vsaddnVv d a b k => d < 32 && a < 32 && b < 32 && k < 8
  | .vssubVv d a b k => d < 32 && a < 32 && b < 32 && k < 8
  | .vssubnVv d a b k => d < 32 && a < 32 && b < 32 && k < 8
  | .vaddVx d a x k => d < 32 && a < 32 && x < 32 && k < 8
  | .vsubVx d a x k => d < 32 && a < 32 && x < 32 && k < 8
  | .vmulVx d a x k => d < 32 && a < 32 && x < 32 && k < 8
  | .vmulhVx d a x k => d < 32 && a < 32 && x < 32 && k < 8
  | .vmulhnVx d a x k => d < 32 && a < 32 && x < 32 && k < 8
  | .vdivVx d a x k => d < 32 && a < 32 && x < 32 && k < 8
  | .vdivnVx d a x k => d < 32 && a < 32 && x < 32 && k < 8
  | .vremVx d a x k => d < 32 && a < 32 && x < 32 && k < 8
  | .vremnVx d a x k => d < 32 && a < 32 && x < 32 && k < 8
  | .vminVx d a x k => d < 32 && a < 32 && x < 32 && k < 8
  | .vminnVx d a x k => d < 32 && a < 32 && x < 32 && k < 8
  | .vmaxVx d a x k => d < 32 && a < 32 && x < 32 && k < 8
  | .vmaxnVx d a x k => d < 32 && a < 32 && x < 32 && k < 8
  | .vandVx d a x k => d < 32 && a < 32 && x < 32 && k < 8
  | .vorVx d a x k => d < 32 && a < 32 && x < 32 && k < 8
  | .vxorVx d a x k => d < 32 && a < 32 && x < 32 && k < 8
  | .vsllVx d a x k => d < 32 && a < 32 && x < 32 && k < 8
  | .vsrlVx d a x k => d < 32 && a < 32 && x < 32 && k < 8
  | .vsraVx d a x k => d < 32 && a < 32 && x < 32 && k < 8
  | .vsaddVx d a x k => d < 32 && a < 32 && x < 32 && k < 8
  | .vsaddnVx d a x k => d < 32 && a < 32 && x < 32 && k < 8
  | .vssubVx d a x k => d < 32 && a < 32 && x < 32 && k < 8
  | .vssubnVx d a x k => d < 32 && a < 32 && x < 32 && k < 8
  | .vaddVi d a _ k => d < 32 && a < 32 && k < 8
  | .vsubVi d a _ k => d < 32 && a < 32 && k < 8
  | .vmulVi d a _ k => d < 32 && a < 32 && k < 8
  | .vmulhVi d a _ k => d < 32 && a < 32 && k < 8
  | .vmulhnVi d a _ k => d < 32 && a < 32 && k < 8
  | .vdivVi d a _ k => d < 32 && a < 32 && k < 8
  | .vdivnVi d a _ k => d < 32 && a < 32 && k < 8
  | .vremVi d a _ k => d < 32 && a < 32 && k < 8
  | .vremnVi d a _ k => d < 32 && a < 32 && k < 8
  | .vminVi d a _ k => d < 32 && a < 32 && k < 8
  | .vminnVi d a _ k => d < 32 && a < 32 && k < 8
  | .vmaxVi d a _ k => d < 32 && a < 32 && k < 8
  | .vmaxnVi d a _ k => d < 32 && a < 32 && k < 8
  | .vandVi d a _ k => d < 32 && a < 32 && k < 8
  | .vorVi d a _ k => d < 32 && a < 32 && k < 8
  | .vxorVi d a _ k => d < 32 && a < 32 && k < 8
  | .vsllVi d a _ k => d < 32 && a < 32 && k < 8
  | .vsrlVi d a _ k => d < 32 && a < 32 && k < 8
  | .vsraVi d a _ k => d < 32 && a < 32 && k < 8
  | .vsaddVi d a _ k => d < 32 && a < 32 && k < 8
  | .vsaddnVi d a _ k => d < 32 && a < 32 && k < 8
  | .vssubVi d a _ k => d < 32 && a < 32 && k < 8
  | .vssubnVi d a _ k => d < 32 && a < 32 && k < 8
  | .vfaddVv d a b k _ => d < 32 && a < 32 && b < 32 && k < 8
  | .vfsubVv d a b k _ => d < 32 && a < 32 && b < 32 && k < 8
  | .vfmulVv d a b k _ => d < 32 && a < 32 && b < 32 && k < 8
  | .vfdivVv d a b k _ => d < 32 && a < 32 && b < 32 && k < 8
  | .vfminVv d a b k _ => d < 32 && a < 32 && b < 32 && k < 8
  | .vfmaxVv d a b k _ => d < 32 && a < 32 && b < 32 && k < 8
  | .vfsqrt d a k _ => d < 32 && a < 32 && k < 8
  | .vfaddVf d a f k _ => d < 32 && a < 32 && f < 32 && k < 8
  | .vfsubVf d a f k _ => d < 32 && a < 32 && f < 32 && k < 8
  | .vfmulVf d a f k _ => d < 32 && a < 32 && f < 32 && k < 8
  | .vfdivVf d a f k _ => d < 32 && a < 32 && f < 32 && k < 8
  | .vfminVf d a f k _ => d < 32 && a < 32 && f < 32 && k < 8
  | .vfmaxVf d a f k _ => d < 32 && a < 32 && f < 32 && k < 8
  | .vfcvt d a t k f => d < 32 && a < 32 && t < 32 && k < 8 && f < 32
  | .vqz d a t k f => d < 32 && a < 32 && t < 32 && k < 8 && f < 32
  | .vdq d a t k f => d < 32 && a < 32 && t < 32 && k < 8 && f < 32
  | .vfexp d a k => d < 32 && a < 32 && k < 8
  | .vflog d a k => d < 32 && a < 32 && k < 8
  | .vgumbel d k => d < 32 && k < 8
  | .vrng d k => d < 32 && k < 8
  | .vrngSeed rs => rs < 32
  | .vscl d a b k => d < 32 && a < 32 && b < 32 && k < 8
  | .vsclg d a => d < 32 && a < 32
  | .vfma d a b k _ => d < 32 && a < 32 && b < 32 && k < 8
  | .vfms d a b k _ => d < 32 && a < 32 && b < 32 && k < 8
  | .vdotS d a b k t => d < 32 && a < 32 && b < 32 && k < 8 && t < 6
  | .vdotG d a b k t => d < 32 && a < 32 && b < 32 && k < 8 && t < 6
  | .vadc d a b c => d < 32 && a < 32 && b < 32 && c < 8
  | .vsbc d a b c => d < 32 && a < 32 && b < 32 && c < 8
  | .vaddk d a b c => d < 8 && a < 32 && b < 32 && c < 8
  | .vcmpEq d a b k => d < 8 && a < 32 && b < 32 && k < 8
  | .vcmpNe d a b k => d < 8 && a < 32 && b < 32 && k < 8
  | .vcmpLt d a b k => d < 8 && a < 32 && b < 32 && k < 8
  | .vcmpLtn d a b k => d < 8 && a < 32 && b < 32 && k < 8
  | .vcmpLe d a b k => d < 8 && a < 32 && b < 32 && k < 8
  | .vcmpLen d a b k => d < 8 && a < 32 && b < 32 && k < 8
  | .vcmpFeq d a b k _ => d < 8 && a < 32 && b < 32 && k < 8
  | .vcmpFlt d a b k _ => d < 8 && a < 32 && b < 32 && k < 8
  | .vcmpFle d a b k _ => d < 8 && a < 32 && b < 32 && k < 8
  | .vcmpFunord d a b k _ => d < 8 && a < 32 && b < 32 && k < 8
  | .vmerge d a b c => d < 32 && a < 32 && b < 32 && c < 8
  | .vmvVv d a => d < 32 && a < 32
  | .vmvVx d rs => d < 32 && rs < 32
  | .vmvVf d rs => d < 32 && rs < 32
  | .vmvXv d a => d < 32 && a < 32
  | .vmvFv d a => d < 32 && a < 32
  | .vid d k => d < 32 && k < 8
  | .kand d a b => d < 8 && a < 8 && b < 8
  | .kor d a b => d < 8 && a < 8 && b < 8
  | .kxor d a b => d < 8 && a < 8 && b < 8
  | .kandn d a b => d < 8 && a < 8 && b < 8
  | .knot d a => d < 8 && a < 8
  | .kmv d a => d < 8 && a < 8
  | .kshl d a b => d < 8 && a < 8 && b < 32
  | .kshr d a b => d < 8 && a < 8 && b < 32
  | .kpop d a => d < 32 && a < 8
  | .kfirst d a => d < 32 && a < 8
  | .klast d a => d < 32 && a < 8
  | .kld d a => d < 8 && a < 32
  | .kst ks a => ks < 8 && a < 32
  | .vld d a k _ _ _ _ => d < 32 && a < 32 && k < 8
  | .vlds d a b k _ _ _ _ => d < 32 && a < 32 && b < 32 && k < 8
  | .vldx d a b k _ _ _ _ => d < 32 && a < 32 && b < 32 && k < 8
  | .vldff d a k _ _ _ _ => d < 32 && a < 32 && k < 8
  | .vst vs a k _ _ _ _ => vs < 32 && a < 32 && k < 8
  | .vsts vs a b k _ _ _ _ => vs < 32 && a < 32 && b < 32 && k < 8
  | .vstx vs a b k _ _ _ _ => vs < 32 && a < 32 && b < 32 && k < 8
  | .vstxadd vs a b k _ _ => vs < 32 && a < 32 && b < 32 && k < 8
  | .vldseg d a k _ _ _ _ => d < 32 && a < 32 && k < 8
  | .vldpl d a k _ _ _ _ => d < 32 && a < 32 && k < 8
  | .vstseg vs a k _ _ _ _ => vs < 32 && a < 32 && k < 8
  | .vstpl vs a k _ _ _ _ => vs < 32 && a < 32 && k < 8
  | .vamoadd d a b k _ => d < 32 && a < 32 && b < 32 && k < 8
  | .vamomin d a b k _ _ => d < 32 && a < 32 && b < 32 && k < 8
  | .vamomax d a b k _ _ => d < 32 && a < 32 && b < 32 && k < 8
  | .vamoswap d a b k _ => d < 32 && a < 32 && b < 32 && k < 8
  | .sbind d a n => d < 32 && a < 32 && n < 8
  | .sunbind n => n < 8
  | .sclose n => n < 8
  | .scopy d a c => d < 32 && a < 32 && c < 4
  | .sxform d a c => d < 32 && a < 32 && c < 4
  | .smcast d vs c => d < 32 && vs < 32 && c < 4
  | .xwait a c => a < 32 && c < 4
  | .xpoll d a c => d < 32 && a < 32 && c < 4
  | .mgopen d a => d < 32 && a < 32
  | .mgpush a b k => a < 32 && b < 32 && k < 8
  | .mgfin d a => d < 32 && a < 32
  | .mgstat d a => d < 32 && a < 32
  | .vpass d c op start cnt => d < 32 && c < 32 && op < 16 && start < 16 && cnt < 8
  | .vpassD d c op start cnt => d < 32 && c < 32 && op < 16 && start < 16 && cnt < 8
  | .vredS d a t k => d < 32 && a < 32 && t < 32 && k < 8
  | .vredG d a t k => d < 32 && a < 32 && t < 32 && k < 8
  | .vredOp d a op k => d < 32 && a < 32 && op < 32 && k < 8
  | .vscanS d a t k => d < 32 && a < 32 && t < 32 && k < 8
  | .vscanG d a t k => d < 32 && a < 32 && t < 32 && k < 8
  | .vscanOp d a op k => d < 32 && a < 32 && op < 32 && k < 8
  | .vcompress d a c => d < 32 && a < 32 && c < 8
  | .vmaxi d a f c => d < 32 && a < 32 && f < 32 && c < 8
  | .vmaxiBf16 d a f c => d < 32 && a < 32 && f < 32 && c < 8
  | .vsort d a k => d < 32 && a < 32 && k < 8
  | .vsortD d a k => d < 32 && a < 32 && k < 8
  | .vroute d a => d < 32 && a < 32
  | .spadd d a b => d < 8 && a < 8 && b < 8
  | .spmul d a b => d < 8 && a < 8 && b < 8
  | .splen d a => d < 8 && a < 32
  | .opld n a => n < 8 && a < 32
  | .opclr n => n < 8
  | .topaS t a b k y => t < 8 && a < 32 && b < 32 && k < 8 && y < 6
  | .topaG t a b k y => t < 8 && a < 32 && b < 32 && k < 8 && y < 6
  | .tileon n => n < 2048
  | .tileoff => true
  | .tzero t => t < 8
  | .tld t a b _ => t < 8 && a < 32 && b < 32
  | .tst t a b _ => t < 8 && a < 32 && b < 32
  | .tmvr d t a k => d < 32 && t < 8 && a < 32 && k < 8
  | .tmvc d t a k => d < 32 && t < 8 && a < 32 && k < 8
  | .tvmr t vs a => t < 8 && vs < 32 && a < 32
  | .tvmc t vs a => t < 8 && vs < 32 && a < 32
  | .nop => true
  | .hpf a _ _ => a < 32
  | .illegalInstruction _ _ => true
  | .hintNoOp w => hintWord w.toNat
  | .instructionFetchFault => true
  | .idleEarlyEnd b n => b < 1024 && n < 4
  | .flushComplete => true
  | .restoreComplete b n => b < 1024 && n < 4

/-- The steps of the device that happen of themselves. The other constructors are an instruction in hand or what arrives at a
port. -/
def Instr.isEvent : Instr → Bool
  | .replayTimeout _ => true
  | .portDown _ => true
  | .linkControlKeepalive _ => true
  | .portTrainingDone _ => true
  | .portTrainingFailed _ => true
  | .portFail _ => true
  | .scheduledSlotStart _ _ => true
  | .syncInterval _ => true
  | .pdelayInterval _ => true
  | .announceInterval _ => true
  | .timeLockGained => true
  | .timeLockLost => true
  | .thermalWarning => true
  | .thermalLimit => true
  | .thermalRecovery => true
  | .throttleHoldStart => true
  | .throttleHoldEnd => true
  | .reset => true
  | .unitStart => true
  | .unitReady _ => true
  | .unitSelfTestFail _ => true
  | .patrolScrub _ => true
  | .signalApply _ => true
  | .shootdownComplete => true
  | .recordRead _ => true
  | .startatReached _ _ => true
  | .schedulerChoice => true
  | .gangGoEffective _ _ => true
  | .hartSave _ _ => true
  | .launchComplete _ _ => true
  | .retentionEnter _ _ => true
  | .laneGroupRetire _ _ => true
  | .stripClose _ _ => true
  | .storeBufferTimeout _ _ => true
  | .tileClaimServed _ _ => true
  | .smcastStart _ _ => true
  | .vectorInstructionComplete _ _ => true
  | .nameCompareDone _ _ => true
  | .walkComplete _ _ _ _ => true
  | .probePassDone _ _ => true
  | .changeoverEnd _ => true
  | .autoGearDrop _ _ => true
  | .gearLeadReached _ _ => true
  | .waittTargetReached _ _ => true
  | .barrierRelease _ _ _ => true
  | .energyInterval => true
  | .streamFetch _ _ _ => true
  | .streamFetchComplete _ _ _ => true
  | .copyComplete _ _ => true
  | .mcastLand _ _ => true
  | .mergeOpenCommand _ _ => true
  | .mergeEntryArrival _ _ => true
  | .mergeFinCommand _ _ => true
  | .mergeStatCommand _ _ => true
  | .idleTimeout _ _ => true
  | .csrWriteFstat _ _ => true
  | .csrWriteFidx _ _ => true
  | .csrWriteReusehit _ _ => true
  | .idleEarlyEnd _ _ => true
  | .flushComplete => true
  | .restoreComplete _ _ => true
  | _ => false

end Sys2Proof
end

