-- ==== Sys2Proof/Decode.lean ====
section
/-! DEFINITION. Decoding, in the order of R270, and encoding, from the tables of R253 to R269. A word is a natural
number below 2^32, bit 0 its least significant. The decoders of the later majors carry the word noncomputable for one
reason only: Lean's runtime has no tags for so many constructors. They are plain functions, which the kernel evaluates. -/

namespace Sys2Proof

/-- Why a word is no instruction (R270): an unassigned major or code gives cause 0x01, a nonzero reserved field gives
cause 0x05. `truncated` says that fewer than four bytes were offered. -/
inductive DecodeReject where
  | illegal
  | reserved
  | truncated
deriving DecidableEq, Repr

/-- Bits [lo + n − 1 : lo] of a word. -/
def fld (w lo n : Nat) : Nat := w / 2 ^ lo % 2 ^ n

/-- Step 5 of R270: the assigned instruction's reserved bits `r` must be zero. -/
def clean (r : Nat) (i : Instr) : Except DecodeReject Instr :=
  if r = 0 then .ok i else .error .reserved

/-- Major 0x01 (R256). -/
def decodeMajor01 (w : Nat) : Except DecodeReject Instr :=
  match fld w 0 11 with
  | 0x0 => .ok (.add (fld w 21 5) (fld w 16 5) (fld w 11 5))
  | 0x1 => .ok (.sub (fld w 21 5) (fld w 16 5) (fld w 11 5))
  | 0x2 => .ok (.and (fld w 21 5) (fld w 16 5) (fld w 11 5))
  | 0x3 => .ok (.or (fld w 21 5) (fld w 16 5) (fld w 11 5))
  | 0x4 => .ok (.xor (fld w 21 5) (fld w 16 5) (fld w 11 5))
  | 0x5 => .ok (.sll (fld w 21 5) (fld w 16 5) (fld w 11 5))
  | 0x6 => .ok (.srl (fld w 21 5) (fld w 16 5) (fld w 11 5))
  | 0x7 => .ok (.sra (fld w 21 5) (fld w 16 5) (fld w 11 5))
  | 0x8 => .ok (.slt (fld w 21 5) (fld w 16 5) (fld w 11 5))
  | 0x9 => .ok (.sltn (fld w 21 5) (fld w 16 5) (fld w 11 5))
  | 0xa => .ok (.mul (fld w 21 5) (fld w 16 5) (fld w 11 5))
  | 0xb => .ok (.mulh (fld w 21 5) (fld w 16 5) (fld w 11 5))
  | 0xc => .ok (.mulhn (fld w 21 5) (fld w 16 5) (fld w 11 5))
  | 0xd => .ok (.div (fld w 21 5) (fld w 16 5) (fld w 11 5))
  | 0xe => .ok (.divn (fld w 21 5) (fld w 16 5) (fld w 11 5))
  | 0xf => .ok (.rem (fld w 21 5) (fld w 16 5) (fld w 11 5))
  | 0x10 => .ok (.remn (fld w 21 5) (fld w 16 5) (fld w 11 5))
  | 0x11 => .ok (.min (fld w 21 5) (fld w 16 5) (fld w 11 5))
  | 0x12 => .ok (.minn (fld w 21 5) (fld w 16 5) (fld w 11 5))
  | 0x13 => .ok (.max (fld w 21 5) (fld w 16 5) (fld w 11 5))
  | 0x14 => .ok (.maxn (fld w 21 5) (fld w 16 5) (fld w 11 5))
  | 0x15 => clean (fld w 11 5) (.clz (fld w 21 5) (fld w 16 5))
  | 0x16 => clean (fld w 11 5) (.ctz (fld w 21 5) (fld w 16 5))
  | 0x17 => clean (fld w 11 5) (.popc (fld w 21 5) (fld w 16 5))
  | _ => .error .illegal

/-- Major 0x02 (R256). -/
def decodeMajor02 (w : Nat) : Except DecodeReject Instr :=
  .ok (.addi (fld w 21 5) (fld w 16 5) (BitVec.ofNat 16 (fld w 0 16)))

/-- Major 0x03 (R256). -/
def decodeMajor03 (w : Nat) : Except DecodeReject Instr :=
  .ok (.andi (fld w 21 5) (fld w 16 5) (BitVec.ofNat 16 (fld w 0 16)))

/-- Major 0x04 (R256). -/
def decodeMajor04 (w : Nat) : Except DecodeReject Instr :=
  .ok (.ori (fld w 21 5) (fld w 16 5) (BitVec.ofNat 16 (fld w 0 16)))

/-- Major 0x05 (R256). -/
def decodeMajor05 (w : Nat) : Except DecodeReject Instr :=
  .ok (.xori (fld w 21 5) (fld w 16 5) (BitVec.ofNat 16 (fld w 0 16)))

/-- Major 0x06 (R256). -/
def decodeMajor06 (w : Nat) : Except DecodeReject Instr :=
  .ok (.slti (fld w 21 5) (fld w 16 5) (BitVec.ofNat 16 (fld w 0 16)))

/-- Major 0x07 (R256). -/
def decodeMajor07 (w : Nat) : Except DecodeReject Instr :=
  .ok (.sltni (fld w 21 5) (fld w 16 5) (BitVec.ofNat 16 (fld w 0 16)))

/-- Major 0x08 (R256). -/
def decodeMajor08 (w : Nat) : Except DecodeReject Instr :=
  match fld w 6 2 with
  | 0x0 => clean (fld w 8 8) (.slli (fld w 21 5) (fld w 16 5) (BitVec.ofNat 6 (fld w 0 6)))
  | 0x1 => clean (fld w 8 8) (.srli (fld w 21 5) (fld w 16 5) (BitVec.ofNat 6 (fld w 0 6)))
  | 0x2 => clean (fld w 8 8) (.srai (fld w 21 5) (fld w 16 5) (BitVec.ofNat 6 (fld w 0 6)))
  | _ => .error .illegal

/-- Major 0x09 (R256). -/
def decodeMajor09 (w : Nat) : Except DecodeReject Instr :=
  .ok (.lhi (fld w 21 5) (BitVec.ofNat 21 (fld w 0 21)))

/-- Major 0x0a (R256). -/
def decodeMajor0A (w : Nat) : Except DecodeReject Instr :=
  .ok (.apc (fld w 21 5) (BitVec.ofNat 21 (fld w 0 21)))

/-- Major 0x10 (R257). -/
def decodeMajor10 (w : Nat) : Except DecodeReject Instr :=
  match fld w 10 2 with
  | 0x0 => .ok (.ld (fld w 21 5) (fld w 16 5) (Width.ofCode (fld w 14 2)) (Hint.ofCode (fld w 12 2)) (BitVec.ofNat 10 (fld w 0 10)))
  | 0x1 => .ok (.ldz (fld w 21 5) (fld w 16 5) (Width.ofCode (fld w 14 2)) (Hint.ofCode (fld w 12 2)) (BitVec.ofNat 10 (fld w 0 10)))
  | 0x2 => .ok (.fld (fld w 21 5) (fld w 16 5) (Width.ofCode (fld w 14 2)) (Hint.ofCode (fld w 12 2)) (BitVec.ofNat 10 (fld w 0 10)))
  | _ => .error .illegal

/-- Major 0x11 (R257). -/
def decodeMajor11 (w : Nat) : Except DecodeReject Instr :=
  match fld w 10 2 with
  | 0x0 => .ok (.st (fld w 21 5) (fld w 16 5) (Width.ofCode (fld w 14 2)) (Hint.ofCode (fld w 12 2)) (BitVec.ofNat 10 (fld w 0 10)))
  | 0x1 => .ok (.fst (fld w 21 5) (fld w 16 5) (Width.ofCode (fld w 14 2)) (Hint.ofCode (fld w 12 2)) (BitVec.ofNat 10 (fld w 0 10)))
  | _ => .error .illegal

/-- Major 0x12 (R257). -/
def decodeMajor12 (w : Nat) : Except DecodeReject Instr :=
  match fld w 0 4 with
  | 0x0 => clean (fld w 4 4) (.amoadd (fld w 21 5) (fld w 16 5) (fld w 11 5) (fld w 10 1 == 1) (Hint.ofCode (fld w 8 2)))
  | 0x1 => clean (fld w 4 4) (.amoswap (fld w 21 5) (fld w 16 5) (fld w 11 5) (fld w 10 1 == 1) (Hint.ofCode (fld w 8 2)))
  | 0x2 => clean (fld w 4 4) (.amocas (fld w 21 5) (fld w 16 5) (fld w 11 5) (fld w 10 1 == 1) (Hint.ofCode (fld w 8 2)))
  | 0x3 => clean (fld w 4 4) (.amomin (fld w 21 5) (fld w 16 5) (fld w 11 5) (fld w 10 1 == 1) (Hint.ofCode (fld w 8 2)))
  | 0x4 => clean (fld w 4 4) (.amominn (fld w 21 5) (fld w 16 5) (fld w 11 5) (fld w 10 1 == 1) (Hint.ofCode (fld w 8 2)))
  | 0x5 => clean (fld w 4 4) (.amomax (fld w 21 5) (fld w 16 5) (fld w 11 5) (fld w 10 1 == 1) (Hint.ofCode (fld w 8 2)))
  | 0x6 => clean (fld w 4 4) (.amomaxn (fld w 21 5) (fld w 16 5) (fld w 11 5) (fld w 10 1 == 1) (Hint.ofCode (fld w 8 2)))
  | 0x7 => clean (fld w 4 4) (.amoand (fld w 21 5) (fld w 16 5) (fld w 11 5) (fld w 10 1 == 1) (Hint.ofCode (fld w 8 2)))
  | 0x8 => clean (fld w 4 4) (.amoor (fld w 21 5) (fld w 16 5) (fld w 11 5) (fld w 10 1 == 1) (Hint.ofCode (fld w 8 2)))
  | 0x9 => clean (fld w 4 4) (.amoxor (fld w 21 5) (fld w 16 5) (fld w 11 5) (fld w 10 1 == 1) (Hint.ofCode (fld w 8 2)))
  | _ => .error .illegal

/-- Major 0x14 (R258). -/
def decodeMajor14 (w : Nat) : Except DecodeReject Instr :=
  .ok (.jal (fld w 21 5) (BitVec.ofNat 21 (fld w 0 21)))

/-- Major 0x15 (R258). -/
def decodeMajor15 (w : Nat) : Except DecodeReject Instr :=
  .ok (.jalr (fld w 21 5) (fld w 16 5) (BitVec.ofNat 16 (fld w 0 16)))

/-- Major 0x16 (R258). -/
def decodeMajor16 (w : Nat) : Except DecodeReject Instr :=
  match fld w 13 3 with
  | 0x0 => .ok (.beq (fld w 21 5) (fld w 16 5) (BitVec.ofNat 13 (fld w 0 13)))
  | 0x1 => .ok (.bne (fld w 21 5) (fld w 16 5) (BitVec.ofNat 13 (fld w 0 13)))
  | 0x2 => .ok (.blt (fld w 21 5) (fld w 16 5) (BitVec.ofNat 13 (fld w 0 13)))
  | 0x3 => .ok (.bge (fld w 21 5) (fld w 16 5) (BitVec.ofNat 13 (fld w 0 13)))
  | 0x4 => .ok (.bltn (fld w 21 5) (fld w 16 5) (BitVec.ofNat 13 (fld w 0 13)))
  | 0x5 => .ok (.bgen (fld w 21 5) (fld w 16 5) (BitVec.ofNat 13 (fld w 0 13)))
  | _ => .error .illegal

/-- Major 0x17 (R258). -/
def decodeMajor17 (w : Nat) : Except DecodeReject Instr :=
  if fld w 24 2 ≠ 0 then .error .reserved else
  match fld w 13 3 with
  | 0x0 => clean (fld w 16 5) (.bkany (fld w 21 3) (BitVec.ofNat 13 (fld w 0 13)))
  | 0x1 => clean (fld w 16 5) (.bknone (fld w 21 3) (BitVec.ofNat 13 (fld w 0 13)))
  | _ => .error .illegal

/-- Major 0x18 (R259). -/
def decodeMajor18 (w : Nat) : Except DecodeReject Instr :=
  match fld w 0 4 with
  | 0x0 => clean (fld w 4 5) (.fadd (fld w 21 5) (fld w 16 5) (fld w 11 5) (FpFmt.ofCode (fld w 9 2)))
  | 0x1 => clean (fld w 4 5) (.fsub (fld w 21 5) (fld w 16 5) (fld w 11 5) (FpFmt.ofCode (fld w 9 2)))
  | 0x2 => clean (fld w 4 5) (.fmul (fld w 21 5) (fld w 16 5) (fld w 11 5) (FpFmt.ofCode (fld w 9 2)))
  | 0x3 => clean (fld w 4 5) (.fdiv (fld w 21 5) (fld w 16 5) (fld w 11 5) (FpFmt.ofCode (fld w 9 2)))
  | 0x4 => clean (fld w 11 5 + fld w 4 5) (.fsqrt (fld w 21 5) (fld w 16 5) (FpFmt.ofCode (fld w 9 2)))
  | 0x5 => clean (fld w 4 5) (.fmin (fld w 21 5) (fld w 16 5) (fld w 11 5) (FpFmt.ofCode (fld w 9 2)))
  | 0x6 => clean (fld w 4 5) (.fmax (fld w 21 5) (fld w 16 5) (fld w 11 5) (FpFmt.ofCode (fld w 9 2)))
  | 0x7 => clean (fld w 11 5 + fld w 4 5) (.fclass (fld w 21 5) (fld w 16 5) (FpFmt.ofCode (fld w 9 2)))
  | 0x8 => clean (fld w 4 12) (.fmvX (fld w 21 5) (fld w 16 5))
  | 0x9 => clean (fld w 4 12) (.fmvF (fld w 21 5) (fld w 16 5))
  | _ => .error .illegal

/-- Major 0x19 (R259). -/
def decodeMajor19 (w : Nat) : Except DecodeReject Instr :=
  match fld w 0 1 with
  | 0x0 => clean (fld w 1 3) (.fma (fld w 21 5) (fld w 16 5) (fld w 11 5) (fld w 6 5) (FpFmt.ofCode (fld w 4 2)))
  | 0x1 => clean (fld w 1 3) (.fms (fld w 21 5) (fld w 16 5) (fld w 11 5) (fld w 6 5) (FpFmt.ofCode (fld w 4 2)))
  | _ => .error .illegal

/-- Major 0x1a (R259). -/
def decodeMajor1A (w : Nat) : Except DecodeReject Instr :=
  clean (fld w 11 5 + fld w 0 3) (.fcvt (fld w 21 5) (fld w 16 5) (fld w 7 4) (fld w 3 4))

/-- Major 0x1b (R259). -/
def decodeMajor1B (w : Nat) : Except DecodeReject Instr :=
  match fld w 0 3 with
  | 0x0 => clean (fld w 3 6) (.fcmpEq (fld w 21 5) (fld w 16 5) (fld w 11 5) (FpFmt.ofCode (fld w 9 2)))
  | 0x1 => clean (fld w 3 6) (.fcmpLt (fld w 21 5) (fld w 16 5) (fld w 11 5) (FpFmt.ofCode (fld w 9 2)))
  | 0x2 => clean (fld w 3 6) (.fcmpLe (fld w 21 5) (fld w 16 5) (fld w 11 5) (FpFmt.ofCode (fld w 9 2)))
  | 0x3 => clean (fld w 3 6) (.fcmpUnord (fld w 21 5) (fld w 16 5) (fld w 11 5) (FpFmt.ofCode (fld w 9 2)))
  | _ => .error .illegal

/-- Major 0x1c (R260). -/
def decodeMajor1C (w : Nat) : Except DecodeReject Instr :=
  match fld w 11 5 with
  | 0x0 => clean (fld w 16 5 + fld w 8 3) (.csrr (fld w 21 5) (fld w 0 8))
  | 0x1 => clean (fld w 21 5 + fld w 8 3) (.csrw (fld w 16 5) (fld w 0 8))
  | 0x2 => clean (fld w 21 5 + fld w 8 3) (.csrs (fld w 16 5) (fld w 0 8))
  | 0x3 => clean (fld w 21 5 + fld w 8 3) (.csrc (fld w 16 5) (fld w 0 8))
  | _ => .error .illegal

/-- Major 0x1d (R260). -/
def decodeMajor1D (w : Nat) : Except DecodeReject Instr :=
  clean (fld w 7 9) (.setvli (fld w 21 5) (fld w 16 5) (BitVec.ofNat 7 (fld w 0 7)))

/-- Major 0x1e (R260). -/
def decodeMajor1E (w : Nat) : Except DecodeReject Instr :=
  clean (fld w 16 5) (.fork (fld w 21 5) (BitVec.ofNat 16 (fld w 0 16)))

/-- Major 0x1f (R260). -/
def decodeMajor1F (w : Nat) : Except DecodeReject Instr :=
  match fld w 11 5 with
  | 0x0 => clean (fld w 0 6) (.setvl (fld w 21 5) (fld w 16 5) (fld w 6 5))
  | 0x1 => clean (fld w 16 5 + fld w 0 11) (.nexti (fld w 21 5))
  | 0x2 => clean (fld w 16 5 + fld w 0 11) (.join (fld w 21 5))
  | 0x3 => clean (fld w 16 10 + fld w 5 6) (.gear (fld w 0 5))
  | 0x4 => clean (fld w 16 10 + fld w 5 6) (.gearauto (fld w 0 5))
  | 0x5 => clean (fld w 21 5 + fld w 0 11) (.waitt (fld w 16 5))
  | 0x6 => clean (fld w 21 5 + fld w 3 8) (.bara (fld w 16 5) (fld w 0 3))
  | 0x7 => clean (fld w 21 5 + fld w 0 11) (.barw (fld w 16 5))
  | 0x8 => clean (fld w 16 10 + fld w 3 2) (.fence (BitVec.ofNat 6 (fld w 5 6)) (fld w 0 3))
  | 0x9 => clean (fld w 16 10) (.svc (BitVec.ofNat 11 (fld w 0 11)))
  | 0xa => clean (fld w 16 10 + fld w 0 11) (.eret)
  | 0xb => clean (fld w 16 10 + fld w 0 11) (.idle)
  | 0xc => clean (fld w 16 10 + fld w 0 11) (.exit)
  | _ => .error .illegal

/-- Major 0x20 (R261). -/
def decodeMajor20 (w : Nat) : Except DecodeReject Instr :=
  match fld w 0 8 with
  | 0x0 => .ok (.vaddVv (fld w 21 5) (fld w 16 5) (fld w 11 5) (fld w 8 3))
  | 0x1 => .ok (.vsubVv (fld w 21 5) (fld w 16 5) (fld w 11 5) (fld w 8 3))
  | 0x2 => .ok (.vmulVv (fld w 21 5) (fld w 16 5) (fld w 11 5) (fld w 8 3))
  | 0x3 => .ok (.vmulhVv (fld w 21 5) (fld w 16 5) (fld w 11 5) (fld w 8 3))
  | 0x4 => .ok (.vmulhnVv (fld w 21 5) (fld w 16 5) (fld w 11 5) (fld w 8 3))
  | 0x5 => .ok (.vdivVv (fld w 21 5) (fld w 16 5) (fld w 11 5) (fld w 8 3))
  | 0x6 => .ok (.vdivnVv (fld w 21 5) (fld w 16 5) (fld w 11 5) (fld w 8 3))
  | 0x7 => .ok (.vremVv (fld w 21 5) (fld w 16 5) (fld w 11 5) (fld w 8 3))
  | 0x8 => .ok (.vremnVv (fld w 21 5) (fld w 16 5) (fld w 11 5) (fld w 8 3))
  | 0x9 => .ok (.vminVv (fld w 21 5) (fld w 16 5) (fld w 11 5) (fld w 8 3))
  | 0xa => .ok (.vminnVv (fld w 21 5) (fld w 16 5) (fld w 11 5) (fld w 8 3))
  | 0xb => .ok (.vmaxVv (fld w 21 5) (fld w 16 5) (fld w 11 5) (fld w 8 3))
  | 0xc => .ok (.vmaxnVv (fld w 21 5) (fld w 16 5) (fld w 11 5) (fld w 8 3))
  | 0xd => .ok (.vandVv (fld w 21 5) (fld w 16 5) (fld w 11 5) (fld w 8 3))
  | 0xe => .ok (.vorVv (fld w 21 5) (fld w 16 5) (fld w 11 5) (fld w 8 3))
  | 0xf => .ok (.vxorVv (fld w 21 5) (fld w 16 5) (fld w 11 5) (fld w 8 3))
  | 0x10 => .ok (.vsllVv (fld w 21 5) (fld w 16 5) (fld w 11 5) (fld w 8 3))
  | 0x11 => .ok (.vsrlVv (fld w 21 5) (fld w 16 5) (fld w 11 5) (fld w 8 3))
  | 0x12 => .ok (.vsraVv (fld w 21 5) (fld w 16 5) (fld w 11 5) (fld w 8 3))
  | 0x13 => .ok (.vsaddVv (fld w 21 5) (fld w 16 5) (fld w 11 5) (fld w 8 3))
  | 0x14 => .ok (.vsaddnVv (fld w 21 5) (fld w 16 5) (fld w 11 5) (fld w 8 3))
  | 0x15 => .ok (.vssubVv (fld w 21 5) (fld w 16 5) (fld w 11 5) (fld w 8 3))
  | 0x16 => .ok (.vssubnVv (fld w 21 5) (fld w 16 5) (fld w 11 5) (fld w 8 3))
  | _ => .error .illegal

/-- Major 0x21 (R261). -/
noncomputable def decodeMajor21 (w : Nat) : Except DecodeReject Instr :=
  match fld w 0 8 with
  | 0x0 => .ok (.vaddVx (fld w 21 5) (fld w 16 5) (fld w 11 5) (fld w 8 3))
  | 0x1 => .ok (.vsubVx (fld w 21 5) (fld w 16 5) (fld w 11 5) (fld w 8 3))
  | 0x2 => .ok (.vmulVx (fld w 21 5) (fld w 16 5) (fld w 11 5) (fld w 8 3))
  | 0x3 => .ok (.vmulhVx (fld w 21 5) (fld w 16 5) (fld w 11 5) (fld w 8 3))
  | 0x4 => .ok (.vmulhnVx (fld w 21 5) (fld w 16 5) (fld w 11 5) (fld w 8 3))
  | 0x5 => .ok (.vdivVx (fld w 21 5) (fld w 16 5) (fld w 11 5) (fld w 8 3))
  | 0x6 => .ok (.vdivnVx (fld w 21 5) (fld w 16 5) (fld w 11 5) (fld w 8 3))
  | 0x7 => .ok (.vremVx (fld w 21 5) (fld w 16 5) (fld w 11 5) (fld w 8 3))
  | 0x8 => .ok (.vremnVx (fld w 21 5) (fld w 16 5) (fld w 11 5) (fld w 8 3))
  | 0x9 => .ok (.vminVx (fld w 21 5) (fld w 16 5) (fld w 11 5) (fld w 8 3))
  | 0xa => .ok (.vminnVx (fld w 21 5) (fld w 16 5) (fld w 11 5) (fld w 8 3))
  | 0xb => .ok (.vmaxVx (fld w 21 5) (fld w 16 5) (fld w 11 5) (fld w 8 3))
  | 0xc => .ok (.vmaxnVx (fld w 21 5) (fld w 16 5) (fld w 11 5) (fld w 8 3))
  | 0xd => .ok (.vandVx (fld w 21 5) (fld w 16 5) (fld w 11 5) (fld w 8 3))
  | 0xe => .ok (.vorVx (fld w 21 5) (fld w 16 5) (fld w 11 5) (fld w 8 3))
  | 0xf => .ok (.vxorVx (fld w 21 5) (fld w 16 5) (fld w 11 5) (fld w 8 3))
  | 0x10 => .ok (.vsllVx (fld w 21 5) (fld w 16 5) (fld w 11 5) (fld w 8 3))
  | 0x11 => .ok (.vsrlVx (fld w 21 5) (fld w 16 5) (fld w 11 5) (fld w 8 3))
  | 0x12 => .ok (.vsraVx (fld w 21 5) (fld w 16 5) (fld w 11 5) (fld w 8 3))
  | 0x13 => .ok (.vsaddVx (fld w 21 5) (fld w 16 5) (fld w 11 5) (fld w 8 3))
  | 0x14 => .ok (.vsaddnVx (fld w 21 5) (fld w 16 5) (fld w 11 5) (fld w 8 3))
  | 0x15 => .ok (.vssubVx (fld w 21 5) (fld w 16 5) (fld w 11 5) (fld w 8 3))
  | 0x16 => .ok (.vssubnVx (fld w 21 5) (fld w 16 5) (fld w 11 5) (fld w 8 3))
  | _ => .error .illegal

/-- Major 0x22 (R261). -/
noncomputable def decodeMajor22 (w : Nat) : Except DecodeReject Instr :=
  match fld w 0 8 with
  | 0x0 => .ok (.vaddVi (fld w 21 5) (fld w 16 5) (BitVec.ofNat 5 (fld w 11 5)) (fld w 8 3))
  | 0x1 => .ok (.vsubVi (fld w 21 5) (fld w 16 5) (BitVec.ofNat 5 (fld w 11 5)) (fld w 8 3))
  | 0x2 => .ok (.vmulVi (fld w 21 5) (fld w 16 5) (BitVec.ofNat 5 (fld w 11 5)) (fld w 8 3))
  | 0x3 => .ok (.vmulhVi (fld w 21 5) (fld w 16 5) (BitVec.ofNat 5 (fld w 11 5)) (fld w 8 3))
  | 0x4 => .ok (.vmulhnVi (fld w 21 5) (fld w 16 5) (BitVec.ofNat 5 (fld w 11 5)) (fld w 8 3))
  | 0x5 => .ok (.vdivVi (fld w 21 5) (fld w 16 5) (BitVec.ofNat 5 (fld w 11 5)) (fld w 8 3))
  | 0x6 => .ok (.vdivnVi (fld w 21 5) (fld w 16 5) (BitVec.ofNat 5 (fld w 11 5)) (fld w 8 3))
  | 0x7 => .ok (.vremVi (fld w 21 5) (fld w 16 5) (BitVec.ofNat 5 (fld w 11 5)) (fld w 8 3))
  | 0x8 => .ok (.vremnVi (fld w 21 5) (fld w 16 5) (BitVec.ofNat 5 (fld w 11 5)) (fld w 8 3))
  | 0x9 => .ok (.vminVi (fld w 21 5) (fld w 16 5) (BitVec.ofNat 5 (fld w 11 5)) (fld w 8 3))
  | 0xa => .ok (.vminnVi (fld w 21 5) (fld w 16 5) (BitVec.ofNat 5 (fld w 11 5)) (fld w 8 3))
  | 0xb => .ok (.vmaxVi (fld w 21 5) (fld w 16 5) (BitVec.ofNat 5 (fld w 11 5)) (fld w 8 3))
  | 0xc => .ok (.vmaxnVi (fld w 21 5) (fld w 16 5) (BitVec.ofNat 5 (fld w 11 5)) (fld w 8 3))
  | 0xd => .ok (.vandVi (fld w 21 5) (fld w 16 5) (BitVec.ofNat 5 (fld w 11 5)) (fld w 8 3))
  | 0xe => .ok (.vorVi (fld w 21 5) (fld w 16 5) (BitVec.ofNat 5 (fld w 11 5)) (fld w 8 3))
  | 0xf => .ok (.vxorVi (fld w 21 5) (fld w 16 5) (BitVec.ofNat 5 (fld w 11 5)) (fld w 8 3))
  | 0x10 => .ok (.vsllVi (fld w 21 5) (fld w 16 5) (BitVec.ofNat 5 (fld w 11 5)) (fld w 8 3))
  | 0x11 => .ok (.vsrlVi (fld w 21 5) (fld w 16 5) (BitVec.ofNat 5 (fld w 11 5)) (fld w 8 3))
  | 0x12 => .ok (.vsraVi (fld w 21 5) (fld w 16 5) (BitVec.ofNat 5 (fld w 11 5)) (fld w 8 3))
  | 0x13 => .ok (.vsaddVi (fld w 21 5) (fld w 16 5) (BitVec.ofNat 5 (fld w 11 5)) (fld w 8 3))
  | 0x14 => .ok (.vsaddnVi (fld w 21 5) (fld w 16 5) (BitVec.ofNat 5 (fld w 11 5)) (fld w 8 3))
  | 0x15 => .ok (.vssubVi (fld w 21 5) (fld w 16 5) (BitVec.ofNat 5 (fld w 11 5)) (fld w 8 3))
  | 0x16 => .ok (.vssubnVi (fld w 21 5) (fld w 16 5) (BitVec.ofNat 5 (fld w 11 5)) (fld w 8 3))
  | _ => .error .illegal

/-- Major 0x23 (R261). -/
noncomputable def decodeMajor23 (w : Nat) : Except DecodeReject Instr :=
  match fld w 0 7 with
  | 0x0 => .ok (.vfaddVv (fld w 21 5) (fld w 16 5) (fld w 11 5) (fld w 8 3) (fld w 7 1 == 1))
  | 0x1 => .ok (.vfsubVv (fld w 21 5) (fld w 16 5) (fld w 11 5) (fld w 8 3) (fld w 7 1 == 1))
  | 0x2 => .ok (.vfmulVv (fld w 21 5) (fld w 16 5) (fld w 11 5) (fld w 8 3) (fld w 7 1 == 1))
  | 0x3 => .ok (.vfdivVv (fld w 21 5) (fld w 16 5) (fld w 11 5) (fld w 8 3) (fld w 7 1 == 1))
  | 0x4 => .ok (.vfminVv (fld w 21 5) (fld w 16 5) (fld w 11 5) (fld w 8 3) (fld w 7 1 == 1))
  | 0x5 => .ok (.vfmaxVv (fld w 21 5) (fld w 16 5) (fld w 11 5) (fld w 8 3) (fld w 7 1 == 1))
  | 0x6 => clean (fld w 11 5) (.vfsqrt (fld w 21 5) (fld w 16 5) (fld w 8 3) (fld w 7 1 == 1))
  | _ => .error .illegal

/-- Major 0x24 (R261). -/
noncomputable def decodeMajor24 (w : Nat) : Except DecodeReject Instr :=
  match fld w 0 7 with
  | 0x0 => .ok (.vfaddVf (fld w 21 5) (fld w 16 5) (fld w 11 5) (fld w 8 3) (fld w 7 1 == 1))
  | 0x1 => .ok (.vfsubVf (fld w 21 5) (fld w 16 5) (fld w 11 5) (fld w 8 3) (fld w 7 1 == 1))
  | 0x2 => .ok (.vfmulVf (fld w 21 5) (fld w 16 5) (fld w 11 5) (fld w 8 3) (fld w 7 1 == 1))
  | 0x3 => .ok (.vfdivVf (fld w 21 5) (fld w 16 5) (fld w 11 5) (fld w 8 3) (fld w 7 1 == 1))
  | 0x4 => .ok (.vfminVf (fld w 21 5) (fld w 16 5) (fld w 11 5) (fld w 8 3) (fld w 7 1 == 1))
  | 0x5 => .ok (.vfmaxVf (fld w 21 5) (fld w 16 5) (fld w 11 5) (fld w 8 3) (fld w 7 1 == 1))
  | _ => .error .illegal

/-- Major 0x25 (R262). -/
noncomputable def decodeMajor25 (w : Nat) : Except DecodeReject Instr :=
  match fld w 5 3 with
  | 0 => .ok (.vfcvt (fld w 21 5) (fld w 16 5) (fld w 11 5) (fld w 8 3) (fld w 0 5))
  | 1 => .ok (.vqz (fld w 21 5) (fld w 16 5) (fld w 11 5) (fld w 8 3) (fld w 0 5))
  | 2 => .ok (.vdq (fld w 21 5) (fld w 16 5) (fld w 11 5) (fld w 8 3) (fld w 0 5))
  | 3 =>
    match fld w 0 5 with
    | 0 => clean (fld w 11 5) (.vfexp (fld w 21 5) (fld w 16 5) (fld w 8 3))
    | 1 => clean (fld w 11 5) (.vflog (fld w 21 5) (fld w 16 5) (fld w 8 3))
    | 2 => clean (fld w 11 10) (.vgumbel (fld w 21 5) (fld w 8 3))
    | 3 => clean (fld w 11 10) (.vrng (fld w 21 5) (fld w 8 3))
    | 4 => clean (fld w 16 10 + fld w 8 3) (.vrngSeed (fld w 11 5))
    | _ => .error .illegal
  | 4 =>
    match fld w 0 5 with
    | 0 => .ok (.vscl (fld w 21 5) (fld w 16 5) (fld w 11 5) (fld w 8 3))
    | 1 => clean (fld w 8 8) (.vsclg (fld w 21 5) (fld w 16 5))
    | _ => .error .illegal
  | _ => .error .illegal

/-- Major 0x26 (R263). -/
noncomputable def decodeMajor26 (w : Nat) : Except DecodeReject Instr :=
  match fld w 0 7 with
  | 0 => .ok (.vfma (fld w 21 5) (fld w 16 5) (fld w 11 5) (fld w 8 3) (fld w 7 1 == 1))
  | 1 => .ok (.vfms (fld w 21 5) (fld w 16 5) (fld w 11 5) (fld w 8 3) (fld w 7 1 == 1))
  | _ =>
    if fld w 4 4 = 1 ∧ fld w 1 3 < 6 then
      match fld w 0 1 with
      | 0 => .ok (.vdotS (fld w 21 5) (fld w 16 5) (fld w 11 5) (fld w 8 3) (fld w 1 3))
      | _ => .ok (.vdotG (fld w 21 5) (fld w 16 5) (fld w 11 5) (fld w 8 3) (fld w 1 3))
    else .error .illegal

/-- Major 0x27 (R263). -/
noncomputable def decodeMajor27 (w : Nat) : Except DecodeReject Instr :=
  match fld w 0 7 with
  | 0x18 => clean (fld w 24 2) (.vcmpFeq (fld w 21 3) (fld w 16 5) (fld w 11 5) (fld w 8 3) (fld w 7 1 == 1))
  | 0x19 => clean (fld w 24 2) (.vcmpFlt (fld w 21 3) (fld w 16 5) (fld w 11 5) (fld w 8 3) (fld w 7 1 == 1))
  | 0x1a => clean (fld w 24 2) (.vcmpFle (fld w 21 3) (fld w 16 5) (fld w 11 5) (fld w 8 3) (fld w 7 1 == 1))
  | 0x1b => clean (fld w 24 2) (.vcmpFunord (fld w 21 3) (fld w 16 5) (fld w 11 5) (fld w 8 3) (fld w 7 1 == 1))
  | _ =>
    match fld w 0 8 with
    | 0x0 => .ok (.vadc (fld w 21 5) (fld w 16 5) (fld w 11 5) (fld w 8 3))
    | 0x1 => .ok (.vsbc (fld w 21 5) (fld w 16 5) (fld w 11 5) (fld w 8 3))
    | 0x2 => clean (fld w 24 2) (.vaddk (fld w 21 3) (fld w 16 5) (fld w 11 5) (fld w 8 3))
    | 0x10 => clean (fld w 24 2) (.vcmpEq (fld w 21 3) (fld w 16 5) (fld w 11 5) (fld w 8 3))
    | 0x11 => clean (fld w 24 2) (.vcmpNe (fld w 21 3) (fld w 16 5) (fld w 11 5) (fld w 8 3))
    | 0x12 => clean (fld w 24 2) (.vcmpLt (fld w 21 3) (fld w 16 5) (fld w 11 5) (fld w 8 3))
    | 0x13 => clean (fld w 24 2) (.vcmpLtn (fld w 21 3) (fld w 16 5) (fld w 11 5) (fld w 8 3))
    | 0x14 => clean (fld w 24 2) (.vcmpLe (fld w 21 3) (fld w 16 5) (fld w 11 5) (fld w 8 3))
    | 0x15 => clean (fld w 24 2) (.vcmpLen (fld w 21 3) (fld w 16 5) (fld w 11 5) (fld w 8 3))
    | 0x20 => .ok (.vmerge (fld w 21 5) (fld w 16 5) (fld w 11 5) (fld w 8 3))
    | 0x21 => clean (fld w 8 8) (.vmvVv (fld w 21 5) (fld w 16 5))
    | 0x22 => clean (fld w 16 5 + fld w 8 3) (.vmvVx (fld w 21 5) (fld w 11 5))
    | 0x23 => clean (fld w 16 5 + fld w 8 3) (.vmvVf (fld w 21 5) (fld w 11 5))
    | 0x24 => clean (fld w 8 8) (.vmvXv (fld w 21 5) (fld w 16 5))
    | 0x25 => clean (fld w 8 8) (.vmvFv (fld w 21 5) (fld w 16 5))
    | 0x26 => clean (fld w 11 10) (.vid (fld w 21 5) (fld w 8 3))
    | _ => .error .illegal

/-- Major 0x28 (R264). -/
noncomputable def decodeMajor28 (w : Nat) : Except DecodeReject Instr :=
  if fld w 24 2 + fld w 19 2 + fld w 14 2 + fld w 4 7 ≠ 0 then .error .reserved else
  match fld w 0 4 with
  | 0x0 => .ok (.kand (fld w 21 3) (fld w 16 3) (fld w 11 3))
  | 0x1 => .ok (.kor (fld w 21 3) (fld w 16 3) (fld w 11 3))
  | 0x2 => .ok (.kxor (fld w 21 3) (fld w 16 3) (fld w 11 3))
  | 0x3 => .ok (.kandn (fld w 21 3) (fld w 16 3) (fld w 11 3))
  | 0x4 => clean (fld w 11 3) (.knot (fld w 21 3) (fld w 16 3))
  | 0x5 => clean (fld w 11 3) (.kmv (fld w 21 3) (fld w 16 3))
  | _ => .error .illegal

/-- Major 0x29 (R264). -/
noncomputable def decodeMajor29 (w : Nat) : Except DecodeReject Instr :=
  if fld w 24 2 + fld w 19 2 + fld w 4 7 ≠ 0 then .error .reserved else
  match fld w 0 4 with
  | 0x0 => .ok (.kshl (fld w 21 3) (fld w 16 3) (fld w 11 5))
  | 0x1 => .ok (.kshr (fld w 21 3) (fld w 16 3) (fld w 11 5))
  | _ => .error .illegal

/-- Major 0x2a (R264). -/
noncomputable def decodeMajor2A (w : Nat) : Except DecodeReject Instr :=
  if fld w 19 2 + fld w 4 7 ≠ 0 then .error .reserved else
  match fld w 0 4 with
  | 0x0 => clean (fld w 11 5) (.kpop (fld w 21 5) (fld w 16 3))
  | 0x1 => clean (fld w 11 5) (.kfirst (fld w 21 5) (fld w 16 3))
  | 0x2 => clean (fld w 11 5) (.klast (fld w 21 5) (fld w 16 3))
  | _ => .error .illegal

/-- Major 0x2b (R264). -/
noncomputable def decodeMajor2B (w : Nat) : Except DecodeReject Instr :=
  if fld w 24 2 + fld w 4 7 ≠ 0 then .error .reserved else
  match fld w 0 4 with
  | 0x0 => clean (fld w 11 5) (.kld (fld w 21 3) (fld w 16 5))
  | 0x1 => clean (fld w 11 5) (.kst (fld w 21 3) (fld w 16 5))
  | _ => .error .illegal

/-- Major 0x2c (R265). -/
noncomputable def decodeMajor2C (w : Nat) : Except DecodeReject Instr :=
  match fld w 2 2 with
  | 0x0 => clean (fld w 11 5) (.vld (fld w 21 5) (fld w 16 5) (fld w 8 3) (fld w 7 1 == 1) (fld w 6 1 == 1) (Width.ofCode (fld w 4 2)) (Hint.ofCode (fld w 0 2)))
  | 0x1 => .ok (.vlds (fld w 21 5) (fld w 16 5) (fld w 11 5) (fld w 8 3) (fld w 7 1 == 1) (fld w 6 1 == 1) (Width.ofCode (fld w 4 2)) (Hint.ofCode (fld w 0 2)))
  | 0x2 => .ok (.vldx (fld w 21 5) (fld w 16 5) (fld w 11 5) (fld w 8 3) (fld w 7 1 == 1) (fld w 6 1 == 1) (Width.ofCode (fld w 4 2)) (Hint.ofCode (fld w 0 2)))
  | 0x3 => clean (fld w 11 5) (.vldff (fld w 21 5) (fld w 16 5) (fld w 8 3) (fld w 7 1 == 1) (fld w 6 1 == 1) (Width.ofCode (fld w 4 2)) (Hint.ofCode (fld w 0 2)))
  | _ => .error .illegal

/-- Major 0x2d (R265). -/
noncomputable def decodeMajor2D (w : Nat) : Except DecodeReject Instr :=
  match fld w 2 2 with
  | 0x0 => clean (fld w 11 5) (.vst (fld w 21 5) (fld w 16 5) (fld w 8 3) (fld w 7 1 == 1) (fld w 6 1 == 1) (Width.ofCode (fld w 4 2)) (Hint.ofCode (fld w 0 2)))
  | 0x1 => .ok (.vsts (fld w 21 5) (fld w 16 5) (fld w 11 5) (fld w 8 3) (fld w 7 1 == 1) (fld w 6 1 == 1) (Width.ofCode (fld w 4 2)) (Hint.ofCode (fld w 0 2)))
  | 0x2 => .ok (.vstx (fld w 21 5) (fld w 16 5) (fld w 11 5) (fld w 8 3) (fld w 7 1 == 1) (fld w 6 1 == 1) (Width.ofCode (fld w 4 2)) (Hint.ofCode (fld w 0 2)))
  | 0x3 => clean (fld w 6 2 + fld w 1 1) (.vstxadd (fld w 21 5) (fld w 16 5) (fld w 11 5) (fld w 8 3) (Width.ofCode (fld w 4 2)) (fld w 0 1 == 1))
  | _ => .error .illegal

/-- Major 0x2e (R265). -/
noncomputable def decodeMajor2E (w : Nat) : Except DecodeReject Instr :=
  match fld w 2 2 with
  | 0x0 => clean (fld w 11 5) (.vldseg (fld w 21 5) (fld w 16 5) (fld w 8 3) (fld w 7 1 == 1) (fld w 6 1 == 1) (Width.ofCode (fld w 4 2)) (Hint.ofCode (fld w 0 2)))
  | 0x1 => clean (fld w 11 5) (.vldpl (fld w 21 5) (fld w 16 5) (fld w 8 3) (fld w 7 1 == 1) (fld w 6 1 == 1) (Width.ofCode (fld w 4 2)) (Hint.ofCode (fld w 0 2)))
  | 0x2 => clean (fld w 11 5) (.vstseg (fld w 21 5) (fld w 16 5) (fld w 8 3) (fld w 7 1 == 1) (fld w 6 1 == 1) (Width.ofCode (fld w 4 2)) (Hint.ofCode (fld w 0 2)))
  | 0x3 => clean (fld w 11 5) (.vstpl (fld w 21 5) (fld w 16 5) (fld w 8 3) (fld w 7 1 == 1) (fld w 6 1 == 1) (Width.ofCode (fld w 4 2)) (Hint.ofCode (fld w 0 2)))
  | _ => .error .illegal

/-- Major 0x2f (R265). -/
noncomputable def decodeMajor2F (w : Nat) : Except DecodeReject Instr :=
  match fld w 2 2 with
  | 0x0 => clean (fld w 6 2 + fld w 0 2) (.vamoadd (fld w 21 5) (fld w 16 5) (fld w 11 5) (fld w 8 3) (Width.ofCode (fld w 4 2)))
  | 0x1 => clean (fld w 6 2 + fld w 0 1) (.vamomin (fld w 21 5) (fld w 16 5) (fld w 11 5) (fld w 8 3) (Width.ofCode (fld w 4 2)) (fld w 1 1 == 1))
  | 0x2 => clean (fld w 6 2 + fld w 0 1) (.vamomax (fld w 21 5) (fld w 16 5) (fld w 11 5) (fld w 8 3) (Width.ofCode (fld w 4 2)) (fld w 1 1 == 1))
  | 0x3 => clean (fld w 6 2 + fld w 0 2) (.vamoswap (fld w 21 5) (fld w 16 5) (fld w 11 5) (fld w 8 3) (Width.ofCode (fld w 4 2)))
  | _ => .error .illegal

/-- Major 0x30 (R266). -/
noncomputable def decodeMajor30 (w : Nat) : Except DecodeReject Instr :=
  match fld w 11 5 with
  | 0x0 => clean (fld w 0 8) (.sbind (fld w 21 5) (fld w 16 5) (fld w 8 3))
  | 0x1 => clean (fld w 16 10 + fld w 0 8) (.sunbind (fld w 8 3))
  | 0x2 => clean (fld w 16 10 + fld w 0 8) (.sclose (fld w 8 3))
  | _ => .error .illegal

/-- Major 0x31 (R266). -/
noncomputable def decodeMajor31 (w : Nat) : Except DecodeReject Instr :=
  match fld w 11 5 with
  | 0x0 => clean (fld w 0 9) (.scopy (fld w 21 5) (fld w 16 5) (fld w 9 2))
  | 0x1 => clean (fld w 0 9) (.sxform (fld w 21 5) (fld w 16 5) (fld w 9 2))
  | 0x2 => clean (fld w 0 9) (.smcast (fld w 21 5) (fld w 16 5) (fld w 9 2))
  | 0x3 => clean (fld w 21 5 + fld w 0 9) (.xwait (fld w 16 5) (fld w 9 2))
  | 0x4 => clean (fld w 0 9) (.xpoll (fld w 21 5) (fld w 16 5) (fld w 9 2))
  | _ => .error .illegal

/-- Major 0x32 (R266). -/
noncomputable def decodeMajor32 (w : Nat) : Except DecodeReject Instr :=
  match fld w 11 5 with
  | 0x0 => clean (fld w 0 11) (.mgopen (fld w 21 5) (fld w 16 5))
  | 0x1 => clean (fld w 0 8) (.mgpush (fld w 21 5) (fld w 16 5) (fld w 8 3))
  | 0x2 => clean (fld w 0 11) (.mgfin (fld w 21 5) (fld w 16 5))
  | 0x3 => clean (fld w 0 11) (.mgstat (fld w 21 5) (fld w 16 5))
  | _ => .error .illegal

/-- Major 0x34 (R267). -/
noncomputable def decodeMajor34 (w : Nat) : Except DecodeReject Instr :=
  if fld w 8 3 + fld w 0 1 ≠ 0 then .error .reserved else
  match fld w 11 1 with
  | 0x0 => .ok (.vpass (fld w 21 5) (fld w 16 5) (fld w 12 4) (fld w 4 4) (fld w 1 3))
  | 0x1 => .ok (.vpassD (fld w 21 5) (fld w 16 5) (fld w 12 4) (fld w 4 4) (fld w 1 3))
  | _ => .error .illegal

/-- Major 0x35 (R267). -/
noncomputable def decodeMajor35 (w : Nat) : Except DecodeReject Instr :=
  match fld w 0 8 with
  | 0x0 => .ok (.vredS (fld w 21 5) (fld w 16 5) (fld w 11 5) (fld w 8 3))
  | 0x1 => .ok (.vredG (fld w 21 5) (fld w 16 5) (fld w 11 5) (fld w 8 3))
  | 0x2 => .ok (.vredOp (fld w 21 5) (fld w 16 5) (fld w 11 5) (fld w 8 3))
  | 0x3 => .ok (.vscanS (fld w 21 5) (fld w 16 5) (fld w 11 5) (fld w 8 3))
  | 0x4 => .ok (.vscanG (fld w 21 5) (fld w 16 5) (fld w 11 5) (fld w 8 3))
  | 0x5 => .ok (.vscanOp (fld w 21 5) (fld w 16 5) (fld w 11 5) (fld w 8 3))
  | 0x6 => clean (fld w 11 5) (.vcompress (fld w 21 5) (fld w 16 5) (fld w 8 3))
  | 0x7 => .ok (.vmaxi (fld w 21 5) (fld w 16 5) (fld w 11 5) (fld w 8 3))
  | 0x8 => clean (fld w 11 5) (.vsort (fld w 21 5) (fld w 16 5) (fld w 8 3))
  | 0x9 => clean (fld w 11 5) (.vsortD (fld w 21 5) (fld w 16 5) (fld w 8 3))
  | 0xa => clean (fld w 8 8) (.vroute (fld w 21 5) (fld w 16 5))
  | 0x87 => .ok (.vmaxiBf16 (fld w 21 5) (fld w 16 5) (fld w 11 5) (fld w 8 3))
  | _ => .error .illegal

/-- Major 0x36 (R267). -/
noncomputable def decodeMajor36 (w : Nat) : Except DecodeReject Instr :=
  if fld w 24 2 ≠ 0 then .error .reserved else
  match fld w 0 8 with
  | 0x0 => clean (fld w 19 2 + fld w 14 2 + fld w 8 3) (.spadd (fld w 21 3) (fld w 16 3) (fld w 11 3))
  | 0x1 => clean (fld w 19 2 + fld w 14 2 + fld w 8 3) (.spmul (fld w 21 3) (fld w 16 3) (fld w 11 3))
  | 0x2 => clean (fld w 8 8) (.splen (fld w 21 3) (fld w 16 5))
  | _ => .error .illegal

/-- Major 0x37 (R267). -/
noncomputable def decodeMajor37 (w : Nat) : Except DecodeReject Instr :=
  match fld w 11 5 with
  | 0x0 => clean (fld w 24 2 + fld w 0 11) (.opld (fld w 21 3) (fld w 16 5))
  | 0x1 => clean (fld w 24 2 + fld w 16 5 + fld w 0 11) (.opclr (fld w 21 3))
  | _ => .error .illegal

/-- Major 0x38 (R268). -/
noncomputable def decodeMajor38 (w : Nat) : Except DecodeReject Instr :=
  if fld w 24 2 ≠ 0 then .error .reserved else
  if fld w 0 4 < 6 then
    match fld w 4 1 with
    | 0 => clean (fld w 5 3) (.topaS (fld w 21 3) (fld w 16 5) (fld w 11 5) (fld w 8 3) (fld w 0 4))
    | _ => clean (fld w 5 3) (.topaG (fld w 21 3) (fld w 16 5) (fld w 11 5) (fld w 8 3) (fld w 0 4))
  else .error .illegal

/-- Major 0x39 (R268). -/
noncomputable def decodeMajor39 (w : Nat) : Except DecodeReject Instr :=
  match fld w 11 5 with
  | 0x0 => clean (fld w 16 10) (.tileon (fld w 0 11))
  | 0x1 => clean (fld w 16 10 + fld w 0 11) (.tileoff)
  | 0x2 => clean (fld w 24 2 + fld w 16 5 + fld w 0 11) (.tzero (fld w 21 3))
  | _ => .error .illegal

/-- Major 0x3a (R268). -/
noncomputable def decodeMajor3A (w : Nat) : Except DecodeReject Instr :=
  if fld w 24 2 ≠ 0 then .error .reserved else
  match fld w 2 1 with
  | 0x0 => clean (fld w 3 8) (.tld (fld w 21 3) (fld w 16 5) (fld w 11 5) (Hint.ofCode (fld w 0 2)))
  | 0x1 => clean (fld w 3 8) (.tst (fld w 21 3) (fld w 16 5) (fld w 11 5) (Hint.ofCode (fld w 0 2)))
  | _ => .error .illegal

/-- Major 0x3b (R268). -/
noncomputable def decodeMajor3B (w : Nat) : Except DecodeReject Instr :=
  match fld w 0 8 with
  | 0x0 => clean (fld w 19 2) (.tmvr (fld w 21 5) (fld w 16 3) (fld w 11 5) (fld w 8 3))
  | 0x1 => clean (fld w 19 2) (.tmvc (fld w 21 5) (fld w 16 3) (fld w 11 5) (fld w 8 3))
  | 0x2 => clean (fld w 24 2 + fld w 8 3) (.tvmr (fld w 21 3) (fld w 16 5) (fld w 11 5))
  | 0x3 => clean (fld w 24 2 + fld w 8 3) (.tvmc (fld w 21 3) (fld w 16 5) (fld w 11 5))
  | _ => .error .illegal

/-- Major 0x3C (R269): nop, hpf, or another word that does nothing. -/
noncomputable def decodeMajor3C (w : Nat) : Except DecodeReject Instr :=
  if w = 0xF0000000 then .ok .nop
  else if fld w 21 5 = 1 ∧ fld w 14 2 = 0 then
    .ok (.hpf (fld w 16 5) (Hint.ofCode (fld w 12 2)) (BitVec.ofNat 12 (fld w 0 12)))
  else .ok (.hintNoOp (BitVec.ofNat 32 w))

/-- The fate of every word (R270). -/
noncomputable def decodeWord (w : Nat) : Except DecodeReject Instr :=
  match fld w 26 6 with
  | 0x01 => decodeMajor01 w
  | 0x02 => decodeMajor02 w
  | 0x03 => decodeMajor03 w
  | 0x04 => decodeMajor04 w
  | 0x05 => decodeMajor05 w
  | 0x06 => decodeMajor06 w
  | 0x07 => decodeMajor07 w
  | 0x08 => decodeMajor08 w
  | 0x09 => decodeMajor09 w
  | 0x0a => decodeMajor0A w
  | 0x10 => decodeMajor10 w
  | 0x11 => decodeMajor11 w
  | 0x12 => decodeMajor12 w
  | 0x14 => decodeMajor14 w
  | 0x15 => decodeMajor15 w
  | 0x16 => decodeMajor16 w
  | 0x17 => decodeMajor17 w
  | 0x18 => decodeMajor18 w
  | 0x19 => decodeMajor19 w
  | 0x1a => decodeMajor1A w
  | 0x1b => decodeMajor1B w
  | 0x1c => decodeMajor1C w
  | 0x1d => decodeMajor1D w
  | 0x1e => decodeMajor1E w
  | 0x1f => decodeMajor1F w
  | 0x20 => decodeMajor20 w
  | 0x21 => decodeMajor21 w
  | 0x22 => decodeMajor22 w
  | 0x23 => decodeMajor23 w
  | 0x24 => decodeMajor24 w
  | 0x25 => decodeMajor25 w
  | 0x26 => decodeMajor26 w
  | 0x27 => decodeMajor27 w
  | 0x28 => decodeMajor28 w
  | 0x29 => decodeMajor29 w
  | 0x2a => decodeMajor2A w
  | 0x2b => decodeMajor2B w
  | 0x2c => decodeMajor2C w
  | 0x2d => decodeMajor2D w
  | 0x2e => decodeMajor2E w
  | 0x2f => decodeMajor2F w
  | 0x30 => decodeMajor30 w
  | 0x31 => decodeMajor31 w
  | 0x32 => decodeMajor32 w
  | 0x34 => decodeMajor34 w
  | 0x35 => decodeMajor35 w
  | 0x36 => decodeMajor36 w
  | 0x37 => decodeMajor37 w
  | 0x38 => decodeMajor38 w
  | 0x39 => decodeMajor39 w
  | 0x3a => decodeMajor3A w
  | 0x3b => decodeMajor3B w
  | 0x3c => decodeMajor3C w
  | _ => .error .illegal

/-- The little-endian word of four bytes (R252). -/
def wordOfBytes (b0 b1 b2 b3 : Byte) : Nat :=
  b0.toNat + 256 * b1.toNat + 65536 * b2.toNat + 16777216 * b3.toNat

/-- Decode the first instruction of a list of bytes, and the bytes after it (R252). -/
noncomputable def decodeBytes : List Byte → Except DecodeReject (Instr × List Byte)
  | b0 :: b1 :: b2 :: b3 :: rest =>
    match decodeWord (wordOfBytes b0 b1 b2 b3) with
    | .ok i => .ok (i, rest)
    | .error e => .error e
  | _ => .error .truncated

/-- The four bytes of a word as memory holds them (R252). -/
def bytesOfWord (w : Nat) : List Byte :=
  [BitVec.ofNat 8 w, BitVec.ofNat 8 (w / 256), BitVec.ofNat 8 (w / 65536), BitVec.ofNat 8 (w / 16777216)]

/-- What the decoder reads from a word of the opcode table, laid out as memory holds it. A row without bits is a step
of the device and has no word. -/
noncomputable def decodeTableWord (nbits w : Nat) : Option Instr :=
  if nbits = 0 then none
  else
    match decodeBytes (bytesOfWord w) with
    | .ok (i, _) => some i
    | .error _ => none

/-- A word from its fixed bits and its fields, each with its lowest bit's number. -/
def enc : Nat → List (Nat × Nat) → Nat
  | m, [] => m
  | m, (v, lo) :: rest => enc (m + v * 2 ^ lo) rest

/-- The word of an instruction (R253 to R269); none for a step of the device, which has no word. -/
def encode : Instr → Option Nat
  | .readRequest _ _ => none
  | .readResponse _ _ => none
  | .readStatus _ _ => none
  | .write _ _ => none
  | .writeAcknowledgement _ _ => none
  | .atomicRequest _ _ => none
  | .atomicResponse _ _ => none
  | .linkControl _ _ => none
  | .flitDiscard _ _ => none
  | .flitCrcFailure _ => none
  | .replayTimeout _ => none
  | .portDown _ => none
  | .linkControlKeepalive _ => none
  | .portTrainingDone _ => none
  | .portTrainingFailed _ => none
  | .portFail _ => none
  | .scheduledSlotStart _ _ => none
  | .systemBarrierArrival _ _ => none
  | .systemBarrierRelease _ _ => none
  | .gangReady _ _ => none
  | .gangGo _ _ => none
  | .withdrawRequest _ _ => none
  | .withdraw _ _ => none
  | .tokenProgress _ _ => none
  | .preemptionRelay _ _ => none
  | .gangFailed _ _ => none
  | .throttleNotice _ _ => none
  | .gmcManagementRead _ _ => none
  | .gmcManagementWrite _ _ => none
  | .gmcWriteThold _ _ => none
  | .gmcWriteGrandmaster _ _ => none
  | .gmcWriteMinSecurity _ _ => none
  | .gmcRestartTraining _ _ => none
  | .attestationRequest _ _ => none
  | .sync _ _ => none
  | .followUp _ _ => none
  | .pdelayReq _ _ => none
  | .pdelayResp _ _ => none
  | .pdelayRespFollowUp _ _ => none
  | .announce _ _ => none
  | .syncInterval _ => none
  | .pdelayInterval _ => none
  | .announceInterval _ => none
  | .timeLockGained => none
  | .timeLockLost => none
  | .thermalWarning => none
  | .thermalLimit => none
  | .thermalRecovery => none
  | .throttleHoldStart => none
  | .throttleHoldEnd => none
  | .reset => none
  | .unitStart => none
  | .unitReady _ => none
  | .unitSelfTestFail _ => none
  | .patrolScrub _ => none
  | .windowRegisterWrite _ _ => none
  | .queueEnable _ _ => none
  | .queueDisable _ _ => none
  | .qtailWrite _ _ => none
  | .sigpushSet _ _ => none
  | .sigpushAdd _ _ => none
  | .signalApply _ => none
  | .ctxentWrite _ _ => none
  | .evcfgWrite _ _ => none
  | .evconsWrite _ _ => none
  | .schedHold _ _ => none
  | .schedRelease _ _ => none
  | .schedFlush _ _ => none
  | .tlbinvAll _ _ => none
  | .tlbinvPage _ _ => none
  | .shootdownComplete => none
  | .recordRead _ => none
  | .startatReached _ _ => none
  | .schedulerChoice => none
  | .gangGoEffective _ _ => none
  | .hartSave _ _ => none
  | .launchComplete _ _ => none
  | .retentionEnter _ _ => none
  | .laneGroupRetire _ _ => none
  | .stripClose _ _ => none
  | .storeBufferTimeout _ _ => none
  | .tileClaimServed _ _ => none
  | .smcastStart _ _ => none
  | .vectorInstructionComplete _ _ => none
  | .nameCompareDone _ _ => none
  | .walkComplete _ _ _ _ => none
  | .probePassDone _ _ => none
  | .changeoverEnd _ => none
  | .autoGearDrop _ _ => none
  | .gearLeadReached _ _ => none
  | .waittTargetReached _ _ => none
  | .barrierRelease _ _ _ => none
  | .energyInterval => none
  | .streamFetch _ _ _ => none
  | .streamFetchComplete _ _ _ => none
  | .copyComplete _ _ => none
  | .mcastLand _ _ => none
  | .mergeOpenCommand _ _ => none
  | .mergeEntryArrival _ _ => none
  | .mergeFinCommand _ _ => none
  | .mergeStatCommand _ _ => none
  | .idleTimeout _ _ => none
  | .csrWriteFstat _ _ => none
  | .csrWriteFidx _ _ => none
  | .csrWriteReusehit _ _ => none
  | .add d a b => some (enc 0x4000000 [(d, 21), (a, 16), (b, 11)])
  | .sub d a b => some (enc 0x4000001 [(d, 21), (a, 16), (b, 11)])
  | .and d a b => some (enc 0x4000002 [(d, 21), (a, 16), (b, 11)])
  | .or d a b => some (enc 0x4000003 [(d, 21), (a, 16), (b, 11)])
  | .xor d a b => some (enc 0x4000004 [(d, 21), (a, 16), (b, 11)])
  | .sll d a b => some (enc 0x4000005 [(d, 21), (a, 16), (b, 11)])
  | .srl d a b => some (enc 0x4000006 [(d, 21), (a, 16), (b, 11)])
  | .sra d a b => some (enc 0x4000007 [(d, 21), (a, 16), (b, 11)])
  | .slt d a b => some (enc 0x4000008 [(d, 21), (a, 16), (b, 11)])
  | .sltn d a b => some (enc 0x4000009 [(d, 21), (a, 16), (b, 11)])
  | .mul d a b => some (enc 0x400000a [(d, 21), (a, 16), (b, 11)])
  | .mulh d a b => some (enc 0x400000b [(d, 21), (a, 16), (b, 11)])
  | .mulhn d a b => some (enc 0x400000c [(d, 21), (a, 16), (b, 11)])
  | .div d a b => some (enc 0x400000d [(d, 21), (a, 16), (b, 11)])
  | .divn d a b => some (enc 0x400000e [(d, 21), (a, 16), (b, 11)])
  | .rem d a b => some (enc 0x400000f [(d, 21), (a, 16), (b, 11)])
  | .remn d a b => some (enc 0x4000010 [(d, 21), (a, 16), (b, 11)])
  | .min d a b => some (enc 0x4000011 [(d, 21), (a, 16), (b, 11)])
  | .minn d a b => some (enc 0x4000012 [(d, 21), (a, 16), (b, 11)])
  | .max d a b => some (enc 0x4000013 [(d, 21), (a, 16), (b, 11)])
  | .maxn d a b => some (enc 0x4000014 [(d, 21), (a, 16), (b, 11)])
  | .clz d a => some (enc 0x4000015 [(d, 21), (a, 16)])
  | .ctz d a => some (enc 0x4000016 [(d, 21), (a, 16)])
  | .popc d a => some (enc 0x4000017 [(d, 21), (a, 16)])
  | .addi d a i => some (enc 0x8000000 [(d, 21), (a, 16), (i.toNat, 0)])
  | .andi d a i => some (enc 0xc000000 [(d, 21), (a, 16), (i.toNat, 0)])
  | .ori d a i => some (enc 0x10000000 [(d, 21), (a, 16), (i.toNat, 0)])
  | .xori d a i => some (enc 0x14000000 [(d, 21), (a, 16), (i.toNat, 0)])
  | .slti d a i => some (enc 0x18000000 [(d, 21), (a, 16), (i.toNat, 0)])
  | .sltni d a i => some (enc 0x1c000000 [(d, 21), (a, 16), (i.toNat, 0)])
  | .slli d a sh => some (enc 0x20000000 [(d, 21), (a, 16), (sh.toNat, 0)])
  | .srli d a sh => some (enc 0x20000040 [(d, 21), (a, 16), (sh.toNat, 0)])
  | .srai d a sh => some (enc 0x20000080 [(d, 21), (a, 16), (sh.toNat, 0)])
  | .lhi d i => some (enc 0x24000000 [(d, 21), (i.toNat, 0)])
  | .apc d i => some (enc 0x28000000 [(d, 21), (i.toNat, 0)])
  | .ld d a w h off => some (enc 0x40000000 [(d, 21), (a, 16), (w.code, 14), (h.code, 12), (off.toNat, 0)])
  | .ldz d a w h off => some (enc 0x40000400 [(d, 21), (a, 16), (w.code, 14), (h.code, 12), (off.toNat, 0)])
  | .fld d a w h off => some (enc 0x40000800 [(d, 21), (a, 16), (w.code, 14), (h.code, 12), (off.toNat, 0)])
  | .st rs a w h off => some (enc 0x44000000 [(rs, 21), (a, 16), (w.code, 14), (h.code, 12), (off.toNat, 0)])
  | .fst rs a w h off => some (enc 0x44000400 [(rs, 21), (a, 16), (w.code, 14), (h.code, 12), (off.toNat, 0)])
  | .amoadd d a b w h => some (enc 0x48000000 [(d, 21), (a, 16), (b, 11), (w.toNat, 10), (h.code, 8)])
  | .amoswap d a b w h => some (enc 0x48000001 [(d, 21), (a, 16), (b, 11), (w.toNat, 10), (h.code, 8)])
  | .amocas d a b w h => some (enc 0x48000002 [(d, 21), (a, 16), (b, 11), (w.toNat, 10), (h.code, 8)])
  | .amomin d a b w h => some (enc 0x48000003 [(d, 21), (a, 16), (b, 11), (w.toNat, 10), (h.code, 8)])
  | .amominn d a b w h => some (enc 0x48000004 [(d, 21), (a, 16), (b, 11), (w.toNat, 10), (h.code, 8)])
  | .amomax d a b w h => some (enc 0x48000005 [(d, 21), (a, 16), (b, 11), (w.toNat, 10), (h.code, 8)])
  | .amomaxn d a b w h => some (enc 0x48000006 [(d, 21), (a, 16), (b, 11), (w.toNat, 10), (h.code, 8)])
  | .amoand d a b w h => some (enc 0x48000007 [(d, 21), (a, 16), (b, 11), (w.toNat, 10), (h.code, 8)])
  | .amoor d a b w h => some (enc 0x48000008 [(d, 21), (a, 16), (b, 11), (w.toNat, 10), (h.code, 8)])
  | .amoxor d a b w h => some (enc 0x48000009 [(d, 21), (a, 16), (b, 11), (w.toNat, 10), (h.code, 8)])
  | .jal d i => some (enc 0x50000000 [(d, 21), (i.toNat, 0)])
  | .jalr d a i => some (enc 0x54000000 [(d, 21), (a, 16), (i.toNat, 0)])
  | .beq a b off => some (enc 0x58000000 [(a, 21), (b, 16), (off.toNat, 0)])
  | .bne a b off => some (enc 0x58002000 [(a, 21), (b, 16), (off.toNat, 0)])
  | .blt a b off => some (enc 0x58004000 [(a, 21), (b, 16), (off.toNat, 0)])
  | .bge a b off => some (enc 0x58006000 [(a, 21), (b, 16), (off.toNat, 0)])
  | .bltn a b off => some (enc 0x58008000 [(a, 21), (b, 16), (off.toNat, 0)])
  | .bgen a b off => some (enc 0x5800a000 [(a, 21), (b, 16), (off.toNat, 0)])
  | .bkany k off => some (enc 0x5c000000 [(k, 21), (off.toNat, 0)])
  | .bknone k off => some (enc 0x5c002000 [(k, 21), (off.toNat, 0)])
  | .fadd d a b t => some (enc 0x60000000 [(d, 21), (a, 16), (b, 11), (t.code, 9)])
  | .fsub d a b t => some (enc 0x60000001 [(d, 21), (a, 16), (b, 11), (t.code, 9)])
  | .fmul d a b t => some (enc 0x60000002 [(d, 21), (a, 16), (b, 11), (t.code, 9)])
  | .fdiv d a b t => some (enc 0x60000003 [(d, 21), (a, 16), (b, 11), (t.code, 9)])
  | .fsqrt d a t => some (enc 0x60000004 [(d, 21), (a, 16), (t.code, 9)])
  | .fmin d a b t => some (enc 0x60000005 [(d, 21), (a, 16), (b, 11), (t.code, 9)])
  | .fmax d a b t => some (enc 0x60000006 [(d, 21), (a, 16), (b, 11), (t.code, 9)])
  | .fclass d a t => some (enc 0x60000007 [(d, 21), (a, 16), (t.code, 9)])
  | .fmvX d a => some (enc 0x60000008 [(d, 21), (a, 16)])
  | .fmvF d a => some (enc 0x60000009 [(d, 21), (a, 16)])
  | .fma d a b c t => some (enc 0x64000000 [(d, 21), (a, 16), (b, 11), (c, 6), (t.code, 4)])
  | .fms d a b c t => some (enc 0x64000001 [(d, 21), (a, 16), (b, 11), (c, 6), (t.code, 4)])
  | .fcvt d a t f => some (enc 0x68000000 [(d, 21), (a, 16), (t, 7), (f, 3)])
  | .fcmpEq d a b t => some (enc 0x6c000000 [(d, 21), (a, 16), (b, 11), (t.code, 9)])
  | .fcmpLt d a b t => some (enc 0x6c000001 [(d, 21), (a, 16), (b, 11), (t.code, 9)])
  | .fcmpLe d a b t => some (enc 0x6c000002 [(d, 21), (a, 16), (b, 11), (t.code, 9)])
  | .fcmpUnord d a b t => some (enc 0x6c000003 [(d, 21), (a, 16), (b, 11), (t.code, 9)])
  | .csrr d n => some (enc 0x70000000 [(d, 21), (n, 0)])
  | .csrw a n => some (enc 0x70000800 [(a, 16), (n, 0)])
  | .csrs a n => some (enc 0x70001000 [(a, 16), (n, 0)])
  | .csrc a n => some (enc 0x70001800 [(a, 16), (n, 0)])
  | .setvli d a v => some (enc 0x74000000 [(d, 21), (a, 16), (v.toNat, 0)])
  | .fork d i => some (enc 0x78000000 [(d, 21), (i.toNat, 0)])
  | .setvl d a b => some (enc 0x7c000000 [(d, 21), (a, 16), (b, 6)])
  | .nexti d => some (enc 0x7c000800 [(d, 21)])
  | .join x => some (enc 0x7c001000 [(x, 21)])
  | .gear g => some (enc 0x7c001800 [(g, 0)])
  | .gearauto g => some (enc 0x7c002000 [(g, 0)])
  | .waitt a => some (enc 0x7c002800 [(a, 16)])
  | .bara a scope => some (enc 0x7c003000 [(a, 16), (scope, 0)])
  | .barw a => some (enc 0x7c003800 [(a, 16)])
  | .fence paths scope => some (enc 0x7c004000 [(paths.toNat, 5), (scope, 0)])
  | .svc code => some (enc 0x7c004800 [(code.toNat, 0)])
  | .eret => some (enc 0x7c005000 [])
  | .idle => some (enc 0x7c005800 [])
  | .exit => some (enc 0x7c006000 [])
  | .vaddVv d a b k => some (enc 0x80000000 [(d, 21), (a, 16), (b, 11), (k, 8)])
  | .vsubVv d a b k => some (enc 0x80000001 [(d, 21), (a, 16), (b, 11), (k, 8)])
  | .vmulVv d a b k => some (enc 0x80000002 [(d, 21), (a, 16), (b, 11), (k, 8)])
  | .vmulhVv d a b k => some (enc 0x80000003 [(d, 21), (a, 16), (b, 11), (k, 8)])
  | .vmulhnVv d a b k => some (enc 0x80000004 [(d, 21), (a, 16), (b, 11), (k, 8)])
  | .vdivVv d a b k => some (enc 0x80000005 [(d, 21), (a, 16), (b, 11), (k, 8)])
  | .vdivnVv d a b k => some (enc 0x80000006 [(d, 21), (a, 16), (b, 11), (k, 8)])
  | .vremVv d a b k => some (enc 0x80000007 [(d, 21), (a, 16), (b, 11), (k, 8)])
  | .vremnVv d a b k => some (enc 0x80000008 [(d, 21), (a, 16), (b, 11), (k, 8)])
  | .vminVv d a b k => some (enc 0x80000009 [(d, 21), (a, 16), (b, 11), (k, 8)])
  | .vminnVv d a b k => some (enc 0x8000000a [(d, 21), (a, 16), (b, 11), (k, 8)])
  | .vmaxVv d a b k => some (enc 0x8000000b [(d, 21), (a, 16), (b, 11), (k, 8)])
  | .vmaxnVv d a b k => some (enc 0x8000000c [(d, 21), (a, 16), (b, 11), (k, 8)])
  | .vandVv d a b k => some (enc 0x8000000d [(d, 21), (a, 16), (b, 11), (k, 8)])
  | .vorVv d a b k => some (enc 0x8000000e [(d, 21), (a, 16), (b, 11), (k, 8)])
  | .vxorVv d a b k => some (enc 0x8000000f [(d, 21), (a, 16), (b, 11), (k, 8)])
  | .vsllVv d a b k => some (enc 0x80000010 [(d, 21), (a, 16), (b, 11), (k, 8)])
  | .vsrlVv d a b k => some (enc 0x80000011 [(d, 21), (a, 16), (b, 11), (k, 8)])
  | .vsraVv d a b k => some (enc 0x80000012 [(d, 21), (a, 16), (b, 11), (k, 8)])
  | .vsaddVv d a b k => some (enc 0x80000013 [(d, 21), (a, 16), (b, 11), (k, 8)])
  | .vsaddnVv d a b k => some (enc 0x80000014 [(d, 21), (a, 16), (b, 11), (k, 8)])
  | .vssubVv d a b k => some (enc 0x80000015 [(d, 21), (a, 16), (b, 11), (k, 8)])
  | .vssubnVv d a b k => some (enc 0x80000016 [(d, 21), (a, 16), (b, 11), (k, 8)])
  | .vaddVx d a x k => some (enc 0x84000000 [(d, 21), (a, 16), (x, 11), (k, 8)])
  | .vsubVx d a x k => some (enc 0x84000001 [(d, 21), (a, 16), (x, 11), (k, 8)])
  | .vmulVx d a x k => some (enc 0x84000002 [(d, 21), (a, 16), (x, 11), (k, 8)])
  | .vmulhVx d a x k => some (enc 0x84000003 [(d, 21), (a, 16), (x, 11), (k, 8)])
  | .vmulhnVx d a x k => some (enc 0x84000004 [(d, 21), (a, 16), (x, 11), (k, 8)])
  | .vdivVx d a x k => some (enc 0x84000005 [(d, 21), (a, 16), (x, 11), (k, 8)])
  | .vdivnVx d a x k => some (enc 0x84000006 [(d, 21), (a, 16), (x, 11), (k, 8)])
  | .vremVx d a x k => some (enc 0x84000007 [(d, 21), (a, 16), (x, 11), (k, 8)])
  | .vremnVx d a x k => some (enc 0x84000008 [(d, 21), (a, 16), (x, 11), (k, 8)])
  | .vminVx d a x k => some (enc 0x84000009 [(d, 21), (a, 16), (x, 11), (k, 8)])
  | .vminnVx d a x k => some (enc 0x8400000a [(d, 21), (a, 16), (x, 11), (k, 8)])
  | .vmaxVx d a x k => some (enc 0x8400000b [(d, 21), (a, 16), (x, 11), (k, 8)])
  | .vmaxnVx d a x k => some (enc 0x8400000c [(d, 21), (a, 16), (x, 11), (k, 8)])
  | .vandVx d a x k => some (enc 0x8400000d [(d, 21), (a, 16), (x, 11), (k, 8)])
  | .vorVx d a x k => some (enc 0x8400000e [(d, 21), (a, 16), (x, 11), (k, 8)])
  | .vxorVx d a x k => some (enc 0x8400000f [(d, 21), (a, 16), (x, 11), (k, 8)])
  | .vsllVx d a x k => some (enc 0x84000010 [(d, 21), (a, 16), (x, 11), (k, 8)])
  | .vsrlVx d a x k => some (enc 0x84000011 [(d, 21), (a, 16), (x, 11), (k, 8)])
  | .vsraVx d a x k => some (enc 0x84000012 [(d, 21), (a, 16), (x, 11), (k, 8)])
  | .vsaddVx d a x k => some (enc 0x84000013 [(d, 21), (a, 16), (x, 11), (k, 8)])
  | .vsaddnVx d a x k => some (enc 0x84000014 [(d, 21), (a, 16), (x, 11), (k, 8)])
  | .vssubVx d a x k => some (enc 0x84000015 [(d, 21), (a, 16), (x, 11), (k, 8)])
  | .vssubnVx d a x k => some (enc 0x84000016 [(d, 21), (a, 16), (x, 11), (k, 8)])
  | .vaddVi d a i k => some (enc 0x88000000 [(d, 21), (a, 16), (i.toNat, 11), (k, 8)])
  | .vsubVi d a i k => some (enc 0x88000001 [(d, 21), (a, 16), (i.toNat, 11), (k, 8)])
  | .vmulVi d a i k => some (enc 0x88000002 [(d, 21), (a, 16), (i.toNat, 11), (k, 8)])
  | .vmulhVi d a i k => some (enc 0x88000003 [(d, 21), (a, 16), (i.toNat, 11), (k, 8)])
  | .vmulhnVi d a i k => some (enc 0x88000004 [(d, 21), (a, 16), (i.toNat, 11), (k, 8)])
  | .vdivVi d a i k => some (enc 0x88000005 [(d, 21), (a, 16), (i.toNat, 11), (k, 8)])
  | .vdivnVi d a i k => some (enc 0x88000006 [(d, 21), (a, 16), (i.toNat, 11), (k, 8)])
  | .vremVi d a i k => some (enc 0x88000007 [(d, 21), (a, 16), (i.toNat, 11), (k, 8)])
  | .vremnVi d a i k => some (enc 0x88000008 [(d, 21), (a, 16), (i.toNat, 11), (k, 8)])
  | .vminVi d a i k => some (enc 0x88000009 [(d, 21), (a, 16), (i.toNat, 11), (k, 8)])
  | .vminnVi d a i k => some (enc 0x8800000a [(d, 21), (a, 16), (i.toNat, 11), (k, 8)])
  | .vmaxVi d a i k => some (enc 0x8800000b [(d, 21), (a, 16), (i.toNat, 11), (k, 8)])
  | .vmaxnVi d a i k => some (enc 0x8800000c [(d, 21), (a, 16), (i.toNat, 11), (k, 8)])
  | .vandVi d a i k => some (enc 0x8800000d [(d, 21), (a, 16), (i.toNat, 11), (k, 8)])
  | .vorVi d a i k => some (enc 0x8800000e [(d, 21), (a, 16), (i.toNat, 11), (k, 8)])
  | .vxorVi d a i k => some (enc 0x8800000f [(d, 21), (a, 16), (i.toNat, 11), (k, 8)])
  | .vsllVi d a i k => some (enc 0x88000010 [(d, 21), (a, 16), (i.toNat, 11), (k, 8)])
  | .vsrlVi d a i k => some (enc 0x88000011 [(d, 21), (a, 16), (i.toNat, 11), (k, 8)])
  | .vsraVi d a i k => some (enc 0x88000012 [(d, 21), (a, 16), (i.toNat, 11), (k, 8)])
  | .vsaddVi d a i k => some (enc 0x88000013 [(d, 21), (a, 16), (i.toNat, 11), (k, 8)])
  | .vsaddnVi d a i k => some (enc 0x88000014 [(d, 21), (a, 16), (i.toNat, 11), (k, 8)])
  | .vssubVi d a i k => some (enc 0x88000015 [(d, 21), (a, 16), (i.toNat, 11), (k, 8)])
  | .vssubnVi d a i k => some (enc 0x88000016 [(d, 21), (a, 16), (i.toNat, 11), (k, 8)])
  | .vfaddVv d a b k bf => some (enc 0x8c000000 [(d, 21), (a, 16), (b, 11), (k, 8), (bf.toNat, 7)])
  | .vfsubVv d a b k bf => some (enc 0x8c000001 [(d, 21), (a, 16), (b, 11), (k, 8), (bf.toNat, 7)])
  | .vfmulVv d a b k bf => some (enc 0x8c000002 [(d, 21), (a, 16), (b, 11), (k, 8), (bf.toNat, 7)])
  | .vfdivVv d a b k bf => some (enc 0x8c000003 [(d, 21), (a, 16), (b, 11), (k, 8), (bf.toNat, 7)])
  | .vfminVv d a b k bf => some (enc 0x8c000004 [(d, 21), (a, 16), (b, 11), (k, 8), (bf.toNat, 7)])
  | .vfmaxVv d a b k bf => some (enc 0x8c000005 [(d, 21), (a, 16), (b, 11), (k, 8), (bf.toNat, 7)])
  | .vfsqrt d a k bf => some (enc 0x8c000006 [(d, 21), (a, 16), (k, 8), (bf.toNat, 7)])
  | .vfaddVf d a f k bf => some (enc 0x90000000 [(d, 21), (a, 16), (f, 11), (k, 8), (bf.toNat, 7)])
  | .vfsubVf d a f k bf => some (enc 0x90000001 [(d, 21), (a, 16), (f, 11), (k, 8), (bf.toNat, 7)])
  | .vfmulVf d a f k bf => some (enc 0x90000002 [(d, 21), (a, 16), (f, 11), (k, 8), (bf.toNat, 7)])
  | .vfdivVf d a f k bf => some (enc 0x90000003 [(d, 21), (a, 16), (f, 11), (k, 8), (bf.toNat, 7)])
  | .vfminVf d a f k bf => some (enc 0x90000004 [(d, 21), (a, 16), (f, 11), (k, 8), (bf.toNat, 7)])
  | .vfmaxVf d a f k bf => some (enc 0x90000005 [(d, 21), (a, 16), (f, 11), (k, 8), (bf.toNat, 7)])
  | .vfcvt d a t k f => some (enc 0x94000000 [(d, 21), (a, 16), (t, 11), (k, 8), (f, 0)])
  | .vqz d a t k f => some (enc 0x94000020 [(d, 21), (a, 16), (t, 11), (k, 8), (f, 0)])
  | .vdq d a t k f => some (enc 0x94000040 [(d, 21), (a, 16), (t, 11), (k, 8), (f, 0)])
  | .vfexp d a k => some (enc 0x94000060 [(d, 21), (a, 16), (k, 8)])
  | .vflog d a k => some (enc 0x94000061 [(d, 21), (a, 16), (k, 8)])
  | .vgumbel d k => some (enc 0x94000062 [(d, 21), (k, 8)])
  | .vrng d k => some (enc 0x94000063 [(d, 21), (k, 8)])
  | .vrngSeed rs => some (enc 0x94000064 [(rs, 11)])
  | .vscl d a b k => some (enc 0x94000080 [(d, 21), (a, 16), (b, 11), (k, 8)])
  | .vsclg d a => some (enc 0x94000081 [(d, 21), (a, 16)])
  | .vfma d a b k bf => some (enc 0x98000000 [(d, 21), (a, 16), (b, 11), (k, 8), (bf.toNat, 7)])
  | .vfms d a b k bf => some (enc 0x98000001 [(d, 21), (a, 16), (b, 11), (k, 8), (bf.toNat, 7)])
  | .vdotS d a b k t => some (enc 0x98000010 [(d, 21), (a, 16), (b, 11), (k, 8), (t, 1)])
  | .vdotG d a b k t => some (enc 0x98000011 [(d, 21), (a, 16), (b, 11), (k, 8), (t, 1)])
  | .vadc d a b c => some (enc 0x9c000000 [(d, 21), (a, 16), (b, 11), (c, 8)])
  | .vsbc d a b c => some (enc 0x9c000001 [(d, 21), (a, 16), (b, 11), (c, 8)])
  | .vaddk d a b c => some (enc 0x9c000002 [(d, 21), (a, 16), (b, 11), (c, 8)])
  | .vcmpEq d a b k => some (enc 0x9c000010 [(d, 21), (a, 16), (b, 11), (k, 8)])
  | .vcmpNe d a b k => some (enc 0x9c000011 [(d, 21), (a, 16), (b, 11), (k, 8)])
  | .vcmpLt d a b k => some (enc 0x9c000012 [(d, 21), (a, 16), (b, 11), (k, 8)])
  | .vcmpLtn d a b k => some (enc 0x9c000013 [(d, 21), (a, 16), (b, 11), (k, 8)])
  | .vcmpLe d a b k => some (enc 0x9c000014 [(d, 21), (a, 16), (b, 11), (k, 8)])
  | .vcmpLen d a b k => some (enc 0x9c000015 [(d, 21), (a, 16), (b, 11), (k, 8)])
  | .vcmpFeq d a b k bf => some (enc 0x9c000018 [(d, 21), (a, 16), (b, 11), (k, 8), (bf.toNat, 7)])
  | .vcmpFlt d a b k bf => some (enc 0x9c000019 [(d, 21), (a, 16), (b, 11), (k, 8), (bf.toNat, 7)])
  | .vcmpFle d a b k bf => some (enc 0x9c00001a [(d, 21), (a, 16), (b, 11), (k, 8), (bf.toNat, 7)])
  | .vcmpFunord d a b k bf => some (enc 0x9c00001b [(d, 21), (a, 16), (b, 11), (k, 8), (bf.toNat, 7)])
  | .vmerge d a b c => some (enc 0x9c000020 [(d, 21), (a, 16), (b, 11), (c, 8)])
  | .vmvVv d a => some (enc 0x9c000021 [(d, 21), (a, 16)])
  | .vmvVx d rs => some (enc 0x9c000022 [(d, 21), (rs, 11)])
  | .vmvVf d rs => some (enc 0x9c000023 [(d, 21), (rs, 11)])
  | .vmvXv d a => some (enc 0x9c000024 [(d, 21), (a, 16)])
  | .vmvFv d a => some (enc 0x9c000025 [(d, 21), (a, 16)])
  | .vid d k => some (enc 0x9c000026 [(d, 21), (k, 8)])
  | .kand d a b => some (enc 0xa0000000 [(d, 21), (a, 16), (b, 11)])
  | .kor d a b => some (enc 0xa0000001 [(d, 21), (a, 16), (b, 11)])
  | .kxor d a b => some (enc 0xa0000002 [(d, 21), (a, 16), (b, 11)])
  | .kandn d a b => some (enc 0xa0000003 [(d, 21), (a, 16), (b, 11)])
  | .knot d a => some (enc 0xa0000004 [(d, 21), (a, 16)])
  | .kmv d a => some (enc 0xa0000005 [(d, 21), (a, 16)])
  | .kshl d a b => some (enc 0xa4000000 [(d, 21), (a, 16), (b, 11)])
  | .kshr d a b => some (enc 0xa4000001 [(d, 21), (a, 16), (b, 11)])
  | .kpop d a => some (enc 0xa8000000 [(d, 21), (a, 16)])
  | .kfirst d a => some (enc 0xa8000001 [(d, 21), (a, 16)])
  | .klast d a => some (enc 0xa8000002 [(d, 21), (a, 16)])
  | .kld d a => some (enc 0xac000000 [(d, 21), (a, 16)])
  | .kst ks a => some (enc 0xac000001 [(ks, 21), (a, 16)])
  | .vld d a k eo so w h => some (enc 0xb0000000 [(d, 21), (a, 16), (k, 8), (eo.toNat, 7), (so.toNat, 6), (w.code, 4), (h.code, 0)])
  | .vlds d a b k eo so w h => some (enc 0xb0000004 [(d, 21), (a, 16), (b, 11), (k, 8), (eo.toNat, 7), (so.toNat, 6), (w.code, 4), (h.code, 0)])
  | .vldx d a b k eo so w h => some (enc 0xb0000008 [(d, 21), (a, 16), (b, 11), (k, 8), (eo.toNat, 7), (so.toNat, 6), (w.code, 4), (h.code, 0)])
  | .vldff d a k eo so w h => some (enc 0xb000000c [(d, 21), (a, 16), (k, 8), (eo.toNat, 7), (so.toNat, 6), (w.code, 4), (h.code, 0)])
  | .vst vs a k eo so w h => some (enc 0xb4000000 [(vs, 21), (a, 16), (k, 8), (eo.toNat, 7), (so.toNat, 6), (w.code, 4), (h.code, 0)])
  | .vsts vs a b k eo so w h => some (enc 0xb4000004 [(vs, 21), (a, 16), (b, 11), (k, 8), (eo.toNat, 7), (so.toNat, 6), (w.code, 4), (h.code, 0)])
  | .vstx vs a b k eo so w h => some (enc 0xb4000008 [(vs, 21), (a, 16), (b, 11), (k, 8), (eo.toNat, 7), (so.toNat, 6), (w.code, 4), (h.code, 0)])
  | .vstxadd vs a b k w f => some (enc 0xb400000c [(vs, 21), (a, 16), (b, 11), (k, 8), (w.code, 4), (f.toNat, 0)])
  | .vldseg d a k f so w h => some (enc 0xb8000000 [(d, 21), (a, 16), (k, 8), (f.toNat, 7), (so.toNat, 6), (w.code, 4), (h.code, 0)])
  | .vldpl d a k eo so w h => some (enc 0xb8000004 [(d, 21), (a, 16), (k, 8), (eo.toNat, 7), (so.toNat, 6), (w.code, 4), (h.code, 0)])
  | .vstseg vs a k f so w h => some (enc 0xb8000008 [(vs, 21), (a, 16), (k, 8), (f.toNat, 7), (so.toNat, 6), (w.code, 4), (h.code, 0)])
  | .vstpl vs a k eo so w h => some (enc 0xb800000c [(vs, 21), (a, 16), (k, 8), (eo.toNat, 7), (so.toNat, 6), (w.code, 4), (h.code, 0)])
  | .vamoadd d a b k w => some (enc 0xbc000000 [(d, 21), (a, 16), (b, 11), (k, 8), (w.code, 4)])
  | .vamomin d a b k w n => some (enc 0xbc000004 [(d, 21), (a, 16), (b, 11), (k, 8), (w.code, 4), (n.toNat, 1)])
  | .vamomax d a b k w n => some (enc 0xbc000008 [(d, 21), (a, 16), (b, 11), (k, 8), (w.code, 4), (n.toNat, 1)])
  | .vamoswap d a b k w => some (enc 0xbc00000c [(d, 21), (a, 16), (b, 11), (k, 8), (w.code, 4)])
  | .sbind d a n => some (enc 0xc0000000 [(d, 21), (a, 16), (n, 8)])
  | .sunbind n => some (enc 0xc0000800 [(n, 8)])
  | .sclose n => some (enc 0xc0001000 [(n, 8)])
  | .scopy d a c => some (enc 0xc4000000 [(d, 21), (a, 16), (c, 9)])
  | .sxform d a c => some (enc 0xc4000800 [(d, 21), (a, 16), (c, 9)])
  | .smcast d vs c => some (enc 0xc4001000 [(d, 21), (vs, 16), (c, 9)])
  | .xwait a c => some (enc 0xc4001800 [(a, 16), (c, 9)])
  | .xpoll d a c => some (enc 0xc4002000 [(d, 21), (a, 16), (c, 9)])
  | .mgopen d a => some (enc 0xc8000000 [(d, 21), (a, 16)])
  | .mgpush a b k => some (enc 0xc8000800 [(a, 21), (b, 16), (k, 8)])
  | .mgfin d a => some (enc 0xc8001000 [(d, 21), (a, 16)])
  | .mgstat d a => some (enc 0xc8001800 [(d, 21), (a, 16)])
  | .vpass d c op start cnt => some (enc 0xd0000000 [(d, 21), (c, 16), (op, 12), (start, 4), (cnt, 1)])
  | .vpassD d c op start cnt => some (enc 0xd0000800 [(d, 21), (c, 16), (op, 12), (start, 4), (cnt, 1)])
  | .vredS d a t k => some (enc 0xd4000000 [(d, 21), (a, 16), (t, 11), (k, 8)])
  | .vredG d a t k => some (enc 0xd4000001 [(d, 21), (a, 16), (t, 11), (k, 8)])
  | .vredOp d a op k => some (enc 0xd4000002 [(d, 21), (a, 16), (op, 11), (k, 8)])
  | .vscanS d a t k => some (enc 0xd4000003 [(d, 21), (a, 16), (t, 11), (k, 8)])
  | .vscanG d a t k => some (enc 0xd4000004 [(d, 21), (a, 16), (t, 11), (k, 8)])
  | .vscanOp d a op k => some (enc 0xd4000005 [(d, 21), (a, 16), (op, 11), (k, 8)])
  | .vcompress d a c => some (enc 0xd4000006 [(d, 21), (a, 16), (c, 8)])
  | .vmaxi d a f c => some (enc 0xd4000007 [(d, 21), (a, 16), (f, 11), (c, 8)])
  | .vmaxiBf16 d a f c => some (enc 0xd4000087 [(d, 21), (a, 16), (f, 11), (c, 8)])
  | .vsort d a k => some (enc 0xd4000008 [(d, 21), (a, 16), (k, 8)])
  | .vsortD d a k => some (enc 0xd4000009 [(d, 21), (a, 16), (k, 8)])
  | .vroute d a => some (enc 0xd400000a [(d, 21), (a, 16)])
  | .spadd d a b => some (enc 0xd8000000 [(d, 21), (a, 16), (b, 11)])
  | .spmul d a b => some (enc 0xd8000001 [(d, 21), (a, 16), (b, 11)])
  | .splen d a => some (enc 0xd8000002 [(d, 21), (a, 16)])
  | .opld n a => some (enc 0xdc000000 [(n, 21), (a, 16)])
  | .opclr n => some (enc 0xdc000800 [(n, 21)])
  | .topaS t a b k y => some (enc 0xe0000000 [(t, 21), (a, 16), (b, 11), (k, 8), (y, 0)])
  | .topaG t a b k y => some (enc 0xe0000010 [(t, 21), (a, 16), (b, 11), (k, 8), (y, 0)])
  | .tileon n => some (enc 0xe4000000 [(n, 0)])
  | .tileoff => some (enc 0xe4000800 [])
  | .tzero t => some (enc 0xe4001000 [(t, 21)])
  | .tld t a b h => some (enc 0xe8000000 [(t, 21), (a, 16), (b, 11), (h.code, 0)])
  | .tst t a b h => some (enc 0xe8000004 [(t, 21), (a, 16), (b, 11), (h.code, 0)])
  | .tmvr d t a k => some (enc 0xec000000 [(d, 21), (t, 16), (a, 11), (k, 8)])
  | .tmvc d t a k => some (enc 0xec000001 [(d, 21), (t, 16), (a, 11), (k, 8)])
  | .tvmr t vs a => some (enc 0xec000002 [(t, 21), (vs, 16), (a, 11)])
  | .tvmc t vs a => some (enc 0xec000003 [(t, 21), (vs, 16), (a, 11)])
  | .nop => some (enc 0xf0000000 [])
  | .hpf a h off => some (enc 0xf0200000 [(a, 16), (h.code, 12), (off.toNat, 0)])
  | .illegalInstruction _ _ => none
  | .hintNoOp w => some w.toNat
  | .instructionFetchFault => none
  | .idleEarlyEnd _ _ => none
  | .flushComplete => none
  | .restoreComplete _ _ => none

end Sys2Proof
end

