-- ==== Sys2Proof/Config.lean ====
section
/-! DEFINITION. What is fixed for the machine: the counts and addresses the specification gives, and the free values.

A free value is a constant without a body. Each is applied to the counter `fresh` of the device, which a use advances,
or to the data it depends on, so that a claim about it holds whatever it is. -/

namespace Sys2Proof.Config

/-- Bricks of a package (R10). -/
def bricks : Nat := 1024

/-- Harts of a brick (R85). -/
def hartsPerBrick : Nat := 4

/-- Courses of a package (R10). -/
def courses : Nat := 64

/-- Channels of a package (R12). -/
def channels : Nat := 128

/-- Ports of a package (R16). -/
def ports : Nat := 32

/-- Bytes of GDDR 7 that are populated at reset, from offset 0 (R13; PRESUMED, log 15: the 256 GiB part). `Device.gddr` holds those of the
machine. -/
def gddrBytes : Nat := 0x4000000000

/-- The first offset of the command region (R13, R40). -/
def commandBase : Nat := 0xC000000000

/-- The first virtual address of the local-memory window (R148). -/
def localBase : Nat := 0xFFFFFFFFE80000

/-- Bytes of one local-memory partition (R149). -/
def partitionBytes : Nat := 0x60000

/-- Bytes of a save area (R78). -/
def saveAreaBytes : Nat := 69632

/-- Nanoseconds of DTIME that pass in one step of the machine (R30 gives no number for a step; DESIGN CHOICE, log 6). -/
opaque elapsed : Nat → Nat

/-- Whether a scalar load takes an element of an earlier vector store of its strip that lacks so (R191: either; log 9). -/
opaque forwards : Nat → Bool

/-- Microjoules that the sensors charge to an account in one interval (R147; log 12). -/
opaque energy : Nat → Nat

/-- Whether both signatures of both images verify, and their security versions and digests (R37 to R39; log 13). -/
opaque imagesVerify : Nat → Bool
opaque gmcVersion : Nat → Nat
opaque schedVersion : Nat → Nat
opaque imageDigests : Nat → List Byte

/-- The two signatures of an attestation report over its bytes 0 to 179, and the identity certificate (R39; log 13). -/
opaque attestationSignatures : List Byte → List Byte
opaque certificate : Nat → List Byte

/-- The payload of a PTP message a clock sends (R29: as IEEE 1588-2019 lays it out; log 33). -/
opaque timeMessage : Nat → Nat → List Byte

/-- A 64-bit value that nothing constrains (log 3). -/
opaque freeWord : Nat → Word

end Sys2Proof.Config
end

