-- ==== Sys2Proof/Machine/State.lean ====
section
/-! DEFINITION. The state of a Jarwin: the hart in focus, and the device with every other hart, its bricks, memory,
engines, ports, scheduler and host windows. All of it is plain data.

`Regs` is the part of a hart that a checkpoint holds (R232). The rest of a hart is in `Hart`, and everything else in
`Device`. Where the specification gives a piece of state a width and software reads it as a word it is a bit vector.
Counts, indices and addresses are natural numbers. -/

namespace Sys2Proof.Machine

/-- Why a step of the machine stops. The specification describes an effect for every instruction and step, so only an
agenda that names something the package does not have ends here. -/
inductive Fault where
  /-- Raised by `step` when the agenda names a brick, hart, port, unit or flit size that no package has (R10, R16, R17, R85), or
  as an event what is none. Safe: nothing of the hardware corresponds to it. -/
  | noSuchUnit
deriving DecidableEq, Repr

/-- Why the model gives an instruction no meaning. -/
inductive Refusal where
  /-- Raised by `exec` for an instruction without a meaning in the model. Safe: the machine stops. -/
  | notModelled (mnemonic : String)
deriving DecidableEq, Repr

/-! ### Registers of a hart -/

/-- VTYPE (R89): VILL, KZ, GM and SEW; its other bits read 0. -/
structure VType where
  vill : Bool := false
  kz : Bool := false
  gm : BitVec 2 := 0
  sew : BitVec 2 := 3
deriving DecidableEq, Repr

/-- PASSST (R236). -/
structure PassSt where
  valid : Bool := false
  step : BitVec 8 := 0
  next : BitVec 4 := 0
  done : BitVec 4 := 0
deriving DecidableEq, Repr

/-- A stream descriptor as read at its binding (R164), with its own virtual address `va` (R169). -/
structure StreamDesc where
  va : Addr
  base : Word
  cnt0 : Nat
  cnt1 : Nat
  cnt2 : Nat
  ew : Nat
  mode : Nat
  win : Nat
  sender : Nat
  str0 : Word
  str1 : Word
  str2 : Word
  wstr : Word
deriving DecidableEq, Repr

/-- A bound stream: its descriptor, its register, and how many elements it has passed (R165, R166). `ended` is its END
bit (R167). `elsewhere` says that its slot came from beyond the hart's reservation (R164). -/
structure Stream where
  desc : StreamDesc
  reg : Nat
  pos : Nat
  ended : Bool := false
  elsewhere : Bool := false
deriving DecidableEq, Repr

/-- The name of a register group (R114): digest and salt, with what the comparison of R116 looks at beside the bytes:
the group's GM and the VL and VTYPE [6:0] it was written under. -/
structure GroupName where
  digest : BitVec 64
  salt : Nat
  gm : BitVec 2
  vl : BitVec 14
  vtype : BitVec 7
deriving DecidableEq, Repr

/-- A physical register (R110): a slot part, named by its number, in each lane group that is bound. -/
abbrev Phys := List (Nat × Nat)

/-- A register group that is held by name: its name, registers, physical registers, mortar bytes and failed slots (R112, R116, R243). -/
structure NamedGroup where
  name : GroupName
  regs : List Wide
  phys : List Phys
  mortar : List (BitVec 256)
  fail : List (BitVec 128)
deriving DecidableEq, Repr

/-- What a checkpoint holds (R232), with LIDX (R293) and the operator slots (R357). Vector byte b of a register is in
bound-lane ordinal b div 32 (R91), and bits [8b+7:8b] of the register's field hold it. `vfail`, `kfail` and `tfail`
mark the 64-bit slots that hold an error (R243). `phys` are the physical registers that the registers map to (R111), whose contents each
mapping holds. `kgen` and `ogen` are the generations of masks and operator slots (R117).
`claim` counts the hart's tileons, so that the tiles of a checkpoint are told from later ones (R379). -/
structure Regs where
  pc : Word := 0
  x : Vector Word 32 := Vector.replicate 32 0
  f : Vector Word 32 := Vector.replicate 32 0
  v : Vector Wide 32 := Vector.replicate 32 0
  mortar : Vector (BitVec 256) 32 := Vector.replicate 32 0
  names : Vector (Option GroupName) 32 := Vector.replicate 32 none
  phys : Vector Phys 32 := Vector.replicate 32 []
  k : Vector Wide 8 := Vector.replicate 8 0
  vl : BitVec 14 := 0
  vtype : VType := {}
  slen : Vector (BitVec 14) 8 := Vector.replicate 8 0
  passst : PassSt := {}
  gkey : Vector Word 32 := Vector.replicate 32 0
  gpos : Vector Word 32 := Vector.replicate 32 0
  streams : Vector (Option Stream) 8 := Vector.replicate 8 none
  tile : Vector Wide 8 := Vector.replicate 8 0
  ncl : BitVec 4 := 0
  ten : BitVec 8 := 0
  claim : Nat := 0
  issued : Vector (BitVec 32) 4 := Vector.replicate 4 0
  lidx : Vector (BitVec 32) 4 := Vector.replicate 4 0
  ops : Vector (BitVec 256) 8 := Vector.replicate 8 0
  kgen : Vector (BitVec 32) 8 := Vector.replicate 8 0
  ogen : Vector (BitVec 32) 8 := Vector.replicate 8 0
  vfail : Vector (BitVec 128) 32 := Vector.replicate 32 0
  kfail : Vector (BitVec 128) 8 := Vector.replicate 8 0
  tfail : Vector (BitVec 128) 8 := Vector.replicate 8 0
deriving DecidableEq, Repr

/-! ### Memory accesses in progress -/

/-- The paths of a hart's own accesses (R184). -/
inductive Path where
  | s | v | q | c | m | a
deriving DecidableEq, Repr

/-- Where a byte lies: in the brick's local memory at a partition's offset (R149), or at a fabric-global physical
address (R13). -/
inductive Place where
  | loc (off : Nat)
  | phys (pa : Nat)
deriving DecidableEq, Repr

/-- What a buffered store does at its address: it writes its bytes, or adds an integer or an FP value of the width of
its bytes (R163). -/
inductive StoreOp where
  | write
  | addInt
  | addFp (rm : Nat)
deriving DecidableEq, Repr

/-- One element of a buffered store: consecutive bytes, each with its place (R188). `elem` is its element index, `soft`
says that a scalar load of the same strip may or may not see it (R191), `eo` that its instruction's elements perform in
ascending order (R192), `idx` that its addresses are indexed (R160), `part` that it is no message of the
scheduled class, as one of kst or of an instruction whose elements do not go together (R405), and `ins` numbers its store instruction within the strip. -/
structure BufStore where
  va : Addr
  place : List Place
  data : List Byte
  path : Path
  op : StoreOp := .write
  elem : Nat := 0
  soft : Bool := false
  eo : Bool := false
  idx : Bool := false
  part : Bool := false
  ins : Nat := 0
deriving DecidableEq, Repr

/-- A copy-engine command (R170): a bulk copy or a layout transform, with its command block's fields (R343, R344). -/
structure CopyBlock where
  xform : Bool
  kind : Nat
  ecode : Nat
  rows : Nat
  cols : Nat
  n : Nat
  src : Word
  dst : Word
  len : Nat
  record : Word
deriving DecidableEq, Repr

/-- A landed or travelling multicast buffer (R177): the register and its mortar bytes, VL and VTYPE at the sending, and
the sender's LGN. `read` says that its receiver has read it, and its permit has returned, `spilled` that it lies in its spill area (R178); `phys` is
the physical register it landed in. -/
structure McBuf where
  data : Wide
  mortar : BitVec 256
  fail : BitVec 128
  vl : BitVec 14
  vtype : VType
  lgn : Nat
  read : Bool := false
  spilled : Bool := false
  phys : Phys := []
deriving DecidableEq, Repr

/-- A merge command (R367, R368). -/
inductive MergeCmd where
  | openSession (record : Word) (fp64 : Bool) (spill : Word) (spillBytes limit rows : Nat)
  | push (entries : List (Nat × Nat))
  | fin (record rowptr col val : Word) (cap : Nat)
  | stat (record out : Word)
deriving DecidableEq, Repr

/-- A buffered engine command of a strip (R170, R180): for a channel, with an identifier, except mgpush. A multicast names its
receivers and their streams. -/
inductive Command where
  | copy (chan : Nat) (id : BitVec 32) (block : CopyBlock)
  | mcast (chan : Nat) (id : BitVec 32) (buf : McBuf) (dests : List (Nat × Nat))
  | merge (chan : Nat) (id : BitVec 32) (cmd : MergeCmd)
deriving DecidableEq, Repr

/-- A strip: its buffered stores and engine commands, oldest first, the entries its stores take (R188), how many store
instructions it holds, and once it has ended its serial number. -/
structure Strip where
  serial : Nat := 0
  stores : List BufStore := []
  cmds : List Command := []
  used : Nat := 0
  count : Nat := 0
deriving DecidableEq, Repr

/-- A strip that has ended and not yet closed (R190), with its checkpoint (R419). `kept` marks one that came from a save area: no
restart reaches back to it (R419). `freed` are the claims of tiles released in it, each with its number and its tiles (R379). -/
structure EndedStrip where
  strip : Strip
  ckpt : Regs
  kept : Bool := false
  freed : List (Nat × Nat) := []
deriving DecidableEq, Repr

/-- The scalar operands, VL, VTYPE and FRM an instruction captured at its dispatch (R97). -/
structure Captured where
  op1 : Word := 0
  op2 : Word := 0
  vl : BitVec 14 := 0
  vtype : VType := {}
  frm : BitVec 3 := 0
deriving DecidableEq, Repr

/-- Flags raised by the elements of a vector instruction: the five bits of FSTAT in the order NV, DZ, OF, UF, NX from
bit 4 down (R218), and the lowest element index for each (R219). -/
structure Flags where
  bits : BitVec 5 := 0
  idx : Vector (Option Nat) 5 := Vector.replicate 5 none
deriving DecidableEq, Repr

/-- The key of a reuse-table entry (R120). -/
structure ReuseKey where
  ctx : Nat
  vmid : Nat
  lgset : BitVec 4
  word : BitVec 32
  vtype : BitVec 7
  frm : BitVec 3
  vl : BitVec 14
  srcs : List GroupName
  mask : Option (Nat × BitVec 32)
  old : Option GroupName
  sop1 : Word
  sop2 : Word
  slot : Option (Nat × BitVec 32)
deriving DecidableEq, Repr

/-- How long a reuse-table entry lives (R123, R124): computed, an ordinary load of a strip, or a constant-hint load. -/
inductive EntryKind where
  | compute
  | ordinary (hart : Nat) (serial : Nat)
  | const
deriving DecidableEq, Repr

/-- The requests and settings of gears and waits (R132, R138, R141); `drop` says that an auto drop is in force. -/
structure Gears where
  req : Bool := false
  auto : Bool := false
  eff : Bool := false
  drop : Bool := false
  lead : BitVec 14 := 200
  idle : BitVec 24 := 1024
deriving DecidableEq, Repr

/-- An arrival of the hart at a barrier (R298): number, scope, phase, and the serial of its strip. `again` says that the strip
has restarted and its bara has not run again. -/
structure Arrival where
  bar : Nat
  scope : Nat
  phase : Nat
  strip : Nat
  again : Bool := false
deriving DecidableEq, Repr

/-- What the scalar side has read for a command that waits behind the vector side (R342, R354, R367, R338): an operator slot's descriptor, a
command of the copy engine or of the merge engine with its channel, a stream's descriptor. -/
inductive Issued where
  | slot (v : BitVec 256)
  | copy (b : CopyBlock)
  | merge (chan : Nat) (m : MergeCmd)
  | stream (t : StreamDesc)
deriving DecidableEq, Repr

/-- An instruction of the vector side that has been dispatched and not started (R97): its word, and the hart's program counter, scalar
registers, LIDX and ISSUED as it found them, with the number of its place among the strip's store instructions; what the scalar side may
change as it goes on (FRM, VLCAP.CHG, VSKEW, the gears, ATE and INH, arrivals at barriers); and what was read for it. -/
structure Queued where
  word : BitVec 32
  pc : Word
  x : Vector Word 32
  f : Vector Word 32
  lidx : Vector (BitVec 32) 4
  issued : Vector (BitVec 32) 4
  ins : Nat
  frm : BitVec 3 := 0
  chg : Bool := false
  vskew : BitVec 4 := 0
  gears : Gears := {}
  ate : Bool := false
  inh : Bool := false
  arrivals : List Arrival := []
  op : Option Issued := none
deriving DecidableEq, Repr

/-- A register as an instruction found it that has begun to write it (R226). -/
structure OldReg where
  reg : Nat
  v : Wide
  mortar : BitVec 256
  fail : BitVec 128
  phys : Phys
deriving DecidableEq, Repr

/-- Where an instruction started, so that a trap leaves nothing of it (R226): the scalar side at its dispatch, its destination with the names
of the registers, the generators, and PASSST. -/
structure Start where
  front : Queued
  dest : List OldReg := []
  names : Vector (Option GroupName) 32 := Vector.replicate 32 none
  gkey : Vector Word 32 := Vector.replicate 32 0
  gpos : Vector Word 32 := Vector.replicate 32 0
  passst : PassSt := {}
deriving DecidableEq, Repr

/-- The contents of a register group: its bytes as one number, byte b in bits [8b+7:8b], a mortar byte for each block of 32
bytes, and a failed bit for each 64-bit slot. `cover` marks the bits that an instruction has written. -/
structure Group where
  bits : Nat := 0
  mortar : Nat := 0
  fail : Nat := 0
  cover : Nat := 0
deriving DecidableEq, Repr

/-- An instruction started and unfinished (R80, R96): its word and address, its element groups or stages done, what it
captured, the flags of its finished part, and its reuse key if it may be entered, with the kind of the entry (R118) and the groups the key
names. `holds` are the physical registers it reads and writes (R112), and `places` the places of its elements as its probe pass found
them (R158), with the addresses that it translated in `vas`. `resumed` marks one that came from a save area (R420); of another `start` tells where it started (R226). `srcs` and
`old` are the operands and the destination of a bond instruction as it read them (R236, R303). -/
structure InFlight where
  word : BitVec 32
  pc : Word
  groups : Nat := 0
  finished : Bool := false
  cap : Captured := {}
  flags : Flags := {}
  key : Option ReuseKey := none
  kind : EntryKind := .compute
  held : List NamedGroup := []
  holds : List Phys := []
  places : List (Nat × List Place) := []
  vas : List Addr := []
  resumed : Bool := false
  start : Option Start := none
  srcs : List Group := []
  old : Group := {}
deriving DecidableEq, Repr

/-- A CSR write that waits for the vector side (R128, R220): the instruction's fn, 1 to 3 (R290), and the value of xa. -/
inductive CsrWrite where
  | fstat (fn : Nat) (v : Word)
  | fidx (i fn : Nat) (v : Word)
  | reuseHit (fn : Nat) (v : Word)
deriving DecidableEq, Repr

/-- A piece of an access to another node that has come back (R20): the byte at an address, or its failure; or the bytes that an
element-ordered load has read of a piece of its (R192). -/
inductive Landed where
  | value (piece : Nat) (l : List Byte)
  | byte (pa : Nat) (b : Byte)
  | failed (pa : Nat) (status : Nat)
  | atomic (elem : Nat) (status : Nat) (old : Word)
deriving DecidableEq, Repr

/-- A fetched and unread stream element: its bytes, or the condition its reader meets (R168, R243). -/
inductive Fetched where
  | data (v : Nat)
  | trap (cause kind : Nat) (va : Addr)
deriving DecidableEq, Repr

/-- A trap as an instruction meets it (R224): cause, kind, TVAL, and the element and lane that met it (R228). `report` is
the delivered report of cause 0x11. -/
structure Trap where
  cause : Nat
  kind : Nat := 0
  tval : Word := 0
  elem : Option Nat := none
  lane : Option Nat := none
  report : Word := 0
deriving DecidableEq, Repr

/-- A trap entry that has begun and awaits another node (R229, R237): the trap, EPC and RESUMEPC, and once its frame is written the
frame's address and HANDLER. -/
structure Entry where
  trap : Trap
  epc : Word
  resume : Word
  frame : Option (Nat × Nat) := none
deriving DecidableEq, Repr

/-- A receiver of a multicast group: the sending hart, the receiving hart and stream, and the permits it has given
(R176). `gone` says that the sender has ended normally. -/
structure McMember where
  sender : Nat
  receiver : Nat
  stream : Nat
  permits : Nat
  gone : Bool := false
deriving DecidableEq, Repr

/-- A mode-2 binding that the open strip has undone: its place in its group and its landed buffers, which a restart brings back (R341). -/
structure Unbound where
  member : McMember
  buffers : List McBuf
deriving DecidableEq, Repr

/-- What a hart waits for. A waiting hart stands at the waiting instruction, except in `idle`, which has passed it. -/
inductive Wait where
  | none
  | tileon (n : Nat)
  | streamSlot
  | waitt (target : Nat)
  | barw (bar : Nat)
  | bara
  | xwait (chan : Nat) (id : BitVec 32)
  | idle (since : Nat) (done : List (BitVec 32)) (reports : Nat)
  | join
  | forkSetvl
  | fence
  | smcast
  | stream
  | channel
  | memory
deriving DecidableEq, Repr

/-- The place of a hart in a fork (R100 to R104): the hart number of its partner on its brick, whether the split or the
rejoin has taken effect, and in a parent after the child's JOIN the child's value, its lane groups and their state. -/
inductive Fork where
  | none
  | parent (child : Nat) (split : Bool)
  | child (parent : Nat) (split : Bool)
  | ended (value : Word) (split : Bool) (lgs : BitVec 4) (childRegs : Regs)
  | rejoin (lgs : BitVec 4) (childRegs : Regs)
deriving DecidableEq, Repr

/-- The state of a hart as the scheduler sees it (R64, R69, R76, R77): free, holding a start token, running, stopped for a
save, stopped for a retirement (R109), or being restored. -/
inductive RunState where
  | free
  | token
  | running
  | stopped
  | retiring (lgs : BitVec 4)
  | restoring
deriving DecidableEq, Repr

/-- The levels of a launch's loop table: extent and placement (R56). -/
structure Level where
  extent : Nat := 0
  place : Nat := 0
deriving DecidableEq, Repr

/-- AERR and the report queue (R239, R240): the held report, ATE, INH, the 14 queued reports and the number of further
ones. `pending` is bit 0 of the pending field of a restored area (R242). -/
structure Aerr where
  held : Option Word := none
  ate : Bool := false
  inh : Bool := false
  queue : List Word := []
  lost : Nat := 0
  pending : Bool := false
deriving DecidableEq, Repr

/-- A hart (R85). `r` is its registers now and `ckpt` those of the checkpoint of its open strip. `vqueue` are the vector instructions that
wait for the vector side (R97). `freed` are the claims of tiles released in the open strip (R379). `budget` limits the
element groups or stages of the next vector instruction, and `resume` is the in-flight record that is being continued:
both are the model's own and hold only within a step. `fetched`, `fetching` and `streamLanded` are what the stream engine holds of
unread elements, by stream and element: arrived, on their way, and in pieces from another node (R168). `buffers` are the landed buffers
of mode-2 streams, and `landing` the physical registers reserved for others (R176). -/
structure Hart where
  brick : Nat := 0
  num : Nat := 0
  uid : Nat := 0
  run : RunState := .free
  r : Regs := {}
  ckpt : Regs := {}
  serial : Nat := 0
  queue : Nat := 0
  seq : Nat := 0
  index : Nat := 0
  ctx : Nat := 0
  vmid : Nat := 0
  kernel : Word := 0
  levels : Vector Level 4 := Vector.replicate 4 {}
  tileRes : Nat := 0
  streamRes : Nat := 0
  iword : BitVec 32 := 0
  lgn : BitVec 3 := 0
  chg : Bool := false
  bound : BitVec 4 := 0
  next : BitVec 4 := 0
  ret : BitVec 4 := 0
  fstat : BitVec 5 := 0
  fidx : Vector Word 5 := Vector.replicate 5 (BitVec.allOnes 64)
  frm : BitVec 3 := 0
  done : Vector (BitVec 32) 4 := Vector.replicate 4 0
  finished : List (Nat × BitVec 32) := []
  aerr : Aerr := {}
  gears : Gears := {}
  vskew : BitVec 4 := 2
  energy : BitVec 48 := 0
  reuseHit : BitVec 40 := 0
  strip : Strip := {}
  ended : List EndedStrip := []
  freed : List (Nat × Nat) := []
  timeout : Bool := false
  entry : Option Entry := none
  vqueue : List Queued := []
  inflight : List InFlight := []
  pendCsr : List CsrWrite := []
  landed : List Landed := []
  wait : Wait := .none
  fork : Fork := .none
  arrivals : List Arrival := []
  fetched : List (Nat × Nat × Fetched) := []
  fetching : List (Nat × Nat × Fetched) := []
  streamLanded : List (Nat × Nat × Landed) := []
  buffers : List (Nat × McBuf) := []
  landing : List (Nat × Phys) := []
  unbound : List Unbound := []
  comparing : List (Nat × GroupName) := []
  budget : Option Nat := none
  resume : Option InFlight := none
deriving DecidableEq, Repr

/-! ### Bricks -/

/-- A reuse-table entry (R118, R120). `held` are the groups its key names, which its references keep live (R112). -/
structure ReuseEntry where
  key : ReuseKey
  held : List NamedGroup
  result : NamedGroup
  flags : Flags
  kind : EntryKind
deriving DecidableEq, Repr

/-- A brick: its gear and a changeover in progress (R130, R135), local memory in canonical form and its poisoned granules
(R149, R243), retired lane groups, their storage errors, and the slot parts withdrawn until reset (R109, R245), lane groups in retention (R108), and the reuse
table, most recently hit or made first (R118). -/
structure Brick where
  gear : Bool := false
  change : Option Bool := none
  locmem : List (Nat × Byte) := []
  locpoison : List Nat := []
  retired : BitVec 4 := 0
  errors : Vector Nat 4 := Vector.replicate 4 0
  withdrawn : List (Nat × Nat) := []
  retention : BitVec 4 := 15
  reuse : List ReuseEntry := []
deriving DecidableEq, Repr

/-- The structures that hold translations (R157): the TLB bank of a lane, the second-level TLB, and the scalar and fetch TLBs of a hart. -/
inductive TlbLevel where
  | lane (l : Nat)
  | second
  | scalar (n : Nat)
  | fetch (n : Nat)
deriving DecidableEq, Repr

/-- A translation held by a brick (R157): for a context, the virtual and physical address of a page of 2^bits bytes,
and its HS, RS, X and W attributes (R154). `level` is the structure that holds it. -/
structure TlbEntry where
  brick : Nat
  ctx : Nat
  vmid : Nat
  va : Addr
  pa : Nat
  bits : Nat
  hs : Bool := false
  rs : Bool := false
  x : Bool := false
  w : Bool := false
  level : TlbLevel := .second
deriving DecidableEq, Repr

/-! ### Ports and the fabric -/

/-- A Forquin Link port (R22 to R25). `broken` says that its start-up self-test failed (R36). `ackIn` is the newest SEQ received intact, `replay` the flits sent and not
acknowledged, `credit` the sender's pools and `owed` the counts to return, `queue` the flits that wait to be sent. -/
structure Port where
  ready : Bool := false
  fail : Bool := false
  training : Bool := false
  fails : Nat := 0
  broken : Bool := false
  seq : Nat := 0
  ackIn : Nat := 255
  replay : List Flit := []
  resends : Nat := 0
  credit : List Nat := [0, 0, 0, 0]
  owed : List Nat := [0, 0, 0, 0]
  owesAck : Bool := false
  queue : List Flit := []
  errors : Nat := 0
  delay : Nat := 0
deriving DecidableEq, Repr

/-- Who made an access to another node. -/
inductive Owner where
  | hart (uid : Nat)
  | stream (uid n q : Nat)
  | copy (course id : Nat)
  | merge (course : Nat)
  | device
deriving DecidableEq, Repr

/-- A request to another node that awaits its response (R20). `strip` is the serial of the strip whose store it is, `path` its path, and
`so` and `eo` the ordering bits of its instruction (R192). -/
structure Outstanding where
  owner : Owner
  kind : Nat
  pa : Nat
  len : Nat
  va : Addr := 0
  elem : Nat := 0
  source : Nat := 0
  port : Nat := 0
  cls : Nat := 0
  strip : Nat := 0
  path : Path := .s
  so : Bool := false
  eo : Bool := false
  launch : Nat × Nat := (0, 0)
deriving DecidableEq, Repr

/-- A scheduled-class message waiting for its slot (R26, R405): its flits, each with the virtual address of its first byte. `so` is the
ordering bit of its instruction (R192), and `since` DTIME at its hand-over. -/
structure SlotMsg where
  port : Nat
  uid : Nat
  strip : Nat
  so : Bool
  launch : Nat × Nat
  flits : List (Addr × Flit)
  since : Nat := 0
deriving DecidableEq, Repr

/-! ### The host's windows -/

/-- A tenant's window registers (R42 to R44) and its virtual time TVT (R60). -/
structure Tenant where
  evbase : Word := 0
  even : Bool := false
  evsz : Nat := 0
  evprod : Word := 0
  evcons : Word := 0
  evlost : Word := 0
  owes : Bool := false
  energy : Word := 0
  weight : Nat := 16
  tvt : Nat := 0
  sigs : List (Nat × Word) := []
deriving DecidableEq, Repr

/-- An entry of a queue's signal lane (R51): set or add, the signal, the operand, and the tenant. -/
structure SigEntry where
  add : Bool
  sig : Nat
  value : Word
deriving DecidableEq, Repr

/-- A queue (R46 to R52) and its virtual time QVT (R60). `reads` is the number of records read since EN was set, `doneSet`
the launches complete beyond `done`, `held` the SIGPUSH flits held at the window with their ports (R52). -/
structure Queue where
  en : Bool := false
  vmid : Nat := 0
  qsz : Nat := 0
  weight : Nat := 16
  base : Nat := 0
  cmpl : Nat := 0
  tail : Nat := 0
  head : Nat := 0
  done : Nat := 0
  doneSet : List Nat := []
  ovr : Bool := false
  sigerr : Bool := false
  reads : Nat := 0
  lane : List SigEntry := []
  held : List (Nat × Flit) := []
  qvt : Nat := 0
deriving DecidableEq, Repr

/-- A context table entry (R45). -/
structure CtxEnt where
  valid : Bool := false
  vmid : Nat := 0
  root : Nat := 0
deriving DecidableEq, Repr

/-- A launch record (R53). -/
structure Record where
  marker : Bool := false
  flags : BitVec 16 := 0
  usertag : Nat := 0
  kernel : Word := 0
  args : Word := 0
  ctx : Nat := 0
  vmid : Nat := 0
  weight : Nat := 16
  lgph : Nat := 0
  tiles : Nat := 0
  streams : Nat := 0
  slots : Nat := 0
  levels : Vector Level 4 := Vector.replicate 4 {}
  gangid : Nat := 0
  devidx : Nat := 0
  gearcfg : Nat := 0
  slotmask : Nat := 0
  waitq : Nat := 0
  waitseq : Nat := 0
  waitsig : Nat := 0
  waitval : Word := 0
  donesig : Nat := 0
  doneval : Word := 0
  startat : Word := 0
  gangnodes : Word := 0
deriving DecidableEq, Repr

/-- The phase of a gang on this device (R69 to R72). -/
inductive GangPhase where
  | idle
  | ready
  | go (time : Nat)
  | started
deriving DecidableEq, Repr

/-- A failed part of a strip's stores or updates, until its report is made (R238): the hart, the strip, SOURCE, STATUS and
virtual address. -/
structure FailedStore where
  uid : Nat
  strip : Nat
  source : Nat
  status : Nat
  va : Addr
deriving DecidableEq, Repr

/-- An accepted launch (R54): its record, the gang's node table, and its life so far. `begun` says that a first
instruction has been reached (R57), `placed` are the hart indices dispatched, `home` the bricks they were last placed on, `owed` the barrier member that is
dispatched next (R75), `ended` the indices of harts that have ended; the four marks are the causes of R231. `killed` says that no
hart of it is dispatched any more, and `relay` that the gang is pre-empted once it has started (R71). `failures` await their report, and `reported` lists the strips and sources whose report is made. -/
structure Launch where
  queue : Nat
  seq : Nat
  record : Record
  nodes : List Nat := []
  sigSeen : Bool := false
  startSeen : Bool := false
  slotsHeld : Bool := false
  placed : List Nat := []
  home : List (Nat × Nat) := []
  begun : Bool := false
  owed : Option Nat := none
  failures : List FailedStore := []
  reported : List (Nat × Nat × Nat) := []
  ended : List Nat := []
  ran : Nat := 0
  preempts : Nat := 0
  tstart : Word := 0
  schdown : Nat := 0
  energy : Nat := 0
  aerrFirst : Word := 0
  uncorrectable : Bool := false
  gangFailed : Bool := false
  killed : Bool := false
  relay : Bool := false
  trapped : Bool := false
  asyncLeft : Bool := false
  phase : GangPhase := .idle
  readyFrom : List (Nat × Nat) := []
  progress : Nat := 0
  since : Nat := 0
deriving DecidableEq, Repr

/-- A saved hart (R78 to R81): its slot, whether the pool alone holds its area, whether a FLUSH has written it there beside
the region's copy, the hart as it was last written there, whether the save fell at a strip start (R68), the slot of its fork partner,
the lane groups it lost to retirement (R109), BRICK and HOLD of GEARS at the save (R80, R132), and all that its area holds. -/
structure SaveArea where
  slot : Nat
  spilled : Bool := false
  flushed : Bool := false
  written : Option Hart := none
  atStart : Bool := false
  lost : BitVec 4 := 0
  wythe : Nat := 0
  peer : Option Nat := none
  saveUj : Nat := 0
  saveTime : Word := 0
  gearBits : Nat := 0
  hart : Hart
deriving DecidableEq, Repr

/-- One barrier of a launch (R297, R298): the scope instance by its lowest member, the phase and the members arrived. -/
structure Barrier where
  queue : Nat
  seq : Nat
  num : Nat
  scope : Nat
  inst : Nat
  phase : Nat := 0
  arrived : List Nat := []
  remote : List (Nat × Nat) := []
  told : Bool := false
deriving DecidableEq, Repr

/-! ### Engines -/

/-- A copy command handed over to a course's copy engine (R170), with the pieces of a source on another node. `stage` is 0 before its
writes, 1 while it awaits acknowledgements of other nodes, 2 while its record's write does. `bad` holds the destination offsets that
were not written as they should be with their status (R172), and `sent` the destination offset of each write to another node by its
physical address. -/
structure CopyJob where
  uid : Nat
  brick : Nat
  ctx : Nat
  vmid : Nat
  launch : Nat × Nat
  chan : Nat
  id : BitVec 32
  block : CopyBlock
  landed : List Landed := []
  stage : Nat := 0
  bad : List (Nat × Nat) := []
  sent : List (Nat × Nat) := []
deriving DecidableEq, Repr

/-- The number that tells a copy command's accesses to other nodes from those of other commands. -/
def CopyJob.key (j : CopyJob) : Nat := j.uid * 2 ^ 34 + j.chan * 2 ^ 32 + j.id.toNat

/-- A multicast under way to one receiver (R177). -/
structure McJob where
  launch : Nat × Nat
  sender : Nat
  receiver : Nat
  stream : Nat
  chan : Nat
  id : BitVec 32
  buf : McBuf
deriving DecidableEq, Repr

/-- An entry of a merge session: key, value, stream and arrival number (R180). -/
structure MergeEntry where
  key : Nat
  val : Nat
  stream : Nat
  arrival : Nat
deriving DecidableEq, Repr

/-- An open merge session (R179 to R183). `runs` are the offsets and entry counts of the runs in the spill area, lowest first. -/
structure Session where
  launch : Nat × Nat
  fp64 : Bool
  limit : Nat
  rows : Nat
  spill : Word
  spillBytes : Nat
  used : Nat := 0
  runs : List (Nat × Nat) := []
  resident : List MergeEntry := []
  arrivals : Vector Nat 16 := Vector.replicate 16 0
  accepted : Nat := 0
  outOfRange : Nat := 0
  full : Bool := false
  firstRefused : Vector (Option Nat) 16 := Vector.replicate 16 none
deriving DecidableEq, Repr

/-- A merge command on its way to a course's engine (R180). `pos` counts the entries of an mgpush that have arrived. `stage` is 0 until
the engine awaits acknowledgements of other nodes: 1 for a spill or a command's writes, 2 for its record's. The others are what
its record will hold and the flags it will merge (R182, R369). -/
structure MergeMsg where
  uid : Nat
  brick : Nat
  ctx : Nat
  vmid : Nat
  launch : Nat × Nat
  chan : Nat
  id : BitVec 32
  cmd : MergeCmd
  pos : Nat := 0
  stage : Nat := 0
  status : Nat := 0
  keys : Nat := 0
  refused : Nat := 0
  flags : BitVec 5 := 0
deriving DecidableEq, Repr

/-- A course's engines: copy jobs, multicasts under way, the merge session, the merge commands that are not done, oldest first, and what
has come back from other nodes for the merge engine. -/
structure Course where
  copies : List CopyJob := []
  mcasts : List McJob := []
  session : Option Session := none
  merges : List MergeMsg := []
  mergeLanded : List Landed := []
deriving DecidableEq, Repr

/-! ### The device -/

/-- Something that happens to storage from outside (R15, R243): an error in a memory granule, correctable or not, in a
64-bit slot of a vector register, mask or tile of a hart, or in a granule of local memory. -/
inductive Upset where
  | memory (granule : Nat) (correctable : Bool)
  | register (b n v slot : Nat)
  | mask (b n k slot : Nat)
  | tile (b n t slot : Nat)
  | localMem (b granule : Nat)
deriving DecidableEq, Repr

/-- Who moves next. `hart` lets a hart move once, `ahead` lets it issue although earlier strips have not closed (R190),
`part` lets it start its next vector instruction and do so many element groups or stages of it (R76, R96), `issue` lets its scalar
side issue behind the vector instructions that wait (R97, R98), `start` starts the oldest
vector instruction that waits behind others in flight and does so many groups of it, `proceed` does so many more of the `j`-th in flight
(R95, R97), `event` makes
a step of the device happen, `flit` brings bytes to a port, `evictTlb` lets a translation leave and `fillTlb` copies one to a
first-level structure of its brick (R157), `evictReuse` a reuse entry (R113), `upset` brings an
error. -/
inductive Turn where
  | hart (b n : Nat)
  | ahead (b n : Nat)
  | part (b n groups : Nat)
  | issue (b n : Nat)
  | start (b n groups : Nat)
  | proceed (b n j groups : Nat)
  | event (i : Instr)
  | flit (port : Nat) (bytes : List Byte)
  | evictTlb (i : Nat)
  | fillTlb (i : Nat) (l : TlbLevel)
  | evictReuse (b i : Nat)
  | upset (u : Upset)
deriving DecidableEq, Repr

/-- The time function (R29 to R31). `port` is where the last Sync came in, `missed` the intervals since, `inRange` the Syncs in a row
with the offset in range, and `outside` says that the last was not. `grandmaster` is the GMC's permission, and `acting` the best
master clock algorithm's choice. -/
structure TimeFn where
  dtime : Word := 0
  counting : Bool := false
  locked : Bool := false
  inRange : Nat := 0
  missed : Nat := 0
  outside : Bool := false
  port : Nat := 0
  grandmaster : Bool := false
  acting : Bool := false
deriving DecidableEq, Repr

/-- Bring-up and management (R34 to R39, R144, R245): the ready and fail bits of bricks, courses and channels, how far
the start order has come, the images' verification, which images run, THOLD, the fused minima, the collective group as its
130 bytes, and the error log, oldest first. -/
structure Gmc where
  readyBrick : BitVec 1024 := 0
  failBrick : BitVec 1024 := 0
  readyCourse : BitVec 64 := 0
  failCourse : BitVec 64 := 0
  readyChan : BitVec 128 := 0
  failChan : BitVec 128 := 0
  startedUnits : Nat := 0
  image : Nat := 0
  verified : Bool := false
  recovery : Bool := false
  schedRunning : Bool := false
  thold : Nat := 1000
  minGmc : Nat := 0
  minSched : Nat := 0
  corrected : Nat := 0
  group : List Byte := List.replicate 130 0
  log : List (List Byte) := []
deriving DecidableEq, Repr

/-- Thermal control (R32, R144, R145): at or above 100 °C, at the limit, the effective times and ends of holds to come, the end of the
hold in force, and whether this device began it. -/
structure Thermal where
  warm : Bool := false
  limit : Bool := false
  pending : List (Nat × Nat) := []
  hold : Option Nat := none
  mine : Bool := false
deriving DecidableEq, Repr

/-- The scheduler's own registers (R82, R159). `invPage` is the page of the shootdown that BUSY stands for. -/
structure SchedRegs where
  quantum : Nat := 50
  cmd : Word := 0
  busy : Bool := false
  result : Nat := 0
  savePool : Nat := 0
  saveSlots : Nat := 0
  invBusy : Bool := false
  inv : Word := 0
  invVa : Word := 0
  invPage : Nat := 0
  heldCtx : List Nat := []
deriving DecidableEq, Repr

/-- Everything but the hart in focus. The lists keyed by a number are in rising order of the key, and a key that is not
listed has its type's default. `mem` is the device's GDDR 7 in canonical form, `poison` its poisoned 64-byte granules and
`latent` the errors no access has met. `groupsHeld` are the addresses that atomic groups of other nodes hold, each with its node (R20),
`deferred` the flits that wait for them with their ports, and `released` those whose wait is over. `closing` are harts that have
ended with stores that still wait for other nodes (R190, R231). `cabling` names the node at the other end of a port, and `gddr` is how many bytes of GDDR 7 are populated, from offset 0 (R13).
`slotRuns` tells, for each port and slot as one number (R26), the frame in which the slot last began. `slots` are the reserved slots: port, slot, queue and launch
(R66). `traps` counts the traps taken and `cause` is that of the last: both are the model's own; `fresh` counts the free values used, and `wire` is what the ports have sent. -/
structure Device where
  agenda : List Turn := []
  fresh : Nat := 0
  traps : Nat := 0
  cause : Nat := 0
  uids : Nat := 1
  node : Nat := 0
  parked : List Hart := []
  bricks : List (Nat × Brick) := []
  mem : List Host.Cell := []
  poison : List Nat := []
  latent : List (Nat × Bool) := []
  tlb : List TlbEntry := []
  time : TimeFn := {}
  gmc : Gmc := {}
  thermal : Thermal := {}
  ports : Vector Port 32 := Vector.replicate 32 {}
  cabling : List (Nat × Nat) := []
  gddr : Nat := Config.gddrBytes
  slotRuns : List (Nat × Nat) := []
  outstanding : List Outstanding := []
  groupsHeld : List (Nat × Nat) := []
  deferred : List (Nat × Flit) := []
  released : List (Nat × Flit) := []
  closing : List Hart := []
  slotQueue : List SlotMsg := []
  slots : List (Nat × Nat × Nat × Nat) := []
  tenants : List (Nat × Tenant) := []
  queues : List (Nat × Queue) := []
  ctxents : List (Nat × CtxEnt) := []
  devEnergy : Word := 0
  sched : SchedRegs := {}
  launches : List Launch := []
  saved : List SaveArea := []
  barriers : List Barrier := []
  courses : List (Nat × Course) := []
  groups : List McMember := []
  wire : List (Nat × Flit) := []
deriving DecidableEq, Repr

/-- The machine. -/
structure State where
  hart : Hart := {}
  dev : Device := {}
deriving DecidableEq, Repr

/-- The machine right after reset: nothing is ready, no hart runs, memory lists nothing (R34, R35). -/
def State.reset : State := {}

end Sys2Proof.Machine
end

