-- ==== Sys2Proof/Machine/Bits.lean ====
section
/-! DEFINITION. Bit fields, byte order, signed reading and lists: the helpers every meaning uses. -/

namespace Sys2Proof.Machine

/-- Bits [lo + n − 1 : lo] of a natural number. -/
def field (v lo n : Nat) : Nat := v / 2 ^ lo % 2 ^ n

/-- One bit of a natural number. -/
def bit (v i : Nat) : Bool := v / 2 ^ i % 2 == 1

/-- A value of `w` bits read as signed. -/
def toSigned (w v : Nat) : Int :=
  if v < 2 ^ (w - 1) then (v : Int) else (v : Int) - 2 ^ w

/-- The low `w` bits of an integer. -/
def wrap (w : Nat) (i : Int) : Nat := (i % (2 ^ w : Int)).toNat

/-- The low `n` bytes of a value, least significant first: memory is little-endian (R252, R280). -/
def leBytes : Nat → Nat → List Byte
  | 0, _ => []
  | n + 1, v => BitVec.ofNat 8 v :: leBytes n (v / 256)

/-- The value of bytes given least significant first. -/
def ofLe : List Byte → Nat
  | [] => 0
  | b :: rest => b.toNat + 256 * ofLe rest

/-- The `n` bytes of a list from place `o`, read little-endian; bytes the list does not have count as zero. -/
def leAt (l : List Byte) (o n : Nat) : Nat := ofLe ((l.drop o).take n)

/-- `n` zero bytes. -/
def zeros (n : Nat) : List Byte := List.replicate n 0

/-- A list of bytes cut or filled with zeros to `n` bytes. -/
def padTo (n : Nat) (l : List Byte) : List Byte := l.take n ++ zeros (n - l.length)

/-- Replace the bytes of `l` from place `o` by `d`. -/
def splice (l : List Byte) (o : Nat) (d : List Byte) : List Byte :=
  l.take o ++ d ++ l.drop (o + d.length)

/-- The one's count of the low `n` bits. -/
def onesCount : Nat → Nat → Nat
  | 0, _ => 0
  | n + 1, v => v % 2 + onesCount n (v / 2)

/-- The places below `n` at which a bit is set, lowest first. -/
def setBits (n v : Nat) : List Nat := (List.range n).filter (bit v)

/-- Sign-extend a field to a register. -/
def sext {n : Nat} (i : BitVec n) : Word := i.signExtend 64

/-- Zero-extend a field to a register. -/
def zext {n : Nat} (i : BitVec n) : Word := i.setWidth 64

/-- The quotient rounded up. -/
def divUp (a b : Nat) : Nat := (a + b - 1) / b

/-- 1 or 0 as a register. -/
def ofBool (b : Bool) : Word := if b then 1 else 0

/-- All ones. -/
def allOnes64 : Word := BitVec.allOnes 64

/-! ### Lists keyed by a number, in rising order of the key -/

/-- The value at a key. -/
def lookupKey {α : Type} (k : Nat) : List (Nat × α) → Option α
  | [] => none
  | (k', a) :: rest => if k = k' then some a else lookupKey k rest

/-- Put a value at a key. -/
def insertKey {α : Type} (k : Nat) (a : α) : List (Nat × α) → List (Nat × α)
  | [] => [(k, a)]
  | (k', b) :: rest =>
    if k < k' then (k, a) :: (k', b) :: rest
    else if k = k' then (k, a) :: rest
    else (k', b) :: insertKey k a rest

/-- The first `some` that a function gives on a list. -/
def firstSome {α β : Type} (f : α → Option β) : List α → Option β
  | [] => none
  | a :: rest => match f a with
    | some b => some b
    | none => firstSome f rest

/-- Replace the first element that satisfies `p`. -/
def replaceFirst {α : Type} (p : α → Bool) (g : α → α) : List α → List α
  | [] => []
  | a :: rest => if p a then g a :: rest else a :: replaceFirst p g rest

/-- Remove the first element that satisfies `p`. -/
def removeFirst {α : Type} (p : α → Bool) : List α → List α
  | [] => []
  | a :: rest => if p a then rest else a :: removeFirst p rest

/-- Remove the element at a place. -/
def removeAt {α : Type} : Nat → List α → List α
  | _, [] => []
  | 0, _ :: rest => rest
  | n + 1, a :: rest => a :: removeAt n rest

/-- A list without its later repeats. -/
def distinct {α : Type} [BEq α] : List α → List α
  | [] => []
  | a :: rest => a :: (distinct rest).filter (fun b => !(b == a))

/-- Every choice of elements of a list, in its order. -/
def choices {α : Type} : List α → List (List α)
  | [] => [[]]
  | a :: rest => (choices rest).flatMap (fun l => [l, a :: l])

/-- Insert in order, after equals: `le a b` says that `a` may stand before `b`. -/
def insertBy {α : Type} (le : α → α → Bool) (a : α) : List α → List α
  | [] => [a]
  | b :: rest => if le b a then b :: insertBy le a rest else a :: b :: rest

/-- Stable sorting. -/
def sortBy {α : Type} (le : α → α → Bool) (l : List α) : List α :=
  l.foldl (fun acc a => insertBy le a acc) []

end Sys2Proof.Machine
end

