-- ==== Sys2Proof/Machine/Float.lean ====
section
/-! DEFINITION. Arithmetic of the IEEE binary formats (R202 to R205, R213, R216), by exact rational values rounded once,
and the exponential, the logarithm and the Gumbel transform (R221). -/

namespace Sys2Proof.Machine

/-! ### Formats and values -/

/-- Exponent width (R202). -/
def expBits : FpFmt → Nat
  | .fp64 => 11 | .fp32 => 8 | .fp16 => 5 | .bf16 => 8

/-- Fraction width (R202). -/
def fracBits : FpFmt → Nat
  | .fp64 => 52 | .fp32 => 23 | .fp16 => 10 | .bf16 => 7

/-- Width in bits (R202). -/
def fpWidth (t : FpFmt) : Nat := 1 + expBits t + fracBits t

/-- Exponent bias (R202). -/
def fpBias (t : FpFmt) : Nat := 2 ^ (expBits t - 1) - 1

/-- The encoding of +∞, which is also one above that of the largest finite value (R202). -/
def fpInf (t : FpFmt) : Nat := (2 ^ expBits t - 1) * 2 ^ fracBits t

/-- The canonical NaN (R202). -/
def fpNaN (t : FpFmt) : Nat := fpInf t + 2 ^ (fracBits t - 1)

/-- The sign bit as a value. -/
def fpSign (t : FpFmt) (neg : Bool) : Nat := if neg then 2 ^ (fpWidth t - 1) else 0

/-- A number as the operations see it: a NaN, an infinity, or a sign with the exact magnitude `n / d`. -/
inductive FpNum where
  | nan (signalling : Bool)
  | inf (neg : Bool)
  | fin (neg : Bool) (n d : Nat)
deriving DecidableEq, Repr

/-- Flag bits in FSTAT's order (R218). -/
def NV : BitVec 5 := 16
def DZ : BitVec 5 := 8
def OF : BitVec 5 := 4
def UF : BitVec 5 := 2
def NX : BitVec 5 := 1

/-- Flags when a condition holds. -/
def flagIf (c : Bool) (f : BitVec 5) : BitVec 5 := if c then f else 0

/-- The exact number `m × 2^e` with a sign. -/
def FpNum.dyadic (neg : Bool) (m : Nat) (e : Int) : FpNum :=
  if 0 ≤ e then .fin neg (m * 2 ^ e.toNat) 1 else .fin neg m (2 ^ (-e).toNat)

/-- Read an encoding (R202). -/
def decodeFp (t : FpFmt) (v : Nat) : FpNum :=
  let e := field v (fracBits t) (expBits t)
  let f := field v 0 (fracBits t)
  let neg := bit v (fpWidth t - 1)
  if e = 2 ^ expBits t - 1 then (if f = 0 then .inf neg else .nan (!(bit f (fracBits t - 1))))
  else if e = 0 then FpNum.dyadic neg f (1 - (fpBias t : Int) - fracBits t)
  else FpNum.dyadic neg (f + 2 ^ fracBits t) ((e : Int) - fpBias t - fracBits t)

/-- A signalling NaN. -/
def FpNum.snan : FpNum → Bool
  | .nan s => s
  | _ => false

def FpNum.isNan : FpNum → Bool
  | .nan _ => true
  | _ => false

/-- The sign of a number that is not a NaN. -/
def FpNum.neg : FpNum → Bool
  | .nan _ => false
  | .inf s => s
  | .fin s _ _ => s

def FpNum.isZero : FpNum → Bool
  | .fin _ n _ => n == 0
  | _ => false

/-- The number with its sign turned. -/
def FpNum.negate : FpNum → FpNum
  | .nan s => .nan s
  | .inf s => .inf (!s)
  | .fin s n d => .fin (!s) n d

/-- The signed numerator of a finite number. -/
def FpNum.signed (neg : Bool) (n : Nat) : Int := if neg then -(n : Int) else n

/-! ### Rounding (R204, R205) -/

/-- Whether a magnitude `q + r/d` with `0 ≤ r < d` is rounded up to `q + 1` under a rounding mode. -/
def roundsUp (rm : Nat) (neg : Bool) (q r d : Nat) : Bool :=
  if r = 0 then false
  else match rm with
    | 0 => decide (2 * r > d) || (2 * r == d && q % 2 == 1)
    | 1 => false
    | 2 => neg
    | 3 => !neg
    | _ => decide (2 * r ≥ d)

/-- The integer exponent `e` with `2^e ≤ n/d < 2^(e+1)`, for positive `n` and `d`. -/
def ilog2 (n d : Nat) : Int :=
  let e : Int := (Nat.log2 n : Int) - Nat.log2 d
  let ge := if 0 ≤ e then d * 2 ^ e.toNat ≤ n else d ≤ n * 2 ^ (-e).toNat
  if ge then e else e - 1

/-- Quotient and remainder of `n/d ÷ 2^q`: the quotient, the remainder and its divisor. -/
def scaled (n d : Nat) (q : Int) : Nat × Nat × Nat :=
  let a := if 0 ≤ q then n else n * 2 ^ (-q).toNat
  let b := if 0 ≤ q then d * 2 ^ q.toNat else d
  (a / b, a % b, b)

/-- What a finite result beyond the largest finite value becomes (R205). -/
def overflowed (t : FpFmt) (rm : Nat) (neg : Bool) : Nat :=
  let toInf := match rm with
    | 0 => true
    | 1 => false
    | 2 => neg
    | 3 => !neg
    | _ => true
  fpSign t neg + (if toInf then fpInf t else fpInf t - 1)

/-- Round a nonzero magnitude `n/d` (R204, R205): the encoding and the flags. Tininess is detected after rounding, and so is overflow (DESIGN
CHOICE, log 108). -/
def roundMag (t : FpFmt) (rm : Nat) (neg : Bool) (n d : Nat) : Nat × BitVec 5 :=
  let e := ilog2 n d
  let emin : Int := 1 - (fpBias t : Int)
  let top := max e emin
  let (q, r, b) := scaled n d (top - fracBits t)
  let sig := q + (roundsUp rm neg q r b).toNat
  let code := (top + fpBias t - 1).toNat * 2 ^ fracBits t + sig
  if fpInf t ≤ code then (overflowed t rm neg, OF ||| NX)
  else
    let (q', r', b') := scaled n d (e - fracBits t)
    let sig' := q' + (roundsUp rm neg q' r' b').toNat
    let tiny := decide (e < emin) && !(e == emin - 1 && sig' == 2 ^ (fracBits t + 1))
    (fpSign t neg + code, flagIf (r != 0) NX ||| flagIf (tiny && r != 0) UF)

/-- Round a number that may be a NaN or an infinity. A NaN raises nothing here: its operation has raised what it must. -/
def roundNum (t : FpFmt) (rm : Nat) : FpNum → Nat × BitVec 5
  | .nan _ => (fpNaN t, 0)
  | .inf s => (fpSign t s + fpInf t, 0)
  | .fin s n d => if n = 0 then (fpSign t s, 0) else roundMag t rm s n d

/-! ### Operations -/

/-- The exact sum of terms (R205, R217): a NaN, an infinity, or an exact number whose zero has the sign R205 gives. -/
def sumNums (rm : Nat) (l : List FpNum) : FpNum × BitVec 5 :=
  if l.any FpNum.isNan then (.nan false, 0)
  else
    let pinf := l.any (fun a => a == .inf false)
    let ninf := l.any (fun a => a == .inf true)
    if pinf && ninf then (.nan false, NV)
    else if pinf then (.inf false, 0)
    else if ninf then (.inf true, 0)
    else
      let (num, den) := l.foldl (fun (acc : Int × Nat) a => match a with
        | .fin s n d => (acc.1 * d + FpNum.signed s n * acc.2, acc.2 * d)
        | _ => acc) ((0 : Int), 1)
      if num = 0 then
        let same := l.all (fun a => a.isZero && a.neg == (l.headD (.fin false 0 1)).neg)
        (.fin (if same && !l.isEmpty then (l.headD (.fin false 0 1)).neg else rm == 2) 0 1, 0)
      else (.fin (decide (num < 0)) num.natAbs den, 0)

/-- The exact product (R205, R217): 0 × ∞ raises nv. -/
def mulNum : FpNum → FpNum → FpNum × BitVec 5
  | .nan _, _ => (.nan false, 0)
  | _, .nan _ => (.nan false, 0)
  | .inf s, b => if b.isZero then (.nan false, NV) else (.inf (s ^^ b.neg), 0)
  | a, .inf s => if a.isZero then (.nan false, NV) else (.inf (s ^^ a.neg), 0)
  | .fin s n d, .fin s' n' d' => (.fin (s ^^ s') (n * n') (d * d'), 0)

/-- The flag of signalling NaN operands (R203). -/
def snanFlag (l : List FpNum) : BitVec 5 := flagIf (l.any FpNum.snan) NV

/-- a + b, rounded once (R286). -/
def fpAdd (t : FpFmt) (rm a b : Nat) : Nat × BitVec 5 :=
  let x := decodeFp t a
  let y := decodeFp t b
  let (z, f) := sumNums rm [x, y]
  let (v, g) := roundNum t rm z
  (v, f ||| g ||| snanFlag [x, y])

/-- The encoding with its sign turned. -/
def fpNegate (t : FpFmt) (a : Nat) : Nat := a.xor (2 ^ (fpWidth t - 1))

/-- a − b (R205: judged as a + (−b)). -/
def fpSub (t : FpFmt) (rm a b : Nat) : Nat × BitVec 5 := fpAdd t rm a (fpNegate t b)

/-- a × b, rounded once. -/
def fpMul (t : FpFmt) (rm a b : Nat) : Nat × BitVec 5 :=
  let x := decodeFp t a
  let y := decodeFp t b
  let (z, f) := mulNum x y
  let (v, g) := roundNum t rm z
  (v, f ||| g ||| snanFlag [x, y])

/-- a × b + c, rounded once; 0 × ∞ raises nv whatever c is (R286). -/
def fpFma (t : FpFmt) (rm a b c : Nat) : Nat × BitVec 5 :=
  let x := decodeFp t a
  let y := decodeFp t b
  let z := decodeFp t c
  let (p, f) := mulNum x y
  let (u, g) := sumNums rm [p, z]
  let (v, h) := roundNum t rm u
  (v, f ||| g ||| h ||| snanFlag [x, y, z])

/-- a × b − c, rounded once. -/
def fpFms (t : FpFmt) (rm a b c : Nat) : Nat × BitVec 5 := fpFma t rm a b (fpNegate t c)

/-- The quotient (R286): finite ÷ 0 raises dz, 0 ÷ 0 and ∞ ÷ ∞ raise nv. -/
def divNum : FpNum → FpNum → FpNum × BitVec 5
  | .nan _, _ => (.nan false, 0)
  | _, .nan _ => (.nan false, 0)
  | .inf s, .inf _ => (.nan false, flagIf (s || !s) NV)
  | .inf s, .fin s' _ _ => (.inf (s ^^ s'), 0)
  | .fin s _ _, .inf s' => (.fin (s ^^ s') 0 1, 0)
  | .fin s n d, .fin s' n' d' =>
    if n' = 0 then (if n = 0 then (.nan false, NV) else (.inf (s ^^ s'), DZ))
    else (.fin (s ^^ s') (n * d') (d * n'), 0)

def fpDiv (t : FpFmt) (rm a b : Nat) : Nat × BitVec 5 :=
  let x := decodeFp t a
  let y := decodeFp t b
  let (z, f) := divNum x y
  let (v, g) := roundNum t rm z
  (v, f ||| g ||| snanFlag [x, y])

/-- The integer square root, bit by bit from bit `b` down. -/
def isqrtFrom (n : Nat) : Nat → Nat → Nat
  | 0, r => if (r + 1) * (r + 1) ≤ n then r + 1 else r
  | b + 1, r =>
    let r' := r + 2 ^ (b + 1)
    isqrtFrom n b (if r' * r' ≤ n then r' else r)

/-- The integer square root. -/
def isqrt (n : Nat) : Nat := isqrtFrom n (Nat.log2 n / 2 + 1) 0

/-- √a, rounded once (R286). The root is taken to at least 64 bits; a root that is not exact is represented by the middle of
the interval that holds it, which no format distinguishes from it. -/
def fpSqrt (t : FpFmt) (rm a : Nat) : Nat × BitVec 5 :=
  match decodeFp t a with
  | .nan s => (fpNaN t, flagIf s NV)
  | .inf s => if s then (fpNaN t, NV) else (fpInf t, 0)
  | .fin s n d =>
    if n = 0 then (fpSign t s, 0)
    else if s then (fpNaN t, NV)
    else
      let k := 64 + Nat.log2 d
      let m := n * 4 ^ k
      let r := isqrt (m / d)
      let exact := r * r * d == m
      roundMag t rm false (if exact then r else 2 * r + 1) (if exact then 2 ^ k else 2 ^ (k + 1))

/-- a < b for numbers that are not NaNs; −0 equals +0. -/
def ltNum : FpNum → FpNum → Bool
  | .inf s, .inf s' => s && !s'
  | .inf s, .fin _ _ _ => s
  | .fin _ _ _, .inf s' => !s'
  | .fin s n d, .fin s' n' d' => decide (FpNum.signed s n * d' < FpNum.signed s' n' * d)
  | _, _ => false

/-- minimumNumber or maximumNumber (R286): a NaN operand yields the other, two NaNs the canonical NaN, −0 is below +0. -/
def fpMinMax (t : FpFmt) (isMax : Bool) (a b : Nat) : Nat × BitVec 5 :=
  let x := decodeFp t a
  let y := decodeFp t b
  let f := snanFlag [x, y]
  let v :=
    if x.isNan && y.isNan then fpNaN t
    else if x.isNan then b
    else if y.isNan then a
    else
      let less := ltNum x y || (!(ltNum y x) && x.neg && !y.neg)
      if less ^^ isMax then a else b
  (v, f)

/-- The comparisons of R289 and R318: 0 equal, 1 less, 2 less or equal, 3 unordered. -/
def fpCompare (t : FpFmt) (cond a b : Nat) : Bool × BitVec 5 :=
  let x := decodeFp t a
  let y := decodeFp t b
  let un := x.isNan || y.isNan
  let f := match cond with
    | 1 => flagIf un NV
    | 2 => flagIf un NV
    | _ => snanFlag [x, y]
  let v := match cond with
    | 0 => !un && !(ltNum x y) && !(ltNum y x)
    | 1 => !un && ltNum x y
    | 2 => !un && !(ltNum y x)
    | _ => un
  (v, f)

/-- The one-hot class of R287. -/
def fpClass (t : FpFmt) (a : Nat) : Nat :=
  let sub := field a (fracBits t) (expBits t) == 0
  match decodeFp t a with
  | .nan s => if s then 2 ^ 8 else 2 ^ 9
  | .inf s => if s then 1 else 2 ^ 7
  | .fin s n _ =>
    if n = 0 then (if s then 2 ^ 3 else 2 ^ 4)
    else if sub then (if s then 2 ^ 2 else 2 ^ 5)
    else if s then 2 else 2 ^ 6

/-! ### Conversions (R213, R216) -/

/-- Between IEEE formats: the same format returns the value unchanged but for a NaN (R288). -/
def fpConvert (src dst : FpFmt) (rm a : Nat) : Nat × BitVec 5 :=
  let x := decodeFp src a
  let (v, f) := roundNum dst rm x
  (if src = dst ∧ !x.isNan then a else v, (if src = dst ∧ !x.isNan then 0 else f) ||| snanFlag [x])

/-- An exact number to an integer type of `w` bits (R216). -/
def numToInt (signed : Bool) (w rm : Nat) : FpNum → Nat × BitVec 5
  | .nan _ => (0, NV)
  | .inf s => (if s then (if signed then 2 ^ (w - 1) else 0) else (if signed then 2 ^ (w - 1) - 1 else 2 ^ w - 1), NV)
  | .fin s n d =>
    let q := n / d
    let m := q + (roundsUp rm s q (n % d) d).toNat
    let hi := if signed then 2 ^ (w - 1) - 1 else 2 ^ w - 1
    let lo := if signed then 2 ^ (w - 1) else 0
    if s then (if m ≤ lo then (wrap w (-(m : Int)), flagIf (n % d != 0) NX)
      else ((if signed then 2 ^ (w - 1) else 0), NV))
    else if m ≤ hi then (m, flagIf (n % d != 0) NX)
    else (hi, NV)

/-- An integer to an IEEE format (R288): nx when inexact, of when it overflows. -/
def intToFp (t : FpFmt) (rm : Nat) (i : Int) : Nat × BitVec 5 :=
  roundNum t rm (.fin (decide (i < 0)) i.natAbs 1)

/-! ### Exponential and logarithm (R221)

Both are computed to more than 256 bits after the binary point and rounded once (DEDUCED, log 20). -/

/-- Fraction bits of the fixed-point work. -/
def fixBits : Nat := 320

/-- Σ z^(2i+1) ÷ (2i+1) in fixed point, for `z ≤ 1/3` in fixed point: the inverse hyperbolic tangent. -/
def atanhSum (z2 : Nat) : Nat → Nat → Nat → Nat → Nat
  | 0, _, _, acc => acc
  | k + 1, i, p, acc => atanhSum z2 k (i + 2) (p * z2 / 2 ^ fixBits) (acc + p / i)

/-- 2 × atanh(a/b) in fixed point. -/
def twoAtanh (a b : Nat) : Nat :=
  let z := a * 2 ^ fixBits / b
  2 * atanhSum (z * z / 2 ^ fixBits) 110 1 z 0

/-- ln 2 in fixed point. -/
def ln2Fix : Nat := twoAtanh 1 3

/-- ln of a positive rational, in signed fixed point. -/
def lnFix (n d : Nat) : Int :=
  let e := ilog2 n d
  let a := if 0 ≤ e then n else n * 2 ^ (-e).toNat
  let b := if 0 ≤ e then d * 2 ^ e.toNat else d
  (twoAtanh (a - b) (a + b) : Int) + e * ln2Fix

/-- Σ r^i ÷ i! in fixed point. -/
def expSum (r : Nat) : Nat → Nat → Nat → Nat → Nat
  | 0, _, _, acc => acc
  | k + 1, i, p, acc => expSum r k (i + 1) (p * r / 2 ^ fixBits / i) (acc + p)

/-- A fixed-point value as a number; `extra` keeps it from being taken as exact. -/
def fixNum (i : Int) : FpNum :=
  .fin (decide (i < 0)) (2 * i.natAbs + 1) (2 ^ (fixBits + 1))

/-- e^x for a finite nonzero x. Beyond ±200 the result overflows or is below half the least subnormal of FP32. -/
def expNum (neg : Bool) (n d : Nat) : FpNum :=
  if 200 * d < n then (if neg then .fin false 1 (2 ^ 280) else .fin false (2 ^ 280) 1)
  else
    let x : Int := FpNum.signed neg (n * 2 ^ fixBits / d)
    let k := x / (ln2Fix : Int)
    let r := (x - k * ln2Fix).toNat
    let y := expSum r 90 1 (2 ^ fixBits) 0
    if 0 ≤ k then .fin false ((2 * y + 1) * 2 ^ k.toNat) (2 ^ (fixBits + 1))
    else .fin false (2 * y + 1) (2 ^ (fixBits + 1) * 2 ^ (-k).toNat)

/-- e^x rounded once to FP32 (R221). -/
def fpExp (rm a : Nat) : Nat × BitVec 5 :=
  match decodeFp .fp32 a with
  | .nan s => (fpNaN .fp32, flagIf s NV)
  | .inf s => (if s then 0 else fpInf .fp32, 0)
  | .fin s n d =>
    if n = 0 then (0x3F800000, 0)
    else
      let (v, f) := roundNum .fp32 rm (expNum s n d)
      (v, f ||| NX)

/-- ln x rounded once to FP32 (R221). -/
def fpLog (rm a : Nat) : Nat × BitVec 5 :=
  match decodeFp .fp32 a with
  | .nan s => (fpNaN .fp32, flagIf s NV)
  | .inf s => if s then (fpNaN .fp32, NV) else (fpInf .fp32, 0)
  | .fin s n d =>
    if n = 0 then (fpSign .fp32 true + fpInf .fp32, DZ)
    else if s then (fpNaN .fp32, NV)
    else if n = d then (0, 0)
    else
      let (v, f) := roundNum .fp32 rm (fixNum (lnFix n d))
      (v, f ||| NX)

/-- −ln(−ln u) for u = (2j + 1) ÷ 2^25, rounded once to FP32 (R221). -/
def fpGumbel (rm j : Nat) : Nat × BitVec 5 :=
  let l := (-(lnFix (2 * j + 1) (2 ^ 25))).toNat
  let g := -(lnFix l (2 ^ fixBits))
  let (v, f) := roundNum .fp32 rm (fixNum g)
  (v, f ||| NX)

end Sys2Proof.Machine
end

