-- ==== Sys2Proof/Machine/Narrow.lean ====
section
/-! DEFINITION. The decimal-tapered formats D8 and D4 (R207 to R210), rounding into them (R214), quantization (R215), the
two summation orders (R217) and the lane generators (R222). -/

namespace Sys2Proof.Machine

/-- The narrow formats. -/
inductive Narrow where
  | d8
  | d4
deriving DecidableEq, Repr

/-- Bits of a code. -/
def Narrow.width : Narrow → Nat
  | .d8 => 8 | .d4 => 4

/-- The exponent of the top decade's highest position: 6 for D8, 2 for D4 (R207, R208). -/
def Narrow.top : Narrow → Nat
  | .d8 => 6 | .d4 => 2

/-- The magnitude of a code without its sign bit, as a rational (R207, R208). -/
def narrowMag (t : Narrow) (c : Nat) : Nat × Nat :=
  if c = 0 then (0, 1)
  else
    let m := Nat.log2 c
    (2 ^ m + 9 * (c - 2 ^ m), 2 ^ m * 10 ^ (t.top - m))

/-- A block scale from its mortar byte; none for a NaR block (R210). -/
def scaleOf (m : Byte) : Option Int := if m = 0x80 then none else some m.toInt

/-- The mortar byte of a scale: outside −127 to 127 it is −128 (R210). -/
def mortarOf (s : Int) : Byte := if s < -127 ∨ 127 < s then 0x80 else BitVec.ofInt 8 s

/-- A code under its block's mortar byte. NaR and every code of a NaR block read as a NaN that raises nv (R213). -/
def decodeNarrow (t : Narrow) (mortar : Byte) (c : Nat) : FpNum :=
  let mag := c % 2 ^ (t.width - 1)
  let neg := bit c (t.width - 1)
  match scaleOf mortar with
  | none => .nan true
  | some s =>
    if mag = 0 then (if neg then .nan true else .fin false 0 1)
    else
      let (n, d) := narrowMag t mag
      if 0 ≤ s then .fin neg (n * 10 ^ s.toNat) d else .fin neg n (d * 10 ^ (-s).toNat)

/-- The largest code magnitude of at most `n/d`, searched from `c` down. -/
def narrowFloor (t : Narrow) (n d : Nat) : Nat → Nat
  | 0 => 0
  | c + 1 => let (a, b) := narrowMag t (c + 1)
    if a * d ≤ n * b then c + 1 else narrowFloor t n d c

/-- The code above a magnitude, where 10 counts as one above the largest (R214). -/
def narrowAbove (t : Narrow) (c : Nat) : Nat × Nat :=
  if c + 1 = 2 ^ (t.width - 1) then (10, 1) else narrowMag t (c + 1)

/-- Round a number into a narrow format with a scale (R214). -/
def roundNarrow (t : Narrow) (rm : Nat) (s : Int) : FpNum → Nat × BitVec 5
  | .nan _ => (2 ^ (t.width - 1), NV)
  | .inf _ => (2 ^ (t.width - 1), NV)
  | .fin neg n0 d0 =>
    if n0 = 0 then (0, 0)
    else
      let n := if 0 ≤ s then n0 else n0 * 10 ^ (-s).toNat
      let d := if 0 ≤ s then d0 * 10 ^ s.toNat else d0
      let sign := if neg then 2 ^ (t.width - 1) else 0
      let top := 2 ^ (t.width - 1) - 1
      if 10 * d ≤ n then (sign + top, OF ||| NX)
      else
        let c := narrowFloor t n d top
        let (ln, ld) := narrowMag t c
        let (hn, hd) := narrowAbove t c
        let exact := n * ld == ln * d
        -- 2y against lo + hi, over the common denominator
        let twice := 2 * n * ld * hd
        let mid := (ln * hd + hn * ld) * d
        let up := if exact then false else match rm with
          | 0 => decide (mid < twice) || (mid == twice && c % 2 == 1)
          | 1 => false
          | 2 => neg
          | 3 => !neg
          | _ => decide (mid ≤ twice)
        if up && c == top then (sign + top, OF ||| NX)
        else
          let v := if up then c + 1 else c
          (if v = 0 then 0 else sign + v, flagIf (!exact) NX ||| flagIf (!exact && c == 0) UF)

/-- Whether `M ≤ top × 10^s` for the largest magnitude `M = n/d`. -/
def fitsScale (t : Narrow) (n d : Nat) (s : Int) : Bool :=
  let (a, b) := narrowMag t (2 ^ (t.width - 1) - 1)
  if 0 ≤ s then decide (n * b ≤ a * 10 ^ s.toNat * d) else decide (n * b * 10 ^ (-s).toNat ≤ a * d)

/-- The smallest scale from `s` up, among the next `k`, that holds the magnitude; 127 when none does (R215). -/
def searchScale (t : Narrow) (n d : Nat) : Nat → Int → Int
  | 0, _ => 127
  | k + 1, s => if fitsScale t n d s then s else searchScale t n d k (s + 1)

/-- The larger of two magnitudes. -/
def maxMag (a : Nat × Nat) : FpNum → Nat × Nat
  | .fin _ n d => if a.1 * d < n * a.2 then (n, d) else a
  | _ => a

/-- The scale that quantization chooses for the values of a block (R215). -/
def quantScale (t : Narrow) (l : List FpNum) : Int :=
  let m := l.foldl maxMag (0, 1)
  if m.1 = 0 then 0 else searchScale t m.1 m.2 255 (-127)

/-- Quantize a block: its scale, and a code with its flags for each value (R215). -/
def quantizeBlock (t : Narrow) (rm : Nat) (l : List FpNum) : Int × List (Nat × BitVec 5) :=
  let s := quantScale t l
  (s, l.map (roundNarrow t rm s))

/-! ### Summation orders (R217) -/

/-- Add one exact term, or the rounded sum of a run, into the accumulator: one rounding. -/
def addTerm (t : FpFmt) (rm acc : Nat) (p : FpNum) : Nat × BitVec 5 :=
  let a := decodeFp t acc
  let (z, f) := sumNums rm [a, p]
  let (v, g) := roundNum t rm z
  (v, f ||| g ||| snanFlag [a])

/-- A term at its position: none when it is inactive, else the element that holds it, its exact value and the flags of its
product. -/
abbrev Term := Option (Nat × FpNum × BitVec 5)

/-- The exact product of two factors, and its flags: a NaN factor, quiet or not, and 0 × ∞ raise nv (R213, R315, R381). -/
def productOf (a b : FpNum) : FpNum × BitVec 5 :=
  let (p, f) := mulNum a b
  (p, f ||| flagIf (a.isNan || b.isNan) NV)

/-- The strict form: active terms one by one. The answer lists each flag with its element. -/
def sumStrict (t : FpFmt) (rm : Nat) (l : List Term) (acc : Nat) : Nat × List (Nat × BitVec 5) :=
  l.foldl (fun (r : Nat × List (Nat × BitVec 5)) x => match x with
    | none => r
    | some (e, p, f) =>
      let (v, g) := addTerm t rm r.1 p
      (v, (e, f ||| g) :: r.2)) (acc, [])

/-- One run of the grouped form: its active terms are summed exactly and rounded, then added. The roundings record the element
of its lowest active term (R315). -/
def addRun (t : FpFmt) (rm : Nat) (r : Nat × List (Nat × BitVec 5)) (run : List Term) : Nat × List (Nat × BitVec 5) :=
  match run.filterMap id with
  | [] => r
  | (e, p, f) :: rest =>
    let l := (e, p, f) :: rest
    let (z, g) := sumNums rm (l.map (fun x => x.2.1))
    let (w, h) := roundNum t rm z
    let (v, k) := addTerm t rm r.1 (decodeFp t w)
    (v, (e, g ||| h ||| k) :: l.map (fun x => (x.1, x.2.2)) ++ r.2)

/-- The terms of run `j`. -/
def runOf (l : List Term) (j : Nat) : List Term := (l.drop (8 * j)).take 8

/-- The grouped form: runs of eight terms. -/
def sumGrouped (t : FpFmt) (rm : Nat) (l : List Term) (acc : Nat) : Nat × List (Nat × BitVec 5) :=
  (List.range (divUp l.length 8)).foldl (fun r j => addRun t rm r (runOf l j)) (acc, [])

/-- A sum of terms in the strict (false) or grouped (true) form. -/
def sumTerms (grouped : Bool) (t : FpFmt) (rm acc : Nat) (l : List Term) : Nat × List (Nat × BitVec 5) :=
  if grouped then sumGrouped t rm l acc else sumStrict t rm l acc

/-! ### Lane generators (R222) -/

def gammaWord : Word := 0x9E3779B97F4A7C15

def mix64 (z : Word) : Word :=
  let z := (z ^^^ (z >>> 30)) * 0xBF58476D1CE4E5B9
  let z := (z ^^^ (z >>> 27)) * 0x94D049BB133111EB
  z ^^^ (z >>> 31)

/-- The key that seeding gives bound-lane ordinal `l`. -/
def seedKey (seed : Word) (l : Nat) : Word := mix64 (seed + BitVec.ofNat 64 (l + 1) * gammaWord)

/-- The word a draw gives at a position. -/
def drawWord (key pos : Word) : Word := mix64 (key + (pos + 1) * gammaWord)

end Sys2Proof.Machine
end

