-- ==== Sys2Proof/Machine/Memory.lean ====
section
/-! DEFINITION. A memory of bytes: a list of address and byte pairs with strictly rising addresses in which no byte is
`Memory.unwritten`, so that equal memories are equal lists. -/

namespace Sys2Proof.Machine

/-- What an address that is not listed reads as. DESIGN CHOICE (log 4): the specification gives GDDR 7 no contents at
power-on. -/
def Memory.unwritten : Byte := 0

/-- The byte at an address. -/
def Memory.read : List Host.Cell → Nat → Byte
  | [], _ => Memory.unwritten
  | (a, b) :: rest, at' => if a = at' then b else Memory.read rest at'

/-- Write a byte, keeping the canonical form. -/
def Memory.write : List Host.Cell → Nat → Byte → List Host.Cell
  | [], a, b => if b = Memory.unwritten then [] else [(a, b)]
  | (a', b') :: rest, a, b =>
    if a < a' then (if b = Memory.unwritten then (a', b') :: rest else (a, b) :: (a', b') :: rest)
    else if a = a' then (if b = Memory.unwritten then rest else (a, b) :: rest)
    else (a', b') :: Memory.write rest a b

/-- Every address of the list is at least `lo` and above the one before it, and no byte is unwritten. -/
def Memory.wfFrom (lo : Nat) : List Host.Cell → Bool
  | [] => true
  | (a, b) :: rest => decide (lo ≤ a) && !(b == Memory.unwritten) && Memory.wfFrom (a + 1) rest

/-- The canonical form. -/
def Memory.wf (m : List Host.Cell) : Bool := Memory.wfFrom 0 m

/-- Write consecutive bytes. -/
def Memory.writeBytes (m : List Host.Cell) (a : Nat) : List Byte → List Host.Cell
  | [] => m
  | b :: rest => Memory.writeBytes (Memory.write m a b) (a + 1) rest

/-- Read consecutive bytes. -/
def Memory.readBytes (m : List Host.Cell) (a n : Nat) : List Byte :=
  (List.range n).map (fun i => Memory.read m (a + i))

/-- Zero the addresses from `lo` up to, and not including, `hi`. -/
def Memory.clear (m : List Host.Cell) (lo hi : Nat) : List Host.Cell :=
  m.filter (fun c => c.1 < lo || hi ≤ c.1)

end Sys2Proof.Machine
end

