-- ==== Sys2Proof/Machine/Access.lean ====
section
/-! DEFINITION. Finding things in the device: bricks, courses, tenants, queues, harts; physical addresses; translation
(R153 to R157, R418) and the places of the bytes of an access (R148, R149, R281). -/

namespace Sys2Proof.Machine

/-! ### Parts of the device -/

def Device.brick (d : Device) (b : Nat) : Brick := (lookupKey b d.bricks).getD {}
def Device.setBrick (d : Device) (b : Nat) (x : Brick) : Device := { d with bricks := insertKey b x d.bricks }
def Device.course (d : Device) (c : Nat) : Course := (lookupKey c d.courses).getD {}
def Device.setCourse (d : Device) (c : Nat) (x : Course) : Device := { d with courses := insertKey c x d.courses }
def Device.tenant (d : Device) (v : Nat) : Tenant := (lookupKey v d.tenants).getD {}
def Device.setTenant (d : Device) (v : Nat) (x : Tenant) : Device := { d with tenants := insertKey v x d.tenants }
def Device.queue (d : Device) (q : Nat) : Queue := (lookupKey q d.queues).getD {}
def Device.setQueue (d : Device) (q : Nat) (x : Queue) : Device := { d with queues := insertKey q x d.queues }
def Device.ctxent (d : Device) (c : Nat) : CtxEnt := (lookupKey c d.ctxents).getD {}
def Device.port (d : Device) (p : Nat) : Port := d.ports.getD p {}
def Device.setPort (d : Device) (p : Nat) (x : Port) : Device := { d with ports := d.ports.setIfInBounds p x }

/-- Change the device. -/
def State.mapDev (s : State) (f : Device → Device) : State := { s with dev := f s.dev }
/-- Change the hart in focus. -/
def State.mapHart (s : State) (f : Hart → Hart) : State := { s with hart := f s.hart }
/-- Change the checkpointed registers of the hart in focus. -/
def State.mapRegs (s : State) (f : Regs → Regs) : State :=
  { s with hart := { s.hart with r := f s.hart.r } }
/-- Change the brick of the hart in focus. -/
def State.mapBrick (s : State) (f : Brick → Brick) : State :=
  { s with dev := s.dev.setBrick s.hart.brick (f (s.dev.brick s.hart.brick)) }
/-- The brick of the hart in focus. -/
def State.brick (s : State) : Brick := s.dev.brick s.hart.brick

/-- The number of a free value, and the state in which it has been used. -/
def State.draw (s : State) : Nat × State :=
  (s.dev.fresh, { s with dev := { s.dev with fresh := s.dev.fresh + 1 } })

/-- The course of a brick (R86). -/
def courseOf (b : Nat) : Nat := b / 16
/-- The wythe of a brick (R86). -/
def wytheOf (b : Nat) : Nat := b / 256

/-! ### Harts -/

/-- Bring a hart into focus; the one that leaves it stays among the parked harts unless it is free. -/
def State.focus (s : State) (b n : Nat) : State :=
  if s.hart.brick = b ∧ s.hart.num = n then s
  else
    let here := fun (h : Hart) => h.brick == b && h.num == n
    let h := (s.dev.parked.find? here).getD { brick := b, num := n }
    let rest := s.dev.parked.filter (fun h => !here h)
    let rest := if s.hart.run = .free then rest else s.hart :: rest
    { hart := h, dev := { s.dev with parked := rest } }

/-- Do something with a hart in focus, and bring back the one that was. -/
def State.withHart (s : State) (b n : Nat) (f : State → State) : State :=
  (f (s.focus b n)).focus s.hart.brick s.hart.num

/-- Every hart that is not free. -/
def State.harts (s : State) : List Hart :=
  (s.hart :: s.dev.parked).filter (fun h => !(h.run == .free))

/-- The hart of a brick and number, if it is not free. -/
def State.hartAt (s : State) (b n : Nat) : Option Hart :=
  s.harts.find? (fun h => h.brick == b && h.num == n)

/-- Change the hart with a unique number, wherever it is: in focus, parked or saved. -/
def State.mapUid (s : State) (uid : Nat) (f : Hart → Hart) : State :=
  let g := fun (h : Hart) => if h.uid = uid then f h else h
  { hart := if s.hart.run = .free then s.hart else g s.hart
    dev := { s.dev with
      parked := s.dev.parked.map g
      saved := s.dev.saved.map (fun a => { a with hart := g a.hart }) } }

/-- The hart with a unique number, in focus, parked or saved. -/
def State.byUid (s : State) (uid : Nat) : Option Hart :=
  (s.harts ++ s.dev.saved.map (·.hart)).find? (fun h => h.uid == uid)

/-- The bound lane groups of a hart, lowest first (R87). -/
def Hart.lgs (h : Hart) : List Nat := setBits 4 h.bound.toNat
/-- LGN: how many lane groups are bound (R90). -/
def Hart.nlg (h : Hart) : Nat := h.lgs.length
/-- NL: how many lanes are bound (R91). -/
def Hart.lanes (h : Hart) : Nat := 8 * h.nlg
/-- A scalar-only hart (R88). -/
def Hart.scalarOnly (h : Hart) : Bool := h.bound == 0
/-- The brick lane of a bound-lane ordinal (R91). -/
def Hart.laneOf (h : Hart) (l : Nat) : Nat := 8 * h.lgs.getD (l / 8) 0 + l % 8
/-- The launch of a hart. -/
def Hart.launch (h : Hart) : Nat × Nat := (h.queue, h.seq)

/-! ### Launches -/

def Device.launch (d : Device) (id : Nat × Nat) : Option Launch :=
  d.launches.find? (fun l => l.queue == id.1 && l.seq == id.2)
def Device.mapLaunch (d : Device) (id : Nat × Nat) (f : Launch → Launch) : Device :=
  { d with launches := d.launches.map (fun l => if l.queue = id.1 ∧ l.seq = id.2 then f l else l) }

/-! ### Physical addresses (R13) -/

/-- The node that owns a physical address. -/
def nodeOf (pa : Nat) : Nat := pa / 2 ^ 40
/-- The offset within the owning device. -/
def offsetOf (pa : Nat) : Nat := pa % 2 ^ 40
/-- A physical address of this device. -/
def Device.own (d : Device) (pa : Nat) : Bool := nodeOf pa % 4096 == d.node
/-- An offset of populated GDDR 7. -/
def Device.populated (d : Device) (off : Nat) : Bool := off < d.gddr

/-- The channel that owns a GDDR 7 offset (R14). -/
def channelOf (off : Nat) : Nat :=
  (field off 8 7).xor ((field off 15 7).xor ((field off 22 7).xor (field off 29 7)))

/-- The poison of a byte's granule: marked, or an uncorrectable error that the access meets (R15, R243). -/
def Device.poisoned (d : Device) (off : Nat) : Bool :=
  d.poison.contains (off / 64) || d.latent.contains (off / 64, false)

/-- An entry of the error log (R21, R245), kept in a ring of 1,024: the codes of unit kinds are not given, and the value is free. -/
def Device.logError (d : Device) (brick lane address : Nat) : Device :=
  let e := leBytes 1 (Config.freeWord d.fresh).toNat ++ leBytes 1 0 ++ leBytes 2 brick ++ leBytes 2 lane ++ zeros 2 ++ leBytes 8 address ++
    leBytes 8 d.time.dtime.toNat ++ zeros 8
  { d with fresh := d.fresh + 1, gmc := { d.gmc with log := (d.gmc.log ++ [e]).drop (d.gmc.log.length + 1 - 1024) } }

/-- Mark granules poisoned. -/
def Device.addPoison (d : Device) (g : Nat) : Device :=
  if d.poison.contains g then d else { d with poison := g :: d.poison }

/-- The ECC check of a granule (R15, R245): a correctable error is written back and counted, an uncorrectable one poisons the granule
and is logged. -/
def Device.scrub (d : Device) (g : Nat) : Device :=
  let fixed := (d.latent.filter (fun l => l.1 == g && l.2)).length
  let bad := d.latent.contains (g, false)
  let d := { d with latent := d.latent.filter (fun l => l.1 != g), gmc := { d.gmc with corrected := d.gmc.corrected + fixed } }
  if bad then (d.addPoison g).logError 0 0 (64 * g) else d

/-- Clear a granule's poison (R244). -/
def Device.clearPoison (d : Device) (g : Nat) : Device :=
  { d with poison := d.poison.filter (· != g), latent := d.latent.filter (fun l => l.1 != g) }

/-- An access meets the errors of the granules that some offsets lie in (R15). -/
def Device.meet (d : Device) (offs : List Nat) : Device :=
  if d.latent.isEmpty then d else (distinct (offs.map (· / 64))).foldl Device.scrub d

/-- Write one access's bytes at an offset. Granules it covers whole lose their poison, others keep it (R244). -/
def Device.writeAccess (d : Device) (off : Nat) (data : List Byte) : Device :=
  let d := { d with mem := Memory.writeBytes d.mem off data }
  let whole := (List.range (data.length / 64 + 2)).filter
    (fun i => off ≤ 64 * (off / 64 + i) && 64 * (off / 64 + i) + 64 ≤ off + data.length)
  (whole.foldl (fun d i => d.clearPoison (off / 64 + i)) d).meet ((List.range data.length).map (off + ·))

/-! ### Translation (R153 to R157) -/

/-- What an access is for, as permission goes (R155). -/
inductive Purpose where
  | read
  | write
  | fetch
deriving DecidableEq, Repr

/-- Why an access cannot be made: the cause and kind of R224. -/
structure Failure where
  cause : Nat
  kind : Nat
deriving DecidableEq, Repr

def notMapped : Failure := ⟨0x08, 1⟩
def malformed : Failure := ⟨0x08, 2⟩
def noPermission : Failure := ⟨0x08, 3⟩
def noLocalMemory : Failure := ⟨0x08, 4⟩
def accessError : Failure := ⟨0x09, 1⟩
def linkFailure : Failure := ⟨0x09, 2⟩
def poisonedMemory : Failure := ⟨0x12, 1⟩
def illegalOperandFailure : Failure := ⟨0x02, 0⟩

/-- A level of the page table: the lowest bit of its index, the index width, and the alignment of its table as a power of
two (R153). -/
def pageLevels : List (Nat × Nat × Nat) := [(39, 17, 16), (30, 9, 12), (21, 9, 12), (16, 5, 8)]

/-- Whether a page-table entry is malformed at a level (R155). -/
def malformedEntry (d : Device) (level : Nat) (e : Nat) : Bool :=
  let leaf := bit e 1
  let addr := field e 8 44 * 256
  field e 52 12 != 0 || bit e 7 || bit e 4 ||
  (leaf && level == 0) || (!leaf && level == 3) ||
  (!leaf && (bit e 6 || bit e 5 || bit e 3 || bit e 2)) ||
  (bit e 5 && bit e 2) ||
  (if leaf then addr % 2 ^ (pageLevels.getD level (16, 0, 0)).1 != 0
   else addr % 2 ^ (pageLevels.getD (level + 1) (0, 0, 8)).2.2 != 0 ||
     !(d.own addr) || !(d.populated (offsetOf addr)))

/-- Walk the page table from a level's table (R153 to R155, R418). -/
def walkFrom (d : Device) (va : Nat) : List (Nat × Nat × Nat) → Nat → Nat → Except Failure TlbEntry
  | [], _, _ => .error malformed
  | (shift, width, _) :: rest, level, table =>
    let at' := table + 8 * field va shift width
    if d.poisoned at' then .error poisonedMemory
    else
      let e := ofLe (Memory.readBytes d.mem at' 8)
      if !(bit e 0) then .error notMapped
      else if malformedEntry d level e then .error malformed
      else
        let addr := field e 8 44 * 256
        if bit e 1 then
          .ok { brick := 0, ctx := 0, vmid := 0, va := va / 2 ^ shift * 2 ^ shift, pa := addr, bits := shift,
                hs := bit e 6, rs := bit e 5, x := bit e 3, w := bit e 2 }
        else walkFrom d va rest (level + 1) (offsetOf addr)

/-- A walk for a context, whose root must lie in this device's GDDR 7 (R155). -/
def Device.walk (d : Device) (ctx va : Nat) : Except Failure TlbEntry :=
  let root := (d.ctxent ctx).root
  if !(d.own root) || !(d.populated (offsetOf root)) then .error malformed
  else walkFrom d va pageLevels 0 (offsetOf root)

/-- The offsets that a walk reads (R153), from a level's table. -/
def walkReads (d : Device) (va : Nat) : List (Nat × Nat × Nat) → Nat → Nat → List Nat
  | [], _, _ => []
  | (shift, width, _) :: rest, level, table =>
    let at' := table + 8 * field va shift width
    let e := ofLe (Memory.readBytes d.mem at' 8)
    if d.poisoned at' || !(bit e 0) || bit e 1 || malformedEntry d level e then [at']
    else at' :: walkReads d va rest (level + 1) (offsetOf (field e 8 44 * 256))

/-- A walk meets the errors of the entries it reads (R15). -/
def Device.meetWalk (d : Device) (ctx va : Nat) : Device :=
  if d.latent.isEmpty then d else d.meet (walkReads d va pageLevels 0 (offsetOf (d.ctxent ctx).root))

/-- The translation a brick holds for an address of a context (R157): that of the access's own first-level structure, else of the second
level. -/
def Device.tlbFind (d : Device) (b ctx vmid va : Nat) (l : TlbLevel := .second) : Option TlbEntry :=
  let at' := fun (l : TlbLevel) => d.tlb.find? (fun e =>
    e.level == l && e.brick == b && e.ctx == ctx && e.vmid == vmid && va / 2 ^ e.bits == e.va / 2 ^ e.bits)
  match at' l with
  | some e => some e
  | none => at' .second

/-- The entries of a structure (R157). -/
def TlbLevel.size : TlbLevel → Nat
  | .lane _ => 32
  | .second => 4096
  | .scalar _ => 16
  | .fetch _ => 16

/-- Keep a translation; in a full structure the oldest makes room (R157 gives the sizes; which one leaves, and the sets of the second level, are
open: DESIGN CHOICE, log 7). -/
def keepEntry (l : List TlbEntry) (e : TlbEntry) : List TlbEntry :=
  let same := fun (x : TlbEntry) => x.brick == e.brick && x.level == e.level
  if (l.filter same).length < e.level.size then e :: l else e :: (removeFirst same l.reverse).reverse

/-- A walk's translation is kept in the second level and in the first-level structure of its access (R157). -/
def Device.keepWalk (d : Device) (e : TlbEntry) (l : TlbLevel) : Device :=
  let t := keepEntry d.tlb { e with level := .second }
  { d with tlb := if l = .second then t else keepEntry t { e with level := l } }

/-- The structure that a hart's access looks in first (R157): the fetch TLB, the bank of its element's lane, or the scalar TLB. -/
def Hart.tlbOf (h : Hart) (p : Purpose) (lane : Option Nat) : TlbLevel :=
  match p, lane with
  | .fetch, _ => .fetch h.num
  | _, some l => .lane l
  | _, none => .scalar h.num

/-- The permission a purpose needs (R155). -/
def TlbEntry.allows (e : TlbEntry) : Purpose → Bool
  | .read => true
  | .write => e.w
  | .fetch => e.x

/-- Translate an address of a context for a brick: by a translation it holds, or by a walk whose result it keeps. The
fourth answer says whether the page is HS or RS. -/
def Device.translate (d : Device) (b ctx vmid va : Nat) (p : Purpose) (l : TlbLevel := .second) : Except Failure (Nat × TlbEntry × Device) :=
  if va / 2 ^ 56 ≠ 0 then .error notMapped
  else
    let found := match d.tlbFind b ctx vmid va l with
      | some e => Except.ok (e, d)
      | none => match d.walk ctx va with
        | .ok e =>
          let e := { e with brick := b, ctx := ctx, vmid := vmid }
          .ok (e, (d.meetWalk ctx va).keepWalk e l)
        | .error f => .error f
    match found with
    | .error f => .error f
    | .ok (e, d') =>
      if !(e.allows p) then .error noPermission
      else
        let pa := e.pa + va % 2 ^ e.bits
        if d.own pa && !(d.populated (offsetOf pa)) then .error accessError
        else .ok (pa, e, d')

/-! ### The bytes of an access -/

/-- An address in the local-memory window (R148). -/
def inWindow (va : Nat) : Bool := Config.localBase ≤ va && va < Config.localBase + 0x180000

/-- The place of a local-memory address for a hart (R149): its partition's offset in the brick's local memory. -/
def Hart.localPlace (h : Hart) (va : Nat) : Except Failure Place :=
  let o := va - Config.localBase
  match h.lgs[o / Config.partitionBytes]? with
  | some lg => .ok (.loc (lg * Config.partitionBytes + o % Config.partitionBytes))
  | none => .error noLocalMemory

/-- The places of the bytes of one access: `n` bytes from `va`, addresses modulo 2^64 (R280). A page is translated once.
An access across the window's edge is an illegal operand (R148). -/
def placesFrom (s : State) (p : Purpose) (l : TlbLevel) : List Nat → Option TlbEntry → Except Failure (List Place × Bool × State)
  | [], _ => .ok ([], false, s)
  | va :: rest, last =>
    match last with
    | some e =>
      if va < 2 ^ 56 ∧ va / 2 ^ e.bits = e.va / 2 ^ e.bits then
        match placesFrom s p l rest last with
        | .ok (ps, hs, s') => .ok (.phys (e.pa + va % 2 ^ e.bits) :: ps, hs || e.hs, s')
        | .error f => .error f
      else
        match s.dev.translate s.hart.brick s.hart.ctx s.hart.vmid va p l with
        | .error f => .error f
        | .ok (pa, e', d) =>
          match placesFrom { s with dev := d } p l rest (some e') with
          | .ok (ps, hs, s') => .ok (.phys pa :: ps, hs || e'.hs, s')
          | .error f => .error f
    | none =>
      match s.dev.translate s.hart.brick s.hart.ctx s.hart.vmid va p l with
      | .error f => .error f
      | .ok (pa, e', d) =>
        match placesFrom { s with dev := d } p l rest (some e') with
        | .ok (ps, hs, s') => .ok (.phys pa :: ps, hs || e'.hs, s')
        | .error f => .error f

/-- The places of `n` bytes at `va` for the hart in focus, whether an HS page is touched (R156), and the state with the
translations kept. -/
def State.places (s : State) (va n : Nat) (p : Purpose) (lane : Option Nat := none) : Except Failure (List Place × Bool × State) :=
  let vas := (List.range n).map (fun i => (va + i) % 2 ^ 64)
  if vas.all inWindow then
    match vas.mapM s.hart.localPlace with
    | .ok l => .ok (l, false, s)
    | .error f => .error f
  else if vas.any inWindow then .error illegalOperandFailure
  else placesFrom s p (s.hart.tlbOf p lane) vas none

/-- Whether every page of a range is read-only-stable (R124), by the translations the brick holds. -/
def State.stable (s : State) (va : Nat) (lane : Option Nat) : Bool :=
  match s.dev.tlbFind s.hart.brick s.hart.ctx s.hart.vmid va (s.hart.tlbOf .read lane) with
  | some e => e.rs
  | none => false

end Sys2Proof.Machine
end

