-- ==== Sys2Proof/Machine/Fabric.lean ====
section
/-! DEFINITION. The Forquin Link as the device uses it: the layout of a flit and its CRC (R17, R18), which flits are
discarded (R19), sequence numbers, acknowledgement, replay and credits of a port (R22 to R25), and sending. -/

namespace Sys2Proof.Machine

/-! ### Flits as bytes -/

/-- One bit step of the reflected CRC-32 of IEEE 802.3 (R17). -/
def crcBit (r : BitVec 32) : BitVec 32 :=
  if r.getLsbD 0 then (r >>> 1) ^^^ 0xEDB88320 else r >>> 1

/-- One byte of the CRC. -/
def crcByte (r : BitVec 32) (b : Byte) : BitVec 32 :=
  crcBit (crcBit (crcBit (crcBit (crcBit (crcBit (crcBit (crcBit (r ^^^ b.setWidth 32))))))))

/-- The CRC-32 of a list of bytes (R17). -/
def crc32 (l : List Byte) : BitVec 32 := (l.foldl crcByte (BitVec.allOnes 32)) ^^^ BitVec.allOnes 32

/-- The header as a number of 128 bits (R18). -/
def flitHeader (f : Flit) : Nat :=
  f.cls * 2 ^ 126 + f.kind * 2 ^ 120 + f.dst * 2 ^ 108 + f.src * 2 ^ 96 + f.vmid * 2 ^ 90 + f.ctx * 2 ^ 78 +
  f.pa * 2 ^ 26 + f.len * 2 ^ 14 + f.seq * 2 ^ 6 + f.reserved

/-- The first 252 bytes of a flit (R17): bit 127 of the header is the top bit of byte 0. -/
def flitBody (f : Flit) : List Byte :=
  (leBytes 16 (flitHeader f)).reverse ++ padTo 224 f.payload ++ [BitVec.ofNat 8 f.ackseq, 0] ++
  (f.credits.flatMap (leBytes 2)) ++ [0, 0]

/-- The 256 bytes of a flit with its CRC (R17). -/
def flitBytes (f : Flit) : List Byte := flitBody f ++ leBytes 4 (crc32 (flitBody f)).toNat

/-- Read a flit of 256 bytes. -/
def flitOfBytes (l : List Byte) : Flit :=
  let h := ofLe (l.take 16).reverse
  { cls := field h 126 2, kind := field h 120 6, dst := field h 108 12, src := field h 96 12,
    vmid := field h 90 6, ctx := field h 78 12, pa := field h 26 52, len := field h 14 12,
    seq := field h 6 8, reserved := field h 0 6, payload := (l.drop 16).take 224,
    ackseq := leAt l 240 1, credits := [leAt l 242 2, leAt l 244 2, leAt l 246 2, leAt l 248 2] }

/-- Whether the CRC of 256 bytes is right. -/
def crcGood (l : List Byte) : Bool := (crc32 (l.take 252)).toNat == leAt l 252 4

/-- The classes a KIND may travel in (R19). -/
def classesOf (kind : Nat) : List Nat :=
  if kind ≤ 3 || kind == 6 then [0, 1]
  else if kind == 4 || kind == 5 || kind == 0x30 then [0]
  else if kind == 0x10 || kind == 0x11 || kind == 0x12 then [2]
  else if 0x20 ≤ kind && kind ≤ 0x25 then [3]
  else []

/-- A flit the receiver discards: an unknown KIND, a KIND in the wrong class, a nonzero reserved header bit (R19). -/
def flitDiscarded (f : Flit) : Bool := !((classesOf f.kind).contains f.cls) || f.reserved != 0

/-- Bytes of a flit's payload. -/
def flitAt (f : Flit) (o n : Nat) : Nat := leAt f.payload o n
/-- The payload bytes that LEN names; a LEN above 223 names all 224 (DESIGN CHOICE, log 87). -/
def flitData (f : Flit) : List Byte := f.payload.take (f.len + 1)

/-! ### Ports -/

/-- The credits of a class. -/
def Port.credits (p : Port) (c : Nat) : Nat := p.credit.getD c 0

/-- The receive buffer of each class (R25). -/
def receiveBuffer : List Nat := [64, 32, 32, 16]

/-- Put a flit on the wire of a port (R22, R25): it takes the next SEQ, a credit of its class, the acknowledgement and
credits the port owes, and a place in the replay buffer. -/
def Port.emit (p : Port) (f : Flit) : Flit × Port :=
  let f := { f with seq := p.seq, ackseq := p.ackIn, credits := p.owed }
  (f, { p with seq := (p.seq + 1) % 256, replay := p.replay ++ [f],
               credit := p.credit.set f.cls (p.credits f.cls - 1), owed := [0, 0, 0, 0], owesAck := false })

/-- Whether a port may start a flit now: it is up, holds a credit of its class, and has fewer than 128 unacknowledged. -/
def Port.maySend (p : Port) (f : Flit) : Bool :=
  p.ready && 0 < p.credits f.cls && p.replay.length < 128

/-- Send what can be sent of a list of waiting flits: those sent, and the port with the others waiting. -/
def Port.pumpList (p : Port) : List Flit → List Flit × Port
  | [] => ([], p)
  | f :: rest =>
    if p.maySend f then
      let (g, p) := p.emit f
      let (out, p) := Port.pumpList p rest
      (g :: out, p)
    else
      let (out, p) := Port.pumpList p rest
      (out, { p with queue := f :: p.queue })

/-- The order in which flits are served (R25): class 3, then class 1 within a reserved slot, class 2, class 0. A class 1 write is sent in
its slot alone (R405). An answer or a read in class 1, for which the list has no place, goes before class 0 (DESIGN CHOICE, log 88). -/
def flitRank (f : Flit) : Nat :=
  if f.cls = 3 then 0 else if f.cls = 1 then (if f.kind = 0x02 then 1 else 3) else if f.cls = 2 then 2 else 4

/-- Let a port send what it can. -/
def Device.pump (d : Device) (p : Nat) : Device :=
  let q := d.port p
  let waiting := sortBy (fun a b => flitRank a ≤ flitRank b) q.queue
  let (out, q) := Port.pumpList { q with queue := [] } waiting
  { d.setPort p q with wire := d.wire ++ out.map (fun f => (p, f)) }

/-- Hand a flit to a port. -/
def Device.transmit (d : Device) (p : Nat) (f : Flit) : Device :=
  let q := d.port p
  (d.setPort p { q with queue := q.queue ++ [{ f with src := d.node }] }).pump p

/-- The ready port on which flits of a class to a node wait or are not acknowledged: a later one follows them (R24). -/
def Device.follows (d : Device) (cls node : Nat) : Option Nat :=
  (List.range Config.ports).find? (fun p =>
    (d.port p).ready && ((d.port p).queue ++ (d.port p).replay).any (fun f => f.cls == cls && f.dst == node))

/-- The port that a message of a class to a node leaves by: the port that earlier ones have yet to leave (R24), else the lowest ready
port cabled to that node, else the lowest ready port (DESIGN CHOICE, log 16). -/
def Device.route (d : Device) (cls node : Nat) : Option Nat :=
  let ready := (List.range Config.ports).filter (fun p => (d.port p).ready)
  match d.follows cls node, ready.find? (fun p => lookupKey p d.cabling == some node) with
  | some p, _ => some p
  | none, some p => some p
  | none, none => ready.head?

/-- Whether a port joins this device directly to a node and is up (R27). -/
def Device.joins (d : Device) (node p : Nat) : Bool := (d.port p).ready && lookupKey p d.cabling == some node

/-- The scheduled slots a launch holds on a port (R66). -/
def Device.holdsSlot (d : Device) (launch : Nat × Nat) (p : Nat) : Bool :=
  d.slots.any (fun x => x.1 == p && x.2.2.1 == launch.1 && x.2.2.2 == launch.2)

/-- A port that joins this device directly to a node and on which a launch holds a slot (R27, R28). -/
def Device.slotPort (d : Device) (launch : Nat × Nat) (node : Nat) : Option Nat :=
  (List.range Config.ports).find? (fun p => d.joins node p && d.holdsSlot launch p)

/-- Send a flit to its destination; false when no port is ready, which is a link failure (R22). -/
def Device.send (d : Device) (f : Flit) : Bool × Device :=
  match d.route f.cls f.dst with
  | some p => (true, d.transmit p f)
  | none => (false, d)

/-- Answer a flit by the port it came on, or by the port that earlier flits of the class to its sender have yet to leave (R24). -/
def Device.reply (d : Device) (p : Nat) (f : Flit) (g : Flit) : Device :=
  d.transmit ((d.follows g.cls f.src).getD p) { g with dst := f.src, vmid := f.vmid, ctx := f.ctx }

/-- Cut bytes into pieces of at most 224 (R17), with the offset of each. The first argument bounds the pieces. -/
def pieces : Nat → Nat → List Byte → List (Nat × List Byte)
  | 0, _, _ => []
  | _ + 1, _, [] => []
  | k + 1, o, l => (o, l.take 224) :: pieces k (o + 224) (l.drop 224)

/-- The pieces of a message. -/
def split224 (l : List Byte) : List (Nat × List Byte) := pieces (l.length / 224 + 1) 0 l

/-- The flits that ACKSEQ acknowledges leave the replay buffer (R22). -/
def Port.acked (p : Port) (f : Flit) : Port :=
  let n := (f.ackseq + 1 + 256 - (p.seq + 256 - p.replay.length) % 256) % 256
  let n := if n ≤ p.replay.length then n else 0
  { p with replay := p.replay.drop n, resends := if n = 0 then p.resends else 0 }

/-- Returned credits are added to the pools (R25). -/
def Port.credited (p : Port) (f : Flit) : Port :=
  { p with credit := (List.range 4).map (fun c => p.credits c + f.credits.getD c 0) }

/-- A sequenced flit arrives intact at a port. It is the next in sequence, or it has no effect beyond its ACKSEQ: the sender
resends from the oldest unacknowledged flit (R22). -/
def Device.arrive (d : Device) (p : Nat) (f : Flit) : Option Device :=
  let q := (d.port p).acked f
  if f.seq = (q.ackIn + 1) % 256 then
    let q := { q.credited f with ackIn := f.seq, owesAck := true,
                                 owed := q.owed.set f.cls (q.owed.getD f.cls 0 + 1) }
    some ((d.setPort p q).pump p)
  else none

/-- Count a discarded flit in the port's error counter; it is not acknowledged (R19, R21). -/
def Device.countError (d : Device) (p : Nat) : Device :=
  let q := d.port p
  d.setPort p { q with errors := q.errors + 1 }

/-- A link-control flit (R22): acknowledgement and credits only. -/
def Device.linkControl (d : Device) (p : Nat) : Device :=
  let q := d.port p
  let f : Flit := { kind := 0x30, dst := (lookupKey p d.cabling).getD 0, src := d.node,
                    ackseq := q.ackIn, credits := q.owed, payload := zeros 224 }
  { d.setPort p { q with owed := [0, 0, 0, 0], owesAck := false } with wire := d.wire ++ [(p, f)] }

/-- A port that owes an acknowledgement or credits and has sent no other flit sends link control (R22). -/
def Device.payDebts (d : Device) (p : Nat) : Device :=
  let q := d.port p
  if q.ready && (q.owesAck || q.owed.any (· != 0)) then d.linkControl p else d

/-- Whether a flit in class 0 that arrives must wait: it is an atomic on an address that another node's group holds (R162), or follows such a
one from its node (R198). -/
def Device.defers (d : Device) (f : Flit) : Bool :=
  f.cls == 0 && (d.deferred.any (fun x => x.2.src == f.src && x.2.cls == 0) ||
    (f.kind == 4 && d.groupsHeld.any (fun g => g.2 == f.pa && g.1 != f.src)))

/-- A sequenced flit meets `h` in the device, unless it is out of sequence. When `h` says the flit is to be discarded it is
counted and not acknowledged. One that must wait does so, and comes back once its wait is over. -/
def State.onFlit (s : State) (p : Nat) (f : Flit) (h : State → Option State) : State :=
  if s.dev.released.contains (p, f) then
    let s := s.mapDev (fun d => { d with released := removeFirst (fun x => x == (p, f)) d.released })
    if s.dev.defers f then s.mapDev (fun d => { d with deferred := d.deferred ++ [(p, f)] })
    else ((h s).getD s).mapDev (fun d => d.payDebts p)
  else if !(s.dev.port p).ready then s
  else match s.dev.arrive p f with
  | none => s.mapDev (fun d => (d.setPort p { (d.port p).acked f with owesAck := true }).payDebts p)
  | some d =>
    if d.defers f then { s with dev := { d with deferred := d.deferred ++ [(p, f)] }.payDebts p }
    else match h { s with dev := d } with
      | some s' => s'.mapDev (fun d => d.payDebts p)
      | none => s.mapDev (fun d => d.countError p)

end Sys2Proof.Machine
end

