-- ==== Sys2Proof/Machine/Reports.lean ====
section
/-! DEFINITION. Events, completion records and asynchronous error reports: what the device writes for the host (R57, R58)
and delivers to a hart (R238 to R242). -/

namespace Sys2Proof.Machine

/-! ### Writes that the device makes for itself -/

/-- A write to another node: its flits are sent, and one outstanding request is kept for each (R17, R20). A flit that
finds no ready port is dropped: `fail` says what becomes of the owner. -/
def Device.remoteWrite (d : Device) (o : Outstanding) (cls vmid ctx : Nat) (data : List Byte) : Bool × Device :=
  (split224 data).foldl (fun (acc : Bool × Device) (piece : Nat × List Byte) =>
    let f : Flit := { cls := cls, kind := 0x02, dst := nodeOf o.pa % 4096, vmid := vmid, ctx := ctx, pa := o.pa + piece.1,
                      len := piece.2.length - 1, payload := padTo 224 piece.2 }
    match acc.2.route f.cls f.dst with
    | some p =>
      let d := acc.2.transmit p f
      (acc.1, { d with outstanding := d.outstanding ++
        [{ o with kind := 0x02, pa := o.pa + piece.1, len := piece.2.length, port := p, va := o.va + piece.1 }] })
    | none => (false, acc.2)) (true, d)

/-- Write an event into a tenant's ring (R58): event `evprod` goes to its entry, here or at another node, and EVPROD
advances whether or not the write succeeds. -/
def Device.writeEvent (d : Device) (v code queue seq : Nat) (data : Word) : Device :=
  let t := d.tenant v
  let size := 2 ^ (t.evsz + 8)
  let pa := field t.evbase.toNat 16 36 * 65536 + 16 * (t.evprod.toNat % size)
  let bytes := leBytes 1 code ++ leBytes 1 0 ++ leBytes 2 queue ++ leBytes 4 seq ++ leBytes 8 data.toNat
  let d := d.setTenant v { t with evprod := t.evprod + 1 }
  if d.own pa then
    if d.populated (offsetOf pa) then d.writeAccess (offsetOf pa) bytes else d
  else (d.remoteWrite { owner := .device, kind := 2, pa := pa, len := 16 } 0 0 0 bytes).2

/-- Whether a tenant's event ring has room (R58). -/
def Tenant.room (t : Tenant) : Bool := t.evprod - t.evcons != BitVec.ofNat 64 (2 ^ (t.evsz + 8))

/-- Event 0x06 with the lost count, first, when room has appeared after drops (R58). -/
def Device.tellLost (d : Device) (v : Nat) : Device :=
  let t := d.tenant v
  if t.even && t.owes && t.room then
    (d.setTenant v { t with owes := false }).writeEvent v 0x06 0 0 t.evlost
  else d

/-- Post an event to a tenant (R58): nothing while its ring is disabled, dropped and counted while the ring is full. -/
def Device.postEvent (d : Device) (v code queue seq : Nat) (data : Word) : Device :=
  if !(d.tenant v).even then d
  else
    let d := d.tellLost v
    let t := d.tenant v
    if t.room then d.writeEvent v code queue seq data
    else d.setTenant v { t with evlost := t.evlost + 1, owes := true }

/-! ### Asynchronous error reports -/

/-- A report (R238). -/
def report (source status chan id : Nat) : Word :=
  BitVec.ofNat 64 (source % 256 * 2 ^ 56 + status % 256 * 2 ^ 48 + chan % 4 * 2 ^ 46 + id % 2 ^ 32)

/-- The SOURCE of a report. -/
def reportSource (r : Word) : Nat := field r.toNat 56 8
/-- The CHAN of a report. -/
def reportChan (r : Word) : Nat := field r.toNat 46 2

/-- Add a report to AERR or its queue of 14; one more is counted and not kept (R240). A saved hart's reports wait in the
pending field, and mark a pending trap when ATE is 1 (R242). -/
def Aerr.add (a : Aerr) (saved : Bool) (r : Word) : Aerr :=
  if saved then
    if a.queue.length < 14 then { a with queue := a.queue ++ [r], pending := a.pending || a.ate }
    else { a with lost := a.lost + 1, pending := a.pending || a.ate }
  else if a.held.isNone then { a with held := some r }
  else if a.queue.length < 14 then { a with queue := a.queue ++ [r] }
  else { a with lost := a.lost + 1 }

/-- The oldest queued report takes the place of a held one that has left (R239). -/
def Aerr.refill (a : Aerr) : Aerr :=
  match a.held, a.queue with
  | none, r :: rest => { a with held := some r, queue := rest }
  | _, _ => a

/-- Every report held or queued, oldest first. -/
def Aerr.all (a : Aerr) : List Word := a.held.toList ++ a.queue

/-- Remove the oldest report that satisfies `p` (R241). -/
def Aerr.removeFirst (a : Aerr) (p : Word → Bool) : Aerr :=
  match a.held with
  | some r => if p r then Aerr.refill { a with held := none }
    else { a with queue := Machine.removeFirst p a.queue }
  | none => { a with queue := Machine.removeFirst p a.queue }

/-- The value of AERR (R239). -/
def Aerr.word (a : Aerr) : Word :=
  a.held.getD 0 ||| BitVec.ofNat 64 (a.held.isSome.toNat * 2 ^ 45 + (!a.queue.isEmpty).toNat * 2 ^ 44 +
    a.ate.toNat * 2 ^ 43 + a.inh.toNat * 2 ^ 42)

/-- How many reports the hart has met, for the causes of idle (R301). -/
def Aerr.count (a : Aerr) : Nat := a.all.length + a.lost

/-- Deliver a report to the hart with a unique number (R240): to its AERR, to event 0x05, and to AERRFIRST. A hart that
has ended leaves its launch with an error outstanding. -/
def State.deliver (s : State) (uid : Nat) (launch : Nat × Nat) (r : Word) : State :=
  let isSaved := s.dev.saved.any (fun a => a.hart.uid == uid)
  let gone := (s.byUid uid).isNone
  let s := s.mapUid uid (fun h => { h with aerr := h.aerr.add isSaved r })
  let d := s.dev.mapLaunch launch (fun l =>
    { l with aerrFirst := if l.aerrFirst = 0 then r else l.aerrFirst, asyncLeft := l.asyncLeft || gone })
  let v := ((d.launch launch).map (·.record.vmid)).getD 0
  { s with dev := d.postEvent v 0x05 launch.1 launch.2 r }

end Sys2Proof.Machine
end

