-- ==== Sys2Proof/Machine/Strip.lean ====
section
/-! DEFINITION. What a hart's accesses do: reading bytes with forwarding from the hart's own buffered stores (R188, R191),
buffering stores, atomic read-modify-writes (R162, R163), and closing a strip (R187, R190). -/

namespace Sys2Proof.Machine

/-! ### Why an instruction stops short -/

/-- An instruction does not complete now: it traps, or it waits, with the bytes of other nodes it needs read; `hold` keeps what it has read
so far. -/
inductive Stop where
  | trap (t : Trap)
  | wait (w : Wait) (need : List (Nat × Nat))
  | hold (need : List (Nat × Nat)) (got : List Landed)
deriving DecidableEq, Repr

/-- An illegal-operand trap. -/
def illegalOperand : Stop := .trap { cause := 0x02 }
/-- An illegal-instruction trap. -/
def illegalInstr : Stop := .trap { cause := 0x01 }

/-- The trap of a failed access at a virtual address (R224, R228). -/
def Failure.trap (f : Failure) (va : Addr) (elem lane : Option Nat) : Stop :=
  .trap { cause := f.cause, kind := f.kind, tval := BitVec.ofNat 64 va, elem := elem, lane := lane }

/-- Insist on a condition. -/
def require (c : Bool) (e : Stop) : Except Stop Unit := if c then .ok () else .error e

/-! ### Reading -/

/-- What one place holds for a reader that sees no buffered store: a byte, a failure, or nothing yet. -/
inductive Seen where
  | byte (b : Byte)
  | fails (f : Failure)
  | missing (pa : Nat)
deriving DecidableEq, Repr

/-- What has come back for a byte of another node (R20, R22). -/
def landedByte (l : List Landed) (pa : Nat) : Seen :=
  match firstSome (fun x => match x with
    | .byte p b => if p = pa then some (Seen.byte b) else none
    | .failed p st => if p / 64 = pa / 64 then
        some (.fails (if st = 1 then accessError else if st = 2 then poisonedMemory else linkFailure)) else none
    | _ => none) l with
  | some r => r
  | none => .missing pa

/-- The byte at a place, from memory (R185, R243). -/
def State.seePlace (s : State) : Place → Seen
  | .loc off =>
    if s.brick.locpoison.contains (off / 64) then .fails ⟨0x12, 3⟩ else .byte (Memory.read s.brick.locmem off)
  | .phys pa =>
    if s.dev.own pa then
      if s.dev.poisoned (offsetOf pa) then .fails poisonedMemory
      else .byte (Memory.read s.dev.mem (offsetOf pa))
    else landedByte s.hart.landed pa

/-- The byte a store writes at a place; an update of an atomic unit writes none of its own. -/
def BufStore.byteAt (st : BufStore) (p : Place) : Option Byte :=
  if !(st.op == .write) then none
  else firstSome (fun (x : Place × Byte) => if x.1 = p then some x.2 else none) (st.place.zip st.data)

/-- The byte at a place, forwarded from the newest of the given stores that writes it; the stores stand newest first. -/
def State.see (s : State) (fwd : List BufStore) (p : Place) : Seen :=
  match firstSome (fun st => st.byteAt p) fwd with
  | some b => .byte b
  | none => s.seePlace p

/-- The failure that an access meets, among those of its bytes with their offsets: 0x08 before 0x09 before 0x12 (R225), at the
first such byte. -/
def chooseFailure (l : List (Nat × Failure)) : Option (Nat × Failure) :=
  match l.find? (fun x => x.2.cause == 0x02 || x.2.cause == 0x08) with
  | some x => some x
  | none => match l.find? (fun x => x.2.cause == 0x09) with
    | some x => some x
    | none => l.head?

/-- The bytes at some places, or the failure that one of them meets, or the addresses that must be read elsewhere. -/
def collect (l : List Seen) (va : Addr) (elem lane : Option Nat) : Except Stop (List Byte) :=
  match chooseFailure (l.zipIdx.filterMap (fun x => match x.1 with | Seen.fails f => some (x.2, f) | _ => none)) with
  | some (j, f) => .error (f.trap ((va + j) % 2 ^ 64) elem lane)
  | none =>
    let need := l.filterMap (fun x => match x with | Seen.missing pa => some (pa, 1) | _ => none)
    if need.isEmpty then .ok (l.filterMap (fun x => match x with | Seen.byte b => some b | _ => none))
    else .error (.wait .memory need)

/-- The offsets of this device's memory among some places. -/
def Device.offsets (d : Device) (ps : List Place) : List Nat :=
  ps.filterMap (fun p => match p with
    | .phys pa => if d.own pa then some (offsetOf pa) else none
    | .loc _ => none)

/-- The places of an access, whether it touches an HS page, and the state with the translations kept; or the trap of the access
at its failing byte (R225, R228, R281, R329). What it reads meets the errors there (R15). -/
def State.access (s : State) (va n : Nat) (p : Purpose) (elem lane : Option Nat) :
    Except Stop (List Place × Bool × State) :=
  match s.places va n p lane with
  | .ok (ps, hs, s) => .ok (ps, hs, if p = .write then s else s.mapDev (fun d => d.meet (d.offsets ps)))
  | .error f =>
    let bad := (List.range n).filterMap (fun j => match s.places ((va + j) % 2 ^ 64) 1 p lane with
      | .error g => some (j, g)
      | .ok _ => none)
    if f.cause = 0x02 then .error (f.trap va elem lane)
    else match chooseFailure bad with
      | some (j, g) => .error (g.trap ((va + j) % 2 ^ 64) elem lane)
      | none => .error (f.trap va elem lane)

/-- The stores of ended strips that have not closed, newest first: every load of the hart sees them (R191). -/
def Hart.earlierStores (h : Hart) : List BufStore := (h.ended.flatMap (·.strip.stores)).reverse

/-- Choose, for each element of a same-strip vector store without so that a scalar load overlaps, whether the load sees it
(R191): the stores it sees, newest first. -/
def chooseSoft (s : State) (ps : List Place) : List BufStore → List BufStore → List BufStore × State
  | [], acc => (acc, s)
  | st :: rest, acc =>
    if st.soft && st.place.any ps.contains then
      let (n, s') := s.draw
      chooseSoft s' ps rest (if Config.forwards n then st :: acc else acc)
    else chooseSoft s ps rest (st :: acc)

/-- Bytes for a scalar access of the hart at a virtual address, on path S (R280 to R282): translated, forwarded, read. -/
def State.loadScalar (s : State) (va n : Nat) : Except Stop (List Byte × State) :=
  match s.access va n .read none none with
  | .error e => .error e
  | .ok (ps, _, s1) =>
    let (own, s2) := chooseSoft s1 ps s1.hart.strip.stores []
    match collect (ps.map (s2.see (own ++ s2.hart.earlierStores))) va none none with
    | .ok l => .ok (l, s2)
    | .error e => .error e

/-- Bytes for an element of a vector load (R191): only the stores of earlier strips are forwarded. -/
def State.loadVector (s : State) (ps : List Place) (va : Addr) (elem lane : Option Nat) : Except Stop (List Byte) :=
  collect (ps.map (s.see s.hart.earlierStores)) va elem lane

/-! ### Buffering stores (R188) -/

/-- Pieces of up to 56 contiguous bytes in the 64-byte granules that `n` bytes from `va` touch. -/
def entryCount (va n : Nat) : Nat :=
  if n = 0 then 0
  else
    let first := va / 64
    let last := (va + n - 1) / 64
    (List.range (last - first + 1)).foldl (fun acc i =>
      let lo := max va (64 * (first + i))
      let hi := min (va + n) (64 * (first + i) + 64)
      acc + divUp (hi - lo) 56) 0

/-- Add stores of one instruction to the open strip, with the entries they take. -/
def Strip.add (st : Strip) (l : List BufStore) (n : Nat) : Strip :=
  { st with stores := st.stores ++ l.map (fun b => { b with ins := st.count }), used := st.used + n,
            count := st.count + 1 }

/-! ### Atomic read-modify-writes (R162, R283) -/

/-- The new value of an atomic with the OP codes of R20, on `w` bytes, with the flags of an FP add. -/
def atomicNew (op w rm old b cmp : Nat) : Nat × BitVec 5 :=
  let n := 8 * w
  let sOld := toSigned n old
  let sB := toSigned n b
  match op with
  | 0 => ((old + b) % 2 ^ n, 0)
  | 1 => (b, 0)
  | 2 => (if old = cmp then b else old, 0)
  | 3 => (if sB < sOld then b else old, 0)
  | 4 => (if b < old then b else old, 0)
  | 5 => (if sOld < sB then b else old, 0)
  | 6 => (if old < b then b else old, 0)
  | 7 => (Nat.land old b, 0)
  | 8 => (Nat.lor old b, 0)
  | 9 => (Nat.xor old b, 0)
  | _ => fpAdd (if w = 4 then .fp32 else .fp64) rm old b

/-- An atomic on this device's memory: STATUS as in R20, the flags, the value found. A poisoned target is not performed
(R244), and errors of its granule are met (R15). -/
def Device.atomic (d : Device) (off op w rm b cmp : Nat) : Nat × BitVec 5 × Nat × Device :=
  if !(d.populated off) then (1, 0, 0, d)
  else if d.poisoned off then (2, 0, 0, d.meet [off])
  else
    let d := d.meet [off]
    let old := ofLe (Memory.readBytes d.mem off w)
    let (v, f) := atomicNew op w rm old b cmp
    (0, f, old, { d with mem := Memory.writeBytes d.mem off (leBytes w v) })

/-- An atomic on local memory, performed by the brick (R162). -/
def State.localAtomic (s : State) (off op w rm b cmp : Nat) : Nat × BitVec 5 × Nat × State :=
  if s.brick.locpoison.contains (off / 64) then (2, 0, 0, s)
  else
    let old := ofLe (Memory.readBytes s.brick.locmem off w)
    let (v, f) := atomicNew op w rm old b cmp
    (0, f, old, s.mapBrick (fun k => { k with locmem := Memory.writeBytes k.locmem off (leBytes w v) }))

/-! ### Closing a strip (R190) -/

/-- A part of a strip's stores or updates has failed: it is kept until the strip's report is made (R238). -/
def State.failStore (s : State) (launch : Nat × Nat) (f : FailedStore) : State :=
  s.mapDev (fun d => d.mapLaunch launch (fun l => { l with failures := l.failures ++ [f] }))

/-- Whether stores of a strip of a hart are still to perform. -/
def State.unclosed (s : State) (uid serial : Nat) : Bool :=
  ((s.byUid uid).toList ++ s.dev.closing.filter (fun h => h.uid == uid)).any (fun h =>
    h.ended.any (fun e => e.strip.serial == serial && !e.strip.stores.isEmpty))

/-- The reports of a strip's failed stores, stream output or updates are made once nothing of them is on its way (R238): one for
a strip with its first failing address, and for updates one for each kind of failure with the lowest (R244, R335). -/
def State.settleReports (s : State) (launch : Nat × Nat) (uid serial source : Nat) : State :=
  let mine := fun (f : FailedStore) => f.uid == uid && f.strip == serial && f.source == source
  match s.dev.launch launch with
  | none => s
  | some l =>
    let fs := l.failures.filter mine
    if fs.isEmpty ∨ s.unclosed uid serial ∨
       s.dev.outstanding.any (fun o => o.owner == .hart uid && o.strip == serial && o.source == source) then s
    else
      let s := s.mapDev (fun d => d.mapLaunch launch (fun l => { l with
        failures := l.failures.filter (fun f => !mine f), reported := (uid, serial, source) :: l.reported }))
      if source = 0x05 then
        [1, 3, 4].foldl (fun s st =>
          match (fs.filter (fun f => f.status == st)).map (·.va) with
          | [] => s
          | va :: rest => s.deliver uid launch (report source st 0 (rest.foldl min va))) s
      else if l.reported.contains (uid, serial, source) then s
      else match fs with
        | [] => s
        | f :: _ => s.deliver uid launch (report source f.status 0 f.va)

/-- The bytes of stores for other nodes, each with its physical and its virtual address. -/
def awayBytes (d : Device) (l : List BufStore) : List (Nat × Addr × Byte) :=
  l.flatMap (fun st => (st.place.zip st.data).zipIdx.filterMap (fun x => match x.1.1 with
    | .loc _ => none
    | .phys pa => if d.own pa then none else some (pa, (st.va + x.2) % 2 ^ 64, x.1.2)))

/-- Bytes in runs of consecutive physical and virtual addresses, which one message carries; `cut` says that a run ends with its 256-byte
granule (R160). -/
def runsOf (cut : Bool) : List (Nat × Addr × Byte) → List (Nat × Addr × List Byte)
  | [] => []
  | (pa, va, b) :: rest =>
    match runsOf cut rest with
    | (pa', va', l) :: more =>
      if pa + 1 = pa' ∧ va + 1 = va' ∧ !(cut && pa' % 256 == 0) then (pa, va, b :: l) :: more
      else (pa, va, [b]) :: (pa', va', l) :: more
    | [] => [(pa, va, [b])]

/-- A run of bytes whose first message ends at a multiple of `w`, so that no naturally aligned element of `w` bytes is cut between two flits
(R17, R186). -/
def evenRun (w : Nat) (m : Nat × Addr × List Byte) : List (Nat × Addr × List Byte) :=
  let n := 224 - m.1 % w
  if m.1 % w = 0 ∨ m.2.2.length ≤ n then [m] else [(m.1, m.2.1, m.2.2.take n), (m.1 + n, m.2.1 + n, m.2.2.drop n)]

/-- Whether a store is a naturally aligned element (R186). -/
def BufStore.natural (st : BufStore) : Bool := match st.place.head? with
  | some (.phys pa) => pa % st.data.length == 0
  | _ => false

/-- The messages that the stores of one instruction send to other nodes (R17, R160). Elements that perform in order go in that order; of
others the bytes go by address, with the highest element's where several write one (R161). Each segment is a message of its own, and no naturally
aligned element is cut (R186). -/
def messagesOf (d : Device) (l : List BufStore) : List (Nat × Addr × List Byte) :=
  let bytes := awayBytes d l
  if l.any (fun b => 8 < b.data.length) then l.flatMap (fun b => runsOf false (awayBytes d [b]))
  else
    let runs := runsOf (l.any (·.idx)) (if l.any (·.eo) then bytes else bytes.foldl (fun acc x => insertKey x.1 x.2 acc) [])
    match l.find? (·.natural) with
    | some b => runs.flatMap (evenRun b.data.length)
    | none => runs

/-- Write a buffered store's bytes to this device and to local memory. -/
def State.writeHere (s : State) (st : BufStore) : State :=
  (st.place.zip st.data).foldl (fun s x => match x.1 with
    | .loc off => s.mapBrick (fun k => { k with locmem := Memory.write k.locmem off x.2 })
    | .phys pa => if s.dev.own pa then
        s.mapDev (fun d => { d with mem := Memory.write d.mem (offsetOf pa) x.2 }) else s) s

/-- Whether a store is of a vector instruction with so (R192). -/
def BufStore.so (st : BufStore) : Bool := st.path == .v && !st.soft

/-- Send the bytes of stores of one instruction to other nodes in class 0 (R184, R405). A message that finds no port is a link failure,
reported with SOURCE 0x04 or 0x03 (R238). -/
def State.sendStores (s : State) (serial : Nat) (l : List BufStore) : State :=
  let path := ((l.head?).map (·.path)).getD .s
  let src := if path = .q then 0x03 else 0x04
  (messagesOf s.dev l).foldl (fun s m =>
    let o : Outstanding := { owner := .hart s.hart.uid, kind := 2, pa := m.1, len := m.2.2.length, va := m.2.1, source := src,
                             strip := serial, path := path, so := l.any (·.so), eo := l.any (·.eo), launch := s.hart.launch }
    let (ok, d) := s.dev.remoteWrite o 0 s.hart.vmid s.hart.ctx m.2.2
    let s := { s with dev := d }
    if ok then s
    else s.failStore s.hart.launch { uid := s.hart.uid, strip := serial, source := src, status := 0x04, va := m.2.1 }) s

/-- Whether the stores of one instruction form one scheduled-class message (R405): vector stores whose bytes all lie in
one other node, within 4 KiB. -/
def scheduledTarget (d : Device) (l : List BufStore) : Option Nat :=
  let pas := l.flatMap (fun st => st.place.map (fun p => match p with | .loc _ => none | .phys pa => some pa))
  match pas.mapM id with
  | none => none
  | some ps =>
    match ps with
    | [] => none
    | p :: _ =>
      let node := nodeOf p % 4096
      let lo := ps.foldl min p
      let hi := ps.foldl max p
      if l.all (fun st => st.path == .v && st.op == .write && !st.part) && node != d.node &&
         ps.all (fun q => nodeOf q % 4096 == node) && hi - lo < 4096 then some node else none

/-- The message that the stores of one instruction are (R405), when their launch holds reserved slots. -/
def State.messageTo (s : State) (l : List BufStore) : Option Nat :=
  if s.dev.slots.any (fun x => x.2.2.1 == s.hart.queue && x.2.2.2 == s.hart.seq) then scheduledTarget s.dev l else none

/-- The port whose slots carry the stores of one instruction, with their node (R405). -/
def State.slotFor (s : State) (l : List BufStore) : Option (Nat × Nat) :=
  match s.messageTo l with
  | none => none
  | some node => (s.dev.slotPort s.hart.launch node).map (fun p => (node, p))

/-- Hand the stores of one instruction over: a scheduled message waits for its slot on a direct port, or is sent in
class 0 and counted in SCHDOWN (R28, R405); other stores go in class 0. -/
def State.sendGroup (s : State) (serial : Nat) (l : List BufStore) : State :=
  match s.slotFor l with
  | some (node, p) =>
    let fl := (messagesOf s.dev l).flatMap (fun m => (split224 m.2.2).map (fun piece =>
      (m.2.1 + piece.1, { cls := 1, kind := 2, dst := node, src := s.dev.node, vmid := s.hart.vmid, ctx := s.hart.ctx,
                          pa := m.1 + piece.1, len := piece.2.length - 1, payload := padTo 224 piece.2 : Flit })))
    s.mapDev (fun d => { d with slotQueue := d.slotQueue ++
      [{ port := p, uid := s.hart.uid, strip := serial, so := l.any (·.so), launch := s.hart.launch, flits := fl, since := d.time.dtime.toNat }] })
  | none =>
    let s := if (s.messageTo l).isSome then s.mapDev (fun d => d.mapLaunch s.hart.launch (fun x => { x with schdown := x.schdown + 1 }))
      else s
    s.sendStores serial l

/-- One scatter-add update (R163), with its engine flags merged into FSTAT alone (R219). A failure is kept for the report of
its strip (R238, R244). -/
def State.update (serial : Nat) (s : State) (st : BufStore) : State :=
  let w := st.data.length
  let (op, rm) := match st.op with
    | .addFp rm => (10, rm)
    | _ => (0, 0)
  let fail := fun (s : State) (status : Nat) =>
    s.failStore s.hart.launch { uid := s.hart.uid, strip := serial, source := 0x05, status := status, va := st.va }
  match st.place with
  | .loc off :: _ =>
    let (status, f, _, s) := s.localAtomic off op w rm (ofLe st.data) 0
    let s := s.mapHart (fun h => { h with fstat := h.fstat ||| f })
    if status = 0 then s else fail s 0x01
  | .phys pa :: _ =>
    if s.dev.own pa then
      let (status, f, _, d) := s.dev.atomic (offsetOf pa) op w rm (ofLe st.data) 0
      let s := { s with dev := d }
      let s := s.mapHart (fun h => { h with fstat := h.fstat ||| f })
      if status = 0 then s else fail s (if status = 2 then 0x01 else 0x03)
    else
      let pay := leBytes 1 op ++ leBytes 1 w ++ leBytes 1 3 ++ leBytes 1 rm ++ zeros 4 ++
        padTo 8 st.data ++ zeros 8
      let f : Flit := { cls := 0, kind := 4, dst := nodeOf pa % 4096, vmid := s.hart.vmid, ctx := s.hart.ctx, pa := pa,
                        len := 23, payload := padTo 224 pay }
      match s.dev.route f.cls f.dst with
      | some p => s.mapDev (fun d => { d.transmit p f with outstanding := d.outstanding ++
          [{ owner := .hart s.hart.uid, kind := 4, pa := pa, len := w, va := st.va, elem := st.elem, source := 0x05,
             strip := serial, path := .a, eo := st.eo, port := p, launch := s.hart.launch }] })
      | none => fail s 0x04
  | [] => s

/-- The poisoned granules of this device that the stores of one instruction cover whole lose their poison (R244); errors of the granules
they cover in part are met (R15). -/
def clearCovered (d : Device) (l : List BufStore) : Device :=
  let offs := l.flatMap (fun st => d.offsets st.place)
  let covers := fun g => (List.range 64).all (fun i => offs.contains (64 * g + i))
  let gs := (d.poison ++ d.latent.map (·.1)).filter covers
  (gs.foldl Device.clearPoison d).meet offs

/-- The same for local memory. -/
def clearCoveredLocal (k : Brick) (l : List BufStore) : Brick :=
  let offs := l.flatMap (fun st => st.place.filterMap (fun p => match p with
    | .loc o => some o
    | .phys _ => none))
  { k with locpoison := k.locpoison.filter (fun g => !((List.range 64).all (fun i => offs.contains (64 * g + i)))) }

/-- What the stores of one instruction write on this device and in local memory. -/
def State.writeAll (s : State) (l : List BufStore) : State :=
  ((l.foldl State.writeHere s).mapDev (fun d => clearCovered d l)).mapBrick (fun k => clearCoveredLocal k l)

/-- Stores of one store instruction of a strip perform, or are sent (R190). -/
def State.performGroup (s : State) (serial : Nat) (l : List BufStore) : State :=
  let writes := l.filter (fun st => st.op == .write)
  (l.filter (fun st => !(st.op == .write))).foldl (State.update serial) ((s.writeAll writes).sendGroup serial writes)

/-! ### What a store waits for (R161, R190, R192, R193) -/

/-- The writes and updates of a hart that are on their way to other nodes, or wait for a slot. -/
def Device.onWay (d : Device) (uid : Nat) : List Outstanding :=
  d.outstanding.filter (fun o => o.owner == .hart uid && (o.kind == 2 || o.kind == 4)) ++
  (d.slotQueue.filter (fun m => m.uid == uid)).flatMap (fun m => m.flits.map (fun x =>
    { owner := .hart uid, kind := 2, pa := x.2.pa, len := x.2.len + 1, va := x.1, cls := 1, strip := m.strip, path := .v, so := m.so }))

/-- Where a store's bytes go: to this device or its local memory (`none`), or to other nodes. -/
def BufStore.nodes (st : BufStore) (d : Device) : List (Option Nat) :=
  distinct (st.place.map (fun p => match p with
    | .loc _ => none
    | .phys pa => if d.own pa then none else some (nodeOf pa % 4096)))

/-- The node of an access to another one. -/
def Outstanding.node (o : Outstanding) : Nat := nodeOf o.pa % 4096

/-- Whether a store is sent behind an access in its class to its node, and so performs after it (R24). -/
def BufStore.behind (st : BufStore) (d : Device) (cls : Nat) (o : Outstanding) : Bool :=
  st.nodes d == [some o.node] && o.cls == cls

/-- Whether a store of a strip may not perform before an access on its way has: scalar stores of a strip go in order (R190), a scalar
store follows vector stores with so (R192), an update every earlier access, every later store an update (R193), and a store to
a node those of earlier strips and those of its own bytes, in another class (R161, R190). -/
def BufStore.mustFollow (st : BufStore) (d : Device) (kept : Bool) (serial cls : Nat) (o : Outstanding) : Bool :=
  let earlier := o.strip != serial
  !(st.behind d cls o) &&
  ((st.path == .s && (o.so || (o.path == .s && o.kind == 2 && (kept || !earlier)))) ||
   (earlier && !(st.op == .write) && o.path != .q) ||
   (earlier && o.kind == 4 && st.path != .q) ||
   ((st.nodes d).contains (some o.node) && o.cls != cls && cls == 0 &&
     (earlier || st.place.any (fun p => match p with
       | .phys pa => o.pa ≤ pa && pa < o.pa + o.len
       | .loc _ => false))))

/-- Whether another node's atomic group holds an address among some places (R162). -/
def State.groupHolds (s : State) (ps : List Place) : Bool :=
  ps.any (fun p => match p with
    | .phys pa => s.dev.own pa && s.dev.groupsHeld.any (fun g => g.2 == pa)
    | .loc _ => false)

/-- Whether a store of a strip must wait: for an access on its way, or as an update for an atomic group that holds its address (R162). -/
def State.storeWaits (s : State) (kept : Bool) (serial cls : Nat) (st : BufStore) : Bool :=
  (s.dev.onWay s.hart.uid).any (st.mustFollow s.dev kept serial cls) ||
  (!(st.op == .write) && s.groupHolds st.place)

/-- The first elements of an instruction that go to one place together. -/
def sameTarget (d : Device) : List BufStore → List BufStore × List BufStore
  | [] => ([], [])
  | st :: rest =>
    if (st.nodes d).length = 1 then
      (st :: rest.takeWhile (fun b => b.nodes d == st.nodes d), rest.dropWhile (fun b => b.nodes d == st.nodes d))
    else ([st], rest)

/-- Elements perform in ascending order (R192): those that go to one place together, and the next ones once these have performed. What is left
waits. The first argument bounds the parts. -/
def State.performInOrder (kept : Bool) (serial : Nat) : Nat → State → List BufStore → List BufStore × State
  | 0, s, l => (l, s)
  | k + 1, s, l =>
    let (now, later) := if (s.slotFor l).isSome then (l, []) else sameTarget s.dev l
    let cls := if (s.slotFor l).isSome then 1 else 0
    let blocked := now.any (fun st => s.storeWaits kept serial cls st ||
      (s.dev.onWay s.hart.uid).any (fun o => o.eo && o.strip == serial && !(st.behind s.dev cls o)))
    let cut := fun (l : List BufStore) => if later.isEmpty then l else l.map (fun b => { b with part := true })
    if now.isEmpty || blocked then (l, s)
    else State.performInOrder kept serial k (s.performGroup serial (cut now)) (cut later)

/-- The stores of one instruction perform as far as they may: those left, and the state. -/
def State.performSome (s : State) (kept : Bool) (serial : Nat) (l : List BufStore) : List BufStore × State :=
  if l.any (·.eo) then State.performInOrder kept serial l.length s l
  else if l.any (s.storeWaits kept serial (if (s.slotFor l).isSome then 1 else 0)) then (l, s)
  else ([], s.performGroup serial l)

/-- The reports of a strip's stores that have failed already. -/
def State.settleStrip (s : State) (serial : Nat) : State :=
  [0x03, 0x04, 0x05].foldl (fun s src => s.settleReports s.hart.launch s.hart.uid serial src) s

/-- The stores of a strip perform, instruction by instruction in program order, up to one that must wait (R190 allows any order within a
strip that keeps R161 and R192; DESIGN CHOICE, log 8): those left, and the state. -/
def State.performStores (s : State) (kept : Bool) (st : Strip) : List BufStore × State :=
  (List.range st.count).foldl (fun (acc : List BufStore × State) i =>
    let l := st.stores.filter (fun b => b.ins == i)
    if l.isEmpty then acc
    else if acc.1.isEmpty then acc.2.performSome kept st.serial l
    else (acc.1 ++ l, acc.2)) ([], s)

/-- The transfer identifier after `n`; 0 is never issued (R171). -/
def nextId (n : BitVec 32) : BitVec 32 := if n = 0xFFFFFFFF then 1 else n + 1

/-- Identifiers issued after `n` up to `m` on a channel; 0 is never issued. -/
def idsBetween (n m : BitVec 32) : Nat := (m - n).toNat - (if m.toNat < n.toNat then 1 else 0)

/-- Commands of a channel that are issued and not complete (R171). -/
def Hart.openCommands (h : Hart) (c : Nat) : Nat :=
  idsBetween (h.done.getD c 0) (h.r.issued.getD c 0) - (h.finished.filter (fun x => x.1 == c)).length

/-- DONE advances over the unbroken run of finished identifiers (R171). The first argument bounds the run. -/
def advanceDone (chan : Nat) : Nat → Hart → Hart
  | 0, h => h
  | k + 1, h =>
    let n := nextId (h.done.getD chan 0)
    if h.finished.contains (chan, n) then
      advanceDone chan k { h with done := h.done.setIfInBounds chan n,
                                  finished := h.finished.filter (fun x => !(x == (chan, n))) }
    else h

/-- A command of a channel has completed (R171). -/
def Hart.complete (h : Hart) (chan : Nat) (id : BitVec 32) : Hart :=
  let h := { h with finished := (chan, id) :: h.finished }
  advanceDone chan h.finished.length h

/-- A command of a hart's channel has completed, wherever the hart is. -/
def State.completeId (s : State) (uid chan : Nat) (id : BitVec 32) : State :=
  s.mapUid uid (fun h => h.complete chan id)

/-- Hand an engine command to its engine (R170, R177, R180). -/
def State.handOver (s : State) (c : Command) : State :=
  let co := courseOf s.hart.brick
  let x := s.dev.course co
  match c with
  | .copy chan id b => s.mapDev (fun d => d.setCourse co { x with copies := x.copies ++
      [{ uid := s.hart.uid, brick := s.hart.brick, ctx := s.hart.ctx, vmid := s.hart.vmid, launch := s.hart.launch,
         chan := chan, id := id, block := b }] })
  | .merge chan id m => s.mapDev (fun d => d.setCourse co { x with merges := x.merges ++
      [{ uid := s.hart.uid, brick := s.hart.brick, ctx := s.hart.ctx, vmid := s.hart.vmid, launch := s.hart.launch,
         chan := chan, id := id, cmd := m }] })
  | .mcast chan id b dests =>
    if dests.isEmpty then s.mapHart (fun h => h.complete chan id)
    else s.mapDev (fun d => d.setCourse co { x with mcasts := x.mcasts ++ dests.map (fun g =>
      { launch := s.hart.launch, sender := s.hart.uid, receiver := g.1, stream := g.2, chan := chan, id := id, buf := b }) })

/-- The oldest ended strip of the hart in focus closes as far as it may: its stores perform, then its engine commands are handed over in
program order (R190). While a store waits, so does the strip. -/
def State.closeOldest (s : State) : State :=
  match s.hart.ended with
  | [] => s
  | e :: rest =>
    let (left, s) := s.performStores e.kept e.strip
    if left.isEmpty then
      e.strip.cmds.foldl State.handOver ((s.mapHart (fun h => { h with ended := rest })).settleStrip e.strip.serial)
    else s.mapHart (fun h => { h with ended := { e with strip := { e.strip with stores := left } } :: rest })

/-- Close every ended strip that may close, oldest first. -/
def State.drain (s : State) : State :=
  s.hart.ended.foldl (fun s _ => s.closeOldest) s

/-- Nothing of the hart on paths S, V and A is still to perform (R193): no ended strip, and nothing on its way but the atomic in hand. -/
def State.allPerformed (s : State) : Bool :=
  s.hart.ended.isEmpty && (s.dev.onWay s.hart.uid).all (fun o => o.path == .q || (o.kind == 4 && o.source != 0x05))

end Sys2Proof.Machine
end

