-- ==== Sys2Proof/Machine/Pool.lean ====
section
/-! DEFINITION. The pool of slot parts of each lane group, from which physical registers are made (R110 to R113). -/

namespace Sys2Proof.Machine

/-- Change the hart's registers and those of its checkpoints. -/
def Hart.mapCopies (h : Hart) (f : Regs → Regs) : Hart :=
  { h with r := f h.r, ckpt := f h.ckpt, ended := h.ended.map (fun e => { e with ckpt := f e.ckpt }) }

/-- The slot parts that a set of mappings refers to. -/
def Regs.parts (r : Regs) : List (Nat × Nat) := r.phys.toList.flatten

/-- The slot parts that an instruction in flight refers to (R112). -/
def InFlight.parts (r : InFlight) : List (Nat × Nat) := r.holds.flatten ++ r.held.flatMap (fun g => g.phys.flatten)

/-- The slot parts that a hart refers to: by its mappings, its checkpoints', its instructions in flight, and the buffers of its multicast
streams (R112, R176). -/
def Hart.parts (h : Hart) : List (Nat × Nat) :=
  h.r.parts ++ h.ckpt.parts ++ h.ended.flatMap (fun e => e.ckpt.parts) ++
  (h.inflight ++ h.resume.toList).flatMap InFlight.parts ++ h.landing.flatMap (·.2) ++ h.buffers.flatMap (·.2.phys) ++
  (match h.fork with
   | .ended _ _ _ x => x.parts
   | .rejoin _ x => x.parts
   | _ => [])

/-- The slot parts that a reuse entry refers to (R112). -/
def ReuseEntry.parts (e : ReuseEntry) : List (Nat × Nat) := (e.result :: e.held).flatMap (fun g => g.phys.flatten)

/-- The parts of a lane group that are live or withdrawn, as bits (R112, R245). -/
def State.usedParts (s : State) (b lg : Nat) : Nat :=
  let k := s.dev.brick b
  ((s.harts.filter (fun h => h.brick == b)).flatMap Hart.parts ++ k.reuse.flatMap ReuseEntry.parts ++ k.withdrawn).foldl
    (fun m p => if p.1 = lg then m.lor (2 ^ p.2) else m) 0

/-- How many parts of a lane group are on its free list. -/
def State.freeParts (s : State) (b lg : Nat) : Nat := 512 - onesCount 512 (s.usedParts b lg)

/-- One physical register: the lowest-numbered free part of each lane group, given the used parts of each (R110). -/
def allocOne : List (Nat × Nat) → Phys × List (Nat × Nat)
  | [] => ([], [])
  | (lg, used) :: rest =>
    let (p, rest) := allocOne rest
    match (List.range 512).find? (fun n => !(bit used n)) with
    | some n => ((lg, n) :: p, (lg, used.lor (2 ^ n)) :: rest)
    | none => (p, (lg, used) :: rest)

/-- Physical registers, one after another. -/
def allocMany : Nat → List (Nat × Nat) → List Phys
  | 0, _ => []
  | n + 1, used =>
    let (p, used) := allocOne used
    p :: allocMany n used

/-- `n` new physical registers on the lane groups of the hart in focus (R110). -/
def State.allocate (s : State) (n : Nat) : List Phys :=
  allocMany n (s.hart.lgs.map (fun lg => (lg, s.usedParts s.hart.brick lg)))

/-- Map registers from `v` on to physical registers (R111). -/
def Regs.mapTo (r : Regs) (v : Nat) (l : List Phys) : Regs :=
  { r with phys := l.zipIdx.foldl (fun ph x => ph.setIfInBounds (v + x.2) x.1) r.phys }

/-- Evict reuse entries on a lane group, the least recently hit or made first, until 32 of its parts are free (R113). The first argument
bounds them. -/
def State.relieveLane (b lg : Nat) : Nat → State → State
  | 0, s => s
  | n + 1, s =>
    if 32 ≤ s.freeParts b lg then s
    else State.relieveLane b lg n (s.mapDev (fun d =>
      let k := d.brick b
      d.setBrick b { k with reuse := (removeFirst (fun e => e.key.lgset.getLsbD lg) k.reuse.reverse).reverse }))

/-- Evict what must go on every lane group of a brick (R113). -/
def State.relieve (s : State) (b : Nat) : State :=
  (List.range 4).foldl (fun s lg => State.relieveLane b lg (s.dev.brick b).reuse.length s) s

/-- Whether every bound lane group has the parts of `n` registers free. An instruction that writes a register group waits for them (R113). -/
def State.hasParts (s : State) (n : Nat) : Bool := s.hart.lgs.all (fun lg => n ≤ s.freeParts s.hart.brick lg)

/-- Landing buffers of stream `n` are reserved (R176). -/
def State.reserve (s : State) (n k : Nat) : State :=
  let new := s.allocate k
  (s.mapHart (fun h => { h with landing := h.landing ++ new.map (fun p => (n, p)) })).relieve s.hart.brick

end Sys2Proof.Machine
end

