-- ==== Sys2Proof/Machine/Ops.lean ====
section
/-! DEFINITION. The operations that every instruction shares: registers, the end of an instruction, strip boundaries and
checkpoints (R187, R232, R233), waiting, gears (R133), barriers (R298), taking a trap (R226 to R229), returning from one
(R230), and the end of a hart (R231). -/

namespace Sys2Proof.Machine

/-! ### Registers (R276) -/

/-- An integer register; x0 reads 0. -/
def State.x (s : State) (n : Nat) : Word := if n = 0 then 0 else s.hart.r.x.getD n 0

/-- Write an integer register; a write to x0 is discarded. -/
def State.setX (s : State) (n : Nat) (v : Word) : State :=
  if n = 0 then s else s.mapRegs (fun r => { r with x := r.x.setIfInBounds n v })

/-- An FP register. -/
def State.f (s : State) (n : Nat) : Word := s.hart.r.f.getD n 0

/-- Write an FP register, all 64 bits. -/
def State.setF (s : State) (n : Nat) (v : Word) : State :=
  s.mapRegs (fun r => { r with f := r.f.setIfInBounds n v })

/-- The program counter. -/
def State.pc (s : State) : Word := s.hart.r.pc

/-- Set the program counter. -/
def State.setPc (s : State) (v : Word) : State := s.mapRegs (fun r => { r with pc := v })

/-- Go on at the next instruction. -/
def State.advance (s : State) : State := s.setPc (s.pc + 4)

/-- An instruction that may have waited completes: it waits no longer, and what came back for it is used up. -/
def State.retire (s : State) : State :=
  s.mapHart (fun h => { h with wait := .none, landed := [], r := { h.r with pc := h.r.pc + 4 } })

/-- The flags of a scalar instruction are merged into FSTAT; no FIDX register changes (R219). -/
def State.mergeFstat (s : State) (f : BitVec 5) : State := s.mapHart (fun h => { h with fstat := h.fstat ||| f })

/-! ### Waiting -/

/-- Consecutive addresses as runs of at most 4,096 bytes within a 4 KiB block, the largest read request (R20). -/
def needRuns : List (Nat × Nat) → List (Nat × Nat)
  | [] => []
  | (pa, n) :: rest =>
    match needRuns rest with
    | (pa', n') :: more =>
      if pa + n = pa' ∧ pa / 4096 = (pa' + n' - 1) / 4096 then (pa, n + n') :: more else (pa, n) :: (pa', n') :: more
    | [] => [(pa, n)]

/-- Ask another node for bytes, unless they have been asked for (R20), or a scheduled message of the hart that writes some of them has not
performed: the read follows it (R191). Without a port the access fails by link failure. -/
def State.request (s : State) (o : Outstanding) : State :=
  if s.dev.outstanding.any (fun x => x.owner == o.owner && x.kind == 0 && x.pa ≤ o.pa && o.pa + o.len ≤ x.pa + x.len) then s
  else if (s.dev.onWay s.hart.uid).any (fun x => x.cls == 1 && x.pa < o.pa + o.len && o.pa < x.pa + x.len) then s
  else
    let f : Flit := { cls := 0, kind := 0, dst := nodeOf o.pa % 4096, vmid := s.hart.vmid, ctx := s.hart.ctx, pa := o.pa,
                      len := 7, payload := padTo 224 (leBytes 4 o.len) }
    match s.dev.route f.cls f.dst with
    | some p => s.mapDev (fun d => { d.transmit p f with outstanding := d.outstanding ++ [{ o with kind := 0, port := p }] })
    | none =>
      let bad := (List.range o.len).map (fun i => Landed.failed (o.pa + i) 4)
      s.mapUid s.hart.uid (fun h => { h with landed := h.landed ++ bad })

/-- The hart waits at its instruction, and asks other nodes for some runs of bytes. -/
def State.askFor (s : State) (w : Wait) (runs : List (Nat × Nat)) : State :=
  runs.foldl (fun s r =>
    s.request { owner := .hart s.hart.uid, kind := 0, pa := r.1, len := r.2, launch := s.hart.launch })
    (s.mapHart (fun h => { h with wait := w }))

/-- The hart waits at its instruction, and asks other nodes for the bytes it needs. -/
def State.waitFor (s : State) (w : Wait) (need : List (Nat × Nat)) : State := s.askFor w (needRuns need)

/-- What the hart has asked other nodes to read comes back to nobody: its instruction is discarded, and a later one reads again (R282). -/
def State.forgetReads (s : State) : State :=
  s.mapDev (fun d => { d with outstanding := d.outstanding.map (fun o =>
    if o.owner == .hart s.hart.uid && o.kind == 0 then { o with owner := .device } else o) })

/-! ### Strips (R187, R232, R233) -/

/-- Drop the entries that satisfy `p`. -/
def Brick.dropEntries (k : Brick) (p : ReuseEntry → Bool) : Brick := { k with reuse := k.reuse.filter (fun e => !(p e)) }

/-- A mask's generation has wrapped: every entry that holds the mask's name is dropped (R117). -/
def State.dropMask (s : State) (k : Nat) : State :=
  s.mapBrick (fun b => b.dropEntries (fun e => e.key.lgset == s.hart.bound && match e.key.mask with
    | some (n, _) => n == k
    | none => false))

/-- The same for an operator slot (R117). -/
def State.dropSlot (s : State) (o : Nat) : State :=
  s.mapBrick (fun b => b.dropEntries (fun e => e.key.lgset == s.hart.bound && match e.key.slot with
    | some (n, _) => n == o
    | none => false))

/-- Drop the reuse entries of ordinary loads that the hart made in its open strip (R123). -/
def State.dropOrdinary (s : State) : State :=
  s.mapBrick (fun k => { k with reuse := k.reuse.filter (fun e =>
    !(e.kind == .ordinary s.hart.uid s.hart.serial)) })

/-- The landed buffers that reads of a mode-2 stream have used up leave at a strip boundary; until then a restart can read
them again (R168, R177). -/
def Hart.dropUsed (h : Hart) : Hart :=
  (List.range 8).foldl (fun h n => match h.r.streams.getD n none with
    | some st =>
      if st.desc.mode = 2 ∧ st.pos ≠ 0 then
        { h with
          buffers := (List.range st.pos).foldl (fun l _ => removeFirst (fun b => b.1 == n) l) h.buffers
          r := { h.r with streams := h.r.streams.setIfInBounds n (some { st with pos := 0 }) } }
      else h
    | none => h) h

/-- The strip with a serial number has ended: a bara of a later strip is none that it ran again (R298). -/
def Arrival.closed (a : Arrival) (serial : Nat) : Arrival := if a.strip ≤ serial then { a with again := false } else a

/-- The open strip ends and a new one opens whose checkpoint has the program counter `pc` (R187, R232). -/
def State.endStrip (s : State) (pc : Word) : State :=
  s.dropOrdinary.mapHart (fun h =>
    let h := h.dropUsed
    { h with
      ended := if h.strip.stores.isEmpty && h.strip.cmds.isEmpty then h.ended
        else h.ended ++ [{ strip := { h.strip with serial := h.serial }, ckpt := h.ckpt, freed := h.freed }]
      strip := {}
      freed := []
      timeout := false
      unbound := []
      arrivals := h.arrivals.map (·.closed h.serial)
      serial := h.serial + 1
      ckpt := { h.r with pc := pc } })

/-- A strip boundary before the instruction at hand (R187): every earlier strip closes. -/
def State.splitAndDrain (s : State) : State := (s.endStrip s.pc).drain

/-- The hart that a mode-2 descriptor names as its sender (R164, R338): of the same launch and course, running or saved. -/
def State.senderOf (s : State) (sender : Nat) : Option Hart :=
  let b := 16 * courseOf s.hart.brick + sender % 16
  (s.harts ++ s.dev.saved.map (·.hart)).find? (fun h => sender < 64 && h.brick == b && h.num == sender / 16 &&
    h.launch == s.hart.launch)

/-- A receiver of stream `n` joins its sender's group with four buffers, or leaves its group (R176, R340). -/
def State.joinGroup (s : State) (n : Nat) (t : StreamDesc) : State :=
  match s.senderOf t.sender with
  | some h => (s.mapDev (fun d => { d with groups := d.groups ++
      [{ sender := h.uid, receiver := s.hart.uid, stream := n, permits := 4 }] })).reserve n 4
  | none => s

/-- The place of stream `n` in a multicast group. -/
def State.memberOf (s : State) (n : Nat) : Option McMember :=
  s.dev.groups.find? (fun g => g.receiver == s.hart.uid && g.stream == n)

def State.leaveGroup (s : State) (n : Nat) : State :=
  (s.mapDev (fun d => { d with groups := d.groups.filter (fun g => !(g.receiver == s.hart.uid && g.stream == n)) })).mapHart
    (fun h => { h with landing := h.landing.filter (fun x => x.1 != n), buffers := h.buffers.filter (fun b => b.1 != n) })

/-- A mode-2 binding comes back as it stood when the open strip undid it, with its landed buffers (R341). A sender that has ended meanwhile
leaves it at its end (R178). -/
def State.rebind (s : State) (n : Nat) (u : Unbound) : State :=
  let s := s.leaveGroup n
  let s := if (s.byUid u.member.sender).isSome then
      (s.mapDev (fun d => { d with groups := d.groups ++ [u.member] })).reserve n u.member.permits
    else
      let stop := fun (r : Regs) =>
        let t := (r.streams.getD n none).map (fun t => { t with ended := true })
        { r with streams := r.streams.setIfInBounds n t }
      s.mapHart (fun h => h.mapCopies stop)
  u.buffers.foldl (fun s b =>
    let p := (s.allocate 1).headD []
    s.mapHart (fun h => { h with buffers := h.buffers ++ [(n, { b with phys := p })] })) s

/-- After a restart the hart is a receiver for exactly the mode-2 streams that are bound again (R341). -/
def State.regroup (s : State) : State :=
  let s' := (List.range 8).foldl (fun s n =>
    match s.hart.r.streams.getD n none with
    | some t =>
      if t.desc.mode = 2 ∧ !t.ended then
        (match s.hart.unbound.find? (fun u => u.member.stream == n), s.memberOf n with
         | some u, _ => s.rebind n u
         | none, none => s.joinGroup n t.desc
         | none, some _ => s)
      else if t.desc.mode = 2 then ((s.hart.unbound.find? (fun u => u.member.stream == n)).map (s.rebind n)).getD s
      else s.leaveGroup n
    | none => s.leaveGroup n) s
  s'.mapHart (fun h => { h with unbound := [] })

/-- What the stream engine holds of some streams is dropped, and what it has asked other nodes for comes back to nobody (R168,
R169, R194). -/
def State.dropFetched (s : State) (p : Nat → Bool) : State :=
  let u := s.hart.uid
  { s with
    hart := { s.hart with
      fetched := s.hart.fetched.filter (fun f => !(p f.1)), fetching := s.hart.fetching.filter (fun f => !(p f.1))
      streamLanded := s.hart.streamLanded.filter (fun f => !(p f.1)) }
    dev := { s.dev with outstanding := s.dev.outstanding.map (fun o => match o.owner with
      | .stream u' n _ => if u' = u ∧ p n then { o with owner := .device } else o
      | _ => o) } }

/-- A strip restart (R233): the strip's stores and commands are discarded, every register returns to its checkpoint value (what came
from a save area in flight stays, R419), and a mask or operator slot that was written since the checkpoint gets a new generation (R117, R127, R357). -/
def State.restart (s : State) : State :=
  let wrapped := fun (now then' : BitVec 32) => now != then' && now + 1 == 0
  let s := ((List.range 8).foldl (fun s i =>
    let s := if wrapped (s.hart.r.kgen.getD i 0) (s.hart.ckpt.kgen.getD i 0) then s.dropMask i else s
    if wrapped (s.hart.r.ogen.getD i 0) (s.hart.ckpt.ogen.getD i 0) then s.dropSlot i else s) s)
  State.regroup <| (s.dropOrdinary.forgetReads.dropFetched (fun _ => true)).mapHart (fun h =>
    let kgen := Vector.ofFn (fun i => if h.r.kgen[i] = h.ckpt.kgen[i] then h.r.kgen[i] else h.r.kgen[i] + 1)
    let ogen := Vector.ofFn (fun i => if h.r.ogen[i] = h.ckpt.ogen[i] then h.r.ogen[i] else h.r.ogen[i] + 1)
    { h with
      strip := {}
      freed := []
      inflight := h.inflight.filter (·.resumed)
      vqueue := []
      entry := none
      timeout := false
      wait := .none
      landed := []
      comparing := h.comparing.filter (fun c => h.ckpt.phys.getD c.1 [] == h.r.phys.getD c.1 [])
      arrivals := h.arrivals.map (fun a => if a.strip = h.serial then { a with again := true } else a)
      ckpt := { h.ckpt with kgen := kgen, ogen := ogen }
      r := { h.ckpt with passst := if h.inflight.any (·.resumed) then h.r.passst else {}, kgen := kgen, ogen := ogen } })

/-- The entries of the strip store buffer that are free (R188): an ended strip holds its own until it has closed. -/
def State.freeEntries (s : State) : Nat := 256 - (s.hart.strip.used + (s.hart.ended.map (·.strip.used)).foldl (· + ·) 0)

/-- Room for a store that counts `n` entries: a strip boundary comes before it when it does not fit (R188). -/
def State.makeRoom (s : State) (n : Nat) : State := if s.freeEntries < n then s.splitAndDrain else s

/-- The strip boundary that comes, when a store that counts `n` entries is dispatched, before it (R187, R188): a direct store has
one of its own. It comes before the instruction's own checks. -/
def State.boundary (s : State) (n : Nat) : State := if 256 < n then s.splitAndDrain else s.makeRoom n

/-- A store waits until earlier strips have given back the entries it counts; a direct store until they have closed (R188, R189). -/
def State.roomFor (s : State) (n : Nat) : Except Stop Unit :=
  require (if 256 < n then s.allPerformed else n ≤ s.freeEntries) (.wait .memory [])

/-! ### Gears (R133) -/

/-- The gear R133 gives a brick: 0 during a thermal hold, else the highest EFF of its running harts. -/
def State.wantedGear (s : State) (b : Nat) : Bool :=
  s.dev.thermal.hold.isNone &&
  s.harts.any (fun h => h.brick == b && !(h.run == .token) && h.gears.eff)

/-- Recompute a brick's gear: a changeover starts when the result differs and none is in progress (R133, R137). -/
def State.recomputeGear (s : State) (b : Nat) : State :=
  let k := s.dev.brick b
  if k.change.isNone && (s.wantedGear b != k.gear) then
    s.mapDev (fun d => d.setBrick b { k with change := some (s.wantedGear b) })
  else s

/-- An auto drop ends: EFF returns to REQ (R138). -/
def Gears.restoreEff (g : Gears) : Gears := { g with eff := g.req, drop := false }

/-! ### Barriers (R297, R298) -/

/-- The extents of the levels that are spatial on this device, highest-numbered last (R56). -/
def spatialLevels (ls : Vector Level 4) : List Level :=
  ls.toList.filter (fun l => l.place == 2 || l.place == 3 || l.place == 4)

/-- The harts a launch runs on this device (R56). -/
def hartCount (ls : Vector Level 4) : Nat := (spatialLevels ls).foldl (fun n l => n * l.extent) 1

/-- The index at each spatial level of hart `i` in hart order: the highest-numbered level moves fastest (R63). -/
def indexTuple : List Level → Nat → List Nat
  | [], _ => []
  | l :: rest, i =>
    let below := rest.foldl (fun n l => n * l.extent) 1
    (i / below % max l.extent 1) :: indexTuple rest i

/-- Whether two harts of a launch are members of one barrier of a scope (R297). -/
def sameBarrier (ls : Vector Level 4) (scope i j : Nat) : Bool :=
  let sp := spatialLevels ls
  (sp.zip ((indexTuple sp i).zip (indexTuple sp j))).all (fun x =>
    x.2.1 == x.2.2 || (x.1.place == 2) || (x.1.place == 3 && scope ≥ 3) || scope ≥ 4)

/-- The members on this device of the barrier that holds hart `i` (R297). -/
def barrierMembers (ls : Vector Level 4) (scope i : Nat) : List Nat :=
  (List.range (hartCount ls)).filter (sameBarrier ls scope i)

/-- The barrier of a launch with a number and scope that holds hart `i`. -/
def Device.barrier (d : Device) (l : Launch) (num scope i : Nat) : Barrier :=
  let inst := (barrierMembers l.record.levels scope i).headD 0
  (d.barriers.find? (fun b => b.queue == l.queue && b.seq == l.seq && b.num == num && b.scope == scope && b.inst == inst)).getD
    { queue := l.queue, seq := l.seq, num := num, scope := scope, inst := inst }

/-- Keep a barrier. -/
def Device.setBarrier (d : Device) (b : Barrier) : Device :=
  let same := fun (x : Barrier) => x.queue == b.queue && x.seq == b.seq && x.num == b.num && x.scope == b.scope && x.inst == b.inst
  { d with barriers := b :: d.barriers.filter (fun x => !same x) }

/-- Whether every member on this device has arrived or has ended (R298). -/
def Barrier.allHere (b : Barrier) (l : Launch) : Bool :=
  (barrierMembers l.record.levels b.scope b.inst).all (fun i => b.arrived.contains i || l.ended.contains i)

/-- The extent of a launch's spatial-device level, 1 when it has none (R56). -/
def Launch.devices (l : Launch) : Nat :=
  ((l.record.levels.toList.find? (fun x => x.place == 5)).map (·.extent)).getD 1

/-- Whether a level is placed on devices. -/
def Record.spansDevices (r : Record) : Bool := r.levels.toList.any (fun x => x.place == 5)

/-- A gang: GANG is set, or a level is spatial-device. -/
def Record.gang (r : Record) : Bool := r.flags.getLsbD 5 || r.spansDevices

/-- A barrier token to a member device of a launch's gang (R21). -/
def gangToken (l : Launch) (sub bar time count phase : Nat) : List Byte :=
  leBytes 1 sub ++ zeros 1 ++ leBytes 2 l.record.gangid ++ leBytes 2 l.record.devidx ++ leBytes 2 bar ++ leBytes 8 time ++
  leBytes 4 count ++ leBytes 4 phase ++ zeros 8

/-- Whether an arrival is still unreleased. -/
def State.unreleased (s : State) (a : Arrival) : Bool :=
  match s.dev.launch s.hart.launch with
  | some l => (s.dev.barrier l a.bar a.scope s.hart.index).phase ≤ a.phase
  | none => false

/-- The barrier that barw waits at: that of the hart's latest bara with the number (R298). -/
def Hart.latest (h : Hart) (bar : Nat) : Option Arrival := (h.arrivals.filter (fun x => x.bar == bar && !x.again)).getLast?

/-- A wait that auto gear counts ends: EFF returns to REQ (R138). -/
def State.endWait (s : State) : State :=
  if s.hart.gears.drop then (s.mapHart (fun h => { h with gears := h.gears.restoreEff })).recomputeGear s.hart.brick else s

/-- Send a barrier token to the device at an index of the gang (R72). -/
def Device.sendToken (d : Device) (l : Launch) (dev sub bar time count phase : Nat) : Device :=
  (d.send { cls := 2, kind := 0x10, dst := l.nodes.getD dev 0 % 4096, vmid := 0, ctx := 0, len := 31,
            payload := padTo 224 (gangToken l sub bar time count phase) }).2

/-- Send a barrier token to every other member device. -/
def Device.broadcast (d : Device) (l : Launch) (sub bar time count phase : Nat) : Device :=
  ((List.range l.devices).filter (· != l.record.devidx)).foldl (fun d i => d.sendToken l i sub bar time count phase) d

/-- The phase is released: the next one begins (R298), a member's EFF returns to REQ (R140), and an
idle that waits at it ends (R301). -/
def State.releaseBarrier (s : State) (b : Barrier) : State :=
  let s := s.mapDev (fun d => d.setBarrier { b with phase := b.phase + 1, arrived := [], remote := [], told := false })
  let arrived := fun (h : Hart) => h.queue == b.queue && h.seq == b.seq &&
    h.arrivals.any (fun a => a.bar == b.num && a.scope == b.scope && a.phase == b.phase) &&
    (barrierMembers h.levels b.scope b.inst).contains h.index
  let wake := fun (h : Hart) =>
    if !(arrived h) then h
    else
      let h := { h with gears := h.gears.restoreEff }
      match h.wait with
      | .idle _ _ _ => { h with wait := .none }
      | _ => h
  let s : State := { hart := wake s.hart, dev := { s.dev with parked := s.dev.parked.map wake } }
  (distinct (s.harts.map (·.brick))).foldl State.recomputeGear s

/-- A barrier whose members here have all arrived: a barrier of one device is released; a system barrier is told to the
coordinator, which releases it once every device has told (R297, R299). -/
def State.checkBarrier (s : State) (l : Launch) (b : Barrier) : State :=
  if !(b.allHere l) then s
  else if b.scope ≠ 5 ∨ l.devices = 1 then s.releaseBarrier b
  else if l.record.devidx = 0 then
    let others := (List.range l.devices).filter (· != 0)
    if others.all (fun i => b.remote.any (fun r => r.1 == i && r.2 == b.phase)) then
      (s.mapDev (fun d => d.broadcast l 0x02 b.num 0 0 b.phase)).releaseBarrier b
    else s
  else if b.told then s
  else s.mapDev (fun d => (d.setBarrier { b with told := true }).sendToken l 0 0x01 b.num 0
    (barrierMembers l.record.levels 5 0).length b.phase)

/-! ### Releasing what a hart holds, and its end (R231, R301) -/

/-- The multicasts in a hart's ended strips, not handed over yet: launch, channel and identifier. -/
def Hart.heldMcasts (h : Hart) : List ((Nat × Nat) × Nat × BitVec 32) :=
  h.ended.flatMap (fun e => e.strip.cmds.filterMap (fun c => match c with
    | .mcast chan id _ _ => some (h.launch, chan, id)
    | _ => none))

/-- The same hart with none of them. -/
def Hart.dropMcasts (h : Hart) : Hart :=
  { h with ended := h.ended.map (fun e => { e with strip := { e.strip with cmds := e.strip.cmds.filter (fun c => match c with
    | .mcast _ _ _ _ => false
    | _ => true) } }) }

/-- The copy engine dissolves the group of a sender that has ended normally, once its last multicast has landed: END sets for
each receiver's stream (R178). -/
def State.dissolve (s : State) (sender : Nat) : State :=
  if s.dev.courses.any (fun c => c.2.mcasts.any (fun m => m.sender == sender)) ||
     s.dev.closing.any (fun h => h.uid == sender && !h.heldMcasts.isEmpty) then s
  else
    let out := s.dev.groups.filter (fun g => g.sender == sender && g.gone)
    let s := s.mapDev (fun d => { d with groups := d.groups.filter (fun g => !(g.sender == sender && g.gone)) })
    let mark := fun (n : Nat) (r : Regs) =>
      let t := (r.streams.getD n none).map (fun t => if t.desc.mode = 2 then { t with ended := true } else t)
      { r with streams := r.streams.setIfInBounds n t }
    out.foldl (fun s g => s.mapUid g.receiver (fun h =>
      { h.mapCopies (mark g.stream) with landing := h.landing.filter (fun x => x.1 != g.stream) })) s

/-- Multicast groups when a hart ends. A sender that ends on a trap with permits outstanding fails its launch: its
multicasts end with status 0x05, are reported, and the permits return (R74, R178). A sender that ends normally leaves its group to dissolve. A receiver
leaves its groups. The answer says whether the launch has failed. -/
def State.leaveGroups (s : State) (uid : Nat) (trapped : Bool) : Bool × State :=
  let fails := trapped && s.dev.groups.any (fun g => g.sender == uid && 0 < g.permits)
  let s := s.mapDev (fun d => { d with groups := d.groups.filter (fun g => g.receiver != uid) })
  if fails then
    let ids := distinct ((s.dev.courses.flatMap (fun c => c.2.mcasts.filter (fun m => m.sender == uid))).map (fun m =>
      (m.launch, m.chan, m.id)) ++ (s.dev.closing.filter (fun h => h.uid == uid)).flatMap Hart.heldMcasts)
    let s := ids.foldl (fun s x => s.deliver uid x.1 (report 0x01 0x05 x.2.1 x.2.2.toNat)) s
    (true, s.mapDev (fun d =>
      let courses := d.courses.map (fun c => (c.1, { c.2 with mcasts := c.2.mcasts.filter (fun m => m.sender != uid) }))
      { d with
        groups := d.groups.filter (fun g => g.sender != uid), courses := courses
        closing := d.closing.map (fun h => if h.uid = uid then h.dropMcasts else h) }))
  else if trapped then (false, s)
  else
    let s := s.mapDev (fun d => { d with groups := d.groups.map (fun g => if g.sender = uid then { g with gone := true } else g) })
    (false, s.dissolve uid)

/-- Remove the hart in focus: its tiles, streams and lane groups become free, and the lane groups enter retention (R108). -/
def State.freeHart (s : State) : State :=
  { s.mapBrick (fun k => { k with retention := k.retention ||| s.hart.bound }) with hart := { brick := s.hart.brick, num := s.hart.num } }

/-- The end of the hart in focus, with the marks its launch keeps of it (R231): the cause of an unhandled trap, or none. Strips that
cannot close yet go on closing without it. -/
def State.endHartOnly (s : State) (cause : Option Nat) : State :=
  let h := s.hart
  let left := !(h.aerr.all.isEmpty)
  let d := s.dev.mapLaunch h.launch (fun l =>
    { l with
      ended := match h.fork with
        | .child _ _ => l.ended
        | _ => if l.ended.contains h.index then l.ended else h.index :: l.ended
      energy := l.energy + h.energy.toNat
      uncorrectable := l.uncorrectable || cause == some 0x12
      trapped := l.trapped || (cause.isSome && cause != some 0x12 && cause != some 0x11)
      asyncLeft := l.asyncLeft || left || cause == some 0x11 })
  let d := if h.ended.isEmpty then d
    else { d with closing := d.closing ++ [{ h with run := .free, wait := .none, landed := [], inflight := [], vqueue := [] }] }
  let s := State.dropOrdinary { s with dev := d }
  let (fails, s) := s.leaveGroups h.uid cause.isSome
  let s := if fails then s.mapDev (fun d => d.mapLaunch h.launch (fun l => { l with gangFailed := true })) else s
  let b := h.brick
  (s.freeHart).recomputeGear b

/-- What harts that have ended left behind goes on closing (R190, R231). The last multicast of one may be handed over with it (R178). -/
def State.closeEnded (s : State) : State :=
  s.dev.closing.foldl (fun s g =>
    let t : State := State.drain { hart := g, dev := { s.dev with closing := s.dev.closing.filter (fun h => h.uid != g.uid) } }
    if t.hart.ended.isEmpty then State.dissolve { s with dev := t.dev } g.uid
    else { s with dev := { t.dev with closing := t.dev.closing ++ [t.hart] } }) s

/-- Every other hart of a launch ends, with no save (R74, R104): those that run, hold a token, or are saved. A token that stands for a saved
hart is charged once (R59). -/
def State.endOthers (s : State) (launch : Nat × Nat) : State :=
  let others := s.dev.parked.filter (fun h => h.launch == launch)
  let saved := s.dev.saved.filter (fun a => a.hart.launch == launch)
  let finish := fun (s : State) =>
    (s.drain.mapHart (fun h => if saved.any (fun a => a.hart.uid == h.uid) then { h with energy := 0 } else h)).endHartOnly none
  let s := others.foldl (fun s h => s.withHart h.brick h.num finish) s
  let s := if s.hart.launch == launch && !(s.hart.run == .free) then finish s else s
  s.mapDev (fun d =>
    { d.mapLaunch launch (fun l => { l with
        killed := true, energy := saved.foldl (fun n a => n + a.hart.energy.toNat) l.energy
        ended := distinct (l.ended ++ saved.map (fun a => a.hart.index)) }) with
      saved := d.saved.filter (fun a => !(a.hart.launch == launch)) })

/-- A launch has failed: every hart of it ends, and a multi-device gang is told (R21, R74). -/
def State.failLaunch (s : State) (launch : Nat × Nat) : State :=
  let s := s.mapDev (fun d => d.mapLaunch launch (fun l => { l with gangFailed := true }))
  let s := match s.dev.launch launch with
    | some l => if l.devices > 1 then s.mapDev (fun d => d.broadcast l 0x16 0 0 0 0) else s
    | none => s
  s.endOthers launch

/-- The hart in focus ends on an unhandled trap (R231). A sender that holds permits fails the launch (R74), and a fork
child ends the launch's other harts (R104). -/
def State.endOnTrap (s : State) (cause : Nat) : State :=
  let launch := s.hart.launch
  let child := match s.hart.fork with | .child _ _ => true | _ => false
  let s := s.drain.endHartOnly (some cause)
  let failed := ((s.dev.launch launch).map (·.gangFailed)).getD false
  if failed then s.failLaunch launch else if child then s.endOthers launch else s

/-! ### Traps (R224 to R230) -/

/-- A vector, mask or tile instruction's word: majors 0x20 to 0x3B. -/
def vectorWord (w : BitVec 32) : Bool := 0x20 ≤ w.toNat / 2 ^ 26 && w.toNat / 2 ^ 26 ≤ 0x3B

/-- Whether a cause restarts the strip (R226). -/
def restarts (cause : Nat) : Bool := cause == 0x08 || cause == 0x09

/-- The causes of R224 as bits of ENABLE (R227). -/
def causeBits : Nat := 0x7033E

/-- The trap descriptor as read: HANDLER and FRAMES when it names a handler for a cause, none otherwise (R227). -/
def handlerOf (l : List Byte) (cause : Nat) : Option (Nat × Nat) :=
  let handler := leAt l 0 8
  let frames := leAt l 8 8
  let enable := leAt l 16 4
  if l.length = 64 ∧ handler ≠ 0 ∧ handler % 4 = 0 ∧ frames % 256 = 0 ∧ Nat.land enable causeBits = enable ∧
     (l.drop 20).all (· == 0) ∧ bit enable cause then some (handler, frames)
  else none

/-- The 256 bytes of a trap frame (R228). -/
def frameBytes (s : State) (t : Trap) (epc resume : Word) : List Byte :=
  let tval := if 0x01 ≤ t.cause ∧ t.cause ≤ 0x05 then s.hart.iword.toNat else t.tval.toNat
  padTo 256 (leBytes 8 (t.cause + t.kind * 256) ++ leBytes 8 epc.toNat ++ leBytes 8 resume.toNat ++ leBytes 8 tval ++
    (match t.elem with | some e => leBytes 8 e | none => List.replicate 8 0xFF) ++
    (match t.lane with | some l => leBytes 2 l | none => [0xFF, 0xFF]) ++ zeros 6 ++
    leBytes 8 (s.x 30).toNat ++ leBytes 8 (s.x 31).toNat ++ leBytes 4 s.hart.iword.toNat ++ zeros 4 ++
    leBytes 8 s.dev.time.dtime.toNat ++ leBytes 8 t.report.toNat)

/-- Write bytes at a virtual address directly, not through the strip store buffer (R229). What goes to other nodes awaits its
acknowledgements: SOURCE 0 stands for such a write, whose failure comes back to the hart. -/
def State.writeDirect (s : State) (va : Nat) (data : List Byte) : Except Failure State :=
  match s.places va data.length .write with
  | .error f => .error f
  | .ok (ps, _, s) =>
    let st : BufStore := { va := va, place := ps, data := data, path := .s }
    let s := s.writeAll [st]
    (messagesOf s.dev [st]).foldl (fun acc m =>
      acc.bind fun s =>
        let o : Outstanding := { owner := .hart s.hart.uid, kind := 2, pa := m.1, len := m.2.2.length, va := m.2.1, source := 0,
                                 strip := s.hart.serial, launch := s.hart.launch }
        let (ok, d) := s.dev.remoteWrite o 0 s.hart.vmid s.hart.ctx m.2.2
        if ok then Except.ok { s with dev := d } else Except.error linkFailure) (.ok s)

/-- Direct writes of the hart that are not acknowledged. -/
def State.directPending (s : State) : Bool :=
  s.dev.outstanding.any (fun o => o.owner == .hart s.hart.uid && o.kind == 2 && o.source == 0)

/-- The frame's address: FRAMES and 256 bytes for each hart of the device (R228). -/
def frameAddr (h : Hart) (frames : Nat) : Nat := frames + 256 * (4 * h.brick + h.num)

/-- The hart ends on a trap (R231): it performs the stores and commands of its open strip, which a strip restart has already discarded. -/
def State.endIn (s : State) (t : Trap) (epc : Word) : State := (s.endStrip epc).endOnTrap t.cause

/-- The frame has performed: x30 and x31 receive its address and the cause, INH is set, and the program counter is at HANDLER (R229). -/
def State.atHandler (s : State) (t : Trap) (f handler : Nat) : State :=
  ((s.setX 30 (BitVec.ofNat 64 f)).setX 31 (BitVec.ofNat 64 (t.cause + t.kind * 256))).mapHart (fun h =>
    { h with entry := none, wait := .none, landed := [], aerr := { h.aerr with inh := true }, r := { h.r with pc := BitVec.ofNat 64 handler } })

/-- Go on with a trap entry (R229): the descriptor is read, the frame is written, and the handler is entered once the frame has performed; or the
hart ends. While another node is to answer, the hart waits within the entry (R237). -/
def State.proceed (s : State) (e : Entry) : State :=
  match e.frame with
  | some (f, handler) =>
    if s.hart.landed.any (fun x => match x with
        | .failed _ _ => true
        | _ => false) then s.endIn e.trap e.epc
    else if s.directPending then s
    else s.atHandler e.trap f handler
  | none =>
    if s.hart.aerr.inh then s.endIn e.trap e.epc
    else match s.loadScalar (s.hart.kernel - 64).toNat 64 with
      | .error (.wait w need) => (s.waitFor w need).mapHart (fun h => { h with entry := some e })
      | .error _ => s.endIn e.trap e.epc
      | .ok (bytes, s) =>
        match handlerOf bytes e.trap.cause with
        | none => s.endIn e.trap e.epc
        | some (handler, frames) =>
          let f := frameAddr s.hart frames
          match s.writeDirect f (frameBytes s e.trap e.epc e.resume) with
          | .error _ => s.endIn e.trap e.epc
          | .ok s =>
            if s.directPending then s.mapHart (fun h =>
              { h with landed := [], wait := .memory, entry := some { e with frame := some (f, handler) } })
            else s.atHandler e.trap f handler

/-- The granules of memory that a poison trap met, and those of the page table on the way, are checked (R15, R245). -/
def State.meetAt (s : State) (va : Nat) : State :=
  let s := s.mapDev (fun d => d.meetWalk s.hart.ctx va)
  match s.dev.translate s.hart.brick s.hart.ctx s.hart.vmid va .read with
  | .ok (pa, _, d) => { s with dev := if d.own pa then d.meet [offsetOf pa] else d }
  | .error _ => s

/-- Take a trap at an instruction whose address is `epc` (R226, R229): apply its class, and enter the handler or end the hart. `resume` is
RESUMEPC for a trap that does not restart the strip. What has not started on the vector side is squashed; what a restore left unfinished
stays where it stands (R420). -/
def State.trapAt (s : State) (t : Trap) (epc resume : Word) : State :=
  let s := if t.cause = 0x12 ∧ t.kind = 1 then s.meetAt t.tval.toNat else s
  let s := (s.forgetReads.mapDev (fun d => { d with traps := d.traps + 1, cause := t.cause })).mapHart (fun h =>
    { h with
      wait := .none
      landed := []
      inflight := []
      vqueue := []
      fetched := h.fetched.filter (fun f => match f.2.2 with
        | .data _ => true
        | .trap _ _ _ => false)
      aerr := if t.cause = 0x11 then h.aerr.removeFirst (fun r => r == t.report) else h.aerr })
  let ckpc := s.hart.ckpt.pc
  if restarts t.cause then s.restart.proceed { trap := t, epc := epc, resume := ckpc }
  else s.proceed { trap := t, epc := epc, resume := resume }

/-- Take a trap at the instruction in hand. RESUMEPC is its own address, and for SVC the next (R226). -/
def State.takeTrap (s : State) (t : Trap) : State :=
  s.trapAt t s.pc (if t.cause = 0x10 then s.pc + 4 else s.pc)

/-- Read RESUMEPC, XSAVE30 and XSAVE31 of the frame at an address (R230). -/
def State.readFrame (s : State) (f : Nat) : Except Stop (Word × Word × Word × State) :=
  (s.loadScalar ((f + 16) % 2 ^ 64) 8).bind fun (p, s) =>
  (s.loadScalar ((f + 48) % 2 ^ 64) 16).bind fun (x, s) =>
  .ok (BitVec.ofNat 64 (ofLe p), BitVec.ofNat 64 (leAt x 0 8), BitVec.ofNat 64 (leAt x 8 8), s)

/-- Return from a handler (R230). A frame that cannot be read ends the hart; when the cause restarts the strip its stores and commands
are discarded (R231). -/
def State.returnFromTrap (s : State) : State :=
  if !s.hart.aerr.inh then s.takeTrap { cause := 0x01 }
  else match s.readFrame (s.x 30).toNat with
    | .error (.wait w need) => s.waitFor w need
    | .error (.hold need _) => s.askFor .memory need
    | .error (.trap t) => if restarts t.cause then s.restart.endOnTrap t.cause else s.endIn t s.pc
    | .ok (pc, x30, x31, s) =>
      ((s.setX 30 x30).setX 31 x31).mapHart (fun h =>
        { h with
          wait := .none
          landed := []
          aerr := { h.aerr with inh := false }
          r := { h.r with pc := pc } })

/-- What an instruction leaves: the state it computed, a trap taken from the state before it, or the state before it with
the hart waiting. -/
def State.settle (s : State) : Except Stop State → State
  | .ok s' => s'
  | .error (.trap t) => s.takeTrap t
  | .error (.wait w need) => s.waitFor w need
  | .error (.hold need got) => (s.askFor .memory need).mapHart (fun h => { h with landed := h.landed ++ got })

/-- A settled instruction as an outcome. -/
def done (s : State) : Host.Outcome State Fault Refusal := .next s

end Sys2Proof.Machine
end

