-- ==== Sys2Proof/Machine/Atomics.lean ====
section
/-! DEFINITION. Scalar atomics (R283): a strip of their own (R187), performed by the atomic unit that owns the address (R162), in
the brick for local memory, or by another node (R20). -/

namespace Sys2Proof.Machine

/-- What an atomic on a place gives: STATUS as in R20, the FP flags, the value found. A target on another node is asked, and
the hart waits for its response. -/
def State.atomicAt (s : State) (p : Place) (va op w rm b cmp elem group : Nat) :
    Except Stop (Nat × BitVec 5 × Nat × State) :=
  match p with
  | .loc off => .ok (s.localAtomic off op w rm b cmp)
  | .phys pa =>
    if s.dev.own pa then
      let (st, f, old, d) := s.dev.atomic (offsetOf pa) op w rm b cmp
      .ok (st, f, old, { s with dev := d })
    else
      match firstSome (fun x => match x with
        | Landed.atomic e st old => if e = elem then some (st, old) else none
        | _ => none) s.hart.landed with
      | some (st, old) => .ok (st, 0, old.toNat, s)
      | none => .error (.wait .memory [(va, group)])

/-- Ask another node for an atomic (R20), unless it has been asked. A request that finds no port fails by link failure. -/
def State.askAtomic (s : State) (pa va op w rm b cmp elem group : Nat) : State :=
  if s.dev.outstanding.any (fun x => x.owner == .hart s.hart.uid && x.kind == 4 && x.elem == elem && x.pa == pa) then s
  else if s.hart.landed.any (fun x => match x with | .atomic e _ _ => e == elem | _ => false) then s
  else
    let pay := leBytes 1 op ++ leBytes 1 w ++ leBytes 1 group ++ leBytes 1 rm ++ zeros 4 ++ leBytes 8 b ++ leBytes 8 cmp
    let f : Flit := { cls := 0, kind := 4, dst := nodeOf pa % 4096, vmid := s.hart.vmid, ctx := s.hart.ctx, pa := pa,
                      len := 23, payload := padTo 224 pay }
    match s.dev.route f.cls f.dst with
    | some p => s.mapDev (fun d => { d.transmit p f with outstanding := d.outstanding ++
        [{ owner := .hart s.hart.uid, kind := 4, pa := pa, len := w, va := va, elem := elem, port := p,
           launch := s.hart.launch }] })
    | none => s.mapHart (fun h => { h with landed := h.landed ++ [.atomic elem 4 0] })

/-- The report of an atomic's poisoned target (R244). -/
def State.atomicReport (s : State) (status va : Nat) : State :=
  s.deliver s.hart.uid s.hart.launch (report 0x05 status 0 va)

/-- A scalar atomic of `w` bytes with the operation code `op` of R20 (R283). -/
def State.amo (s : State) (d a b op : Nat) (wide : Bool) : State :=
  let s := s.splitAndDrain
  let cmp := if op = 2 then (s.x d).toNat % 2 ^ (if wide then 64 else 32) else 0
  let w := if wide then 8 else 4
  let va := (s.x a).toNat
  let vb := (s.x b).toNat % 2 ^ (8 * w)
  if va % w ≠ 0 then s.settle (.error illegalOperand)
  else match s.access va w .write none none with
    | .error e => s.settle (.error e)
    | .ok (ps, _, s1) =>
      let p := ps.headD (.loc 0)
      if !s.allPerformed || s1.groupHolds ps then s1.waitFor .memory []
      else match s1.atomicAt p va op w 0 vb cmp 0 3 with
      | .error _ =>
        (match p with
         | .phys pa => (s1.askAtomic pa va op w 0 vb cmp 0 3).waitFor .memory []
         | .loc _ => s1)
      | .ok (st, _, old, s2) =>
        if st = 1 then s.settle (.error (accessError.trap va none none))
        else if st = 4 then s.settle (.error (linkFailure.trap va none none))
        else
          let v : Word := if st = 2 then 0 else BitVec.ofInt 64 (toSigned (8 * w) old)
          let s3 := (s2.setX d v).retire
          let s4 := if st = 2 then s3.atomicReport 0x01 va else s3
          s4.endStrip s4.pc

def execAmoadd (d a b : Nat) (w : Bool) (_h : Hint) (s : State) : Host.Outcome State Fault Refusal := done (s.amo d a b 0 w)
def execAmoswap (d a b : Nat) (w : Bool) (_h : Hint) (s : State) : Host.Outcome State Fault Refusal := done (s.amo d a b 1 w)
def execAmocas (d a b : Nat) (w : Bool) (_h : Hint) (s : State) : Host.Outcome State Fault Refusal := done (s.amo d a b 2 w)
def execAmomin (d a b : Nat) (w : Bool) (_h : Hint) (s : State) : Host.Outcome State Fault Refusal := done (s.amo d a b 3 w)
def execAmominn (d a b : Nat) (w : Bool) (_h : Hint) (s : State) : Host.Outcome State Fault Refusal := done (s.amo d a b 4 w)
def execAmomax (d a b : Nat) (w : Bool) (_h : Hint) (s : State) : Host.Outcome State Fault Refusal := done (s.amo d a b 5 w)
def execAmomaxn (d a b : Nat) (w : Bool) (_h : Hint) (s : State) : Host.Outcome State Fault Refusal := done (s.amo d a b 6 w)
def execAmoand (d a b : Nat) (w : Bool) (_h : Hint) (s : State) : Host.Outcome State Fault Refusal := done (s.amo d a b 7 w)
def execAmoor (d a b : Nat) (w : Bool) (_h : Hint) (s : State) : Host.Outcome State Fault Refusal := done (s.amo d a b 8 w)
def execAmoxor (d a b : Nat) (w : Bool) (_h : Hint) (s : State) : Host.Outcome State Fault Refusal := done (s.amo d a b 9 w)

end Sys2Proof.Machine
end

