-- ==== Sys2Proof/Machine/Flags.lean ====
section
/-! DEFINITION. The accumulated FP flags: FSTAT and the FIDX registers (R218 to R220), and writes to them. -/

namespace Sys2Proof.Machine

/-- The lower of an index register and an element index (R219). -/
def lowerIndex (old : Word) : Option Nat → Word
  | none => old
  | some i => if i < old.toNat then BitVec.ofNat 64 i else old

/-- The lower of two recorded element indices. -/
def lowerOf : Option Nat → Option Nat → Option Nat
  | none, b => b
  | a, none => a
  | some a, some b => some (min a b)

/-- Whether bit c of the flags, counted nv, dz, of, uf, nx from 0, is set. -/
def flagOf (b : BitVec 5) (c : Nat) : Bool := bit b.toNat (4 - c)

/-- Flags raised at an element. -/
def Flags.add (f : Flags) (elem : Nat) (b : BitVec 5) : Flags :=
  if b = 0 then f
  else { bits := f.bits ||| b
         idx := Vector.ofFn (fun c => if flagOf b c.val then lowerOf f.idx[c] (some elem) else f.idx[c]) }

/-- The flags of two parts of an instruction together. -/
def Flags.join (f g : Flags) : Flags :=
  { bits := f.bits ||| g.bits, idx := Vector.ofFn (fun c => lowerOf f.idx[c] g.idx[c]) }

/-- Merge a vector instruction's flags (R219). -/
def Hart.mergeFlags (h : Hart) (f : Flags) : Hart :=
  { h with fstat := h.fstat ||| f.bits, fidx := Vector.ofFn (fun c => lowerIndex h.fidx[c] f.idx[c]) }

/-- The same for the hart in focus. -/
def State.mergeFlags (s : State) (f : Flags) : State := s.mapHart (fun h => h.mergeFlags f)

/-- The value that csrw, csrs and csrc (fn 1 to 3) give an RW field (R290). -/
def csrUpdate (fn : Nat) (old v : Word) : Word :=
  if fn = 1 then v else if fn = 2 then old ||| v else old &&& ~~~v

/-- A write to FSTAT takes effect (R220). -/
def Hart.writeFstat (h : Hart) (fn : Nat) (v : Word) : Hart :=
  { h with fstat := (csrUpdate fn (h.fstat.setWidth 64) v).setWidth 5 }

/-- A write to an FIDX register takes effect (R220). -/
def Hart.writeFidx (h : Hart) (i fn : Nat) (v : Word) : Hart :=
  { h with fidx := h.fidx.setIfInBounds i (csrUpdate fn (h.fidx.getD i 0) v) }

/-- A write to REUSEHIT takes effect (R128). -/
def Hart.writeReuseHit (h : Hart) (fn : Nat) (v : Word) : Hart :=
  { h with reuseHit := (csrUpdate fn (h.reuseHit.setWidth 64) v).setWidth 40 }

end Sys2Proof.Machine
end

