-- ==== Sys2Proof/Machine/Names.lean ====
section
/-! DEFINITION. Register groups as wholes: their bytes, mortar bytes and failed slots (R91, R92, R243), their names (R114 to
R117) and the reuse table (R118 to R128). -/

namespace Sys2Proof.Machine

/-! ### The bytes of a register group -/

/-- Replace bits [lo + n − 1 : lo] of a number. -/
def setField (x lo n v : Nat) : Nat := x / 2 ^ (lo + n) * 2 ^ (lo + n) + v % 2 ^ n * 2 ^ lo + x % 2 ^ lo

/-- Element `i` of width `w` bits (R91). -/
def Group.elem (g : Group) (w i : Nat) : Nat := field g.bits (i * w) w

/-- Write element `i`. -/
def Group.put (g : Group) (w i v : Nat) : Group :=
  { g with bits := setField g.bits (i * w) w v, cover := g.cover.lor ((2 ^ w - 1) * 2 ^ (i * w)) }

/-- The mortar byte of block `b`. -/
def Group.scale (g : Group) (b : Nat) : Byte := BitVec.ofNat 8 (g.mortar / 2 ^ (8 * b))

/-- Set the mortar byte of block `b`. -/
def Group.setScale (g : Group) (b : Nat) (m : Byte) : Group := { g with mortar := setField g.mortar (8 * b) 8 m.toNat }

/-- Blocks of a group. -/
def blocksOf (nl n : Nat) : Nat := nl * n

/-- The end of an instruction's writing to a group of `k` blocks: every block in which it wrote an element gets mortar byte 0
when `zero` says so (R211), and every slot it wrote whole is sound again. -/
def Group.seal (g : Group) (k : Nat) (zero : Bool) : Group :=
  { bits := g.bits
    mortar := if zero then (List.range k).foldl (fun m b =>
        if field g.cover (256 * b) 256 = 0 then m else setField m (8 * b) 8 0) g.mortar
      else g.mortar
    fail := if g.fail = 0 then 0
      else (List.range (4 * k)).foldl (fun m t =>
        if field g.cover (64 * t) 64 = 2 ^ 64 - 1 then setField m t 1 0 else m) g.fail
    cover := 0 }

/-- Read the group of `n` registers from `v` on, over `nl` bound lanes (R91). -/
def Regs.group (r : Regs) (nl v n : Nat) : Group :=
  (List.range n).foldl (fun (g : Group) j =>
    { bits := g.bits + (r.v.getD (v + j) 0).toNat % 2 ^ (256 * nl) * 2 ^ (256 * nl * j)
      mortar := g.mortar + (r.mortar.getD (v + j) 0).toNat % 2 ^ (8 * nl) * 2 ^ (8 * nl * j)
      fail := g.fail + (r.vfail.getD (v + j) 0).toNat % 2 ^ (4 * nl) * 2 ^ (4 * nl * j)
      cover := 0 }) {}

/-- Names of groups that share a register with the `n` registers from `v` on are lost (R114). -/
def dropNames (names : Vector (Option GroupName) 32) (v n : Nat) : Vector (Option GroupName) 32 :=
  Vector.ofFn (fun u => match names[u] with
    | some m => if u.val < v + n ∧ v < u.val + 2 ^ m.gm.toNat then none else some m
    | none => none)

/-- Write the group of `n` registers from `v` on (R91, R111). -/
def Regs.setGroup (r : Regs) (nl v n : Nat) (g : Group) : Regs :=
  let r := (List.range n).foldl (fun (r : Regs) j =>
    { r with
      v := r.v.setIfInBounds (v + j) (BitVec.ofNat 8192 (field g.bits (256 * nl * j) (256 * nl)))
      mortar := r.mortar.setIfInBounds (v + j) (BitVec.ofNat 256 (field g.mortar (8 * nl * j) (8 * nl)))
      vfail := r.vfail.setIfInBounds (v + j) (BitVec.ofNat 128 (field g.fail (4 * nl * j) (4 * nl))) }) r
  { r with names := dropNames r.names v n }

/-- G of a VTYPE (R89). -/
def VType.g (t : VType) : Nat := 2 ^ t.gm.toNat
/-- SEW in bits (R89). -/
def VType.bits (t : VType) : Nat := 8 * 2 ^ t.sew.toNat
/-- VTYPE [6:0]. -/
def VType.low (t : VType) : BitVec 7 := BitVec.ofNat 7 (t.kz.toNat * 64 + t.gm.toNat * 8 + t.sew.toNat)
/-- The largest vector length for a count of lane groups (R90). -/
def VType.vlmax (t : VType) (lgn : Nat) : Nat := 256 * lgn * t.g * 8 / t.bits

/-! ### Names (R114 to R116) -/

/-- The product of R115. -/
def gfmulFrom (a b : BitVec 64) : Nat → BitVec 64 → BitVec 64
  | 0, p => p
  | j + 1, p =>
    let p := if p.msb then (p <<< 1) ^^^ 0x1B else p <<< 1
    gfmulFrom a b j (if b.getLsbD j then p ^^^ a else p)

def gfmul (a b : BitVec 64) : BitVec 64 := gfmulFrom a b 64 0

def digestKey : BitVec 64 := 0xD3A56C1F94E20B7D

/-- The digest of a group of `n` registers over `nl` bound lanes, written under a VL and VTYPE (R115). -/
def digest (g : Group) (nl n : Nat) (vl : BitVec 14) (t : VType) : BitVec 64 :=
  let hdr := BitVec.ofNat 64 (vl.toNat + t.sew.toNat * 2 ^ 32 + t.gm.toNat * 2 ^ 35)
  let step := fun (d : BitVec 64) (w : Nat) => gfmul d digestKey ^^^ BitVec.ofNat 64 w
  let d := (List.range (4 * n)).foldl (fun d k => (List.range nl).foldl (fun d l =>
    step d (field g.bits (256 * nl * (k / 4) + 256 * l + 64 * (k % 4)) 64)) d) hdr
  let d := (List.range n).foldl (fun d j => (List.range (nl / 8)).foldl (fun d m =>
    step d (field g.mortar (8 * nl * j + 64 * m) 64)) d) d
  gfmul d digestKey

/-- A register group of a hart under its name. -/
def Regs.named (r : Regs) (v : Nat) (m : GroupName) : NamedGroup :=
  { name := m
    regs := (List.range (2 ^ m.gm.toNat)).map (fun j => r.v.getD (v + j) 0)
    phys := (List.range (2 ^ m.gm.toNat)).map (fun j => r.phys.getD (v + j) [])
    mortar := (List.range (2 ^ m.gm.toNat)).map (fun j => r.mortar.getD (v + j) 0)
    fail := (List.range (2 ^ m.gm.toNat)).map (fun j => r.vfail.getD (v + j) 0) }

/-- The named groups of a set of mappings. -/
def Regs.namedGroups (r : Regs) : List NamedGroup :=
  (List.range 32).filterMap (fun v => (r.names.getD v none).map (r.named v))

/-- The live named groups on the lane groups of the hart in focus: its mappings, its checkpoints', and what instructions in flight and
reuse entries hold (R112, R116). -/
def State.liveGroups (s : State) : List NamedGroup :=
  s.hart.r.namedGroups ++ s.hart.ckpt.namedGroups ++ s.hart.ended.flatMap (fun e => e.ckpt.namedGroups) ++
  s.hart.inflight.flatMap (·.held) ++
  ((s.brick.reuse.filter (fun e => e.key.lgset == s.hart.bound)).flatMap (fun e => e.result :: e.held))

/-- The physical registers that `n` registers from `v` on map to. -/
def Regs.physAt (r : Regs) (v n : Nat) : List Phys := (List.range n).map (fun j => r.phys.getD (v + j) [])

/-- Give the group of registers from `v` on its name (R116), in the mappings and in those of every checkpoint that maps the same physical
registers, there and wherever else they are mapped (R111, R112, R127). -/
def State.setName (s : State) (v : Nat) (m : GroupName) : State :=
  let n := 2 ^ m.gm.toNat
  let ps := s.hart.r.physAt v n
  let here := fun (r : Regs) (u : Nat) => r.physAt u n == ps && (u == v || (u % n == 0 && !(ps.any List.isEmpty)))
  s.mapHart (fun h => h.mapCopies (fun r => { r with names := Vector.ofFn (fun u => if here r u.val then some m else r.names[u]) }))

/-- Name the group of registers from `v` on as one instruction under a VL and VTYPE has written it: at once when no live group
has its digest, else a comparison begins (R116). -/
def State.nameGroup (s : State) (v : Nat) (vl : BitVec 14) (t : VType) : State :=
  let g := s.hart.r.group s.hart.lanes v t.g
  let m : GroupName := { digest := digest g s.hart.lanes t.g vl t, salt := 0, gm := t.gm, vl := vl, vtype := t.low }
  if s.liveGroups.any (fun l => l.name.digest == m.digest && l.name.gm == m.gm) then
    s.mapHart (fun h => { h with comparing := h.comparing ++ [(v, m)] })
  else s.setName v m

/-- Every reference to the new group from `v` on moves to a live one that it equals, with the failed slots of that one (R116, R243). -/
def State.moveGroup (s : State) (v : Nat) (l : NamedGroup) : State :=
  let new := s.hart.r.physAt v l.phys.length
  let move := fun (r : Regs) (j : Nat) =>
    let p := new.getD j []
    let here := fun (u : Nat) => r.phys.getD u [] == p && (u == v + j || !p.isEmpty)
    { r with
      phys := Vector.ofFn (fun u => if here u.val then l.phys.getD j [] else r.phys[u])
      vfail := Vector.ofFn (fun u => if here u.val then l.fail.getD j 0 else r.vfail[u]) }
  let now := fun (p : Phys) => if p.isEmpty then p else ((new.zip l.phys).find? (fun x => x.1 == p)).map (·.2) |>.getD p
  s.mapHart (fun h =>
    { h.mapCopies (fun r => (List.range l.phys.length).foldl move r) with
      inflight := h.inflight.map (fun r => { r with
        holds := r.holds.map now
        start := r.start.map (fun t => { t with dest := t.dest.map (fun o => { o with phys := now o.phys }) }) }) })

/-- A comparison has ended (R116): the group takes the name and the physical registers of the live group it equals, or the lowest salt that
no live group with its digest holds, or none. -/
def State.endCompare (s : State) (v : Nat) (m : GroupName) : State :=
  let same := s.liveGroups.filter (fun l => l.name.digest == m.digest && l.name.gm == m.gm)
  let here := s.hart.r.named v m
  let equal := fun (l : NamedGroup) => l.regs == here.regs && l.mortar == here.mortar && l.name.vl == m.vl && l.name.vtype == m.vtype
  match same.find? equal with
  | some l => (s.moveGroup v l).setName v l.name
  | none =>
    match (List.range 4).find? (fun n => !(same.any (fun l => l.name.salt == n))) with
    | some n => s.setName v { m with salt := n }
    | none => s

/-- Comparisons of groups that share a register with the `n` registers from `v` on are abandoned. -/
def Hart.dropComparing (h : Hart) (v n : Nat) : Hart :=
  { h with comparing := h.comparing.filter (fun c => !(c.1 < v + n && v < c.1 + 2 ^ c.2.gm.toNat)) }

/-! ### Mapping registers (R111, R129) -/

/-- Every register gets a physical register of its own (R129, R68). -/
def State.remap (s : State) : State :=
  let s := (s.mapRegs (fun r => { r with phys := Vector.replicate 32 [] })).mapHart (fun h => { h with
    landing := h.landing.map (fun x => (x.1, [])), buffers := h.buffers.map (fun b => (b.1, { b.2 with phys := [] })) })
  let new := s.allocate (32 + s.hart.landing.length + s.hart.buffers.length)
  ((s.mapRegs (fun r => r.mapTo 0 (new.take 32))).mapHart (fun h =>
    let k := 32 + h.landing.length
    { h with
      landing := h.landing.zipIdx.map (fun x => (x.1.1, new.getD (32 + x.2) []))
      buffers := h.buffers.zipIdx.map (fun b => (b.1.1, { b.1.2 with phys := new.getD (k + b.2) [] })) })).relieve s.hart.brick

/-- At its first dispatch every mapping of a hart points to one zeroed physical register, which is named under VL 0 and VTYPE 0x0003 as
any other group is (R111, R116). -/
def State.firstMap (s : State) : State :=
  if s.hart.bound = 0 then s
  else
    let p := (s.allocate 1).headD []
    let set := fun (r : Regs) => { r with phys := Vector.replicate 32 p, names := Vector.replicate 32 none }
    ((s.mapHart (fun h => h.mapCopies set)).nameGroup 0 0 {}).relieve s.hart.brick

/-- Write a register group of the hart in focus: it gets new physical registers when its instruction starts, and its old name is lost
(R111, R114). -/
def State.setGroup (s : State) (v n : Nat) (g : Group) : State :=
  let new := s.allocate n
  let starts := s.hart.resume.isNone
  let s := (s.mapRegs (fun r =>
    let r := r.setGroup s.hart.lanes v n g
    if starts then r.mapTo v new else r)).mapHart (fun h => h.dropComparing v n)
  if starts then s.relieve s.hart.brick else s

/-- Name every group of the hart afresh under a VL and VTYPE (R129). -/
def State.nameAll (s : State) (vl : BitVec 14) (t : VType) (skip : Nat → Bool) : State :=
  let s := (s.mapRegs (fun r => { r with names := Vector.replicate 32 none })).mapHart (fun h => { h with comparing := [] })
  if s.hart.bound = 0 then s
  else ((List.range 32).filter (fun v => v % t.g == 0 && !(skip v))).foldl (fun s v => s.nameGroup v vl t) s

/-! ### The reuse table -/

/-- A hit moves the entry to the front: the most recently hit or made comes first (R118). -/
def touchEntry (l : List ReuseEntry) (k : ReuseKey) : List ReuseEntry :=
  (l.filter (fun e => e.key == k)).take 1 ++ removeFirst (fun e => e.key == k) l

/-- Enter an instruction's result; the least recently hit or made entry makes room (R118). -/
def Brick.enter (k : Brick) (e : ReuseEntry) : Brick :=
  { k with reuse := (e :: removeFirst (fun x => x.key == e.key) k.reuse).take 256 }

/-- Drop every entry whose lane groups include one of a set (R126). -/
def Brick.dropLanes (k : Brick) (lgs : BitVec 4) : Brick := k.dropEntries (fun e => e.key.lgset &&& lgs != 0)

/-- A write raises a mask's generation (R117). -/
def State.bumpMask (s : State) (k : Nat) : State :=
  let g := s.hart.r.kgen.getD k 0 + 1
  let s := s.mapRegs (fun r => { r with kgen := r.kgen.setIfInBounds k g })
  if g = 0 then s.dropMask k else s

/-- An opld or opclr raises an operator slot's generation (R117). -/
def State.bumpSlot (s : State) (o : Nat) : State :=
  let g := s.hart.r.ogen.getD o 0 + 1
  let s := s.mapRegs (fun r => { r with ogen := r.ogen.setIfInBounds o g })
  if g = 0 then s.dropSlot o else s

end Sys2Proof.Machine
end

