-- ==== Sys2Proof/Machine/Fetch.lean ====
section
/-! DEFINITION. Fetching an instruction's bytes (R201, R252, R281), what comes before an instruction at a hart's turn, the
row of the table that an arriving flit belongs to (R19 to R21, R41 to R58), and the passing of time. -/

namespace Sys2Proof.Machine

/-- A launch reaches its first instruction: TSTART is DTIME now (R57). -/
def Launch.reach (l : Launch) (t : Word) : Launch := if l.begun then l else { l with begun := true, tstart := t }

/-- Fetch the word at the program counter, on path S without forwarding (R184, R201). An address that is no multiple of 4, to which only
eret can lead, is an illegal instruction (DEDUCED, log 32). -/
def State.fetch (s : State) : Except Stop (BitVec 32 × State) :=
  let va := s.pc.toNat
  if va % 4 ≠ 0 then .error illegalInstr
  else match s.access va 4 .fetch none none with
    | .error e => .error e
    | .ok (ps, _, s) =>
      match collect (ps.map s.seePlace) va none none with
      | .ok l => .ok (BitVec.ofNat 32 (ofLe l), s.mapDev (fun d => d.mapLaunch s.hart.launch (fun l => l.reach d.time.dtime)))
      | .error e => .error e

/-- A word that could not be fetched is in hand: the frame's IWORD is then open (R228). -/
def State.unfetched (s : State) : State :=
  let (n, s) := s.draw
  s.mapHart (fun h => { h with iword := (Config.freeWord n).setWidth 32 })

/-- A report is delivered at the boundary before an instruction (R241), whose word IWORD holds (R228). -/
def State.takeReport (s : State) (r : Word) (w : BitVec 32) : State :=
  (s.mapHart (fun h => { h with iword := w })).takeTrap { cause := 0x11, kind := reportSource r, report := r }

/-- The lane groups a hart is charged for (R60, R104): at least one, but none for a fork child before its first SETVL; a parent is
charged for those its ended child left it. -/
def Hart.units (h : Hart) : Nat :=
  match h.fork with
  | .child _ false => 0
  | .ended _ true lgs _ => max 1 (h.nlg + (setBits 4 lgs.toNat).length)
  | .rejoin lgs _ => max 1 (h.nlg + (setBits 4 lgs.toNat).length)
  | _ => max 1 h.nlg

/-- The charge of `dt` nanoseconds to queues and tenants, with 16 fraction bits (R60). What lies below them is dropped at each charge (DESIGN
CHOICE, log 99). -/
def State.charge (s : State) (dt : Nat) : State :=
  s.dev.launches.foldl (fun s l =>
    let u := dt * (s.harts.filter (fun h => h.launch == (l.queue, l.seq))).foldl (fun n h => n + h.units) 0
    if u = 0 then s
    else
      let q := s.dev.queue l.queue
      let t := s.dev.tenant l.record.vmid
      s.mapDev (fun d =>
        (d.setQueue l.queue { q with qvt := q.qvt + u * 256 * 65536 / (q.weight * l.record.weight) }).setTenant l.record.vmid
          { t with tvt := t.tvt + u * 16 * 65536 / t.weight })) s

/-- Time passes while the time function counts: DTIME never goes backwards (R30), and running harts are charged (R60). The amount of
one step is free. -/
def State.tick (s : State) : State :=
  if s.dev.time.counting then
    let (n, s) := s.draw
    let dt := Config.elapsed n % 2 ^ 20
    (s.mapDev (fun d => { d with time := { d.time with dtime := d.time.dtime + BitVec.ofNat 64 dt } })).charge dt
  else s

/-- The oldest report traps at an instruction boundary while ATE is 1 and INH is 0 (R241). -/
def State.boundaryReport (s : State) : Option Word :=
  if s.hart.aerr.ate && !s.hart.aerr.inh then s.hart.aerr.all.head? else none

/-- Whether an ended strip holds updates of atomic units, which every later access follows (R193). -/
def Hart.owesUpdates (h : Hart) : Bool := h.ended.any (fun e => e.strip.stores.any (fun b => !(b.op == .write)))

/-- Whether updates of the hart at other nodes are not answered: later accesses follow them (R193). -/
def State.updatesPending (s : State) : Bool :=
  s.dev.outstanding.any (fun o => o.owner == .hart s.hart.uid && o.kind == 4 && o.source == 0x05)

/-- Something a hart does before its next instruction. -/
inductive Before where
  | nothing
  | changeover
  | entry (e : Entry)
  | stay
  | start (q : Queued) (rest : List Queued)
  | close
  | complete
  | resume (r : InFlight)
  | csr (w : CsrWrite)
  | split
  | report (r : Word)
  | idle
deriving DecidableEq, Repr

/-- Whether the oldest ended strip must close before anything issues: always unless the hart runs ahead (R190), and also then when it holds
updates (R193) or came from a save area (R419). -/
def State.closesFirst (s : State) (ahead : Bool) : Bool :=
  match s.hart.ended with
  | [] => false
  | e :: _ => !ahead || s.hart.owesUpdates || e.kept

/-- Whether the hart stands at a wait in which it issues nothing (R187). -/
def Hart.sleeps (h : Hart) : Bool :=
  match h.wait with
  | .barw _ => true
  | .waitt _ => true
  | .xwait _ _ => true
  | .idle _ _ _ => true
  | _ => false

/-- What comes next at a running hart's turn before an instruction issues: a changeover runs to its end (R135, R137), a trap entry goes on
(R237), an instruction in flight goes on or completes (R95, R219), ended strips close (R190) unless the hart runs ahead, the oldest queued
instruction starts (R97), a CSR write that waited takes effect (R128, R220), a report is delivered (R241), an idle hart idles (R301). The
boundary that a buffered store's age makes comes before the next instruction that issues (R187), so not while the hart waits. -/
def State.before (s : State) (ahead : Bool) : Before :=
  if s.brick.change.isSome then .changeover
  else match s.hart.entry with
  | some e => .entry e
  | none => match s.hart.inflight with
    | r :: _ => if r.finished then .complete else .resume r
    | [] =>
      if s.closesFirst ahead then .close
      else if s.updatesPending then .stay
      else match s.hart.vqueue with
        | q :: rest => .start q rest
        | [] => match s.hart.pendCsr with
          | w :: _ => .csr w
          | [] =>
            if s.hart.timeout && !s.hart.sleeps then .split
            else match s.boundaryReport with
              | some r => .report r
              | none => match s.hart.wait with
                | .idle _ _ _ => .idle
                | _ => .nothing

/-- Whether one of the causes that end an idle has come (R301): a field of XDONE or the reports have changed, or 1 ms has
passed. A barrier's release ends it through the barrier. -/
def State.idleOver (s : State) : Bool :=
  match s.hart.wait with
  | .idle since done reports =>
    !(s.hart.done.toList ++ s.hart.r.issued.toList == done) || s.hart.aerr.count != reports ||
    since + 1000000 ≤ s.dev.time.dtime.toNat
  | _ => false

/-- The hart in focus continues an in-flight record: the instruction's word is in hand. -/
def State.takeInFlight (s : State) (r : InFlight) : State := s.mapHart (fun h => { h with resume := some r, iword := r.word })

/-- The instruction in hand has ended: nothing is being continued and no limit holds. -/
def State.settled (s : State) : State := s.mapHart (fun h => { h with resume := none, budget := none })

/-! ### Rows of arriving flits -/

/-- The row of a write that lies in the command region (R41 to R58, R82, R159), by the register it names. -/
def windowRow (d : Device) (p : Nat) (f : Flit) : Instr :=
  let off := offsetOf f.pa
  let v := (off - Config.commandBase) / 2 ^ 32
  let r := (off - Config.commandBase) % 2 ^ 32
  let data := flitAt f 0 8
  if r = 0x08 then .evcfgWrite p f
  else if r = 0x18 then .evconsWrite p f
  else if v = 0 ∧ r = 0x40 then
    (match field data 12 4 with
      | 1 => .schedHold p f
      | 2 => .schedRelease p f
      | 3 => .schedFlush p f
      | _ => .windowRegisterWrite p f)
  else if v = 0 ∧ r = 0x60 then (if bit data 16 then .tlbinvAll p f else .tlbinvPage p f)
  else if v = 0 ∧ 0x20000000 ≤ r ∧ r < 0x20020000 ∧ r % 32 = 0 then
    (let q := (r - 0x20000000) / 32
     if bit data 63 && !(d.queue q).en then .queueEnable p f
     else if !(bit data 63) && (d.queue q).en then .queueDisable p f
     else .windowRegisterWrite p f)
  else if v = 0 ∧ 0x30000000 ≤ r ∧ r < 0x30008000 then .ctxentWrite p f
  else if 0x10000000 ≤ r ∧ r < 0x20000000 ∧ r % 0x10000 = 0 then .qtailWrite p f
  else if 0x10000000 ≤ r ∧ r < 0x20000000 ∧ 0x40 ≤ r % 0x10000 ∧ r % 0x10000 < 0x50 then
    (if flitAt f 0 1 = 2 then .sigpushAdd p f else .sigpushSet p f)
  else .windowRegisterWrite p f

/-- The row of a barrier token by its SUB (R21); any other SUB is discarded. -/
def tokenRow (p : Nat) (f : Flit) : Instr :=
  match flitAt f 0 1 with
  | 0x01 => .systemBarrierArrival p f
  | 0x02 => .systemBarrierRelease p f
  | 0x10 => .gangReady p f
  | 0x11 => .gangGo p f
  | 0x12 => .withdrawRequest p f
  | 0x13 => .withdraw p f
  | 0x14 => .tokenProgress p f
  | 0x15 => .preemptionRelay p f
  | 0x16 => .gangFailed p f
  | _ => .flitDiscard p f

/-- The row of a management message by its OP and MADDR (R21). -/
def managementRow (p : Nat) (f : Flit) : Instr :=
  match flitAt f 0 1 with
  | 0x02 =>
    (match flitAt f 4 4 with
      | 0x200 => .gmcWriteThold p f
      | 0x210 => .gmcWriteGrandmaster p f
      | 0x220 => .gmcWriteMinSecurity p f
      | 0x230 => .gmcRestartTraining p f
      | _ => .gmcManagementWrite p f)
  | 0x03 => .attestationRequest p f
  | _ => .gmcManagementRead p f

/-- The row of the opcode table that an intact flit belongs to (R19 to R22). DST is not looked at: a flit that names another node is taken
as this device's (DESIGN CHOICE, log 87). -/
def flitRow (d : Device) (p : Nat) (f : Flit) : Instr :=
  if flitDiscarded f then .flitDiscard p f
  else match f.kind with
    | 0x00 => .readRequest p f
    | 0x01 => .readResponse p f
    | 0x02 => if d.own f.pa && Config.commandBase ≤ offsetOf f.pa then windowRow d p f else .write p f
    | 0x03 => .writeAcknowledgement p f
    | 0x04 => .atomicRequest p f
    | 0x05 => .atomicResponse p f
    | 0x06 => .readStatus p f
    | 0x10 => tokenRow p f
    | 0x11 => .throttleNotice p f
    | 0x12 => managementRow p f
    | 0x20 => .sync p f
    | 0x21 => .followUp p f
    | 0x22 => .pdelayReq p f
    | 0x23 => .pdelayResp p f
    | 0x24 => .pdelayRespFollowUp p f
    | 0x25 => .announce p f
    | 0x30 => .linkControl p f
    | _ => .flitDiscard p f

/-- The row of 256 bytes that arrive at a port (R17, R22). -/
def bytesRow (d : Device) (p : Nat) (l : List Byte) : Instr :=
  if crcGood l then flitRow d p (flitOfBytes l) else .flitCrcFailure p

/-! ### Placing a word where the next step fetches -/

/-- A hart as the scheduler dispatches it (R99) on LG0 of its brick, for a program that is placed from outside (DESIGN CHOICE, log 21). -/
def Hart.placed (h : Hart) : Hart :=
  if h.run = .running then h
  else
    let r : Regs := { pc := 64 }
    { brick := h.brick, num := h.num, uid := h.uid, run := .running, r := r, ckpt := r, kernel := 64,
      lgn := 1, bound := 1, next := 1 }

/-- The word of an instruction stored at the program counter of the hart in focus, on a page that the brick has a
translation of, with nothing before the instruction (DESIGN CHOICE, log 21). -/
def State.placeWord (s : State) (w : Nat) : State :=
  let h := s.hart.placed
  let h := { h with wait := .none, ended := [], inflight := [], vqueue := [], entry := none, pendCsr := [], timeout := false,
                    resume := none, budget := none, aerr := { h.aerr with ate := false } }
  let page := h.r.pc.toNat / 65536 * 65536
  let e : TlbEntry := { brick := h.brick, ctx := h.ctx, vmid := h.vmid, va := page, pa := s.dev.node * 2 ^ 40,
                        bits := 16, x := true, w := true, level := .fetch h.num }
  let d := (s.dev.setBrick h.brick { s.dev.brick h.brick with change := none }).clearPoison (h.r.pc.toNat % 65536 / 64)
  { hart := h
    dev := { d with agenda := [], tlb := e :: d.tlb,
                    mem := Memory.writeBytes d.mem (h.r.pc.toNat % 65536) (leBytes 4 w) } }

end Sys2Proof.Machine
end

