-- ==== Sys2Proof/Machine/Queue.lean ====
section
/-! DEFINITION. The vector instruction queue of a hart (R85, R97, R98): what the scalar side issues behind it, how its oldest instruction
starts as it was dispatched, and the squash of what has not started (R76, R226).

A queued instruction runs on the hart as its dispatch found it: its program counter, scalar registers and LIDX, and the strip's stores that
are older. What the scalar side has done since is put back once the instruction has started, and is lost when it traps. -/

namespace Sys2Proof.Machine

/-- The major of a word. -/
def majorOf (w : BitVec 32) : Nat := w.toNat / 2 ^ 26

/-- smcast (R266). -/
def isSmcast (w : BitVec 32) : Bool := majorOf w == 0x31 && field w.toNat 11 5 == 2

/-- mgpush (R371). -/
def isMgpush (w : BitVec 32) : Bool := majorOf w == 0x32 && field w.toNat 11 5 == 1

/-- tileon (R378). -/
def isTileon (w : BitVec 32) : Bool := majorOf w == 0x39 && field w.toNat 11 5 == 0

/-- sbind (R338). -/
def isSbind (w : BitVec 32) : Bool := majorOf w == 0x30 && field w.toNat 11 5 == 0

/-- Vector, mask, tile and stream-register instructions, which the scalar side does not wait for (R98): none that writes an integer or FP
register from vector, mask or tile state. smcast and mgpush are among them. -/
def queues (w : BitVec 32) : Bool :=
  let m := majorOf w
  let fn := field w.toNat 0 8
  isSmcast w || isMgpush w || m == 0x30 ||
  (0x20 ≤ m && m ≤ 0x2F && m != 0x2A && !(m == 0x27 && (fn == 0x24 || fn == 0x25))) ||
  (0x34 ≤ m && m ≤ 0x3B && !(m == 0x35 && (fn == 0x07 || fn == 0x87)))

/-- scopy and sxform (R342). -/
def isCopy (w : BitVec 32) : Bool := majorOf w == 0x31 && field w.toNat 11 5 ≤ 1

/-- mgopen, mgfin and mgstat (R367). -/
def isMergeCommand (w : BitVec 32) : Bool := majorOf w == 0x32 && field w.toNat 11 5 != 1

/-- opld (R354). -/
def isOpld (w : BitVec 32) : Bool := majorOf w == 0x37 && field w.toNat 11 5 == 0

/-- Instructions that read a block or a descriptor on path S when they are dispatched (R338, R342, R354, R367). -/
def readsBlock (w : BitVec 32) : Bool := isCopy w || isMergeCommand w || isOpld w || isSbind w

/-- The number of a control register in a word, and the fn of a CSR instruction (R290). -/
def csrNum (w : BitVec 32) : Nat := field w.toNat 0 8
def csrFn (w : BitVec 32) : Nat := field w.toNat 11 5

/-- A CSR instruction. -/
def isCsr (w : BitVec 32) : Bool := majorOf w == 0x1C

/-- Control registers whose writes take effect once earlier vector instructions have finished (R128, R220). -/
def lateCsrs : List Nat := [0x04, 0x08, 0x09, 0x0A, 0x0B, 0x0C, 0x26]

/-- Control registers whose reads wait for the vector side (R98, R291), beside VL. -/
def waitingCsrs : List Nat := lateCsrs ++ [0x10, 0x11, 0x12, 0x38, 0x39, 0x3A, 0x3B, 0x3C, 0x3D, 0x3E, 0x3F]

/-- A write that takes effect behind the vector side. -/
def writesLate (w : BitVec 32) : Bool := isCsr w && csrFn w != 0 && lateCsrs.contains (csrNum w)

/-- What takes its place behind queued instructions although it is none of the vector side: engine commands, which their strip hands over
when it closes (R190), and late CSR writes. -/
def trails (w : BitVec 32) : Bool := isCopy w || isMergeCommand w || writesLate w

/-- Scalar instructions that the scalar side issues behind queued ones (R98): integer, scalar memory, jumps, branches on registers, scalar
FP, CSR instructions that do not wait, nexti, gear, gearauto, waitt, bara, barw, eret, xwait, xpoll and hints. The others end a strip or
the hart, or order memory, and wait for the vector side (DESIGN CHOICE, log 10). -/
def runsAhead (w : BitVec 32) : Bool :=
  let m := majorOf w
  let fn := field w.toNat 11 5
  (0x01 ≤ m && m ≤ 0x0A) || (0x10 ≤ m && m ≤ 0x11) || (0x14 ≤ m && m ≤ 0x16) || (0x18 ≤ m && m ≤ 0x1B) || m == 0x3C ||
  (isCsr w && !(waitingCsrs.contains (csrNum w))) ||
  (m == 0x1F && [1, 3, 4, 5, 6, 7, 10].contains fn) ||
  (m == 0x31 && (fn == 3 || fn == 4))

/-- A scalar access of memory: a load or store, the frame of eret, a block or a descriptor. -/
def scalarAccess (w : BitVec 32) : Bool :=
  (0x10 ≤ majorOf w && majorOf w ≤ 0x11) || readsBlock w || (majorOf w == 0x1F && field w.toNat 11 5 == 10)

/-- A vector memory instruction with so, or an atomic: later scalar accesses come after it (R192, R193). -/
def holdsAccesses (w : BitVec 32) : Bool :=
  let m := majorOf w
  (0x2C ≤ m && m ≤ 0x2E && bit w.toNat 6) || m == 0x2F || (m == 0x2D && field w.toNat 2 2 == 3)

/-- A queued instruction after which its strip ends (R187). -/
def endsStrip (w : BitVec 32) : Bool := isSmcast w || isMgpush w || isCopy w

/-- At most how many entries of the strip store buffer a queued instruction counts, with the VL in effect (R188): none for one that
stores nothing. -/
def State.storeBound (s : State) (w : BitVec 32) : Nat :=
  let m := majorOf w
  let mode := field w.toNat 2 2
  let vl := s.hart.r.vl.toNat
  let run := fun (n : Nat) => 2 * (n / 64 + 2)
  let emits := fun (v : Nat) => s.hart.r.streams.toList.any (fun t => match t with
    | some t => t.desc.mode == 1 && t.reg == v
    | none => false)
  let d := field w.toNat 21 5
  if m = 0x2D then (if mode = 0 then run (vl * 2 ^ field w.toNat 4 2) else 2 * vl)
  else if m = 0x2E ∧ 2 ≤ mode then run (36 * vl / 32 + 36)
  else if m = 0x2B then run (vl / 8 + 1)
  else if m = 0x3A then 64
  else if m = 0x36 then 2 * vl * ((emits (16 + 2 * d)).toNat + (emits (17 + 2 * d)).toNat)
  else if emits d then 2 * vl else 0

/-- What a queued instruction's dispatch keeps of the hart in focus (R97). -/
def State.snapshot (s : State) (w : BitVec 32) (op : Option Issued) : Queued :=
  let h := s.hart
  { word := w, pc := h.r.pc, x := h.r.x, f := h.r.f, lidx := h.r.lidx, issued := h.r.issued, ins := h.strip.count, frm := h.frm, chg := h.chg
    vskew := h.vskew, gears := h.gears, ate := h.aerr.ate, inh := h.aerr.inh, arrivals := h.arrivals, op := op }

/-- The channel of a command that waits in the queue. -/
def Queued.chan (q : Queued) : Option Nat :=
  match q.op with
  | some (.merge c _) => some c
  | some (.copy _) => some (field q.word.toNat 9 2)
  | _ => if isSmcast q.word then some (field q.word.toNat 9 2) else none

/-- The hart's word in hand is placed in its queue (R97). A command receives its identifier now (R342, R345, R367). -/
def State.enqueue (s : State) (w : BitVec 32) (op : Option Issued := none) : State :=
  let q := s.snapshot w op
  let s := (s.mapHart (fun h => { h with wait := .none, vqueue := h.vqueue ++ [q], strip := { h.strip with count := h.strip.count + 1 } })).advance
  match q.chan with
  | some c =>
    let id := nextId (q.issued.getD c 0)
    (s.mapRegs (fun r => { r with issued := r.issued.setIfInBounds c id })).setX (field w.toNat 21 5) (id.setWidth 64)
  | none => s

/-- The stores that the scalar side has buffered since a queued instruction was dispatched, and the entries they take. -/
def Strip.younger (st : Strip) (ins : Nat) : List BufStore × Nat :=
  let l := st.stores.filter (fun b => ins ≤ b.ins)
  (l, l.foldl (fun n b => n + entryCount b.va b.data.length) 0)

/-- The strip without what is younger than a store instruction. -/
def Strip.back (st : Strip) (ins : Nat) : Strip :=
  let (l, n) := st.younger ins
  { st with stores := st.stores.filter (fun b => !(l.contains b)), used := st.used - n, count := ins }

/-- The hart as a dispatch found it, on the scalar side (R97): an arrival at a barrier that was made later stands, and its bara, run again,
counts nothing (R298). -/
def Hart.backTo (h : Hart) (q : Queued) : Hart :=
  { h with
    vqueue := []
    iword := q.word
    strip := h.strip.back q.ins
    frm := q.frm, chg := q.chg, vskew := q.vskew, gears := q.gears
    aerr := { h.aerr with ate := q.ate, inh := q.inh }
    arrivals := h.arrivals.map (fun a => if q.arrivals.contains a then a else { a with again := true })
    r := { h.r with pc := q.pc, x := q.x, f := q.f, lidx := q.lidx, issued := q.issued } }

/-- The hart goes on on the scalar side where another value of it stood. Arrivals made behind an instruction that has ended its strip belong
to the next. -/
def Hart.forthTo (h young : Hart) (older : List Arrival) : Hart :=
  { h with
    frm := young.frm, chg := young.chg, vskew := young.vskew, gears := young.gears
    aerr := { h.aerr with ate := young.aerr.ate, inh := young.aerr.inh }
    arrivals := young.arrivals.map (fun a => if a.strip = young.serial ∧ !(older.contains a) then { a with strip := h.serial } else a)
    iword := young.iword
    r := { h.r with pc := young.r.pc, x := young.r.x, f := young.r.f, lidx := young.r.lidx, issued := young.r.issued } }

/-- The hart as the dispatch of a queued instruction found it, with nothing younger. -/
def State.asOf (s : State) (q : Queued) : State := s.mapHart (fun h => h.backTo q)

/-- What has not started is squashed (R76): the hart stands at its oldest queued instruction. FSTAT keeps what younger scalar FP instructions
merged (R421). -/
def State.squash (s : State) : State :=
  match s.hart.vqueue with
  | q :: _ => (s.asOf q).recomputeGear s.hart.brick
  | [] => s

/-- Whether an instruction has gone on to the next without a trap, a wait or an end. -/
def State.passed (s' s : State) (q : Queued) : Bool :=
  s'.dev.traps == s.dev.traps && s'.hart.uid == s.hart.uid && s'.hart.run == s.hart.run && s'.hart.wait == .none &&
  s'.hart.r.pc == q.pc + 4

/-- A queued instruction has run as far as it goes now: what is younger is put back when it has passed, and stays while it waits; else it is
squashed. -/
def State.putBack (s' s : State) (q : Queued) (rest : List Queued) : State :=
  let young := s.hart
  let (l, n) := young.strip.younger q.ins
  if s'.passed s q then
    let same := s'.hart.serial == young.serial
    let base := if same then q.ins + 1 else s'.hart.strip.count
    let move := fun (i : Nat) => base + (i - (q.ins + 1))
    if s'.freeEntries < n then s'
    else s'.mapHart (fun h => ({ h with
      vqueue := rest.map (fun x => { x with ins := move x.ins })
      strip := { h.strip with
        stores := h.strip.stores ++ l.map (fun b => { b with ins := move b.ins }), used := h.strip.used + n
        count := move young.strip.count } } : Hart).forthTo young q.arrivals)
  else if s'.dev.traps == s.dev.traps && s'.hart.uid == young.uid && s'.hart.run == young.run && s'.hart.serial == young.serial &&
      !(s'.hart.wait == .none) then
    { hart := { young with wait := s'.hart.wait, landed := s'.hart.landed }, dev := s'.dev }
  else s'.recomputeGear young.brick

/-- The registers that the fields of a word may name, with the registers of a group behind each; for spadd and spmul those that sparse
registers lie in (R365). -/
def spanOf (w : BitVec 32) : List Nat :=
  if majorOf w = 0x36 then (List.range 16).map (16 + ·)
  else [21, 16, 11].flatMap (fun o => (List.range 8).map (fun j => field w.toNat o 5 + j))

/-- Whether two words share no vector register. -/
def apart (a b : BitVec 32) : Bool := (spanOf a).all (fun v => !((spanOf b).contains v))

/-- vrng and vgumbel, which move the generators on (R314). -/
def draws (w : BitVec 32) : Bool := majorOf w == 0x25 && (field w.toNat 0 8 == 0x62 || field w.toNat 0 8 == 0x63)

/-- A bond instruction: a pass, a composite, or a sparse one. -/
def bond (w : BitVec 32) : Bool := 0x34 ≤ majorOf w && majorOf w ≤ 0x36

/-- An instruction that waits for a bond instruction in flight, as later ones wait for it: a bond instruction, or vdot (R236, R316). -/
def takesBond (w : BitVec 32) : Bool := bond w || majorOf w == 0x26

/-- Whether the oldest queued instruction may start behind those in flight (R95, R97): fewer than 16 are started, and it touches none of their
registers, nor the generators or the accesses that they order; one bond instruction is in
flight at most (R236). -/
def State.mayStart (s : State) (q : Queued) : Bool :=
  !s.hart.inflight.isEmpty && s.hart.inflight.length < 16 && s.brick.change.isNone && s.hart.entry.isNone && !(holdsAccesses q.word) &&
  s.hart.inflight.all (fun r => apart r.word q.word && !r.resumed && !(takesBond r.word && takesBond q.word) && !(holdsAccesses r.word) &&
    !(draws r.word && draws q.word))

/-- Whether the scalar side may issue behind the queue now (R98): not before ended strips that must close first (R193, R419), nor while
updates are unanswered (R193). -/
def State.mayIssue (s : State) : Bool :=
  s.hart.run == .running && s.brick.change.isNone && s.hart.entry.isNone && s.hart.pendCsr.isEmpty && !s.hart.timeout &&
  s.boundaryReport.isNone && s.hart.inflight.all (fun r => queues r.word && !r.resumed) && (s.hart.wait == .none || s.hart.wait == .smcast || !s.hart.vqueue.isEmpty) &&
  !(s.closesFirst true) && !s.updatesPending

/-- Whether a scalar access may come before the queued and started instructions (R191 to R193): none of them orders it, their stores fit in
the open strip with its own, and none of their stores falls into an earlier strip than it. -/
def State.accessPasses (s : State) : Bool :=
  let q := s.hart.vqueue
  let bound := q.foldl (fun n x => n + s.storeBound x.word) 0
  q.all (fun x => !(holdsAccesses x.word)) &&
  s.hart.inflight.all (fun r => !(holdsAccesses r.word) && majorOf r.word != 0x2D && majorOf r.word != 0x2E) &&
  (bound == 0 || bound + 2 ≤ s.freeEntries) && !(bound != 0 && q.any (fun x => endsStrip x.word)) &&
  q.all (fun x => match x.op with
    | some (.stream t) => t.mode != 1
    | _ => true)

/-- What a scalar instruction that runs ahead must not meet: a read of VL a fault-first load (R98), a write of AERR a report that it would
remove, a scalar FP instruction a write of FSTAT. -/
def State.meetsNone (s : State) (w : BitVec 32) : Bool :=
  let q := s.hart.vqueue
  !(isCsr w && csrNum w == 0 && q.any (fun x => majorOf x.word == 0x2C && field x.word.toNat 2 2 == 3)) &&
  !(isCsr w && csrNum w == 0x18 && csrFn w != 0 && csrFn w != 3 && bit (s.x (field w.toNat 16 5)).toNat 45 && s.hart.aerr.held.isSome) &&
  !(0x18 ≤ majorOf w && majorOf w ≤ 0x1B && q.any (fun x => writesLate x.word && csrNum x.word == 0x04))

/-- Whether a vector-side instruction can be dispatched: it has the lane groups and the type it needs (R88, R89, R354, R376). -/
def State.dispatches (s : State) (w : BitVec 32) : Bool :=
  majorOf w == 0x37 || (!s.hart.scalarOnly && (!s.hart.r.vtype.vill || majorOf w == 0x39 || majorOf w == 0x3A))

/-- Whether the scalar side issues a word behind the queue: a scalar instruction that need not wait, or a vector one that finds a free entry
(R97, R192). -/
def State.issues (s : State) (w : BitVec 32) : Bool :=
  let behind := !s.hart.vqueue.isEmpty || !s.hart.inflight.isEmpty
  (!(scalarAccess w) || s.accessPasses) && (!(isSbind w) || s.hart.vqueue.all (fun q => majorOf q.word != 0x30)) &&
  (if queues w then (s.hart.vqueue.filter (fun q => queues q.word)).length + s.hart.inflight.length < 32 && s.dispatches w &&
      (!(isSmcast w) || s.hart.openCommands (field w.toNat 9 2) < 64)
    else behind && (trails w || runsAhead w) && s.meetsNone w)

/-- A timed wait, or a wait at a barrier. -/
def waits (w : BitVec 32) : Bool := majorOf w == 0x1F && (field w.toNat 11 5 == 5 || field w.toNat 11 5 == 7)

/-- The hart as the scalar side issues a word behind the queue: its own wait, and the gear that an auto drop of it has lowered, are put
aside (R138). -/
def State.aside (s : State) (w : BitVec 32) : State :=
  s.mapHart (fun h => { h with iword := w, wait := .none, gears := { h.gears with drop := h.gears.drop && !(waits w) } })

/-- Whether an attempt of a step that the model tries has gone through: no trap, no wait, no end, no strip boundary. -/
def State.clean (s' s : State) : Bool :=
  s'.dev.traps == s.dev.traps && s'.hart.uid == s.hart.uid && s'.hart.run == s.hart.run && s'.hart.wait == .none &&
  s'.hart.serial == s.hart.serial

/-- A word has been issued behind the queue. What would trap, end a strip or wait stays for later; what waits for another node has asked it
(R20). -/
def State.issuedBehind (t s aside : State) (w : BitVec 32) : State :=
  if t.clean aside then
    t.mapHart (fun h => { h with wait := s.hart.wait, gears := { h.gears with drop := if waits w then s.hart.gears.drop else h.gears.drop } })
  else if t.dev.traps == s.dev.traps && t.hart.uid == s.hart.uid && t.hart.run == s.hart.run && t.hart.serial == s.hart.serial &&
      t.hart.wait == .memory then
    { hart := { s.hart with landed := t.hart.landed }, dev := t.dev }
  else s

/-- Whether an attempt waits for what it has asked other nodes to read. -/
def State.asksReads (t s : State) : Bool :=
  t.dev.traps == s.dev.traps && !(t.hart.wait == .none) && t.dev.outstanding.any (fun o => o.owner == .hart t.hart.uid && o.kind == 0)

/-- A word of an instruction that runs on lane groups: vector, mask, bond and tile instructions, smcast and mgpush. -/
def onLanes (w : BitVec 32) : Bool := vectorWord w && majorOf w != 0x37 && majorOf w != 0x30 && !(trails w) && !(runsAhead w)

/-- A vector instruction starts on lane groups, which wake (R108): not when a reuse hit does its work (R121). -/
def State.wokenBy (t s : State) (w : BitVec 32) : State :=
  if onLanes w && t.dev.traps == s.dev.traps && t.hart.wait == .none && t.hart.reuseHit == s.hart.reuseHit then
    t.mapDev (fun d => d.setBrick s.hart.brick { d.brick s.hart.brick with retention := (d.brick s.hart.brick).retention &&& ~~~s.hart.bound })
  else t

/-! ### Waits that auto gear counts (R138, R139) -/

/-- Whether the oldest vector instruction, at the head of the queue or in hand, still waits for a stream's data: an element from another node,
or a multicast that has not landed. -/
def State.stalled (s : State) : Bool :=
  s.dev.outstanding.any (fun o => o.owner == .hart s.hart.uid && o.kind == 0) ||
  (List.range 8).any (fun n => match s.hart.r.streams.getD n none with
    | some t => t.desc.mode == 2 && !t.ended && (spanOf ((s.hart.vqueue.head?.map (·.word)).getD s.hart.iword)).contains t.reg &&
        (s.hart.buffers.filter (fun b => b.1 == n)).length ≤ t.pos
    | none => false)

/-- Whether the hart is in a wait that auto gear counts and that has not ended, short of the gear-lead point of a timed wait (R138,
R139). -/
def State.counts (s : State) : Bool :=
  match s.hart.wait with
  | .barw n => match s.hart.latest n with
    | some a => s.unreleased a
    | none => false
  | .waitt t => s.dev.time.dtime.toNat + s.hart.gears.lead.toNat < t
  | .stream => s.stalled
  | _ => false

/-- EFF returns to REQ once the hart is in no such wait (R138). -/
def State.regear (s : State) : State := if s.counts then s else s.endWait

end Sys2Proof.Machine
end

