-- ==== Sys2Proof/Machine/Operands.lean ====
section
/-! DEFINITION. The operand forms of vector instructions: masks (R302, R321), groups as sources and destinations (R91, R92),
registers bound to streams (R164 to R168, R177, R339), failed slots (R243), and the start and end that every vector
instruction that writes a register group shares (R95, R97, R111, R118 to R121). -/

namespace Sys2Proof.Machine

/-! ### Masks -/

/-- Mask register `k` as a number. -/
def State.mask (s : State) (k : Nat) : Nat := (s.hart.r.k.getD k 0).toNat

/-- The mask of a selector: 0 means unmasked (R302). -/
def State.selected (s : State) (k : Nat) : Nat := if k = 0 then 2 ^ 8192 - 1 else s.mask k

/-- Write bits 0 to `vl − 1` of a mask from a number and keep the others; the generation rises (R117, R321). -/
def State.setMask (s : State) (k vl v : Nat) : State :=
  let old := s.mask k
  let new := BitVec.ofNat 8192 (old / 2 ^ vl * 2 ^ vl + v % 2 ^ vl)
  (s.bumpMask k).mapRegs (fun r => { r with
    k := r.k.setIfInBounds k new
    kfail := r.kfail.setIfInBounds k (BitVec.ofNat 128
      ((List.range 128).foldl (fun m t => if 64 * t + 64 ≤ vl then setField m t 1 0 else m) (r.kfail.getD k 0).toNat)) })

/-- Bits 0 to `n − 1` given by a function of their place. -/
def bitsOf (n : Nat) (f : Nat → Bool) : Nat := (List.range n).foldl (fun acc i => if f i then acc + 2 ^ i else acc) 0

/-! ### What an instruction captures (R97) -/

/-- The values captured at dispatch: now, or those of the record that is being continued. -/
def State.capture (s : State) (a b : Word) : Captured :=
  match s.hart.resume with
  | some r => r.cap
  | none => { op1 := a, op2 := b, vl := s.hart.r.vl, vtype := s.hart.r.vtype, frm := s.hart.frm }

def Captured.n (c : Captured) : Nat := c.vl.toNat
def Captured.w (c : Captured) : Nat := c.vtype.bits
def Captured.g (c : Captured) : Nat := c.vtype.g
def Captured.rm (c : Captured) : Nat := c.frm.toNat

/-- The element group of element `i` of `w` bits (R93). -/
def elementGroup (nl w i : Nat) : Nat := 4 * (i * w / 8 / (32 * nl)) + i * w / 8 % 32 / 8

/-- How many element groups hold an element below `n` (R93). -/
def groupCount (nl w n : Nat) : Nat := (List.range n).foldl (fun m i => max m (elementGroup nl w i + 1)) 0

/-- The brick lane that holds element `i` of `w` bits (R91). -/
def Hart.elementLane (h : Hart) (w i : Nat) : Nat := h.laneOf (i * w / 8 / 32 % h.lanes)

/-- A vector, mask or tile instruction needs a lane group and a legal type (R88, R89). -/
def State.needsLanes (s : State) : Except Stop Unit := require (!s.hart.scalarOnly && !s.hart.r.vtype.vill) illegalInstr

/-- An instruction that writes `n` registers waits while too few slot parts are free (R113). -/
def State.needsParts (s : State) (n : Nat) : Except Stop Unit := require (s.hasParts n) (.wait .memory [])

/-- The trap of the lowest element, the first of several at one element. -/
def lowestElem : List Trap → Option Trap
  | [] => none
  | t :: rest => match lowestElem rest with
    | some u => if u.elem.getD 0 < t.elem.getD 0 then some u else some t
    | none => some t

/-- The trap of several, by the ranking of R225: 0x02, then 0x08 and 0x09 at the lowest element, 0x08 first at one element, then
0x12. -/
def worst (l : List Trap) : Option Trap :=
  match lowestElem (l.filter (fun t => t.cause == 0x02)) with
  | some t => some t
  | none => match lowestElem (l.filter (fun t => t.cause == 0x08 || t.cause == 0x09)) with
    | some t => some ((l.find? (fun u => u.cause == 0x08 && u.elem == t.elem)).getD t)
    | none => lowestElem l

/-- What one instruction meets in two of its checks: the trap that R225 takes first. -/
def meets {α : Type} (a : Except Stop Unit) (b : Except Stop α) : Except Stop α :=
  match a, b with
  | .ok _, b => b
  | .error (.trap t), .error (.trap u) => .error (.trap ((worst [t, u]).getD t))
  | .error e, _ => .error e

/-! ### Streams -/

/-- How many elements a stream holds (R165). -/
def StreamDesc.total (d : StreamDesc) : Nat := d.cnt2 * d.cnt1 * d.cnt0 * max d.win 1

/-- The virtual address of element `q` of a stream: j moves fastest, then p, c1 and c2 (R165). -/
def StreamDesc.addr (d : StreamDesc) (q : Nat) : Nat :=
  let w := max d.win 1
  let j := q % w
  let p := q / w % d.cnt0
  let c1 := q / w / d.cnt0 % d.cnt1
  let c2 := q / w / d.cnt0 / d.cnt1
  (d.base + BitVec.ofNat 64 c2 * d.str2 + BitVec.ofNat 64 c1 * d.str1 + BitVec.ofNat 64 p * d.str0 +
    BitVec.ofNat 64 j * d.wstr).toNat

/-- The elements that are left (R166). A multicast stream counts its buffers elsewhere. -/
def Stream.left (t : Stream) : Nat := if t.ended then 0 else t.desc.total - t.pos

/-- The stream bound to a register. -/
def State.streamOf (s : State) (v : Nat) : Option (Nat × Stream) :=
  firstSome (fun n => match s.hart.r.streams.getD n none with
    | some t => if t.reg = v then some (n, t) else none
    | none => none) (List.range 8)

/-- Whether a group of `n` registers from `v` on contains a bound register at another place than its first (R339). -/
def State.boundInside (s : State) (v n : Nat) : Bool :=
  (List.range n).any (fun j => j != 0 && (s.streamOf (v + j)).isSome)

/-- Whether one of some registers is bound to a stream. -/
def State.anyBound (s : State) (l : List Nat) : Bool := l.any (fun v => (s.streamOf v).isSome)

def State.setStream (s : State) (n : Nat) (t : Option Stream) : State :=
  s.mapRegs (fun r => { r with streams := r.streams.setIfInBounds n t })

/-- A stream fetch of one element, on path Q (R168, R191): its value, or the condition its reader meets, or what must be read
from another node. -/
def State.fetchElem (s : State) (t : Stream) (q : Nat) : Except Stop (Fetched × State) :=
  let va := t.desc.addr q
  match s.access va (2 ^ t.desc.ew) .read none none with
  | .error (.trap x) => .ok (.trap x.cause (if x.cause = 0x12 then 5 else x.kind) x.tval.toNat, s)
  | .error e => .error e
  | .ok (ps, _, s) =>
    match s.loadVector ps va none none with
    | .ok l => .ok (.data (ofLe l), s)
    | .error (.trap x) => .ok (.trap x.cause (if x.cause = 0x12 then 5 else x.kind) x.tval.toNat, s)
    | .error e => .error e

/-- The elements `pos` to `pos + k − 1` of a stream as a reader takes them: those fetched, and the others fetched now (R166,
R168): the values, the traps they meet, and what must be read from other nodes. The element numbers of the reader start at `i`. -/
def State.gatherChunk (s : State) (n : Nat) (t : Stream) : Nat → Nat → List Nat × List Trap × List (Nat × Nat) × State
  | 0, _ => ([], [], [], s)
  | k + 1, i =>
    let q := t.pos + i
    let known := s.hart.fetched.find? (fun f => f.1 == n && f.2.1 == q)
    let got := match known with
      | some f => Except.ok (f.2.2, s)
      | none => s.fetchElem t q
    match got with
    | .error (.wait _ need) =>
      let (l, ts, m, s) := State.gatherChunk s n t k (i + 1)
      (l, ts, need ++ m, s)
    | .error (.hold need _) =>
      let (l, ts, m, s) := State.gatherChunk s n t k (i + 1)
      (l, ts, need ++ m, s)
    | .error (.trap x) =>
      let (l, ts, m, s) := State.gatherChunk s n t k (i + 1)
      (l, x :: ts, m, s)
    | .ok (.trap cause kind va, _) =>
      let (l, ts, m, s) := State.gatherChunk s n t k (i + 1)
      (l, { cause := cause, kind := kind, tval := BitVec.ofNat 64 va, elem := some i,
            lane := some (s.hart.elementLane (8 * 2 ^ t.desc.ew) i) } :: ts, m, s)
    | .ok (.data v, s) =>
      let (l, ts, m, s) := State.gatherChunk s n t k (i + 1)
      (v :: l, ts, m, s)

/-- The values, or the trap that ranks first among those of the chunk (R225). -/
def State.takeChunk (s : State) (n : Nat) (t : Stream) (k i : Nat) : Except Stop (List Nat × State) :=
  let (l, ts, need, s) := s.gatherChunk n t k i
  if !need.isEmpty then .error (.wait .stream need)
  else match worst ts with
    | some x => .error (.trap x)
    | none => .ok (l, s)

/-- An input stream's chunk for a reader of `vl` elements (R166): the elements, and the stream moved on. -/
def State.readInput (s : State) (n : Nat) (t : Stream) (vl : Nat) : Except Stop (List Nat × State) :=
  let k := min vl t.left
  match s.takeChunk n t k 0 with
  | .error e => .error e
  | .ok (l, s) =>
    let t' := { t with pos := t.pos + k, ended := t.ended || t.pos + k == t.desc.total }
    .ok (l, (s.setStream n (some t')).mapHart (fun h =>
      { h with fetched := h.fetched.filter (fun f => !(f.1 == n && f.2.1 < t'.pos)) }))

/-- The oldest landed buffer of a multicast stream that the open strip has not read (R177). -/
def State.landedBuffer (s : State) (n : Nat) (t : Stream) : Option McBuf :=
  (((s.hart.buffers.filter (fun b => b.1 == n))[t.pos]?).map (·.2))

/-- Return one permit to the sender of a mode-2 stream (R177). -/
def Device.returnPermit (d : Device) (receiver n : Nat) : Device :=
  { d with groups := d.groups.map (fun g =>
      if g.receiver = receiver ∧ g.stream = n then { g with permits := g.permits + 1 } else g) }

/-- A multicast buffer becomes the contents of a register, with no copy (R177), named as if one instruction had written it (R114). -/
def State.mapBuffer (s : State) (v : Nat) (b : McBuf) : State :=
  let s := (s.mapRegs (fun r => { r with
    v := r.v.setIfInBounds v b.data
    mortar := r.mortar.setIfInBounds v b.mortar
    vfail := r.vfail.setIfInBounds v b.fail
    phys := r.phys.setIfInBounds v b.phys
    names := dropNames r.names v 1 })).mapHart (fun h => h.dropComparing v 1)
  s.nameGroup v b.vl b.vtype

/-- The `k`-th landed buffer of stream `n` has been read. -/
def markRead (n : Nat) : Nat → List (Nat × McBuf) → List (Nat × McBuf)
  | _, [] => []
  | k, b :: rest =>
    if b.1 = n then
      (match k with
       | 0 => (b.1, { b.2 with read := true }) :: rest
       | k + 1 => b :: markRead n k rest)
    else b :: markRead n k rest

/-- A read of a register that is bound to a multicast stream (R177, R178, R345). Its permit returns at the first read. -/
def State.readMcast (s : State) (v n : Nat) (t : Stream) (c : Captured) : Except Stop (Bool × State) :=
  match s.landedBuffer n t with
  | some b =>
    if b.lgn ≠ s.hart.nlg ∨ b.vtype.sew ≠ c.vtype.sew then .error illegalOperand
    else
      let s := (s.mapBuffer v b).setStream n (some { t with pos := t.pos + 1 })
      let s := s.mapHart (fun h => { h with buffers := markRead n t.pos h.buffers })
      .ok (false, if b.read then s
        else (if (s.memberOf n).isSome then s.reserve n 1 else s).mapDev (fun d => d.returnPermit s.hart.uid n))
  | none => if t.ended then .ok (true, s) else .error (.wait .stream [])

/-- A group of the given elements, and zeros in every other place below `vl` (R166). -/
def chunkGroup (old : Group) (w vl : Nat) (l : List Nat) : Group :=
  { ((List.range vl).foldl (fun (g : Group) i => g.put w i (l.getD i 0)) old) with mortar := 0, cover := 0 }

/-! ### Sources -/

/-- The limits on an operand group: aligned to G, no bound register inside, and the width of a stream (R92, R166, R339). -/
def State.groupOk (s : State) (c : Captured) (v n : Nat) : Bool :=
  v % n == 0 && !s.boundInside v n &&
  (match s.streamOf v with
   | some (_, t) => t.desc.mode == 2 || t.desc.ew == c.vtype.sew.toNat
   | none => true)

/-- Read a source group of `n` registers (R303, R339). A chunk lies there at SEW, whatever width its reader takes it in (DESIGN CHOICE, log
109). -/
def State.readGroup (s : State) (c : Captured) (v n : Nat) : Except Stop (Group × State) :=
  let own := s.hart.r.group s.hart.lanes v n
  match s.streamOf v with
  | none => .ok (own, s)
  | some (k, t) =>
    if t.desc.mode = 1 then .ok (own, s)
    else if t.desc.mode = 0 then
      match s.readInput k t c.n with
      | .ok (l, s) => .ok (chunkGroup own c.w c.n l, s)
      | .error e => .error e
    else
      match s.readMcast v k t c with
      | .ok (true, s) => .ok (chunkGroup own c.w c.n [], s)
      | .ok (false, s) => .ok (s.hart.r.group s.hart.lanes v n, s)
      | .error e => .error e

/-- Read source groups in order; a register named twice is read once (R303). -/
def State.readGroups (s : State) (c : Captured) (n : Nat) : List Nat → List (Nat × Group) → Except Stop (List Group × State)
  | [], _ => .ok ([], s)
  | v :: rest, seen =>
    match lookupKey v seen with
    | some g =>
      match State.readGroups s c n rest seen with
      | .ok (l, s) => .ok (g :: l, s)
      | .error e => .error e
    | none =>
      match s.readGroup c v n with
      | .error e => .error e
      | .ok (g, s) =>
        match State.readGroups s c n rest (insertKey v g seen) with
        | .ok (l, s) => .ok (g :: l, s)
        | .error e => .error e

/-- The trap of a failed slot (R243). -/
def failedSlot (kind : Nat) (elem lane : Option Nat) : Stop :=
  .trap { cause := 0x12, kind := kind, tval := 0, elem := elem, lane := lane }

/-- Whether element `i` of `w` bits lies in a failed slot. -/
def Group.failedAt (g : Group) (w i : Nat) : Bool := g.fail != 0 && bit g.fail (i * w / 64)

/-- The first element that a reader takes from a failed slot. -/
def firstFailed (l : List (Nat × Group)) (active : Nat → Bool) (n : Nat) : Option (Nat × Nat) :=
  if l.all (fun x => x.2.fail == 0) then none
  else firstSome (fun i => firstSome (fun (x : Nat × Group) =>
    if active i && x.2.failedAt x.1 i then some (x.1, i) else none) l) (List.range n)

/-- Insist that no active element is read from a failed slot; each group stands with its element width. -/
def State.sound (s : State) (l : List (Nat × Group)) (active : Nat → Bool) (n : Nat) : Except Stop Unit :=
  match firstFailed l active n with
  | some (w, i) => .error (failedSlot 2 (some i) (some (s.hart.elementLane w i)))
  | none => .ok ()

/-- Insist that no bit of a selector's mask for some elements below `n` lies in a failed slot. -/
def State.soundMaskAt (s : State) (k n : Nat) (now : Nat → Bool) : Except Stop Unit :=
  let bad := if k = 0 then 0 else (s.hart.r.kfail.getD k 0).toNat
  if bad = 0 then .ok ()
  else match (List.range n).find? (fun e => now e && bit bad (e / 64)) with
    | some e => .error (failedSlot 2 (some e) (some (s.hart.elementLane s.hart.r.vtype.bits e)))
    | none => .ok ()

/-- Insist that no bit below `n` of a mask lies in a failed slot. -/
def State.soundMask (s : State) (k n : Nat) : Except Stop Unit :=
  match (List.range 128).find? (fun t => 64 * t < n && bit (s.hart.r.kfail.getD k 0).toNat t) with
  | some t => .error (failedSlot 2 (some (64 * t)) (some (s.hart.elementLane s.hart.r.vtype.bits (64 * t))))
  | none => .ok ()

/-- The bits of a selector's mask that lie in no failed slot. -/
def State.soundBits (s : State) (k : Nat) : Nat :=
  let bad := if k = 0 then 0 else (s.hart.r.kfail.getD k 0).toNat
  if bad = 0 then 2 ^ 8192 - 1 else bitsOf 8192 (fun i => !(bit bad (i / 64)))

/-! ### Destinations that are output streams -/

/-- The addresses that the elements of an access cover, cut at 64-byte granules, in rising order with overlaps merged, as
pieces of at most 56 bytes: how many entries they take (R188). -/
def piecesOf (l : List (Nat × Nat)) : Nat :=
  let cut := l.flatMap (fun r =>
    let first := r.1 / 64
    (List.range (divUp (r.1 % 64 + r.2) 64)).map (fun i =>
      (max r.1 (64 * (first + i)), min (r.1 + r.2) (64 * (first + i) + 64))))
  let sorted := sortBy (fun a b => a.1 ≤ b.1) cut
  let runs := sorted.foldl (fun (acc : List (Nat × Nat)) r => match acc with
    | (lo, hi) :: rest => if r.1 ≤ hi && r.1 / 64 == lo / 64 then (lo, max hi r.2) :: rest else r :: acc
    | [] => [r]) []
  runs.foldl (fun n r => n + divUp (r.2 - r.1) 56) 0

/-- The entries that `n` elements of `e` bytes from `va` on, `stride` apart, take: one run when they touch (R188). -/
def stridedCount (va : Nat) (stride : Int) (e n : Nat) : Nat :=
  if n = 0 then 0
  else if stride = e then entryCount va (n * e)
  else piecesOf ((List.range n).map (fun (i : Nat) => (wrap 64 (va + i * stride), e)))

/-- The stores of an output chunk: for each active element its address, place and bytes (R166, R168). -/
def State.chunkStores (s : State) (t : Stream) (g : Group) (w : Nat) (active : Nat → Bool) :
    List Nat → Except Stop (List BufStore × State)
  | [] => .ok ([], s)
  | i :: rest =>
    if !(active i) then State.chunkStores s t g w active rest
    else
      let va := t.desc.addr (t.pos + i)
      match s.access va (w / 8) .write (some i) (some (s.hart.elementLane w i)) with
      | .error e => .error e
      | .ok (ps, _, s) =>
        match State.chunkStores s t g w active rest with
        | .error e => .error e
        | .ok (l, s) => .ok ({ va := va, place := ps, data := leBytes (w / 8) (g.elem w i), path := .q, elem := i } :: l, s)

/-- The entries an output chunk takes: every position below VL counts (R188). -/
def Stream.chunkCount (t : Stream) (w n : Nat) : Nat :=
  let k := min n t.left
  piecesOf ((List.range k).map (fun i => (t.desc.addr (t.pos + i), w / 8)))

/-- A write of a register that is bound to an output stream emits its chunk (R166, R339), with elements of the width that is written (log 109).
A chunk that no strip buffer can hold performs at once, in a strip of its own (R189). -/
def State.emitChunk (s : State) (v w n : Nat) (active : Nat → Bool) (g : Group) : Except Stop State :=
  match s.streamOf v with
  | some (k, t) =>
    if t.desc.mode ≠ 1 then .ok s
    else
      let m := min n t.left
      match s.chunkStores t g w active (List.range m) with
      | .error e => .error e
      | .ok (l, s) =>
        let s := s.setStream k (some { t with pos := t.pos + m, ended := t.ended || t.pos + m == t.desc.total })
        let count := t.chunkCount w n
        if 256 < count then .ok ((s.performGroup s.hart.serial l).settleStrip s.hart.serial)
        else .ok (s.mapHart (fun h => { h with strip := h.strip.add l count }))
  | none => .ok s

/-- Translate and check the chunk that a write of register `v` emits. -/
def State.probeChunk (s : State) (v w n : Nat) (active : Nat → Bool) : Except Stop Unit :=
  match s.streamOf v with
  | some (_, t) =>
    if t.desc.mode ≠ 1 then .ok ()
    else match s.chunkStores t {} w active (List.range (min n t.left)) with
      | .ok _ => .ok ()
      | .error e => .error e
  | none => .ok ()

/-- The entries that a write of register `v` needs in the strip store buffer. -/
def State.chunkNeed (s : State) (v w n : Nat) : Nat :=
  match s.streamOf v with
  | some (_, t) => if t.desc.mode = 1 then t.chunkCount w n else 0
  | none => 0

/-! ### Instructions that write one vector register group -/

/-- What such an instruction works on: what it captured, the number of bound lanes, its sources and its old destination as
they stood before it (R303), `acc` the old destination where it is an operand, and its mask. -/
structure VIn where
  cap : Captured
  nl : Nat
  srcs : List Group
  old : Group
  acc : Group := {}
  mask : Nat
deriving DecidableEq, Repr

/-- What it leaves: its destination, its flags, and for a load whether it may be entered in the reuse table and under the
constant hint (R118, R124), with the places and the addresses of its elements. -/
structure VOut where
  group : Group
  flags : Flags := {}
  enter : Bool := true
  const : Bool := false
  places : List (Nat × List Place) := []
  vas : List Addr := []
deriving DecidableEq, Repr

/-- An element below VL whose mask bit is set. -/
def VIn.active (i : VIn) (e : Nat) : Bool := e < i.cap.n && bit i.mask e

/-- An element that the instruction writes to an output stream: with a carry or choice operand every element below VL (R166, R317, R319). -/
def VIn.emitted (i : VIn) (carry : Bool) (e : Nat) : Bool := if carry then e < i.cap.n else i.active e

/-- Source group `j`. -/
def VIn.src (i : VIn) (j : Nat) : Group := i.srcs.getD j {}

/-- A vector instruction that writes one register group. `code` is its word with every register number and the selector
cleared (R120); `keeps` says that elements of its old destination stay beside those that R302 keeps; `run` does its steps from one number to another: element groups (R93), stages, or the whole as one. `plan` lists the
stages of a bond instruction, each with its pass (R236), and `probe` is the probe pass of a load (R329). -/
structure VSpec where
  code : Nat
  dest : Nat
  srcs : List Nat
  sel : Nat
  carry : Bool := false
  readsOld : Bool := false
  keeps : Bool := false
  rounds : Bool := false
  reusable : Bool := true
  load : Bool := false
  ops : Word × Word := (0, 0)
  slot : Option Nat := none
  width : Nat
  destWidth : Nat
  ok : Captured → VIn → Bool
  steps : VIn → Nat
  plan : VIn → List (Nat × Nat) := fun _ => []
  probe : State → VIn → Except Stop Unit := fun _ _ => .ok ()
  check : VIn → Nat → Bool
  run : State → VIn → Nat → Nat → Except Stop (VOut × State)

/-- The name that an operand has, when it is named under the G in effect (R114). -/
def State.nameOf (s : State) (c : Captured) (v : Nat) : Option GroupName :=
  match s.hart.r.names.getD v none with
  | some m => if m.gm = c.vtype.gm then some m else none
  | none => none

/-- The reuse key of an instruction at its start, when it is of a reusable kind and every operand has a name (R118 to R121).
The old destination is part of the key when some element of the group is left undisturbed, or the instruction reads it. -/
def State.reuseKey (s : State) (v : VSpec) (i : VIn) : Option ReuseKey :=
  if !v.reusable || s.anyBound (v.dest :: v.srcs) then none
  else
    let c := i.cap
    match v.srcs.mapM (s.nameOf c) with
    | none => none
    | some names =>
      let total := 32 * i.nl * c.g * 8 / v.destWidth
      let kept := v.readsOld || v.keeps || c.n < total ||
        (!v.carry && v.sel != 0 && !c.vtype.kz && (List.range c.n).any (fun e => !(bit i.mask e)))
      let old := if kept then s.nameOf c v.dest else none
      if kept && old.isNone then none
      else some
        { ctx := s.hart.ctx, vmid := s.hart.vmid, lgset := s.hart.bound, word := BitVec.ofNat 32 v.code, vtype := c.vtype.low,
          frm := if v.rounds then c.frm else 0, vl := c.vl, srcs := names,
          mask := if v.sel = 0 then none else some (v.sel, s.hart.r.kgen.getD v.sel 0),
          old := old, sop1 := v.ops.1, sop2 := v.ops.2,
          slot := v.slot.map (fun o => (o, s.hart.r.ogen.getD o 0)) }

/-- The entry that a lookup hits (R121). That of an ordinary load serves the strip that made it (R123). -/
def State.lookup (s : State) (k : Option ReuseKey) : Option ReuseEntry :=
  match k with
  | none => none
  | some k => s.brick.reuse.find? (fun e => e.key == k && match e.kind with
    | .ordinary uid serial => uid == s.hart.uid && serial == s.hart.serial
    | _ => true)

/-- A hit: the destination maps to the entry's result, its flags are replayed, and the count rises (R121). -/
def State.hit (s : State) (v n : Nat) (e : ReuseEntry) : State :=
  let s := (s.mapBrick (fun k => { k with reuse := touchEntry k.reuse e.key })).mapHart (fun h => h.dropComparing v n)
  let s := s.mapRegs (fun r =>
    let r := (List.range n).foldl (fun (r : Regs) j =>
      { r with v := r.v.setIfInBounds (v + j) (e.result.regs.getD j 0)
               mortar := r.mortar.setIfInBounds (v + j) (e.result.mortar.getD j 0)
               phys := r.phys.setIfInBounds (v + j) (e.result.phys.getD j [])
               vfail := r.vfail.setIfInBounds (v + j) (e.result.fail.getD j 0) }) r
    { r with names := (dropNames r.names v n).setIfInBounds v (some e.result.name) })
  (s.mergeFlags e.flags).mapHart (fun h => { h with reuseHit := h.reuseHit + 1 })

/-- What completion keeps of an instruction for the reuse table (R118, R123, R124). -/
def State.enterResult (s : State) (v : Nat) (k : Option ReuseKey) (flags : Flags) (held : List NamedGroup) (kind : EntryKind) :
    State :=
  match k, s.hart.r.names.getD v none with
  | some key, some m =>
    (s.mapBrick (fun b => b.enter
      { key := key, held := held, result := s.hart.r.named v m, flags := flags, kind := kind })).relieve s.hart.brick
  | _, _ => s

/-- The groups that a key names, held by its entry (R112). -/
def State.heldGroups (s : State) (k : Option ReuseKey) : List NamedGroup :=
  match k with
  | none => []
  | some key => s.liveGroups.filter (fun l => key.srcs.contains l.name || key.old == some l.name)

/-- The oldest instruction in flight, which has finished, completes: its flags are merged, its group is named and its result may be entered
(R95, R118, R219). -/
def State.completeOldest (s : State) : State :=
  match s.hart.inflight with
  | r :: rest =>
    if !r.finished then s
    else
      let d := field r.word.toNat 21 5
      let s := (s.mapHart (fun h => { h with inflight := rest })).mergeFlags r.flags
      (s.nameGroup d r.cap.vl r.cap.vtype).enterResult d r.key r.flags r.held r.kind
  | [] => s

/-- What it works on at its start or continuation. -/
def State.vin (s : State) (v : VSpec) (c : Captured) (srcs : List Group) : VIn :=
  { cap := c, nl := s.hart.lanes, srcs := srcs.take v.srcs.length, old := s.hart.r.group s.hart.lanes v.dest c.g
    acc := srcs.getD v.srcs.length {}, mask := s.selected v.sel }

/-- The registers it reads: its sources, and its destination when that is an operand. -/
def VSpec.reads (v : VSpec) : List Nat := if v.readsOld then v.srcs ++ [v.dest] else v.srcs

/-- Checks before anything is read: lanes and type, a carry operand, alignment, streams, and the instruction's own limits (R88,
R89, R92, R339). -/
def State.vcheck (s : State) (v : VSpec) (c : Captured) : Except Stop Unit :=
  (s.needsLanes).bind fun _ =>
  (require ((!v.carry || v.sel != 0) && (v.dest :: v.srcs).all (fun u => s.groupOk c u c.g)) illegalOperand).bind fun _ =>
  s.needsParts c.g

/-- The physical registers of some groups of `n` registers. -/
def Regs.physOf (r : Regs) (n : Nat) (l : List Nat) : List Phys := l.flatMap (fun v => (List.range n).map (fun j => r.phys.getD (v + j) []))

/-- PASSST after `k` stages of a plan (R236). -/
def pointAt (plan : List (Nat × Nat)) (k : Nat) : PassSt :=
  match plan[k]? with
  | some (p, t) =>
    if k = 0 then {}
    else { valid := true, step := BitVec.ofNat 8 p, next := BitVec.ofNat 4 t
           done := BitVec.ofNat 4 ((plan.take k).filter (fun x => x.1 == p)).length }
  | none => {}

/-- The stages of a plan that a PASSST tells of. -/
def doneOf (plan : List (Nat × Nat)) (p : PassSt) : Nat :=
  ((List.range plan.length).find? (fun k => p.valid && pointAt plan k == p)).getD 0

/-- Set PASSST to a point of a plan (R236). -/
def State.setPoint (s : State) (plan : List (Nat × Nat)) (k : Nat) : State :=
  if plan.isEmpty then s else s.mapRegs (fun r => { r with passst := pointAt plan k })

/-! ### Where an instruction started (R226, R420) -/

/-- The word in hand starts at an address: what a trap needs to leave nothing of it, with the registers that it writes. -/
def State.startOf (s : State) (pc : Word) (regs : List Nat) : Start :=
  let r := s.hart.r
  { front := { s.snapshot s.hart.iword none with pc := pc }
    dest := regs.map (fun v => { reg := v, v := r.v.getD v 0, mortar := r.mortar.getD v 0, fail := r.vfail.getD v 0, phys := r.phys.getD v [] })
    names := r.names, gkey := r.gkey, gpos := r.gpos, passst := r.passst }

/-- The registers without what an instruction has done since it started: its destination has its old mapping. -/
def Regs.undo (r : Regs) (t : Start) : Regs :=
  let r := t.dest.foldl (fun (r : Regs) o => { r with
    v := r.v.setIfInBounds o.reg o.v, mortar := r.mortar.setIfInBounds o.reg o.mortar, vfail := r.vfail.setIfInBounds o.reg o.fail
    phys := r.phys.setIfInBounds o.reg o.phys }) r
  let touches := fun (u : Nat) (m : GroupName) => t.dest.any (fun o => u ≤ o.reg && o.reg < u + 2 ^ m.gm.toNat)
  { r with
    names := Vector.ofFn (fun u => match t.names[u] with
      | some m => if touches u.val m then some m else r.names[u]
      | none => if t.dest.any (·.reg == u.val) then none else r.names[u])
    gkey := t.gkey, gpos := t.gpos, passst := t.passst }

/-- An instruction in flight that has not been saved meets a trap: neither it nor what is younger has any effect (R226). -/
def State.abandon (s : State) (r : InFlight) : State :=
  match r.start with
  | none => s
  | some t =>
    let undo := fun (x : Regs) (q : InFlight) => match q.start with
      | some t => x.undo t
      | none => x
    ((s.mapRegs (fun x => s.hart.inflight.reverse.foldl undo x)).asOf t.front).recomputeGear s.hart.brick

/-- The oldest instruction in flight traps. One that a restore has brought in can meet poisoned or failed data alone, an answer of another node
that fails among them, stops where it stands, and goes on at RESUMEPC (R420); any other leaves nothing of itself. -/
def State.trapRecord (s : State) (r : InFlight) (t : Trap) : State :=
  if r.resumed then s.trapAt (if t.cause = 0x12 then t else { t with cause := 0x12, kind := 1 }) r.pc s.pc
  else (s.abandon r).trapAt t r.pc r.pc

/-- Keep a record: in the place of the one that is being continued, else as the youngest (R97). -/
def Hart.keepRecord (h : Hart) (r : InFlight) : Hart :=
  match h.resume with
  | some old => { h with inflight := replaceFirst (fun x => x == old) (fun _ => r) h.inflight }
  | none => { h with inflight := h.inflight ++ [r] }

/-- The record that is being continued leaves. -/
def Hart.dropRecord (h : Hart) : Hart :=
  match h.resume with
  | some old => { h with inflight := removeFirst (fun x => x == old) h.inflight }
  | none => h

/-- Whether the instruction in hand is the oldest of those in flight. -/
def Hart.oldest (h : Hart) : Bool :=
  match h.resume, h.inflight with
  | _, [] => true
  | some old, r :: _ => old == r
  | none, _ => false

/-- The strip that a restore opened has its checkpoint behind the instructions that were in flight (R419). -/
def State.recheck (s : State) (resumed : Bool) : State := if resumed then s.mapHart (fun h => { h with ckpt := h.r }) else s

/-- The instruction has run its steps up to `k` of `total`. It completes: flags, name and reuse entry (R115, R118, R219); or it
leaves a record in flight (R80, R96), which completes after older ones (R95). -/
def State.vfinish (s : State) (v : VSpec) (i : VIn) (o : VOut) (rec : InFlight) (k total : Nat) : State :=
  let flags := rec.flags.join o.flags
  let kind : EntryKind := if !v.load then .compute else if o.const then .const else .ordinary s.hart.uid s.hart.serial
  let key := if o.enter then rec.key else none
  let s := (s.setGroup v.dest i.cap.g o.group).setPoint (v.plan i) k
  if k < total ∨ !s.hart.oldest ∨ (s.hart.budget.isSome ∧ !(s.anyBound (v.dest :: v.srcs))) then
    (s.mapHart (fun h => h.keepRecord { rec with
      groups := k, finished := k == total, flags := flags, key := key, kind := kind
      places := if o.places.isEmpty then rec.places else o.places
      vas := if o.places.isEmpty then rec.vas else o.vas
      holds := rec.holds ++ h.r.physOf i.cap.g [v.dest] })).recheck rec.resumed
  else
    ((((s.mapHart Hart.dropRecord).mergeFlags flags).nameGroup v.dest i.cap.vl i.cap.vtype).enterResult v.dest key flags rec.held
      kind).recheck rec.resumed

/-- How far an instruction goes now: `budget` steps beyond those done, at least to the end of a step that is not divided. -/
def State.stepsTo (s : State) (v : VSpec) (done total : Nat) : Nat :=
  match s.hart.budget with
  | some b => if s.anyBound (v.dest :: v.srcs) ∨ total ≤ 1 then total else min total (done + b)
  | none => total

/-- Continue a vector instruction from its record: its checks have passed, and only failed data can stop it (R420). -/
def State.continueV (s : State) (v : VSpec) (r : InFlight) : State :=
  let c := r.cap
  let now := v.reads.map (fun u => s.hart.r.group s.hart.lanes u c.g)
  -- a bond instruction works on its operands as it read them (R236, R303)
  let srcs := if r.srcs.isEmpty then now else r.srcs ++ now.drop v.srcs.length
  let i := s.vin v c srcs
  let i := if r.srcs.isEmpty then i else { i with old := r.old }
  let total := v.steps i
  let plan := v.plan i
  let first := if plan.isEmpty then r.groups else doneOf plan s.hart.r.passst
  let k := s.stepsTo v first total
  let now := fun e => !plan.isEmpty || (first ≤ elementGroup i.nl v.width e && elementGroup i.nl v.width e < k)
  let body :=
    (s.soundMaskAt v.sel c.n now).bind fun _ =>
    (s.sound (srcs.map (fun g => (v.width, g))) (fun e => v.check i e && now e) c.n).bind fun _ =>
    v.run s i first k
  match body with
  | .ok (o, s) => (s.vfinish v i o r k total).mapHart (fun h => { h with landed := [], wait := .none })
  | .error (.trap t) => s.trapRecord r t
  | .error (.wait w need) => s.waitFor w need
  | .error (.hold need got) => (s.askFor .memory need).mapHart (fun h => { h with landed := h.landed ++ got })

/-- Free values for the elements below `n` of a group: what a composite holds between stages that the specification does not give
(DESIGN CHOICE, log 26). -/
def State.drawElems (s : State) (g : Group) (w n : Nat) : Group × State :=
  (List.range n).foldl (fun (x : Group × State) e =>
    let (k, s) := x.2.draw
    (x.1.put w e (Config.freeWord k).toNat, s)) (g, s)

/-- A bond instruction that writes no single register group goes through its stages: it stops between two of them, or ends (R236). `srcs` are
its operands, from the registers `reads`, and `dests` the registers it writes. -/
def State.inStages (s : State) (c : Captured) (plan : List (Nat × Nat)) (divides : Bool) (srcs : List Group) (reads dests : List Nat)
    (finish : State → Except Stop State) : Except Stop State :=
  let total := max 1 plan.length
  let first := if s.hart.resume.isSome then doneOf plan s.hart.r.passst else 0
  let k := match s.hart.budget with
    | some b => if divides && 1 < total then min total (first + b) else total
    | none => total
  let goOn := fun (s : State) (old : Option InFlight) => if old.isSome then s.mapHart (fun h => { h with landed := [], wait := .none }) else s.retire
  if k < total then
    let r := (s.hart.resume).getD { word := s.hart.iword, pc := s.pc, cap := c, start := some (s.startOf s.pc dests), srcs := srcs
                                    holds := s.hart.r.physOf 1 (reads ++ dests) }
    let s1 := dests.foldl (fun (s : State) v =>
      let (g, s) := s.drawElems (s.hart.r.group s.hart.lanes v 1) c.w c.n
      s.setGroup v 1 (g.seal (blocksOf s.hart.lanes 1) true)) s
    .ok (goOn ((s1.setPoint plan k).mapHart (fun h =>
      h.keepRecord { r with groups := k, holds := r.holds ++ (if s.hart.resume.isSome then [] else h.r.physOf 1 dests) })) s.hart.resume)
  else (finish ((s.setPoint plan total).mapHart Hart.dropRecord)).bind fun t =>
    .ok ((goOn t s.hart.resume).recheck ((s.hart.resume.map (·.resumed)).getD false))

/-- The operands of such an instruction: as it read them, when it goes on (R236, R303). -/
def State.stagedSources (s : State) (c : Captured) (n : Nat) (l : List Nat) : Except Stop (List Group × State) :=
  match s.hart.resume with
  | some r => if r.srcs.isEmpty then s.readGroups c n l [] else .ok (r.srcs, s)
  | none => s.readGroups c n l []

/-- What such an instruction leaves: a trap of one that is continued is taken at its own address (R420). -/
def State.settleStaged (s : State) (e : Except Stop State) : State :=
  match s.hart.resume, e with
  | some r, .error (.trap t) => s.trapRecord r t
  | _, e => s.settle e

/-- Start or continue a vector instruction that writes one register group, and go on at the next instruction. -/
def State.runV (s : State) (v : VSpec) : State :=
  match s.hart.resume with
  | some r => s.continueV v r
  | none =>
    let c := s.capture v.ops.1 v.ops.2
    let need := s.chunkNeed v.dest v.destWidth c.n
    let s0 := s.boundary need
    s0.settle (
        (s0.vcheck v c).bind fun _ =>
        (s0.roomFor need).bind fun _ =>
        (require (v.ok c (s0.vin v c (v.reads.map (fun u => s0.hart.r.group s0.hart.lanes u c.g)))) illegalOperand).bind fun _ =>
        let i0 := s0.vin v c []
        let key := s0.reuseKey v i0
        match s0.lookup key with
        | some e => .ok ((s0.hit v.dest c.g e).retire)
        | none =>
          let probe := s0.probeChunk v.dest v.destWidth c.n (fun e => i0.emitted v.carry e && (v.carry || bit (s0.soundBits v.sel) e))
          let body :=
            (if v.sel = 0 then .ok () else s0.soundMask v.sel c.n).bind fun _ =>
            (s0.readGroups c c.g v.reads []).bind fun (srcs, s1) =>
            let i := s1.vin v c srcs
            (s1.sound (srcs.map (fun g => (v.width, g))) (v.check i) c.n).bind fun _ =>
            let total := v.steps i
            let k := s1.stepsTo v 0 total
            let rec0 : InFlight := { word := s1.hart.iword, pc := s0.pc, cap := c, key := key, held := s1.heldGroups key
                                     holds := s1.hart.r.physOf c.g (v.reads ++ [v.dest])
                                     start := some (s0.startOf s0.pc ((List.range c.g).map (v.dest + ·)))
                                     srcs := if (v.plan i).isEmpty then [] else i.srcs, old := if (v.plan i).isEmpty then {} else i.old }
            (v.run s1 i 0 k).bind fun (o, s2) =>
            (s2.emitChunk v.dest v.destWidth c.n (i.emitted v.carry) o.group).bind fun s3 =>
            .ok (s3.vfinish v i o rec0 k total).retire
          -- what its probe pass finds comes before failed data (R225)
          let found := match body with
            | .error (.trap t) => if t.cause ≠ 0x12 ∨ s0.anyBound v.srcs then .ok ()
              else v.probe s0 { s0.vin v c (v.srcs.map (fun u => s0.hart.r.group s0.hart.lanes u c.g)) with
                mask := Nat.land i0.mask (s0.soundBits v.sel) }
            | _ => .ok ()
          (meets probe (meets found body)).bind fun s4 => .ok (if 256 < need then s4.endStrip s4.pc else s4))

end Sys2Proof.Machine
end

