-- ==== Sys2Proof/Machine/VectorBase.lean ====
section
/-! DEFINITION. The shapes that vector compute instructions share (R302 to R304, R317 to R319). -/

namespace Sys2Proof.Machine

/-- Do something for each element below VL that belongs to the steps `lo` to `hi − 1`, in rising order: `f` gives an active
element's value and flags; an inactive one follows KZ (R302). `w` is the width whose element groups are counted, `dw` the
destination's. -/
def VIn.each (i : VIn) (w dw lo hi : Nat) (f : Nat → Nat × BitVec 5) : Group × Flags :=
  (List.range i.cap.n).foldl (fun (acc : Group × Flags) e =>
    if elementGroup i.nl w e < lo ∨ hi ≤ elementGroup i.nl w e then acc
    else if bit i.mask e then
      let (v, fl) := f e
      (acc.1.put dw e v, acc.2.add e fl)
    else if i.cap.vtype.kz then (acc.1.put dw e 0, acc.2)
    else acc) (i.old, {})

/-- An element-wise instruction on elements of `w` bits with results of `dw` bits: its steps are the element groups (R93), and
every block that it writes gets mortar byte 0 (R211). -/
def elementSpec (w dw code d : Nat) (srcs : List Nat) (k : Nat) (ok : Captured → VIn → Bool)
    (f : VIn → Nat → Nat × BitVec 5) : VSpec :=
  { code := code, dest := d, srcs := srcs, sel := k, width := w, destWidth := dw, ok := ok
    steps := fun i => groupCount i.nl w i.cap.n
    check := fun i e => i.active e
    run := fun s i lo hi =>
      let (g, fl) := i.each w dw lo hi (f i)
      .ok ({ group := g.seal (blocksOf i.nl i.cap.g) true, flags := fl }, s) }

/-- An instruction that runs as a whole: one step. -/
def wholeSpec (w code d : Nat) (srcs : List Nat) (k : Nat) (ok : Captured → VIn → Bool)
    (run : State → VIn → Except Stop (VOut × State)) : VSpec :=
  { code := code, dest := d, srcs := srcs, sel := k, width := w, destWidth := w, ok := ok
    steps := fun _ => 1
    check := fun i e => i.active e
    run := fun s i _ _ => run s i }

/-- An instruction that writes mask bits below VL (R318, R321): `f` gives an active element's bit; an inactive one follows KZ
when `masked`. -/
structure KSpec where
  dest : Nat
  srcs : List Nat
  sel : Nat
  carry : Bool := false
  ok : Captured → Bool
  f : VIn → Nat → Bool × BitVec 5

/-- Run it: compares and carries (R317, R318). -/
def State.runMaskWrite (s : State) (v : KSpec) : State :=
  let c := s.capture 0 0
  s.settle (
    (s.needsLanes).bind fun _ =>
    (require ((!v.carry || v.sel != 0) && v.srcs.all (fun u => s.groupOk c u c.g) && v.ok c) illegalOperand).bind fun _ =>
    (if v.sel = 0 then .ok () else s.soundMask v.sel c.n).bind fun _ =>
    (s.readGroups c c.g v.srcs []).bind fun (srcs, s1) =>
    let i : VIn := { cap := c, nl := s1.hart.lanes, srcs := srcs, old := {}, mask := if v.carry then 2 ^ 8192 - 1 else s.selected v.sel }
    (s1.sound (srcs.map (fun g => (c.w, g))) i.active c.n).bind fun _ =>
    let old := s.mask v.dest
    let (bits, fl) := (List.range c.n).foldl (fun (acc : Nat × Flags) e =>
      if bit i.mask e then
        let (b, f) := v.f i e
        (acc.1 + b.toNat * 2 ^ e, acc.2.add e f)
      else if c.vtype.kz then acc
      else (acc.1 + (bit old e).toNat * 2 ^ e, acc.2)) (0, {})
    .ok (((s1.setMask v.dest c.n bits).mergeFlags fl).retire))

end Sys2Proof.Machine
end

