-- ==== Sys2Proof/Machine/VectorFp.lean ====
section
/-! DEFINITION. Vector FP arithmetic (R307, R308), conversions, quantization and scales (R309 to R312), functions and generators
(R313, R314) and dot products (R315). -/

namespace Sys2Proof.Machine

/-! ### FP arithmetic (R307, R308) -/

/-- The FP type of a SEW, with B for BF16 (R307). -/
def fpOf (c : Captured) (bf : Bool) : FpFmt :=
  if bf then .bf16 else if c.w = 64 then .fp64 else if c.w = 32 then .fp32 else .fp16

/-- SEW 8, and B with another SEW than 16, are illegal operands (R307). -/
def fpLegal (c : Captured) (bf : Bool) : Bool := c.w != 8 && (!bf || c.w == 16)

/-- The operations of R307 by their code. -/
def fpOp (fn : Nat) (t : FpFmt) (rm a b : Nat) : Nat × BitVec 5 :=
  match fn with
  | 0x00 => fpAdd t rm a b
  | 0x01 => fpSub t rm a b
  | 0x02 => fpMul t rm a b
  | 0x03 => fpDiv t rm a b
  | 0x04 => fpMinMax t false a b
  | 0x05 => fpMinMax t true a b
  | _ => fpSqrt t rm a

/-- .vv: the second operand is an element of vs2. -/
def State.fpVv (s : State) (fn code d : Nat) (srcs : List Nat) (k : Nat) (bf : Bool) : State :=
  let c := s.capture 0 0
  s.runV { elementSpec c.w c.w (code + bf.toNat * 128) d srcs k (fun c _ => fpLegal c bf)
    (fun i e => fpOp fn (fpOf c bf) c.rm ((i.src 0).elem c.w e) ((i.src 1).elem c.w e)) with rounds := fn != 0x04 && fn != 0x05 }

/-- .vf: the second operand is the low SEW bits of the captured f register. -/
def State.fpVf (s : State) (fn code d a f k : Nat) (bf : Bool) : State :=
  let c := s.capture (s.f f) 0
  s.runV { elementSpec c.w c.w (code + bf.toNat * 128) d [a] k (fun c _ => fpLegal c bf)
    (fun i e => fpOp fn (fpOf c bf) c.rm ((i.src 0).elem c.w e) (c.op1.toNat % 2 ^ c.w)) with rounds := fn != 0x04 && fn != 0x05, ops := (s.f f, 0) }

/-- vfma and vfms: the old vd is the addend (R308). -/
def State.fpFused (s : State) (sub : Bool) (code d a b k : Nat) (bf : Bool) : State :=
  let c := s.capture 0 0
  s.runV { elementSpec c.w c.w (code + bf.toNat * 128) d [a, b] k (fun c _ => fpLegal c bf)
    (fun i e =>
      let x := (i.src 0).elem c.w e
      let y := (i.src 1).elem c.w e
      let z := i.acc.elem c.w e
      if sub then fpFms (fpOf c bf) c.rm x y z else fpFma (fpOf c bf) c.rm x y z) with rounds := true, readsOld := true }

def execVfaddVv (d a b k : Nat) (bf : Bool) (s : State) : Host.Outcome State Fault Refusal := done (s.fpVv 0x00 0x8c000000 d [a, b] k bf)
def execVfsubVv (d a b k : Nat) (bf : Bool) (s : State) : Host.Outcome State Fault Refusal := done (s.fpVv 0x01 0x8c000001 d [a, b] k bf)
def execVfmulVv (d a b k : Nat) (bf : Bool) (s : State) : Host.Outcome State Fault Refusal := done (s.fpVv 0x02 0x8c000002 d [a, b] k bf)
def execVfdivVv (d a b k : Nat) (bf : Bool) (s : State) : Host.Outcome State Fault Refusal := done (s.fpVv 0x03 0x8c000003 d [a, b] k bf)
def execVfminVv (d a b k : Nat) (bf : Bool) (s : State) : Host.Outcome State Fault Refusal := done (s.fpVv 0x04 0x8c000004 d [a, b] k bf)
def execVfmaxVv (d a b k : Nat) (bf : Bool) (s : State) : Host.Outcome State Fault Refusal := done (s.fpVv 0x05 0x8c000005 d [a, b] k bf)
def execVfsqrt (d a k : Nat) (bf : Bool) (s : State) : Host.Outcome State Fault Refusal := done (s.fpVv 0x06 0x8c000006 d [a] k bf)
def execVfaddVf (d a f k : Nat) (bf : Bool) (s : State) : Host.Outcome State Fault Refusal := done (s.fpVf 0x00 0x90000000 d a f k bf)
def execVfsubVf (d a f k : Nat) (bf : Bool) (s : State) : Host.Outcome State Fault Refusal := done (s.fpVf 0x01 0x90000001 d a f k bf)
def execVfmulVf (d a f k : Nat) (bf : Bool) (s : State) : Host.Outcome State Fault Refusal := done (s.fpVf 0x02 0x90000002 d a f k bf)
def execVfdivVf (d a f k : Nat) (bf : Bool) (s : State) : Host.Outcome State Fault Refusal := done (s.fpVf 0x03 0x90000003 d a f k bf)
def execVfminVf (d a f k : Nat) (bf : Bool) (s : State) : Host.Outcome State Fault Refusal := done (s.fpVf 0x04 0x90000004 d a f k bf)
def execVfmaxVf (d a f k : Nat) (bf : Bool) (s : State) : Host.Outcome State Fault Refusal := done (s.fpVf 0x05 0x90000005 d a f k bf)
def execVfma (d a b k : Nat) (bf : Bool) (s : State) : Host.Outcome State Fault Refusal := done (s.fpFused false 0x98000000 d a b k bf)
def execVfms (d a b k : Nat) (bf : Bool) (s : State) : Host.Outcome State Fault Refusal := done (s.fpFused true 0x98000001 d a b k bf)

/-! ### Types and conversions (R262, R304, R309) -/

/-- The types that a type code names (R262). -/
inductive VType1 where
  | fp (t : FpFmt)
  | narrow (t : Narrow)
  | int (signed : Bool) (w : Nat)
  | none
deriving DecidableEq, Repr

/-- The type of a code of R262. -/
def typeOf (code : Nat) : VType1 :=
  match code with
  | 0 => .fp .fp64
  | 1 => .fp .fp32
  | 2 => .fp .fp16
  | 3 => .fp .bf16
  | 4 => .narrow .d8
  | 5 => .narrow .d4
  | 8 => .int true 8
  | 9 => .int true 16
  | 10 => .int true 32
  | 11 => .int true 64
  | 12 => .int false 8
  | 13 => .int false 16
  | 14 => .int false 32
  | 15 => .int false 64
  | _ => .none

/-- Bits of an element of a type. -/
def VType1.bits : VType1 → Nat
  | .fp t => fpWidth t
  | .narrow t => t.width
  | .int _ w => w
  | .none => 0

/-- An instruction whose operands may have different widths runs as a whole (R304); elements beyond VL of the destination are
kept. `sw` and `dw` are the widths of source and destination. -/
def mixedSpec (sw dw code d : Nat) (srcs : List Nat) (k : Nat) (ok : Captured → VIn → Bool) (f : VIn → Nat → Nat × BitVec 5) : VSpec :=
  { wholeSpec sw code d srcs k ok (fun s i =>
      let (g, fl) := i.each sw dw 0 (groupCount i.nl sw i.cap.n) (f i)
      .ok ({ group := g.seal (blocksOf i.nl i.cap.g) true, flags := fl }, s)) with destWidth := dw, rounds := true }

/-- The pairs that vfcvt converts, at the SEW of the wider (R304, R309). -/
def convertLegal (c : Captured) (t f : Nat) : Bool :=
  let w := max (typeOf t).bits (typeOf f).bits
  c.w == w &&
  (match typeOf t, typeOf f with
   | .fp _, .fp _ => true
   | .fp _, .int _ _ => true
   | .int _ _, .fp _ => true
   | _, _ => false)

/-- One conversion (R213, R216, R309). -/
def convertOne (t f rm v : Nat) : Nat × BitVec 5 :=
  match typeOf t, typeOf f with
  | .fp x, .fp y => fpConvert y x rm v
  | .int sg w, .fp y => numToInt sg w rm (decodeFp y v)
  | .fp x, .int sg w => intToFp x rm (if sg then toSigned w v else v)
  | _, _ => (0, 0)

def execVfcvt (d a t k f : Nat) (s : State) : Host.Outcome State Fault Refusal :=
  let c := s.capture 0 0
  let sw := (typeOf f).bits
  let dw := (typeOf t).bits
  let code := 0x94000000 + t * 2 ^ 11 + f
  let run := fun (i : VIn) (e : Nat) => convertOne t f c.rm ((i.src 0).elem sw e)
  if sw = dw then done (s.runV { elementSpec sw dw code d [a] k (fun c _ => convertLegal c t f) run with rounds := true })
  else done (s.runV (mixedSpec sw dw code d [a] k (fun c _ => convertLegal c t f) run))

/-! ### Blocks (R210 to R212, R310 to R312) -/

/-- Whether the mask bits of every block of `size` elements below VL are equal, and VL holds whole blocks (R212). -/
def wholeBlocks (c : Captured) (mask size : Nat) : Bool :=
  c.n % size == 0 &&
  (List.range (c.n / size)).all (fun b =>
    let m := field mask (size * b) size
    m == 0 || m == 2 ^ size - 1)

/-- The value of code `e` of a narrow group, under its block's scale (R210). -/
def Group.narrow (g : Group) (t : Narrow) (e : Nat) : FpNum := decodeNarrow t (g.scale (e * t.width / 256)) (g.elem t.width e)

/-- Write one block of quantized values: its codes, scale and flags (R215). -/
def putBlock (t : Narrow) (rm size b : Nat) (l : List FpNum) (acc : Group × Flags) : Group × Flags :=
  let (sc, codes) := quantizeBlock t rm l
  let (g, fl) := (List.range size).foldl (fun (r : Group × Flags) j =>
    let (v, f) := codes.getD j (0, 0)
    (r.1.put t.width (size * b + j) v, r.2.add (size * b + j) f)) acc
  (g.setScale b (mortarOf sc), fl)

/-- Quantize the blocks below VL (R310). -/
def quantizeAll (i : VIn) (t : Narrow) (f : FpFmt) (size : Nat) : Group × Flags :=
  (List.range (i.cap.n / size)).foldl (fun (acc : Group × Flags) b =>
    if bit i.mask (size * b) then
      putBlock t i.cap.rm size b ((List.range size).map (fun j => decodeFp f ((i.src 0).elem (fpWidth f) (size * b + j)))) acc
    else if i.cap.vtype.kz then
      (((List.range size).foldl (fun (g : Group) j => g.put t.width (size * b + j) 0) acc.1).setScale b 0, acc.2)
    else acc) (i.old, {})

def execVqz (d a t k f : Nat) (s : State) : Host.Outcome State Fault Refusal :=
  let code := 0x94000020 + t * 2 ^ 11 + f
  let go := fun (n : Narrow) (y : FpFmt) =>
    let size := 256 / n.width
    { wholeSpec (fpWidth y) code d [a] k (fun c i => c.w == fpWidth y && wholeBlocks c i.mask size) (fun s i =>
        let (g, fl) := quantizeAll i n y size
        .ok ({ group := g.seal (blocksOf i.nl i.cap.g) false, flags := fl }, s)) with destWidth := n.width, rounds := true }
  match typeOf t, typeOf f with
  | .narrow n, .fp y => done (s.runV (go n y))
  | _, _ => done (s.settle ((s.needsLanes).bind fun _ => .error illegalOperand))

def execVdq (d a t k f : Nat) (s : State) : Host.Outcome State Fault Refusal :=
  let c := s.capture 0 0
  let code := 0x94000040 + t * 2 ^ 11 + f
  match typeOf t, typeOf f with
  | .fp y, .narrow n => done (s.runV (mixedSpec n.width (fpWidth y) code d [a] k (fun c _ => c.w == fpWidth y)
      (fun i e =>
        let x := (i.src 0).narrow n e
        let (v, fl) := roundNum y c.rm x
        (v, fl ||| snanFlag [x]))))
  | _, _ => done (s.settle ((s.needsLanes).bind fun _ => .error illegalOperand))

/-- vscl: codes of vs1 with the scales that vs2 holds (R312). -/
def execVscl (d a b k : Nat) (s : State) : Host.Outcome State Fault Refusal :=
  done (s.runV { wholeSpec 8 0x94000080 d [a, b] k (fun c i => c.w == 8 && wholeBlocks c i.mask 32) (fun s i =>
    let on := fun q => q < i.cap.n / 32 && bit i.mask (32 * q)
    (s.sound [(8, i.src 0)] i.active i.cap.n).bind fun _ =>
    (s.sound [(8, i.src 1)] on (i.cap.n / 32)).bind fun _ =>
    let g := (List.range (i.cap.n / 32)).foldl (fun (g : Group) q =>
      if on q then ((List.range 32).foldl (fun (g : Group) j => g.put 8 (32 * q + j) ((i.src 0).elem 8 (32 * q + j))) g).setScale q
        (BitVec.ofNat 8 ((i.src 1).elem 8 q))
      else if i.cap.vtype.kz then ((List.range 32).foldl (fun (g : Group) j => g.put 8 (32 * q + j) 0) g).setScale q 0
      else g) i.old
    .ok ({ group := g.seal (blocksOf i.nl i.cap.g) false }, s)) with check := fun _ _ => false })

/-- vsclg: the scales of vs1 as elements (R312). -/
def execVsclg (d a : Nat) (s : State) : Host.Outcome State Fault Refusal :=
  done (s.runV { wholeSpec 8 0x94000081 d [a] 0 (fun c _ => c.w == 8 && c.n % 32 == 0) (fun s i =>
    let g := (List.range i.cap.n).foldl (fun (g : Group) q =>
      g.put 8 q (if q < i.cap.n / 32 then ((i.src 0).scale q).toNat else 0)) i.old
    .ok ({ group := g.seal (blocksOf i.nl i.cap.g) true }, s)) with check := fun _ _ => false })

/-! ### Functions and generators (R313, R314) -/

def State.functionV (s : State) (code d a k : Nat) (f : Nat → Nat → Nat × BitVec 5) : State :=
  let c := s.capture 0 0
  s.runV { elementSpec 32 32 code d [a] k (fun c _ => c.w == 32) (fun i e => f c.rm ((i.src 0).elem 32 e)) with rounds := true }

def execVfexp (d a k : Nat) (s : State) : Host.Outcome State Fault Refusal := done (s.functionV 0x94000060 d a k fpExp)
def execVflog (d a k : Nat) (s : State) : Host.Outcome State Fault Refusal := done (s.functionV 0x94000061 d a k fpLog)

/-- Draw once for each active element of the steps, from the lane that holds it (R223). -/
def drawEach (w lo hi : Nat) (f : Word → Nat × BitVec 5) (i : VIn) (r : Regs) : Group × Flags × Vector Word 32 :=
  (List.range i.cap.n).foldl (fun (acc : Group × Flags × Vector Word 32) e =>
    if elementGroup i.nl w e < lo ∨ hi ≤ elementGroup i.nl w e then acc
    else if bit i.mask e then
      let l := e * w / 8 / 32 % i.nl
      let (v, fl) := f (drawWord (r.gkey.getD l 0) (acc.2.2.getD l 0))
      (acc.1.put w e v, acc.2.1.add e fl, acc.2.2.setIfInBounds l (acc.2.2.getD l 0 + 1))
    else if i.cap.vtype.kz then (acc.1.put w e 0, acc.2)
    else acc) (i.old, {}, r.gpos)

/-- An instruction that draws (R314); it is never reused (R119). -/
def State.generate (s : State) (w code d k : Nat) (ok : Captured → Bool) (f : Word → Nat × BitVec 5) : State :=
  s.runV { elementSpec w w code d [] k (fun c _ => ok c) (fun _ _ => (0, 0)) with
    reusable := false
    run := fun s i lo hi =>
      let (g, fl, pos) := drawEach w lo hi f i s.hart.r
      .ok ({ group := g.seal (blocksOf i.nl i.cap.g) true, flags := fl, enter := false },
        s.mapRegs (fun r => { r with gpos := pos })) }

def execVrng (d k : Nat) (s : State) : Host.Outcome State Fault Refusal :=
  let c := s.capture 0 0
  done (s.generate c.w 0x94000063 d k (fun _ => true) (fun w => (w.toNat / 2 ^ (64 - c.w), 0)))
def execVgumbel (d k : Nat) (s : State) : Host.Outcome State Fault Refusal :=
  let c := s.capture 0 0
  done (s.generate 32 0x94000062 d k (fun c => c.w == 32) (fun w => fpGumbel c.rm (field w.toNat 40 24)))

/-- Every bound lane gets the key of its ordinal, and position 0 (R222, R314). -/
def execVrngSeed (rs : Nat) (s : State) : Host.Outcome State Fault Refusal :=
  done (s.settle ((s.needsLanes).bind fun _ =>
    .ok (s.mapRegs (fun r => { r with
      gkey := Vector.ofFn (fun l => if l.val < s.hart.lanes then seedKey (s.x rs) l.val else r.gkey[l])
      gpos := Vector.ofFn (fun l => if l.val < s.hart.lanes then 0 else r.gpos[l]) })).retire))

/-! ### Dot products (R315) -/

/-- The SEW of a dot product's type, the width of its accumulator, and codes per element. -/
def dotShape : VType1 → Option (Nat × FpFmt × Nat)
  | .fp .fp64 => some (64, .fp64, 1)
  | .fp .fp32 => some (32, .fp32, 1)
  | .fp t => some (fpWidth t, .fp32, 1)
  | .narrow .d8 => some (8, .fp32, 1)
  | .narrow .d4 => some (8, .fp32, 2)
  | _ => none

/-- Factor `q` of a group, counted in elements or codes. -/
def Group.factor (g : Group) (t : VType1) (q : Nat) : FpNum :=
  match t with
  | .fp f => decodeFp f (g.elem (fpWidth f) q)
  | .narrow n => g.narrow n q
  | _ => .nan false

/-- Flags with their elements. -/
def flagsOf (l : List (Nat × BitVec 5)) : Flags := l.foldl (fun (f : Flags) x => f.add x.1 x.2) {}

/-- vdot (R315): the accumulator is element 0 of vd in its own width. -/
def State.dot (s : State) (grouped : Bool) (code d a b k t : Nat) : State :=
  match dotShape (typeOf t) with
  | none => s.settle (.error illegalInstr)
  | some (w, at', per) =>
    let aw := fpWidth at'
    s.runV { wholeSpec w (code + t * 2) d [a, b] k (fun c _ => c.w == w) (fun s i =>
      if i.cap.n = 0 then .ok ({ group := i.old }, s)
      else
        (s.sound [(w, i.src 0), (w, i.src 1)] i.active i.cap.n).bind fun _ =>
        (s.sound [(aw, i.acc)] (fun _ => true) 1).bind fun _ =>
        let terms : List Term := (List.range (i.cap.n * per)).map (fun q =>
          if bit i.mask (q / per) then
            let (p, f) := productOf ((i.src 0).factor (typeOf t) q) ((i.src 1).factor (typeOf t) q)
            some (q / per, p, f)
          else none)
        let (v, fl) := sumTerms grouped at' i.cap.rm (i.acc.elem aw 0) terms
        let g := (i.old.put aw 0 v).setScale 0 0
        .ok ({ group := g.seal (blocksOf i.nl i.cap.g) false, flags := flagsOf fl }, s)) with
      check := fun _ _ => false, rounds := true, keeps := true, readsOld := true }

def execVdotS (d a b k t : Nat) (s : State) : Host.Outcome State Fault Refusal := done (s.dot false 0x98000010 d a b k t)
def execVdotG (d a b k t : Nat) (s : State) : Host.Outcome State Fault Refusal := done (s.dot true 0x98000011 d a b k t)

end Sys2Proof.Machine
end

