-- ==== Sys2Proof/Machine/VectorInteger.lean ====
section
/-! DEFINITION. Vector integer arithmetic (R306). No case raises a flag or traps on its values. -/

namespace Sys2Proof.Machine

/-- Clamp an integer to a range. -/
def clamp (lo hi i : Int) : Int := if i < lo then lo else if hi < i then hi else i

/-- The result of code `fn` on `w`-bit elements (R306). -/
def intOp (fn w a b : Nat) : Nat :=
  let sa := toSigned w a
  let sb := toSigned w b
  let top : Int := 2 ^ (w - 1)
  match fn with
  | 0x00 => (a + b) % 2 ^ w
  | 0x01 => wrap w ((a : Int) - b)
  | 0x02 => a * b % 2 ^ w
  | 0x03 => wrap w (sa * sb / 2 ^ w)
  | 0x04 => a * b / 2 ^ w
  | 0x05 => if b = 0 then 2 ^ w - 1 else wrap w (sa.tdiv sb)
  | 0x06 => if b = 0 then 2 ^ w - 1 else a / b
  | 0x07 => if b = 0 then a else wrap w (sa.tmod sb)
  | 0x08 => if b = 0 then a else a % b
  | 0x09 => if sb < sa then b else a
  | 0x0A => min a b
  | 0x0B => if sa < sb then b else a
  | 0x0C => max a b
  | 0x0D => Nat.land a b
  | 0x0E => Nat.lor a b
  | 0x0F => Nat.xor a b
  | 0x10 => a * 2 ^ (b % w) % 2 ^ w
  | 0x11 => a / 2 ^ (b % w)
  | 0x12 => wrap w (sa / 2 ^ (b % w))
  | 0x13 => wrap w (clamp (-top) (top - 1) (sa + sb))
  | 0x14 => min (a + b) (2 ^ w - 1)
  | 0x15 => wrap w (clamp (-top) (top - 1) (sa - sb))
  | _ => a - b

/-- The second operand of a .vi form: shift amounts are unsigned, other immediates are sign-extended (R306). -/
def immOperand (fn w : Nat) (i : BitVec 5) : Nat := if 0x10 ≤ fn ∧ fn ≤ 0x12 then i.toNat else wrap w i.toInt

/-- .vv: the second operand is an element of vs2. -/
def State.intVv (s : State) (fn code d a b k : Nat) : State :=
  let c := s.capture 0 0
  s.runV (elementSpec c.w c.w code d [a, b] k (fun _ _ => true)
    (fun i e => (intOp fn c.w ((i.src 0).elem c.w e) ((i.src 1).elem c.w e), 0)))

/-- .vx: the second operand is the captured integer register. -/
def State.intVx (s : State) (fn code d a x k : Nat) : State :=
  let c := s.capture (s.x x) 0
  s.runV { elementSpec c.w c.w code d [a] k (fun _ _ => true)
    (fun i e => (intOp fn c.w ((i.src 0).elem c.w e) (i.cap.op1.toNat % 2 ^ c.w), 0)) with ops := (s.x x, 0) }

/-- .vi: the second operand is the immediate, which is part of the word. -/
def State.intVi (s : State) (fn code d a : Nat) (imm : BitVec 5) (k : Nat) : State :=
  let c := s.capture 0 0
  s.runV (elementSpec c.w c.w (code + imm.toNat * 2 ^ 11) d [a] k (fun _ _ => true)
    (fun i e => (intOp fn c.w ((i.src 0).elem c.w e) (immOperand fn c.w imm), 0)))

def execVaddVv (d a b k : Nat) (s : State) : Host.Outcome State Fault Refusal := done (s.intVv 0x00 0x80000000 d a b k)
def execVsubVv (d a b k : Nat) (s : State) : Host.Outcome State Fault Refusal := done (s.intVv 0x01 0x80000001 d a b k)
def execVmulVv (d a b k : Nat) (s : State) : Host.Outcome State Fault Refusal := done (s.intVv 0x02 0x80000002 d a b k)
def execVmulhVv (d a b k : Nat) (s : State) : Host.Outcome State Fault Refusal := done (s.intVv 0x03 0x80000003 d a b k)
def execVmulhnVv (d a b k : Nat) (s : State) : Host.Outcome State Fault Refusal := done (s.intVv 0x04 0x80000004 d a b k)
def execVdivVv (d a b k : Nat) (s : State) : Host.Outcome State Fault Refusal := done (s.intVv 0x05 0x80000005 d a b k)
def execVdivnVv (d a b k : Nat) (s : State) : Host.Outcome State Fault Refusal := done (s.intVv 0x06 0x80000006 d a b k)
def execVremVv (d a b k : Nat) (s : State) : Host.Outcome State Fault Refusal := done (s.intVv 0x07 0x80000007 d a b k)
def execVremnVv (d a b k : Nat) (s : State) : Host.Outcome State Fault Refusal := done (s.intVv 0x08 0x80000008 d a b k)
def execVminVv (d a b k : Nat) (s : State) : Host.Outcome State Fault Refusal := done (s.intVv 0x09 0x80000009 d a b k)
def execVminnVv (d a b k : Nat) (s : State) : Host.Outcome State Fault Refusal := done (s.intVv 0x0a 0x8000000a d a b k)
def execVmaxVv (d a b k : Nat) (s : State) : Host.Outcome State Fault Refusal := done (s.intVv 0x0b 0x8000000b d a b k)
def execVmaxnVv (d a b k : Nat) (s : State) : Host.Outcome State Fault Refusal := done (s.intVv 0x0c 0x8000000c d a b k)
def execVandVv (d a b k : Nat) (s : State) : Host.Outcome State Fault Refusal := done (s.intVv 0x0d 0x8000000d d a b k)
def execVorVv (d a b k : Nat) (s : State) : Host.Outcome State Fault Refusal := done (s.intVv 0x0e 0x8000000e d a b k)
def execVxorVv (d a b k : Nat) (s : State) : Host.Outcome State Fault Refusal := done (s.intVv 0x0f 0x8000000f d a b k)
def execVsllVv (d a b k : Nat) (s : State) : Host.Outcome State Fault Refusal := done (s.intVv 0x10 0x80000010 d a b k)
def execVsrlVv (d a b k : Nat) (s : State) : Host.Outcome State Fault Refusal := done (s.intVv 0x11 0x80000011 d a b k)
def execVsraVv (d a b k : Nat) (s : State) : Host.Outcome State Fault Refusal := done (s.intVv 0x12 0x80000012 d a b k)
def execVsaddVv (d a b k : Nat) (s : State) : Host.Outcome State Fault Refusal := done (s.intVv 0x13 0x80000013 d a b k)
def execVsaddnVv (d a b k : Nat) (s : State) : Host.Outcome State Fault Refusal := done (s.intVv 0x14 0x80000014 d a b k)
def execVssubVv (d a b k : Nat) (s : State) : Host.Outcome State Fault Refusal := done (s.intVv 0x15 0x80000015 d a b k)
def execVssubnVv (d a b k : Nat) (s : State) : Host.Outcome State Fault Refusal := done (s.intVv 0x16 0x80000016 d a b k)
def execVaddVx (d a x k : Nat) (s : State) : Host.Outcome State Fault Refusal := done (s.intVx 0x00 0x84000000 d a x k)
def execVsubVx (d a x k : Nat) (s : State) : Host.Outcome State Fault Refusal := done (s.intVx 0x01 0x84000001 d a x k)
def execVmulVx (d a x k : Nat) (s : State) : Host.Outcome State Fault Refusal := done (s.intVx 0x02 0x84000002 d a x k)
def execVmulhVx (d a x k : Nat) (s : State) : Host.Outcome State Fault Refusal := done (s.intVx 0x03 0x84000003 d a x k)
def execVmulhnVx (d a x k : Nat) (s : State) : Host.Outcome State Fault Refusal := done (s.intVx 0x04 0x84000004 d a x k)
def execVdivVx (d a x k : Nat) (s : State) : Host.Outcome State Fault Refusal := done (s.intVx 0x05 0x84000005 d a x k)
def execVdivnVx (d a x k : Nat) (s : State) : Host.Outcome State Fault Refusal := done (s.intVx 0x06 0x84000006 d a x k)
def execVremVx (d a x k : Nat) (s : State) : Host.Outcome State Fault Refusal := done (s.intVx 0x07 0x84000007 d a x k)
def execVremnVx (d a x k : Nat) (s : State) : Host.Outcome State Fault Refusal := done (s.intVx 0x08 0x84000008 d a x k)
def execVminVx (d a x k : Nat) (s : State) : Host.Outcome State Fault Refusal := done (s.intVx 0x09 0x84000009 d a x k)
def execVminnVx (d a x k : Nat) (s : State) : Host.Outcome State Fault Refusal := done (s.intVx 0x0a 0x8400000a d a x k)
def execVmaxVx (d a x k : Nat) (s : State) : Host.Outcome State Fault Refusal := done (s.intVx 0x0b 0x8400000b d a x k)
def execVmaxnVx (d a x k : Nat) (s : State) : Host.Outcome State Fault Refusal := done (s.intVx 0x0c 0x8400000c d a x k)
def execVandVx (d a x k : Nat) (s : State) : Host.Outcome State Fault Refusal := done (s.intVx 0x0d 0x8400000d d a x k)
def execVorVx (d a x k : Nat) (s : State) : Host.Outcome State Fault Refusal := done (s.intVx 0x0e 0x8400000e d a x k)
def execVxorVx (d a x k : Nat) (s : State) : Host.Outcome State Fault Refusal := done (s.intVx 0x0f 0x8400000f d a x k)
def execVsllVx (d a x k : Nat) (s : State) : Host.Outcome State Fault Refusal := done (s.intVx 0x10 0x84000010 d a x k)
def execVsrlVx (d a x k : Nat) (s : State) : Host.Outcome State Fault Refusal := done (s.intVx 0x11 0x84000011 d a x k)
def execVsraVx (d a x k : Nat) (s : State) : Host.Outcome State Fault Refusal := done (s.intVx 0x12 0x84000012 d a x k)
def execVsaddVx (d a x k : Nat) (s : State) : Host.Outcome State Fault Refusal := done (s.intVx 0x13 0x84000013 d a x k)
def execVsaddnVx (d a x k : Nat) (s : State) : Host.Outcome State Fault Refusal := done (s.intVx 0x14 0x84000014 d a x k)
def execVssubVx (d a x k : Nat) (s : State) : Host.Outcome State Fault Refusal := done (s.intVx 0x15 0x84000015 d a x k)
def execVssubnVx (d a x k : Nat) (s : State) : Host.Outcome State Fault Refusal := done (s.intVx 0x16 0x84000016 d a x k)
def execVaddVi (d a : Nat) (i : BitVec 5) (k : Nat) (s : State) : Host.Outcome State Fault Refusal := done (s.intVi 0x00 0x88000000 d a i k)
def execVsubVi (d a : Nat) (i : BitVec 5) (k : Nat) (s : State) : Host.Outcome State Fault Refusal := done (s.intVi 0x01 0x88000001 d a i k)
def execVmulVi (d a : Nat) (i : BitVec 5) (k : Nat) (s : State) : Host.Outcome State Fault Refusal := done (s.intVi 0x02 0x88000002 d a i k)
def execVmulhVi (d a : Nat) (i : BitVec 5) (k : Nat) (s : State) : Host.Outcome State Fault Refusal := done (s.intVi 0x03 0x88000003 d a i k)
def execVmulhnVi (d a : Nat) (i : BitVec 5) (k : Nat) (s : State) : Host.Outcome State Fault Refusal := done (s.intVi 0x04 0x88000004 d a i k)
def execVdivVi (d a : Nat) (i : BitVec 5) (k : Nat) (s : State) : Host.Outcome State Fault Refusal := done (s.intVi 0x05 0x88000005 d a i k)
def execVdivnVi (d a : Nat) (i : BitVec 5) (k : Nat) (s : State) : Host.Outcome State Fault Refusal := done (s.intVi 0x06 0x88000006 d a i k)
def execVremVi (d a : Nat) (i : BitVec 5) (k : Nat) (s : State) : Host.Outcome State Fault Refusal := done (s.intVi 0x07 0x88000007 d a i k)
def execVremnVi (d a : Nat) (i : BitVec 5) (k : Nat) (s : State) : Host.Outcome State Fault Refusal := done (s.intVi 0x08 0x88000008 d a i k)
def execVminVi (d a : Nat) (i : BitVec 5) (k : Nat) (s : State) : Host.Outcome State Fault Refusal := done (s.intVi 0x09 0x88000009 d a i k)
def execVminnVi (d a : Nat) (i : BitVec 5) (k : Nat) (s : State) : Host.Outcome State Fault Refusal := done (s.intVi 0x0a 0x8800000a d a i k)
def execVmaxVi (d a : Nat) (i : BitVec 5) (k : Nat) (s : State) : Host.Outcome State Fault Refusal := done (s.intVi 0x0b 0x8800000b d a i k)
def execVmaxnVi (d a : Nat) (i : BitVec 5) (k : Nat) (s : State) : Host.Outcome State Fault Refusal := done (s.intVi 0x0c 0x8800000c d a i k)
def execVandVi (d a : Nat) (i : BitVec 5) (k : Nat) (s : State) : Host.Outcome State Fault Refusal := done (s.intVi 0x0d 0x8800000d d a i k)
def execVorVi (d a : Nat) (i : BitVec 5) (k : Nat) (s : State) : Host.Outcome State Fault Refusal := done (s.intVi 0x0e 0x8800000e d a i k)
def execVxorVi (d a : Nat) (i : BitVec 5) (k : Nat) (s : State) : Host.Outcome State Fault Refusal := done (s.intVi 0x0f 0x8800000f d a i k)
def execVsllVi (d a : Nat) (i : BitVec 5) (k : Nat) (s : State) : Host.Outcome State Fault Refusal := done (s.intVi 0x10 0x88000010 d a i k)
def execVsrlVi (d a : Nat) (i : BitVec 5) (k : Nat) (s : State) : Host.Outcome State Fault Refusal := done (s.intVi 0x11 0x88000011 d a i k)
def execVsraVi (d a : Nat) (i : BitVec 5) (k : Nat) (s : State) : Host.Outcome State Fault Refusal := done (s.intVi 0x12 0x88000012 d a i k)
def execVsaddVi (d a : Nat) (i : BitVec 5) (k : Nat) (s : State) : Host.Outcome State Fault Refusal := done (s.intVi 0x13 0x88000013 d a i k)
def execVsaddnVi (d a : Nat) (i : BitVec 5) (k : Nat) (s : State) : Host.Outcome State Fault Refusal := done (s.intVi 0x14 0x88000014 d a i k)
def execVssubVi (d a : Nat) (i : BitVec 5) (k : Nat) (s : State) : Host.Outcome State Fault Refusal := done (s.intVi 0x15 0x88000015 d a i k)
def execVssubnVi (d a : Nat) (i : BitVec 5) (k : Nat) (s : State) : Host.Outcome State Fault Refusal := done (s.intVi 0x16 0x88000016 d a i k)

end Sys2Proof.Machine
end

