-- ==== Sys2Proof/Machine/Bond.lean ====
section
/-! DEFINITION. The bond network: passes with built-in and loaded operators (R348 to R353, R358), operator descriptors (R354 to
R357), routes (R359) and composite instructions (R360 to R363). -/

namespace Sys2Proof.Machine

/-! ### Operator descriptors (R355, R356) -/

/-- A descriptor as a number: byte b in bits [8b+7:8b]. -/
abbrev OpDesc := Nat

def OpDesc.byte (d : OpDesc) (b : Nat) : Nat := field d (8 * b) 8
/-- Micro-op `m` of output `o`. -/
def OpDesc.micro (d : OpDesc) (o m : Nat) : Nat := field d (128 + 64 * o + 16 * m) 16

/-- Sources that a micro-op code uses; none for a code that is not assigned, or KEEP. -/
def microSources (code : Nat) : Option Nat :=
  if code = 0 then some 1
  else if code = 4 ∨ code = 5 ∨ code = 0x0B then some 3
  else if code ≤ 0x0A then some 2
  else none

/-- A source code that micro-op `m` may read. -/
def sourceOk (m src : Nat) : Bool := src < 4 || (src < 7 && src - 4 < m)

/-- The legality of micro-op `m` of an output with `n` of them (R356). -/
def microOk (type n m u : Nat) : Bool :=
  if n ≤ m then u == 0
  else
    let code := u / 2048
    match microSources code with
    | none => false
    | some k =>
      field u 0 2 == 0 &&
      (List.range 3).all (fun j =>
        let src := field u (8 - 3 * j) 3
        if j < k then sourceOk m src else src == 0) &&
      !(8 ≤ code && code ≤ 0x0A && type < 4) &&
      !((type == 4 || type == 5) && code != 0 && code != 0x0B)

/-- The legality check of R356. -/
def OpDesc.legal (d : OpDesc) : Bool :=
  let type := d.byte 1
  d.byte 0 == 1 && (type ≤ 5 || (8 ≤ type && type ≤ 15)) && d.byte 2 ≤ 4 && d.byte 3 ≤ 4 && field d 32 32 == 0 &&
  (List.range 2).all (fun o => (List.range 4).all (fun m => microOk type (d.byte (2 + o)) m (d.micro o m)))

/-! ### Pair operators (R352, R355) -/

/-- The control bit of a constant of `w` bits at a stage: bit s going up, bit 13 + s going down; bits at or above `w` read 0. -/
def control (w : Nat) (down : Bool) (s c : Nat) : Bool :=
  let i := if down then 13 + s else s
  i < w && bit c i

/-- One micro-op on integers or FP values of `w` bits (R355). -/
def microOp (type code rm w : Nat) (ctl : Nat → Bool) (a b c : Nat) : Nat × BitVec 5 :=
  if code = 0 then (a, 0)
  else if code = 0x0B then (if ctl a then c else b, 0)
  else match typeOf type with
    | .fp t =>
      (match code with
       | 1 => fpAdd t rm a b
       | 2 => fpSub t rm a b
       | 3 => fpMul t rm a b
       | 4 => fpFma t rm a b c
       | 5 => fpFms t rm a b c
       | 6 => fpMinMax t false a b
       | _ => fpMinMax t true a b)
    | .int signed _ =>
      (match code with
       | 1 => intOp 0x00 w a b
       | 2 => intOp 0x01 w a b
       | 3 => intOp 0x02 w a b
       | 4 => (a * b + c) % 2 ^ w
       | 5 => wrap w ((a : Int) * b - c)
       | 6 => intOp (if signed then 0x09 else 0x0A) w a b
       | 7 => intOp (if signed then 0x0B else 0x0C) w a b
       | 8 => intOp 0x0D w a b
       | 9 => intOp 0x0E w a b
       | _ => intOp 0x0F w a b, 0)
    | _ => (a, 0)

/-- Output `o` of a loaded operator. -/
def OpDesc.output (d : OpDesc) (o rm w : Nat) (ctl : Nat → Bool) (a b c : Nat) : Nat × BitVec 5 :=
  let imm := field d 64 64 % 2 ^ w
  let get := fun (rs : List Nat) (src : Nat) =>
    if src = 0 then a else if src = 1 then b else if src = 2 then c % 2 ^ w else if src = 3 then imm else rs.getD (src - 4) 0
  let (rs, fl) := (List.range (d.byte (2 + o))).foldl (fun (acc : List Nat × BitVec 5) m =>
    let u := d.micro o m
    let (v, f) := microOp (d.byte 1) (u / 2048) rm w ctl (get acc.1 (field u 8 3)) (get acc.1 (field u 5 3)) (get acc.1 (field u 2 3))
    (acc.1 ++ [v], acc.2 ||| f)) ([], 0)
  ((rs.getLast?).getD (if o = 0 then a else b), fl)

/-- The two outputs of a node with their flags. -/
structure Pair where
  lo : Nat
  hi : Nat
  flo : BitVec 5 := 0
  fhi : BitVec 5 := 0

/-- The FP type of the built-in FP operators. -/
def bondFp (w : Nat) : FpFmt := if w = 64 then .fp64 else if w = 32 then .fp32 else .fp16

/-- An operator of R267 at a node: `slots` are the operator slots. -/
def pairOp (slots : Nat → OpDesc) (op rm w : Nat) (down : Bool) (s a b c : Nat) : Pair :=
  let ctl := control w down s
  let sa := toSigned w a
  let sb := toSigned w b
  match op with
  | 8 => if (sb < sa) != ctl c then ⟨b, a, 0, 0⟩ else ⟨a, b, 0, 0⟩
  | 9 =>
    let ka := toSigned (w / 2) (a / 2 ^ (w / 2))
    let kb := toSigned (w / 2) (b / 2 ^ (w / 2))
    if (if ctl c then kb ≤ ka else ka ≤ kb) then ⟨a, b, 0, 0⟩ else ⟨b, a, 0, 0⟩
  | 10 =>
    let (v, f) := fpAdd (bondFp w) rm a b
    if ctl c then ⟨v, b, f, 0⟩ else ⟨a, v, 0, f⟩
  | 11 =>
    let (v, f) := fpFma (bondFp w) rm b c a
    let (u, g) := fpFma (bondFp w) rm (fpNegate (bondFp w) b) c a
    ⟨v, u, f, g⟩
  | 12 => if ctl c then ⟨b, a, 0, 0⟩ else ⟨a, b, 0, 0⟩
  | _ =>
    let (v, f) := OpDesc.output (slots op) 0 rm w ctl a b c
    let (u, g) := OpDesc.output (slots op) 1 rm w ctl a b c
    ⟨v, u, f, g⟩

/-- Whether an operator moves whole blocks (R358). -/
def blockOp (slots : Nat → OpDesc) (op : Nat) : Bool := op < 8 && ((slots op).byte 1 == 4 || (slots op).byte 1 == 5)

/-- Whether an operator may work on elements of `w` bits (R350, R352): a loaded one is of that width, or of blocks at SEW 8. -/
def operatorOk (slots : Nat → OpDesc) (op w : Nat) : Bool :=
  if op < 8 then slots op != 0 && (if blockOp slots op then w == 8 else (typeOf ((slots op).byte 1)).bits == w)
  else if op = 8 ∨ op = 12 then true
  else if op ≤ 11 then w != 8
  else false

/-- The operator slots of the hart in focus. -/
def State.slots (s : State) (o : Nat) : OpDesc := (s.hart.r.ops.getD o 0).toNat

/-! ### Passes (R350 to R352, R358) -/

/-- The stage that step `k` of a pass runs. -/
def stageOf (down : Bool) (start k : Nat) : Nat := if down then start - k else start + k

/-- One stage over elements: every node reads the values from before the stage (R351). -/
def passStage (f : Nat → Nat → Nat → Nat → Pair) (cv : Nat → Nat) (n s : Nat) (x : List Nat × Flags) : List Nat × Flags :=
  (List.range n).foldl (fun (acc : List Nat × Flags) i =>
    let j := i + 2 ^ s
    if bit i s || n ≤ j then acc
    else
      let p := f s (x.1.getD i 0) (x.1.getD j 0) (cv i)
      ((acc.1.set i p.lo).set j p.hi, (acc.2.add i p.flo).add j p.fhi)) x

/-- A block with its mortar byte. -/
abbrev Block := Nat × Byte

/-- The block of a data source of an operator of blocks, and its output (R358). -/
def OpDesc.blockOut (d : OpDesc) (o : Nat) (ctl : Nat → Bool) (a b c : Block) : Block :=
  let byte := field d 64 8
  let imm : Block := ((List.range 32).foldl (fun v j => v + byte * 2 ^ (8 * j)) 0, 0)
  let get := fun (rs : List Block) (src : Nat) =>
    if src = 0 then a else if src = 1 then b else if src = 2 then c else if src = 3 then imm else rs.getD (src - 4) (0, 0)
  let rs := (List.range (d.byte (2 + o))).foldl (fun (rs : List Block) m =>
    let u := d.micro o m
    let x := get rs (field u 8 3)
    rs ++ [if u / 2048 = 0 then x else if ctl (x.1 % 2 ^ 32) then get rs (field u 2 3) else get rs (field u 5 3)]) []
  (rs.getLast?).getD (if o = 0 then a else b)

/-- One stage over blocks. -/
def blockStage (d : OpDesc) (down : Bool) (cv : Nat → Block) (n s : Nat) (x : List Block) : List Block :=
  let step := 2 ^ s / 32
  (List.range n).foldl (fun (acc : List Block) i =>
    let j := i + step
    if i / step % 2 = 1 ∨ n ≤ j then acc
    else
      let ctl := control 32 down s
      let a := x.getD i (0, 0)
      let b := x.getD j (0, 0)
      (acc.set i (d.blockOut 0 ctl a b (cv i))).set j (d.blockOut 1 ctl a b (cv i))) x

/-- The elements of a group below `n`. -/
def Group.elems (g : Group) (w n : Nat) : List Nat := (List.range n).map (g.elem w)

/-- Write elements from 0 on. -/
def Group.putElems (g : Group) (w : Nat) (l : List Nat) : Group := l.zipIdx.foldl (fun (g : Group) x => g.put w x.2 x.1) g

/-- The blocks of a group below `n`. -/
def Group.blocks (g : Group) (n : Nat) : List Block := (List.range n).map (fun b => (field g.bits (256 * b) 256, g.scale b))

/-- Whether an operator rounds (R352, R355): addp, rotadd, or a loaded one of an FP type that adds or multiplies. -/
def operatorRounds (slots : Nat → OpDesc) (op : Nat) : Bool :=
  op == 10 || op == 11 || (op < 8 &&
    (match typeOf ((slots op).byte 1) with
     | .fp _ => (List.range 2).any (fun o => (List.range ((slots op).byte (2 + o))).any (fun m =>
         1 ≤ (slots op).micro o m / 2048 && (slots op).micro o m / 2048 ≤ 5))
     | _ => false))

/-- vpass and vpass.d. Between stages the destination holds the pass state (R236); the constants are those of the start (R351). -/
def State.doPass (s : State) (down : Bool) (d c op start cnt : Nat) : State :=
  let cp := s.capture 0 0
  let w := cp.w
  let count := cnt + 1
  let stages := (List.range count).map (stageOf down start)
  let inRange := if down then count ≤ start + 1 && start ≤ 12 else start + count ≤ 13
  let code := 0xd0000000 + down.toNat * 2048 + op * 4096 + start * 16 + cnt * 2
  s.runV
    { code := code, dest := d, srcs := [c], sel := 0, readsOld := true, rounds := operatorRounds s.slots op, width := w, destWidth := w
      slot := if op < 8 then some op else none
      ok := fun cp _ => inRange && operatorOk s.slots op cp.w &&
        (!(blockOp s.slots op) || (cp.n % 32 == 0 && stages.all (fun t => 32 ≤ 2 ^ t)))
      steps := fun _ => count
      plan := fun _ => stages.map (fun t => (0, t))
      check := fun i e => i.active e
      run := fun s i lo hi =>
        let todo := (stages.take hi).drop lo
        let (g, fl) : Group × Flags :=
          if blockOp s.slots op then
            let cv := (i.src 0).blocks (i.cap.n / 32)
            let x := todo.foldl (fun x t => blockStage (s.slots op) down (fun b => cv.getD b (0, 0)) (i.cap.n / 32) t x)
              (i.acc.blocks (i.cap.n / 32))
            let g := x.zipIdx.foldl (fun (g : Group) (y : Block × Nat) => (g.put 256 y.2 y.1.1).setScale y.2 y.1.2) i.old
            (g.seal (blocksOf i.nl i.cap.g) false, {})
          else
            let (x, fl) := todo.foldl (fun x t => passStage (pairOp s.slots op i.cap.rm w down) (fun e => (i.src 0).elem w e) i.cap.n t x)
              (i.acc.elems w i.cap.n, {})
            ((i.old.putElems w x).seal (blocksOf i.nl i.cap.g) true, fl)
        .ok ({ group := g, flags := fl, enter := lo == 0 && hi == count }, s) }

def execVpass (d c op start cnt : Nat) (s : State) : Host.Outcome State Fault Refusal := done (s.doPass false d c op start cnt)
def execVpassD (d c op start cnt : Nat) (s : State) : Host.Outcome State Fault Refusal := done (s.doPass true d c op start cnt)

/-! ### Operator slots (R354, R357) -/

def State.setSlot (s : State) (n : Nat) (v : BitVec 256) : State :=
  (s.bumpSlot n).mapRegs (fun r => { r with ops := r.ops.setIfInBounds n v })

/-- The descriptor at an address, read at dispatch on path S (R354). An illegal one is an illegal operator. -/
def State.slotBlock (s : State) (a : Nat) : Except Stop (BitVec 256 × State) :=
  let va := (s.x a).toNat
  (require (va % 32 == 0) illegalOperand).bind fun _ =>
  (s.loadScalar va 32).bind fun (l, s1) =>
  let d := ofLe l
  if OpDesc.legal d then .ok (BitVec.ofNat 256 d, s1) else .error (.trap { cause := 0x03 })

def execOpld (n a : Nat) (s : State) : Host.Outcome State Fault Refusal :=
  done (s.settle ((s.slotBlock a).bind fun (v, s1) => .ok (s1.setSlot n v).retire))

def execOpclr (n : Nat) (s : State) : Host.Outcome State Fault Refusal := done (s.setSlot n 0).retire

/-! ### Routes (R359) -/

/-- An element of a subnetwork: its position and its target. -/
abbrev Place2 := Nat × Nat

/-- Follow one loop of the algorithm from an element with a decided σ. The first argument bounds it; σ is keyed by position. -/
def followLoop (l : List Place2) (s : Nat) : Nat → Place2 → List (Nat × Nat) → List (Nat × Nat)
  | 0, _, sg => sg
  | k + 1, e, sg =>
    let se := (lookupKey e.1 sg).getD 0
    match l.find? (fun f => f.2 == e.2.xor (2 ^ s)) with
    | none => sg
    | some f =>
      if (lookupKey f.1 sg).isSome then sg
      else
        let sg := insertKey f.1 (1 - se) sg
        match l.find? (fun g => g.1 == f.1.xor (2 ^ s)) with
        | none => sg
        | some g =>
          if (lookupKey g.1 sg).isSome then sg
          else followLoop l s k g (insertKey g.1 se sg)

/-- The bits that a subnetwork sets, as positions and bit numbers. The first argument is how many stages are left. -/
def routeFrom (s : Nat) : Nat → List Place2 → List (Nat × Nat)
  | 0, _ => []
  | 1, l => (l.filter (fun e => !(bit e.1 s) && e.2 == e.1 + 2 ^ s)).map (fun e => (e.1, s))
  | k + 2, l =>
    let low := sortBy (fun (a b : Place2) => a.1 ≤ b.1) (l.filter (fun e => !(bit e.1 s)))
    let sg := low.foldl (fun sg e =>
      if (lookupKey e.1 sg).isSome then sg else followLoop l s l.length e (insertKey e.1 0 sg)) []
    let up := fun (e : Place2) => (lookupKey e.1 sg).getD 0 == 1
    let put := fun (x v : Nat) => x - (bit x s).toNat * 2 ^ s + v * 2 ^ s
    let sub := fun (v : Nat) => (l.filter (fun e => up e == (v == 1))).map (fun e => (put e.1 v, put e.2 v))
    (low.filter up).map (fun e => (e.1, s)) ++
    ((l.filter (fun e => !(bit e.2 s) && up e)).map (fun e => (e.2, 13 + s))) ++
    routeFrom (s + 1) (k + 1) (sub 0) ++ routeFrom (s + 1) (k + 1) (sub 1)

/-- The control bits of a route of `n` elements. -/
def routeBits (targets : List Nat) (n : Nat) : List Nat :=
  let bits := routeFrom 0 (Nat.log2 n) (targets.zipIdx.map (fun x => (x.2, x.1)))
  (List.range n).map (fun p => (bits.filter (fun b => b.1 == p)).foldl (fun v b => v + 2 ^ b.2) 0)

def execVroute (d a : Nat) (s : State) : Host.Outcome State Fault Refusal :=
  let w := (s.capture 0 0).w
  done (s.runV { wholeSpec w 0xd400000a d [a] 0
      (fun c _ => 32 ≤ c.w && 2 ≤ c.n && 2 ^ Nat.log2 c.n == c.n) (fun s i =>
        let t := (i.src 0).elems w i.cap.n
        if !((List.range i.cap.n).all (fun p => t.contains p)) then .error illegalOperand
        else .ok ({ group := (i.old.putElems w (routeBits t i.cap.n)).seal (blocksOf i.nl i.cap.g) true, enter := false }, s)) with
    reusable := false })

/-! ### Reductions and scans (R360 to R362) -/

/-- The sums of R361 on integers: every partial sum of the active elements. -/
def intSums (w acc : Nat) (active : Nat → Bool) (x : Nat → Nat) (n : Nat) : List (Nat × Nat) × Nat :=
  (List.range n).foldl (fun (r : List (Nat × Nat) × Nat) e =>
    if active e then
      let v := (r.2 + x e) % 2 ^ w
      (r.1 ++ [(e, v)], v)
    else r) ([], acc)

/-- The type of a sum: a code 0 to 3 or 8 to 15 of width SEW (R360). -/
def sumTypeOk (t w : Nat) : Bool :=
  match typeOf t with
  | .fp f => fpWidth f == w
  | .int _ n => n == w
  | _ => false

/-- The active elements of a group as terms. -/
def termsOf (f : FpFmt) (g : Group) (active : Nat → Bool) (n : Nat) : List Term :=
  (List.range n).map (fun e =>
    if active e then
      let x := decodeFp f (g.elem (fpWidth f) e)
      some (e, x, snanFlag [x])
    else none)

/-- The terms of a grouped sum with no products: what a run raises, its roundings raise, so every term of the run records the
element of its lowest active term (R361, R315). -/
def atRuns (l : List Term) : List Term :=
  (List.range l.length).map (fun i => (l.getD i none).map (fun x => ((((runOf l (i / 8)).filterMap id).headD x).1, x.2)))

/-- Whether sums of a type round. -/
def typeRounds (t : Nat) : Bool := match typeOf t with
  | .fp _ => true
  | _ => false

/-- vred.s and vred.g. -/
def State.reduce (s : State) (grouped : Bool) (code d a t k : Nat) : State :=
  let w := (s.capture 0 0).w
  s.runV { wholeSpec w (code + t * 2048) d [a] k (fun c _ => sumTypeOk t c.w) (fun s i =>
      if !((List.range i.cap.n).any i.active) then .ok ({ group := i.old.seal (blocksOf i.nl i.cap.g) true }, s)
      else
        (s.sound [(w, i.src 0)] i.active i.cap.n).bind fun _ =>
        (s.sound [(w, i.acc)] (fun _ => true) 1).bind fun _ =>
        let (v, fl) := match typeOf t with
          | .fp f =>
            let terms := termsOf f (i.src 0) i.active i.cap.n
            sumTerms grouped f i.cap.rm (i.acc.elem w 0) (if grouped then atRuns terms else terms)
          | _ => ((intSums w (i.acc.elem w 0) i.active ((i.src 0).elem w) i.cap.n).2, [])
        .ok ({ group := (i.old.put w 0 v).seal (blocksOf i.nl i.cap.g) true, flags := flagsOf fl }, s)) with
    check := fun _ _ => false, rounds := typeRounds t, keeps := true, readsOld := true }

/-- Negative zero, from which FP scans start. -/
def minusZero (f : FpFmt) : Nat := fpSign f true

/-- The scan of a run of eight elements, with the accumulator before it (R361): the values and flags of its active elements, and
the accumulator after it. -/
def scanRun (f : FpFmt) (rm acc : Nat) (run : List Term) : List (Nat × Nat × BitVec 5) × Nat :=
  let (out, _, last) := run.foldl (fun (r : List (Nat × Nat × BitVec 5) × List FpNum × Nat) x => match x with
    | none => r
    | some (e, p, fl) =>
      let ps := r.2.1 ++ [p]
      let (z, g) := sumNums rm ps
      let (v, h) := roundNum f rm z
      let (u, m) := addTerm f rm acc (decodeFp f v)
      (r.1 ++ [(e, u, fl ||| g ||| h ||| m)], ps, u)) ([], [], acc)
  (out, last)

/-- The values of an FP scan in the strict or grouped form. -/
def scanTerms (grouped : Bool) (f : FpFmt) (rm : Nat) (l : List Term) : List (Nat × Nat × BitVec 5) :=
  let size := if grouped then 8 else 1
  ((List.range (divUp l.length size)).foldl (fun (r : List (Nat × Nat × BitVec 5) × Nat) j =>
    let run := (l.drop (size * j)).take size
    let (out, acc) := if grouped then scanRun f rm r.2 run
      else match run with
        | [some (e, p, fl)] =>
          let (v, g) := addTerm f rm r.2 p
          ([(e, v, fl ||| g)], v)
        | _ => ([], r.2)
    (r.1 ++ out, acc)) ([], minusZero f)).1

/-- vscan.s and vscan.g. -/
def State.scan (s : State) (grouped : Bool) (code d a t k : Nat) : State :=
  let w := (s.capture 0 0).w
  s.runV { wholeSpec w (code + t * 2048) d [a] k (fun c _ => sumTypeOk t c.w) (fun s i =>
      let l : List (Nat × Nat × BitVec 5) := match typeOf t with
        | .fp f => scanTerms grouped f i.cap.rm (termsOf f (i.src 0) i.active i.cap.n)
        | _ => (intSums w 0 i.active ((i.src 0).elem w) i.cap.n).1.map (fun x => (x.1, x.2, 0))
      let (g, fl) := i.each w w 0 (groupCount i.nl w i.cap.n) (fun e => (lookupKey e l).getD (0, 0))
      .ok ({ group := g.seal (blocksOf i.nl i.cap.g) true, flags := fl }, s)) with rounds := typeRounds t }

/-- The stages below VL. -/
def stagesBelow (n : Nat) : List Nat := (List.range 13).filter (fun t => 2 ^ t < n)

/-- Elements with their liveness and the flags raised so far (R362). -/
abbrev Live := List (Nat × Bool) × Flags

/-- Join element `q` into element `i`: `f` takes the value at the lower place first. -/
def liveJoin (f : Nat → Nat → Pair) (into from' : Nat) (lowFirst : Bool) (x y : List (Nat × Bool) × Flags) : Live :=
  let (a, la) := x.1.getD into (0, false)
  let (b, lb) := x.1.getD from' (0, false)
  if la && lb then
    let p := if lowFirst then f a b else f b a
    (y.1.set into (p.lo, true), y.2.add into p.flo)
  else if lb then (y.1.set into (b, true), y.2)
  else y

/-- vred and vscan with an operator: the limits (R360). A block operator would split a block at stage 0 (R358). -/
def foldOk (slots : Nat → OpDesc) (op : Nat) (c : Captured) : Bool :=
  op != 11 && operatorOk slots op c.w && (!(blockOp slots op) || c.n == 0)

def VIn.live (i : VIn) (w : Nat) : Live := ((List.range i.cap.n).map (fun e => ((i.src 0).elem w e, i.active e)), {})

/-- A pass of the stages below VL. -/
def onePass (n : Nat) : List (Nat × Nat) := (stagesBelow n).map (fun t => (0, t))

/-- A composite that runs through the stages of a plan. Between two of them its destination holds the pass state (R236), and it works on from
its operands as it read them. `flags` gives the flags of some stages, and `pass` the elements after some stages, where the specification says
what they are; else they are free (DESIGN CHOICE, log 26). -/
def VSpec.inStages (v : VSpec) (plan : VIn → List (Nat × Nat)) (flags : VIn → Nat → Nat → Flags) (pass : VIn → Nat → Option (List Nat)) : VSpec :=
  { v with
    steps := fun i => max 1 (plan i).length
    plan := plan
    run := fun s i lo hi =>
      if hi < max 1 (plan i).length then
        (s.sound [(v.width, i.src 0)] i.active i.cap.n).bind fun _ =>
        let (g, s) := match pass i hi with
          | some l => (i.old.putElems v.width l, s)
          | none => s.drawElems i.old v.width i.cap.n
        .ok ({ group := g.seal (blocksOf i.nl i.cap.g) true, flags := flags i lo hi, enter := false }, s)
      else (v.run s i 0 1).bind fun (o, s) => .ok ({ o with flags := flags i lo hi, enter := lo == 0 && o.enter }, s) }

/-- Stage `t` of vred with an operator (R362). -/
def redStage (s : State) (op : Nat) (i : VIn) (w : Nat) (x : Live) (t : Nat) : Live :=
  (List.range i.cap.n).foldl (fun (y : Live) e =>
    let j := e + 2 ^ t
    if e % 2 ^ (t + 1) = 0 ∧ j < i.cap.n then
      liveJoin (fun a b => pairOp s.slots op i.cap.rm w false t a b (2 ^ w - 1)) e j true x y
    else y) x

/-- Stage `t` of vscan with an operator (R362). -/
def scanStage (s : State) (op : Nat) (i : VIn) (w : Nat) (x : Live) (t : Nat) : Live :=
  (List.range i.cap.n).foldl (fun (y : Live) e =>
    if bit e t then
      let q := e / 2 ^ (t + 1) * 2 ^ (t + 1) + 2 ^ t - 1
      liveJoin (fun a b => pairOp s.slots op i.cap.rm w false t a b (2 ^ w - 1)) e q false x y
    else y) x

/-- The elements after the first `k` stages, with the flags of those from `lo` on. -/
def foldStages (f : VIn → Live → Nat → Live) (w : Nat) (i : VIn) (lo k : Nat) : Live :=
  let l := (stagesBelow i.cap.n).take k
  let x := (l.take lo).foldl (f i) (i.live w)
  (l.drop lo).foldl (f i) (x.1, {})

/-- vred with an operator. -/
def State.reduceOp (s : State) (code d a op k : Nat) : State :=
  let w := (s.capture 0 0).w
  let stage := fun (i : VIn) (x : Live) t => redStage s op i w x t
  let spec := wholeSpec w (code + op * 2048) d [a] k (fun c _ => foldOk s.slots op c) (fun s i =>
      let (v, on) := (foldStages stage w i 0 13).1.getD 0 (0, false)
      .ok ({ group := (if on then i.old.put w 0 v else i.old).seal (blocksOf i.nl i.cap.g) true }, s))
  s.runV (VSpec.inStages { spec with
    rounds := operatorRounds s.slots op, keeps := true, slot := if op < 8 then some op else none }
    (fun i => onePass i.cap.n) (fun i lo hi => (foldStages stage w i lo hi).2)
    (fun i k => some ((foldStages stage w i 0 k).1.map (·.1))))

/-- vscan with an operator. -/
def State.scanOp (s : State) (code d a op k : Nat) : State :=
  let w := (s.capture 0 0).w
  let stage := fun (i : VIn) (x : Live) t => scanStage s op i w x t
  let spec := wholeSpec w (code + op * 2048) d [a] k (fun c _ => foldOk s.slots op c) (fun s i =>
      let x := foldStages stage w i 0 13
      let (g, _) := i.each w w 0 (groupCount i.nl w i.cap.n) (fun e => ((x.1.getD e (0, false)).1, 0))
      .ok ({ group := g.seal (blocksOf i.nl i.cap.g) true }, s))
  s.runV (VSpec.inStages { spec with rounds := operatorRounds s.slots op, slot := if op < 8 then some op else none }
    (fun i => onePass i.cap.n) (fun i lo hi => (foldStages stage w i lo hi).2)
    (fun i k => some ((foldStages stage w i 0 k).1.map (·.1))))

def execVredS (d a t k : Nat) (s : State) : Host.Outcome State Fault Refusal := done (s.reduce false 0xd4000000 d a t k)
def execVredG (d a t k : Nat) (s : State) : Host.Outcome State Fault Refusal := done (s.reduce true 0xd4000001 d a t k)
def execVredOp (d a op k : Nat) (s : State) : Host.Outcome State Fault Refusal := done (s.reduceOp 0xd4000002 d a op k)
def execVscanS (d a t k : Nat) (s : State) : Host.Outcome State Fault Refusal := done (s.scan false 0xd4000003 d a t k)
def execVscanG (d a t k : Nat) (s : State) : Host.Outcome State Fault Refusal := done (s.scan true 0xd4000004 d a t k)
def execVscanOp (d a op k : Nat) (s : State) : Host.Outcome State Fault Refusal := done (s.scanOp 0xd4000005 d a op k)

/-! ### Compression, sorting, the largest element (R363) -/

/-- The stages of vcompress, two passes, and of vsort, passes of one stage more each, after those of vcompress when it is masked (R364). In
which order a pass goes through its stages is left open (DESIGN CHOICE, log 26). -/
def packPlan (n : Nat) : List (Nat × Nat) := [0, 1].flatMap (fun p => (stagesBelow n).map (fun t => (p, t)))
def sortPlan (n first : Nat) : List (Nat × Nat) :=
  (List.range (stagesBelow n).length).flatMap (fun p => (List.range (p + 1)).map (fun t => (first + p, p - t)))

/-- The active elements in some order from element 0 on, the rest below VL as KZ gives. -/
def State.gather (s : State) (code d a k : Nat) (carry : Bool) (order : Nat → List Nat → List Nat) : State :=
  let w := (s.capture 0 0).w
  let plan := fun (i : VIn) => if carry then packPlan i.cap.n
    else if k = 0 then sortPlan i.cap.n 0 else packPlan i.cap.n ++ sortPlan i.cap.n 2
  s.runV (VSpec.inStages { wholeSpec w code d [a] k (fun _ _ => true) (fun s i =>
      let l := order w (((List.range i.cap.n).filter i.active).map ((i.src 0).elem w))
      let l := if i.cap.vtype.kz then l ++ List.replicate (i.cap.n - l.length) 0 else l
      .ok ({ group := (i.old.putElems w l).seal (blocksOf i.nl i.cap.g) true }, s)) with
    -- a selector of 0 is an illegal operand of vcompress
    ok := fun _ _ => !carry || k != 0 } plan (fun _ _ _ => {}) (fun _ _ => none))

def execVcompress (d a c : Nat) (s : State) : Host.Outcome State Fault Refusal := done (s.gather 0xd4000006 d a c true (fun _ l => l))
def execVsort (d a k : Nat) (s : State) : Host.Outcome State Fault Refusal :=
  done (s.gather 0xd4000008 d a k false (fun w l => sortBy (fun x y => toSigned w x ≤ toSigned w y) l))
def execVsortD (d a k : Nat) (s : State) : Host.Outcome State Fault Refusal :=
  done (s.gather 0xd4000009 d a k false (fun w l => sortBy (fun x y => toSigned w y ≤ toSigned w x) l))

/-- The order of FP values in which −0 stands below +0, on encodings without NaNs. -/
def fpRank (w v : Nat) : Int := if v < 2 ^ (w - 1) then (v : Int) else -(((v % 2 ^ (w - 1) : Nat) : Int)) - 1

/-- vmaxi: the largest non-NaN value that is active, on ties the lowest index. -/
def State.maxIndex (s : State) (d a f c : Nat) (bf : Bool) : State :=
  let cp := s.capture 0 0
  let w := cp.w
  s.settleStaged (
    (s.needsLanes).bind fun _ =>
    (require (c != 0 && fpLegal cp bf && s.groupOk cp a cp.g) illegalOperand).bind fun _ =>
    (s.soundMask c cp.n).bind fun _ =>
    (s.stagedSources cp cp.g [a]).bind fun (gs, s1) =>
    let g := gs.headD {}
    let kc := s.mask c
    let active := fun e => bit kc e
    (s1.sound [(w, g)] active cp.n).bind fun _ =>
    let t := fpOf cp bf
    let es := (List.range cp.n).filter active
    let fl := es.foldl (fun (fl : Flags) e => fl.add e (snanFlag [decodeFp t (g.elem w e)])) {}
    let best := es.foldl (fun (m : Option (Nat × Nat)) e =>
      let v := g.elem w e
      if (decodeFp t v).isNan then m
      else match m with
        | none => some (e, v)
        | some (_, u) => if fpRank w u < fpRank w v then some (e, v) else m) none
    let divides := !s.anyBound [a]
    s1.inStages cp (onePass cp.n) divides [g] ((List.range cp.g).map (a + ·)) [] fun s1 =>
    let s2 := match best with
      | some (e, v) => ((s1.setX d (BitVec.ofNat 64 e)).setF f (BitVec.ofNat 64 v)).setMask c cp.n (kc - 2 ^ e)
      | none => ((s1.setX d allOnes64).setF f (BitVec.ofNat 64 (fpNaN t))).setMask c cp.n kc
    .ok (s2.mergeFlags fl))

def execVmaxi (d a f c : Nat) (s : State) : Host.Outcome State Fault Refusal := done (s.maxIndex d a f c false)
def execVmaxiBf16 (d a f c : Nat) (s : State) : Host.Outcome State Fault Refusal := done (s.maxIndex d a f c true)

end Sys2Proof.Machine
end

