-- ==== Sys2Proof/Machine/Control.lean ====
section
/-! DEFINITION. Control transfer (R284, R285). Offsets count words from the address of the instruction. -/

namespace Sys2Proof.Machine

/-- Go on at the target when the branch is taken, else at the next instruction. -/
def State.branch (s : State) (taken : Bool) (off : BitVec 13) : State :=
  if taken then s.setPc (s.pc + sext off * 4) else s.advance

def execJal (d : Nat) (i : BitVec 21) (s : State) : Host.Outcome State Fault Refusal :=
  done ((s.setX d (s.pc + 4)).setPc (s.pc + sext i * 4))

/-- The target is computed before xd is written; a target that is not a multiple of 4 is an illegal operand. -/
def execJalr (d a : Nat) (i : BitVec 16) (s : State) : Host.Outcome State Fault Refusal :=
  let t := s.x a + sext i
  if t.toNat % 4 ≠ 0 then done (s.settle (.error illegalOperand))
  else done ((s.setX d (s.pc + 4)).setPc t)

def execBeq (a b : Nat) (off : BitVec 13) (s : State) : Host.Outcome State Fault Refusal := done (s.branch (s.x a == s.x b) off)
def execBne (a b : Nat) (off : BitVec 13) (s : State) : Host.Outcome State Fault Refusal := done (s.branch (s.x a != s.x b) off)
def execBlt (a b : Nat) (off : BitVec 13) (s : State) : Host.Outcome State Fault Refusal := done (s.branch ((s.x a).slt (s.x b)) off)
def execBge (a b : Nat) (off : BitVec 13) (s : State) : Host.Outcome State Fault Refusal := done (s.branch (!((s.x a).slt (s.x b))) off)
def execBltn (a b : Nat) (off : BitVec 13) (s : State) : Host.Outcome State Fault Refusal := done (s.branch ((s.x a).ult (s.x b)) off)
def execBgen (a b : Nat) (off : BitVec 13) (s : State) : Host.Outcome State Fault Refusal := done (s.branch (!((s.x a).ult (s.x b))) off)

/-- Whether some bit of a mask below VL is 1 (R285). -/
def State.anyMask (s : State) (k : Nat) : Bool := s.mask k % 2 ^ s.hart.r.vl.toNat != 0

/-- A branch on a mask needs lanes and a legal type, and sound mask bits (R285, R243). -/
def State.maskBranch (s : State) (k : Nat) (taken : Bool) (off : BitVec 13) : State :=
  s.settle ((s.needsLanes).bind fun _ => (s.soundMask k s.hart.r.vl.toNat).bind fun _ => .ok (s.branch taken off))

def execBkany (k : Nat) (off : BitVec 13) (s : State) : Host.Outcome State Fault Refusal := done (s.maskBranch k (s.anyMask k) off)
def execBknone (k : Nat) (off : BitVec 13) (s : State) : Host.Outcome State Fault Refusal := done (s.maskBranch k (!(s.anyMask k)) off)

end Sys2Proof.Machine
end

