-- ==== Sys2Proof/Machine/Fork.lean ====
section
/-! DEFINITION. Micro-threads: fork, the split, join and the rejoin (R100 to R104, R129, R150), and what the harts of a brick
hold of its tiles and stream slots (R64, R105, R164). -/

namespace Sys2Proof.Machine

/-! ### Halves of the registers (R101, R103) -/

/-- Elements of `t` that one lane holds of one register. -/
def VType.perLane (t : VType) : Nat := 32 / (2 ^ t.sew.toNat)

/-- The mask bit of the unsplit hart that bit `i` of a half is: R91 with `h` lanes, and the same lane of `2 h`. -/
def wholeBit (t : VType) (h : Nat) (upper : Bool) (i : Nat) : Nat :=
  let p := t.perLane
  i / (p * h) * (p * (2 * h)) + (i / p % h + (if upper then h else 0)) * p + i % p

/-- Where bit `i` of the rejoined hart comes from, for `lo` lanes with `hi` above them: which of the two, and the bit in it. -/
def halfBit (t : VType) (lo hi : Nat) (i : Nat) : Bool × Nat :=
  let p := t.perLane
  let l := i / p % (lo + hi)
  if l < lo then (false, i / (p * (lo + hi)) * (p * lo) + l * p + i % p)
  else (true, i / (p * (lo + hi)) * (p * hi) + (l - lo) * p + i % p)

/-- A half of a mask. -/
def maskHalf (t : VType) (h : Nat) (upper : Bool) (k : Wide) : Wide :=
  BitVec.ofNat 8192 (bitsOf 8192 (fun i => bit k.toNat (wholeBit t h upper i)))

/-- Two halves of a mask together. -/
def maskJoin (t : VType) (nl nh : Nat) (lo hi : Wide) : Wide :=
  BitVec.ofNat 8192 (bitsOf 8192 (fun i =>
    let (up, j) := halfBit t nl nh i
    bit (if up then hi.toNat else lo.toNat) j))

/-- The marks of failed mask slots follow the bits they stand for. -/
def failHalf (t : VType) (h : Nat) (upper : Bool) (f : BitVec 128) : BitVec 128 :=
  if f = 0 then 0
  else BitVec.ofNat 128 (bitsOf 128 (fun s => (List.range 64).any (fun i => bit f.toNat (wholeBit t h upper (64 * s + i) / 64))))

def failJoin (t : VType) (nl nh : Nat) (lo hi : BitVec 128) : BitVec 128 :=
  if lo = 0 ∧ hi = 0 then 0
  else BitVec.ofNat 128 (bitsOf 128 (fun s => (List.range 64).any (fun i =>
    let (up, j) := halfBit t nl nh (64 * s + i)
    bit (if up then hi.toNat else lo.toNat) (j / 64))))

/-- The `h` lower or upper of `2 h` lanes of the vector, mask and generator registers (R101). -/
def Regs.half (r : Regs) (t : VType) (h : Nat) (upper : Bool) : Regs :=
  let o := if upper then h else 0
  { r with
    v := r.v.map (fun x => BitVec.ofNat 8192 (field x.toNat (256 * o) (256 * h)))
    mortar := r.mortar.map (fun x => BitVec.ofNat 256 (field x.toNat (8 * o) (8 * h)))
    vfail := r.vfail.map (fun x => BitVec.ofNat 128 (field x.toNat (4 * o) (4 * h)))
    names := Vector.replicate 32 none
    k := r.k.map (maskHalf t h upper)
    kfail := r.kfail.map (failHalf t h upper)
    kgen := r.kgen.map (· + 1)
    gkey := Vector.ofFn (fun i => if i.val < h then r.gkey.getD (i.val + o) 0 else 0)
    gpos := Vector.ofFn (fun i => if i.val < h then r.gpos.getD (i.val + o) 0 else 0) }

/-- The `nl` lanes of `lo` with the `nh` of `hi` above them (R103). -/
def Regs.joined (lo hi : Regs) (t : VType) (nl nh : Nat) : Regs :=
  let put := fun (n : Nat) (a b : Nat) => a % 2 ^ (n * nl) + b % 2 ^ (n * nh) * 2 ^ (n * nl)
  { lo with
    v := Vector.ofFn (fun i => BitVec.ofNat 8192 (put 256 lo.v[i].toNat hi.v[i].toNat))
    mortar := Vector.ofFn (fun i => BitVec.ofNat 256 (put 8 lo.mortar[i].toNat hi.mortar[i].toNat))
    vfail := Vector.ofFn (fun i => BitVec.ofNat 128 (put 4 lo.vfail[i].toNat hi.vfail[i].toNat))
    names := Vector.replicate 32 none
    phys := Vector.ofFn (fun i => lo.phys[i] ++ hi.phys[i])
    k := Vector.ofFn (fun i => maskJoin t nl nh lo.k[i] hi.k[i])
    kfail := Vector.ofFn (fun i => failJoin t nl nh lo.kfail[i] hi.kfail[i])
    kgen := lo.kgen.map (· + 1)
    gkey := Vector.ofFn (fun i => if i.val < nl then lo.gkey[i] else hi.gkey.getD (i.val - nl) 0)
    gpos := Vector.ofFn (fun i => if i.val < nl then lo.gpos[i] else hi.gpos.getD (i.val - nl) 0) }

/-- The vector state of another set of registers. -/
def Regs.withLanes (r x : Regs) : Regs :=
  { r with v := x.v, mortar := x.mortar, vfail := x.vfail, names := x.names, phys := x.phys, k := x.k, kfail := x.kfail,
           kgen := r.kgen.map (· + 1), gkey := x.gkey, gpos := x.gpos }

/-- The slot parts of the mappings that lie in some lane groups (R110). -/
def Regs.onLanes (r : Regs) (lgs : BitVec 4) : Regs := { r with phys := r.phys.map (fun p => p.filter (fun x => lgs.getLsbD x.1)) }

/-- The lower and the upper half of a set of lane groups. -/
def lowerHalf (lgs : BitVec 4) : BitVec 4 :=
  let l := setBits 4 lgs.toNat
  BitVec.ofNat 4 ((l.take (l.length / 2)).foldl (fun m g => m + 2 ^ g) 0)

def upperHalf (lgs : BitVec 4) : BitVec 4 := lgs &&& ~~~(lowerHalf lgs)

/-- Zero the local-memory partitions of some lane groups, with their poison (R150). -/
def Brick.zeroLocal (k : Brick) (lgs : BitVec 4) : Brick :=
  (setBits 4 lgs.toNat).foldl (fun k g =>
    { k with
      locmem := Memory.clear k.locmem (g * Config.partitionBytes) ((g + 1) * Config.partitionBytes)
      locpoison := k.locpoison.filter (fun p => !(g * Config.partitionBytes ≤ 64 * p && 64 * p < (g + 1) * Config.partitionBytes)) }) k

/-- The lane groups of the hart change: reuse entries on them go (R126), their local memory is zeroed (R150), and those that are bound no
more enter retention (R108). -/
def State.changeLanes (s : State) (old new : BitVec 4) : State :=
  (s.mapBrick (fun k =>
    let k := (k.dropLanes (old ||| new)).zeroLocal (old ||| new)
    { k with retention := k.retention ||| (old &&& ~~~new) })).mapHart (fun h => { h with bound := new })

/-- Mappings that lack a part in a bound lane group get new physical registers (R110). -/
def State.fitParts (s : State) : State :=
  if s.hart.r.phys.toList.all (fun p => s.hart.lgs.all (fun g => p.any (fun x => x.1 == g))) then s else s.remap

/-! ### A change that a SETVL makes take effect -/

/-- Whether a child's first SETVL must wait for its parent's (R101). -/
def State.splitPending (s : State) : Bool :=
  match s.hart.fork with
  | .child p false =>
    (match s.hartAt s.hart.brick p with
     | some h => (match h.fork with
       | .parent _ sp => !sp
       | _ => false)
     | none => false)
  | _ => false

/-- The pending lane change takes effect at a SETVL under the layout of `t` (R101, R103): the answer says whether the groups
are to be named anew. -/
def State.applyNext (s : State) (t : VType) : Bool × State :=
  let h := s.hart
  if h.next = h.bound then (false, s)
  else match h.fork with
    | .parent c false =>
      let half := h.lanes / 2
      let hi := (h.r.half t half true).onLanes (h.bound &&& ~~~h.next)
      let s := s.changeLanes h.bound h.next
      let s := s.mapHart (fun h => { h with r := (h.r.half t half false).onLanes h.bound, fork := .parent c true })
      (true, s.withHart h.brick c (fun s => s.mapHart (fun h =>
        { h with r := h.r.withLanes hi, ckpt := h.ckpt.withLanes hi, ended := h.ended.map (fun e => { e with ckpt := e.ckpt.withLanes hi }) })))
    | .ended v false lgs _ =>
      let half := h.lanes / 2
      let hi := (h.r.half t half true).onLanes (h.bound &&& ~~~h.next)
      let s := s.changeLanes h.bound h.next
      (true, s.mapHart (fun h => { h with r := (h.r.half t half false).onLanes h.bound, fork := .ended v true lgs hi }))
    | .rejoin lgs hi =>
      let lanes := h.lanes
      let s := s.changeLanes h.bound h.next
      (true, (s.mapHart (fun h => { h with r := h.r.joined hi t lanes (8 * (setBits 4 lgs.toNat).length), fork := .none })).fitParts)
    | .child p false =>
      let s := s.changeLanes h.bound h.next
      (true, (s.mapHart (fun h => { h with fork := .child p true })).fitParts)
    | _ => (true, (s.changeLanes h.bound h.next).fitParts)

/-! ### fork and join -/

/-- The lowest hart of a brick that is free (R100). -/
def State.freeHartOf (s : State) (b : Nat) : Option Nat :=
  (List.range Config.hartsPerBrick).find? (fun n => (s.hartAt b n).isNone)

/-- Whether fork succeeds, and the hart that becomes the child (R100). -/
def State.forkTarget (s : State) : Option Nat :=
  if (s.hart.nlg = 2 ∨ s.hart.nlg = 4) ∧ s.hart.fork = .none ∧ s.hart.next = s.hart.bound then s.freeHartOf s.hart.brick
  else none

/-- The child of a fork (R100): its registers copy the parent's after the fork. -/
def Hart.child (p : Hart) (c uid d : Nat) (pc : Word) : Hart :=
  let r : Regs :=
    { pc := pc
      x := if d = 0 then p.r.x else p.r.x.setIfInBounds d (BitVec.ofNat 64 p.num)
      f := p.r.f, vtype := p.r.vtype, lidx := p.r.lidx, ops := p.r.ops }
  { brick := p.brick, num := c, uid := uid, run := .running, r := r, ckpt := r,
    queue := p.queue, seq := p.seq, index := p.index, ctx := p.ctx, vmid := p.vmid, kernel := p.kernel, levels := p.levels,
    lgn := BitVec.ofNat 3 (p.nlg / 2), bound := 0, next := upperHalf p.bound, frm := p.frm, gears := p.gears.restoreEff,
    vskew := p.vskew, fork := .child p.num false }

/-- fork with the child's first instruction at `target` (R100). The parent's strip closes before it: while its stores are still to perform, so is
the fork (DEDUCED, log 113). -/
def State.doFork (s : State) (d : Nat) (target : Word) : State :=
  match s.forkTarget with
  | none => (s.setX d allOnes64).retire
  | some c =>
    let s := s.splitAndDrain
    if !(s.hart.ended.isEmpty && (s.dev.onWay s.hart.uid).isEmpty) then s.waitFor .memory []
    else
    let s := (s.setX d (BitVec.ofNat 64 c)).retire
    let s := s.mapHart (fun h => { h with next := lowerHalf h.bound, fork := .parent c false })
    let s := s.endStrip s.pc
    let child := s.hart.child c s.dev.uids d target
    let s := s.mapDev (fun dv =>
      { dv.mapLaunch child.launch (fun l => { l with ran := l.ran + 1 }) with uids := dv.uids + 1, parked := child :: dv.parked })
    s.recomputeGear s.hart.brick

/-- Whether every command of the hart has completed and every merge command has arrived (R102, R194). -/
def State.commandsDone (s : State) : Bool :=
  (List.range 4).all (fun c => s.hart.done.getD c 0 == s.hart.r.issued.getD c 0) &&
  !(s.dev.courses.any (fun c => c.2.merges.any (fun m => m.uid == s.hart.uid)))

/-- join in a child (R102): its strip closes, it waits for its commands, it hands the value of xs to its parent and ends. Its
lanes stay held for the parent. -/
def State.joinChild (s : State) (x p : Nat) : State :=
  let s := s.splitAndDrain
  if !s.commandsDone || !s.hart.ended.isEmpty then s.waitFor .join []
  else
    let v := s.x x
    let r := s.hart.r
    let b := s.hart.brick
    let lgs := if s.hart.bound = 0 then s.hart.next else s.hart.bound
    let s := s.withHart b p (fun s => s.mapHart (fun h => match h.fork with
      | .parent _ sp => { h with fork := .ended v sp lgs r }
      | _ => h))
    s.endHartOnly none

/-- join (R102, R103). -/
def State.doJoin (s : State) (x : Nat) : State :=
  match s.hart.fork with
  | .child p _ => s.joinChild x p
  | .parent _ false => s.settle (.error illegalInstr)
  | .ended _ false _ _ => s.settle (.error illegalInstr)
  | .parent _ true => (s.splitAndDrain).waitFor .join []
  | .ended v true lgs hi =>
    let s := s.splitAndDrain
    let s := (s.setX x v).retire
    -- all of its lane groups: its own and the child's, fewer than before the fork when some are retired (R103, R109)
    let s := s.mapHart (fun h => if lgs ≠ 0 then { h with next := h.bound ||| lgs, fork := .rejoin lgs hi }
      else { h with fork := .none })
    s.endStrip s.pc
  | _ => (s.setX x 0).advance

/-! ### Tiles and stream slots of a brick (R64, R105, R164) -/

/-- The claims of tiles that the checkpoints of the unclosed strips hold, each with its number and its tiles: a restart may bring them back
(R232, R379). -/
def Hart.heldClaims (h : Hart) : List (Nat × Nat) :=
  distinct (((h.ckpt :: h.ended.map (·.ckpt)).map (fun r => (r.claim, r.ncl.toNat))).filter (fun x => x.2 != 0))

/-- The tiles of claims made and released within unclosed strips. The hart can take them again; other harts cannot (R379; DEDUCED, log 104). -/
def Hart.spareTiles (h : Hart) : Nat :=
  ((h.freed ++ h.ended.flatMap (·.freed)).filter (fun x => !(h.heldClaims.contains x))).foldl (fun n x => max n x.2) 0

/-- Claimed tiles, with those released in a strip that has not closed, which a restart may claim or bring back (R379). -/
def Hart.claims (h : Hart) : Nat :=
  let now := (h.r.claim, h.r.ncl.toNat)
  h.heldClaims.foldl (fun n x => n + x.2) 0 + max h.spareTiles (if h.heldClaims.contains now then 0 else now.2)

/-- Bound streams. -/
def Hart.boundStreams (h : Hart) : Nat := (h.r.streams.toList.filter Option.isSome).length

/-- The hart whose reservation a hart shares: its own, or its fork parent's. -/
def Hart.holder (h : Hart) : Nat := match h.fork with | .child p _ => p | _ => h.num

/-- What one reservation and the claims on it hold of a brick. -/
def heldBy (hs : List Hart) (res use : Hart → Nat) (n : Nat) : Nat × Nat :=
  ((hs.filter (fun h => h.holder == n)).foldl (fun m h => m + res h) 0,
   (hs.filter (fun h => h.holder == n)).foldl (fun m h => m + use h) 0)

/-- Whether the hart in focus can claim `k` more of a brick's 16 tiles or slots: first from its reservation, then from those
neither claimed nor reserved. -/
def State.canClaim (s : State) (res use : Hart → Nat) (k : Nat) : Bool :=
  let hs := s.harts.filter (fun h => h.brick == s.hart.brick)
  let (mine, used) := heldBy hs res use s.hart.holder
  let taken := (List.range 4).foldl (fun m n => let (r, u) := heldBy hs res use n; m + max r u) 0
  k - (mine - used) ≤ 16 - taken

end Sys2Proof.Machine
end

