-- ==== Sys2Proof/Machine/Windows.lean ====
section
/-! DEFINITION. The host's command windows: reading and writing their registers (R40 to R48, R58, R82), the signal lane (R43, R51,
R52) and translation shootdown (R159). -/

namespace Sys2Proof.Machine

/-! ### Registers as they read -/

/-- The values that the fields of a record word name. -/
def packed (l : List (Nat × Nat)) : Word := BitVec.ofNat 64 (l.foldl (fun n x => n + x.1 * 2 ^ x.2) 0)

/-- SAVEDESC (R83): the fields of R78 with their offsets and sizes. -/
def saveFields : List (Nat × Nat) :=
  [(0x0000, 256), (0x0100, 512), (0x0300, 33792), (0x8700, 8192), (0xA700, 8192), (0xC700, 16384), (0x10700, 128),
   (0x10780, 256), (0x10880, 256), (0x10980, 512), (0x10B80, 1024), (0x10F80, 128)]

def saveDescBytes : List Byte :=
  padTo 256 (leBytes 4 1 ++ leBytes 4 Config.saveAreaBytes ++ leBytes 4 Config.saveAreaBytes ++ leBytes 4 12 ++
    saveFields.zipIdx.flatMap (fun x => leBytes 4 x.2 ++ leBytes 4 x.1.1 ++ leBytes 4 x.1.2 ++ zeros 4))

/-- QCFG (R46). -/
def Queue.cfgWord (q : Queue) : Word := packed [(q.en.toNat, 63), (q.vmid, 56), (q.qsz, 52), (q.weight, 0)]

/-- A register of a queue page (R46). -/
def Queue.page (q : Queue) (o : Nat) : Option Word :=
  match o with
  | 0x00 => some (BitVec.ofNat 64 q.tail)
  | 0x08 => some (BitVec.ofNat 64 q.head)
  | 0x10 => some (BitVec.ofNat 64 (q.done % 2 ^ 32))
  | 0x18 => some (packed [(q.ovr.toNat, 0), (q.sigerr.toNat, 1)])
  | _ => none

/-- The registers that only window 0 has (R44, R82, R159). Offset +24 of a queue's configuration, which is reserved, is no register, so
an access to it fails (DESIGN CHOICE, log 90). -/
def Device.adminRegister (d : Device) (r : Nat) : Option Word :=
  if r = 0x30 then some d.devEnergy
  else if r = 0x38 then some (BitVec.ofNat 64 d.sched.quantum)
  else if r = 0x40 then some d.sched.cmd
  else if r = 0x48 then some (packed [(d.sched.busy.toNat, 0), (d.sched.result, 8)])
  else if r = 0x50 then some (BitVec.ofNat 64 d.sched.savePool)
  else if r = 0x58 then some (BitVec.ofNat 64 d.sched.saveSlots)
  else if r = 0x60 then some (d.sched.inv ||| packed [(d.sched.invBusy.toNat, 63)])
  else if r = 0x68 then some d.sched.invVa
  else if 0x1000 ≤ r ∧ r < 0x1100 then some (BitVec.ofNat 64 (leAt saveDescBytes (r - 0x1000) 8))
  else if 0x20000000 ≤ r ∧ r < 0x20020000 then
    (let q := d.queue ((r - 0x20000000) / 32)
     match r % 32 with
     | 0 => some q.cfgWord
     | 8 => some (BitVec.ofNat 64 q.base)
     | 16 => some (BitVec.ofNat 64 q.cmpl)
     | _ => none)
  else if 0x30000000 ≤ r ∧ r < 0x30008000 then
    (let c := d.ctxent ((r - 0x30000000) / 8)
     some (packed [(c.valid.toNat, 63), (c.vmid, 56), (c.root, 0)]))
  else if 0x40000000 ≤ r ∧ r < 0x40000200 then some (BitVec.ofNat 64 (d.tenant ((r - 0x40000000) / 8)).weight)
  else none

/-- An 8-byte register of window `v` at offset `r` (R42, R44, R46); none where the window defines none. SIGPUSH cannot be read. -/
def Device.register (d : Device) (v r : Nat) : Option Word :=
  let t := d.tenant v
  if r % 8 ≠ 0 then none
  else if r = 0x00 then some t.evbase
  else if r = 0x08 then some (packed [(t.even.toNat, 63), (t.evsz, 0)])
  else if r = 0x10 then some t.evprod
  else if r = 0x18 then some t.evcons
  else if r = 0x20 then some t.evlost
  else if r = 0x28 then some t.energy
  else if 0x10000 ≤ r ∧ r < 0x12000 then some ((lookupKey ((r - 0x10000) / 8) t.sigs).getD 0)
  else if 0x10000000 ≤ r ∧ r < 0x20000000 then
    (let q := d.queue ((r - 0x10000000) / 0x10000)
     if q.vmid = v then q.page (r % 0x10000) else none)
  else if v = 0 then d.adminRegister r
  else none

/-- Window and offset in it of a device offset. -/
def windowOf (off : Nat) : Nat × Nat := ((off - Config.commandBase) / 2 ^ 32, (off - Config.commandBase) % 2 ^ 32)

/-- Whether a flit may use the window it names: class 0, and the window's own VMID or 0 (R41). -/
def windowOpen (d : Device) (f : Flit) : Bool :=
  d.own f.pa && Config.commandBase ≤ offsetOf f.pa && f.cls == 0 && (f.vmid == 0 || f.vmid == (windowOf (offsetOf f.pa)).1)

/-- A read of the command region (R41): 8 bytes, aligned, of a register that the window defines. -/
def Device.readWindow (d : Device) (f : Flit) (n : Nat) : Option Word :=
  let (v, r) := windowOf (offsetOf f.pa)
  if windowOpen d f && n == 8 then d.register v r else none

/-! ### Writes -/

/-- The acknowledgement of a write flit, and the status of a read (R20). -/
def statusFlit (kind cls pa st : Nat) : Flit :=
  { cls := cls, kind := kind, pa := pa, len := 7, payload := padTo 224 [BitVec.ofNat 8 st] }

/-- Answer a flit. -/
def State.answer (s : State) (p : Nat) (f g : Flit) : State := s.mapDev (fun d => d.reply p f g)

/-- A write of a window register: `h` has its effect when the access is one that R41 accepts and its register is one of a row's, and
the acknowledgement says so. -/
def State.onWindow (s : State) (p : Nat) (f : Flit) (row : Nat → Nat → Bool) (h : State → Nat → Nat → Word → State) : State :=
  s.onFlit p f fun s =>
    let (v, r) := windowOf (offsetOf f.pa)
    if windowOpen s.dev f && f.len == 7 && (s.dev.register v r).isSome && row v r then
      some ((h s v r (BitVec.ofNat 64 (flitAt f 0 8))).answer p f (statusFlit 3 f.cls f.pa 0))
    else some (s.answer p f (statusFlit 3 f.cls f.pa 1))

/-- Change a queue, a tenant or the scheduler's registers. -/
def State.mapQueue (s : State) (q : Nat) (f : Queue → Queue) : State := s.mapDev (fun d => d.setQueue q (f (d.queue q)))
def State.mapTenant (s : State) (v : Nat) (f : Tenant → Tenant) : State := s.mapDev (fun d => d.setTenant v (f (d.tenant v)))
def State.mapSched (s : State) (f : SchedRegs → SchedRegs) : State := s.mapDev (fun d => { d with sched := f d.sched })

/-- Address bits [51:16] of a written value. -/
def ringBase (w : Word) : Nat := field w.toNat 16 36 * 65536

/-- Queue, and offset in its block, of a configuration register. -/
def queueOfCfg (r : Nat) : Nat := (r - 0x20000000) / 32
def isCfg (v r : Nat) : Bool := v == 0 && 0x20000000 ≤ r && r < 0x20020000

/-- QWEIGHT of a QCFG write; 0 leaves it (R46). -/
def newWeight (w : Word) (old : Nat) : Nat := if field w.toNat 0 8 = 0 then old else field w.toNat 0 8

/-- A QCFG write that does not change EN (R46, R47). -/
def Queue.configure (q : Queue) (w : Word) : Queue :=
  if q.en then { q with weight := newWeight w q.weight }
  else { q with vmid := field w.toNat 56 6, qsz := field w.toNat 52 4, weight := newWeight w q.weight }

/-- Whether some area is spilled, and whether some hart is saved (R82). -/
def Device.spilled (d : Device) : Bool := d.saved.any (·.spilled)

/-- A write of a register that only stores its writable fields (R42 to R47, R82, R159). -/
def State.storeRegister (s : State) (v r : Nat) (w : Word) : State :=
  if r = 0x00 then s.mapTenant v (fun t => { t with evbase := BitVec.ofNat 64 (ringBase w) })
  else if 0x10000000 ≤ r ∧ r < 0x20000000 then
    (if r % 0x10000 = 0x18 then
       s.mapQueue ((r - 0x10000000) / 0x10000) (fun q =>
         { q with ovr := q.ovr && !(bit w.toNat 0), sigerr := q.sigerr && !(bit w.toNat 1) })
     else s)
  else if v ≠ 0 then s
  else if r = 0x38 then
    (let q := field w.toNat 0 14
     if 10 ≤ q ∧ q ≤ 10000 then s.mapSched (fun c => { c with quantum := q }) else s)
  else if r = 0x40 then
    (if s.dev.sched.busy then s
     else s.mapSched (fun c => { c with cmd := BitVec.ofNat 64 (field w.toNat 0 16), result := 2 }))
  else if r = 0x50 then (if s.dev.spilled then s else s.mapSched (fun c => { c with savePool := ringBase w }))
  else if r = 0x58 then
    (if s.dev.saved.isEmpty then s.mapSched (fun c => { c with saveSlots := field w.toNat 0 16 }) else s)
  else if r = 0x68 then s.mapSched (fun c => { c with invVa := BitVec.ofNat 64 (field w.toNat 16 40 * 65536) })
  else if isCfg v r then
    s.mapQueue (queueOfCfg r) (fun q => match r % 32 with
      | 0 => q.configure w
      | 8 => if q.en then q else { q with base := ringBase w }
      | _ => if q.en then q else { q with cmpl := ringBase w })
  else if 0x40000000 ≤ r ∧ r < 0x40000200 then
    (if field w.toNat 0 8 = 0 then s
     else s.mapTenant ((r - 0x40000000) / 8) (fun t => { t with weight := field w.toNat 0 8 }))
  else s

/-- Whether a QCFG write changes EN. -/
def State.enChange (s : State) (v r : Nat) (w : Word) : Bool :=
  isCfg v r && r % 32 == 0 && bit w.toNat 63 != (s.dev.queue (queueOfCfg r)).en

/-- A register with a row of its own keeps to it: such a write changes nothing here. -/
def ownRow (v r : Nat) : Bool :=
  r == 0x08 || r == 0x18 || (0x10000000 ≤ r && r < 0x20000000 && r % 0x10000 == 0) ||
  (v == 0 && (r == 0x60 || (0x30000000 ≤ r && r < 0x30008000)))

def execWindowRegisterWrite (p : Nat) (f : Flit) (s : State) : Host.Outcome State Fault Refusal :=
  .next (s.onWindow p f (fun _ _ => true) (fun s v r w => if ownRow v r || s.enChange v r w then s else s.storeRegister v r w))

/-- Bytes of a launch ring and of a completion ring. -/
def ringRecords (qsz : Nat) : Nat := 2 ^ (qsz + 6)

/-- An address lies in this device's GDDR 7. -/
def Device.here (d : Device) (base : Nat) : Bool :=
  d.own base && d.populated (offsetOf base)

/-- A launch of a queue is read and not complete. -/
def Device.busyQueue (d : Device) (q : Nat) : Bool := d.launches.any (fun l => l.queue == q)

/-- EN sets (R47). The two ring addresses are judged, and not the ends of the rings. -/
def State.enableQueue (s : State) (q : Nat) (w : Word) : State :=
  let k := (s.dev.queue q).configure w
  if k.qsz ≤ 10 && s.dev.here k.base && s.dev.here k.cmpl && !(s.dev.busyQueue q) then
    s.mapQueue q (fun _ => { k with
      en := true, head := 0, tail := 0, done := 0, doneSet := [], ovr := false, sigerr := false, reads := 0 })
  else s

def execQueueEnable (p : Nat) (f : Flit) (s : State) : Host.Outcome State Fault Refusal :=
  .next (s.onWindow p f (fun v r => isCfg v r && r % 32 == 0) (fun s v r w =>
    if s.enChange v r w && bit w.toNat 63 then s.enableQueue (queueOfCfg r) w else s))

/-- EN clears: no more records are read (R47). -/
def execQueueDisable (p : Nat) (f : Flit) (s : State) : Host.Outcome State Fault Refusal :=
  .next (s.onWindow p f (fun v r => isCfg v r && r % 32 == 0) (fun s v r w =>
    if s.enChange v r w && !(bit w.toNat 63) then
      s.mapQueue (queueOfCfg r) (fun q => { q with en := false, weight := newWeight w q.weight })
    else s))

/-- A tail write (R48). -/
def State.writeTail (s : State) (q : Nat) (w : Word) : State :=
  let k := s.dev.queue q
  let size := ringRecords k.qsz
  let t := field w.toNat 0 16
  if !k.en then s
  else if t < size ∧ (k.tail + size - k.head) % size ≤ (t + size - k.head) % size then s.mapQueue q (fun k => { k with tail := t })
  else (s.mapQueue q (fun k => { k with ovr := true })).mapDev (fun d => d.postEvent k.vmid 0x03 q 0 w)

def execQtailWrite (p : Nat) (f : Flit) (s : State) : Host.Outcome State Fault Refusal :=
  .next (s.onWindow p f (fun _ r => 0x10000000 ≤ r && r < 0x20000000 && r % 0x10000 == 0) (fun s _ r w =>
    s.writeTail ((r - 0x10000000) / 0x10000) w))

/-- A context entry write (R45): nothing while a launch that names the context is read and not complete, and nothing for context 0. -/
def execCtxentWrite (p : Nat) (f : Flit) (s : State) : Host.Outcome State Fault Refusal :=
  .next (s.onWindow p f (fun v r => v == 0 && 0x30000000 ≤ r && r < 0x30008000) (fun s _ r w =>
    let c := (r - 0x30000000) / 8
    if c = 0 ∨ s.dev.launches.any (fun l => l.record.ctx == c) then s
    else
      let e : CtxEnt := { valid := bit w.toNat 63, vmid := field w.toNat 56 6, root := ringBase w }
      s.mapDev (fun d => { d with ctxents := insertKey c e d.ctxents })))

/-- The event ring's configuration (R58): room that a larger ring gives is room that appears. -/
def execEvcfgWrite (p : Nat) (f : Flit) (s : State) : Host.Outcome State Fault Refusal :=
  .next (s.onWindow p f (fun _ r => r == 0x08) (fun s v _ w =>
    let en := bit w.toNat 63
    let sz := field w.toNat 0 4
    if 9 ≤ sz then s
    else (s.mapTenant v (fun t =>
      let t := { t with even := en, evsz := sz }
      if en && !((s.dev.tenant v).even) then { t with evprod := 0, evcons := 0, evlost := 0, owes := false } else t)).mapDev (fun d => d.tellLost v)))

/-- The host has consumed events (R58). -/
def execEvconsWrite (p : Nat) (f : Flit) (s : State) : Host.Outcome State Fault Refusal :=
  .next (s.onWindow p f (fun _ r => r == 0x18) (fun s v _ w =>
    let t := s.dev.tenant v
    if t.evprod.ult w || w.ult t.evcons then s
    else (s.mapTenant v (fun t => { t with evcons := w })).mapDev (fun d => d.tellLost v)))

/-! ### The signal lane (R43, R51, R52) -/

/-- A signal takes a value, and the launches that wait for it have seen it (R54). -/
def State.setSignal (s : State) (v sig : Nat) (w : Word) : State :=
  (s.mapTenant v (fun t => { t with sigs := insertKey sig w t.sigs })).mapDev (fun d => { d with launches := d.launches.map (fun l =>
    if l.record.vmid = v ∧ l.record.flags.getLsbD 4 ∧ l.record.waitsig = sig ∧ l.record.waitval ≤ w then { l with sigSeen := true }
    else l) })

/-- The value of a signal. -/
def State.signal (s : State) (v sig : Nat) : Word := (lookupKey sig (s.dev.tenant v).sigs).getD 0

/-- The entry that a flit carries, unless it is refused (R51): one aligned write of 16 bytes with a known OP and zero reserved bits. -/
def sigEntry (f : Flit) : Option SigEntry :=
  let op := flitAt f 0 1
  if offsetOf f.pa % 0x10000 = 0x40 ∧ f.len = 15 ∧ 1 ≤ op ∧ op ≤ 2 ∧ flitAt f 1 1 = 0 ∧ flitAt f 2 2 < 1024 ∧ flitAt f 4 4 = 0 then
    some { add := op == 2, sig := flitAt f 2 2, value := BitVec.ofNat 64 (flitAt f 8 8) }
  else none

/-- The bytes a refused write carried at offsets 0 to 7 of the entry (R51). -/
def refusedBytes (f : Flit) : Word :=
  let o := offsetOf f.pa % 0x10000 - 0x40
  BitVec.ofNat 64 (leAt (zeros o ++ flitData f) 0 8)

/-- The queue whose SIGPUSH a flit names in a window that it may use (R41, R46). -/
def Device.sigQueue (d : Device) (f : Flit) : Option Nat :=
  let (v, r) := windowOf (offsetOf f.pa)
  let q := (r - 0x10000000) / 0x10000
  if windowOpen d f && 0x10000000 ≤ r && r < 0x20000000 && 0x40 ≤ r % 0x10000 && r % 0x10000 < 0x50 && (d.queue q).vmid == v then some q
  else none

/-- An entry is accepted into the lane and acknowledged, or held at the window unacknowledged while both entries are occupied. -/
def State.pushSignal (s : State) (p q : Nat) (f : Flit) (e : SigEntry) : State :=
  let k := s.dev.queue q
  if k.lane.length < 2 ∧ k.held.isEmpty then
    (s.mapQueue q (fun k => { k with lane := k.lane ++ [e] })).answer p f (statusFlit 3 f.cls f.pa 0)
  else s.mapQueue q (fun k => { k with held := k.held ++ [(p, f)] })

/-- SIGPUSH (R51). -/
def State.sigpush (s : State) (p : Nat) (f : Flit) : State :=
  s.onFlit p f fun s =>
    match s.dev.sigQueue f with
    | none => some (s.answer p f (statusFlit 3 f.cls f.pa 1))
    | some q =>
      match sigEntry f with
      | some e => some (s.pushSignal p q f e)
      | none =>
        let s := (s.mapQueue q (fun k => { k with sigerr := true })).mapDev (fun d =>
          d.postEvent (d.queue q).vmid 0x04 q 0 (refusedBytes f))
        some (s.answer p f (statusFlit 3 f.cls f.pa 0))

def execSigpushSet (p : Nat) (f : Flit) (s : State) : Host.Outcome State Fault Refusal := .next (s.sigpush p f)
def execSigpushAdd (p : Nat) (f : Flit) (s : State) : Host.Outcome State Fault Refusal := .next (s.sigpush p f)

/-- The oldest entry of a lane applies, and a held write takes the room (R52). It acts on the tenant that owns the queue at that moment
(DESIGN CHOICE, log 93). -/
def execSignalApply (q : Nat) (s : State) : Host.Outcome State Fault Refusal :=
  let k := s.dev.queue q
  match k.lane with
  | [] => .next s
  | e :: rest =>
    let s := s.mapQueue q (fun k => { k with lane := rest, held := k.held.drop 1 })
    let s := s.setSignal k.vmid e.sig (if e.add then s.signal k.vmid e.sig + e.value else e.value)
    match k.held with
    | [] => .next s
    | (p, f) :: _ =>
      match sigEntry f with
      | some e => .next ((s.mapQueue q (fun k => { k with lane := k.lane ++ [e] })).answer p f (statusFlit 3 f.cls f.pa 0))
      | none => .next s

/-! ### Shootdown (R159) -/

/-- A multicast that is discarded before its hand-over gives back the permit of each receiver (R177). -/
def State.returnPermits (s : State) (c : Command) : State :=
  match c with
  | .mcast _ _ _ dests => s.mapDev (fun d => { d with groups := d.groups.map (fun g =>
      if g.sender = s.hart.uid ∧ dests.contains (g.receiver, g.stream) then { g with permits := g.permits + 1 } else g) })
  | _ => s

/-- The strips of a hart that have not closed are restarted from the oldest checkpoint; those of a save area stand (R419). -/
def State.restartOldest (s : State) : State :=
  match s.hart.ended.find? (fun e => !e.kept) with
  | none => s.restart
  | some e =>
    let gone := (s.hart.ended.filter (fun e => !e.kept)).flatMap (·.strip.cmds)
    let s := gone.foldl State.returnPermits s
    -- the strips run again under the next serial numbers, and so do their arrivals (R298)
    let later := fun (a : Arrival) => if a.strip < e.strip.serial then a
      else { a with strip := a.strip + (s.hart.serial - e.strip.serial), again := true }
    (s.mapHart (fun h => { h with ended := h.ended.filter (·.kept), ckpt := e.ckpt, arrivals := h.arrivals.map later })).restart

/-- A trap entry that awaits another node is given up for a restart, and its report is held again: its instruction runs again. -/
def State.cancelEntry (s : State) : State :=
  match s.hart.entry with
  | some e => if e.trap.cause = 0x11 then s.mapHart (fun h => { h with aerr :=
      { h.aerr with held := some e.trap.report, queue := h.aerr.held.toList ++ h.aerr.queue } }) else s
  | none => s

/-- Whether a translation covers a page of 2^bits bytes at `va`. -/
def TlbEntry.covers (e : TlbEntry) (va bits : Nat) : Bool :=
  let k := max e.bits bits
  e.va / 2 ^ k == va / 2 ^ k

/-- The translations of a context in a range go, and every strip of the context that may have used one and has not closed is
restarted: those of its harts, whether or not their brick still holds the translation. Strips that came from a save area stand (R419). -/
def State.shootDown (s : State) (ctx : Nat) (gone : TlbEntry → Bool) : State :=
  let s := s.mapDev (fun d => { d with tlb := d.tlb.filter (fun e => !(e.ctx == ctx && gone e)) })
  (s.harts.filter (fun h => h.ctx == ctx && !(h.run == .token))).foldl (fun s h =>
    s.withHart h.brick h.num (fun s => s.cancelEntry.restartOldest)) s

/-- Whether a hart of a save area, or that was one, may still use a translation of some addresses (R159): for a store of a strip that no
restart reaches (R419), or for an instruction in flight (R420). -/
def Hart.keepsPage (h : Hart) (saved : Bool) (page : Nat → Bool) : Bool :=
  h.ended.any (fun e => (saved || e.kept) && e.strip.stores.any (fun st => page st.va || page ((st.va + st.data.length - 1) % 2 ^ 64))) ||
  h.inflight.any (fun r => (saved || r.resumed) && r.vas.any (fun va => page va || page ((va + 7) % 2 ^ 64)))

/-- The addresses that the shootdown in progress names (R159). -/
def SchedRegs.invCovers (c : SchedRegs) (va : Nat) : Bool :=
  let size := field c.inv.toNat 14 2
  let bits := if size = 0 then 16 else if size = 1 then 21 else 30
  bit c.inv.toNat 16 || va / 2 ^ bits == c.invPage / 2 ^ bits

/-- Whether accesses of a context that were translated before a shootdown may still be under way (R159): on their way to other nodes, of a copy
or merge command that the engines have taken up, of a hart that has ended, or of one that came from a save area or lies in one. -/
def State.translatedBefore (s : State) (ctx : Nat) : Bool :=
  s.harts.any (fun h => h.ctx == ctx && h.keepsPage false s.dev.sched.invCovers) ||
  s.dev.saved.any (fun a => a.hart.ctx == ctx && a.hart.keepsPage true s.dev.sched.invCovers) ||
  s.dev.outstanding.any (fun o => o.owner != .device && (((s.dev.launch o.launch).map (·.record.ctx)).getD ctx) == ctx) ||
  s.dev.slotQueue.any (fun m => m.flits.any (fun x => x.2.ctx == ctx)) ||
  s.dev.closing.any (fun h => h.ctx == ctx)

/-- A TLBINV write (R159): ignored while BUSY, for context 0 and for the reserved size. -/
def State.writeTlbinv (s : State) (w : Word) : State :=
  let ctx := field w.toNat 0 12
  let all := bit w.toNat 16
  let size := field w.toNat 14 2
  if s.dev.sched.invBusy ∨ ctx = 0 ∨ (size = 3 ∧ !all) then s
  else
    let s := s.mapSched (fun c => { c with invBusy := true, inv := packed [(all.toNat, 16), (size, 14), (ctx, 0)], invPage := c.invVa.toNat })
    let bits := if size = 0 then 16 else if size = 1 then 21 else 30
    s.shootDown ctx (fun e => all || e.covers s.dev.sched.invVa.toNat bits)

def execTlbinvAll (p : Nat) (f : Flit) (s : State) : Host.Outcome State Fault Refusal :=
  .next (s.onWindow p f (fun v r => v == 0 && r == 0x60) (fun s _ _ w => if bit w.toNat 16 then s.writeTlbinv w else s))
def execTlbinvPage (p : Nat) (f : Flit) (s : State) : Host.Outcome State Fault Refusal :=
  .next (s.onWindow p f (fun v r => v == 0 && r == 0x60) (fun s _ _ w => if bit w.toNat 16 then s else s.writeTlbinv w))

/-- BUSY clears once no access translated before can perform any more, and the constant-hint entries of the context are gone (R124, R159). -/
def execShootdownComplete (s : State) : Host.Outcome State Fault Refusal :=
  if s.dev.sched.invBusy && !(s.translatedBefore (field s.dev.sched.inv.toNat 0 12)) then
    let ctx := field s.dev.sched.inv.toNat 0 12
    let s := s.mapDev (fun d => { d with bricks := d.bricks.map (fun b =>
      (b.1, b.2.dropEntries (fun e => e.kind == .const && e.key.ctx == ctx))) })
    .next (s.mapSched (fun c => { c with invBusy := false }))
  else .next s

/-- A walk for an access of a hart ends: its translation is kept, or nothing is (R157, R418). -/
def execWalkComplete (b ctx vmid : Nat) (va : Addr) (s : State) : Host.Outcome State Fault Refusal :=
  if s.harts.any (fun h => h.brick == b && h.ctx == ctx && h.vmid == vmid) then
    match s.dev.tlbFind b ctx vmid va, s.dev.walk ctx va with
    | none, .ok e => .next (s.mapDev (fun d => (d.meetWalk ctx va).keepWalk { e with brick := b, ctx := ctx, vmid := vmid } .second))
    | _, _ => .next s
  else .next s

end Sys2Proof.Machine
end

