-- ==== Sys2Proof/Machine/Links.lean ====
section
/-! DEFINITION. Memory messages between nodes at both ends (R13, R20, R162, R243, R244), and the life of a port: link control, resends,
a port that is taken down, training, and scheduled slots (R22, R23, R26, R405). -/

namespace Sys2Proof.Machine

/-- The node a message goes to. -/
def SlotMsg.node (m : SlotMsg) : Nat := ((m.flits.head?).map (·.2.dst)).getD 0

/-! ### What comes back to the issuer -/

/-- Hand pieces that have come back to whoever asked for them. -/
def State.land (s : State) (o : Owner) (l : List Landed) : State :=
  match o with
  | .hart uid => s.mapUid uid (fun h => { h with landed := h.landed ++ l })
  | .stream uid n q => s.mapUid uid (fun h => { h with streamLanded := h.streamLanded ++ l.map (fun x => (n, q, x)) })
  | .copy c k =>
    s.mapDev (fun d =>
      let x := d.course c
      d.setCourse c { x with copies := x.copies.map (fun j => if j.key = k then { j with landed := j.landed ++ l } else j) })
  | .merge c =>
    s.mapDev (fun d =>
      let x := d.course c
      d.setCourse c { x with mergeLanded := x.mergeLanded ++ l })
  | .device => s

/-- The parts of `n` bytes from `pa` on that lie in one 64-byte granule each: address and length (R20). -/
def partsOf (pa n : Nat) : List (Nat × Nat) :=
  if n = 0 then []
  else (List.range ((pa + n - 1) / 64 - pa / 64 + 1)).map (fun i =>
    let lo := max pa (64 * (pa / 64 + i))
    (lo, min (pa + n) (64 * (pa / 64 + i) + 64) - lo))

/-- The STATUS of a report for a response's status (R238, R335): 1 access error, 2 poisoned target, 4 link failure. -/
def reportStatus (st : Nat) : Nat := if st = 1 then 0x03 else if st = 2 then 0x01 else 0x04

/-- An access to another node ends without success: with the status of a response, or 4 for a link failure (R22). -/
def State.failAccess (s : State) (o : Outstanding) (st : Nat) : State :=
  let fail := fun (uid : Nat) =>
    s.failStore o.launch { uid := uid, strip := o.strip, source := o.source, status := reportStatus st, va := o.va }
  match o.kind, o.owner with
  | 0x02, .hart uid => if o.source = 0 then s.land o.owner [.failed o.pa st] else fail uid
  | 0x02, w => s.land w [.failed o.pa st]
  | 0x04, .hart uid => if o.source = 0x05 then fail uid else s.land o.owner [.atomic o.elem st 0]
  | _, w => s.land w ((partsOf o.pa o.len).map (fun x => .failed x.1 st))

/-- Nothing more is awaited of an access: its strip's reports may be due (R238). -/
def State.settleAccess (s : State) (o : Outstanding) : State :=
  match o.owner with
  | .hart uid => s.settleReports o.launch uid o.strip o.source
  | _ => s

/-- Take `n` bytes off the oldest read that awaits them: responses come in ascending address order (R20, R24). -/
def Device.takeRead (d : Device) (cls pa n : Nat) : Option (Outstanding × Device) :=
  let here := fun (o : Outstanding) => o.kind == 0 && o.cls == cls && o.pa == pa && n ≤ o.len
  match d.outstanding.find? here with
  | none => none
  | some o =>
    some (o, { d with outstanding :=
      if o.len = n then removeFirst here d.outstanding
      else replaceFirst here (fun o => { o with pa := pa + n, len := o.len - n }) d.outstanding })

/-- Take the oldest write or atomic that awaits an answer at an address. -/
def Device.takeAnswer (d : Device) (kind cls pa : Nat) : Option (Outstanding × Device) :=
  let here := fun (o : Outstanding) => o.kind == kind && o.cls == cls && o.pa == pa
  match d.outstanding.find? here with
  | none => none
  | some o => some (o, { d with outstanding := removeFirst here d.outstanding })

def execReadResponse (p : Nat) (f : Flit) (s : State) : Host.Outcome State Fault Refusal :=
  .next (s.onFlit p f fun s =>
    match s.dev.takeRead f.cls f.pa (f.len + 1) with
    | none => some s
    | some (o, d) => some (State.land { s with dev := d } o.owner ((flitData f).zipIdx.map (fun x => .byte (f.pa + x.2) x.1))))

/-- The part of the oldest read at the status flit's address lies in one granule. -/
def execReadStatus (p : Nat) (f : Flit) (s : State) : Host.Outcome State Fault Refusal :=
  .next (s.onFlit p f fun s =>
    match s.dev.outstanding.find? (fun o => o.kind == 0 && o.cls == f.cls && o.pa == f.pa) with
    | none => some s
    | some o =>
      match s.dev.takeRead f.cls f.pa (min o.len (64 - f.pa % 64)) with
      | none => some s
      | some (o, d) => some (State.land { s with dev := d } o.owner [.failed f.pa (flitAt f 0 1)]))

/-- Once every acknowledgement of a write has arrived it has performed (R195). -/
def execWriteAcknowledgement (p : Nat) (f : Flit) (s : State) : Host.Outcome State Fault Refusal :=
  .next (s.onFlit p f fun s =>
    match s.dev.takeAnswer 0x02 f.cls f.pa with
    | none => some s
    | some (o, d) =>
      let s : State := { s with dev := d }
      some ((if flitAt f 0 1 = 0 then s else s.failAccess o 1).settleAccess o))

/-- The flags of an FP add are engine flags of the issuing context (R163, R219). -/
def execAtomicResponse (p : Nat) (f : Flit) (s : State) : Host.Outcome State Fault Refusal :=
  .next (s.onFlit p f fun s =>
    match s.dev.takeAnswer 0x04 f.cls f.pa with
    | none => some s
    | some (o, d) =>
      let s : State := { s with dev := d }
      let st := flitAt f 0 1
      if o.source = 0x05 then
        (let s := match o.owner with
          | .hart uid => s.mapUid uid (fun h => { h with fstat := h.fstat ||| BitVec.ofNat 5 (flitAt f 1 1) })
          | _ => s
         some ((if st = 0 then s else s.failAccess o st).settleAccess o))
      else some (s.land o.owner [.atomic o.elem st (BitVec.ofNat 64 (flitAt f 8 8))]))

/-! ### What this device does for another node -/

/-- The errors that are met here and logged (R15, R245). -/
def State.logError (s : State) (brick lane address : Nat) : State := s.mapDev (fun d => d.logError brick lane address)

def execPatrolScrub (g : Nat) (s : State) : Host.Outcome State Fault Refusal :=
  if s.dev.populated (64 * g) then .next (s.mapDev (fun d => d.scrub g)) else .next s

/-- What a part of a read gives: data, or a status. -/
inductive Part where
  | data (pa : Nat) (l : List Byte)
  | status (pa st : Nat)

/-- A part within one granule (R20). -/
def Device.readPart (d : Device) (x : Nat × Nat) : Part :=
  let off := offsetOf x.1
  if !(d.populated off) then .status x.1 1
  else if d.poisoned off then .status x.1 2
  else .data x.1 (Memory.readBytes d.mem off x.2)

/-- The flits that answer parts in ascending order: data of neighbouring parts together, at most 224 bytes each. -/
def partFlits (cls : Nat) : List Part → Nat → List Byte → List Flit
  | [], pa, l => (split224 l).map (fun x =>
      { cls := cls, kind := 0x01, pa := pa + x.1, len := x.2.length - 1, payload := padTo 224 x.2 })
  | .data q m :: rest, pa, l => if l.isEmpty then partFlits cls rest q m else partFlits cls rest pa (l ++ m)
  | .status q st :: rest, pa, l =>
    (split224 l).map (fun x => ({ cls := cls, kind := 0x01, pa := pa + x.1, len := x.2.length - 1, payload := padTo 224 x.2 } : Flit)) ++
      statusFlit 0x06 cls q st :: partFlits cls rest 0 []

/-- The answer to a read request (R20, R41). -/
def Device.readAnswer (d : Device) (f : Flit) : List Flit :=
  let n := flitAt f 0 4
  if n = 0 ∨ 4096 < n ∨ 4096 < f.pa % 4096 + n ∨ !(d.own f.pa) then [statusFlit 0x06 f.cls f.pa 1]
  else if Config.commandBase ≤ offsetOf f.pa then
    match d.readWindow f n with
    | some w => [{ cls := f.cls, kind := 0x01, pa := f.pa, len := 7, payload := padTo 224 (leBytes 8 w.toNat) }]
    | none => (partsOf f.pa n).map (fun x => statusFlit 0x06 f.cls x.1 1)
  else partFlits f.cls ((partsOf f.pa n).map d.readPart) 0 []

def execReadRequest (p : Nat) (f : Flit) (s : State) : Host.Outcome State Fault Refusal :=
  .next (s.onFlit p f fun s =>
    let s := if s.dev.own f.pa then
        s.mapDev (fun d => d.meet ((partsOf f.pa (min 4096 (flitAt f 0 4))).map (fun x => offsetOf x.1)))
      else s
    some ((s.dev.readAnswer f).foldl (fun s g => s.answer p f g) s))

/-- A write that lies in GDDR 7 of this device is written; any other is an access error with nothing written (R13, R20). -/
def execWrite (p : Nat) (f : Flit) (s : State) : Host.Outcome State Fault Refusal :=
  .next (s.onFlit p f fun s =>
    let off := offsetOf f.pa
    let ok := s.dev.own f.pa && s.dev.populated off && s.dev.populated (off + f.len)
    let s := if ok then s.mapDev (fun d => d.writeAccess off (flitData f)) else s
    some (s.answer p f (statusFlit 0x03 f.cls f.pa (if ok then 0 else 1))))

/-- Whether an atomic request names what R20 gives, and its target. -/
def atomicLegal (d : Device) (f : Flit) : Bool :=
  let w := flitAt f 1 1
  flitAt f 0 1 ≤ 10 && (w == 4 || w == 8) && flitAt f 2 1 ≤ 3 && f.pa % w == 0 && d.own f.pa && d.populated (offsetOf f.pa)

/-- Perform an atomic request and answer it (R20, R162, R244). -/
def State.doAtomic (s : State) (p : Nat) (f : Flit) : State :=
  let w := flitAt f 1 1
  let op := flitAt f 0 1
  let (st, fl, old, d) := if atomicLegal s.dev f then
      s.dev.atomic (offsetOf f.pa) op w (flitAt f 3 1) (flitAt f 8 8 % 2 ^ (8 * w)) (flitAt f 16 8 % 2 ^ (8 * w))
    else (1, 0, 0, s.dev)
  State.answer { s with dev := d } p f { kind := 0x05, pa := f.pa, len := 15
                                         payload := padTo 224 (leBytes 1 st ++ leBytes 1 fl.toNat ++ zeros 6 ++ leBytes 8 old) }

/-- An atomic request (R20). The first element of a group holds its address until the last has been performed, so no other atomic comes
between them (R162): another node's waits, and with it what that node sends behind it (R198). -/
def execAtomicRequest (p : Nat) (f : Flit) (s : State) : Host.Outcome State Fault Refusal :=
  .next (s.onFlit p f fun s =>
    let g := if atomicLegal s.dev f then flitAt f 2 1 else 3
    let mine := fun (x : Nat × Nat) => x == (f.src, f.pa)
    let s := s.doAtomic p f
    some (if g = 1 then s.mapDev (fun d => { d with groupsHeld := (f.src, f.pa) :: d.groupsHeld })
      else if g = 2 ∨ g = 3 then
        (if s.dev.groupsHeld.any mine then s.mapDev (fun d => { d with
           groupsHeld := d.groupsHeld.filter (fun x => !mine x), released := d.released ++ d.deferred, deferred := []
           agenda := d.deferred.map (fun x => .flit x.1 (flitBytes x.2)) ++ d.agenda })
         else s)
      else s))

/-! ### Ports -/

/-- Acknowledgement and credits only (R22). -/
def execLinkControl (p : Nat) (f : Flit) (s : State) : Host.Outcome State Fault Refusal :=
  if (s.dev.port p).ready then .next (s.mapDev (fun d => (d.setPort p (((d.port p).acked f).credited f)).pump p)) else .next s

/-- A discarded flit is counted and not acknowledged (R19). -/
def execFlitDiscard (p : Nat) (_f : Flit) (s : State) : Host.Outcome State Fault Refusal :=
  if (s.dev.port p).ready then .next (s.mapDev (fun d => d.countError p)) else .next s

/-- A flit that fails its CRC is not acknowledged, and has no effect (R22). -/
def execFlitCrcFailure (_p : Nat) (s : State) : Host.Outcome State Fault Refusal := .next s

/-- Resend from the oldest unacknowledged flit, up to eight times (R22). The resent flits take no credit (R25), and carry the counts they
carried at first, which the receiver has not added unless it received the flit intact (DEDUCED, log 89). -/
def execReplayTimeout (p : Nat) (s : State) : Host.Outcome State Fault Refusal :=
  let q := s.dev.port p
  if q.ready && !q.replay.isEmpty && q.resends < 8 then
    .next (s.mapDev (fun d => { d.setPort p { q with resends := q.resends + 1, owesAck := false } with
      wire := d.wire ++ q.replay.map (fun f => (p, { f with ackseq := q.ackIn })) }))
  else .next s

/-- A port is taken down and trains again at once (R22, R23): every message still outstanding on it completes with a link failure. -/
def State.takeDown (s : State) (p : Nat) : State :=
  let q := s.dev.port p
  let lost := s.dev.outstanding.filter (fun o => o.port == p)
  let other := fun (m : SlotMsg) =>
    (List.range Config.ports).find? (fun k => k != p && s.dev.joins m.node k && s.dev.holdsSlot m.launch k)
  let msgs := s.dev.slotQueue.filter (fun m => m.port == p && (other m).isNone)
  let s := s.mapDev (fun d => { d.setPort p { q with ready := false, training := true, replay := [], queue := [], resends := 0, owesAck := false } with
    outstanding := d.outstanding.filter (fun o => o.port != p), slotQueue := d.slotQueue.filterMap (fun m =>
      if m.port = p then (other m).map (fun k => { m with port := k }) else some m) })
  let s := lost.foldl (fun s o => s.failAccess o 4) s
  let s := msgs.foldl (fun s m =>
    s.failStore m.launch { uid := m.uid, strip := m.strip, source := 0x04, status := 0x04, va := ((m.flits.head?).map (·.1)).getD 0 }) s
  let s := lost.foldl State.settleAccess s
  msgs.foldl (fun s m => s.settleReports m.launch m.uid m.strip 0x04) s

/-- After eight resends of one flit without success (R22). -/
def execPortDown (p : Nat) (s : State) : Host.Outcome State Fault Refusal :=
  let q := s.dev.port p
  if q.ready && !q.replay.isEmpty && 8 ≤ q.resends then .next (s.takeDown p) else .next s

/-- A port sends link control at least once every 1 µs while the link is up (R22). -/
def execLinkControlKeepalive (p : Nat) (s : State) : Host.Outcome State Fault Refusal :=
  if (s.dev.port p).ready then .next (s.mapDev (fun d => d.linkControl p)) else .next s

/-- After five failed trainings in a row a port sets its FAIL bit and trains no more (R23). -/
def Port.judge (q : Port) : Port := if 5 ≤ q.fails then { q with fail := true, training := false } else q

/-- A training attempt fails; the fifth in a row is the last. -/
def execPortTrainingFailed (p : Nat) (s : State) : Host.Outcome State Fault Refusal :=
  let q := s.dev.port p
  if q.training then .next (s.mapDev (fun d => d.setPort p ({ q with fails := q.fails + 1 }).judge)) else .next s

/-- Five failed trainings in a row (R23). -/
def execPortFail (p : Nat) (s : State) : Host.Outcome State Fault Refusal :=
  .next (s.mapDev (fun d => d.setPort p (d.port p).judge))

/-! ### Scheduled slots (R26, R27, R405) -/

/-- Whether a waiting message's hart has class 0 stores to the same node that are not acknowledged, of earlier strips (R405) or of bytes that it
writes too (R161). -/
def Device.mustWait (d : Device) (m : SlotMsg) : Bool :=
  d.outstanding.any (fun o => o.owner == .hart m.uid && o.kind == 2 && o.cls == 0 && o.node == m.node &&
    (o.strip < m.strip || (o.strip == m.strip && m.flits.any (fun x => x.2.pa < o.pa + o.len && o.pa ≤ x.2.pa + x.2.len))))

/-- Send a scheduled message (R405): each of its flits awaits its acknowledgement. -/
def Device.sendMessage (d : Device) (m : SlotMsg) : Device :=
  m.flits.foldl (fun d x => { d.transmit m.port x.2 with outstanding := d.outstanding ++
    [{ owner := .hart m.uid, kind := 2, pa := x.2.pa, len := x.2.len + 1, va := x.1, source := 0x04, port := m.port, cls := 1,
       strip := m.strip, path := .v, so := m.so, launch := m.launch }] }) d

/-- The frame that DTIME lies in (R26). -/
def Device.frame (d : Device) : Nat := d.time.dtime.toNat / 16384

/-- Whether a slot of a port begins now (R26): DTIME counts and lies in the slot's 128 ns, and the slot has not begun in this frame. -/
def Device.slotBegins (d : Device) (p slot : Nat) : Bool :=
  d.time.counting && d.time.dtime.toNat % 16384 / 128 == slot && lookupKey (128 * p + slot) d.slotRuns != some d.frame

/-- Whether a slot of a port can carry a message: the port joins the device to its target (R27, R405), and no earlier class 1 flit to that
node has yet to leave another port (R24). -/
def Device.carriesTo (d : Device) (p : Nat) (m : SlotMsg) : Bool :=
  d.joins m.node p && (d.follows 1 m.node).getD p == p

/-- DTIME at the start of a slot of the present frame (R26). -/
def Device.slotStart (d : Device) (slot : Nat) : Nat := 16384 * d.frame + 128 * slot

/-- A reserved slot begins: it carries the oldest message of its launch that can go by the port and was handed over by its start. -/
def execScheduledSlotStart (p slot : Nat) (s : State) : Host.Outcome State Fault Refusal :=
  match s.dev.slots.find? (fun x => x.1 == p && x.2.1 == slot) with
  | none => .next s
  | some x =>
    if !(s.dev.slotBegins p slot) then .next s
    else
      let s := s.mapDev (fun d => { d with slotRuns := insertKey (128 * p + slot) d.frame d.slotRuns })
      match s.dev.slotQueue.find? (fun m => m.launch == x.2.2 && m.since ≤ s.dev.slotStart slot && s.dev.carriesTo p m) with
      | none => .next s
      | some m =>
        if s.dev.mustWait m then .next s
        else .next (s.mapDev (fun d =>
          { d with slotQueue := removeFirst (fun y => y == m) d.slotQueue }.sendMessage { m with port := p }))

end Sys2Proof.Machine
end

