-- ==== Sys2Proof/Machine/Streams.lean ====
section
/-! DEFINITION. Stream bindings (R338 to R341), copy, layout and multicast commands (R342 to R345), waiting for transfers
(R346, R347) and the merge instructions (R367 to R373). -/

namespace Sys2Proof.Machine

/-! ### Streams (R164, R338 to R341) -/

/-- A descriptor's fields (R164). -/
def streamDesc (va : Nat) (l : List Byte) : StreamDesc :=
  { va := va, base := BitVec.ofNat 64 (leAt l 0 8), cnt0 := leAt l 8 4, cnt1 := leAt l 12 4, cnt2 := leAt l 16 4
    ew := leAt l 20 1, mode := leAt l 21 1, win := leAt l 22 1, sender := leAt l 23 1
    str0 := BitVec.ofNat 64 (leAt l 24 8), str1 := BitVec.ofNat 64 (leAt l 32 8), str2 := BitVec.ofNat 64 (leAt l 40 8)
    wstr := BitVec.ofNat 64 (leAt l 48 8) }

/-- A descriptor that is not refused (R164). -/
def StreamDesc.legal (d : StreamDesc) (l : List Byte) : Bool :=
  leAt l 56 8 == 0 && d.mode ≤ 2 && d.win != 1 && d.win ≤ 16 && d.ew ≤ 3 && 1 ≤ d.cnt0 && 1 ≤ d.cnt1 && 1 ≤ d.cnt2 &&
  (d.mode == 2 || d.sender == 0) &&
  [d.base, d.str0, d.str1, d.str2, d.wstr].all (fun x => x.toNat % 2 ^ d.ew == 0)

/-- Whether the next stream takes a slot from beyond the reservation of the hart and its fork partner (R164). -/
def State.slotElsewhere (s : State) : Bool :=
  let hs := s.harts.filter (fun h => h.brick == s.hart.brick)
  let (mine, used) := heldBy hs (·.streamRes) Hart.boundStreams s.hart.holder
  mine ≤ used

/-- The descriptor that sbind reads and checks at dispatch (R338). -/
def State.streamBlock (s : State) (d a n : Nat) : Except Stop (StreamDesc × State) :=
  let va := (s.x a).toNat
  (s.needsLanes).bind fun _ =>
  (require ((s.hart.r.streams.getD n none).isNone && (s.streamOf d).isNone && va % 64 == 0) illegalOperand).bind fun _ =>
  (s.loadScalar va 64).bind fun (l, s1) =>
  let t := streamDesc va l
  (require (t.legal l && t.ew == s.hart.r.vtype.sew.toNat && (t.mode != 2 || (s.senderOf t.sender).isSome)) illegalOperand).bind
    fun _ => .ok (t, s1)

/-- What sbind does on the vector side (R338): it takes a stream slot, for which it may wait, and binds the stream. -/
def State.bindStream (s : State) (d n : Nat) (t : StreamDesc) : Except Stop State :=
  if !(s.canClaim (·.streamRes) Hart.boundStreams 1) then .error (.wait .streamSlot [])
  else
    let s := s.setStream n (some { desc := t, reg := d, pos := 0, elsewhere := s.slotElsewhere })
    .ok (if t.mode = 2 then s.joinGroup n t else s).retire

def execSbind (d a n : Nat) (s : State) : Host.Outcome State Fault Refusal :=
  done (s.settle ((s.streamBlock d a n).bind fun (t, s1) => s1.bindStream d n t))

/-- A mode-2 stream is unbound: its receiver leaves the group, and its buffers are free (R340). What a restart of the open strip brings back is
kept aside (R341); hart 0 stands for a sender whose group has dissolved (R178). -/
def State.unbindMcast (s : State) (n : Nat) : State :=
  let g := (s.memberOf n).getD { sender := 0, receiver := s.hart.uid, stream := n, permits := 0, gone := true }
  (s.mapHart (fun h => { h with unbound := h.unbound ++
    [{ member := g, buffers := (h.buffers.filter (fun b => b.1 == n)).map (·.2) }] })).leaveGroup n

def execSunbind (n : Nat) (s : State) : Host.Outcome State Fault Refusal :=
  done (s.settle ((s.needsLanes).bind fun _ =>
    match s.hart.r.streams.getD n none with
    | none => .ok s.retire
    | some t =>
      let s := (s.setStream n none).dropFetched (· == n)
      .ok (if t.desc.mode = 2 then s.unbindMcast n else s.leaveGroup n).retire))

def execSclose (n : Nat) (s : State) : Host.Outcome State Fault Refusal :=
  done (s.settle ((s.needsLanes).bind fun _ =>
    match s.hart.r.streams.getD n none with
    | none => .ok s.retire
    | some t =>
      if t.desc.mode = 2 then .error illegalOperand
      else .ok ((s.setStream n (some { t with ended := true })).dropFetched (· == n)).retire))

/-! ### Spilled buffers (R178) -/

/-- A buffer as it lies in its receiver's spill area (R178 gives its size; the layout is a DESIGN CHOICE, log 25): the register, its mortar
bytes, VL, VTYPE [6:0], the sender's LGN, and zeros. -/
def McBuf.bytes (b : McBuf) : List Byte :=
  padTo 8448 (leBytes 1024 b.data.toNat ++ leBytes 32 b.mortar.toNat ++ leBytes 2 b.vl.toNat ++ leBytes 1 b.vtype.low.toNat ++ leBytes 1 b.lgn)

/-- The buffer that such bytes hold. -/
def McBuf.ofBytes (b : McBuf) (l : List Byte) : McBuf :=
  let t := leAt l 1058 1
  { b with
    data := BitVec.ofNat 8192 (leAt l 0 1024), mortar := BitVec.ofNat 256 (leAt l 1024 32), fail := 0, vl := BitVec.ofNat 14 (leAt l 1056 2)
    vtype := { kz := bit t 6, gm := BitVec.ofNat 2 (t / 8), sew := BitVec.ofNat 2 t }, lgn := leAt l 1059 1, spilled := false }

/-- A buffer every slot of which holds an error. -/
def McBuf.lose (b : McBuf) : McBuf := { b with fail := BitVec.allOnes 128, spilled := false }

/-- Where buffer `i` of a mode-2 stream is spilled (R178). -/
def Stream.spillAt (t : Stream) (i : Nat) : Nat := (t.desc.base.toNat + 8448 * i) % 2 ^ 64

/-- The landed and unread buffers of a stream, oldest first. -/
def Hart.landedOn (h : Hart) (n : Nat) : List McBuf := (h.buffers.filter (fun b => b.1 == n)).map (·.2)

/-- They are replaced. -/
def Hart.setLanded (h : Hart) (n : Nat) (l : List McBuf) : Hart :=
  { h with buffers := h.buffers.filter (fun b => b.1 != n) ++ l.map (fun b => (n, b)) }

/-- Write one buffer to its spill area, poisoned where it holds failed slots (R243). One that lies there already stays, and one that cannot be
written is lost. -/
def State.spillOne (s : State) (va : Nat) (b : McBuf) : McBuf × State :=
  if b.spilled then (b, s)
  else match s.writeDirect va b.bytes with
  | .error _ => (b.lose, s)
  | .ok s =>
    ({ b with spilled := true }, (setBits 128 b.fail.toNat).foldl (fun s t => match s.places ((va + 8 * t) % 2 ^ 64) 8 .write with
      | .ok (ps, _, s) => s.mapDev (fun d => (d.offsets ps).foldl (fun d o => d.addPoison (o / 64)) d)
      | .error _ => s) s)

/-- The mode-2 streams of the hart in focus, with their numbers. -/
def Hart.mcStreams (h : Hart) : List (Nat × Stream) :=
  (List.range 8).filterMap (fun n => match h.r.streams.getD n none with
    | some t => if t.desc.mode = 2 then some (n, t) else none
    | none => none)

/-- The landed and unread buffers of each mode-2 stream go to the spill area at its BASE, oldest first (R178). -/
def State.spillBuffers (s : State) : State :=
  s.hart.mcStreams.foldl (fun s x =>
    let (l, s) := (s.hart.landedOn x.1).zipIdx.foldl (fun (acc : List McBuf × State) y =>
      let (b, s) := acc.2.spillOne (x.2.spillAt y.2) y.1
      (acc.1 ++ [b], s)) ([], s)
    s.mapHart (fun h => h.setLanded x.1 l)) s

/-- What other nodes must be asked for by a read that waits. -/
def needOf {α : Type} : Except Stop α → List (Nat × Nat)
  | .error (.wait _ need) => need
  | .error (.hold need _) => need
  | _ => []

/-- What must be read from other nodes to land the spilled buffers again. -/
def State.unspillNeeds (s : State) : List (Nat × Nat) :=
  s.hart.mcStreams.flatMap (fun x => (s.hart.landedOn x.1).zipIdx.flatMap (fun y =>
    if y.1.spilled then needOf (s.loadScalar (x.2.spillAt y.2) 8448) else []))

/-- The spilled buffers land again at restore (R178). One that cannot be read is lost. -/
def State.unspill (s : State) : State :=
  s.hart.mcStreams.foldl (fun s x =>
    let l := (s.hart.landedOn x.1).zipIdx.map (fun y =>
      if !y.1.spilled then y.1
      else match s.loadScalar (x.2.spillAt y.2) 8448 with
        | .ok (l, _) => y.1.ofBytes l
        | .error _ => y.1.lose)
    s.mapHart (fun h => h.setLanded x.1 l)) s

/-- Something happens to a saved hart as if it were on its brick, under a hart number that no brick has and with no lane group. -/
def State.asSaved (s : State) (a : SaveArea) (f : State → State) : State :=
  s.withHart a.hart.brick Config.hartsPerBrick (fun s =>
    let t := f { s with hart := { a.hart with num := Config.hartsPerBrick, bound := 0 } }
    { hart := { brick := a.hart.brick, num := Config.hartsPerBrick }
      dev := { t.dev with saved := t.dev.saved.map (fun x =>
        if x.slot = a.slot then { x with hart := { t.hart with num := a.hart.num, bound := a.hart.bound } } else x) } })

/-- What has landed at a saved receiver goes to its spill area too (R178). -/
def State.spillSaved (s : State) (uid : Nat) : State :=
  match s.dev.saved.find? (fun a => a.hart.uid == uid) with
  | some a => if a.hart.buffers.any (fun b => !b.2.spilled) then s.asSaved a State.spillBuffers else s
  | none => s

/-! ### Channels and commands (R171, R342) -/

/-- The next identifier of a channel is taken: it goes to a register, and ISSUED advances. -/
def State.takeId (s : State) (d c : Nat) : BitVec 32 × State :=
  let id := nextId (s.hart.r.issued.getD c 0)
  (id, (s.mapRegs (fun r => { r with issued := r.issued.setIfInBounds c id })).setX d (id.setWidth 64))

/-- Buffer an engine command in the open strip. -/
def State.addCommand (s : State) (c : Command) : State :=
  s.mapHart (fun h => { h with strip := { h.strip with cmds := h.strip.cmds ++ [c] } })

/-- A command block of `n` bytes on path S (R342, R367). -/
def State.commandBlock (s : State) (a n : Nat) : Except Stop (List Byte × State) :=
  let va := (s.x a).toNat
  (require (va % n == 0) illegalOperand).bind fun _ => s.loadScalar va n

/-- The block of a command for the copy engine is read and checked, and its channel has room (R342). -/
def State.copyBlock (s : State) (a c n : Nat) (parse : List Byte → Option CopyBlock) : Except Stop (CopyBlock × State) :=
  (s.needsLanes).bind fun _ =>
  (s.commandBlock a n).bind fun (l, s1) =>
  match parse l with
  | none => .error illegalOperand
  | some b => if 64 ≤ s1.hart.openCommands c then .error (.wait .channel []) else .ok (b, s1)

/-- A command takes its identifier and ends its strip (R187, R342). -/
def State.issueCopy (s : State) (d c : Nat) (b : CopyBlock) : State :=
  let (id, s) := s.takeId d c
  let s := (s.addCommand (.copy c id b)).retire
  s.endStrip s.pc

/-- A command for the copy engine. -/
def State.copyCommand (s : State) (d a c n : Nat) (parse : List Byte → Option CopyBlock) : State :=
  s.settle ((s.copyBlock a c n parse).bind fun (b, s1) => .ok (s1.issueCopy d c b))

/-- The block of scopy (R343). -/
def scopyBlock (l : List Byte) : Option CopyBlock :=
  let len := leAt l 16 8
  let rec' := leAt l 24 8
  if 1 ≤ len ∧ len ≤ 2 ^ 30 ∧ rec' % 32 = 0 then
    some { xform := false, kind := 0, ecode := 0, rows := 0, cols := 0, n := 0, src := BitVec.ofNat 64 (leAt l 0 8)
           dst := BitVec.ofNat 64 (leAt l 8 8), len := len, record := BitVec.ofNat 64 rec' }
  else none

/-- Bytes of the segment image and of the plane image of `n` codes (R174). -/
def segmentBytes (n : Nat) : Nat := 36 * (n / 64)
def planeBytes (n : Nat) : Nat := n / 2 + n / 64

/-- The block of sxform (R344). -/
def sxformBlock (l : List Byte) : Option CopyBlock :=
  let rec' := leAt l 16 8
  let kind := leAt l 24 1
  let ecode := leAt l 25 1
  let rows := leAt l 28 4
  let cols := leAt l 32 4
  let n := leAt l 40 8
  let shape := if kind = 0 then ecode ≤ 3 && 1 ≤ rows && rows ≤ 65535 && 1 ≤ cols && cols ≤ 65535 && n == 0
    else kind ≤ 2 && ecode == 0 && rows == 0 && cols == 0 && n % 512 == 0
  let size := if kind = 0 then rows * cols * 2 ^ ecode else max (segmentBytes n) (planeBytes n)
  if shape ∧ size ≤ 2 ^ 30 ∧ rec' % 32 = 0 ∧ leAt l 26 2 = 0 ∧ leAt l 36 4 = 0 ∧ leAt l 48 16 = 0 then
    some { xform := true, kind := kind, ecode := ecode, rows := rows, cols := cols, n := n, src := BitVec.ofNat 64 (leAt l 0 8)
           dst := BitVec.ofNat 64 (leAt l 8 8), len := size, record := BitVec.ofNat 64 rec' }
  else none

def execScopy (d a c : Nat) (s : State) : Host.Outcome State Fault Refusal := done (s.copyCommand d a c 32 scopyBlock)
def execSxform (d a c : Nat) (s : State) : Host.Outcome State Fault Refusal := done (s.copyCommand d a c 64 sxformBlock)

/-! ### Multicast (R177, R345) -/

/-- The receivers of the hart's group. -/
def State.receivers (s : State) : List McMember := s.dev.groups.filter (fun g => g.sender == s.hart.uid && !g.gone)

/-- smcast: it waits while a receiver has given no permit, then takes one permit of each. -/
def State.doSmcast (s : State) (d v c : Nat) : State :=
  let cp := s.capture 0 0
  s.settle (
    (s.needsLanes).bind fun _ =>
    (require (cp.g == 1 && s.groupOk cp v 1) illegalOperand).bind fun _ =>
    if 64 ≤ s.hart.openCommands c then .error (.wait .channel [])
    else if s.receivers.any (fun g => g.permits == 0) then .error (.wait .smcast [])
    else
      (s.readGroup cp v 1).bind fun (g, s1) =>
      (s1.sound [(cp.w, g)] (fun _ => true) cp.n).bind fun _ =>
      let buf : McBuf := { data := BitVec.ofNat 8192 g.bits, mortar := BitVec.ofNat 256 g.mortar, fail := BitVec.ofNat 128 g.fail,
                           vl := cp.vl, vtype := cp.vtype, lgn := s.hart.nlg }
      let dests := s.receivers.map (fun g => (g.receiver, g.stream))
      let s2 := s1.mapDev (fun dv => { dv with groups := dv.groups.map (fun g =>
        if g.sender = s.hart.uid ∧ !g.gone then { g with permits := g.permits - 1 } else g) })
      let (id, s3) := s2.takeId d c
      let s4 := (s3.addCommand (.mcast c id buf dests)).retire
      .ok (s4.endStrip s4.pc))

/-- An smcast that must wait for permits takes its place in the queue, with xd and ISSUED written (R177, R345). -/
def execSmcast (d vs c : Nat) (s : State) : Host.Outcome State Fault Refusal :=
  let t := s.doSmcast d vs c
  if t.hart.wait = .smcast then done ((s.enqueue s.hart.iword).mapHart (fun h => { h with wait := .smcast })) else done t

/-! ### Waiting for transfers (R346, R347) -/

/-- Whether an identifier counts as complete (R171). -/
def Hart.idComplete (h : Hart) (c : Nat) (n : BitVec 32) : Bool := n == 0 || (h.done.getD c 0 - n).toNat < 2 ^ 31

/-- The checks of xwait and xpoll; a report of the channel is delivered as a trap (R241). -/
def State.transferCheck (s : State) (a c : Nat) : Except Stop (BitVec 32) :=
  let v := s.x a
  let n := v.setWidth 32
  if v.toNat ≥ 2 ^ 32 ∨ (n ≠ 0 ∧ (s.hart.r.issued.getD c 0 - n).toNat ≥ 2 ^ 31) then .error illegalOperand
  else match s.hart.aerr.all.find? (fun r => reportSource r == 0x01 && reportChan r == c) with
    | some r => .error (.trap { cause := 0x11, kind := reportSource r, report := r })
    | none => .ok n

/-- A command has been seen complete: later accesses of the hart are performed and hit no entry of an earlier load (R196, R346). -/
def State.seeCommand (s : State) : State :=
  s.mapBrick (fun k => k.dropEntries (fun e => e.kind != .compute && e.key.lgset == s.hart.bound && e.key.ctx == s.hart.ctx && e.key.vmid == s.hart.vmid))

def execXwait (a c : Nat) (s : State) : Host.Outcome State Fault Refusal :=
  done (s.settle ((s.transferCheck a c).bind fun n =>
    if s.hart.idComplete c n then .ok s.seeCommand.retire else .error (.wait (.xwait c n) [])))

def execXpoll (d a c : Nat) (s : State) : Host.Outcome State Fault Refusal :=
  done (s.settle ((s.transferCheck a c).bind fun n =>
    .ok ((if s.hart.idComplete c n then s.seeCommand else s).setX d (ofBool (s.hart.idComplete c n))).retire))

/-! ### Merge instructions (R367 to R373) -/

/-- The block of a merge transfer command is read and checked, and the channel it names has room (R367). -/
def State.mergeBlock (s : State) (a : Nat) (parse : List Byte → Option MergeCmd) : Except Stop ((Nat × MergeCmd) × State) :=
  (s.commandBlock a 64).bind fun (l, s1) =>
  let c := leAt l 8 1
  match parse l with
  | none => .error illegalOperand
  | some m =>
    if 3 < c ∨ leAt l 0 8 % 32 ≠ 0 ∨ leAt l 10 6 ≠ 0 ∨ leAt l 44 20 ≠ 0 then .error illegalOperand
    else if 64 ≤ s1.hart.openCommands c then .error (.wait .channel []) else .ok ((c, m), s1)

/-- It takes the next identifier of its channel and stands in the open strip. -/
def State.issueMerge (s : State) (d c : Nat) (m : MergeCmd) : State :=
  let (id, s) := s.takeId d c
  (s.addCommand (.merge c id m)).retire

/-- A merge transfer command. -/
def State.mergeCommand (s : State) (d a : Nat) (parse : List Byte → Option MergeCmd) : State :=
  s.settle ((s.mergeBlock a parse).bind fun (x, s1) => .ok (s1.issueMerge d x.1 x.2))

/-- The blocks of R368. -/
def mgopenBlock (l : List Byte) : Option MergeCmd :=
  let limit := leAt l 32 4
  let rows := leAt l 36 4
  if leAt l 9 1 ≤ 1 ∧ leAt l 16 8 % 64 = 0 ∧ leAt l 24 8 % 64 = 0 ∧ 1 ≤ limit ∧ limit ≤ 1048576 ∧ 1 ≤ rows ∧ rows ≤ 2 ^ 31 ∧
     leAt l 40 4 = 0 then
    some (.openSession (BitVec.ofNat 64 (leAt l 0 8)) (leAt l 9 1 == 1) (BitVec.ofNat 64 (leAt l 16 8)) (leAt l 24 8) limit rows)
  else none

def mgfinBlock (l : List Byte) : Option MergeCmd :=
  let cap := leAt l 40 4
  if leAt l 9 1 = 0 ∧ leAt l 16 8 % 4 = 0 ∧ leAt l 24 8 % 4 = 0 ∧ leAt l 32 8 % 4 = 0 ∧ 1 ≤ cap ∧ cap ≤ 2 ^ 31 then
    some (.fin (BitVec.ofNat 64 (leAt l 0 8)) (BitVec.ofNat 64 (leAt l 16 8)) (BitVec.ofNat 64 (leAt l 24 8))
      (BitVec.ofNat 64 (leAt l 32 8)) cap)
  else none

def mgstatBlock (l : List Byte) : Option MergeCmd :=
  if leAt l 9 1 = 0 ∧ leAt l 16 8 % 64 = 0 ∧ leAt l 24 20 = 0 then
    some (.stat (BitVec.ofNat 64 (leAt l 0 8)) (BitVec.ofNat 64 (leAt l 16 8)))
  else none

def execMgopen (d a : Nat) (s : State) : Host.Outcome State Fault Refusal := done (s.mergeCommand d a mgopenBlock)
def execMgfin (d a : Nat) (s : State) : Host.Outcome State Fault Refusal := done (s.mergeCommand d a mgfinBlock)
def execMgstat (d a : Nat) (s : State) : Host.Outcome State Fault Refusal := done (s.mergeCommand d a mgstatBlock)

/-- mgpush (R371): the entries are captured, and the strip ends. -/
def execMgpush (a b k : Nat) (s : State) : Host.Outcome State Fault Refusal :=
  let c := s.capture 0 0
  done (s.settle (
    (s.needsLanes).bind fun _ =>
    (require (c.w == 64 && s.groupOk c a c.g && s.groupOk c b c.g) illegalOperand).bind fun _ =>
    (if k = 0 then .ok () else s.soundMask k c.n).bind fun _ =>
    (s.readGroups c c.g [a, b] []).bind fun (srcs, s1) =>
    let i : VIn := { cap := c, nl := s1.hart.lanes, srcs := srcs, old := {}, mask := s.selected k }
    (s1.sound (srcs.map (fun g => (64, g))) i.active c.n).bind fun _ =>
    let es := ((List.range c.n).filter i.active).map (fun e => ((i.src 0).elem 64 e, (i.src 1).elem 64 e))
    let s2 := (s1.addCommand (.merge 0 0 (.push es))).retire
    .ok (s2.endStrip s2.pc)))

end Sys2Proof.Machine
end

