-- ==== Sys2Proof/Machine/Engines.lean ====
section
/-! DEFINITION. The engines: copies and layout transforms with their records (R170 to R175), multicasts that land (R177, R178), the
merge engine (R179 to R183, R369 to R373), and the stream engine's fetches (R168). -/

namespace Sys2Proof.Machine

/-! ### What the engines read and write -/

/-- Whose accesses an engine makes: the brick, context and VMID of the hart that gave the command (R184). -/
structure Issuer where
  brick : Nat
  ctx : Nat
  vmid : Nat
  launch : Nat × Nat
deriving DecidableEq, Repr

/-- The status of a failed access (R172, R369): 1 poison, 2 translation fault, 3 access error or local memory, 4 link failure. -/
def Failure.status (f : Failure) : Nat :=
  if f.cause = 0x08 then 2 else if f.cause = 0x12 then 1 else if f = linkFailure then 4 else 3

/-- Translate for an engine, which keeps no translation; a poisoned page-table entry is a translation fault. -/
def Device.engineAddr (d : Device) (i : Issuer) (va : Nat) (p : Purpose) : Except Nat Nat :=
  if inWindow va then .error 3
  else match d.translate i.brick i.ctx i.vmid va p with
    | .ok (pa, _, _) => .ok pa
    | .error f => .error (if f.cause = 0x12 then 2 else f.status)

/-- A byte as an engine reads it. -/
def Device.engineSee (d : Device) (i : Issuer) (l : List Landed) (va : Nat) : Except Nat Seen :=
  match d.engineAddr i va .read with
  | .error st => .error st
  | .ok pa =>
    if d.own pa then
      .ok (if d.poisoned (offsetOf pa) then .fails poisonedMemory else .byte (Memory.read d.mem (offsetOf pa)))
    else .ok (landedByte l pa)

/-- An engine's translation meets the errors of the page table that it walks (R15). -/
def Device.engineWalk (d : Device) (i : Issuer) (va : Nat) : Device :=
  if inWindow va || (d.tlbFind i.brick i.ctx i.vmid va).isSome then d else d.meetWalk i.ctx va

/-- An engine's reads meet the errors of this device's memory that they touch, and of the page table on the way (R15). -/
def Device.engineMeet (d : Device) (i : Issuer) (vas : List Nat) : Device :=
  if d.latent.isEmpty then d
  else
    let d := vas.foldl (fun d va => d.engineWalk i va) d
    d.meet (vas.filterMap (fun va => match d.engineAddr i va .read with
    | .ok pa => if d.own pa then some (offsetOf pa) else none
    | .error _ => none))

/-- What is known of a byte that is not on its way: its value or the status of its failure. -/
def known : Except Nat Seen → Except Nat Byte
  | .error st => .error st
  | .ok (.byte b) => .ok b
  | .ok (.fails f) => .error f.status
  | .ok (.missing _) => .error 4

/-- The addresses that must be read from other nodes. -/
def needed (l : List (Except Nat Seen)) : List (Nat × Nat) :=
  l.filterMap (fun x => match x with
    | .ok (.missing pa) => some (pa, 1)
    | _ => none)

/-- Ask another node for bytes on behalf of an engine, unless they have been asked for. -/
def State.engineRequest (i : Issuer) (w : Owner) (s : State) (run : Nat × Nat) : State :=
  let (pa, n) := run
  if s.dev.outstanding.any (fun x => x.owner == w && x.kind == 0 && x.pa ≤ pa && pa + n ≤ x.pa + x.len) then s
  else
    let f : Flit := { cls := 0, kind := 0, dst := nodeOf pa % 4096, vmid := i.vmid, ctx := i.ctx, pa := pa, len := 7
                      payload := padTo 224 (leBytes 4 n) }
    match s.dev.route f.cls f.dst with
    | some p => s.mapDev (fun d => { d.transmit p f with outstanding := d.outstanding ++
        [{ owner := w, kind := 0, pa := pa, len := n, port := p, launch := i.launch }] })
    | none => s.land w ((List.range n).map (fun k => .failed (pa + k) 4))

/-- Ask for every byte of a list. -/
def State.engineNeeds (s : State) (i : Issuer) (w : Owner) (l : List (Nat × Nat)) : State :=
  (needRuns l).foldl (State.engineRequest i w) s

/-- Whether an engine's accesses to other nodes are still on their way. -/
def Device.awaits (d : Device) (w : Owner) : Bool := d.outstanding.any (fun o => o.owner == w)

/-- Write bytes of one granule at a physical address: 0, or the status of a failure that is already known. -/
def State.enginePut (s : State) (i : Issuer) (w : Owner) (pa : Nat) (data : List Byte) : Nat × State :=
  if s.dev.own pa then (0, s.mapDev (fun d => d.writeAccess (offsetOf pa) data))
  else
    let (ok, d) := s.dev.remoteWrite { owner := w, kind := 2, pa := pa, len := data.length, launch := i.launch } 0 i.vmid i.ctx data
    (if ok then 0 else 4, { s with dev := d })

/-- The offsets of bytes at an address, by the granules they lie in: the first offset and the length of each. -/
def granules (va n : Nat) : List (Nat × Nat) := (partsOf va n).map (fun x => (x.1 - va, x.2))

/-- Write bytes in ascending order up to the first failure: 0, or its status. -/
def State.engineWrite (s : State) (i : Issuer) (w : Owner) (va : Nat) (data : List Byte) : Nat × State :=
  (granules va data.length).foldl (fun (acc : Nat × State) g =>
    if acc.1 ≠ 0 then acc
    else
      let s := acc.2.mapDev (fun d => d.engineWalk i ((va + g.1) % 2 ^ 64))
      match s.dev.engineAddr i ((va + g.1) % 2 ^ 64) .write with
      | .error st => (st, s)
      | .ok pa => s.enginePut i w pa ((data.drop g.1).take g.2)) (0, s)

/-- The status of the first write to another node that has failed, or 0. -/
def writeStatus (l : List Landed) : Nat :=
  (firstSome (fun x => match x with
    | .failed _ st => some (if st = 1 then 3 else if st = 2 then 1 else 4)
    | _ => none) l).getD 0

/-! ### Copies (R170 to R175) -/

def CopyJob.issuer (j : CopyJob) : Issuer := ⟨j.brick, j.ctx, j.vmid, j.launch⟩

/-- The bytes of the source and of the destination (R343, R344). -/
def CopyBlock.srcBytes (b : CopyBlock) : Nat :=
  if !b.xform then b.len else if b.kind = 0 then b.rows * b.cols * 2 ^ b.ecode else if b.kind = 1 then segmentBytes b.n
  else planeBytes b.n
def CopyBlock.dstBytes (b : CopyBlock) : Nat :=
  if b.xform && b.kind == 1 then planeBytes b.n else if b.xform && b.kind == 2 then segmentBytes b.n else b.srcBytes

/-- The addresses of a range. -/
def rangeOf (va : Word) (n : Nat) : List Nat := (List.range n).map (fun k => (va.toNat + k) % 2 ^ 64)

/-- Whether a command fails whole (R170, R175): it names the local-memory window, or a transform's images overlap. -/
def CopyBlock.refused (b : CopyBlock) : Bool :=
  (rangeOf b.src b.srcBytes ++ rangeOf b.dst b.dstBytes).any inWindow ||
  (b.xform && ((b.dst - b.src).toNat < b.srcBytes || (b.src - b.dst).toNat < b.dstBytes) && b.srcBytes != 0)

/-- The plane image's part of a D4 segment (R174, R175): nothing of a malformed segment is written. -/
def fromSegment (src : Nat → Except Nat Byte) (seg : Nat) (f : Except Nat Byte) : Except Nat Byte :=
  match src (36 * seg + 33), src (36 * seg + 34), src (36 * seg + 35) with
  | .ok a, .ok b, .ok c => if a = 0x04 ∧ b = 0 ∧ c = 0 then f else .error 6
  | .error st, _, _ => .error st
  | _, .error st, _ => .error st
  | _, _, .error st => .error st

/-- A D4 code of a segment image: code `n` lies in byte n div 2 of its segment, the even one in the low half. -/
def segmentCode (src : Nat → Except Nat Byte) (code : Nat) : Except Nat Nat :=
  (src (36 * (code / 64) + code % 64 / 2)).map (fun b => field b.toNat (4 * (code % 2)) 4)

/-- A D4 code of a plane image of `n` codes. -/
def planeCode (src : Nat → Except Nat Byte) (n code : Nat) : Except Nat Nat :=
  (List.range 4).foldlM (fun acc q => (src (q * (n / 8) + code / 8)).map (fun b =>
    acc + (bit b.toNat (code % 8)).toNat * 2 ^ q)) 0

/-- The byte that a command brings to a destination offset (R174, R175, R344). -/
def CopyBlock.image (b : CopyBlock) (src : Nat → Except Nat Byte) (o : Nat) : Except Nat Byte :=
  if !b.xform then src o
  else if b.kind = 0 then
    let e := 2 ^ b.ecode
    let k := o / e
    src ((k % b.rows * b.cols + k / b.rows) * e + o % e)
  else if b.kind = 1 then
    if o < b.n / 2 then
      let q := o / (b.n / 8)
      let at' := o % (b.n / 8)
      fromSegment src (at' / 8) (((List.range 8).foldlM (fun acc i => (segmentCode src (8 * at' + i)).map (fun c =>
        acc + (bit c q).toNat * 2 ^ i)) 0).map (BitVec.ofNat 8))
    else fromSegment src (o - b.n / 2) (src (36 * (o - b.n / 2) + 32))
  else
    let seg := o / 36
    let k := o % 36
    if k < 32 then
      match planeCode src b.n (64 * seg + 2 * k), planeCode src b.n (64 * seg + 2 * k + 1) with
      | .ok lo, .ok hi => .ok (BitVec.ofNat 8 (lo + 16 * hi))
      | .error st, _ => .error st
      | _, .error st => .error st
    else if k = 32 then src (b.n / 2 + seg)
    else .ok (if k = 33 then 0x04 else 0)

/-- The maximal runs of bytes that are to be written: offset and bytes. -/
def writtenRuns : List (Nat × Except Nat Byte) → List (Nat × List Byte)
  | [] => []
  | (_, .error _) :: rest => writtenRuns rest
  | (o, .ok b) :: rest => match writtenRuns rest with
    | (o', l) :: more => if o + 1 = o' then (o, b :: l) :: more else (o, [b]) :: (o', l) :: more
    | [] => [(o, [b])]

/-- A copy in hand: the state, the offsets that went wrong, and the writes to other nodes. -/
abbrev Copying := State × List (Nat × Nat) × List (Nat × Nat)

/-- Write runs of a granule whose first destination offset `o` lies at physical address `pa`. -/
def Copying.put (i : Issuer) (w : Owner) (o pa : Nat) (x : Copying) (run : Nat × List Byte) : Copying :=
  let at' := pa + (run.1 - o)
  let (st, s) := x.1.enginePut i w at' run.2
  (s, if st = 0 then x.2.1 else x.2.1 ++ [(run.1, st)], if s.dev.own pa then x.2.2 else x.2.2 ++ [(at', run.1)])

/-- One destination granule of a copy (R173, R175): a source or destination that faults leaves it unwritten, a poisoned source
writes it poisoned, a malformed segment leaves its own bytes unwritten. Poison is not written to another node. -/
def Copying.granule (i : Issuer) (w : Owner) (dst : Word) (x : Copying) (g : Nat × List (Nat × Except Nat Byte)) : Copying :=
  let fails := fun (p : Nat → Bool) => firstSome (fun (c : Nat × Except Nat Byte) => match c.2 with
    | .error st => if p st then some (c.1, st) else none
    | .ok _ => none) g.2
  let x : Copying := (x.1.mapDev (fun d => d.engineWalk i ((dst.toNat + g.1) % 2 ^ 64)), x.2)
  match x.1.dev.engineAddr i ((dst.toNat + g.1) % 2 ^ 64) .write with
  | .error st => (x.1, x.2.1 ++ [(g.1, st)], x.2.2)
  | .ok pa =>
    match fails (fun st => st != 1 && st != 6), fails (· == 1), fails (· == 6) with
    | some (_, st), _, _ => (x.1, x.2.1 ++ [(g.1, st)], x.2.2)
    | none, some _, _ =>
      if x.1.dev.own pa then
        let filled := g.2.map (fun c => match c.2 with
          | .error 1 => (c.1, Except.ok (0 : Byte))
          | _ => c)
        let y := (writtenRuns filled).foldl (Copying.put i w g.1 pa) x
        (y.1.mapDev (fun d => d.addPoison (offsetOf pa / 64)), y.2.1 ++ [(g.1, 1)], y.2.2)
      else (x.1, x.2.1 ++ [(g.1, 1)], x.2.2)
    | none, none, bad =>
      let y := (writtenRuns g.2).foldl (Copying.put i w g.1 pa) x
      match bad with
      | some (o, st) => (y.1, y.2.1 ++ [(o, st)], y.2.2)
      | none => y

/-- The writes of a copy once all of its source that can be read has been: in ascending order when the destination lies below the source,
else in descending order (R173). -/
def State.copyWrites (s : State) (w : Owner) (j : CopyJob) (src : Nat → Except Nat Byte) : Copying :=
  let b := j.block
  let gs := granules b.dst.toNat b.dstBytes
  (if b.dst < b.src then gs else gs.reverse).foldl (fun x g =>
    Copying.granule j.issuer w b.dst x (g.1, (List.range g.2).map (fun k => (g.1 + k, b.image src (g.1 + k))))) (s, [], [])

/-- STATUS, FIRSTBAD and NBAD (R172). -/
def CopyJob.outcome (j : CopyJob) : Nat × Nat × Nat :=
  match j.bad with
  | [] => (0, 0, 0)
  | x :: rest =>
    let m := rest.foldl (fun a b => if b.1 < a.1 then b else a) x
    (m.2, m.1, (distinct (j.bad.map (fun y => (j.block.dst.toNat + y.1) / 64))).length)

/-- A completion record of a copy (R172). -/
def CopyJob.record32 (j : CopyJob) : List Byte :=
  let (st, first, n) := j.outcome
  leBytes 4 j.id.toNat ++ leBytes 1 j.chan ++ leBytes 1 st ++ zeros 2 ++ leBytes 8 first ++ leBytes 8 n ++ zeros 8

/-- Change or remove the copy at a place of a course. -/
def State.setCopy (s : State) (c i : Nat) (j : Option CopyJob) : State :=
  s.mapDev (fun d =>
    let x := d.course c
    d.setCourse c { x with copies := match j with
      | some j => x.copies.set i j
      | none => removeAt i x.copies })

/-- A copy is done: its reports are made, it leaves the engine, and DONE may pass its identifier (R172, R238). -/
def State.finishCopy (s : State) (c i : Nat) (j : CopyJob) (recordStatus : Nat) : State :=
  let (st, _, _) := j.outcome
  let tell := fun (st : Nat) (s : State) => if st = 0 then s else s.deliver j.uid j.launch (report 0x01 st j.chan j.id.toNat)
  (((tell recordStatus (tell st s)).setCopy c i none)).completeId j.uid j.chan j.id

/-- A copy's bytes are written: its record follows, if it names one (R172). -/
def State.recordCopy (s : State) (c i : Nat) (j : CopyJob) : State :=
  if j.block.record = 0 then s.finishCopy c i j 0
  else
    let w := Owner.copy c j.key
    let (st, s) := s.engineWrite j.issuer w j.block.record.toNat j.record32
    if st = 0 ∧ s.dev.awaits w then s.setCopy c i (some { j with stage := 2, landed := [] })
    else s.finishCopy c i j st

/-- A copy's writes to other nodes have been acknowledged: those that failed were not written. -/
def CopyJob.acknowledged (j : CopyJob) : CopyJob :=
  let bad := j.landed.filterMap (fun x => match x with
    | .failed pa st => (lookupKey pa j.sent).map (fun o => (o, if st = 1 then 3 else if st = 2 then 1 else 4))
    | _ => none)
  { j with bad := j.bad ++ bad, landed := [], sent := [] }

/-- A copy command runs (R170): it reads its whole source, then writes, so an overlapping copy leaves the source's bytes as they
were (R173). It goes on at later events while other nodes owe it data or acknowledgements. -/
def execCopyComplete (course i : Nat) (s : State) : Host.Outcome State Fault Refusal :=
  match (s.dev.course course).copies[i]? with
  | none => .next s
  | some j =>
    let w := Owner.copy course j.key
    let b := j.block
    if s.dev.awaits w then .next s
    else if j.stage = 0 then
      if b.refused then
        .next (s.recordCopy course i { j with bad := (granules b.dst.toNat b.dstBytes).map (fun g => (g.1, 3)) })
      else
        let s := s.mapDev (fun d => d.engineMeet j.issuer (rangeOf b.src b.srcBytes))
        let seen := (rangeOf b.src b.srcBytes).map (s.dev.engineSee j.issuer j.landed)
        let need := needed seen
        if !need.isEmpty then .next (s.engineNeeds j.issuer w need)
        else
          let bytes := seen.map known
          let (s1, bad, sent) := s.copyWrites w j (fun o => bytes.getD o (.error 3))
          let j := { j with bad := bad, sent := sent, landed := [] }
          if s1.dev.awaits w then .next (s1.setCopy course i (some { j with stage := 1 }))
          else .next (s1.recordCopy course i j)
    else if j.stage = 1 then .next (s.recordCopy course i j.acknowledged)
    else .next (s.finishCopy course i j (writeStatus j.landed))

/-! ### Multicasts (R177, R178) -/

/-- A multicast lands in a buffer of its receiver, and for a saved one in its spill area. It completes when it has landed at every receiver, and the group of a sender that has
ended dissolves after its last. -/
def execMcastLand (course i : Nat) (s : State) : Host.Outcome State Fault Refusal :=
  let x := s.dev.course course
  match x.mcasts[i]? with
  | none => .next s
  | some m =>
    let rest := removeAt i x.mcasts
    let member := s.dev.groups.any (fun g => g.sender == m.sender && g.receiver == m.receiver && g.stream == m.stream)
    let land := fun (h : Hart) =>
      if member then { h with
        landing := removeFirst (fun x => x.1 == m.stream) h.landing
        buffers := h.buffers ++ [(m.stream, { m.buf with phys := (lookupKey m.stream h.landing).getD [] })] }
      else { h with unbound := h.unbound.map (fun u =>
        if u.member.sender = m.sender ∧ u.member.stream = m.stream then { u with buffers := u.buffers ++ [m.buf] } else u) }
    let s1 := s.mapDev (fun d => d.setCourse course { x with mcasts := rest })
    let s2 := s1.mapUid m.receiver land
    let s3 := if rest.any (fun y => y.sender == m.sender && y.chan == m.chan && y.id == m.id) then s2
      else s2.completeId m.sender m.chan m.id
    .next ((s3.spillSaved m.receiver).dissolve m.sender)

/-! ### Merge sessions (R179 to R183) -/

def MergeMsg.issuer (m : MergeMsg) : Issuer := ⟨m.brick, m.ctx, m.vmid, m.launch⟩

/-- Whether two commands may come in either order: pushes of two harts of one brick (R180). -/
def MergeMsg.interleaves (m y : MergeMsg) : Bool :=
  let push := fun (m : MergeMsg) => match m.cmd with
    | .push _ => true
    | _ => false
  push m && push y && m.brick == y.brick && m.uid != y.uid

/-- Whether the engine may take a command up (R180, R367, R372): the earlier ones, in the order in which their strips closed, are done, and no
other is in hand. -/
def Course.mayTake (x : Course) (i : Nat) : Bool :=
  match x.merges[i]? with
  | none => false
  | some m => (x.merges.take i).all m.interleaves && !((removeAt i x.merges).any (fun y => y.stage != 0))

/-- Change or remove the merge command at a place of a course; what had come back for it is used up. -/
def State.setMerge (s : State) (c i : Nat) (m : Option MergeMsg) : State :=
  s.mapDev (fun d =>
    let x := d.course c
    d.setCourse c { x with mergeLanded := [], merges := match m with
      | some m => x.merges.set i m
      | none => removeAt i x.merges })

/-- Change a course's session. -/
def State.setSession (s : State) (c : Nat) (k : Option Session) : State :=
  s.mapDev (fun d => d.setCourse c { d.course c with session := k })

/-- A report of the merge engine to the hart of a command (R238). -/
def State.mergeReport (s : State) (m : MergeMsg) (st : Nat) : State :=
  if st = 0 then s else s.deliver m.uid m.launch (report 0x02 st 0 0)

/-- The session of a command's launch. -/
def Course.sessionOf (x : Course) (m : MergeMsg) : Option Session := x.session.filter (fun k => k.launch == m.launch)

/-- Entries refused for lack of room (R183). -/
def Session.refused (k : Session) : Nat := k.arrivals.toList.sum - k.accepted - k.outOfRange

/-- What the four merge commands share of their block and record: RECORD and FN (R368, R369). -/
def MergeMsg.recordFn (m : MergeMsg) : Nat × Nat :=
  match m.cmd with
  | .openSession r _ _ _ _ _ => (r.toNat, 0)
  | .push _ => (0, 1)
  | .fin r _ _ _ _ => (r.toNat, 2)
  | .stat r _ => (r.toNat, 3)

/-- A merge record (R369). -/
def MergeMsg.record32 (m : MergeMsg) : List Byte :=
  leBytes 4 m.id.toNat ++ leBytes 1 m.chan ++ leBytes 1 m.status ++ leBytes 1 m.recordFn.2 ++ zeros 1 ++ leBytes 8 m.keys ++
  leBytes 8 m.refused ++ zeros 8

/-- A merge command is done: its reports are made, the flags of an mgfin that ended with STATUS 0x00 are merged (R182), and DONE may
pass its identifier (R369). -/
def State.finishMerge (s : State) (c i : Nat) (m : MergeMsg) (recordStatus : Nat) : State :=
  let s := s.mergeReport m (if 1 ≤ m.status ∧ m.status ≤ 4 then m.status else 0)
  let s := s.mergeReport m recordStatus
  let s := if m.status = 0 then s.mapUid m.uid (fun h => { h with fstat := h.fstat ||| m.flags }) else s
  (s.setMerge c i none).completeId m.uid m.chan m.id

/-- A merge command's effect is over: its record follows, if it names one. -/
def State.recordMerge (s : State) (c i : Nat) (m : MergeMsg) : State :=
  if m.recordFn.1 = 0 then s.finishMerge c i m 0
  else
    let w := Owner.merge c
    let (st, s) := s.engineWrite m.issuer w m.recordFn.1 m.record32
    if st = 0 ∧ s.dev.awaits w then s.setMerge c i (some { m with stage := 2 })
    else s.finishMerge c i m st

/-- A merge command at the engine: nothing happens while another comes first or other nodes owe it acknowledgements or data; one that
awaits its record's write ends, and `f` says what another does. -/
def State.onMerge (s : State) (c i : Nat) (f : MergeMsg → State) : State :=
  let x := s.dev.course c
  match x.merges[i]? with
  | none => s
  | some m =>
    if !(x.mayTake i) || s.dev.awaits (.merge c) then s
    else if m.stage = 2 then s.finishMerge c i m (writeStatus x.mergeLanded)
    else f m

/-- An mgopen (R179, R370). A command without a session of its launch leaves 0 as its REFUSED (DESIGN CHOICE, log 110). -/
def execMergeOpenCommand (course i : Nat) (s : State) : Host.Outcome State Fault Refusal :=
  .next (s.onMerge course i fun m =>
    match m.cmd with
    | .openSession _ fp64 spill bytes limit rows =>
      (match (s.dev.course course).session with
       | some k => s.recordMerge course i (if k.launch = m.launch then { m with status := 0x09, refused := k.refused }
           else { m with status := 0x08 })
       | none => (s.setSession course (some { launch := m.launch, fp64 := fp64, limit := limit, rows := rows, spill := spill
                                              spillBytes := bytes })).recordMerge course i m)
    | _ => s)

/-- The order of entries in a run: by key, then stream, then arrival (R181). -/
def MergeEntry.before (a b : MergeEntry) : Bool :=
  a.key < b.key || (a.key == b.key && (a.stream < b.stream || (a.stream == b.stream && a.arrival ≤ b.arrival)))

/-- The size of a run of `n` entries (R181). -/
def runBytes (n : Nat) : Nat := (64 + 16 * n + divUp n 2 + 63) / 64 * 64

/-- A run as it lies in memory (R181). -/
def Session.run (k : Session) : List Byte :=
  let es := sortBy MergeEntry.before k.resident
  let n := es.length
  let key := fun (j : Nat) => ((es[j]?).map (·.key)).getD 0
  let tag := fun (j : Nat) => ((es[j]?).map (·.stream)).getD 0
  padTo (runBytes n) (leBytes 4 0x4D52554E ++ leBytes 2 k.runs.length ++ leBytes 1 k.fp64.toNat ++ zeros 1 ++ leBytes 8 n ++
    leBytes 8 (runBytes n) ++ leBytes 8 (key 0) ++ leBytes 8 (key (n - 1)) ++ zeros 24 ++
    es.flatMap (fun e => leBytes 8 e.key ++ leBytes 8 e.val) ++
    (List.range (divUp n 2)).flatMap (fun b => leBytes 1 (tag (2 * b) + 16 * tag (2 * b + 1))))

/-- An entry comes in: its stream's next arrival number is used (R180). -/
def Session.arrive (k : Session) (stream : Nat) : Session :=
  { k with arrivals := k.arrivals.setIfInBounds stream (k.arrivals.getD stream 0 + 1) }

/-- Accept an entry. -/
def Session.accept (k : Session) (e : Nat × Nat) (stream : Nat) : Session :=
  let n := k.arrivals.getD stream 0
  { k.arrive stream with
    accepted := k.accepted + 1
    resident := k.resident ++ [{ key := e.1, val := if k.fp64 then e.2 else e.2 % 2 ^ 32, stream := stream, arrival := n }] }

/-- Refuse an entry for lack of room (R183). -/
def Session.refuse (k : Session) (stream : Nat) : Session :=
  let n := k.arrivals.getD stream 0
  let first := if (k.firstRefused.getD stream none).isNone then k.firstRefused.setIfInBounds stream (some n) else k.firstRefused
  { k.arrive stream with full := true, firstRefused := first }

/-- An entry of an mgpush has met its fate: the command goes on with the next, or is done. -/
def State.nextEntry (s : State) (c i : Nat) (m : MergeMsg) (entries : List (Nat × Nat)) : State :=
  if entries.length ≤ m.pos + 1 then s.setMerge c i none
  else s.setMerge c i (some { m with pos := m.pos + 1, stage := 0 })

/-- Refuse the entry in hand; the first refusal of a session is reported (R238). -/
def State.refuseEntry (s : State) (c i : Nat) (m : MergeMsg) (k : Session) (entries : List (Nat × Nat)) : State :=
  let s := if k.refused = 0 then s.mergeReport m 0x07 else s
  (s.setSession c (some (k.refuse (m.brick % 16)))).nextEntry c i m entries

/-- A spill has been written: the set is empty and the entry in hand is accepted; or its write failed, and every later entry is refused
(R181, R371). -/
def State.spilled (s : State) (c i : Nat) (m : MergeMsg) (k : Session) (e : Nat × Nat) (entries : List (Nat × Nat)) (st : Nat) :
    State :=
  if st = 0 then
    let n := k.resident.length
    let k := { k with runs := k.runs ++ [(k.used, n)], used := k.used + runBytes n, resident := [] }
    (s.setSession c (some (k.accept e (m.brick % 16)))).nextEntry c i m entries
  else (s.mergeReport m st).refuseEntry c i m { k with full := true } entries

/-- One pushed entry arrives (R180, R181, R183, R371). -/
def execMergeEntryArrival (course i : Nat) (s : State) : Host.Outcome State Fault Refusal :=
  .next (s.onMerge course i fun m =>
    match m.cmd with
    | .push entries =>
      (match entries[m.pos]?, (s.dev.course course).sessionOf m with
       | none, some _ => s.setMerge course i none
       | _, none => (s.mergeReport m 0x03).setMerge course i none
       | some e, some k =>
         if m.stage = 1 then s.spilled course i m k e entries (writeStatus (s.dev.course course).mergeLanded)
         else if k.rows ≤ e.1 / 2 ^ 32 then
           let k := k.arrive (m.brick % 16)
           (s.setSession course (some { k with outOfRange := k.outOfRange + 1 })).nextEntry course i m entries
         else if k.full then s.refuseEntry course i m k entries
         else if k.resident.length < k.limit then
           (s.setSession course (some (k.accept e (m.brick % 16)))).nextEntry course i m entries
         else if 64 ≤ k.runs.length ∨ k.spillBytes < k.used + runBytes k.resident.length then
           s.refuseEntry course i m k entries
         else
           let w := Owner.merge course
           let (st, s1) := s.engineWrite m.issuer w (k.spill.toNat + k.used) k.run
           if st = 0 ∧ s1.dev.awaits w then s1.setMerge course i (some { m with stage := 1 })
           else s1.spilled course i m k e entries st)
    | _ => s)

/-- The entries of a run as they are read back: `l` holds its bytes. -/
def runEntries (fp64 : Bool) (n : Nat) (l : List Byte) : List MergeEntry :=
  (List.range n).map (fun j =>
    { key := leAt l (64 + 16 * j) 8, val := leAt l (64 + 16 * j + 8) (if fp64 then 8 else 4)
      stream := field (leAt l (64 + 16 * n + j / 2) 1) (4 * (j % 2)) 4, arrival := 0 })

/-- The sums of entries in the order of R182, by key, with their flags: `acc` is the key and sum in hand. -/
def mergeSums (fp64 : Bool) : List MergeEntry → Option (Nat × Nat) → List (Nat × Nat) × BitVec 5
  | [], none => ([], 0)
  | [], some x => ([x], 0)
  | e :: rest, none => mergeSums fp64 rest (some (e.key, e.val))
  | e :: rest, some (key, sum) =>
    if e.key = key then
      let (v, f) := fpAdd (if fp64 then .fp64 else .fp32) 0 sum e.val
      let (l, g) := mergeSums fp64 rest (some (key, v))
      (l, f ||| g)
    else
      let (l, g) := mergeSums fp64 rest (some (e.key, e.val))
      ((key, sum) :: l, g)

/-- What a session emits: its entries by key, then by stream, then lower run first and the resident set last (R182). -/
def Session.sums (k : Session) (runs : List (List MergeEntry)) : List (Nat × Nat) × BitVec 5 :=
  let order := fun (a b : MergeEntry) => a.key < b.key || (a.key == b.key && a.stream ≤ b.stream)
  mergeSums k.fp64 (sortBy order (runs.flatten ++ k.resident)) none

/-- How many keys have a row below each row up to `rows` (R182). -/
def rowCounts (rows : Nat) (keys : List Nat) : List Nat :=
  (List.range (rows + 1)).map (fun r => (keys.filter (fun x => x / 2 ^ 32 < r)).length)

/-- The session closes when an mgfin has written everything (R372). -/
def State.closeSession (s : State) (c i : Nat) (m : MergeMsg) : State :=
  (if m.status = 0 then s.setSession c none else s).recordMerge c i m

/-- An mgfin (R182, R369, R372). -/
def execMergeFinCommand (course i : Nat) (s : State) : Host.Outcome State Fault Refusal :=
  .next (s.onMerge course i fun m =>
    let x := s.dev.course course
    match m.cmd with
    | .fin _ rowptr col val cap =>
      (match x.sessionOf m with
       | none => s.recordMerge course i { m with status := 0x0A }
       | some k =>
         let m := { m with refused := k.refused }
         if m.stage = 1 then s.closeSession course i { m with status := writeStatus x.mergeLanded }
         else if k.fp64 && val.toNat % 8 != 0 then s.recordMerge course i { m with status := 0x0C }
         else
           let s := s.mapDev (fun d => d.engineMeet m.issuer (k.runs.flatMap (fun r => rangeOf (k.spill + BitVec.ofNat 64 r.1) (runBytes r.2))))
           let seen := k.runs.map (fun r => (r.2, (rangeOf (k.spill + BitVec.ofNat 64 r.1) (runBytes r.2)).map
             (s.dev.engineSee m.issuer x.mergeLanded)))
           let need := needed (seen.flatMap (·.2))
           if !need.isEmpty then s.engineNeeds m.issuer (.merge course) need
           else
             match (seen.mapM (fun r => (r.2.mapM known).map (runEntries k.fp64 r.1)) : Except Nat (List (List MergeEntry))) with
             | .error st => s.recordMerge course i { m with status := st }
             | .ok runs =>
               let (out, flags) := k.sums runs
               let m := { m with keys := out.length, flags := flags }
               if cap < out.length then s.recordMerge course i { m with status := 0x0B }
               else
                 let w := Owner.merge course
                 let arrays := [(rowptr, (rowCounts k.rows (out.map (·.1))).flatMap (leBytes 4)),
                   (col, out.flatMap (fun y => leBytes 4 y.1)), (val, out.flatMap (fun y => leBytes (if k.fp64 then 8 else 4) y.2))]
                 let (st, s1) := arrays.foldl (fun (acc : Nat × State) a =>
                   if acc.1 ≠ 0 then acc else acc.2.engineWrite m.issuer w a.1.toNat a.2) (0, s)
                 if st = 0 ∧ s1.dev.awaits w then s1.setMerge course i (some { m with stage := 1 })
                 else s1.closeSession course i { m with status := st })
    | _ => s)

/-- The 128 bytes of mgstat (R373). -/
def Session.image (k : Session) : List Byte :=
  leBytes 4 k.resident.length ++ leBytes 1 k.runs.length ++ leBytes 1 k.fp64.toNat ++ zeros 2 ++ leBytes 8 k.used ++
  leBytes 8 k.outOfRange ++ leBytes 8 k.refused ++ leBytes 8 k.accepted ++ zeros 24 ++
  k.firstRefused.toList.flatMap (fun f => leBytes 4 (f.getD 0xFFFFFFFF))

/-- An mgstat (R369, R373). -/
def execMergeStatCommand (course i : Nat) (s : State) : Host.Outcome State Fault Refusal :=
  .next (s.onMerge course i fun m =>
    let x := s.dev.course course
    match m.cmd with
    | .stat _ out =>
      (match x.sessionOf m with
       | none => s.recordMerge course i { m with status := 0x0A }
       | some k =>
         let m := { m with refused := k.refused }
         if m.stage = 1 then s.recordMerge course i { m with status := writeStatus x.mergeLanded }
         else
           let w := Owner.merge course
           let (st, s1) := s.engineWrite m.issuer w out.toNat k.image
           if st = 0 ∧ s1.dev.awaits w then s1.setMerge course i (some { m with stage := 1 })
           else s1.recordMerge course i { m with status := st })
    | _ => s)

/-! ### Stream fetches (R168) -/

/-- The first unfetched element of a stream within 4 KiB of the consuming reads. -/
def Hart.fetchNext (h : Hart) (n : Nat) (t : Stream) : Option Nat :=
  let ahead := 4096 / 2 ^ t.desc.ew
  let have' := fun (l : List (Nat × Nat × Fetched)) (q : Nat) => l.any (fun f => f.1 == n && f.2.1 == q)
  (List.range (min ahead t.left)).map (t.pos + ·) |>.find? (fun q => !(have' h.fetched q) && !(have' h.fetching q))

/-- The stream engine fetches an element: it is read at once from this device, and in pieces from another node. The element of a stream
is read as the hart's own loads read, with what earlier strips hold (R191). -/
def State.streamStep (s : State) (n : Nat) (t : Stream) (q : Nat) : State :=
  let mine := s.hart.streamLanded.filterMap (fun x => if x.1 = n ∧ x.2.1 = q then some x.2.2 else none)
  match ({ s with hart := { s.hart with landed := mine } } : State).fetchElem t q with
  | .ok (f, s1) =>
    s1.mapHart (fun h => { h with
      landed := s.hart.landed, fetching := h.fetching ++ [(n, q, f)]
      streamLanded := h.streamLanded.filter (fun x => !(x.1 == n && x.2.1 == q)) })
  | .error (.wait _ need) =>
    s.engineNeeds ⟨s.hart.brick, s.hart.ctx, s.hart.vmid, s.hart.launch⟩ (.stream s.hart.uid n q) need
  | .error (.hold need _) =>
    s.engineNeeds ⟨s.hart.brick, s.hart.ctx, s.hart.vmid, s.hart.launch⟩ (.stream s.hart.uid n q) need
  | .error (.trap _) => s

/-- A fetch runs at any time from the binding on, but for a changeover, in which the stream engine pauses (R136). -/
def execStreamFetch (b n sn : Nat) (s : State) : Host.Outcome State Fault Refusal :=
  .next (s.withHart b n fun s =>
    match s.hart.r.streams.getD sn none with
    | none => s
    | some t =>
      if s.hart.run ≠ .running ∨ t.desc.mode ≠ 0 ∨ s.brick.change.isSome then s
      else match s.hart.fetchNext sn t with
        | some q => s.streamStep sn t q
        | none => s)

/-- The oldest fetch of a stream arrives in the engine's buffers. -/
def execStreamFetchComplete (b n sn : Nat) (s : State) : Host.Outcome State Fault Refusal :=
  .next (s.withHart b n fun s =>
    match s.hart.fetching.find? (fun f => f.1 == sn) with
    | none => s
    | some f => s.mapHart (fun h => { h with fetching := removeFirst (fun x => x == f) h.fetching, fetched := h.fetched ++ [f] }))

end Sys2Proof.Machine
end

