-- ==== Sys2Proof/Machine/Management.lean ====
section
/-! DEFINITION. The GMC: management messages (R21), firmware, start-up and attestation (R34 to R39), precision time (R29 to R31),
throttle notices and thermal control (R32, R144, R145), and energy (R147). -/

namespace Sys2Proof.Machine

/-! ### Units (R34, R35) -/

/-- Starts of one wythe: 272 of courses and bricks, 16 of channel pairs, 8 of ports. -/
def startsPerWythe : Nat := 296

/-- The place of a unit in the start order (R34). -/
def unitPlace : UnitId → Nat
  | .course c => startsPerWythe * (c / 16) + 17 * (c % 16)
  | .brick b => startsPerWythe * (b / 256) + 17 * (b / 16 % 16) + 1 + b % 16
  | .chan c => startsPerWythe * (c / 32) + 272 + c % 32 / 2
  | .port p => startsPerWythe * (p / 8) + 288 + p % 8

/-- The port that a start starts, if it is one. -/
def portAt (k : Nat) : Option Nat := if 288 ≤ k % startsPerWythe then some (8 * (k / startsPerWythe) + k % startsPerWythe - 288) else none

def Device.isReady (d : Device) : UnitId → Bool
  | .course c => d.gmc.readyCourse.getLsbD c
  | .brick b => d.gmc.readyBrick.getLsbD b
  | .chan c => d.gmc.readyChan.getLsbD c
  | .port p => (d.port p).ready

def Device.hasFailed (d : Device) : UnitId → Bool
  | .course c => d.gmc.failCourse.getLsbD c
  | .brick b => d.gmc.failBrick.getLsbD b
  | .chan c => d.gmc.failChan.getLsbD c
  | .port p => (d.port p).fail

/-- A bit set. -/
def setBit {n : Nat} (v : BitVec n) (i : Nat) : BitVec n := v ||| BitVec.ofNat n (2 ^ i)

/-- Every unit of a wythe. -/
def wytheUnits (w : Nat) : List UnitId :=
  (List.range 16).map (fun i => .course (16 * w + i)) ++ (List.range 256).map (fun i => .brick (256 * w + i)) ++
  (List.range 32).map (fun i => .chan (32 * w + i)) ++ (List.range 8).map (fun i => .port (8 * w + i))

/-- MEM: every populated channel is ready. -/
def Device.memReady (d : Device) : Bool := (List.range Config.channels).all (fun c => d.gmc.readyChan.getLsbD c)

/-- READYSUM (R35). -/
def Device.readySum (d : Device) : Nat :=
  (if d.gmc.verified then 2 ^ 27 else 0) + (if d.time.counting then 2 ^ 26 else 0) + (if d.time.locked then 2 ^ 25 else 0) +
  (if d.memReady then 2 ^ 24 else 0) +
  (List.range 4).foldl (fun n w => n + (if (wytheUnits w).all d.isReady then 2 ^ (20 + w) else 0) +
    (if (wytheUnits w).any d.hasFailed then 2 ^ (16 + w) else 0)) 0 +
  (if d.gmc.schedRunning then 2 ^ 15 else 0)

/-! ### Reset and start-up (R34, R36 to R38) -/

/-- Device reset: everything but memory, the fuses, the node number and the cables is as after reset, and the images are verified. Both
signatures of both must verify, and no version may be below the fused minimum. -/
def execReset (s : State) : Host.Outcome State Fault Refusal :=
  let (n, s) := s.draw
  let d := s.dev
  let ok := Config.imagesVerify n && decide (d.gmc.minGmc ≤ Config.gmcVersion n % 65536) && decide (d.gmc.minSched ≤ Config.schedVersion n % 65536)
  let g : Gmc := { minGmc := d.gmc.minGmc, minSched := d.gmc.minSched, image := n, verified := ok, recovery := !ok, schedRunning := ok }
  .next { hart := {}
          dev := { agenda := d.agenda, fresh := d.fresh, uids := d.uids, node := d.node, mem := d.mem, poison := d.poison
                   latent := d.latent, gmc := g, cabling := d.cabling, gddr := d.gddr, wire := d.wire } }

/-- Whether a start starts a brick. -/
def startsBrick (k : Nat) : Bool := k % startsPerWythe < 272 && k % startsPerWythe % 17 != 0

/-- The next start from a place in the order on: recovery mode passes bricks over (R37). The first argument bounds the search. -/
def Gmc.nextStart (g : Gmc) : Nat → Nat → Nat
  | 0, k => k
  | n + 1, k => if g.recovery && startsBrick k then g.nextStart n (k + 1) else k

/-- The GMC starts the next unit, once it has verified the images or refused one (R37); a port begins to train. -/
def execUnitStart (s : State) : Host.Outcome State Fault Refusal :=
  let k := s.dev.gmc.nextStart 16 s.dev.gmc.startedUnits
  if !(s.dev.gmc.verified || s.dev.gmc.recovery) || 4 * startsPerWythe ≤ k then .next s
  else
    let s := s.mapDev (fun d => { d with gmc := { d.gmc with startedUnits := k + 1 } })
    match portAt k with
    | some p => .next (s.mapDev (fun d => d.setPort p { d.port p with training := true }))
    | none => .next s

/-- Whether recovery mode leaves a unit unstarted: no brick is started (R37). -/
def Gmc.leaves (g : Gmc) : UnitId → Bool
  | .brick _ => g.recovery
  | _ => false

/-- A unit that has started and neither failed nor become ready. A port becomes ready when its training succeeds (R23). -/
def Device.starting (d : Device) (u : UnitId) : Bool :=
  unitPlace u < d.gmc.startedUnits && !(d.isReady u) && !(d.hasFailed u) && !(d.gmc.leaves u) &&
  (match u with
   | .port p => (d.port p).training && (d.port p).fails < 5
   | _ => true)

/-- Training succeeds: sequence numbers and credits start afresh, and the receive buffer is returned (R22, R23, R25). -/
def Device.trained (d : Device) (p : Nat) : Device :=
  (d.setPort p { d.port p with
    ready := true, training := false, fails := 0, seq := 0, ackIn := 255, replay := [], resends := 0
    credit := [0, 0, 0, 0], owed := receiveBuffer, owesAck := false }).payDebts p

/-- A unit sets its ready bit when it is usable (R34). -/
def execUnitReady (u : UnitId) (s : State) : Host.Outcome State Fault Refusal :=
  if !(s.dev.starting u) then .next s
  else .next (s.mapDev (fun d => match u with
    | .course c => { d with gmc := { d.gmc with readyCourse := setBit d.gmc.readyCourse c } }
    | .brick b => { d with gmc := { d.gmc with readyBrick := setBit d.gmc.readyBrick b } }
    | .chan c => { d with gmc := { d.gmc with readyChan := setBit d.gmc.readyChan c } }
    | .port p => d.trained p))

/-- A unit that fails its self-test sets its FAIL bit and never its READY bit (R36). -/
def execUnitSelfTestFail (u : UnitId) (s : State) : Host.Outcome State Fault Refusal :=
  if !(s.dev.starting u) then .next s
  else .next (s.mapDev (fun d => match u with
    | .course c => { d with gmc := { d.gmc with failCourse := setBit d.gmc.failCourse c } }
    | .brick b => { d with gmc := { d.gmc with failBrick := setBit d.gmc.failBrick b } }
    | .chan c => { d with gmc := { d.gmc with failChan := setBit d.gmc.failChan c } }
    | .port p => d.setPort p { d.port p with fail := true, training := false, broken := true }))

def execPortTrainingDone (p : Nat) (s : State) : Host.Outcome State Fault Refusal :=
  let q := s.dev.port p
  if q.training && !q.ready && q.fails < 5 then .next (s.mapDev (fun d => d.trained p)) else .next s

/-! ### Management messages (R21) -/

/-- The certificate, at most 65,536 bytes. -/
def certificateBytes : List Byte := (Config.certificate 0).take 65536

/-- Ready and fail bits of the ports. -/
def portBits (d : Device) (f : Port → Bool) : Nat := (List.range 32).foldl (fun n p => n + (if f (d.port p) then 2 ^ p else 0)) 0

/-- What can be read through the management class: address and bytes. -/
def Device.managed (d : Device) : List (Nat × List Byte) :=
  [ (0x0000, leBytes 128 d.gmc.readyBrick.toNat), (0x0080, leBytes 128 d.gmc.failBrick.toNat),
    (0x0100, leBytes 8 d.gmc.readyCourse.toNat), (0x0108, leBytes 8 d.gmc.failCourse.toNat),
    (0x0110, leBytes 16 d.gmc.readyChan.toNat), (0x0120, leBytes 16 d.gmc.failChan.toNat),
    (0x0130, leBytes 4 (portBits d (·.ready))), (0x0134, leBytes 4 (portBits d (·.fail))), (0x0138, leBytes 4 d.readySum),
    (0x0140, leBytes 8 d.gddr), (0x0200, leBytes 4 d.gmc.thold), (0x0210, leBytes 1 d.time.grandmaster.toNat),
    (0x0220, leBytes 2 d.gmc.minGmc ++ leBytes 2 d.gmc.minSched), (0x0240, leBytes 8 d.gmc.corrected), (0x1000, d.gmc.group),
    (0x2000, padTo 32768 d.gmc.log.flatten), (0xFFF8, leBytes 4 certificateBytes.length), (0x10000, certificateBytes) ]

/-- A byte of the management space. -/
def managedByte (m : List (Nat × List Byte)) (a : Nat) : Option Byte :=
  firstSome (fun x => if x.1 ≤ a then x.2[a - x.1]? else none) m

/-- The data of a management message. -/
def mgmtData (f : Flit) : List Byte := (f.payload.drop 16).take (min (flitAt f 8 2) 208)

/-- The parts of a response (R21): at most 208 bytes each, in ascending order; one without data when there is none. -/
def mgmtParts : Nat → Nat → List Byte → List (Nat × List Byte)
  | 0, _, _ => []
  | k + 1, n, l => if l.length ≤ 208 then [(n, l)] else (n, l.take 208) :: mgmtParts k (n + 1) (l.drop 208)

/-- Answer a management message. -/
def State.respond (s : State) (p : Nat) (f : Flit) (status : Nat) (data : List Byte) : State :=
  (mgmtParts (data.length / 208 + 1) 0 data).foldl (fun s x =>
    s.answer p f { cls := 2, kind := 0x12, len := 15 + x.2.length
                   payload := padTo 224 (leBytes 1 (flitAt f 0 1 + 0x80) ++ leBytes 1 status ++ leBytes 2 (flitAt f 2 2) ++ leBytes 4 (flitAt f 4 4) ++
                     leBytes 2 x.2.length ++ leBytes 2 x.1 ++ leBytes 4 data.length ++ x.2) }) s

/-- A read of 1 to 65,536 bytes, each of which has an address; 0x230 can only be written. A message whose OP is none that R21 gives is
refused with STATUS 0x02 (DESIGN CHOICE, log 85). -/
def execGmcManagementRead (p : Nat) (f : Flit) (s : State) : Host.Outcome State Fault Refusal :=
  .next (s.onFlit p f fun s =>
    let a := flitAt f 4 4
    let n := flitAt f 12 4
    if flitAt f 0 1 ≠ 0x01 then some (s.respond p f 2 [])
    else if n = 0 ∨ 65536 < n ∨ a = 0x230 then some (s.respond p f 2 [])
    else match (List.range n).mapM (fun i => managedByte s.dev.managed (a + i)) with
      | some l => some (s.respond p f 0 l)
      | none => some (s.respond p f 1 []))

/-- A management write that is accepted when `ok` says so; in recovery mode only one address can be written. -/
def State.onManagedWrite (s : State) (p : Nat) (f : Flit) (ok : State → Bool) (h : State → State) : State :=
  s.onFlit p f fun s =>
    if (s.dev.gmc.recovery && flitAt f 4 4 != 0x220) || !(ok s) then some (s.respond p f 2 [])
    else some ((h s).respond p f 0 [])

/-- The value a write of `n` bytes carries to an address. -/
def carries (f : Flit) (a n : Nat) : Bool := flitAt f 4 4 == a && flitAt f 8 2 == n
def mgmtValue (f : Flit) : Nat := ofLe (mgmtData f)

/-- A write to the collective group, whose count is at most 64; a write of a part of it changes that part alone (DESIGN CHOICE, log 85).
Every other address is read-only, or is none. -/
def execGmcManagementWrite (p : Nat) (f : Flit) (s : State) : Host.Outcome State Fault Refusal :=
  let a := flitAt f 4 4
  let l := mgmtData f
  let new := fun (s : State) => splice s.dev.gmc.group (a - 0x1000) l
  if 0x1000 ≤ a ∧ a < 0x1082 then
    .next (s.onManagedWrite p f
      (fun s => decide (a + l.length ≤ 0x1082) && decide (leAt (new s) 0 2 ≤ 64))
      (fun s => s.mapDev (fun d => { d with gmc := { d.gmc with group := new s } })))
  else .next (s.onFlit p f fun s => some (s.respond p f
    (if s.dev.gmc.recovery || (managedByte s.dev.managed a).isSome then 2 else 1) []))

def execGmcWriteThold (p : Nat) (f : Flit) (s : State) : Host.Outcome State Fault Refusal :=
  .next (s.onManagedWrite p f (fun _ => carries f 0x200 4 && 100 ≤ mgmtValue f && mgmtValue f ≤ 10000)
    (fun s => s.mapDev (fun d => { d with gmc := { d.gmc with thold := mgmtValue f } })))

/-- DTIME is set once, to a time the specification does not fix, and counts from then on (R30). -/
def State.startTime (s : State) : State :=
  if s.dev.time.counting then s
  else
    let (n, s) := s.draw
    s.mapDev (fun d => { d with time := { d.time with dtime := Config.freeWord n, counting := true } })

def execGmcWriteGrandmaster (p : Nat) (f : Flit) (s : State) : Host.Outcome State Fault Refusal :=
  let on := bit (mgmtValue f) 0
  .next (s.onManagedWrite p f (fun _ => carries f 0x210 1) (fun s =>
    (if on then s.startTime else s).mapDev (fun d => { d with time := { d.time with grandmaster := on, acting := on } })))

/-- Each fused minimum rises to the value written when that is higher (R38). -/
def execGmcWriteMinSecurity (p : Nat) (f : Flit) (s : State) : Host.Outcome State Fault Refusal :=
  .next (s.onManagedWrite p f (fun _ => carries f 0x220 4) (fun s =>
    s.mapDev (fun d => { d with gmc := { d.gmc with
      minGmc := max d.gmc.minGmc (field (mgmtValue f) 0 16), minSched := max d.gmc.minSched (field (mgmtValue f) 16 16) } })))

/-- The training of a port starts again (R23); a port that is up is taken down for it. Its FAIL bit clears at once (DESIGN CHOICE,
log 86), but a port that failed its self-test is never ready again (R36). -/
def State.restartTraining (s : State) (p : Nat) : State :=
  if (s.dev.port p).broken then s
  else
  let s := if (s.dev.port p).ready then s.takeDown p else s
  s.mapDev (fun d => d.setPort p { d.port p with training := true, fail := false, fails := 0 })

/-- The answer is sent before a named port goes down. -/
def execGmcRestartTraining (p : Nat) (f : Flit) (s : State) : Host.Outcome State Fault Refusal :=
  let ok := fun (s : State) => carries f 0x230 4 && !s.dev.gmc.recovery
  let s1 := s.onManagedWrite p f ok id
  if (s.dev.port p).ready && (s.dev.arrive p f).isSome && ok s then
    .next ((setBits 32 (mgmtValue f)).foldl State.restartTraining s1)
  else .next s1

/-- The report of R39 (R21), up to its signatures. -/
def Device.reportBody (d : Device) (nonce : List Byte) : List Byte :=
  leBytes 2 16788 ++ leBytes 1 nonce.length ++ leBytes 1 0 ++ padTo 64 nonce ++ leBytes 8 d.time.dtime.toNat ++
  padTo 96 (Config.imageDigests d.gmc.image) ++ leBytes 2 (Config.gmcVersion d.gmc.image) ++ leBytes 2 (Config.schedVersion d.gmc.image) ++
  leBytes 4 d.readySum

/-- An attestation request with a nonce of 16 to 64 bytes. -/
def execAttestationRequest (p : Nat) (f : Flit) (s : State) : Host.Outcome State Fault Refusal :=
  .next (s.onFlit p f fun s =>
    let n := flitAt f 8 2
    if flitAt f 4 4 ≠ 0 ∨ n < 16 ∨ 64 < n then some (s.respond p f 2 [])
    else
      let body := s.dev.reportBody (mgmtData f)
      some (s.respond p f 0 (body ++ padTo 16608 (Config.attestationSignatures body))))

/-! ### Precision time (R29 to R31) -/

def State.mapTime (s : State) (f : TimeFn → TimeFn) : State := s.mapDev (fun d => { d with time := f d.time })

/-- Send a PTP message by a port, or by one that earlier flits of the class to the same node have yet to leave (R24). -/
def State.sendTime (s : State) (p kind : Nat) : State :=
  let (n, s) := s.draw
  let l := (Config.timeMessage kind n).take 224
  s.mapDev (fun d => d.transmit ((d.follows 3 ((lookupKey p d.cabling).getD 0)).getD p) { cls := 3, kind := kind, dst := (lookupKey p d.cabling).getD 0, len := l.length - 1, payload := padTo 224 l })

/-- Lock is gained after 16 intervals in range (R30), and lost when eight pass without a Sync or the offset leaves the range (R31). -/
def TimeFn.judge (t : TimeFn) : TimeFn :=
  if t.locked && (8 ≤ t.missed || t.outside) then { t with locked := false, inRange := 0 }
  else if t.counting && 16 ≤ t.inRange then { t with locked := true }
  else t

/-- A Sync: the first sets DTIME; each steers its rate, and the offset is then in range or not, which is free. -/
def execSync (p : Nat) (f : Flit) (s : State) : Host.Outcome State Fault Refusal :=
  .next (s.onFlit p f fun s =>
    let (n, s) := s.startTime.draw
    let near := (Config.freeWord n).getLsbD 0
    some (s.mapTime (fun t => ({ t with
      port := p, missed := 0, inRange := if near then t.inRange + 1 else 0, outside := !near } : TimeFn).judge)))

/-- A message that only steers the clock's rate, which is free. -/
def State.steer (s : State) (p : Nat) (f : Flit) : State := s.onFlit p f some

def execFollowUp (p : Nat) (f : Flit) (s : State) : Host.Outcome State Fault Refusal := .next (s.steer p f)
def execPdelayResp (p : Nat) (f : Flit) (s : State) : Host.Outcome State Fault Refusal := .next (s.steer p f)
def execPdelayRespFollowUp (p : Nat) (f : Flit) (s : State) : Host.Outcome State Fault Refusal := .next (s.steer p f)

/-- A Pdelay_Req is answered by Pdelay_Resp and Pdelay_Resp_Follow_Up. -/
def execPdelayReq (p : Nat) (f : Flit) (s : State) : Host.Outcome State Fault Refusal :=
  .next (s.onFlit p f fun s => some ((s.sendTime p 0x23).sendTime p 0x24))

/-- The best master clock algorithm chooses among candidates: a device that may serve as grandmaster does so, or does not. -/
def execAnnounce (p : Nat) (f : Flit) (s : State) : Host.Outcome State Fault Refusal :=
  .next (s.onFlit p f fun s =>
    let (n, s) := s.draw
    some (s.mapTime (fun t => { t with acting := t.grandmaster && (Config.freeWord n).getLsbD 0 })))

/-- The interval of the port where Syncs come in, or would: a grandmaster is within range of itself, and another device counts an
interval without Sync. -/
def TimeFn.interval (t : TimeFn) : TimeFn :=
  if !t.counting then t
  else if t.acting then ({ t with missed := 0, outside := false, inRange := t.inRange + 1 } : TimeFn).judge
  else ({ t with missed := t.missed + 1, inRange := if t.locked then t.inRange else 0 } : TimeFn).judge

/-- A grandmaster sends Sync and Follow_Up, and the interval is counted. -/
def execSyncInterval (p : Nat) (s : State) : Host.Outcome State Fault Refusal :=
  let s := if p = s.dev.time.port then s.mapTime TimeFn.interval else s
  if s.dev.time.acting && (s.dev.port p).ready then .next ((s.sendTime p 0x20).sendTime p 0x21) else .next s

def execPdelayInterval (p : Nat) (s : State) : Host.Outcome State Fault Refusal :=
  if (s.dev.port p).ready then .next (s.sendTime p 0x22) else .next s

def execAnnounceInterval (p : Nat) (s : State) : Host.Outcome State Fault Refusal :=
  if s.dev.time.acting && (s.dev.port p).ready then .next (s.sendTime p 0x25) else .next s

def execTimeLockGained (s : State) : Host.Outcome State Fault Refusal :=
  .next (s.mapTime TimeFn.judge)

def execTimeLockLost (s : State) : Host.Outcome State Fault Refusal :=
  .next (s.mapTime TimeFn.judge)

/-! ### Throttling (R32, R144, R145) -/

/-- The nodes of the collective group. -/
def Gmc.nodes (g : Gmc) : List Nat := (List.range (min 64 (leAt g.group 0 2))).map (fun i => leAt g.group (2 + 2 * i) 2 % 4096)

/-- Every brick's gear is computed again. -/
def State.recomputeAll (s : State) : State := (distinct (s.dev.bricks.map (·.1) ++ s.harts.map (·.brick))).foldl State.recomputeGear s

/-- A hold is in force from now to `e`, or to the later end of one that runs. -/
def State.hold (s : State) (e : Nat) : State :=
  (s.mapDev (fun d => { d with thermal := { d.thermal with hold := some (max e (d.thermal.hold.getD 0)) } })).recomputeAll

/-- A notice with an effective time and an end. -/
def State.notice (s : State) (eff e : Nat) : State :=
  let now := s.dev.time.dtime.toNat
  if s.dev.thermal.hold.isSome ∨ eff ≤ now then (if now < e then s.hold e else s)
  else s.mapDev (fun d => { d with thermal := { d.thermal with pending := d.thermal.pending ++ [(eff, e)] } })

/-- Send the throttle notice to the collective group: it is effective in 2,000 ns, for THOLD. -/
def State.sendNotice (s : State) : State :=
  let eff := s.dev.time.dtime.toNat + 2000
  let pay := leBytes 2 s.dev.node ++ zeros 6 ++ leBytes 8 eff ++ leBytes 4 s.dev.gmc.thold ++ zeros 4
  let s := s.mapDev (fun d => (d.gmc.nodes.filter (· != d.node)).foldl (fun d n =>
    (d.send { cls := 2, kind := 0x11, dst := n, len := 23, payload := padTo 224 pay }).2) d)
  (s.notice eff (eff + 1000 * s.dev.gmc.thold)).mapDev (fun d => { d with thermal := { d.thermal with mine := true } })

/-- A hold time outside 100 to 10,000 µs is discarded and counted (R21). -/
def execThrottleNotice (p : Nat) (f : Flit) (s : State) : Host.Outcome State Fault Refusal :=
  .next (s.onFlit p f fun s =>
    let us := flitAt f 16 4
    if us < 100 ∨ 10000 < us then none else some (s.notice (flitAt f 8 8) (flitAt f 8 8 + 1000 * us)))

def State.mapThermal (s : State) (f : Thermal → Thermal) : State := s.mapDev (fun d => { d with thermal := f d.thermal })

/-- 100 °C is reached. -/
def execThermalWarning (s : State) : Host.Outcome State Fault Refusal :=
  if s.dev.thermal.warm then .next s else .next (s.mapThermal (fun t => { t with warm := true })).sendNotice

/-- 105 °C is reached: nothing is dispatched or restored until recovery. -/
def execThermalLimit (s : State) : Host.Outcome State Fault Refusal :=
  if s.dev.thermal.warm then .next (s.mapThermal (fun t => { t with limit := true })) else .next s

/-- The die falls below 100 °C. -/
def execThermalRecovery (s : State) : Host.Outcome State Fault Refusal :=
  .next (s.mapThermal (fun t => { t with warm := false, limit := false }))

/-- Effective times that are reached. -/
def execThrottleHoldStart (s : State) : Host.Outcome State Fault Refusal :=
  let now := s.dev.time.dtime.toNat
  let due := s.dev.thermal.pending.filter (fun x => x.1 ≤ now)
  let s := s.mapThermal (fun t => { t with pending := t.pending.filter (fun x => !(x.1 ≤ now)) })
  .next (due.foldl (fun s x => if now < x.2 then s.hold x.2 else s) s)

/-- A hold's end is reached. A device that began it and is still at 100 °C or above sends a new notice, and the hold continues. -/
def execThrottleHoldEnd (s : State) : Host.Outcome State Fault Refusal :=
  match s.dev.thermal.hold with
  | none => .next s
  | some e =>
    if s.dev.time.dtime.toNat < e then .next s
    else if s.dev.thermal.warm && s.dev.thermal.mine then
      .next s.sendNotice
    else .next (s.mapThermal (fun t => { t with hold := none, mine := false })).recomputeAll

/-! ### Energy (R59, R147) -/

/-- Whom an interval charges, each once with its launch and tenant: the harts on the device, those saved, and those that have ended with
commands that the engines still serve. A token that stands for a saved hart is that hart. -/
def State.charged (s : State) : List (Nat × (Nat × Nat) × Nat) :=
  distinct ((s.harts ++ s.dev.saved.map (·.hart)).map (fun h => (h.uid, h.launch, h.vmid)) ++
    s.dev.courses.flatMap (fun c => c.2.copies.map (fun j => (j.uid, j.launch, j.vmid)) ++ c.2.merges.map (fun m => (m.uid, m.launch, m.vmid)) ++
      c.2.mcasts.map (fun m => (m.sender, m.launch, ((s.dev.launch m.launch).map (·.record.vmid)).getD 0))))

/-- Charge an amount to a hart, or to its launch when it has ended, and to its tenant (R59). -/
def State.chargeEnergy (s : State) (x : Nat × (Nat × Nat) × Nat) (e : Nat) : State :=
  (if (s.byUid x.1).isSome then s.mapUid x.1 (fun h => { h with energy := h.energy + BitVec.ofNat 48 e })
   else s.mapDev (fun d => d.mapLaunch x.2.1 (fun l => { l with energy := l.energy + e }))).mapTenant x.2.2 (fun t =>
    { t with energy := t.energy + BitVec.ofNat 64 e })

/-- One metering interval: each hart that is charged gets an amount of its own, and the device account another. -/
def execEnergyInterval (s : State) : Host.Outcome State Fault Refusal :=
  let s := s.charged.foldl (fun s x =>
    let (n, s) := s.draw
    s.chargeEnergy x (Config.energy n)) s
  let (n, s) := s.draw
  .next (s.mapDev (fun d => { d with devEnergy := d.devEnergy + BitVec.ofNat 64 (Config.energy n) }))

end Sys2Proof.Machine
end

