-- ==== Sys2Proof/Machine/System.lean ====
section
/-! DEFINITION. Control registers (R251, R290, R291), vector length (R292), loop indices (R293), fork and join (R294), gears and
timed waits (R295, R296), barriers (R297, R298), fences (R194, R300), and call, return, idle and exit (R301). -/

namespace Sys2Proof.Machine

/-! ### Control registers -/

/-- GEARS (R132). -/
def State.gearsWord (s : State) : Word :=
  BitVec.ofNat 64 (s.dev.thermal.hold.isSome.toNat * 128 + s.brick.gear.toNat * 16 + s.hart.gears.eff.toNat * 8 +
    s.hart.gears.auto.toNat * 2 + s.hart.gears.req.toNat)

/-- SSTAT (R167). -/
def Regs.sstat (r : Regs) : Word :=
  let bits := fun (p : Stream → Bool) => bitsOf 8 (fun n => match r.streams.getD n none with
    | some t => p t
    | none => false)
  BitVec.ofNat 64 (bits (fun _ => true) * 65536 + bits (fun t => t.desc.mode == 1) * 256 + bits (fun t => t.ended))

/-- PASSST (R236). -/
def PassSt.word (p : PassSt) : Word :=
  BitVec.ofNat 64 (p.valid.toNat * 2 ^ 31 + p.step.toNat * 65536 + p.next.toNat * 256 + p.done.toNat * 16)

/-- VTYPE (R89). -/
def VType.word (t : VType) : Word := BitVec.ofNat 64 (t.vill.toNat * 2 ^ 63 + t.low.toNat)

/-- The value of a control register (R251); none for a number that is not listed. -/
def State.csr (s : State) (n : Nat) : Option Word :=
  match n with
  | 0x00 => some (s.hart.r.vl.setWidth 64)
  | 0x01 => some s.hart.r.vtype.word
  | 0x02 => some (BitVec.ofNat 64 (s.hart.chg.toNat * 256 + s.hart.lgn.toNat))
  | 0x03 => some (BitVec.ofNat 64 (s.hart.ret.toNat * 256 + s.hart.next.toNat * 16 + s.hart.bound.toNat))
  | 0x04 => some (s.hart.fstat.setWidth 64)
  | 0x05 => some (s.hart.frm.setWidth 64)
  | 0x08 => some s.hart.fidx[0]
  | 0x09 => some s.hart.fidx[1]
  | 0x0A => some s.hart.fidx[2]
  | 0x0B => some s.hart.fidx[3]
  | 0x0C => some s.hart.fidx[4]
  | 0x10 => some s.hart.r.passst.word
  | 0x11 => some s.hart.r.sstat
  | 0x12 => some (BitVec.ofNat 64 (s.hart.r.ncl.toNat * 256 + s.hart.r.ten.toNat))
  | 0x14 => some (s.hart.r.issued[0] ++ s.hart.done[0])
  | 0x15 => some (s.hart.r.issued[1] ++ s.hart.done[1])
  | 0x16 => some (s.hart.r.issued[2] ++ s.hart.done[2])
  | 0x17 => some (s.hart.r.issued[3] ++ s.hart.done[3])
  | 0x18 => some s.hart.aerr.word
  | 0x20 => some s.dev.time.dtime
  | 0x21 => some s.gearsWord
  | 0x22 => some (s.hart.gears.lead.setWidth 64)
  | 0x23 => some (s.hart.gears.idle.setWidth 64)
  | 0x24 => some (s.hart.vskew.setWidth 64)
  | 0x25 => some (s.hart.energy.setWidth 64)
  | 0x26 => some (s.hart.reuseHit.setWidth 64)
  | 0x28 => some (s.hart.r.lidx[0].setWidth 64)
  | 0x29 => some (s.hart.r.lidx[1].setWidth 64)
  | 0x2A => some (s.hart.r.lidx[2].setWidth 64)
  | 0x2B => some (s.hart.r.lidx[3].setWidth 64)
  | 0x30 => some (BitVec.ofNat 64 s.hart.num)
  | 0x31 => some (BitVec.ofNat 64 (s.dev.node * 65536 + s.hart.brick))
  | 0x32 => some (BitVec.ofNat 64 (s.hart.vmid * 4096 + s.hart.ctx))
  | 0x38 => some (s.hart.r.slen[0].setWidth 64)
  | 0x39 => some (s.hart.r.slen[1].setWidth 64)
  | 0x3A => some (s.hart.r.slen[2].setWidth 64)
  | 0x3B => some (s.hart.r.slen[3].setWidth 64)
  | 0x3C => some (s.hart.r.slen[4].setWidth 64)
  | 0x3D => some (s.hart.r.slen[5].setWidth 64)
  | 0x3E => some (s.hart.r.slen[6].setWidth 64)
  | 0x3F => some (s.hart.r.slen[7].setWidth 64)
  | _ => none

/-- GEAR g (R134). -/
def State.doGear (s : State) (g : Bool) : State :=
  (s.mapHart (fun h => { h with gears := { h.gears with
    req := g, eff := if h.gears.auto && h.gears.drop then h.gears.eff else g } })).recomputeGear s.hart.brick

/-- GEARAUTO a (R134). -/
def State.doGearAuto (s : State) (a : Bool) : State :=
  (s.mapHart (fun h => { h with gears :=
    if a then { h.gears with auto := true } else { h.gears.restoreEff with auto := false } })).recomputeGear s.hart.brick

/-- A write that must wait for earlier vector instructions waits behind them, and takes effect now when there are none (R128,
R220). -/
def State.vectorCsr (s : State) (w : CsrWrite) (now : Hart → Hart) : State :=
  s.mapHart (fun h => if h.inflight.isEmpty && h.pendCsr.isEmpty then now h else { h with pendCsr := h.pendCsr ++ [w] })

/-- The effect of csrw, csrs and csrc (fn 1 to 3) on a register (R132, R138, R141, R204, R239, R290, R291): registers without a
writable field change nothing. -/
def State.writeCsr (s : State) (n fn : Nat) (v : Word) : State :=
  let old := (s.csr n).getD 0
  let new := csrUpdate fn old v
  match n with
  | 0x02 => if fn ≠ 3 ∧ bit v.toNat 8 then s.mapHart (fun h => { h with chg := false }) else s
  | 0x04 => s.vectorCsr (.fstat fn v) (fun h => h.writeFstat fn v)
  | 0x05 => if new.toNat % 8 ≤ 4 then s.mapHart (fun h => { h with frm := new.setWidth 3 }) else s
  | 0x08 => s.vectorCsr (.fidx 0 fn v) (fun h => h.writeFidx 0 fn v)
  | 0x09 => s.vectorCsr (.fidx 1 fn v) (fun h => h.writeFidx 1 fn v)
  | 0x0A => s.vectorCsr (.fidx 2 fn v) (fun h => h.writeFidx 2 fn v)
  | 0x0B => s.vectorCsr (.fidx 3 fn v) (fun h => h.writeFidx 3 fn v)
  | 0x0C => s.vectorCsr (.fidx 4 fn v) (fun h => h.writeFidx 4 fn v)
  | 0x18 => s.mapHart (fun h =>
      let a := { h.aerr with ate := bit new.toNat 43 }
      { h with aerr := if fn ≠ 3 ∧ bit v.toNat 45 then Aerr.refill { a with held := none } else a })
  | 0x21 => (s.doGear (bit new.toNat 0)).doGearAuto (bit new.toNat 1)
  | 0x22 => s.mapHart (fun h => { h with gears := { h.gears with lead := new.setWidth 14 } })
  | 0x23 => if 16 ≤ new.toNat % 2 ^ 24 then s.mapHart (fun h => { h with gears := { h.gears with idle := new.setWidth 24 } }) else s
  | 0x24 => s.mapHart (fun h => { h with vskew := new.setWidth 4 })
  | 0x26 => s.vectorCsr (.reuseHit fn v) (fun h => h.writeReuseHit fn v)
  | _ => s

/-- A number that is not listed is an illegal operand (R251). -/
def State.csrWrite (s : State) (a n fn : Nat) : State :=
  if (s.csr n).isNone then s.settle (.error illegalOperand) else (s.writeCsr n fn (s.x a)).advance

def execCsrr (d n : Nat) (s : State) : Host.Outcome State Fault Refusal :=
  match s.csr n with
  | some v => done ((s.setX d v).advance)
  | none => done (s.settle (.error illegalOperand))
def execCsrw (a n : Nat) (s : State) : Host.Outcome State Fault Refusal := done (s.csrWrite a n 1)
def execCsrs (a n : Nat) (s : State) : Host.Outcome State Fault Refusal := done (s.csrWrite a n 2)
def execCsrc (a n : Nat) (s : State) : Host.Outcome State Fault Refusal := done (s.csrWrite a n 3)

/-! ### Vector length (R292) -/

/-- The VTYPE that a request sets (R89): an illegal one sets VILL and nothing else. -/
def vtypeOf (t : Word) : VType :=
  if bit t.toNat 5 ∨ 3 < t.toNat % 8 ∨ 2 ^ 7 ≤ t.toNat then { vill := true, kz := false, gm := 0, sew := 0 }
  else { vill := false, kz := bit t.toNat 6, gm := BitVec.ofNat 2 (t.toNat / 8), sew := BitVec.ofNat 2 t.toNat }

/-- The VL that a request for `n` elements gets on `lgn` lane groups (R90, R292). -/
def vlOf (t : VType) (lgn n : Nat) : BitVec 14 :=
  if t.vill ∨ lgn = 0 then 0 else BitVec.ofNat 14 (min n (t.vlmax lgn))

/-- setvl and setvli with the request `t` for `xa` elements (R292). A fork child's first SETVL may have to wait (R101). -/
def State.doSetvl (s : State) (d a : Nat) (t : Word) : State :=
  if s.splitPending then s.waitFor .forkSetvl []
  else
    let new := vtypeOf t
    let layout := if new.vill then s.hart.r.vtype else new
    let changes := s.hart.next ≠ s.hart.bound
    let s0 := if changes then s.splitAndDrain else s
    if changes && !s0.hart.ended.isEmpty then s0.waitFor .memory []
    else
    let (rename, s1) := s0.applyNext layout
    let vl := vlOf new s1.hart.nlg (s.x a).toNat
    let s2 := (s1.mapRegs (fun r => { r with vl := vl, vtype := new })).setX d (vl.setWidth 64)
    let s3 := if rename then s2.nameAll vl new (fun _ => false) else s2
    let s4 := s3.retire
    s4.endStrip s4.pc

def execSetvl (d a b : Nat) (s : State) : Host.Outcome State Fault Refusal := done (s.doSetvl d a (s.x b))
def execSetvli (d a : Nat) (v : BitVec 7) (s : State) : Host.Outcome State Fault Refusal := done (s.doSetvl d a (v.setWidth 64))

/-! ### Loop indices (R293) -/

/-- The levels, highest-numbered first, that are temporal. -/
def temporalLevels (ls : Vector Level 4) : List Nat := ((List.range 4).filter (fun l => (ls.getD l {}).place == 1)).reverse

/-- Step the temporal levels of a hart (R293): none at the end. -/
def stepLevels (ls : Vector Level 4) (ix : Vector (BitVec 32) 4) : List Nat → Option (Vector (BitVec 32) 4)
  | [] => none
  | l :: rest =>
    if (ix.getD l 0).toNat + 1 < (ls.getD l {}).extent then some (ix.setIfInBounds l (ix.getD l 0 + 1))
    else stepLevels ls (ix.setIfInBounds l 0) rest

def execNexti (d : Nat) (s : State) : Host.Outcome State Fault Refusal :=
  let ls := temporalLevels s.hart.levels
  match stepLevels s.hart.levels s.hart.r.lidx ls with
  | none => done ((s.setX d allOnes64).advance)
  | some ix => done (((s.mapRegs (fun r => { r with lidx := ix })).setX d ((ix.getD (ls.headD 0) 0).setWidth 64)).advance)

/-! ### Fork, join, gears, timed waits -/

def execFork (d : Nat) (i : BitVec 16) (s : State) : Host.Outcome State Fault Refusal := done (s.doFork d (s.pc + sext i * 4))
def execJoin (x : Nat) (s : State) : Host.Outcome State Fault Refusal := done (s.doJoin x)

/-- A value other than 0 or 1 is an illegal operand (R134). -/
def execGear (g : Nat) (s : State) : Host.Outcome State Fault Refusal :=
  if 1 < g then done (s.settle (.error illegalOperand)) else done (s.doGear (g == 1)).advance
def execGearauto (g : Nat) (s : State) : Host.Outcome State Fault Refusal :=
  if 1 < g then done (s.settle (.error illegalOperand)) else done (s.doGearAuto (g == 1)).advance

/-- waitt ends when DTIME is at or after its target (R142, R296). -/
def execWaitt (a : Nat) (s : State) : Host.Outcome State Fault Refusal :=
  if (s.x a).toNat ≤ s.dev.time.dtime.toNat then done s.endWait.retire
  else done (s.waitFor (.waitt (s.x a).toNat) [])

/-! ### Barriers (R297, R298) -/

/-- Whether the hart's launch spans devices (R297). -/
def Hart.spansDevices (h : Hart) : Bool := h.levels.toList.any (fun l => l.place == 5)

def Hart.isChild (h : Hart) : Bool := match h.fork with | .child _ _ => true | _ => false

/-- Record an arrival (R298), and release the phase when it is the last. -/
def State.arriveAt (s : State) (bar scope : Nat) : State :=
  match s.dev.launch s.hart.launch with
  | none => s
  | some l =>
    let b := s.dev.barrier l bar scope s.hart.index
    let keep := s.hart.arrivals.filter (fun a => a.strip == s.hart.serial || a.bar != bar || s.unreleased a)
    let s := s.mapHart (fun h => { h with arrivals := keep ++
      [{ bar := bar, scope := scope, phase := b.phase, strip := s.hart.serial }] })
    let b := { b with arrived := s.hart.index :: b.arrived }
    (s.mapDev (fun d => d.setBarrier b)).checkBarrier l b

/-- bara (R298). After a restart of its strip an arrival stands, and the bara that made it counts nothing. -/
def execBara (a scope : Nat) (s : State) : Host.Outcome State Fault Refusal :=
  let bar := (s.x a).toNat
  if 16 ≤ bar ∨ scope < 2 ∨ 5 < scope ∨ (scope = 5 ∧ !s.hart.spansDevices) ∨ s.hart.isChild then
    done (s.settle (.error illegalOperand))
  else
    let mine := fun (x : Arrival) => x.bar == bar && x.scope == scope
    if s.hart.arrivals.any (fun x => mine x && x.again) then
      let l := replaceFirst (fun x => mine x && x.again) (fun x => { x with again := false }) s.hart.arrivals
      done (s.mapHart (fun h => { h with arrivals := l })).retire
    else if s.hart.arrivals.any (fun x => mine x && s.unreleased x) then done (s.waitFor .bara [])
    else done (s.arriveAt bar scope).retire

/-- barw (R298): the barrier is that of the hart's latest bara with the number. -/
def execBarw (a : Nat) (s : State) : Host.Outcome State Fault Refusal :=
  let bar := (s.x a).toNat
  if 16 ≤ bar ∨ s.hart.isChild then done (s.settle (.error illegalOperand))
  else match s.hart.latest bar with
    | some x => if s.unreleased x then done (s.waitFor (.barw bar) []) else done s.endWait.retire
    | none => done s.endWait.retire

/-! ### Fence (R194, R195, R241) -/

/-- Whether a fence's path set holds the path of a report (R241). -/
def fenceTakes (paths : BitVec 6) (r : Word) : Bool :=
  match reportSource r with
  | 0x01 => paths.getLsbD 3
  | 0x02 => paths.getLsbD 4
  | 0x03 => paths.getLsbD 2
  | 0x04 => paths.getLsbD 0 || paths.getLsbD 1
  | 0x05 => paths.getLsbD 5
  | _ => false

/-- Whether a fence's path set holds a path (R194). -/
def fenceNames (paths : BitVec 6) : Path → Bool
  | .s => paths.getLsbD 0
  | .v => paths.getLsbD 1
  | .q => paths.getLsbD 2
  | .c => paths.getLsbD 3
  | .m => paths.getLsbD 4
  | .a => paths.getLsbD 5

/-- Whether a hart's access to another node that is under way belongs to a named path (R184, R238): its own, or one of its stream engine. -/
def fenceAwaits (paths : BitVec 6) (uid : Nat) (o : Outstanding) : Bool :=
  match o.owner with
  | .hart u => u == uid && (if o.kind = 4 then paths.getLsbD 5 else fenceNames paths o.path)
  | .stream u _ _ => u == uid && paths.getLsbD 2
  | _ => false

/-- Whether stores of ended strips that a fence waits for are still to perform (R194, R195): on its paths, to this device or local memory, or
at system scope anywhere. Scheduled messages are handed over before a fence naming V completes (R405). -/
def State.fenceStores (s : State) (paths : BitVec 6) (scope : Nat) : Bool :=
  let slots := s.dev.slots.any (fun x => x.2.2.1 == s.hart.queue && x.2.2.2 == s.hart.seq)
  s.hart.ended.any (fun e => e.strip.stores.any (fun st =>
    fenceNames paths st.path && (scope == 5 || (st.nodes s.dev).contains none || (slots && st.path == .v))))

/-- Whether merge commands of the hart have not arrived at their engine, or an mgfin has not written (R194). -/
def State.mergesPending (s : State) : Bool :=
  s.dev.courses.any (fun c => c.2.merges.any (fun m => m.uid == s.hart.uid)) ||
  s.hart.ended.any (fun e => e.strip.cmds.any (fun c => match c with
    | .merge _ _ _ => true
    | _ => false))

/-- Whether every access that a fence waits for has performed, after its implicit split (R194, R195). -/
def State.fenceMet (s : State) (paths : BitVec 6) (scope : Nat) : Bool :=
  !(s.fenceStores paths scope) &&
  (!(paths.getLsbD 3) || (List.range 4).all (fun c => s.hart.done.getD c 0 == s.hart.r.issued.getD c 0)) &&
  (!(paths.getLsbD 4) || !s.mergesPending) &&
  (scope != 5 || (!(s.dev.outstanding.any (fenceAwaits paths s.hart.uid)) &&
    !(paths.getLsbD 1 && s.dev.slotQueue.any (fun m => m.uid == s.hart.uid))))

/-- What a fence drops: fetched, unread elements for Q, and constant-hint entries of the hart's context on its lane groups for
V (R124, R194). -/
def State.fenceDrops (s : State) (paths : BitVec 6) : State :=
  let s := if paths.getLsbD 2 then s.dropFetched (fun _ => true) else s
  if paths.getLsbD 1 then
    s.mapBrick (fun k => k.dropEntries (fun e => e.kind == .const && e.key.ctx == s.hart.ctx && e.key.vmid == s.hart.vmid &&
      e.key.lgset &&& s.hart.bound != 0))
  else s

def execFence (paths : BitVec 6) (scope : Nat) (s : State) : Host.Outcome State Fault Refusal :=
  if paths = 0 ∨ 5 < scope then done (s.settle (.error illegalOperand))
  else
    let s := s.splitAndDrain
    match s.hart.aerr.all.find? (fenceTakes paths) with
    | some r => done (s.takeTrap { cause := 0x11, kind := reportSource r, report := r })
    | none =>
      if s.fenceMet paths scope then done (s.fenceDrops paths).retire
      else done (s.waitFor .fence [])

/-! ### Call, return, idle and exit (R301) -/

/-- The code stays in the word, where the handler reads it. -/
def execSvc (_code : BitVec 11) (s : State) : Host.Outcome State Fault Refusal := done (s.takeTrap { cause := 0x10 })
def execEret (s : State) : Host.Outcome State Fault Refusal := done s.returnFromTrap

/-- Issue stops until a cause comes; the hart has passed the idle. -/
def execIdle (s : State) : Host.Outcome State Fault Refusal :=
  done ((s.waitFor (.idle s.dev.time.dtime.toNat (s.hart.done.toList ++ s.hart.r.issued.toList) s.hart.aerr.count) []).advance)

def execExit (s : State) : Host.Outcome State Fault Refusal :=
  let running := match s.hart.fork with
    | .parent _ _ => true
    | .child _ _ => true
    | _ => false
  if running then done (s.settle (.error illegalOperand))
  else done ((s.endStrip s.pc).drain.endHartOnly none)

end Sys2Proof.Machine
end

