-- ==== Sys2Proof/Machine/SaveArea.lean ====
section
/-! DEFINITION. Save areas: their bytes (R78 to R80, R169), what a failed slot leaves in them (R243), writing them to the pool and
reading them back (R81, R82, R357). -/

namespace Sys2Proof.Machine

/-! ### The strip-store-buffer field (R80, R188) -/

/-- Bytes at rising addresses as runs within one 64-byte granule. -/
def granuleRuns : List (Nat × Byte) → List (Nat × List Byte)
  | [] => []
  | (pa, b) :: rest =>
    match granuleRuns rest with
    | (q, l) :: more => if pa + 1 = q ∧ q % 64 ≠ 0 then (pa, b :: l) :: more else (pa, [b]) :: (q, l) :: more
    | [] => [(pa, [b])]

/-- Where a run of more than 56 bytes is cut: as late as it can be without splitting a store (R80). -/
def cutAt (l : List BufStore) (pa : Nat) : Nat :=
  let whole := fun c => !(l.any (fun st => st.place.contains (.phys (pa + c - 1)) && st.place.contains (.phys (pa + c))))
  ((List.range 56).map (56 - ·)).find? whole |>.getD 56

/-- The entries of the stores of one instruction: up to 56 bytes each. Stores to local memory take none (R150). -/
def entriesOf (l : List BufStore) : List (Nat × List Byte) :=
  let bytes := l.foldl (fun m st => (st.place.zip st.data).foldl (fun m x => match x.1 with
    | .phys pa => insertKey pa x.2 m
    | .loc _ => m) m) ([] : List (Nat × Byte))
  (granuleRuns bytes).flatMap (fun r => if r.2.length ≤ 56 then [r]
    else (let c := cutAt l r.1; [(r.1, r.2.take c), (r.1 + c, r.2.drop c)]))

/-- The entries of a strip in buffer order. -/
def Strip.entries (st : Strip) : List (Nat × List Byte) :=
  (List.range st.count).flatMap (fun i => entriesOf (st.stores.filter (fun b => b.ins == i)))

/-- The strips of a hart that have not closed, oldest first. -/
def Hart.openStrips (h : Hart) : List Strip := h.ended.map (·.strip) ++ [h.strip]

/-- CHECKPC: the checkpoint of the oldest open strip (R419). -/
def Hart.checkPc (h : Hart) : Word := match h.ended with
  | e :: _ => e.ckpt.pc
  | [] => h.ckpt.pc

/-- The saved entries of a hart, each with its FIRST bit. -/
def Hart.ssb (h : Hart) : List (Nat × List Byte × Bool) :=
  h.openStrips.flatMap (fun st => st.entries.zipIdx.map (fun x => (x.1.1, x.1.2, x.2 == 0)))

/-- One entry of 64 bytes. -/
def entryBytes (e : Nat × List Byte × Bool) : List Byte :=
  leBytes 8 (e.1 + (e.2.1.length - 1) * 2 ^ 52 + e.2.2.toNat * 2 ^ 58) ++ padTo 56 e.2.1

/-! ### The fields -/

/-- The control registers of R80 in order. -/
def controlSlots : List Nat :=
  [0x00, 0x01, 0x02, 0x03, 0x04, 0x08, 0x09, 0x0A, 0x0B, 0x0C, 0x05, 0x10, 0x11, 0x14, 0x15, 0x16, 0x17, 0x18, 0x21, 0x22, 0x23,
   0x24, 0x28, 0x29, 0x2A, 0x2B, 0x12, 0x38, 0x39, 0x3A, 0x3B, 0x3C, 0x3D, 0x3E, 0x3F, 0x25, 0x26]

/-- A bound stream's 32 bytes (R169). -/
def Stream.bytes (t : Stream) : List Byte :=
  let w := max t.desc.win 1
  leBytes 8 (t.desc.addr t.pos) ++ leBytes 8 t.left ++ leBytes 4 (t.pos / w % max t.desc.cnt0 1) ++
  leBytes 4 (t.pos % w + t.reg * 256 + t.ended.toNat * 2 ^ 13 + (t.desc.mode == 1).toNat * 2 ^ 14 + 2 ^ 15) ++ leBytes 8 t.desc.va

/-- A vector store: it writes no register. -/
def isVectorStore (w : BitVec 32) : Bool := majorOf w == 0x2D || (majorOf w == 0x2E && 2 ≤ field w.toNat 2 2)

/-- The register that an instruction in flight writes: the first of a sparse pair; for vmaxi and for a store none (R95). -/
def InFlight.dest (r : InFlight) : Nat :=
  let d := field r.word.toNat 21 5
  if majorOf r.word = 0x36 then 16 + 2 * d
  else if isVectorStore r.word || (bond r.word && !(queues r.word)) then 32 else d

/-- Permits that a hart holds as a sender (R74, R176). -/
def Device.permits (d : Device) (uid : Nat) : Nat :=
  (d.groups.filter (fun g => g.sender == uid)).foldl (fun n g => n + g.permits) 0

/-- The header (R79). A hart between its join and its next setvl counts as a fork parent, without a peer (DESIGN CHOICE, log 106). -/
def State.areaHeader (s : State) (a : SaveArea) : List Byte :=
  let h := a.hart
  let l := s.dev.launch h.launch
  let gang := match l with
    | some l => l.record.gang
    | none => false
  let flags := (!h.inflight.isEmpty).toNat +
    (match h.fork with | .child _ _ => 4 | .none => 0 | _ => 2) + gang.toNat * 8
  let peer := match a.peer with
    | some n => n
    | none => 0xFFFFFFFF
  padTo 256 (leBytes 4 0x4A534156 ++ leBytes 2 1 ++ leBytes 2 flags ++ leBytes 4 Config.saveAreaBytes ++ leBytes 2 h.ctx ++ leBytes 1 h.vmid ++
    leBytes 1 h.nlg ++ leBytes 2 h.queue ++ zeros 2 ++ leBytes 4 h.seq ++ h.r.lidx.toList.flatMap (fun x => leBytes 4 x.toNat) ++
    leBytes 1 h.r.ncl.toNat ++ leBytes 1 h.streamRes ++ leBytes 1 h.gears.req.toNat ++ leBytes 1 h.inflight.length ++ leBytes 4 peer ++
    leBytes 8 h.r.pc.toNat ++ leBytes 8 h.checkPc.toNat ++ leBytes 2 ((l.map (·.record.gangid)).getD 0) ++ leBytes 2 (s.dev.permits h.uid) ++
    zeros 4 ++ leBytes 8 a.saveUj ++ leBytes 8 a.saveTime.toNat ++ leBytes 2 h.ssb.length)

/-- Groups completed, as an in-flight record and a progress index give them: 0 for a bond instruction, whose point PASSST records (R236). -/
def InFlight.groupsDone (r : InFlight) : Nat := if bond r.word then 0 else r.groups

/-- GEARS as an area holds it: EFF is REQ (R138), and BRICK and HOLD are those of the save (R80, R132). -/
def Gears.saved (g : Gears) (bits : Nat) : Word := BitVec.ofNat 64 (bits + g.req.toNat * 8 + g.auto.toNat * 2 + g.req.toNat)

/-- The whole area of 69,632 bytes (R78). A tile that is not enabled is a field the hart does not use. -/
def State.areaBytes (s : State) (a : SaveArea) : List Byte :=
  let h := a.hart
  let r := h.r
  let t : State := { s with hart := h }
  let word := fun (x : Word) => leBytes 8 x.toNat
  let vector := (List.range 32).flatMap (fun v => (List.range 32).flatMap (fun l =>
    leBytes 32 (field (r.v.getD v 0).toNat (256 * l) 256) ++ leBytes 1 (field (r.mortar.getD v 0).toNat (8 * l) 8)))
  let progress := (List.range 32).flatMap (fun v => match h.inflight.find? (fun x => x.dest == v) with
    | some x => leBytes 4 x.groupsDone
    | none => leBytes 4 0xFFFFFFFF)
  let streams := r.streams.toList.flatMap (fun x => match x with
    | some x => x.bytes
    | none => zeros 32)
  let generator := (List.range 32).flatMap (fun l => word (r.gkey.getD l 0) ++ word (r.gpos.getD l 0))
  let records := padTo 384 (h.inflight.flatMap (fun x => leBytes 4 x.word.toNat ++ leBytes 4 x.groupsDone ++ word x.cap.op1 ++ word x.cap.op2))
  let contexts := padTo 128 (h.inflight.flatMap (fun x =>
    leBytes 8 (x.cap.vl.toNat + x.cap.vtype.low.toNat * 2 ^ 16 + x.cap.frm.toNat * 2 ^ 24)))
  let pcs := padTo 128 (h.inflight.flatMap (fun x => word x.pc))
  let pending := leBytes 8 h.aerr.pending.toNat ++ leBytes 4 (h.aerr.queue.length + h.aerr.lost) ++ zeros 4 ++ padTo 112 (h.aerr.queue.flatMap word)
  s.areaHeader a ++
  zeros 8 ++ (r.x.toList.drop 1).flatMap word ++ r.f.toList.flatMap word ++
  vector ++ r.k.toList.flatMap (fun k => leBytes 1024 k.toNat) ++ (List.range 8).flatMap (fun n => leBytes 1024 (if r.ten.getLsbD n then (r.tile.getD n 0).toNat else 0)) ++
  padTo 16384 (h.ssb.flatMap entryBytes) ++ progress ++ streams ++ r.ops.toList.flatMap (fun o => leBytes 32 o.toNat) ++ generator ++
  padTo 384 (controlSlots.flatMap (fun n => word (if n = 0x21 then h.gears.saved a.gearBits else (t.csr n).getD 0))) ++ records ++ contexts ++ pcs ++ pending

/-! ### Failed slots and poison (R243) -/

/-- The bytes of an area where the 64-bit slots of vector, mask and tile registers lie: the first byte of slot `t` of the register. -/
def vectorSlot (v t : Nat) : Nat := 0x300 + 1056 * v + 33 * (t / 4) + 8 * (t % 4)
def maskSlot (k t : Nat) : Nat := 0x8700 + 1024 * k + 8 * t
def tileSlotAt (n t : Nat) : Nat := 0xA700 + 1024 * n + 8 * t

/-- The granules of an area that its failed slots poison. -/
def Regs.poisonedGranules (r : Regs) : List Nat :=
  let slots := fun (n : Nat) (fail : Nat → BitVec 128) (first : Nat → Nat → Nat) =>
    (List.range n).flatMap (fun v => if fail v = 0 then [] else (setBits 128 (fail v).toNat).flatMap (fun t =>
      [first v t / 64, (first v t + 7) / 64]))
  distinct (slots 32 (fun v => r.vfail.getD v 0) vectorSlot ++ slots 8 (fun k => r.kfail.getD k 0) maskSlot ++
    slots 8 (fun n => r.tfail.getD n 0) tileSlotAt)

/-- The slots that poisoned granules of an area cover are failed again at restore. -/
def Regs.failGranules (r : Regs) (gs : List Nat) : Regs :=
  if gs.isEmpty then r
  else
    let mark := fun (first : Nat → Nat) => BitVec.ofNat 128 (bitsOf 128 (fun t => gs.contains (first t / 64) || gs.contains ((first t + 7) / 64)))
    { r with vfail := Vector.ofFn (fun v => mark (vectorSlot v.val)), kfail := Vector.ofFn (fun k => mark (maskSlot k.val))
             tfail := Vector.ofFn (fun n => mark (tileSlotAt n.val)) }

/-! ### Reading an area back (R82) -/

/-- Every byte of a part of an area is zero. -/
def zeroPart (l : List Byte) (o n : Nat) : Bool := ((l.drop o).take n).all (· == 0)

/-- The checks at a restore: MAGIC, VERSION, SIZE, CTXID and VMID match, every zero field is zero, and every operator slot holds a legal
descriptor or none (R82, R357). -/
def areaLegal (l : List Byte) (h : Hart) : Bool :=
  let n := leAt l 43 1
  leAt l 0 4 == 0x4A534156 && leAt l 4 2 == 1 && leAt l 6 2 < 16 && leAt l 8 4 == Config.saveAreaBytes && leAt l 12 2 == h.ctx &&
  leAt l 14 1 == h.vmid && n ≤ 16 && leAt l 88 2 ≤ 256 && zeroPart l 18 2 && zeroPart l 68 4 && zeroPart l 90 166 &&
  zeroPart l (0x10B80 + 296) 88 && zeroPart l (0x10D00 + 24 * n) (384 - 24 * n) && zeroPart l (0x10E80 + 8 * n) (128 - 8 * n) &&
  zeroPart l (0x10F00 + 8 * n) (128 - 8 * n) &&
  (List.range n).all (fun i => leAt l (0x10E80 + 8 * i) 8 / 2 ^ 27 == 0 && field (leAt l (0x10E80 + 8 * i) 8) 14 2 == 0 && field (leAt l (0x10E80 + 8 * i) 8) 23 1 == 0) &&
  leAt l 0x10F80 8 < 2 && (List.range (leAt l 88 2)).all (fun i => leAt l (0xC700 + 64 * i) 8 / 2 ^ 59 == 0) &&
  (List.range 8).all (fun i => leAt l (0x10780 + 32 * i + 20) 4 < 2 ^ 16 && leAt l (0x10780 + 32 * i + 24) 8 % 64 == 0) &&
  (List.range 8).all (fun i => zeroPart l (0x10880 + 32 * i) 32 || OpDesc.legal (leAt l (0x10880 + 32 * i) 32))

/-- A stream as saved; its descriptor is read again later. -/
def savedStream (l : List Byte) (n : Nat) (old : Option Stream) : Option Stream :=
  let o := 0x10780 + 32 * n
  let f := leAt l (o + 20) 4
  if !(bit f 15) then none
  else
    let d : StreamDesc := ((old.map (·.desc)).getD
      { va := 0, base := 0, cnt0 := 1, cnt1 := 1, cnt2 := 1, ew := 0, mode := 0, win := 0, sender := 0, str0 := 0, str1 := 0, str2 := 0, wstr := 0 })
    let d := { d with va := leAt l (o + 24) 8 }
    some { desc := d, reg := field f 8 5, pos := if d.mode = 2 then 0 else d.total - leAt l (o + 8) 8, ended := bit f 13
           elsewhere := (old.map (·.elsewhere)).getD false }

/-- The virtual address at which a hart has stored to a physical one (R238); one that an area names alone is taken as it stands. -/
def Hart.vaOf (h : Hart) (pa : Nat) : Addr :=
  (firstSome (fun (st : BufStore) => (st.place.zipIdx.find? (fun x => x.1 == .phys pa)).map (fun x => (st.va + x.2) % 2 ^ 64))
    (h.ended.flatMap (·.strip.stores))).getD pa

/-- The strips of an area, split at their FIRST marks. -/
def savedStrips (h : Hart) (es : List (Nat × List Byte × Bool)) : List Strip :=
  let strips := es.foldl (fun (acc : List (List (Nat × List Byte))) e => match acc with
    | cur :: rest => if e.2.2 then [(e.1, e.2.1)] :: cur :: rest else (cur ++ [(e.1, e.2.1)]) :: rest
    | [] => [[(e.1, e.2.1)]]) []
  strips.reverse.map (fun st =>
    { stores := st.zipIdx.map (fun x =>
        { va := h.vaOf x.1.1, place := (List.range x.1.2.length).map (fun i => .phys (x.1.1 + i)), data := x.1.2, path := .s, ins := x.2 })
      used := st.length, count := st.length })

/-- The registers of an area. -/
def areaRegs (l : List Byte) (r : Regs) : Regs :=
  let w := fun (o : Nat) => BitVec.ofNat 64 (leAt l o 8)
  let c := fun (i : Nat) => leAt l (0x10B80 + 8 * i) 8
  let lanes := fun (v : Nat) (f : Nat → Nat) (width : Nat) => (List.range 32).foldl (fun n i => n + f (0x300 + 1056 * v + 33 * i) * 2 ^ (width * i)) 0
  let passst := c 11
  { r with
    pc := w 48
    x := Vector.ofFn (fun i => if i.val = 0 then 0 else w (0x100 + 8 * i.val))
    f := Vector.ofFn (fun i => w (0x200 + 8 * i.val))
    v := Vector.ofFn (fun v => BitVec.ofNat 8192 (lanes v.val (fun o => leAt l o 32) 256))
    mortar := Vector.ofFn (fun v => BitVec.ofNat 256 (lanes v.val (fun o => leAt l (o + 32) 1) 8))
    names := Vector.replicate 32 none
    k := Vector.ofFn (fun k => BitVec.ofNat 8192 (leAt l (0x8700 + 1024 * k.val) 1024))
    tile := Vector.ofFn (fun t => BitVec.ofNat 8192 (leAt l (0xA700 + 1024 * t.val) 1024))
    vfail := Vector.replicate 32 0
    kfail := Vector.replicate 8 0
    tfail := Vector.replicate 8 0
    vl := BitVec.ofNat 14 (c 0)
    vtype := { vill := bit (c 1) 63, kz := bit (c 1) 6, gm := BitVec.ofNat 2 (c 1 / 8), sew := BitVec.ofNat 2 (c 1) }
    passst := { valid := bit passst 31, step := BitVec.ofNat 8 (passst / 65536), next := BitVec.ofNat 4 (passst / 256), done := BitVec.ofNat 4 (passst / 16) }
    issued := Vector.ofFn (fun i => BitVec.ofNat 32 (c (13 + i.val) / 2 ^ 32))
    lidx := Vector.ofFn (fun i => BitVec.ofNat 32 (c (22 + i.val)))
    ncl := BitVec.ofNat 4 (c 26 / 256)
    ten := BitVec.ofNat 8 (c 26)
    slen := Vector.ofFn (fun i => BitVec.ofNat 14 (c (27 + i.val)))
    streams := Vector.ofFn (fun n => savedStream l n.val r.streams[n])
    ops := Vector.ofFn (fun n => BitVec.ofNat 256 (leAt l (0x10880 + 32 * n.val) 32))
    gkey := Vector.ofFn (fun i => w (0x10980 + 16 * i.val))
    gpos := Vector.ofFn (fun i => w (0x10988 + 16 * i.val)) }

/-- The hart of an area; what an area has no field for stays as it was. -/
def areaHart (l : List Byte) (h : Hart) : Hart :=
  let c := fun (i : Nat) => leAt l (0x10B80 + 8 * i) 8
  let r := areaRegs l h.r
  let aerr := BitVec.ofNat 64 (c 17)
  let n := leAt l 0x10F88 4
  let ended : List EndedStrip := (savedStrips h ((List.range (leAt l 88 2)).map (fun i =>
      let e := leAt l (0xC700 + 64 * i) 8
      (e % 2 ^ 52, (l.drop (0xC708 + 64 * i)).take (field e 52 6 + 1), bit e 58)))).map (fun st =>
    { strip := st, ckpt := { r with pc := BitVec.ofNat 64 (leAt l 56 8) }, kept := true })
  let inflight : List InFlight := (List.range (leAt l 43 1)).map (fun i =>
    let cx := leAt l (0x10E80 + 8 * i) 8
    let vt := cx / 65536
    { word := BitVec.ofNat 32 (leAt l (0x10D00 + 24 * i) 4), pc := BitVec.ofNat 64 (leAt l (0x10F00 + 8 * i) 8)
      groups := leAt l (0x10D04 + 24 * i) 4
      cap := { op1 := BitVec.ofNat 64 (leAt l (0x10D08 + 24 * i) 8), op2 := BitVec.ofNat 64 (leAt l (0x10D10 + 24 * i) 8)
               vl := BitVec.ofNat 14 cx, frm := BitVec.ofNat 3 (cx / 2 ^ 24)
               vtype := { kz := bit vt 6, gm := BitVec.ofNat 2 (vt / 8), sew := BitVec.ofNat 2 vt } }
      places := ((h.inflight[i]?).map (·.places)).getD []
      vas := ((h.inflight[i]?).map (·.vas)).getD []
      srcs := ((h.inflight[i]?).map (·.srcs)).getD []
      old := ((h.inflight[i]?).map (·.old)).getD {}
      resumed := true })
  let report := aerr &&& (BitVec.ofNat 64 (2 ^ 64 - 2 ^ 46 + 2 ^ 32 - 1))
  { h with
    r := r
    fstat := BitVec.ofNat 5 (c 4)
    fidx := Vector.ofFn (fun i => BitVec.ofNat 64 (c (5 + i.val)))
    frm := BitVec.ofNat 3 (c 10)
    chg := bit (c 2) 8
    done := Vector.ofFn (fun i => BitVec.ofNat 32 (c (13 + i.val)))
    aerr := { held := if bit (c 17) 45 then some report else none, ate := bit (c 17) 43, inh := bit (c 17) 42
              queue := (List.range (min n 14)).map (fun i => BitVec.ofNat 64 (leAt l (0x10F90 + 8 * i) 8)), lost := n - 14
              pending := bit (leAt l 0x10F80 8) 0 }
    gears := { h.gears with
      req := bit (c 18) 0, auto := bit (c 18) 1, eff := bit (c 18) 0, drop := false
      lead := BitVec.ofNat 14 (c 19), idle := BitVec.ofNat 24 (c 20) }
    vskew := BitVec.ofNat 4 (c 21)
    energy := BitVec.ofNat 48 (c 35)
    reuseHit := BitVec.ofNat 40 (c 36)
    ckpt := { r with pc := BitVec.ofNat 64 (leAt l 56 8) }
    strip := {}
    ended := ended
    inflight := inflight }

/-! ### The pool (R81, R82) -/

/-- Where a slot lies, when the pool lies in this device's GDDR 7. -/
def Device.slotAt (d : Device) (slot : Nat) : Option Nat :=
  let pa := d.sched.savePool + Config.saveAreaBytes * slot
  if d.here pa && d.populated (offsetOf pa + Config.saveAreaBytes - 1) then some (offsetOf pa) else none

/-- Change a saved area. -/
def State.mapArea (s : State) (slot : Nat) (f : SaveArea → SaveArea) : State :=
  s.mapDev (fun d => { d with saved := d.saved.map (fun a => if a.slot = slot then f a else a) })

/-- Write an area to its slot, poisoned where it holds failed slots. -/
def State.writeArea (s : State) (a : SaveArea) : State :=
  match s.dev.slotAt a.slot with
  | none => s
  | some off =>
    let d := s.dev.writeAccess off (s.areaBytes a)
    let s : State := { s with dev := a.hart.r.poisonedGranules.foldl (fun d g => d.addPoison (off / 64 + g)) d }
    s.mapArea a.slot (fun a => { a with written := some a.hart })

/-- The bytes of a slot: what was written there, or what software has put in its place, with what the device has changed since (R242). -/
def State.slotBytes (s : State) (a : SaveArea) (off : Nat) : List Byte :=
  let l := Memory.readBytes s.dev.mem off Config.saveAreaBytes
  if a.written = some a.hart then l
  else
    let old := s.areaBytes { a with hart := a.written.getD a.hart }
    let new := s.areaBytes a
    (l.zip (old.zip new)).map (fun x => if x.2.1 = x.2.2 then x.1 else x.2.2)

/-- What the device changes of a saved hart (R171, R219, R242) goes into its area in the pool as well, when one is there. -/
def State.syncArea (s : State) (a : SaveArea) : State :=
  if a.written.isNone ∨ a.written = some a.hart ∨ !(a.spilled || a.flushed) then s
  else match s.dev.slotAt a.slot with
    | none => s
    | some off =>
      let l := s.slotBytes a off
      let d := { s.dev with mem := (l.zipIdx).foldl (fun m x => Memory.write m (off + x.2) x.1) s.dev.mem }
      State.mapArea { s with dev := d } a.slot (fun a => { a with written := some a.hart })

/-- Every area in the pool holds what the device has changed. -/
def State.syncAreas (s : State) : State := s.dev.saved.foldl State.syncArea s

/-- Areas that one wythe's save region holds. -/
def regionAreas : Nat := 64 * 2 ^ 20 / Config.saveAreaBytes

/-- The least recently saved area of a region without room goes to the pool (R81). -/
def State.makeRegionRoom (s : State) (w : Nat) : State :=
  match s.dev.saved.filter (fun a => a.wythe == w && !a.spilled) with
  | a :: rest =>
    if rest.length < regionAreas ∨ (s.dev.slotAt a.slot).isNone then s
    else (s.writeArea a).mapArea a.slot (fun a => { a with spilled := true })
  | [] => s

/-- The offsets of the granules of a slot of the pool. -/
def areaGranules (d : Device) (slot : Nat) : List Nat :=
  if d.latent.isEmpty then [] else
  match d.slotAt slot with
  | some off => (List.range (Config.saveAreaBytes / 64)).map (fun g => off + 64 * g)
  | none => []

/-- The hart of an area as a restore finds it, or the status with which it ends (R82, R243): a spilled area is read from the pool. -/
def State.readArea (s : State) (a : SaveArea) : Except Nat Hart :=
  match if a.spilled then s.dev.slotAt a.slot else none with
  | none => .ok { a.hart with r := a.hart.r.failGranules a.hart.r.poisonedGranules }
  | some off =>
    let bad := (List.range (Config.saveAreaBytes / 64)).filter (fun g => s.dev.poisoned (off + 64 * g))
    if bad.any (fun g => 64 * g < 0x300 || 0xC700 ≤ 64 * g) then .error 0x08
    else
      let l := s.slotBytes a off
      if areaLegal l a.hart then
        (let h := areaHart l a.hart
         .ok { h with r := h.r.failGranules bad })
      else .error 0x05

end Sys2Proof.Machine
end

