-- ==== Sys2Proof/Machine/Launch.lean ====
section
/-! DEFINITION. Launches: reading and checking launch records (R49, R53, R54, R56, R72), where harts fit (R56, R64, R65), and the
completion of a launch (R55, R57, R231). -/

namespace Sys2Proof.Machine

/-! ### Launch records (R53) -/

/-- The record that 128 bytes hold. -/
def recordOf (l : List Byte) : Record :=
  { marker := leAt l 0 1 == 2, flags := BitVec.ofNat 16 (leAt l 2 2), usertag := leAt l 4 4, kernel := BitVec.ofNat 64 (leAt l 8 8)
    args := BitVec.ofNat 64 (leAt l 16 8), ctx := leAt l 24 2 % 4096, vmid := leAt l 26 1 % 64, weight := leAt l 27 1
    lgph := leAt l 28 1 % 4, tiles := leAt l 29 1, streams := leAt l 30 1, slots := leAt l 31 1
    levels := Vector.ofFn (fun i => { extent := leAt l (32 + 4 * i.val) 4, place := leAt l (48 + i.val) 1 })
    gangid := leAt l 52 2, devidx := leAt l 54 1, gearcfg := leAt l 55 1, slotmask := leAt l 56 4, waitq := leAt l 64 2 % 4096
    waitseq := leAt l 68 4, waitsig := leAt l 72 2 % 1024, waitval := BitVec.ofNat 64 (leAt l 80 8), donesig := leAt l 88 2 % 1024
    doneval := BitVec.ofNat 64 (leAt l 96 8), startat := BitVec.ofNat 64 (leAt l 104 8), gangnodes := BitVec.ofNat 64 (leAt l 112 8) }

/-- Flags of R53. -/
def Record.cmplSet (r : Record) : Bool := r.flags.getLsbD 0
def Record.evt (r : Record) : Bool := r.flags.getLsbD 1
def Record.dsig (r : Record) : Bool := r.flags.getLsbD 2
def Record.wdone (r : Record) : Bool := r.flags.getLsbD 3
def Record.wsig (r : Record) : Bool := r.flags.getLsbD 4

/-- Lane groups that each hart asks for. -/
def Record.laneGroups (r : Record) : Nat := [0, 1, 2, 4].getD r.lgph 0

/-- The extent of the level with a placement; 1 when there is none. -/
def Record.extent (r : Record) (place : Nat) : Nat :=
  ((r.levels.toList.find? (fun x => x.place == place)).map (·.extent)).getD 1

/-- The reserved bits of a record are zero and its fields within their limits, GANGNODES apart (R53, R54). -/
def recordLegal (l : List Byte) : Bool :=
  let zero := fun (o n : Nat) => leAt l o n == 0
  1 ≤ leAt l 0 1 && leAt l 0 1 ≤ 2 && leAt l 1 1 == 1 && leAt l 2 2 < 64 && zero 15 1 && leAt l 8 1 % 4 == 0 && zero 23 1 &&
  leAt l 24 2 < 4096 && leAt l 26 1 < 64 && !(zero 27 1) && leAt l 28 1 < 4 && leAt l 29 1 ≤ 8 && leAt l 30 1 ≤ 8 &&
  leAt l 31 1 ≤ 16 && leAt l 54 1 < 64 && leAt l 55 1 < 4 && zero 60 4 && leAt l 64 2 < 4096 && zero 66 2 && leAt l 72 2 < 1024 &&
  zero 74 6 && leAt l 88 2 < 1024 && zero 90 6 && zero 120 8

/-- The gang's node table at GANGNODES, when R72 does not refuse the record. -/
def Device.gangTable (d : Device) (r : Record) : Option (List Nat) :=
  let pa := r.gangnodes.toNat
  if !r.spansDevices then (if pa = 0 then some [] else none)
  else
    let off := offsetOf pa
    if pa = 0 ∨ pa % 8 ≠ 0 ∨ 2 ^ 52 ≤ pa ∨ !(d.here pa) ∨ !(d.populated (off + 127)) ∨
        [off, off + 64, off + 127].any d.poisoned then none
    else
      let t := (List.range (min 64 (r.extent 5))).map (fun i => ofLe (Memory.readBytes d.mem (off + 2 * i) 2) % 4096)
      if t.zipIdx.any (fun x => x.1 == d.node && x.2 != r.devidx) then none else some t

/-- The granules of this device in which a gang's node table lies. -/
def Device.tableGranules (d : Device) (r : Record) : List Nat :=
  let off := offsetOf r.gangnodes.toNat
  if r.spansDevices && d.here r.gangnodes.toNat then [off, off + 64, off + 127] else []

/-- The greatest extent of a level (R56). -/
def Record.extentLimit (r : Record) (place : Nat) : Nat :=
  match place with
  | 1 => 2 ^ 32 - 1
  | 2 => 64 / max 1 r.laneGroups
  | 3 => 16
  | 4 => 4
  | _ => 64

/-- The loop table keeps R56. -/
def Record.loopLegal (r : Record) : Bool :=
  let ls := r.levels.toList
  let used := ls.takeWhile (fun x => x.place != 0)
  (ls.drop used.length).all (fun x => x.place == 0) &&
  used.all (fun x => x.place ≤ 5 && 1 ≤ x.extent && x.extent ≤ r.extentLimit x.place &&
    (x.place != 5 || (r.gangid != 0 && r.devidx < x.extent))) &&
  [2, 3, 4, 5].all (fun p => (used.filter (fun x => x.place == p)).length ≤ 1) && hartCount r.levels ≤ 4096

/-! ### Where harts fit (R56, R64, R65) -/

/-- What is free on a brick. -/
structure Room where
  brick : Nat
  harts : List Nat
  lgs : BitVec 4
  tiles : Nat
  streams : Nat
deriving DecidableEq, Repr

/-- The aligned sets of lane groups of R64, lowest first; three can be left to a fork parent by a retirement (R103, R109). -/
def laneSets (n : Nat) : List (BitVec 4) :=
  if n = 4 then [15] else if n = 3 then [7, 11, 13, 14] else if n = 2 then [3, 12] else if n = 1 then [1, 2, 4, 8] else [0]

/-- The lane groups that a hart holds: those bound to it or coming to it, and those that an ended child left it (R103). -/
def Hart.holds (h : Hart) : BitVec 4 :=
  h.bound ||| h.next ||| (match h.fork with
    | .ended _ _ lgs _ => lgs
    | .rejoin lgs _ => lgs
    | _ => 0)

/-- Whether a store has a byte in local memory. -/
def BufStore.isLocal (st : BufStore) : Bool := st.place.any (fun p => match p with
  | .loc _ => true
  | .phys _ => false)

/-- The lane groups of a brick on which a hart that has ended still has stores to perform in local memory: they are free once it has (R150,
R190). -/
def Device.closingLanes (d : Device) (b : Nat) : BitVec 4 :=
  (d.closing.filter (fun h => h.brick == b && h.ended.any (fun e => e.strip.stores.any (·.isLocal)))).foldl
    (fun (m : BitVec 4) h => m ||| h.holds) 0

/-- What is free on a brick when some harts are on the device. -/
def Device.room (d : Device) (hs : List Hart) (b : Nat) : Room :=
  let mine := hs.filter (fun h => h.brick == b)
  let taken := fun (res use : Hart → Nat) =>
    (List.range 4).foldl (fun m n => m + max (heldBy mine res use n).1 (heldBy mine res use n).2) 0
  { brick := b, harts := (List.range Config.hartsPerBrick).filter (fun n => !(mine.any (fun h => h.num == n)))
    lgs := ~~~((mine.foldl (fun (m : BitVec 4) h => m ||| h.holds) 0) ||| (d.brick b).retired ||| d.closingLanes b)
    tiles := 16 - taken (·.tileRes) Hart.claims, streams := 16 - taken (·.streamRes) Hart.boundStreams }

/-- The hart number and lane groups that a room gives a hart that asks for `n` lane groups (R64). -/
def Room.grant (m : Room) (n tiles streams : Nat) : Option (Nat × BitVec 4) :=
  match m.harts, (laneSets n).find? (fun x => x &&& m.lgs == x) with
  | h :: _, some x => if tiles ≤ m.tiles ∧ streams ≤ m.streams then some (h, x) else none
  | _, _ => none

/-- How many harts of one request a room holds. -/
def Room.count (m : Room) (n tiles streams : Nat) : Nat :=
  let sets := if n = 0 then 4 else ((laneSets n).filter (fun x => x &&& m.lgs == x)).length
  min (min m.harts.length sets)
    (min (if tiles = 0 then 4 else m.tiles / tiles) (if streams = 0 then 4 else m.streams / streams))

/-- Whether harts may be given to a brick: it is set in READYBRICK, and its course, whose engines serve it, in READYCOURSE: a failed
course is never given work (R36; DEDUCED, log 96). -/
def Device.takesWork (d : Device) (b : Nat) : Bool := d.gmc.readyBrick.getLsbD b && d.gmc.readyCourse.getLsbD (courseOf b)

/-- Whether harts may ever be given to a brick, now or once its course is ready: a ready brick of a course that has not failed (R36, R54). -/
def Device.mayTakeWork (d : Device) (b : Nat) : Bool := d.gmc.readyBrick.getLsbD b && !(d.gmc.failCourse.getLsbD (courseOf b))

/-- The bricks that harts may be given to, and those that they may ever be given to. -/
def Device.readyBricks (d : Device) : List Nat := (List.range Config.bricks).filter d.takesWork
def Device.everBricks (d : Device) : List Nat := (List.range Config.bricks).filter d.mayTakeWork

/-- Harts that one brick may hold of a launch: its spatial-brick indices come in runs of so many (R56). -/
def Record.perBrick (r : Record) : Nat := 4 / max 1 r.laneGroups

/-- Whether a launch has a spatial-brick level, and so runs of spatial-brick indices that each need a brick of their own. Without one
harts may share a brick as R64 puts them. -/
def Record.hasRuns (r : Record) : Bool := r.levels.toList.any (fun x => x.place == 2)

/-- The run of spatial-brick indices that a hart belongs to, with its other indices. -/
def Record.block (r : Record) (i : Nat) : List Nat :=
  let sp := spatialLevels r.levels
  (sp.zip (indexTuple sp i)).map (fun x => if x.1.place = 2 then x.2 / r.perBrick else x.2)

/-- How many sets of harts that differ only at the spatial-brick level bricks with given counts can hold. -/
def Record.setsIn (r : Record) (counts : List Nat) : Nat :=
  if !r.hasRuns then counts.foldl (· + ·) 0
  else
  let e := r.extent 2
  let full := e / r.perBrick
  let rest := e % r.perBrick
  let big := (counts.filter (r.perBrick ≤ ·)).length
  let fit := (counts.filter (max 1 rest ≤ ·)).length
  min (if full = 0 then 16 else big / full) (fit / (full + min 1 rest))

/-- Whether bricks with given counts can hold every hart of a gang together (R54): the counts stand by wythe and course. -/
def Record.gangHolds (r : Record) (counts : Nat → Nat → List Nat) : Bool :=
  let wythes := (List.range 4).map (fun w =>
    ((List.range 16).foldl (fun n c => n + r.setsIn (counts w c)) 0) / r.extent 3)
  r.extent 4 ≤ wythes.foldl (· + ·) 0

/-- The counts of some of a course's bricks for a record's harts. -/
def Device.courseCounts (d : Device) (hs : List Hart) (r : Record) (takes : Nat → Bool) (c : Nat) : List Nat :=
  ((List.range 16).filter (fun i => takes (16 * c + i))).map (fun i =>
    (d.room hs (16 * c + i)).count r.laneGroups r.tiles r.streams)

/-- The device with nothing left on its bricks. -/
def Device.cleared (d : Device) : Device := { d with closing := [] }

/-- The resource test of R54. -/
def Device.canEverHold (d : Device) (r : Record) : Bool :=
  if r.marker then true
  else if r.gang then r.gangHolds (fun w c => d.cleared.courseCounts [] r d.mayTakeWork (16 * w + c))
  else d.everBricks.any (fun b => ((d.cleared.room [] b).grant r.laneGroups r.tiles r.streams).isSome)

/-- The status that refuses a record, by the order of R54. -/
def Device.refusal (d : Device) (q : Nat) (l : List Byte) : Option Nat :=
  let r := recordOf l
  let c := d.ctxent r.ctx
  if !(recordLegal l) || (d.gangTable r).isNone then some 1
  else if r.vmid ≠ (d.queue q).vmid ∨ r.ctx = 0 ∨ !c.valid ∨ c.vmid ≠ r.vmid then some 2
  else if !r.loopLegal then some 3
  else if r.wdone && ((d.queue r.waitq).vmid != r.vmid || r.waitseq == 0) then some 2
  else if !(d.canEverHold r) || (setBits 32 r.slotmask).any (fun p => !(d.port p).ready) then some 4
  else none

/-! ### Completion (R55, R57, R231) -/

/-- The status of a launch, by the order of R231, for a fork child's traps too (DESIGN CHOICE, log 107). -/
def Launch.status (l : Launch) : Nat :=
  if l.uncorrectable then 8 else if l.gangFailed then 7 else if l.trapped then 5 else if l.asyncLeft then 6 else 0

/-- A completion record (R57). -/
def Launch.record64 (l : Launch) (status : Nat) (tend : Word) : List Byte :=
  leBytes 4 l.seq ++ leBytes 1 status ++ zeros 1 ++ leBytes 2 l.queue ++ leBytes 4 l.record.usertag ++ leBytes 4 l.schdown ++
  leBytes 8 l.tstart.toNat ++ leBytes 8 tend.toNat ++ leBytes 8 l.energy ++ leBytes 4 l.ran ++ leBytes 4 l.preempts ++
  leBytes 8 l.aerrFirst.toNat ++ zeros 8

/-- QDONE moves over the unbroken run of complete launches. The first argument bounds the run. -/
def moveDone : Nat → Queue → Queue
  | 0, q => q
  | k + 1, q =>
    if q.doneSet.contains (q.done + 1) then
      moveDone k { q with done := q.done + 1, doneSet := q.doneSet.filter (· != q.done + 1) }
    else q

/-- A launch is complete with a status: its completion record, DONESIG, QDONE and its events follow in this order (R54, R55). Its events
go to the ring of the tenant that its queue then has (DESIGN CHOICE, log 95), and its record to the place that QCMPL and QSZ then give, in
this device's memory (DESIGN CHOICE, log 98). -/
def State.complete (s : State) (l : Launch) (status : Nat) (refused : Bool) : State :=
  let r := l.record
  let k := s.dev.queue l.queue
  let off := offsetOf k.cmpl + 64 * ((l.seq - 1) % ringRecords k.qsz)
  let s := if r.cmplSet && s.dev.populated (off + 63) then s.mapDev (fun d => d.writeAccess off (l.record64 status d.time.dtime)) else s
  let s := if r.dsig && !refused then s.setSignal r.vmid r.donesig (s.signal r.vmid r.donesig + r.doneval) else s
  let s := s.mapQueue l.queue (fun k => moveDone 9 { k with doneSet := l.seq :: k.doneSet })
  let s := if r.evt then s.mapDev (fun d => d.postEvent k.vmid 0x01 l.queue l.seq (BitVec.ofNat 64 status)) else s
  if refused then s.mapDev (fun d => d.postEvent k.vmid 0x02 l.queue l.seq (BitVec.ofNat 64 status)) else s

/-- Whether a launch is eligible (R54). QDONE of the queue it waits on is compared as it stands each time, without a wrap at 2^32 (DESIGN
CHOICE, log 91 and 94). -/
def Launch.isEligible (l : Launch) (d : Device) : Bool :=
  (!l.record.wdone || l.record.waitseq ≤ (d.queue l.record.waitq).done) && l.sigSeen &&
  (l.startSeen || l.record.startat ≤ d.time.dtime)

/-- Something of a launch is still under way. -/
def State.underWay (s : State) (id : Nat × Nat) : Bool :=
  (s.harts ++ s.dev.closing).any (fun h => h.launch == id) || s.dev.saved.any (fun a => a.hart.launch == id) ||
  s.dev.outstanding.any (fun o => o.launch == id && o.owner != .device) || s.dev.slotQueue.any (fun m => m.launch == id) ||
  s.dev.courses.any (fun c => c.2.copies.any (fun j => j.launch == id) || c.2.mcasts.any (fun m => m.launch == id) ||
    c.2.merges.any (fun m => m.launch == id))

/-- Whether a launch is complete: its last hart has ended and everything it issued has performed, or it is an eligible marker with
every earlier launch of its queue complete (R54, R55). -/
def State.finished (s : State) (l : Launch) : Bool :=
  if l.record.marker then
    l.isEligible s.dev && !(s.dev.launches.any (fun x => x.queue == l.queue && x.seq < l.seq))
  else
    (l.killed || (List.range (hartCount l.record.levels)).all l.ended.contains) && l.failures.isEmpty && !(s.underWay (l.queue, l.seq))

/-- A complete launch leaves the scheduler: its barriers, scheduled slots and merge sessions go (R66, R182, R299). -/
def State.forget (s : State) (id : Nat × Nat) : State :=
  s.mapDev (fun d => { d with
    launches := d.launches.filter (fun l => !(l.queue == id.1 && l.seq == id.2))
    barriers := d.barriers.filter (fun b => !(b.queue == id.1 && b.seq == id.2))
    slots := d.slots.filter (fun x => !(x.2.2 == id))
    courses := d.courses.map (fun c => (c.1, { c.2 with session := c.2.session.filter (fun m => m.launch != id) })) })

def execLaunchComplete (q n : Nat) (s : State) : Host.Outcome State Fault Refusal :=
  match s.dev.launch (q, n) with
  | none => .next s
  | some l => if s.finished l then .next ((s.complete l l.status false).forget (q, n)) else .next s

/-! ### Reading records (R49, R54, R61) -/

/-- The least value of a list, if it has one. -/
def leastOf (l : List Nat) : Option Nat := match l with
  | [] => none
  | a :: rest => some (rest.foldl min a)

/-- A queue and its tenant become active (R61): neither keeps a clock behind the others'. -/
def State.activate (s : State) (q v : Nat) : State :=
  let qs := distinct (s.dev.launches.map (·.queue))
  let vs := distinct (s.dev.launches.map (·.record.vmid))
  let s := if qs.contains q then s
    else match leastOf ((qs.filter (fun x => (s.dev.queue x).vmid == v)).map (fun x => (s.dev.queue x).qvt)) with
      | some m => s.mapQueue q (fun k => { k with qvt := max k.qvt m })
      | none => s
  if vs.contains v then s
  else match leastOf (vs.map (fun x => (s.dev.tenant x).tvt)) with
    | some m => s.mapTenant v (fun t => { t with tvt := max t.tvt m })
    | none => s

/-- The scheduler reads the record at HEAD (R49) and checks it: a refused record is complete at once. Both its halves are read in one step
(DESIGN CHOICE, log 92). -/
def execRecordRead (q : Nat) (s : State) : Host.Outcome State Fault Refusal :=
  let k := s.dev.queue q
  if !(s.dev.gmc.schedRunning && k.en && k.head != k.tail && k.reads + 1 ≤ k.done + 8) then .next s
  else
    let l := Memory.readBytes s.dev.mem (offsetOf k.base + 128 * k.head) 128
    let r := recordOf l
    let x : Launch := { queue := q, seq := k.reads + 1, record := r }
    let s := s.mapDev (fun d => d.meet ((List.range 128).map (offsetOf k.base + 128 * k.head + ·) ++ d.tableGranules r))
    let s1 := s.mapQueue q (fun k => { k with head := (k.head + 1) % ringRecords k.qsz, reads := k.reads + 1 })
    match s.dev.refusal q l with
    | some st => .next (s1.complete x st true)
    | none =>
      let x := { x with
        nodes := (s.dev.gangTable r).getD []
        sigSeen := !r.wsig || r.waitval ≤ s.signal r.vmid r.waitsig
        startSeen := r.startat ≤ s.dev.time.dtime }
      .next ((s1.activate q r.vmid).mapDev (fun d => { d with launches := d.launches ++ [x] }))

/-- DTIME reaches STARTAT (R54). -/
def execStartatReached (q n : Nat) (s : State) : Host.Outcome State Fault Refusal :=
  .next (s.mapDev (fun d => d.mapLaunch (q, n) (fun l =>
    if l.record.startat ≤ d.time.dtime then { l with startSeen := true } else l)))

end Sys2Proof.Machine
end

