-- ==== Sys2Proof/Machine/Resume.lean ====
section
/-! DEFINITION. Saving a hart (R76, R80, R81, R178, R419), retirement of its lane groups (R109), and resuming it (R67, R68, R80, R82,
R104, R129, R169, R420). -/

namespace Sys2Proof.Machine

/-! ### Saving -/

/-- What a save area keeps of a strip: stores to local memory and engine commands are gone (R150, R419). -/
def Strip.saved (st : Strip) : Strip :=
  { st with cmds := [], stores := st.stores.filter (fun b => b.place.all (fun p => match p with
      | .phys _ => true
      | .loc _ => false)) }

/-- The hart in focus stops as R76 and R419 state: what has not started is squashed, finished instructions complete, the flags of the others are merged, CSR writes that
waited take effect, strips with updates of atomic units close, and the commands of open strips are handed over. The answer
says whether there were any. -/
def State.stopHere (s : State) : Bool × State :=
  let s := s.squash
  let s := s.hart.inflight.foldl (fun s _ => s.completeOldest) s
  let s := s.hart.inflight.foldl (fun s r => s.mergeFlags r.flags) s
  let s := s.hart.pendCsr.foldl (fun s w => s.mapHart (fun h => match w with
    | .fstat fn v => h.writeFstat fn v
    | .fidx i fn v => h.writeFidx i fn v
    | .reuseHit fn v => h.writeReuseHit fn v)) s
  let s := if s.hart.owesUpdates then s.drain else s
  let cmds := s.hart.openStrips.flatMap (·.cmds)
  let s := cmds.foldl State.handOver s
  (!cmds.isEmpty, s.mapHart (fun h =>
    let h := h.dropUsed
    let open' : EndedStrip := { strip := { h.strip with serial := h.serial }, ckpt := h.ckpt }
    let strips := if h.strip.stores.isEmpty then h.ended else h.ended ++ [open']
    { h with
      pendCsr := []
      inflight := h.inflight.map (fun r => { r with flags := {}, key := none, held := [], holds := [], start := none })
      freed := []
      ended := strips.map (fun e => { e with strip := e.strip.saved, freed := [] })
      strip := {} }))

/-- The hart in focus goes back to the checkpoint of its oldest open strip, for a retirement (R109). What a restore left to finish is
closed. -/
def State.stopForRetirement (s : State) : State :=
  let s := s.cancelEntry.restartOldest
  (s.mapHart (fun h => { h with inflight := [], pendCsr := [] })).drain

/-- The fork partner's number on its brick. -/
def Hart.partner (h : Hart) : Option Nat :=
  match h.fork with
  | .parent c _ => some c
  | .child p _ => some p
  | _ => none

/-- The saved area of a hart's fork partner. -/
def Device.peerArea (d : Device) (h : Hart) : Option SaveArea :=
  d.saved.find? (fun a => a.hart.launch == h.launch && a.hart.brick == h.brick && some a.hart.num == h.partner &&
    a.hart.partner == some h.num && a.peer.isNone)

/-- Save the hart in focus in a slot (R81). Its lane groups' reuse entries go, their local memory is zeroed (R126, R150), fetched data is
dropped (R169), and what it has asked other nodes for comes back to nobody. The energy of the save is charged to the hart and its
tenant (R59, R147). -/
def State.saveHart (s : State) (slot : Nat) : State :=
  let lost : BitVec 4 := match s.hart.run with
    | .retiring l => l
    | _ => 0
  let retire := lost ≠ 0
  let (handed, s) := if retire then (false, s.stopForRetirement) else s.stopHere
  let h := s.hart
  let atStart := h.r.pc == h.checkPc && h.inflight.isEmpty && h.ssb.isEmpty && !handed
  let s := s.spillBuffers.dropFetched (fun _ => true)
  let (n, s) := s.draw
  let uj := Config.energy n
  let peer := s.dev.peerArea h
  let h := { h with
    wait := .none
    landed := h.landed.filter (fun x => match x with
      | .atomic _ _ _ => true
      | _ => false)
    comparing := []
    unbound := []
    ckpt := if atStart then h.r else h.ckpt
    ended := if atStart then [] else h.ended
    aerr := { h.aerr with pending := h.aerr.pending || (h.aerr.ate && !h.aerr.inh && !h.aerr.all.isEmpty) }
    gears := h.gears.restoreEff
    energy := h.energy + BitVec.ofNat 48 uj }
  let a : SaveArea :=
    { slot := slot, atStart := atStart, lost := lost, wythe := wytheOf h.brick, peer := peer.map (·.slot), saveUj := uj
      saveTime := s.dev.time.dtime, gearBits := s.dev.thermal.hold.isSome.toNat * 128 + s.brick.gear.toNat * 16, hart := h }
  let s := s.mapBrick (fun k => (k.dropLanes h.holds).zeroLocal h.holds)
  let s := s.mapDev (fun d =>
    { d with
      outstanding := d.outstanding.map (fun o => if o.owner = .hart h.uid ∧ o.kind = 0 then { o with owner := .device } else o)
      saved := d.saved.map (fun x => if peer.map (·.slot) = some x.slot then { x with peer := some slot } else x) ++ [a] })
  let s := s.mapTenant h.vmid (fun t => { t with energy := t.energy + BitVec.ofNat 64 uj })
  (s.freeHart.recomputeGear h.brick).makeRegionRoom a.wythe

/-- The lowest free slot of the pool (R81). -/
def Device.freeSlot (d : Device) : Option Nat :=
  (List.range d.sched.saveSlots).find? (fun n => !(d.saved.any (fun a => a.slot == n)))

/-- Slots that are free. -/
def Device.freeSlots (d : Device) : Nat := d.sched.saveSlots - d.saved.length

/-! ### Lane groups at a resumption (R67, R68, R109) -/

/-- The largest aligned set within some lane groups. -/
def largestSet (lgs : BitVec 4) : BitVec 4 :=
  ((laneSets 4 ++ laneSets 2 ++ laneSets 1).find? (fun x => x &&& lgs == x)).getD 0

/-- Vector, mask and generator state over another number of lanes, element by element (R68). -/
def Regs.resize (r : Regs) (nl new : Nat) : Regs :=
  let t := r.vtype
  let max := if new = 0 then 0 else t.vlmax (new / 8)
  let r := ((List.range 32).filter (fun v => v % t.g == 0)).foldl (fun (x : Regs) v => x.setGroup new v t.g (r.group nl v t.g)) r
  { r with
    k := r.k.map (fun k => BitVec.ofNat 8192 (k.toNat % 2 ^ max))
    gkey := Vector.ofFn (fun i => if i.val < new then r.gkey[i] else 0)
    gpos := Vector.ofFn (fun i => if i.val < new then r.gpos[i] else 0)
    vl := if r.vl.toNat < max then r.vl else BitVec.ofNat 14 max }

/-- A hart on other lane groups. With another number of them its registers are resized and CHG is set. -/
def Hart.refit (h : Hart) (keep : BitVec 4) : Hart :=
  let n := (setBits 4 keep.toNat).length
  if n = h.nlg then { h with bound := keep, next := if h.next = h.bound then keep else h.next }
  else { h with r := h.r.resize h.lanes (8 * n), bound := keep, next := keep, lgn := BitVec.ofNat 3 n, chg := true }

/-- A parent's split, and the upper half for its child. -/
def Hart.splitNow (p : Hart) : Hart × Regs :=
  let half := p.lanes / 2
  ({ p with r := p.r.half p.r.vtype half false, bound := p.next }, p.r.half p.r.vtype half true)

/-- A hart that loses lane groups (R109). -/
def Hart.lose (h : Hart) (lost : BitVec 4) : Hart :=
  match h.fork with
  | .ended v split lgs x =>
    let (h, x) := if split then (h, x) else h.splitNow
    { h.refit (largestSet (h.bound &&& ~~~lost)) with fork := .ended v true (if lgs &&& lost = 0 then lgs else 0) x }
  | .rejoin lgs _ =>
    let keep := largestSet ((h.bound ||| lgs) &&& ~~~lost)
    if (h.bound ||| lgs) &&& lost = 0 then h else { h.refit keep with fork := .none, next := keep, chg := true }
  | _ => h.refit (largestSet (h.bound &&& ~~~lost))

/-- A hart resumed with another number of lane groups than it was saved with sets CHG, and its VL is within VLMAX (R67, R68). -/
def Hart.noteLanes (new old : Hart) : Hart :=
  if new.nlg = old.nlg then new
  else
    let max := if new.nlg = 0 then 0 else new.r.vtype.vlmax new.nlg
    { new with chg := true, lgn := BitVec.ofNat 3 new.nlg
               r := { new.r with vl := if new.r.vl.toNat < max then new.r.vl else BitVec.ofNat 14 max } }

/-- A fork pair, parent first, or a single hart, loses lane groups. A split that has not taken effect takes effect. -/
def loseLanes (lost : BitVec 4) : List Hart → List Hart
  | [p, c] =>
    let (p0, c0) := (p, c)
    let (p, c) := match p.fork with
      | .parent n false =>
        let (q, hi) := p.splitNow
        ({ q with fork := .parent n true }, { c with r := c.r.withLanes hi })
      | _ => (p, c)
    let c := match c.fork with
      | .child n _ => { c with bound := c.next, fork := .child n true }
      | _ => c
    [(p.lose lost).noteLanes p0, (c.lose lost).noteLanes c0]
  | l => l.map (fun h => (h.lose lost).noteLanes h)

/-! ### Where saved harts resume (R64, R67, R68, R104, R109) -/

/-- The areas that resume together: a fork pair, parent first, or one hart. -/
def Device.unitOf (d : Device) (a : SaveArea) : List SaveArea :=
  match a.peer with
  | none => [a]
  | some n =>
    match d.saved.find? (fun x => x.slot == n) with
    | none => [a]
    | some b => if a.hart.isChild then [b, a] else [a, b]

/-- A brick for some saved harts, their numbers on it, the lane groups they lose, and for a hart outside a fork its lane groups. -/
structure Seat where
  brick : Nat
  nums : List Nat
  lost : BitVec 4
  lanes : Option (BitVec 4)
deriving DecidableEq, Repr

/-- Lane groups that the harts of a unit hold together. -/
def unitHolds (u : List SaveArea) : BitVec 4 := u.foldl (fun (m : BitVec 4) a => m ||| a.hart.holds) 0

/-- Whether a unit keeps its own lane groups: a fork pair, or a parent whose child has ended. -/
def unitPinned (u : List SaveArea) : Bool := u.any (fun a => !(a.hart.fork == .none))

/-- A ready brick can hold some lane groups, with its retired ones left out. -/
def Device.everHolds (d : Device) (lgs : BitVec 4) : Bool := d.everBricks.any (fun b => (d.brick b).retired &&& lgs == 0)

/-- A ready brick can hold a number of lane groups. -/
def Device.everGrants (d : Device) (n : Nat) : Bool := d.everBricks.any (fun b => ((d.cleared.room [] b).grant n 0 0).isSome)

/-- The lane groups that a unit loses, and for a single hart how many it asks for: as many as it held, and fewer only from a strip-start area
that no ready brick could ever take so (DESIGN CHOICE, log 102). -/
def Device.demand (d : Device) (u : List SaveArea) : BitVec 4 × Nat :=
  let lost := u.foldl (fun (m : BitVec 4) a => m ||| a.lost) 0
  let start := u.all (·.atStart)
  match u with
  | [a] =>
    if unitPinned u then
      (if lost = 0 ∧ start ∧ !(d.everHolds a.hart.holds) then ((d.brick a.hart.brick).retired &&& a.hart.holds, 0) else (lost, 0))
    else if lost ≠ 0 then (lost, (setBits 4 (largestSet (a.hart.bound &&& ~~~lost)).toNat).length)
    else if start then (0, (([4, 2, 1].filter (fun n => n ≤ a.hart.nlg)).find? d.everGrants).getD 0)
    else (0, a.hart.nlg)
  | a :: _ =>
    if lost = 0 ∧ start ∧ !(d.everHolds (unitHolds u)) then ((d.brick a.hart.brick).retired &&& unitHolds u, 0) else (lost, 0)
  | [] => (0, 0)

/-- No ready brick can ever take a unit back: it ends (R68). -/
def Device.neverResumes (d : Device) (u : List SaveArea) : Bool :=
  let (lost, n) := d.demand u
  if unitPinned u then !(d.everHolds (unitHolds u &&& ~~~lost))
  else lost == 0 && !(d.everGrants n) && u.any (fun a => a.hart.nlg != 0)

/-- Whether hart `i` of a launch may resume on a brick beside harts `mates` of the launch, as its run goes (R56): those of its run that are on
the device lie on that brick and no other hart of the launch does, and of its run the saved harts with lower indices come first. -/
def Launch.runFits (l : Launch) (mates : List Hart) (i b : Nat) : Bool :=
  let mine := fun (j : Nat) => l.record.block j == l.record.block i
  !l.record.hasRuns ||
  (mates.all (fun h => (h.brick == b) == mine h.index) &&
   (List.range i).all (fun j => !(mine j) || mates.any (fun h => h.index == j) || l.ended.contains j || !(l.placed.contains j)))

/-- Locality for a resumption (R56): beside the launch's harts that are on the device, and with its run. -/
def Device.localTo (d : Device) (hs : List Hart) (u : List SaveArea) (b : Nat) : Bool :=
  u.all (fun a =>
    let mates := hs.filter (fun h => h.launch == a.hart.launch)
    ((d.launch a.hart.launch).map (fun l => l.runFits mates a.hart.index b)).getD true &&
    mates.all (fun h =>
      (!(sameBarrier h.levels 2 h.index a.hart.index) || courseOf h.brick == courseOf b) &&
      (!(sameBarrier h.levels 3 h.index a.hart.index) || wytheOf h.brick == wytheOf b)))

/-- The seat of a unit on a brick. -/
def Device.seatOn (d : Device) (hs : List Hart) (u : List SaveArea) (b : Nat) : Option Seat :=
  let m := d.room hs b
  let nums := m.harts.take u.length
  let use := fun (res claims : Hart → Nat) =>
    max (u.foldl (fun n a => n + res a.hart) 0) (u.foldl (fun n a => n + claims a.hart) 0)
  let (lost, n) := d.demand u
  if nums.length < u.length ∨ m.tiles < use (·.tileRes) Hart.claims ∨ m.streams < use (·.streamRes) Hart.boundStreams ∨
     !(d.localTo hs u b) then none
  else
    let own := unitHolds u &&& ~~~lost
    if unitPinned u then (if own &&& m.lgs = own then some { brick := b, nums := nums, lost := lost, lanes := none } else none)
    else
      let mine := largestSet own
      let set := if lost ≠ 0 ∧ u.any (fun a => a.hart.brick == b) ∧ mine &&& m.lgs = mine then some mine
        else (laneSets n).find? (fun x => x &&& m.lgs == x)
      set.map (fun x => { brick := b, nums := nums, lost := lost, lanes := some x })

/-- The seat of a unit: its own brick first when it has lost lane groups, then the lowest-numbered that qualifies (R64, R109). -/
def Device.seat (d : Device) (hs : List Hart) (u : List SaveArea) : Option Seat :=
  let own := ((u.head?).map (fun a => a.hart.brick)).toList
  firstSome (d.seatOn hs u) ((if (d.demand u).1 ≠ 0 then own.filter d.takesWork else []) ++ d.readyBricks)

/-! ### Resuming -/

/-- A brick's lane groups are granted: their storage holds nothing that another context, or a name by number, could reach (R65, R126,
R150). -/
def Brick.grant (k : Brick) (lgs : BitVec 4) (ctx vmid : Nat) : Brick :=
  (k.dropEntries (fun e => e.key.lgset &&& lgs != 0 &&
    (e.key.ctx != ctx || e.key.vmid != vmid || e.key.mask.isSome || e.key.slot.isSome))).zeroLocal lgs

/-- What must be read from other nodes to read the descriptors of bound streams again. -/
def State.rereadNeeds (s : State) : List (Nat × Nat) :=
  s.hart.r.streams.toList.flatMap (fun x => match x with
    | some t => needOf (s.loadScalar t.desc.va 64)
    | none => [])

/-- The descriptors of bound streams are read again (R169); one that cannot be read, or no longer fits, stays as it was (DESIGN CHOICE, log 25). -/
def State.rereadStreams (s : State) : State :=
  (List.range 8).foldl (fun s n => match s.hart.r.streams.getD n none with
    | some t =>
      (match s.loadScalar t.desc.va 64 with
       | .ok (l, s') =>
         let x := streamDesc t.desc.va l
         if x.legal l && x.ew == t.desc.ew && x.mode == t.desc.mode then
           s'.setStream n (some { t with desc := x, pos := if x.mode = 2 ∨ t.ended then t.pos else x.total - t.left })
         else s
       | .error _ => s)
    | none => s) s

/-- What comes back from other nodes at a restore is used up. -/
def Hart.dropRead (h : Hart) : Hart :=
  { h with landed := h.landed.filter (fun x => match x with
    | .atomic _ _ _ => true
    | _ => false) }

/-- The hart in focus has been restored but for what it reads again: the descriptors of its streams (R169), then its spilled buffers (R178). While
other nodes are to answer it is still being restored; else it runs. -/
def State.endRestore (s : State) : State :=
  if !s.rereadNeeds.isEmpty then s.askFor s.hart.wait (needRuns s.rereadNeeds)
  else
    let s := s.rereadStreams
    if !s.unspillNeeds.isEmpty then s.askFor s.hart.wait (needRuns s.unspillNeeds)
    else s.unspill.mapHart (fun h => { h.dropRead with run := .running, ckpt := h.r })

/-- The hart in focus takes up what its area holds: reports that waited are at hand (R242), its saved strips stand and a new one opens at
RESUMEPC (R419), or at CHECKPC when the save fell at a strip start (R68). RET shows what it lost at this retirement alone (R87), and its registers
are named under the saved VL (R129). A member of a gang that goes begins at once. -/
def State.takeUp (s : State) (a : SaveArea) (h : Hart) (vl : BitVec 14) (run : RunState) : State :=
  let strips := h.ended.filter (fun e => !e.strip.stores.isEmpty)
  let h := if a.atStart then { h with r := { h.r with pc := h.ckpt.pc } } else h
  let h : Hart := { h with
    run := .restoring
    ret := a.lost &&& a.hart.bound
    aerr := Aerr.refill { h.aerr with pending := false }
    gears := h.gears.restoreEff
    strip := {}
    ended := strips.map (fun e => { e with kept := true })
    serial := h.serial + 1
    inflight := h.inflight.map (fun r => { r with resumed := true }) }
  let s : State := State.remap { s with hart := h.dropRead }
  let s := s.nameAll vl h.r.vtype (fun v => h.inflight.any (fun r => r.dest == v))
  let s := s.mapHart (fun h => { h with ckpt := h.r })
  if run = .running then s.endRestore else s

/-- The links of a fork pair name its new numbers. -/
def relink : List Hart → List Hart
  | [p, c] =>
    [{ p with fork := match p.fork with
        | .parent _ sp => .parent c.num sp
        | f => f },
     { c with fork := match c.fork with
        | .child _ sp => .child p.num sp
        | f => f }]
  | l => l

/-- A hart of a save area that is not resumed ends (R68, R82, R231): with cause 0x12 for status 0x08, else as on another unhandled trap.
It passes through a hart number that no brick has. -/
def State.endSaved (s : State) (a : SaveArea) (status : Nat) : State :=
  let s := s.mapDev (fun d => { d with saved := d.saved.filter (fun x => x.slot != a.slot) })
  s.withHart a.hart.brick Config.hartsPerBrick (fun s =>
    State.endOnTrap { s with hart := { a.hart with
      num := Config.hartsPerBrick, run := .running, strip := {}, ended := [], inflight := [], bound := 0, next := 0 } }
      (if status = 0x08 then 0x12 else 0x01))

/-- The launch's harts that are placed, most recently first (R56). -/
def Launch.placedOn (l : Launch) (i b : Nat) : Launch := { l with home := (i, b) :: l.home.filter (fun x => x.1 != i) }

/-- A unit resumes on its seat. An area that cannot be used ends its hart instead (R82, R243). -/
def State.resumeUnit (s : State) (u : List SaveArea) (seat : Seat) (run : RunState) : State :=
  let read := u.map (fun a => (a, s.readArea a))
  let s := s.mapDev (fun d => d.meet (u.flatMap (fun a => if a.spilled then areaGranules d a.slot else [])))
  let bad := read.filterMap (fun x => match x.2 with
    | .error st => some (x.1, st)
    | .ok _ => none)
  if !bad.isEmpty then bad.foldl (fun s x => s.endSaved x.1 x.2) s
  else
    let hs := read.filterMap (fun x => match x.2 with
      | .ok h => some h
      | .error _ => none)
    let hs : List Hart := if seat.lost = 0 then hs else loseLanes seat.lost hs
    let hs : List Hart := match seat.lanes with
      | some x => hs.map (fun h => h.refit x)
      | none => hs
    let hs : List Hart := relink ((hs.zip seat.nums).map (fun (x : Hart × Nat) => { x.1 with brick := seat.brick, num := x.2 }))
    let s := s.mapDev (fun d => { d with saved := d.saved.filter (fun a => !(u.any (fun x => x.slot == a.slot))) })
    let vls := (u.zip read).map (fun x => match x.2.2 with
      | .ok h => h.r.vl
      | .error _ => x.1.hart.r.vl)
    let s := (u.zip (hs.zip vls)).foldl (fun s (x : SaveArea × Hart × BitVec 14) =>
      let h := x.2.1
      let s := s.mapDev (fun d => d.setBrick h.brick (((d.brick h.brick).dropLanes h.holds).zeroLocal h.holds))
      let s := s.withHart h.brick h.num (fun s => s.takeUp x.1 h x.2.2 run)
      s.mapDev (fun d => d.mapLaunch h.launch (fun l => { l.placedOn h.index h.brick with since := d.time.dtime.toNat }))) s
    s.recomputeGear seat.brick

/-- A restore ends, once what it reads has come, and the hart's first instruction issues (R77). -/
def execRestoreComplete (b n : Nat) (s : State) : Host.Outcome State Fault Refusal :=
  .next (s.withHart b n (fun s => if s.hart.run = .restoring then s.endRestore else s))

/-! ### Retirement and retention (R108, R109) -/

/-- A lane group is retired: no entry on it stays (R126), and the hart that holds it, with its fork partner, stops for its save. -/
def State.retireGroup (s : State) (b lg : Nat) : State :=
  let bad := BitVec.ofNat 4 (2 ^ lg)
  let k := s.dev.brick b
  if k.retired &&& bad ≠ 0 then s
  else
    let s := s.mapDev (fun d => d.setBrick b { k.dropLanes bad with retired := k.retired ||| bad })
    let holder := s.harts.find? (fun h => h.brick == b && h.holds &&& bad != 0)
    let stop := fun (h : Hart) =>
      match holder with
      | none => h
      | some x =>
        if h.brick = b ∧ (h.num = x.num ∨ some h.num = x.partner) ∧ h.run ≠ .free ∧ h.run ≠ .token then
          { h with run := match h.run with
            | .retiring l => .retiring (l ||| bad)
            | _ => .retiring bad }
        else h
    { hart := stop s.hart, dev := { s.dev with parked := s.dev.parked.map stop } }

/-- An uncorrectable error of a lane group's datapath or sequencing logic: it is logged (R245), and the group is retired. -/
def execLaneGroupRetire (b lg : Nat) (s : State) : Host.Outcome State Fault Refusal :=
  if (s.dev.brick b).retired &&& BitVec.ofNat 4 (2 ^ lg) ≠ 0 then .next s
  else .next ((s.logError b (8 * lg) 0).retireGroup b lg)

/-- A bound lane group with no vector instruction in flight, or an unbound one, enters retention. -/
def execRetentionEnter (b lg : Nat) (s : State) : Host.Outcome State Fault Refusal :=
  let bad := BitVec.ofNat 4 (2 ^ lg)
  if s.harts.any (fun h => h.brick == b && h.bound &&& bad != 0 && !h.inflight.isEmpty) then .next s
  else .next (s.mapDev (fun d => d.setBrick b { d.brick b with retention := (d.brick b).retention ||| bad }))

/-! ### Errors of storage (R15, R109, R243, R245) -/

/-- A failed 64-bit slot of a register storage: it fails in every mapping, checkpoint and entry that refers to the slot part, which is withdrawn
from its free list (R112, R243, R245). -/
def State.failPart (s : State) (part : Nat × Nat) (slot : Nat) : State :=
  let bad := BitVec.ofNat 128 (2 ^ slot)
  let regs := fun (r : Regs) =>
    { r with vfail := Vector.ofFn (fun v => if r.phys[v].contains part then r.vfail[v] ||| bad else r.vfail[v]) }
  let group := fun (g : NamedGroup) =>
    { g with fail := g.fail.zipIdx.map (fun x => if (g.phys.getD x.2 []).contains part then x.1 ||| bad else x.1) }
  (s.mapHart (fun h =>
    let h := h.mapCopies regs
    { h with inflight := h.inflight.map (fun r => { r with held := r.held.map group }) })).mapBrick (fun k =>
      { k with
        withdrawn := if k.withdrawn.contains part then k.withdrawn else part :: k.withdrawn
        reuse := k.reuse.map (fun e => { e with result := group e.result, held := e.held.map group }) })

/-- An error comes from outside. An uncorrectable one of register or tile storage, or of local memory, is logged (R245), and a second one in a
lane group's register storage retires the lane group (R109). -/
def State.upset (s : State) : Upset → State
  | .memory g c => s.mapDev (fun d => { d with latent := (g, c) :: d.latent })
  | .register b n v slot =>
    let s := s.withHart b n (fun s =>
      let lane := s.hart.laneOf (slot / 4)
      match (s.hart.r.phys.getD v []).find? (fun p => p.1 == lane / 8) with
      | some part => ((s.failPart part slot).logError b lane (v * 128 + slot)).mapBrick (fun k =>
          { k with errors := k.errors.setIfInBounds (lane / 8) (k.errors.getD (lane / 8) 0 + 1) })
      | none => s)
    (List.range 4).foldl (fun s lg => if 2 ≤ (s.dev.brick b).errors.getD lg 0 then s.retireGroup b lg else s) s
  | .mask b n k slot =>
    let bad := BitVec.ofNat 128 (2 ^ slot)
    s.withHart b n (fun s =>
      let own := s.hart.r
      let same := fun (r : Regs) => r.k.getD k 0 == own.k.getD k 0 && r.kgen.getD k 0 == own.kgen.getD k 0
      (s.mapHart (fun h => h.mapCopies (fun r =>
        if same r then { r with kfail := r.kfail.setIfInBounds k (r.kfail.getD k 0 ||| bad) } else r))).logError b 0 (k * 128 + slot))
  | .tile b n t slot =>
    let bad := BitVec.ofNat 128 (2 ^ slot)
    s.withHart b n (fun s =>
      let own := s.hart.r
      let same := fun (r : Regs) => r.claim == own.claim && r.tile.getD t 0 == own.tile.getD t 0
      (s.mapHart (fun h => h.mapCopies (fun r =>
        if same r then { r with tfail := r.tfail.setIfInBounds t (r.tfail.getD t 0 ||| bad) } else r))).logError b 0 (t * 128 + slot))
  | .localMem b g =>
    let k := s.dev.brick b
    (s.mapDev (fun d => d.setBrick b { k with locpoison := g :: k.locpoison })).logError b 0 g

end Sys2Proof.Machine
end

