-- ==== Sys2Proof/Machine/Gangs.lean ====
section
/-! DEFINITION. Dispatching harts (R55, R63, R64, R66, R99), gangs: tokens, go, withdrawal and relays (R69 to R74), and the class 2
barrier tokens (R21, R72, R297, R299). -/

namespace Sys2Proof.Machine

/-! ### A hart of a launch -/

/-- LIDX of hart `i` (R56). -/
def Record.lidx (r : Record) (i : Nat) : Vector (BitVec 32) 4 :=
  let ix := indexTuple (spatialLevels r.levels) i
  let here := fun (x : Level) => x.place == 2 || x.place == 3 || x.place == 4
  Vector.ofFn (fun l =>
    let x := r.levels[l]
    if x.place = 5 then BitVec.ofNat 32 r.devidx
    else if here x then BitVec.ofNat 32 (ix.getD ((r.levels.toList.take l.val).filter here).length 0)
    else 0)

/-- Hart `i` of a launch on a brick (R55, R99). -/
def Launch.member (l : Launch) (i b n : Nat) (lgs : BitVec 4) : Hart :=
  let c := l.record
  let x : Vector Word 32 := (Vector.replicate 32 0).setIfInBounds 10 c.args
  let r : Regs := { pc := c.kernel, x := x.setIfInBounds 11 (BitVec.ofNat 64 c.usertag), lidx := c.lidx i }
  { brick := b, num := n, run := .token, r := r, ckpt := r, queue := l.queue, seq := l.seq, index := i, ctx := c.ctx, vmid := c.vmid
    kernel := c.kernel, levels := c.levels, tileRes := c.tiles, streamRes := c.streams
    lgn := BitVec.ofNat 3 (setBits 4 lgs.toNat).length, bound := lgs, next := lgs
    gears := { req := bit c.gearcfg 0, auto := bit c.gearcfg 1, eff := bit c.gearcfg 0 } }

/-- A launch's number and queue. -/
def Launch.id (l : Launch) : Nat × Nat := (l.queue, l.seq)

/-- Harts of a launch that wait for their first dispatch, in hart order. -/
def Launch.undispatched (l : Launch) : List Nat := (List.range (hartCount l.record.levels)).filter (fun i => !(l.placed.contains i))

/-! ### Locality (R56) -/

/-- The brick of the launch's latest hart beside which a hart must lie for a scope: 2 its course, 3 its wythe. -/
def Launch.anchor (l : Launch) (scope i : Nat) : Option Nat :=
  (l.home.find? (fun x => sameBarrier l.record.levels scope i x.1)).map (·.2)

/-- Whether a brick lies beside the launch's harts that a hart must lie beside. -/
def Launch.beside (l : Launch) (i b : Nat) : Bool :=
  match l.anchor 2 i with
  | some a => courseOf a == courseOf b
  | none => match l.anchor 3 i with
    | some a => wytheOf a == wytheOf b
    | none => true

/-- Whether hart `i` may lie on a brick: a brick holds one run of spatial-brick indices, and no other rule binds. -/
def Launch.allows (l : Launch) (hs : List Hart) (i b : Nat) : Bool :=
  if !l.record.hasRuns then l.beside i b
  else
    !(hs.any (fun h => h.launch == l.id && h.brick == b && l.record.block h.index != l.record.block i)) &&
    (match l.home.find? (fun x => l.record.block x.1 == l.record.block i) with
     | some x => x.2 == b
     | none => l.beside i b)

/-- A gang's hart goes only where the harts that must lie beside it fit too. -/
def Device.leavesRoom (d : Device) (hs : List Hart) (l : Launch) (i b : Nat) : Bool :=
  let skip := fun c => l.record.hasRuns && hs.any (fun h => h.launch == l.id && h.brick == c)
  let sets := fun c => l.record.setsIn (d.courseCounts hs l.record (fun c => d.takesWork c && !(skip c)) c)
  if (l.anchor 2 i).isSome then true
  else 1 ≤ sets (courseOf b) && ((l.anchor 3 i).isSome ||
    l.record.extent 3 ≤ (List.range 16).foldl (fun n c => n + sets (16 * wytheOf b + c)) 0)

/-- The place of hart `i` (R64): the lowest-numbered brick that qualifies, its lowest free hart and lane groups. -/
def Device.placeMember (d : Device) (hs : List Hart) (l : Launch) (i : Nat) : Option Hart :=
  let c := l.record
  firstSome (fun b =>
    if l.allows hs i b && (!c.gang || d.leavesRoom hs l i b) then
      ((d.room hs b).grant c.laneGroups c.tiles c.streams).map (fun x => l.member i b x.1 x.2)
    else none) d.readyBricks

/-- Places for several harts of a launch, all or none. -/
def Device.placeAll (d : Device) : List Nat → List Hart → Launch → Option (List Hart)
  | [], _, _ => some []
  | i :: rest, hs, l =>
    match d.placeMember hs l i with
    | none => none
    | some h => (Device.placeAll d rest (h :: hs) (l.placedOn i h.brick)).map (h :: ·)

/-! ### Scheduled slots (R66) -/

/-- The slots that a launch is granted, with those it holds: none when a port has too few. -/
def Device.slotGrant (d : Device) (l : Launch) : Option (List (Nat × Nat × Nat × Nat)) :=
  if l.slotsHeld then some d.slots
  else (setBits 32 l.record.slotmask).foldlM (fun (acc : List (Nat × Nat × Nat × Nat)) p =>
    let used := (acc.filter (fun x => x.1 == p)).map (fun x => x.2.1)
    if 64 < used.length + l.record.slots then none
    else
      let free := ((List.range 128).filter (fun k => !(used.contains k))).take l.record.slots
      some (acc ++ free.map (fun k => (p, k, l.queue, l.seq)))) d.slots

/-- A launch's slots are granted at its first hart. -/
def State.takeSlots (s : State) (l : Launch) : State :=
  match s.dev.slotGrant l with
  | some x => s.mapDev (fun d => { d.mapLaunch l.id (fun l => { l with slotsHeld := true }) with slots := x })
  | none => s

/-! ### Dispatch -/

/-- A hart comes to its brick with its registers mapped (R111): it starts, or holds a token. -/
def State.bring (s : State) (h : Hart) (run : RunState) : State :=
  let h := { h with run := run, uid := s.dev.uids }
  let s := s.mapDev (fun d =>
    { d.setBrick h.brick ((d.brick h.brick).grant h.bound h.ctx h.vmid) with uids := d.uids + 1 })
  let s := s.mapDev (fun d => d.mapLaunch h.launch (fun l => { l.placedOn h.index h.brick with placed := h.index :: l.placed }))
  (s.withHart h.brick h.num (fun s => State.firstMap { s with hart := h })).recomputeGear h.brick

/-- `n` harts of a launch begin now: the quantum counts from here (R75). -/
def Launch.begin (l : Launch) (t : Word) (n : Nat) : Launch := { l with ran := l.ran + n, since := t.toNat }

/-- Dispatch one hart of a launch that is no gang. -/
def State.dispatch (s : State) (l : Launch) (h : Hart) : State :=
  ((s.takeSlots l).bring h .running).mapDev (fun d => d.mapLaunch l.id (fun l => l.begin d.time.dtime 1))

/-! ### Stopping (R73, R76, R104) -/

/-- Harts stop for a save, each with its fork partner; their launches count one pre-emption. -/
def State.stopWhere (s : State) (p : Hart → Bool) : State :=
  let hit := s.harts.filter p
  let mine := fun (h : Hart) => (h.run == .running || h.run == .restoring) &&
    (p h || hit.any (fun x => x.brick == h.brick && x.partner == some h.num && h.partner == some x.num))
  let ids := distinct ((s.harts.filter mine).map Hart.launch)
  let stop := fun (h : Hart) => if mine h then { h with run := .stopped } else h
  { hart := stop s.hart
    dev := ids.foldl (fun d id => d.mapLaunch id (fun l => { l with preempts := l.preempts + 1 }))
      { s.dev with parked := s.dev.parked.map stop } }

/-- Stopped harts that each wait for a slot of the pool (R81, R109). -/
def State.savesDue (s : State) : Nat :=
  (s.harts.filter (fun h => match h.run with
    | .stopped => true
    | .retiring _ => true
    | _ => false)).length

/-- Whether a slot is free for `n` more harts beside those that already wait for one (R81). -/
def State.slotsFor (s : State) (n : Nat) : Bool := s.savesDue + n ≤ s.dev.freeSlots

/-! ### Gangs (R69 to R73) -/

/-- A gang that runs is pre-empted here: its harts stop, and its next start begins anew (R73). While slots are lacking none stops, and the
pre-emption is kept for later (R77, R81; DEDUCED, log 97). -/
def State.stopGang (s : State) (l : Launch) : State :=
  let mine := (s.harts.filter (fun h => h.launch == l.id && (h.run == .running || h.run == .restoring))).length
  if !(s.slotsFor mine) then s.mapDev (fun d => d.mapLaunch l.id (fun l => { l with relay := true }))
  else (s.stopWhere (fun h => h.launch == l.id)).mapDev (fun d => d.mapLaunch l.id (fun l =>
    { l with relay := false, phase := .idle, readyFrom := [], progress := 0 }))

/-- The tokens of a gang on this device. -/
def State.tokens (s : State) (id : Nat × Nat) : List Hart := s.harts.filter (fun h => h.launch == id && h.run == .token)

/-- Every token of a gang is withdrawn: no member has executed anything, and saved members stay saved (R70, R71). What the others
have been charged stays with the launch (R59). -/
def State.withdrawTokens (s : State) (l : Launch) : State :=
  let toks := s.tokens l.id
  let new := toks.filter (fun h => !(s.dev.saved.any (fun a => a.hart.uid == h.uid)))
  let fresh := new.map (·.index)
  let spent := new.foldl (fun n h => n + h.energy.toNat) 0
  let s := toks.foldl (fun s h => s.withHart h.brick h.num State.freeHart) s
  let drop := l.ran == 0
  s.mapDev (fun d =>
    { d.mapLaunch l.id (fun l => { l with
        phase := .idle, placed := l.placed.filter (fun i => !(fresh.contains i)), home := l.home.filter (fun x => !(fresh.contains x.1))
        readyFrom := [], progress := 0, relay := false, slotsHeld := l.slotsHeld && !drop, energy := l.energy + spent }) with
      slots := if drop then d.slots.filter (fun x => !(x.2.2 == l.id)) else d.slots })

/-- Every member begins (R69, R72): a saved one from its area. One whose lane group has been retired meanwhile stops for it (R109). A
gang that was to be pre-empted is so now (R71). -/
def State.startGang (s : State) (l : Launch) : State :=
  let toks := s.tokens l.id
  let areas := s.dev.saved.filter (fun a => a.hart.launch == l.id)
  let fresh := toks.filter (fun h => !(areas.any (fun a => a.hart.uid == h.uid)))
  let s := fresh.foldl (fun s h => (s.withHart h.brick h.num (fun s => s.mapHart (fun h => { h with run := .running }))).recomputeGear h.brick) s
  let heads := areas.filter (fun a => (s.dev.unitOf a).head? = some a)
  let s := heads.foldl (fun s a =>
    let u := s.dev.unitOf a
    let mine := u.filterMap (fun x => toks.find? (fun h => h.uid == x.hart.uid))
    match mine with
    | [] => s
    | t :: _ =>
      let seat : Seat := { brick := t.brick, nums := mine.map (·.num), lost := (s.dev.demand u).1,
                           lanes := if unitPinned u then none else some t.bound }
      let s := mine.foldl (fun s h => s.withHart h.brick h.num State.freeHart) s
      s.resumeUnit u seat .running) s
  let s := s.mapDev (fun d => d.mapLaunch l.id (fun l =>
    { l.begin d.time.dtime fresh.length with phase := .started, readyFrom := [], progress := 0 }))
  let bad := s.harts.filter (fun h => h.launch == l.id && (s.dev.brick h.brick).retired &&& h.holds != 0)
  let s := bad.foldl (fun s h => s.withHart h.brick h.num (fun s =>
    s.mapHart (fun h => { h with run := .retiring ((s.dev.brick h.brick).retired &&& h.holds) }))) s
  if l.relay then s.stopGang l else s

/-- The coordinator hears that a device is ready: it tells the progress, and once every device is ready it sends go for 5,000 ns from
now (R71, R72). -/
def State.noteReady (s : State) (l : Launch) (dev count : Nat) : State :=
  let ready := (dev, count) :: l.readyFrom.filter (fun x => x.1 != dev)
  let sum := ready.foldl (fun n x => n + x.2) 0
  let s := s.mapDev (fun d => (d.mapLaunch l.id (fun l => { l with readyFrom := ready, progress := sum })).broadcast l 0x14 0 0 sum 0)
  if ready.length < l.devices then s
  else
    let t := s.dev.time.dtime.toNat + 5000
    s.mapDev (fun d => (d.mapLaunch l.id (fun l => { l with phase := .go t })).broadcast l 0x11 0 t 0 0)

/-- Every local member holds a token: a gang of one device goes at once, another reports ready (R69, R71). -/
def State.allTokens (s : State) (id : Nat × Nat) : State :=
  match s.dev.launch id with
  | none => s
  | some l =>
    if l.devices ≤ 1 then s.startGang l
    else
      let n := (s.tokens id).length
      let s := s.mapDev (fun d => d.mapLaunch id (fun l => { l with phase := .ready }))
      if l.record.devidx = 0 then s.noteReady l 0 n else s.mapDev (fun d => d.sendToken l 0 0x10 0 0 n 0)

/-- The coordinator withdraws a gang on every device. -/
def State.withdrawAll (s : State) (l : Launch) : State := (s.mapDev (fun d => d.broadcast l 0x13 0 0 0 0)).withdrawTokens l

/-- A gang that has gone is pre-empted whole (R73); one that has not yet begun, once it has (R71). -/
def State.preemptGang (s : State) (l : Launch) (tell : Bool) : State :=
  let s := if tell && 1 < l.devices then
      s.mapDev (fun d => if l.record.devidx = 0 then d.broadcast l 0x15 0 0 0 0 else d.sendToken l 0 0x15 0 0 0 0)
    else s
  match l.phase with
  | .started => s.stopGang l
  | .go _ => s.mapDev (fun d => d.mapLaunch l.id (fun l => { l with relay := true }))
  | _ => s

/-- A request for a gang's resources, by its phase (R70 to R73). -/
def State.giveUp (s : State) (l : Launch) : State :=
  match l.phase with
  | .idle => s
  | .ready => if l.record.devidx = 0 then s.withdrawAll l else s.mapDev (fun d => d.sendToken l 0 0x12 0 0 0 0)
  | _ => s.preemptGang l true

/-- DTIME reaches the go time. At the thermal limit nothing is dispatched or restored, so the start waits (R144). -/
def execGangGoEffective (q n : Nat) (s : State) : Host.Outcome State Fault Refusal :=
  match s.dev.launch (q, n) with
  | none => .next s
  | some l =>
    match l.phase with
    | .go t => if t ≤ s.dev.time.dtime.toNat && !s.dev.thermal.limit then .next (s.startGang l) else .next s
    | _ => .next s

/-! ### HOLD is over (R82) -/

/-- BUSY of a HOLD clears when no hart of the context is left on the device. -/
def State.settleHold (s : State) : State :=
  let c := s.dev.sched
  let ctx := field c.cmd.toNat 0 12
  if c.busy && field c.cmd.toNat 12 4 == 1 && !(s.harts.any (fun h => h.ctx == ctx)) then
    s.mapSched (fun c => { c with busy := false })
  else s

/-! ### Barrier tokens (R21) -/

/-- The launch of a gang identifier. -/
def Device.gangLaunch (d : Device) (g : Nat) : Option Launch :=
  d.launches.find? (fun l => g != 0 && l.record.gangid == g && l.record.spansDevices)

/-- A token for a gang of this device; any other is discarded and counted. `h` gets the sender's index. -/
def State.onToken (s : State) (p : Nat) (f : Flit) (h : State → Launch → Nat → Option State) : State :=
  s.onFlit p f fun s => match s.dev.gangLaunch (flitAt f 2 2) with
    | none => none
    | some l => h s l (flitAt f 4 2)

/-- A system barrier whose current phase the token names. -/
def Device.tokenBarrier (d : Device) (l : Launch) (f : Flit) : Option Barrier :=
  let b := d.barrier l (flitAt f 6 2) 5 0
  if flitAt f 6 2 ≤ 15 ∧ flitAt f 20 4 = b.phase then some b else none

def execSystemBarrierArrival (p : Nat) (f : Flit) (s : State) : Host.Outcome State Fault Refusal :=
  .next (s.onToken p f fun s l dev =>
    match s.dev.tokenBarrier l f with
    | none => none
    | some b =>
      if l.record.devidx ≠ 0 then some s
      else
        let b := { b with remote := (dev, b.phase) :: b.remote.filter (fun x => x.1 != dev) }
        some ((s.mapDev (fun d => d.setBarrier b)).checkBarrier l b))

def execSystemBarrierRelease (p : Nat) (f : Flit) (s : State) : Host.Outcome State Fault Refusal :=
  .next (s.onToken p f fun s l _ => (s.dev.tokenBarrier l f).map s.releaseBarrier)

/-- The coordinator counts a device that is ready. -/
def execGangReady (p : Nat) (f : Flit) (s : State) : Host.Outcome State Fault Refusal :=
  .next (s.onToken p f fun s l dev =>
    let gone : Bool := match l.phase with
      | .go _ => true
      | .started => true
      | _ => false
    some (if l.record.devidx ≠ 0 ∨ gone then s else s.noteReady l dev (flitAt f 16 4)))

/-- Go arrives: at the effective time, or at once when that has passed (R72). -/
def execGangGo (p : Nat) (f : Flit) (s : State) : Host.Outcome State Fault Refusal :=
  .next (s.onToken p f fun s l _ =>
    let t := flitAt f 8 8
    some (if l.phase ≠ .ready then s
      else if t ≤ s.dev.time.dtime.toNat && !s.dev.thermal.limit then s.startGang l
      else s.mapDev (fun d => d.mapLaunch l.id (fun l => { l with phase := .go t }))))

/-- The coordinator withdraws the gang, or answers go when that is on its way and has the gang pre-empted (R71). -/
def execWithdrawRequest (p : Nat) (f : Flit) (s : State) : Host.Outcome State Fault Refusal :=
  .next (s.onToken p f fun s l dev =>
    some (if l.record.devidx ≠ 0 then s
      else match l.phase with
        | .go t => (s.mapDev (fun d => d.sendToken l dev 0x11 0 t 0 0)).preemptGang l true
        | .started => (s.mapDev (fun d => d.sendToken l dev 0x11 0 d.time.dtime.toNat 0 0)).preemptGang l true
        | _ => (s.withdrawAll l).settleHold))

def execWithdraw (p : Nat) (f : Flit) (s : State) : Host.Outcome State Fault Refusal :=
  .next (s.onToken p f fun s l _ => some (if l.phase = .ready then (s.withdrawTokens l).settleHold else s))

def execTokenProgress (p : Nat) (f : Flit) (s : State) : Host.Outcome State Fault Refusal :=
  .next (s.onToken p f fun s l _ =>
    some (s.mapDev (fun d => d.mapLaunch l.id (fun l => { l with progress := flitAt f 16 4 }))))

/-- From a member to the coordinator, which tells every member (R73). -/
def execPreemptionRelay (p : Nat) (f : Flit) (s : State) : Host.Outcome State Fault Refusal :=
  .next (s.onToken p f fun s l _ => some (s.preemptGang l (l.record.devidx == 0)))

/-- Every hart of the launch ends here as well (R74). -/
def execGangFailed (p : Nat) (f : Flit) (s : State) : Host.Outcome State Fault Refusal :=
  .next (s.onToken p f fun s l _ =>
    some ((s.mapDev (fun d => d.mapLaunch l.id (fun l => { l with gangFailed := true }))).endOthers l.id))

/-- The barriers of a launch with a number at which a member has arrived, or device members of a gang are to be told of (R298): ended members count
as arrived at a system barrier that none of them has named. -/
def Device.barriersOf (d : Device) (l : Launch) (bar : Nat) : List Barrier :=
  let mine := d.barriers.filter (fun b => b.queue == l.queue && b.seq == l.seq && b.num == bar && !(b.arrived.isEmpty && b.remote.isEmpty))
  if 1 < l.devices && !(mine.any (fun b => b.scope == 5)) && bar < 16 then mine ++ [d.barrier l bar 5 0] else mine

/-- A barrier's phase releases when every member has arrived or ended (R298, R299). -/
def execBarrierRelease (q n bar : Nat) (s : State) : Host.Outcome State Fault Refusal :=
  match s.dev.launch (q, n) with
  | none => .next s
  | some l =>
    .next ((s.dev.barriersOf l bar).foldl (fun s b => s.checkBarrier l b) s)

end Sys2Proof.Machine
end

