-- ==== Sys2Proof/Machine/VectorMemory.lean ====
section
/-! DEFINITION. Vector memory (R326 to R337): loads, stores, fault-first loads, scatter-add, vector atomics, segments and bit
planes, and the loads and stores of masks (R325). -/

namespace Sys2Proof.Machine

/-! ### Many accesses of one instruction (R329) -/

/-- A piece of an access: the element it belongs to, its address and its bytes. -/
structure Access where
  elem : Nat
  va : Nat
  n : Nat
deriving DecidableEq, Repr

/-- Translate and check every piece: those that pass with their places, the traps of the others, and whether an HS page is
touched. -/
def State.reachAll (s : State) (p : Purpose) (lane : Nat → Option Nat) :
    List Access → List (Access × List Place) × List Trap × Bool × State
  | [] => ([], [], false, s)
  | a :: rest =>
    match s.access a.va a.n p (some a.elem) (lane a.elem) with
    | .ok (ps, h, s) =>
      let (l, ts, hs, s) := State.reachAll s p lane rest
      ((a, ps) :: l, ts, h || hs, s)
    | .error (.trap t) =>
      let (l, ts, hs, s) := State.reachAll s p lane rest
      (l, t :: ts, hs, s)
    | .error _ => State.reachAll s p lane rest

/-- Translate and check every piece, or trap. -/
def State.reach (s : State) (p : Purpose) (lane : Nat → Option Nat) (l : List Access) :
    Except Stop (List (Access × List Place) × Bool × State) :=
  let (l, ts, hs, s) := s.reachAll p lane l
  match worst ts with
  | some t => .error (.trap t)
  | none => .ok (l, hs, s)

/-- Translate the pieces of an instruction that continues from its record (R420): its places stand, but a record that a restore has brought in
translates again, and keeps what its probe pass found of a piece that can be translated no more. `key` numbers the pieces. -/
def State.reachAgain (s : State) (p : Purpose) (lane : Nat → Option Nat) (r : InFlight) (key : Access → Nat) (l : List Access) :
    Except Stop (List (Access × List Place) × Bool × State) :=
  let kept := fun (a : Access) => match lookupKey (key a) r.places with
    | none => none
    | some ps =>
      if !r.resumed then some ps
      else match s.access a.va a.n p (some a.elem) (lane a.elem) with
        | .ok _ => none
        | .error _ => some ps
  (s.reach p lane (l.filter (fun a => (kept a).isNone))).bind fun (x, hs, s) =>
  .ok (l.filterMap (fun a => (kept a).map (fun ps => (a, ps))) ++ x, hs, s)

/-- The traps among some results, and what must be read from other nodes. -/
def stopsOf {α : Type} (l : List (Except Stop α)) : List Trap × List (Nat × Nat) :=
  (l.filterMap (fun r => match r with | .error (.trap t) => some t | _ => none),
   l.flatMap (fun r => match r with | .error (.wait _ need) => need | _ => []))

/-- Read every piece as a vector load does (R191), or trap, or wait for other nodes. -/
def State.readAll (s : State) (lane : Nat → Option Nat) (l : List (Access × List Place)) : Except Stop (List (List Byte)) :=
  let rs := l.map (fun x => s.loadVector x.2 x.1.va (some x.1.elem) (lane x.1.elem))
  let (ts, need) := stopsOf rs
  if !need.isEmpty then .error (.wait .memory need)
  else match worst ts with
    | some t => .error (.trap t)
    | none => .ok (rs.filterMap (fun r => match r with | .ok b => some b | .error _ => none))

/-- The lane of an element of `w` bits. -/
def Hart.lane (h : Hart) (w e : Nat) : Option Nat := some (h.elementLane w e)

/-! ### Loads (R327, R328, R332) -/

/-- The addresses of R327. -/
def unitAddr (w : Nat) (i : VIn) (e : Nat) : Nat := (i.cap.op1.toNat + e * (w / 8)) % 2 ^ 64
def stridedAddr (i : VIn) (e : Nat) : Nat := (i.cap.op1 + BitVec.ofNat 64 e * i.cap.op2).toNat
def indexedAddr (w j : Nat) (i : VIn) (e : Nat) : Nat := (i.cap.op1.toNat + (i.src j).elem w e) % 2 ^ 64

/-- A page with HS is touched by some accesses, as far as the translations that the brick holds say (R156). -/
def State.touchesHs (s : State) (lane : Nat → Option Nat) (l : List Access) : Bool :=
  l.any (fun a => !(inWindow a.va) && ([a.va, (a.va + a.n - 1) % 2 ^ 64].any (fun va =>
    match s.dev.tlbFind s.hart.brick s.hart.ctx s.hart.vmid va (s.hart.tlbOf .read (lane a.elem)) with
    | some e => e.hs
    | none => match s.dev.walk s.hart.ctx va with
      | .ok e => e.hs
      | .error _ => false)))

/-- Where one byte lies: its node, with this device and local memory as none. -/
def Device.nodeOfPlace (d : Device) (p : Place) : Option Nat :=
  match p with
  | .loc _ => none
  | .phys pa => if d.own pa then none else some (nodeOf pa % 4096)

/-- Consecutive reads of one 256-byte granule as one request over the bytes they touch (R160). -/
def granuleReads : List (Nat × Nat) → List (Nat × Nat)
  | [] => []
  | (pa, n) :: rest =>
    match granuleReads rest with
    | (pa', n') :: more =>
      if pa / 256 = pa' / 256 then (min pa pa', max (pa + n) (pa' + n') - min pa pa') :: more else (pa, n) :: (pa', n') :: more
    | [] => [(pa, n)]

/-- The read requests of an indexed access (R160): one for each 256-byte granule of another node. With eo the elements keep their order. -/
def granuleNeeds (eo : Bool) (need : List (Nat × Nat)) : List (Nat × Nat) :=
  granuleReads (if eo then need else sortBy (fun a b => a.1 ≤ b.1) need)

/-- What an element-ordered load has read of one of its pieces. -/
def takenOf (l : List Landed) (piece : Nat) : Option (List Byte) :=
  firstSome (fun x => match x with
    | Landed.value p b => if p = piece then some b else none
    | _ => none) l

/-- An element-ordered load (R192): its elements perform in ascending index. An element of another node is asked for once every lower one
has been read, or has been asked for from the same node, whose answers keep the order. The pieces are numbered; `got` is what has been read so
far, newest first, `need` what is to be asked for, `asked` its node, and `runs` makes requests of it. -/
def State.readInOrder (s : State) (lane : Nat → Option Nat) (runs : List (Nat × Nat) → List (Nat × Nat)) :
    List ((Access × List Place) × Nat) → Option (Option Nat) → List (Nat × Nat) → List Landed → Except Stop Unit × List Landed
  | [], _, need, got => (if need.isEmpty then .ok () else .error (.hold (runs need) got), got)
  | ((a, ps), j) :: rest, asked, need, got =>
    if (takenOf s.hart.landed j).isSome then State.readInOrder s lane runs rest asked need got
    else
      let nodes := distinct (ps.map s.dev.nodeOfPlace)
      if !(need.isEmpty || (nodes.length == 1 && asked == nodes.head?)) then (.error (.hold (runs need) got), got)
      else match s.loadVector ps a.va (some a.elem) (lane a.elem) with
        | .ok l => State.readInOrder s lane runs rest asked need (.value j l :: got)
        | .error (.trap t) => (if need.isEmpty then .error (.trap t) else .error (.hold (runs need) got), got)
        | .error (.wait _ more) => State.readInOrder s lane runs rest nodes.head? (need ++ more) got
        | .error (.hold more _) => State.readInOrder s lane runs rest nodes.head? (need ++ more) got

/-- The bytes of pieces, which perform in the order given. -/
def State.readOrdered (s : State) (lane : Nat → Option Nat) (runs : List (Nat × Nat) → List (Nat × Nat)) (l : List (Access × List Place)) :
    Except Stop (List (List Byte)) :=
  let (r, got) := s.readInOrder lane runs l.zipIdx none [] []
  r.bind fun _ => .ok ((List.range l.length).map (fun j => (takenOf (s.hart.landed ++ got) j).getD []))

/-- Read pieces in ascending order when they are `ordered`, else in any order. -/
def State.readPieces (s : State) (ordered : Bool) (lane : Nat → Option Nat) (l : List (Access × List Place)) : Except Stop (List (List Byte)) :=
  if ordered then s.readOrdered lane needRuns l else s.readAll lane l

/-- A load of elements of `w` bits at given addresses. With eo or on a page with HS its elements perform in order, in one step (R156,
R192). It reads every element before it writes one, so that none is written when one meets poison (R329, R332). What continues from a record
has translated its elements already (R420). -/
def loadSpec (w code d : Nat) (srcs : List Nat) (k : Nat) (ops : Word × Word) (eo plain const indexed : Bool) (addr : VIn → Nat → Nat)
    (s0 : State) : VSpec :=
  let list := fun (i : VIn) (lo : Nat) =>
    ((List.range i.cap.n).filter (fun e => i.active e && lo ≤ elementGroup i.nl w e && i.srcs.all (fun g => !(g.failedAt w e)))).map
      (fun e => ({ elem := e, va := addr i e, n := w / 8 } : Access))
  { code := code, dest := d, srcs := srcs, sel := k, width := w, destWidth := w, ops := ops, load := true, reusable := plain
    ok := fun c _ => c.w == w
    steps := fun i => if eo || s0.touchesHs (s0.hart.lane w) (list i 0) then 1 else groupCount i.nl w i.cap.n
    probe := fun s i => (s.reach .read (s.hart.lane w) (list i 0)).bind fun _ => .ok ()
    check := fun _ _ => false
    run := fun s i lo hi =>
      let ordered := eo || s0.touchesHs (s0.hart.lane w) (list i 0)
      let hi := if ordered then groupCount i.nl w i.cap.n else hi
      let mine := fun e => i.active e && lo ≤ elementGroup i.nl w e
      let found := match s.hart.resume with
        | some r => s.reachAgain .read (s.hart.lane w) r (·.elem) (list i lo)
        | none => s.reach .read (s.hart.lane w) (list i lo)
      found.bind fun (l, hs, s) =>
      (s.sound (i.srcs.map (fun g => (w, g))) mine i.cap.n).bind fun _ =>
      let l := sortBy (fun a b => a.1.elem ≤ b.1.elem) l
      let now := if s.hart.resume.isNone then l else l.filter (fun x => elementGroup i.nl w x.1.elem < hi)
      let read := if ordered then s.readOrdered (s.hart.lane w) (if indexed then granuleNeeds true else needRuns) now
        else match s.readAll (s.hart.lane w) now with
          | .error (.wait k need) => if indexed then .error (.hold (granuleNeeds false need) []) else .error (.wait k need)
          | x => x
      read.bind fun vals =>
      let table := (now.map (fun x => x.1.elem)).zip (vals.map ofLe)
      let (g, _) := i.each w w lo hi (fun e => ((lookupKey e table).getD 0, 0))
      let rs := ((List.range i.cap.n).filter i.active).all (fun e => s.stable (addr i e) (s.hart.lane w e) && s.stable (addr i e + w / 8 - 1) (s.hart.lane w e))
      .ok ({ group := g.seal (blocksOf i.nl i.cap.g) true, enter := !hs && l.all (fun x => !(inWindow x.1.va)), const := const && rs
             places := l.map (fun x => (x.1.elem, x.2)), vas := l.map (·.1.va) }, s) }

def execVld (d a k : Nat) (eo so : Bool) (w : Width) (h : Hint) (s : State) : Host.Outcome State Fault Refusal :=
  let b := 8 * w.bytes
  done (s.runV (loadSpec b (0xb0000000 + w.code * 16 + h.code) d [] k (s.x a, 0) eo (!eo && !so) (h == .const) false (unitAddr b) s))

def execVlds (d a b k : Nat) (eo so : Bool) (w : Width) (h : Hint) (s : State) : Host.Outcome State Fault Refusal :=
  done (s.runV (loadSpec (8 * w.bytes) (0xb0000004 + w.code * 16 + h.code) d [] k (s.x a, s.x b) eo (!eo && !so) (h == .const) false
    stridedAddr s))

def execVldx (d a b k : Nat) (eo so : Bool) (w : Width) (h : Hint) (s : State) : Host.Outcome State Fault Refusal :=
  let n := 8 * w.bytes
  done (s.runV (loadSpec n (0xb0000008 + w.code * 16 + h.code) d [b] k (s.x a, 0) eo (!eo && !so) (h == .const) true (indexedAddr n 0) s))

/-! ### Fault-first loads (R235, R333) -/

/-- Load elements in ascending order up to the first that meets a condition: the values, and that element unless it is 0. When the elements
are `ordered`, what has been read stays read while another node is to answer (R192): `got` is what this attempt has read. -/
def State.loadUpTo (s : State) (w : Nat) (ordered : Bool) (addr : Nat → Nat) (active : Nat → Bool) :
    List Nat → List Landed → Except Stop (List (Nat × Nat) × Option Nat × State)
  | [], _ => .ok ([], none, s)
  | e :: rest, got =>
    if !(active e) then State.loadUpTo s w ordered addr active rest got
    else
      let known := takenOf s.hart.landed e
      let now : Except Stop (List Byte × State) := match known with
        | some l => .ok (l, s)
        | none =>
          (s.access (addr e) (w / 8) .read (some e) (s.hart.lane w e)).bind fun (ps, _, s) =>
          (s.loadVector ps (addr e) (some e) (s.hart.lane w e)).bind fun l => .ok (l, s)
      match now with
      | .error (.trap t) => if e = 0 then .error (.trap t) else .ok ([], some e, s)
      | .error (.wait k need) => .error (if ordered then .hold (needRuns need) got else .wait k need)
      | .error x => .error x
      | .ok (l, s) =>
        match State.loadUpTo s w ordered addr active rest (if ordered && known.isNone then .value e l :: got else got) with
        | .ok (m, k, s) => .ok ((e, ofLe l) :: m, k, s)
        | .error x => .error x

/-- vldff (R333): a condition at a later element trims VL. -/
def State.faultFirst (s : State) (d a k w : Nat) (eo : Bool) : State :=
  let c := s.capture (s.x a) 0
  let need := s.chunkNeed d w c.n
  let s0 := s.boundary need
  s0.settle (
      (s0.roomFor need).bind fun _ =>
      (s0.needsLanes).bind fun _ =>
      (require (c.w == w && s0.groupOk c d c.g) illegalOperand).bind fun _ =>
      (s0.needsParts c.g).bind fun _ =>
      let i : VIn := { cap := c, nl := s0.hart.lanes, srcs := [], old := s0.hart.r.group s0.hart.lanes d c.g, mask := s0.selected k }
      let element0 := if i.active 0 && bit (s0.soundBits k) 0 then
          (s0.access (unitAddr w i 0) (w / 8) .read (some 0) (s0.hart.lane w 0)).bind fun _ => .ok ()
        else .ok ()
      (meets element0 (if k = 0 then .ok () else s0.soundMask k c.n)).bind fun _ =>
      let ordered := eo || s0.touchesHs (s0.hart.lane w)
        (((List.range c.n).filter i.active).map (fun e => { elem := e, va := unitAddr w i e, n := w / 8 }))
      (s0.loadUpTo w ordered (unitAddr w i) i.active (List.range c.n) []).bind fun (vals, trim, s1) =>
      let vl := match trim with
        | some e => BitVec.ofNat 14 e
        | none => c.vl
      let i := { i with cap := { c with vl := vl } }
      let (g, _) := i.each w w 0 (groupCount i.nl w c.n) (fun e => ((lookupKey e vals).getD 0, 0))
      let g := g.seal (blocksOf i.nl c.g) true
      let s2 := s1.mapRegs (fun r => { r with vl := vl })
      (s2.emitChunk d w vl.toNat i.active g).bind fun s3 =>
      let s4 := ((s3.setGroup d c.g g).nameGroup d vl c.vtype).retire
      .ok (if 256 < need then s4.endStrip s4.pc else s4))

def execVldff (d a k : Nat) (eo _so : Bool) (w : Width) (_h : Hint) (s : State) : Host.Outcome State Fault Refusal :=
  done (s.faultFirst d a k (8 * w.bytes) eo)

/-! ### Stores (R188, R189, R332) -/

/-- A vector store: `need` entries are counted; it is buffered, or a direct store in a strip of its own when no strip store
buffer can hold it. `srcs` are its data group and its index group, `w` its element width, `units` the pieces it stores with
their bytes; `idx` says that it is indexed. -/
structure StoreSpec where
  srcs : List Nat
  sel : Nat
  eo : Bool
  so : Bool
  idx : Bool := false
  ops : Word × Word
  w : Nat
  ok : Captured → Nat → Bool
  need : Captured → Nat
  units : VIn → List (Access × List Byte)

/-- The store of a piece; `eo` and `so` are its ordering bits. -/
def Access.store (a : Access) (ps : List Place) (data : List Byte) (eo so idx : Bool) : BufStore :=
  { va := a.va, place := ps, data := data, path := .v, elem := a.elem, soft := !so, eo := eo, idx := idx }

/-- What a store works on. -/
def State.storeIn (s : State) (v : StoreSpec) (c : Captured) (srcs : List Group) : VIn :=
  { cap := c, nl := s.hart.lanes, srcs := srcs, old := {}, mask := s.selected v.sel }

/-- The pieces of a store whose mask bit and index lie in no failed slot. -/
def State.storePieces (s : State) (v : StoreSpec) (i : VIn) : List (Access × List Byte) :=
  let good := bitsOf i.cap.n (fun e => (i.srcs.drop 1).all (fun g => !(g.failedAt v.w e)))
  v.units { i with mask := Nat.land (Nat.land i.mask (s.soundBits v.sel)) good }

/-- A direct store has performed some element groups (R189): it goes on later from its record, or its strip ends. -/
def State.directDone (s : State) (r : InFlight) (k total : Nat) : State :=
  if k < total then s.mapHart (fun h => h.keepRecord { r with groups := k })
  else
    let s := (s.settleStrip s.hart.serial).mapHart Hart.dropRecord
    s.endStrip s.pc

/-- What a store of a continued direct store still writes: the bytes that a higher element has performed stay (R161). `higher` lists the
elements that have performed with their places. -/
def BufStore.under (st : BufStore) (higher : List (Nat × List Place)) : List BufStore :=
  let gone := fun (p : Place) => higher.any (fun d => st.elem < d.1 && d.2.contains p)
  if st.place.any gone then
    ((st.place.zip st.data).zipIdx.filter (fun x => !(gone x.1.1))).map (fun x =>
      { st with va := st.va + x.2, place := [x.1.1], data := [x.1.2] })
  else [st]

/-- Continue a direct store from its progress index (R189): the element groups `done` to `k − 1`. -/
def State.continueStore (s : State) (v : StoreSpec) (r : InFlight) : State :=
  let c := r.cap
  let i := s.storeIn v c (v.srcs.map (fun u => s.hart.r.group s.hart.lanes u c.g))
  let total := groupCount i.nl v.w c.n
  let k := match s.hart.budget with
    | some b => min total (r.groups + b)
    | none => total
  let now := fun e => r.groups ≤ elementGroup i.nl v.w e && elementGroup i.nl v.w e < k
  let units := (v.units i).filter (fun x => now x.1.elem)
  let found := (s.soundMaskAt v.sel c.n now).bind fun _ =>
    (s.sound (i.srcs.map (fun g => (v.w, g))) (fun e => i.active e && now e) c.n).bind fun _ =>
    s.reachAgain .write (s.hart.lane v.w) r (·.va) (units.map (·.1))
  match found with
  | .error (.trap t) => s.trapRecord r t
  | .error _ => s
  | .ok (l, _, s) =>
    let stores := units.filterMap (fun x =>
      (firstSome (fun (y : Access × List Place) => if y.1 = x.1 then some y.2 else none) l).map (fun ps =>
        { x.1.store ps x.2 false v.so v.idx with part := true }))
    let higher := ((v.units i).filter (fun x => elementGroup i.nl v.w x.1.elem < r.groups)).filterMap (fun x =>
      (lookupKey x.1.va r.places).map (fun ps => (x.1.elem, ps)))
    (s.performGroup s.hart.serial (stores.flatMap (·.under higher))).directDone r k total

/-- Run it. -/
def State.storeV (s : State) (v : StoreSpec) : State :=
  match s.hart.resume with
  | some r => s.continueStore v r
  | none =>
    let c := s.capture v.ops.1 v.ops.2
    let need := v.need c
    let s0 := s.boundary need
    s0.settle (
        (s0.needsLanes).bind fun _ =>
        (require (v.ok c (s0.selected v.sel) && v.srcs.all (fun u => s0.groupOk c u c.g)) illegalOperand).bind fun _ =>
        (s0.roomFor need).bind fun _ =>
        let plain := s0.storeIn v c (v.srcs.map (fun u => s0.hart.r.group s0.hart.lanes u c.g))
        let probe := if s0.anyBound (v.srcs.drop 1) then .ok ()
          else (s0.reach .write (s0.hart.lane v.w) ((s0.storePieces v plain).map (·.1))).bind fun _ => .ok ()
        meets probe (
          (if v.sel = 0 then .ok () else s0.soundMask v.sel c.n).bind fun _ =>
          (s0.readGroups c c.g v.srcs []).bind fun (srcs, s1) =>
          let i := s1.storeIn v c srcs
          let us := s1.storePieces v i
          (s1.reach .write (s1.hart.lane v.w) (us.map (·.1))).bind fun (l, hs, s2) =>
          (s2.sound (srcs.map (fun g => (v.w, g))) i.active c.n).bind fun _ =>
          let eo := v.eo || hs
          let stores := (l.zip us).map (fun x => x.1.1.store x.1.2 x.2.2 eo v.so v.idx)
          let total := groupCount i.nl v.w c.n
          if need ≤ 256 then .ok (s2.mapHart (fun h => { h with strip := h.strip.add stores need })).retire
          else match s2.hart.budget with
            | some b =>
              -- one message of the scheduled class is not cut (R405)
              if eo ∨ s2.anyBound v.srcs ∨ total ≤ b ∨ (s2.messageTo stores).isSome then
                .ok (((s2.mapHart (fun h => { h with strip := h.strip.add stores need })).retire.endStrip (s2.pc + 4)).drain)
              else
                let r : InFlight := { word := s2.hart.iword, pc := s2.pc, cap := c, places := l.map (fun x => (x.1.va, x.2)), vas := l.map (·.1.va)
                                      start := some (s0.startOf s2.pc []) }
                let first := (stores.filter (fun st => elementGroup i.nl v.w st.elem < b)).map (fun st => { st with part := true })
                .ok (((s2.performGroup s2.hart.serial first).directDone r b total).retire)
            | none => .ok (((s2.mapHart (fun h => { h with strip := h.strip.add stores need })).retire.endStrip (s2.pc + 4)).drain)))

/-- The elements of a store at given addresses. -/
def storeUnits (w : Nat) (addr : VIn → Nat → Nat) (i : VIn) : List (Access × List Byte) :=
  ((List.range i.cap.n).filter i.active).map (fun e =>
    ({ elem := e, va := addr i e, n := w / 8 }, leBytes (w / 8) ((i.src 0).elem w e)))

def execVst (vs a k : Nat) (eo so : Bool) (w : Width) (_h : Hint) (s : State) : Host.Outcome State Fault Refusal :=
  let n := 8 * w.bytes
  done (s.storeV { srcs := [vs], sel := k, eo := eo, so := so, ops := (s.x a, 0), w := n, ok := fun c _ => c.w == n
                   need := fun c => stridedCount c.op1.toNat w.bytes w.bytes c.n, units := storeUnits n (unitAddr n) })

def execVsts (vs a b k : Nat) (eo so : Bool) (w : Width) (_h : Hint) (s : State) : Host.Outcome State Fault Refusal :=
  let n := 8 * w.bytes
  done (s.storeV { srcs := [vs], sel := k, eo := eo, so := so, ops := (s.x a, s.x b), w := n, ok := fun c _ => c.w == n
                   need := fun c => stridedCount c.op1.toNat c.op2.toInt w.bytes c.n, units := storeUnits n stridedAddr })

def execVstx (vs a b k : Nat) (eo so : Bool) (w : Width) (_h : Hint) (s : State) : Host.Outcome State Fault Refusal :=
  let n := 8 * w.bytes
  done (s.storeV { srcs := [vs, b], sel := k, eo := eo, so := so, idx := true, ops := (s.x a, 0), w := n, ok := fun c _ => c.w == n
                   need := fun c => 2 * c.n, units := storeUnits n (indexedAddr n 1) })

/-! ### Segments and bit planes (R336, R337) -/

/-- The format byte of a segment (R174). -/
def formatByte (d4 : Bool) : Nat := if d4 then 4 else 8

/-- The limits of vldseg and vstseg. -/
def segmentOk (w : Width) (c : Captured) (mask : Nat) : Bool :=
  w == .b1 && c.w == 8 && wholeBlocks c mask 32 && c.op1.toNat % 4 == 0

/-- The limits of vldpl and vstpl. -/
def planeOk (w : Width) (c : Captured) (mask : Nat) : Bool :=
  w == .b1 && c.w == 8 && c.n % 256 == 0 && wholeBlocks c mask 32

/-- The active blocks below VL. -/
def VIn.blocks (i : VIn) : List Nat := (List.range (i.cap.n / 32)).filter (fun b => bit i.mask (32 * b))

/-- Write the 32 bytes and the mortar byte of a block. -/
def Group.putBlock (g : Group) (b : Nat) (data : List Byte) (scale : Byte) : Group :=
  ((List.range 32).foldl (fun (g : Group) j => g.put 8 (32 * b + j) (data.getD j 0).toNat) g).setScale b scale

/-- The blocks that a load fills, the others below VL as KZ gives. `f` gives a block's bytes, scale and flag. -/
def VIn.fillBlocks (i : VIn) (f : Nat → List Byte × Byte × BitVec 5) : Group × Flags :=
  (List.range (i.cap.n / 32)).foldl (fun (acc : Group × Flags) b =>
    if bit i.mask (32 * b) then
      let (data, sc, fl) := f b
      (acc.1.putBlock b data sc, acc.2.add (32 * b) fl)
    else if i.cap.vtype.kz then (acc.1.putBlock b (zeros 32) 0, acc.2)
    else acc) (i.old, {})

/-- A load of whole blocks: `units` lists its pieces in ascending address order, in which they perform with eo and on a page with HS (R156,
R337), and `f` gives a block from what they read. -/
def State.loadBlocks (s : State) (d a k : Nat) (eo : Bool) (ok : Captured → Nat → Bool) (units : VIn → List Access)
    (f : VIn → List (Access × List Byte) → Nat → List Byte × Byte × BitVec 5) : State :=
  s.runV { wholeSpec 8 0 d [] k (fun c i => ok c i.mask) (fun s i =>
      (s.reach .read (s.hart.lane 8) (units i)).bind fun (l, hs, s) =>
      (s.readPieces (eo || hs) (s.hart.lane 8) l).bind fun vals =>
      let (g, fl) := i.fillBlocks (f i ((l.map (·.1)).zip vals))
      .ok ({ group := g.seal (blocksOf i.nl i.cap.g) false, flags := fl, enter := false }, s)) with
    reusable := false, ops := (s.x a, 0)
    probe := fun s i => (s.reach .read (s.hart.lane 8) (units i)).bind fun _ => .ok () }

/-- What was read at an address. -/
def readAt (l : List (Access × List Byte)) (va : Nat) : List Byte :=
  ((l.find? (fun x => x.1.va == va)).map (·.2)).getD []

def execVldseg (d a k : Nat) (f _so : Bool) (w : Width) (_h : Hint) (s : State) : Host.Outcome State Fault Refusal :=
  let at' := fun (i : VIn) (b : Nat) => (i.cap.op1.toNat + 36 * b) % 2 ^ 64
  done (s.loadBlocks d a k false (segmentOk w)
    (fun i => i.blocks.map (fun b => { elem := 32 * b, va := at' i b, n := 36 }))
    (fun i l b =>
      let g := readAt l (at' i b)
      if leAt g 33 1 = formatByte f ∧ leAt g 34 2 = 0 then (g.take 32, g.getD 32 0, 0)
      else (zeros 32, 0x80, NV)))

def execVldpl (d a k : Nat) (eo _so : Bool) (w : Width) (_h : Hint) (s : State) : Host.Outcome State Fault Refusal :=
  let at' := fun (i : VIn) (o : Nat) => (i.cap.op1.toNat + o) % 2 ^ 64
  done (s.loadBlocks d a k eo (planeOk w)
    (fun i => i.blocks.flatMap (fun b => (List.range 32).map (fun j => { elem := 32 * b + j, va := at' i (32 * b + j), n := 1 })) ++
      i.blocks.map (fun b => { elem := 32 * b, va := at' i (i.cap.n + b), n := 1 }))
    (fun i l b =>
      ((List.range 32).map (fun j => (readAt l (at' i (32 * b + j))).getD 0 0), (readAt l (at' i (i.cap.n + b))).getD 0 0, 0)))

/-- The bytes of a block of the data group. -/
def VIn.blockBytes (i : VIn) (b : Nat) : List Byte := leBytes 32 (field (i.src 0).bits (256 * b) 256)

def execVstseg (vs a k : Nat) (f so : Bool) (w : Width) (_h : Hint) (s : State) : Host.Outcome State Fault Refusal :=
  done (s.storeV { srcs := [vs], sel := k, eo := false, so := so, ops := (s.x a, 0), w := 8, ok := segmentOk w
                   need := fun c => entryCount c.op1.toNat (36 * (c.n / 32))
                   units := fun i => i.blocks.map (fun b =>
                     ({ elem := 32 * b, va := (i.cap.op1.toNat + 36 * b) % 2 ^ 64, n := 36 },
                      i.blockBytes b ++ [(i.src 0).scale b, BitVec.ofNat 8 (formatByte f), 0, 0])) })

def execVstpl (vs a k : Nat) (eo so : Bool) (w : Width) (_h : Hint) (s : State) : Host.Outcome State Fault Refusal :=
  done (s.storeV { srcs := [vs], sel := k, eo := eo, so := so, ops := (s.x a, 0), w := 8, ok := planeOk w
                   need := fun c => entryCount c.op1.toNat (c.n + c.n / 32)
                   units := fun i =>
                     i.blocks.flatMap (fun b => (List.range 32).map (fun j =>
                       ({ elem := 32 * b + j, va := (i.cap.op1.toNat + 32 * b + j) % 2 ^ 64, n := 1 },
                        leBytes 1 ((i.src 0).elem 8 (32 * b + j))))) ++
                     i.blocks.map (fun b =>
                       ({ elem := 32 * b, va := (i.cap.op1.toNat + i.cap.n + b) % 2 ^ 64, n := 1 }, [(i.src 0).scale b])) })

/-! ### Scatter-add (R163, R334) -/

/-- Step 1: the elements of one address are combined in ascending element index. -/
def combine (add : Nat → Nat → Nat × BitVec 5) : List (Nat × Nat × Nat) → List (Nat × Nat × Nat) × Flags
  | [] => ([], {})
  | (va, e, v) :: rest => go va e v {} rest
where
  go (va e c : Nat) (fl : Flags) : List (Nat × Nat × Nat) → List (Nat × Nat × Nat) × Flags
    | [] => ([(va, e, c)], fl)
    | (va', e', v') :: rest =>
      if va' = va then
        let (c', f) := add c v'
        go va e c' (fl.add e' f) rest
      else
        let (l, f) := go va' e' v' fl rest
        ((va, e, c) :: l, f)

/-- The trap of a misaligned atomic element (R162, R329), with those of translation. -/
def State.reachAtomic (s : State) (w : Nat) (l : List Access) : Except Stop (List (Access × List Place) × Bool × State) :=
  let bad := l.find? (fun a => a.va % a.n != 0)
  match bad with
  | some a => .error (.trap { cause := 0x02, elem := some a.elem, lane := s.hart.lane w a.elem })
  | none => s.reach .write (s.hart.lane w) l

def execVstxadd (vs a b k : Nat) (w : Width) (f : Bool) (s : State) : Host.Outcome State Fault Refusal :=
  let n := 8 * w.bytes
  let c := s.capture (s.x a) 0
  let s0 := s.splitAndDrain
  done (s0.settle (
      (s0.needsLanes).bind fun _ =>
      (require (32 ≤ n && c.w == n && s0.groupOk c vs c.g && s0.groupOk c b c.g) illegalOperand).bind fun _ =>
      let vin := fun (s : State) (srcs : List Group) =>
        ({ cap := c, nl := s.hart.lanes, srcs := srcs, old := {}, mask := s0.selected k } : VIn)
      let pieces := fun (i : VIn) => ((List.range c.n).filter (fun e =>
          i.active e && bit (s0.soundBits k) e && !((i.src 1).failedAt n e))).map
        (fun e => ({ elem := e, va := indexedAddr n 1 i e, n := n / 8 } : Access))
      let probe := if s0.anyBound [b] then .ok ()
        else (s0.reachAtomic n (pieces (vin s0 [{}, s0.hart.r.group s0.hart.lanes b c.g]))).bind fun _ => .ok ()
      meets probe (
      (if k = 0 then .ok () else s0.soundMask k c.n).bind fun _ =>
      (s0.readGroups c c.g [vs, b] []).bind fun (srcs, s1) =>
      let i := vin s1 srcs
      (s1.reachAtomic n (pieces i)).bind fun (l, hs, s2) =>
      (s2.sound [(n, i.src 1), (n, i.src 0)] i.active c.n).bind fun _ =>
      let items := sortBy (fun (x y : Nat × Nat × Nat) => x.1 ≤ y.1)
        (l.map (fun x => (x.1.va, x.1.elem, (i.src 0).elem n x.1.elem)))
      let add := fun x y => if f then fpAdd (if n = 32 then .fp32 else .fp64) c.rm x y else ((x + y) % 2 ^ n, 0)
      let (sums, fl) := combine add items
      let stores := sums.map (fun x =>
        { va := x.1, place := ((l.find? (fun y => y.1.va == x.1)).map (·.2)).getD [], data := leBytes (n / 8) x.2.2, path := .a,
          op := if f then .addFp c.rm else .addInt, elem := x.2.1, eo := hs : BufStore })
      let s3 := ((s2.mergeFlags fl).mapHart (fun h => { h with strip := h.strip.add stores 0 })).retire
      .ok (s3.endStrip s3.pc))))

/-! ### Vector atomics (R335) -/

/-- The marks of R20 for an element of another node: bit 0 on the first and bit 1 on the last element of its address. -/
def groupMarks (l : List Access) (a : Access) : Nat :=
  let same := (l.filter (fun x => x.va == a.va)).map (·.elem)
  (if same.head? = some a.elem then 1 else 0) + (if same.getLast? = some a.elem then 2 else 0)

/-- The elements of a vector atomic perform in ascending element index: the values found, and the failures by address. -/
def State.atomicsAll (s : State) (op w : Nat) (data : Nat → Nat) :
    List (Access × List Place) → List (Nat × Nat) × List (Nat × Nat) × State
  | [] => ([], [], s)
  | (a, ps) :: rest =>
    match s.atomicAt (ps.headD (.loc 0)) a.va op (w / 8) 0 (data a.elem) 0 a.elem 3 with
    | .ok (st, _, old, s) =>
      let (l, bad, s) := State.atomicsAll s op w data rest
      if st = 0 then ((a.elem, old) :: l, bad, s) else ((a.elem, 0) :: l, (st, a.va) :: bad, s)
    | .error _ => State.atomicsAll s op w data rest

/-- What an element of a vector atomic has found, and STATUS as in R20. -/
def answerOf (l : List Landed) (e : Nat) : Option (Nat × Nat) :=
  firstSome (fun x => match x with
    | Landed.atomic e' st old => if e' = e then some (st, old.toNat) else none
    | _ => none) l

/-- The elements of a vector atomic on a page with HS apply in ascending element index (R330), whatever nodes they name: those of this device
once every lower one has been answered, and those of another node once every lower one has or is on its way to the same node, which keeps
their order. What is done stands among what has landed. The answer says whether all are done; `asked` is the node that is to answer. -/
def State.atomicsInOrder (op w : Nat) (data marks : Access → Nat) :
    List (Access × List Place) → Option Nat → State → Bool × State
  | [], asked, s => (asked.isNone, s)
  | (a, ps) :: rest, asked, s =>
    if (answerOf s.hart.landed a.elem).isSome then State.atomicsInOrder op w data marks rest asked s
    else
      let p := ps.headD (.loc 0)
      match s.dev.nodeOfPlace p, p with
      | some node, .phys pa =>
        if asked.isSome ∧ asked ≠ some node then (false, s)
        else
          let s := s.askAtomic pa a.va op (w / 8) 0 (data a) 0 a.elem (marks a)
          State.atomicsInOrder op w data marks rest (if (answerOf s.hart.landed a.elem).isSome then asked else some node) s
      | _, _ =>
        if asked.isSome then (false, s)
        else match s.atomicAt p a.va op (w / 8) 0 (data a) 0 a.elem 3 with
          | .ok (st, _, old, s) =>
            State.atomicsInOrder op w data marks rest none
              (s.mapHart (fun h => { h with landed := h.landed ++ [.atomic a.elem st (BitVec.ofNat 64 old)] }))
          | .error _ => (false, s)

/-- The values found and the failures by address, from what has landed. -/
def answersOf (l : List (Access × List Place)) (landed : List Landed) : List (Nat × Nat) × List (Nat × Nat) :=
  (l.map (fun x => (x.1.elem, match answerOf landed x.1.elem with
    | some (0, old) => old
    | _ => 0)),
   l.filterMap (fun x => match answerOf landed x.1.elem with
    | some (0, _) => none
    | some (st, _) => some (st, x.1.va)
    | none => none))

/-- One report for each kind of failure, with the lowest address (R244, R335). -/
def State.atomicReports (s : State) (bad : List (Nat × Nat)) : State :=
  [(2, 0x01), (1, 0x03), (4, 0x04)].foldl (fun s (k : Nat × Nat) =>
    match (bad.filter (fun b => b.1 == k.1)).map (·.2) with
    | [] => s
    | v :: rest => s.atomicReport k.2 (rest.foldl min v)) s

/-- A vector atomic with the operation code `op` of R20. Elements of other nodes are asked first, and the hart waits for them. -/
def State.vamo (s : State) (d a b k op : Nat) (w : Width) : State :=
  let n := 8 * w.bytes
  let c := s.capture (s.x a) 0
  let s0 := s.splitAndDrain
  let pieces := fun (i : VIn) => ((List.range c.n).filter (fun e =>
      i.active e && bit (s0.soundBits k) e && !((i.src 0).failedAt n e))).map
    (fun e => ({ elem := e, va := indexedAddr n 0 i e, n := n / 8 } : Access))
  let vin := fun (s : State) (srcs : List Group) =>
    ({ cap := c, nl := s.hart.lanes, srcs := srcs, old := s.hart.r.group s.hart.lanes d c.g, mask := s0.selected k } : VIn)
  s0.settle (
      (s0.needsLanes).bind fun _ =>
      (require (32 ≤ n && c.w == n && s0.groupOk c d c.g && s0.groupOk c b c.g) illegalOperand).bind fun _ =>
      (s0.needsParts c.g).bind fun _ =>
      let plain := vin s0 [s0.hart.r.group s0.hart.lanes b c.g]
      let probe := if s0.anyBound [b] then .ok ()
        else (s0.reachAtomic n (pieces plain)).bind fun _ => s0.probeChunk d n c.n plain.active
      meets probe (
        (if k = 0 then .ok () else s0.soundMask k c.n).bind fun _ =>
        (s0.readGroups c c.g [b, d] []).bind fun (srcs, s1) =>
        let i := vin s1 srcs
        (s1.reachAtomic n (pieces i)).bind fun (l, hs, s2) =>
        (s2.sound [(n, i.src 0), (n, i.src 1)] i.active c.n).bind fun _ =>
        let data := fun e => (i.src 1).elem n e
        let away := l.filter (fun x => match x.2.headD (.loc 0) with
          | .phys pa => !(s2.dev.own pa)
          | .loc _ => false)
        let finish := fun (s3 : State) (vals bad : List (Nat × Nat)) =>
          let (g, _) := i.each n n 0 (groupCount i.nl n c.n) (fun e => ((lookupKey e vals).getD 0, 0))
          let g := g.seal (blocksOf i.nl c.g) true
          (s3.emitChunk d n c.n i.active g).bind fun s4 =>
          let s5 := ((s4.setGroup d c.g g).nameGroup d c.vl c.vtype).retire
          let s6 := s5.atomicReports bad
          .ok (s6.endStrip s6.pc)
        -- elements of one address go one after another (R20)
        let order := sortBy (fun x y => x.1.va ≤ y.1.va) away
        let asked := order.foldl (fun s x => match x.2.headD (.loc 0) with
          | .phys pa => s.askAtomic pa x.1.va op (n / 8) 0 (data x.1.elem) 0 x.1.elem (groupMarks (l.map (·.1)) x.1)
          | .loc _ => s) s0
        if !s0.allPerformed || s2.groupHolds (l.flatMap (·.2)) then .ok (s0.waitFor .memory [])
        else if hs then
          let (all, t) := s0.atomicsInOrder op n (fun a => data a.elem) (groupMarks (l.map (·.1))) l none
          if !all then .ok (t.waitFor .memory [])
          else
            (t.readGroups c c.g [b, d] []).bind fun (_, t1) =>
            (t1.reachAtomic n (pieces i)).bind fun (_, _, t2) =>
            finish t2 (answersOf l t.hart.landed).1 (answersOf l t.hart.landed).2
        else if !(away.all (fun x => (answerOf asked.hart.landed x.1.elem).isSome)) then .ok (asked.waitFor .memory [])
        else
          let (vals, bad, s3) := (s2.mapHart (fun h => { h with landed := asked.hart.landed })).atomicsAll op n data l
          finish s3 vals bad))

def execVamoadd (d a b k : Nat) (w : Width) (s : State) : Host.Outcome State Fault Refusal := done (s.vamo d a b k 0 w)
def execVamomin (d a b k : Nat) (w : Width) (n : Bool) (s : State) : Host.Outcome State Fault Refusal :=
  done (s.vamo d a b k (if n then 4 else 3) w)
def execVamomax (d a b k : Nat) (w : Width) (n : Bool) (s : State) : Host.Outcome State Fault Refusal :=
  done (s.vamo d a b k (if n then 6 else 5) w)
def execVamoswap (d a b k : Nat) (w : Width) (s : State) : Host.Outcome State Fault Refusal := done (s.vamo d a b k 1 w)

/-! ### Masks in memory (R325) -/

/-- The bytes that kld and kst move: byte b belongs to element 8 b. -/
def maskPieces (va n : Nat) : List Access := (List.range (divUp n 8)).map (fun b => { elem := 8 * b, va := (va + b) % 2 ^ 64, n := 1 })

def execKld (d a : Nat) (s : State) : Host.Outcome State Fault Refusal :=
  let n := s.hart.r.vl.toNat
  let lane := s.hart.lane s.hart.r.vtype.bits
  done (s.settle (
    (s.needsLanes).bind fun _ =>
    (s.reach .read lane (maskPieces (s.x a).toNat n)).bind fun (l, hs, s1) =>
    (s1.readPieces hs lane l).bind fun vals =>
    .ok (s1.setMask d n (ofLe vals.flatten)).retire))

def execKst (ks a : Nat) (s : State) : Host.Outcome State Fault Refusal :=
  let n := s.hart.r.vl.toNat
  let lane := s.hart.lane s.hart.r.vtype.bits
  let need := entryCount (s.x a).toNat (divUp n 8)
  let s0 := s.makeRoom need
  let bytes := leBytes (divUp n 8) (s.mask ks % 2 ^ n)
  done (s0.settle (
      (s0.roomFor need).bind fun _ =>
      (s0.needsLanes).bind fun _ =>
      (s0.reach .write lane (maskPieces (s.x a).toNat n)).bind fun (l, hs, s1) =>
      (s1.soundMask ks n).bind fun _ =>
      let stores := (l.zip bytes).map (fun x => { x.1.1.store x.1.2 [x.2] hs false false with part := true })
      .ok (s1.mapHart (fun h => { h with strip := h.strip.add stores need })).retire))

end Sys2Proof.Machine
end

