-- ==== Sys2Proof/Machine/Tiles.lean ====
section
/-! DEFINITION. Tiles (R374 to R387): claims, outer products, tile loads and stores, and slice moves. -/

namespace Sys2Proof.Machine

/-! ### Tile state (R374, R375) -/

/-- Element (r, c) of a tile, or of the pair of an even tile at 64 bits (R374). -/
def Regs.tileElem (x : Regs) (w t r c : Nat) : Nat :=
  if w = 64 then field (x.tile.getD (t + c / 8) 0).toNat (64 * (8 * r + c % 8)) 64
  else field (x.tile.getD t 0).toNat (32 * (16 * r + c)) 32

/-- The 64-bit slot of a tile that holds element (r, c): tile and slot. -/
def tileSlot (w t r c : Nat) : Nat × Nat := if w = 64 then (t + c / 8, 8 * r + c % 8) else (t, (16 * r + c) / 2)

/-- Write element (r, c). A failed slot that is written whole is sound again. -/
def Regs.setTileElem (x : Regs) (w t r c v : Nat) : Regs :=
  let (u, slot) := tileSlot w t r c
  let lo := if w = 64 then 64 * slot else 32 * (16 * r + c)
  let new := BitVec.ofNat 8192 (setField (x.tile.getD u 0).toNat lo w v)
  let sound := if w = 64 then BitVec.ofNat 128 (setField (x.tfail.getD u 0).toNat slot 1 0) else x.tfail.getD u 0
  { x with tile := x.tile.setIfInBounds u new, tfail := x.tfail.setIfInBounds u sound }

/-- Whether element (r, c) lies in a failed slot. -/
def Regs.tileFailed (x : Regs) (w t r c : Nat) : Bool :=
  let (u, slot) := tileSlot w t r c
  bit (x.tfail.getD u 0).toNat slot

/-- Insist that the tiles an instruction names are enabled: one, or a pair when the named tile is even (R375). -/
def State.tilesEnabled (s : State) (pair : Bool) (t : Nat) : Except Stop Unit :=
  let on := fun n => s.hart.r.ten.getLsbD n
  require (on t && (!pair || t % 2 == 1 || on (t + 1))) (.trap { cause := 0x04 })

/-- A tile instruction that reads neither VL nor VTYPE needs a lane group only (R376). -/
def State.needsLanesOnly (s : State) : Except Stop Unit := require (!s.hart.scalarOnly) illegalInstr

/-- Whether a tile has a failed word. -/
def State.tileSound (s : State) (w t : Nat) (on : Nat → Nat → Bool) : Except Stop Unit :=
  match (List.range 256).find? (fun e => on (e / 16) (e % 16) && s.hart.r.tileFailed w t (e / 16) (e % 16)) with
  | some e => .error (failedSlot 4 (some e) none)
  | none => .ok ()

/-! ### Claiming and releasing (R105, R378 to R380) -/

def State.doTileon (s : State) (n : Nat) : State :=
  s.settle (
    (s.needsLanesOnly).bind fun _ =>
    (require (1 ≤ n && n ≤ 8 && s.hart.r.ncl == 0) illegalOperand).bind fun _ =>
    if !(s.canClaim (·.tileRes) Hart.claims (n - s.hart.spareTiles)) then .error (.wait (.tileon n) [])
    else .ok (s.mapRegs (fun r =>
      { r with
        ncl := BitVec.ofNat 4 n
        ten := BitVec.ofNat 8 (2 ^ n - 1)
        claim := r.claim + 1
        tile := Vector.ofFn (fun t => if t.val < n then 0 else r.tile[t])
        tfail := Vector.ofFn (fun t => if t.val < n then 0 else r.tfail[t]) })).retire)

def execTileon (n : Nat) (s : State) : Host.Outcome State Fault Refusal := done (s.doTileon n)

/-- The claim is released: other harts get its tiles when the strip closes (R379). -/
def State.releaseTiles (s : State) : State :=
  (s.mapHart (fun h => { h with freed := if h.r.ncl = 0 then h.freed else (h.r.claim, h.r.ncl.toNat) :: h.freed })).mapRegs (fun r =>
    { r with ncl := 0, ten := 0 })

def execTileoff (s : State) : Host.Outcome State Fault Refusal :=
  done (s.settle ((s.needsLanesOnly).bind fun _ => .ok s.releaseTiles.retire))

/-- Write a whole tile. -/
def State.setTile (s : State) (t : Nat) (v : Wide) : State :=
  s.mapRegs (fun r => { r with tile := r.tile.setIfInBounds t v, tfail := r.tfail.setIfInBounds t 0 })

def execTzero (t : Nat) (s : State) : Host.Outcome State Fault Refusal :=
  done (s.settle (
    (s.needsLanesOnly).bind fun _ =>
    (s.tilesEnabled false t).bind fun _ => .ok (s.setTile t 0).retire))

/-! ### Outer products (R381) -/

/-- The SEW of a topa type, its element type, and its accumulator. -/
def topaType (y : Nat) : Nat × VType1 × FpFmt :=
  match y with
  | 0 => (64, .fp .fp64, .fp64)
  | 1 => (32, .fp .fp32, .fp32)
  | 2 => (16, .fp .bf16, .fp32)
  | 3 => (16, .fp .fp16, .fp32)
  | 4 => (8, .narrow .d8, .fp32)
  | _ => (8, .narrow .d4, .fp32)

/-- The terms of element (r, c): K exact products. -/
def topaTerms (e : VType1) (a b : Group) (k r c : Nat) : List Term :=
  (List.range k).map (fun j =>
    let (p, f) := productOf (a.factor e (16 * j + r)) (b.factor e (16 * j + c))
    some (16 * r + c, p, f))

def State.topa (s : State) (grouped : Bool) (t a b k y : Nat) : State :=
  let c := s.capture 0 0
  let (w, e, acc) := topaType y
  let per := if y = 5 then 2 else 1
  let aw := fpWidth acc
  s.settle (
    (s.needsLanes).bind fun _ =>
    (s.tilesEnabled (y == 0) t).bind fun _ =>
    (require (c.w == w && c.n * per % 16 == 0 && (y != 0 || t % 2 == 0) && s.groupOk c a c.g && s.groupOk c b c.g)
      illegalOperand).bind fun _ =>
    (if k = 0 then .ok () else s.soundMask k 32).bind fun _ =>
    (s.readGroups c c.g [a, b] []).bind fun (srcs, s1) =>
    let va := srcs.headD {}
    let vb := srcs.getD 1 {}
    let m := if k = 0 then 2 ^ 32 - 1 else s.mask k
    let rowon := fun r => bit m r
    let colon := fun n => bit m (16 + n)
    let anyRow := (List.range 16).any rowon
    let anyCol := (List.range 16).any colon
    let reads := fun (on : Nat → Bool) (other : Bool) (i : Nat) => other && (List.range per).any (fun j => on ((i * per + j) % 16))
    (s1.sound [(w, va)] (reads rowon anyCol) c.n).bind fun _ =>
    (s1.sound [(w, vb)] (reads colon anyRow) c.n).bind fun _ =>
    let terms := c.n * per / 16
    (if terms = 0 then .ok () else s1.tileSound aw t (fun r n => rowon r && colon n)).bind fun _ =>
    let (regs, fl) := if terms = 0 then (s1.hart.r, []) else (List.range 256).foldl (fun (x : Regs × List (Nat × BitVec 5)) i =>
      if rowon (i / 16) && colon (i % 16) then
        let (v, fl) := sumTerms grouped acc c.rm (s1.hart.r.tileElem aw t (i / 16) (i % 16)) (topaTerms e va vb terms (i / 16) (i % 16))
        (x.1.setTileElem aw t (i / 16) (i % 16) v, fl ++ x.2)
      else x) (s1.hart.r, [])
    .ok ((s1.mapRegs (fun _ => regs)).mergeFlags (flagsOf fl)).retire)

def execTopaS (t a b k y : Nat) (s : State) : Host.Outcome State Fault Refusal := done (s.topa false t a b k y)
def execTopaG (t a b k y : Nat) (s : State) : Host.Outcome State Fault Refusal := done (s.topa true t a b k y)

/-! ### Tile loads and stores (R384, R385) -/

/-- The words of a tile access. -/
def tileWords (xa xb : Word) : List Access :=
  (List.range 256).map (fun i =>
    { elem := i, va := (xa + BitVec.ofNat 64 (i / 16) * xb + BitVec.ofNat 64 (4 * (i % 16))).toNat, n := 4 })

def noLane (_ : Nat) : Option Nat := none

def execTld (t a b : Nat) (_h : Hint) (s : State) : Host.Outcome State Fault Refusal :=
  done (s.settle (
    (s.needsLanesOnly).bind fun _ =>
    (s.tilesEnabled false t).bind fun _ =>
    (s.reach .read noLane (tileWords (s.x a) (s.x b))).bind fun (l, hs, s1) =>
    (s1.readPieces hs noLane l).bind fun vals =>
    .ok (s1.setTile t (BitVec.ofNat 8192 (ofLe vals.flatten))).retire))

/-- The entries of a tile store: row by row (R385). -/
def tileEntries (xa xb : Word) : Nat :=
  (List.range 16).foldl (fun n r => n + entryCount (xa + BitVec.ofNat 64 r * xb).toNat 64) 0

def execTst (t a b : Nat) (_h : Hint) (s : State) : Host.Outcome State Fault Refusal :=
  let need := tileEntries (s.x a) (s.x b)
  let s0 := s.makeRoom need
  done (s0.settle (
      (s0.roomFor need).bind fun _ =>
      (s0.needsLanesOnly).bind fun _ =>
      (s0.tilesEnabled false t).bind fun _ =>
      (s0.reach .write noLane (tileWords (s.x a) (s.x b))).bind fun (l, hs, s1) =>
      (s1.tileSound 32 t (fun _ _ => true)).bind fun _ =>
      let stores := l.map (fun x => x.1.store x.2 (leBytes 4 (s1.hart.r.tileElem 32 t (x.1.elem / 16) (x.1.elem % 16))) hs false false)
      .ok (s1.mapHart (fun h => { h with strip := h.strip.add stores need })).retire))

/-! ### Slice moves (R386, R387) -/

/-- The position of element `i` from row or column `f` on. -/
def slicePos (cols : Bool) (f i : Nat) : Nat × Nat := if cols then (i % 16, f + i / 16) else (f + i / 16, i % 16)

/-- The limits of a slice move. -/
def sliceOk (c : Captured) (t : Nat) : Bool :=
  (c.w == 32 || (c.w == 64 && t % 2 == 0)) && c.op1.toNat < 16 && c.op1.toNat + divUp c.n 16 ≤ 16

/-- Tile slices into a vector. -/
def State.sliceOut (s : State) (cols : Bool) (d t a k : Nat) : State :=
  let c := s.capture (s.x a) 0
  let w := c.w
  let first := (s.needsLanes).bind fun _ => s.tilesEnabled (w == 64) t
  match s.hart.resume, first with
  | none, .error e => s.settle (.error e)
  | _, _ =>
    let pos := fun (i : VIn) (e : Nat) => slicePos cols i.cap.op1.toNat e
    s.runV { elementSpec w w 0 d [] k (fun c _ => sliceOk c t) (fun _ _ => (0, 0)) with
      reusable := false
      ops := (s.x a, 0)
      run := fun s i lo hi =>
        let mine := fun e => i.active e && lo ≤ elementGroup i.nl w e && elementGroup i.nl w e < hi
        match (List.range i.cap.n).find? (fun e => mine e && s.hart.r.tileFailed w t (pos i e).1 (pos i e).2) with
        | some e => .error (failedSlot 4 (some e) (some (s.hart.elementLane w e)))
        | none =>
          let (g, _) := i.each w w lo hi (fun e => (s.hart.r.tileElem w t (pos i e).1 (pos i e).2, 0))
          .ok ({ group := g.seal (blocksOf i.nl i.cap.g) true, enter := false }, s) }

def execTmvr (d t a k : Nat) (s : State) : Host.Outcome State Fault Refusal := done (s.sliceOut false d t a k)
def execTmvc (d t a k : Nat) (s : State) : Host.Outcome State Fault Refusal := done (s.sliceOut true d t a k)

/-- A vector into tile slices. -/
def State.sliceIn (s : State) (cols : Bool) (t v a : Nat) : State :=
  let c := s.capture (s.x a) 0
  s.settle (
    (s.needsLanes).bind fun _ =>
    (s.tilesEnabled (c.w == 64) t).bind fun _ =>
    (require (sliceOk c t && s.groupOk c v c.g) illegalOperand).bind fun _ =>
    (s.readGroup c v c.g).bind fun (g, s1) =>
    (s1.sound [(c.w, g)] (fun _ => true) c.n).bind fun _ =>
    let regs := (List.range c.n).foldl (fun (x : Regs) e =>
      let p := slicePos cols c.op1.toNat e
      x.setTileElem c.w t p.1 p.2 (g.elem c.w e)) s1.hart.r
    .ok (s1.mapRegs (fun _ => regs)).retire)

def execTvmr (t vs a : Nat) (s : State) : Host.Outcome State Fault Refusal := done (s.sliceIn false t vs a)
def execTvmc (t vs a : Nat) (s : State) : Host.Outcome State Fault Refusal := done (s.sliceIn true t vs a)

end Sys2Proof.Machine
end

