-- ==== Sys2Proof/Machine/HartEvents.lean ====
section
/-! DEFINITION. What happens to a hart between its instructions: strips that close (R187, R190), waits that end (R142, R177, R301,
R378), vector instructions that complete (R116, R158, R219), auto gear (R138, R142), a changeover's end (R135), and CSR writes
that waited (R128, R220). A step whose condition does not hold changes nothing (DEDUCED, log 17). -/

namespace Sys2Proof.Machine

/-- Something happens to a running hart. -/
def State.onHart (s : State) (b n : Nat) (f : State → State) : State :=
  s.withHart b n (fun s => if s.hart.run = .running then f s else s)

/-- The oldest strip closes once its instructions have finished (R190). -/
def execStripClose (b n : Nat) (s : State) : Host.Outcome State Fault Refusal :=
  .next (s.onHart b n fun s => if s.hart.inflight.isEmpty then s.closeOldest else s)

/-- A boundary falls before the next instruction that the scalar side issues (R187). -/
def execStoreBufferTimeout (b n : Nat) (s : State) : Host.Outcome State Fault Refusal :=
  .next (s.onHart b n fun s =>
    if s.hart.strip.stores.isEmpty then s else s.mapHart (fun h => { h with timeout := true }))

/-- The claim is tried; a tileon that finds too few tiles waits on, and none is served during a changeover (R135). -/
def execTileClaimServed (b n : Nat) (s : State) : Host.Outcome State Fault Refusal :=
  .next (s.onHart b n fun s => match s.hart.wait with
    | .tileon k =>
      if s.brick.change.isSome then s
      else match s.hart.vqueue with
        | q :: rest => if isTileon q.word && s.hart.inflight.isEmpty && s.hart.entry.isNone then ((s.asOf q).doTileon k).putBack s q rest else s
        | [] => s.doTileon k
    | _ => s)

/-- The permits are looked for; an smcast that finds too few waits on, and none starts during a changeover (R135). -/
def execSmcastStart (b n : Nat) (s : State) : Host.Outcome State Fault Refusal :=
  .next (s.onHart b n fun s => match s.hart.vqueue with
    | q :: rest =>
      if isSmcast q.word && s.brick.change.isNone && s.hart.inflight.isEmpty && s.hart.entry.isNone && s.hart.wait == .smcast then
        let w := q.word.toNat
        (((s.asOf q).doSmcast (field w 21 5) (field w 16 5) (field w 9 2)).wokenBy (s.asOf q) q.word).putBack s q rest
      else s
    | [] => s)

def execVectorInstructionComplete (b n : Nat) (s : State) : Host.Outcome State Fault Refusal :=
  .next (s.onHart b n State.completeOldest)

/-- The oldest comparison ends (R116). -/
def execNameCompareDone (b n : Nat) (s : State) : Host.Outcome State Fault Refusal :=
  .next (s.onHart b n fun s => match s.hart.comparing with
    | [] => s
    | (v, m) :: rest => (s.mapHart (fun h => { h with comparing := rest })).endCompare v m)

/-- Every address has been translated and what other nodes hold has come: the waiting access may go on at the hart's next turn. -/
def execProbePassDone (b n : Nat) (s : State) : Host.Outcome State Fault Refusal :=
  .next (s.onHart b n fun s =>
    if s.hart.wait = .memory ∧ !(s.dev.outstanding.any (fun o => o.owner == .hart s.hart.uid && o.kind == 0)) then
      s.mapHart (fun h => { h with wait := .none })
    else s)

/-- The count reaches AUTOIDLE (R138); when it does so is left open (DESIGN CHOICE, log 19). -/
def execAutoGearDrop (b n : Nat) (s : State) : Host.Outcome State Fault Refusal :=
  .next (s.onHart b n fun s =>
    if s.hart.gears.auto && !s.hart.gears.drop && s.counts then
      (s.mapHart (fun h => { h with gears := { h.gears with eff := false, drop := true } })).recomputeGear b
    else s)

/-- DTIME reaches the target less GEARLEAD (R142). -/
def execGearLeadReached (b n : Nat) (s : State) : Host.Outcome State Fault Refusal :=
  .next (s.onHart b n fun s => match s.hart.wait with
    | .waitt t =>
      if s.hart.gears.drop && t ≤ s.dev.time.dtime.toNat + s.hart.gears.lead.toNat then
        (s.mapHart (fun h => { h with gears := h.gears.restoreEff })).recomputeGear b
      else s
    | _ => s)

def execWaittTargetReached (b n : Nat) (s : State) : Host.Outcome State Fault Refusal :=
  .next (s.onHart b n fun s => match s.hart.wait with
    | .waitt t => if t ≤ s.dev.time.dtime.toNat then s.endWait.retire else s
    | _ => s)

/-- An idle hart resumes issue. -/
def State.endIdle (s : State) : State := s.mapHart (fun h => { h with wait := .none })

/-- A cause of R301 has come: 1 ms of DTIME, or one of the others. -/
def execIdleTimeout (b n : Nat) (s : State) : Host.Outcome State Fault Refusal :=
  .next (s.onHart b n fun s => if s.idleOver then s.endIdle else s)

def execIdleEarlyEnd (b n : Nat) (s : State) : Host.Outcome State Fault Refusal :=
  .next (s.onHart b n fun s => match s.hart.wait with
    | .idle _ _ _ => s.endIdle
    | _ => s)

/-- The CSR write that waits first takes effect, once no vector instruction is in flight and if it is one that `f` knows. -/
def State.lateWrite (s : State) (f : CsrWrite → Option (Hart → Hart)) : State :=
  match s.hart.pendCsr with
  | [] => s
  | w :: rest =>
    match f w with
    | some g => if s.hart.inflight.isEmpty then s.mapHart (fun h => g { h with pendCsr := rest }) else s
    | none => s

def execCsrWriteFstat (b n : Nat) (s : State) : Host.Outcome State Fault Refusal :=
  .next (s.onHart b n fun s => s.lateWrite (fun w => match w with
    | .fstat fn v => some (fun h => h.writeFstat fn v)
    | _ => none))

def execCsrWriteFidx (b n : Nat) (s : State) : Host.Outcome State Fault Refusal :=
  .next (s.onHart b n fun s => s.lateWrite (fun w => match w with
    | .fidx i fn v => some (fun h => h.writeFidx i fn v)
    | _ => none))

def execCsrWriteReusehit (b n : Nat) (s : State) : Host.Outcome State Fault Refusal :=
  .next (s.onHart b n fun s => s.lateWrite (fun w => match w with
    | .reuseHit fn v => some (fun h => h.writeReuseHit fn v)
    | _ => none))

/-- A changeover ends, and another begins if the gear that is wanted has changed meanwhile (R135, R137). -/
def execChangeoverEnd (b : Nat) (s : State) : Host.Outcome State Fault Refusal :=
  let k := s.dev.brick b
  match k.change with
  | none => .next s
  | some g => .next ((s.mapDev (fun d => d.setBrick b { k with gear := g, change := none })).recomputeGear b)

end Sys2Proof.Machine
end

