-- ==== Sys2Proof/Machine/Integer.lean ====
section
/-! DEFINITION. The integer instructions of the scalar side (R278, R279). None raises a flag or a trap. -/

namespace Sys2Proof.Machine

/-- Write a result to an integer register and go on. -/
def State.result (s : State) (d : Nat) (v : Word) : State := (s.setX d v).advance

/-- The amount of a register shift: xb[5:0]. -/
def shiftOf (b : Word) : Nat := b.toNat % 64

/-- The high 64 bits of the signed product. -/
def mulHigh (a b : Word) : Word := BitVec.ofInt 64 (a.toInt * b.toInt / 2 ^ 64)

/-- The high 64 bits of the unsigned product. -/
def mulHighN (a b : Word) : Word := BitVec.ofNat 64 (a.toNat * b.toNat / 2 ^ 64)

/-- The signed quotient, rounded toward zero; all ones for a zero divisor, and −2^63 for −2^63 ÷ −1 (R278). -/
def divide (a b : Word) : Word := if b = 0 then allOnes64 else BitVec.ofInt 64 (a.toInt.tdiv b.toInt)

/-- The unsigned quotient. -/
def divideN (a b : Word) : Word := if b = 0 then allOnes64 else BitVec.ofNat 64 (a.toNat / b.toNat)

/-- The signed remainder, with the sign of the dividend; xa for a zero divisor. -/
def remainder (a b : Word) : Word := if b = 0 then a else BitVec.ofInt 64 (a.toInt.tmod b.toInt)

/-- The unsigned remainder. -/
def remainderN (a b : Word) : Word := if b = 0 then a else BitVec.ofNat 64 (a.toNat % b.toNat)

/-- Leading zeros of the low `n` bits. -/
def leadingZeros : Nat → Nat → Nat
  | 0, _ => 0
  | n + 1, v => if bit v n then 0 else leadingZeros n v + 1

/-- Trailing zeros of the low `n` bits. -/
def trailingZeros : Nat → Nat → Nat
  | 0, _ => 0
  | n + 1, v => if v % 2 = 1 then 0 else trailingZeros n (v / 2) + 1

/-! ### Register forms (R278) -/

def execAdd (d a b : Nat) (s : State) : Host.Outcome State Fault Refusal := done (s.result d (s.x a + s.x b))
def execSub (d a b : Nat) (s : State) : Host.Outcome State Fault Refusal := done (s.result d (s.x a - s.x b))
def execAnd (d a b : Nat) (s : State) : Host.Outcome State Fault Refusal := done (s.result d (s.x a &&& s.x b))
def execOr (d a b : Nat) (s : State) : Host.Outcome State Fault Refusal := done (s.result d (s.x a ||| s.x b))
def execXor (d a b : Nat) (s : State) : Host.Outcome State Fault Refusal := done (s.result d (s.x a ^^^ s.x b))
def execSll (d a b : Nat) (s : State) : Host.Outcome State Fault Refusal := done (s.result d (s.x a <<< shiftOf (s.x b)))
def execSrl (d a b : Nat) (s : State) : Host.Outcome State Fault Refusal := done (s.result d (s.x a >>> shiftOf (s.x b)))
def execSra (d a b : Nat) (s : State) : Host.Outcome State Fault Refusal := done (s.result d ((s.x a).sshiftRight (shiftOf (s.x b))))
def execSlt (d a b : Nat) (s : State) : Host.Outcome State Fault Refusal := done (s.result d (ofBool ((s.x a).slt (s.x b))))
def execSltn (d a b : Nat) (s : State) : Host.Outcome State Fault Refusal := done (s.result d (ofBool ((s.x a).ult (s.x b))))
def execMul (d a b : Nat) (s : State) : Host.Outcome State Fault Refusal := done (s.result d (s.x a * s.x b))
def execMulh (d a b : Nat) (s : State) : Host.Outcome State Fault Refusal := done (s.result d (mulHigh (s.x a) (s.x b)))
def execMulhn (d a b : Nat) (s : State) : Host.Outcome State Fault Refusal := done (s.result d (mulHighN (s.x a) (s.x b)))
def execDiv (d a b : Nat) (s : State) : Host.Outcome State Fault Refusal := done (s.result d (divide (s.x a) (s.x b)))
def execDivn (d a b : Nat) (s : State) : Host.Outcome State Fault Refusal := done (s.result d (divideN (s.x a) (s.x b)))
def execRem (d a b : Nat) (s : State) : Host.Outcome State Fault Refusal := done (s.result d (remainder (s.x a) (s.x b)))
def execRemn (d a b : Nat) (s : State) : Host.Outcome State Fault Refusal := done (s.result d (remainderN (s.x a) (s.x b)))
def execMin (d a b : Nat) (s : State) : Host.Outcome State Fault Refusal := done (s.result d (if (s.x b).slt (s.x a) then s.x b else s.x a))
def execMinn (d a b : Nat) (s : State) : Host.Outcome State Fault Refusal := done (s.result d (if (s.x b).ult (s.x a) then s.x b else s.x a))
def execMax (d a b : Nat) (s : State) : Host.Outcome State Fault Refusal := done (s.result d (if (s.x a).slt (s.x b) then s.x b else s.x a))
def execMaxn (d a b : Nat) (s : State) : Host.Outcome State Fault Refusal := done (s.result d (if (s.x a).ult (s.x b) then s.x b else s.x a))
def execClz (d a : Nat) (s : State) : Host.Outcome State Fault Refusal := done (s.result d (BitVec.ofNat 64 (leadingZeros 64 (s.x a).toNat)))
def execCtz (d a : Nat) (s : State) : Host.Outcome State Fault Refusal := done (s.result d (BitVec.ofNat 64 (trailingZeros 64 (s.x a).toNat)))
def execPopc (d a : Nat) (s : State) : Host.Outcome State Fault Refusal := done (s.result d (BitVec.ofNat 64 (onesCount 64 (s.x a).toNat)))

/-! ### Immediate forms (R279) -/

def execAddi (d a : Nat) (i : BitVec 16) (s : State) : Host.Outcome State Fault Refusal := done (s.result d (s.x a + sext i))
def execAndi (d a : Nat) (i : BitVec 16) (s : State) : Host.Outcome State Fault Refusal := done (s.result d (s.x a &&& zext i))
def execOri (d a : Nat) (i : BitVec 16) (s : State) : Host.Outcome State Fault Refusal := done (s.result d (s.x a ||| zext i))
def execXori (d a : Nat) (i : BitVec 16) (s : State) : Host.Outcome State Fault Refusal := done (s.result d (s.x a ^^^ zext i))
def execSlti (d a : Nat) (i : BitVec 16) (s : State) : Host.Outcome State Fault Refusal := done (s.result d (ofBool ((s.x a).slt (sext i))))
def execSltni (d a : Nat) (i : BitVec 16) (s : State) : Host.Outcome State Fault Refusal := done (s.result d (ofBool ((s.x a).ult (sext i))))
def execSlli (d a : Nat) (sh : BitVec 6) (s : State) : Host.Outcome State Fault Refusal := done (s.result d (s.x a <<< sh.toNat))
def execSrli (d a : Nat) (sh : BitVec 6) (s : State) : Host.Outcome State Fault Refusal := done (s.result d (s.x a >>> sh.toNat))
def execSrai (d a : Nat) (sh : BitVec 6) (s : State) : Host.Outcome State Fault Refusal := done (s.result d ((s.x a).sshiftRight sh.toNat))
def execLhi (d : Nat) (i : BitVec 21) (s : State) : Host.Outcome State Fault Refusal := done (s.result d (sext i * 65536))
def execApc (d : Nat) (i : BitVec 21) (s : State) : Host.Outcome State Fault Refusal :=
  done (s.result d (s.pc + sext i * 65536))

end Sys2Proof.Machine
end

