-- ==== Sys2Proof/Machine/Misc.lean ====
section
/-! DEFINITION. Hints (R269), and the fates of words that are no instruction (R224, R270). -/

namespace Sys2Proof.Machine

def execNop (s : State) : Host.Outcome State Fault Refusal := done s.advance

/-- A word of major 0x3C of no named form does nothing. -/
def execHintNoOp (_w : BitVec 32) (s : State) : Host.Outcome State Fault Refusal := done s.advance

/-- hpf translates like a load, and a fault abandons it without any report. What it reads into the cache is not visible. -/
def execHpf (a : Nat) (_h : Hint) (off : BitVec 12) (s : State) : Host.Outcome State Fault Refusal :=
  match s.places (s.x a + sext off).toNat 1 .read with
  | .ok (_, _, s') => done s'.advance
  | .error _ => done s.advance

/-- A word that steps 1 and 4 of R270 refuse is an illegal instruction; steps 3 and 5 make it a reserved encoding. -/
def execIllegalInstruction (reserved : Bool) (_w : BitVec 32) (s : State) : Host.Outcome State Fault Refusal :=
  done (s.takeTrap { cause := if reserved then 0x05 else 0x01 })

/-- The fetch at the program counter faults (R224, R418); IWORD is then open. -/
def execInstructionFetchFault (s : State) : Host.Outcome State Fault Refusal :=
  match s.fetch with
  | .error (.trap t) => done (s.unfetched.takeTrap t)
  | .error (.wait w need) => done (s.waitFor w need)
  | .error (.hold need _) => done (s.waitFor .memory need)
  | .ok _ => done s

end Sys2Proof.Machine
end

