-- ==== Sys2Proof/Machine/ScalarFp.lean ====
section
/-! DEFINITION. Scalar FP (R286 to R289). Operands are the low bits of f registers, results are written with zeros above them
(R276), rounding follows FRM (R204), and flags merge into FSTAT alone (R219). -/

namespace Sys2Proof.Machine

/-- The operand of a format in an f register. -/
def State.fp (s : State) (t : FpFmt) (n : Nat) : Nat := (s.f n).toNat % 2 ^ fpWidth t

/-- The rounding mode in force. -/
def State.rm (s : State) : Nat := s.hart.frm.toNat

/-- Write an FP result with its flags. -/
def State.fpResult (s : State) (d : Nat) (r : Nat × BitVec 5) : State :=
  ((s.setF d (BitVec.ofNat 64 r.1)).mergeFstat r.2).advance

/-- Write an integer result with its flags. -/
def State.fpToX (s : State) (d : Nat) (v : Word) (f : BitVec 5) : State := ((s.setX d v).mergeFstat f).advance

def execFadd (d a b : Nat) (t : FpFmt) (s : State) : Host.Outcome State Fault Refusal :=
  done (s.fpResult d (fpAdd t s.rm (s.fp t a) (s.fp t b)))
def execFsub (d a b : Nat) (t : FpFmt) (s : State) : Host.Outcome State Fault Refusal :=
  done (s.fpResult d (fpSub t s.rm (s.fp t a) (s.fp t b)))
def execFmul (d a b : Nat) (t : FpFmt) (s : State) : Host.Outcome State Fault Refusal :=
  done (s.fpResult d (fpMul t s.rm (s.fp t a) (s.fp t b)))
def execFdiv (d a b : Nat) (t : FpFmt) (s : State) : Host.Outcome State Fault Refusal :=
  done (s.fpResult d (fpDiv t s.rm (s.fp t a) (s.fp t b)))
def execFmin (d a b : Nat) (t : FpFmt) (s : State) : Host.Outcome State Fault Refusal :=
  done (s.fpResult d (fpMinMax t false (s.fp t a) (s.fp t b)))
def execFmax (d a b : Nat) (t : FpFmt) (s : State) : Host.Outcome State Fault Refusal :=
  done (s.fpResult d (fpMinMax t true (s.fp t a) (s.fp t b)))
def execFsqrt (d a : Nat) (t : FpFmt) (s : State) : Host.Outcome State Fault Refusal :=
  done (s.fpResult d (fpSqrt t s.rm (s.fp t a)))
def execFclass (d a : Nat) (t : FpFmt) (s : State) : Host.Outcome State Fault Refusal :=
  done (s.fpToX d (BitVec.ofNat 64 (fpClass t (s.fp t a))) 0)
def execFmvX (d a : Nat) (s : State) : Host.Outcome State Fault Refusal := done ((s.setX d (s.f a)).advance)
def execFmvF (d a : Nat) (s : State) : Host.Outcome State Fault Refusal := done ((s.setF d (s.x a)).advance)
def execFma (d a b c : Nat) (t : FpFmt) (s : State) : Host.Outcome State Fault Refusal :=
  done (s.fpResult d (fpFma t s.rm (s.fp t a) (s.fp t b) (s.fp t c)))
def execFms (d a b c : Nat) (t : FpFmt) (s : State) : Host.Outcome State Fault Refusal :=
  done (s.fpResult d (fpFms t s.rm (s.fp t a) (s.fp t b) (s.fp t c)))

/-- The integer types of fcvt, codes 4 to 7: signedness and width (R259). -/
def scalarInt (code : Nat) : Bool × Nat :=
  (code == 4 || code == 5, if code == 4 || code == 6 then 32 else 64)

/-- fcvt.TO.FROM (R288). Codes 8 to 15, and an integer-to-integer pair, are illegal operands (R259). -/
def execFcvt (d a t f : Nat) (s : State) : Host.Outcome State Fault Refusal :=
  if 8 ≤ t ∨ 8 ≤ f ∨ (4 ≤ t ∧ 4 ≤ f) then done (s.settle (.error illegalOperand))
  else if t < 4 ∧ f < 4 then
    done (s.fpResult d (fpConvert (FpFmt.ofCode f) (FpFmt.ofCode t) s.rm (s.fp (FpFmt.ofCode f) a)))
  else if 4 ≤ t then
    let (sg, w) := scalarInt t
    let src := s.fp (FpFmt.ofCode f) a
    let (v, fl) := numToInt sg w s.rm (decodeFp (FpFmt.ofCode f) src)
    done (s.fpToX d (if sg then BitVec.ofInt 64 (toSigned w v) else BitVec.ofNat 64 v) fl)
  else
    let (sg, w) := scalarInt f
    let v := (s.x a).toNat % 2 ^ w
    done (s.fpResult d (intToFp (FpFmt.ofCode t) s.rm (if sg then toSigned w v else v)))

/-- A comparison writes 1 or 0 (R289). -/
def State.fcmp (s : State) (d a b : Nat) (t : FpFmt) (cond : Nat) : State :=
  let (v, f) := fpCompare t cond (s.fp t a) (s.fp t b)
  s.fpToX d (ofBool v) f

def execFcmpEq (d a b : Nat) (t : FpFmt) (s : State) : Host.Outcome State Fault Refusal := done (s.fcmp d a b t 0)
def execFcmpLt (d a b : Nat) (t : FpFmt) (s : State) : Host.Outcome State Fault Refusal := done (s.fcmp d a b t 1)
def execFcmpLe (d a b : Nat) (t : FpFmt) (s : State) : Host.Outcome State Fault Refusal := done (s.fcmp d a b t 2)
def execFcmpUnord (d a b : Nat) (t : FpFmt) (s : State) : Host.Outcome State Fault Refusal := done (s.fcmp d a b t 3)

end Sys2Proof.Machine
end

