-- ==== Sys2Proof/Machine/ScalarMemory.lean ====
section
/-! DEFINITION. Scalar loads and stores (R280 to R282), on path S. A cache hint changes no result (R152). -/

namespace Sys2Proof.Machine

/-- The effective address (R280). -/
def State.effective (s : State) (a : Nat) (w : Width) (off : BitVec 10) : Nat :=
  (s.x a + sext off * BitVec.ofNat 64 w.bytes).toNat

/-- Sign-extend a value of `w` bytes to a register. -/
def signExtendBytes (w v : Nat) : Word := BitVec.ofInt 64 (toSigned (8 * w) v)

/-- A scalar load: the bytes are read, and `k` writes their value to a register. -/
def State.load (s : State) (va n : Nat) (k : State → Nat → State) : State :=
  s.settle (match s.loadScalar va n with
    | .ok (l, s') => .ok (k s' (ofLe l)).retire
    | .error e => .error e)

/-- A scalar store: it is buffered in the open strip, or in the next one when its entries do not fit (R188). -/
def State.store (s : State) (va : Nat) (data : List Byte) : State :=
  let n := entryCount va data.length
  let s0 := s.makeRoom n
  s0.settle (
    (s0.roomFor n).bind fun _ =>
    (s0.access va data.length .write none none).bind fun (ps, _, s1) =>
    .ok (s1.mapHart (fun h =>
      { h with strip := h.strip.add [{ va := va, place := ps, data := data, path := .s }] n })).retire)

def execLd (d a : Nat) (w : Width) (_h : Hint) (off : BitVec 10) (s : State) : Host.Outcome State Fault Refusal :=
  done (s.load (s.effective a w off) w.bytes (fun s v => s.setX d (signExtendBytes w.bytes v)))

def execLdz (d a : Nat) (w : Width) (_h : Hint) (off : BitVec 10) (s : State) : Host.Outcome State Fault Refusal :=
  done (s.load (s.effective a w off) w.bytes (fun s v => s.setX d (BitVec.ofNat 64 v)))

/-- fld with W = 0 is an illegal operand (R280). -/
def execFld (d a : Nat) (w : Width) (_h : Hint) (off : BitVec 10) (s : State) : Host.Outcome State Fault Refusal :=
  if w = .b1 then done (s.settle (.error illegalOperand))
  else done (s.load (s.effective a w off) w.bytes (fun s v => s.setF d (BitVec.ofNat 64 v)))

def execSt (rs a : Nat) (w : Width) (_h : Hint) (off : BitVec 10) (s : State) : Host.Outcome State Fault Refusal :=
  done (s.store (s.effective a w off) (leBytes w.bytes (s.x rs).toNat))

/-- fst with W = 0 is an illegal operand (R280). -/
def execFst (rs a : Nat) (w : Width) (_h : Hint) (off : BitVec 10) (s : State) : Host.Outcome State Fault Refusal :=
  if w = .b1 then done (s.settle (.error illegalOperand))
  else done (s.store (s.effective a w off) (leBytes w.bytes (s.f rs).toNat))

end Sys2Proof.Machine
end

