-- ==== Sys2Proof/Machine/Scheduler.lean ====
section
/-! DEFINITION. The scheduler's choice (R60 to R63, R66, R68), pre-emption (R70, R75 to R77), saves (R81), and the commands HOLD, RELEASE and
FLUSH (R82). -/

namespace Sys2Proof.Machine

/-! ### What waits for resources (R62, R63) -/

/-- Whether one list of numbers stands before another, place by place. -/
def lexLt : List Nat → List Nat → Bool
  | a :: x, b :: y => a < b || (a == b && lexLt x y)
  | _, _ => false

/-- The order of the choice: tenant by TVT, queue by QVT, launch by number; ties go to the lower number. -/
def State.rank (s : State) (l : Launch) : List Nat :=
  [(s.dev.tenant l.record.vmid).tvt, l.record.vmid, (s.dev.queue l.queue).qvt, l.queue, l.seq]

/-- Something that may be dispatched or resumed: the harts of a launch that wait for their first dispatch, or saved harts that resume
together. -/
inductive Bid where
  | fresh (l : Launch)
  | again (l : Launch) (us : List (List SaveArea))

def Bid.launch : Bid → Launch
  | .fresh l => l
  | .again l _ => l

/-- A queue's candidate (R62): its lowest-numbered launch with harts to dispatch, or marker that is not eligible. A gang whose members here all
hold tokens has none left to dispatch, and is passed over (DESIGN CHOICE, log 101). -/
def Device.candidate (d : Device) (q : Nat) : Option Launch :=
  (sortBy (fun (a b : Launch) => a.seq ≤ b.seq) (d.launches.filter (fun l => l.queue == q))).find? (fun l =>
    if l.record.marker then !(l.isEligible d) else !l.killed && !l.undispatched.isEmpty)

/-- Whether a candidate may begin dispatch: an eligible launch of a context that is not held, with its slots (R54, R66, R82). -/
def Device.mayDispatch (d : Device) (l : Launch) : Bool :=
  !l.record.marker && l.isEligible d && !(d.sched.heldCtx.contains l.record.ctx) && (d.slotGrant l).isSome &&
  (!l.record.gang || l.phase == .idle)

/-- The saved units of a launch in hart order. A fork pair waits until both are saved. -/
def State.savedUnits (s : State) (l : Launch) : List (List SaveArea) :=
  let mine := sortBy (fun (a b : SaveArea) => a.hart.index ≤ b.hart.index) (s.dev.saved.filter (fun a => a.hart.launch == l.id))
  let ready := mine.filter (fun a => !(s.harts.any (fun h => h.launch == l.id && h.brick == a.hart.brick &&
    some h.num == a.hart.partner && h.partner == some a.hart.num && a.peer.isNone)))
  (ready.map s.dev.unitOf).filter (fun u => match u.head? with
    | some a => ready.contains a
    | none => false) |> distinct

/-- What may resume of a launch: a gang as a whole, when none of it is on the device, so a member that was saved alone waits for the others
(DESIGN CHOICE, log 103). -/
def State.resumeBids (s : State) (l : Launch) : List Bid :=
  if l.killed || s.dev.sched.heldCtx.contains l.record.ctx then []
  else
    let us := s.savedUnits l
    if us.isEmpty then []
    else if l.record.gang then (if s.harts.any (fun h => h.launch == l.id) then [] else [.again l us])
    else us.map (fun u => .again l [u])

/-- Everything that waits, in the order of the choice. What may resume stands beside the queues' candidates, in the same order (DESIGN CHOICE,
log 100). -/
def State.bids (s : State) : List Bid :=
  let again := s.dev.launches.flatMap s.resumeBids
  let fresh := (distinct (s.dev.launches.map (·.queue))).filterMap (fun q => match s.dev.candidate q with
    | some l => if s.dev.mayDispatch l then some (Bid.fresh l) else none
    | none => none)
  sortBy (fun a b => !(lexLt (s.rank b.launch) (s.rank a.launch))) (again ++ fresh)

/-! ### Dispatch and resumption -/

/-- Seats for several units, all or none: each takes its room. -/
def Device.seatAll (d : Device) : List (List SaveArea) → List Hart → Option (List (List SaveArea × Seat))
  | [], _ => some []
  | u :: rest, hs =>
    match d.seat hs u with
    | none => none
    | some x =>
      let here := (u.zip x.nums).map (fun (y : SaveArea × Nat) => match x.lanes with
        | some m => { y.1.hart with brick := x.brick, num := y.2, run := .token, bound := m, next := m }
        | none => { y.1.hart with brick := x.brick, num := y.2, run := .token })
      (Device.seatAll d rest (here ++ hs)).map ((u, x) :: ·)

/-- Token holders stand for the saved members of a gang until it goes (R69, R73). -/
def State.holdSeats (s : State) (u : List SaveArea) (x : Seat) : State :=
  (u.zip x.nums).foldl (fun s (y : SaveArea × Nat) =>
    let h := y.1.hart
    let m := match x.lanes with
      | some m => m
      | none => h.holds &&& ~~~x.lost
    s.withHart x.brick y.2 (fun s => { s with hart :=
      { brick := x.brick, num := y.2, uid := h.uid, run := .token, queue := h.queue, seq := h.seq, index := h.index, ctx := h.ctx
        vmid := h.vmid, kernel := h.kernel, levels := h.levels, tileRes := max h.tileRes h.claims
        streamRes := max h.streamRes h.boundStreams, lgn := h.lgn, bound := m, next := m } })) s

/-- Harts of a launch are dispatched in hart order until one does not fit (R63). -/
def State.dispatchOn (l : Launch) : List Nat → State → State
  | [], s => s
  | i :: rest, s =>
    match s.dev.launch l.id with
    | none => s
    | some l' =>
      match s.dev.placeMember s.harts l' i with
      | some h => State.dispatchOn l rest (s.dispatch l' h)
      | none => s

/-- Serve a bid from what is free, if it fits (R62, R63, R69). -/
def State.serve (s : State) : Bid → Option State
  | .fresh l =>
    if l.record.gang then
      (s.dev.placeAll l.undispatched s.harts l).map (fun hs =>
        (hs.foldl (fun s h => s.bring h .token) (s.takeSlots l)).allTokens l.id)
    else match l.undispatched with
      | [] => none
      | i :: rest => (s.dev.placeMember s.harts l i).map (fun h => State.dispatchOn l rest (s.dispatch l h))
  | .again l us =>
    (s.dev.seatAll us s.harts).map (fun seats =>
      if l.record.gang then (seats.foldl (fun s x => s.holdSeats x.1 x.2) s).allTokens l.id
      else seats.foldl (fun s x => s.resumeUnit x.1 x.2 .restoring) s)

/-- Whether a bid would fit beside some harts. -/
def Bid.fits (b : Bid) (d : Device) (hs : List Hart) : Bool :=
  match b with
  | .fresh l => if l.record.gang then (d.placeAll l.undispatched hs l).isSome
    else match l.undispatched with
      | [] => false
      | i :: _ => (d.placeMember hs l i).isSome
  | .again _ us => (d.seatAll us hs).isSome

/-- The same on one brick, for a bid that is no gang's. -/
def Bid.fitsOn (x : Bid) (d : Device) (hs : List Hart) (b : Nat) : Bool :=
  match x with
  | .fresh l =>
    (match l.undispatched with
     | [] => false
     | i :: _ => l.allows hs i b && ((d.room hs b).grant l.record.laneGroups l.record.tiles l.record.streams).isSome)
  | .again _ us => us.all (fun u => (d.seatOn hs u b).isSome)

/-! ### Barrier progress (R75) -/

/-- The lowest undispatched member of a barrier at which a hart of the launch waits in barw. -/
def State.awaitedMember (s : State) (l : Launch) : Option Nat :=
  match l.owed.filter (fun i => !(l.placed.contains i)) with
  | some i => some i
  | none =>
    leastOf (s.harts.flatMap (fun h =>
      match h.wait with
      | .barw n =>
        if h.launch == l.id && h.run == .running then
          (match (h.arrivals.filter (fun x => x.bar == n && !x.again)).getLast? with
           | some x => l.undispatched.filter (sameBarrier l.record.levels x.scope h.index)
           | none => [])
        else []
      | _ => []))

/-- The hart of a launch that waits in barw and was dispatched most recently. -/
def State.latestWaiter (s : State) (l : Launch) : Option Hart :=
  (s.harts.filter (fun h => h.launch == l.id && h.run == .running && (match h.wait with
    | .barw _ => true
    | _ => false))).foldl (fun (m : Option Hart) h => match m with
      | some x => if x.uid < h.uid then some h else some x
      | none => some h) none

/-- A step of barrier progress for a launch: room is made for a member that does not fit, and once it fits the member is dispatched before
any other choice. A member that fits anyway is left to the choice of R62. -/
def State.progressBarrier (s : State) (l : Launch) : Option State :=
  if l.record.gang || l.killed || l.record.marker || s.dev.sched.heldCtx.contains l.record.ctx then none
  else match s.awaitedMember l with
    | none => none
    | some i =>
      match s.dev.placeMember s.harts l i with
      | some h =>
        if l.owed = some i then
          some ((s.mapDev (fun d => d.mapLaunch l.id (fun l => { l with owed := none }))).dispatch { l with owed := none } h)
        else none
      | none =>
        if s.harts.any (fun h => h.launch == l.id && h.run == .stopped) then none
        else match s.latestWaiter l with
          | none => none
          | some w =>
            if !(s.slotsFor (if w.partner.isSome then 2 else 1)) then none
            else some ((s.mapDev (fun d => d.mapLaunch l.id (fun l => { l with owed := some i }))).stopWhere (fun h => h.uid == w.uid))

/-! ### Pre-emption for fairness (R70, R75) -/

/-- Whether at least half of a gang's members hold tokens, by what this device has heard (R70, R72). -/
def Launch.halfHeld (l : Launch) : Bool := hartCount l.record.levels * l.devices ≤ 2 * l.progress

/-- Whether a launch may lose harts to another (R75): it has held them for the quantum, and it stands behind by TVT, or by QVT within one
tenant. The quantum of a gang counts from its start, so its token holders have none of their own (DESIGN CHOICE, log 105). -/
def State.mayLose (s : State) (l x : Launch) : Bool :=
  let t := fun (y : Launch) => (s.dev.tenant y.record.vmid).tvt
  let q := fun (y : Launch) => (s.dev.queue y.queue).qvt
  x.since + 1000 * s.dev.sched.quantum ≤ s.dev.time.dtime.toNat &&
  (if x.record.vmid = l.record.vmid then x.queue != l.queue && q l < q x else t l < t x)

/-- The harts that leave with one: its fork partner, or its whole gang. -/
def State.leavesWith (s : State) (h : Hart) : List Hart :=
  let gang := match s.dev.launch h.launch with
    | some l => l.record.gang
    | none => false
  s.harts.filter (fun x => x.uid == h.uid || (gang && x.launch == h.launch) ||
    (x.brick == h.brick && h.partner == some x.num && x.partner == some h.num))

/-- Harts that may be victims for a bid. `all` also counts token holders of gangs of which fewer than half hold tokens. -/
def State.eligibleVictims (s : State) (b : Bid) (all : Bool) : List Hart :=
  s.harts.filter (fun h => match s.dev.launch h.launch with
    | some x => s.mayLose b.launch x && (h.run == .running || h.run == .restoring ||
        (h.run == .token && (all || x.halfHeld)))
    | none => false)

/-- How victims are preferred: highest QVT, then most recently dispatched. -/
def State.worth (s : State) (vs : List Hart) : List Nat :=
  (sortBy (fun a b => !(lexLt a b)) (vs.map (fun h => [(s.dev.queue h.queue).qvt, h.uid]))).flatten

/-- The better of two sets of victims: the fewest harts, then by worth. -/
def State.better (s : State) (a b : List Hart) : List Hart :=
  if a.length < b.length then a
  else if b.length < a.length then b
  else if lexLt (s.worth a) (s.worth b) then b else a

/-- The victims on one brick for a bid that is no gang's. -/
def State.victimsOn (s : State) (x : Bid) (cands : List Hart) (b : Nat) : Option (List Hart) :=
  let here := cands.filter (fun h => h.brick == b)
  ((choices here).filter (fun l => !l.isEmpty)).foldl (fun (m : Option (List Hart)) l =>
    let vs := distinct (l.flatMap s.leavesWith)
    if x.fitsOn s.dev (s.harts.filter (fun h => !(vs.any (fun v => v.uid == h.uid)))) b then
      (match m with
       | some y => some (s.better y vs)
       | none => some vs)
    else m) none

/-- Without some victims a gang still fits: they are spared. -/
def State.prune (s : State) (x : Bid) : List Hart → List Hart → List Hart
  | [], vs => vs
  | h :: rest, vs =>
    let out := s.leavesWith h
    let fewer := vs.filter (fun v => !(out.any (fun o => o.uid == v.uid)))
    if vs.any (fun v => v.uid == h.uid) && x.fits s.dev (s.harts.filter (fun y => !(fewer.any (fun v => v.uid == y.uid)))) then
      State.prune s x rest fewer
    else State.prune s x rest vs

/-- The victims for a gang: the preferred ones until it fits, without those that prove needless. -/
def State.gangVictims (s : State) (x : Bid) (cands : List Hart) : Option (List Hart) :=
  let order := sortBy (fun (a b : Hart) => !(lexLt [(s.dev.queue a.queue).qvt, a.uid] [(s.dev.queue b.queue).qvt, b.uid])) cands
  let fits := fun (vs : List Hart) => x.fits s.dev (s.harts.filter (fun h => !(vs.any (fun v => v.uid == h.uid))))
  let vs := order.foldl (fun (vs : List Hart) h => if fits vs then vs else distinct (vs ++ s.leavesWith h)) []
  if fits vs then some (s.prune x order.reverse vs) else none

/-- The victims for a bid. -/
def State.victims (s : State) (x : Bid) (all : Bool) : Option (List Hart) :=
  let cands := s.eligibleVictims x all
  if cands.isEmpty then none
  else if x.launch.record.gang then s.gangVictims x cands
  else (s.dev.readyBricks.filter (fun b => cands.any (fun h => h.brick == b))).foldl (fun (m : Option (List Hart)) b =>
    match m, s.victimsOn x cands b with
    | some y, some vs => some (s.better y vs)
    | none, v => v
    | m, none => m) none

/-- Victims stop, gangs whole, when a slot is free for every hart that is saved (R81). -/
def State.preempt (s : State) (vs : List Hart) : Option State :=
  let saves := vs.filter (fun h => h.run != .token)
  if !(s.slotsFor saves.length) then none
  else
    let gangs := (distinct (vs.map Hart.launch)).filterMap (fun id => match s.dev.launch id with
      | some l => if l.record.gang then some l else none
      | none => none)
    let s := gangs.foldl (fun s l => s.giveUp l) s
    some (s.stopWhere (fun h => vs.any (fun v => v.uid == h.uid) && !(gangs.any (fun l => l.id == h.launch))))

/-! ### The choice -/

/-- A unit that no ready brick can ever take back ends (R68). -/
def State.endUnresumable (s : State) : Option State :=
  firstSome (fun a =>
    let u := s.dev.unitOf a
    if s.dev.neverResumes u && !(s.dev.sched.heldCtx.contains a.hart.ctx) then some (u.foldl (fun s a => s.endSaved a 0x08) s) else none)
    s.dev.saved

/-- One choice of the scheduler (R62, R75). Nothing is dispatched before memory is ready and the scheduler runs (R34), nor at the thermal
limit (R145). A pre-emption waits until the one before it has made its saves. -/
def State.choose (s : State) : State :=
  let s := s.settleHold
  if !(s.dev.gmc.schedRunning && s.dev.memReady) || s.dev.thermal.limit then s
  else match s.endUnresumable with
    | some s' => s'
    | none =>
      match firstSome (fun l => if l.relay && l.phase == .started && (s.stopGang l).savesDue != s.savesDue then some (s.stopGang l)
          else s.progressBarrier l) s.dev.launches with
      | some s' => s'
      | none =>
        match firstSome s.serve s.bids with
        | some s' => s'
        | none =>
          if s.harts.any (fun h => h.run == .stopped) then s
          else (firstSome (fun b => match s.victims b false with
              | some vs => s.preempt vs
              | none => (s.victims b true).bind s.preempt) s.bids).getD s

def execSchedulerChoice (s : State) : Host.Outcome State Fault Refusal := .next s.choose

/-- A stopped hart is saved once a trap entry that it is within has ended (R237), its brick changes gear no more and a slot is free (R77, R81, R109, R137). -/
def execHartSave (b n : Nat) (s : State) : Host.Outcome State Fault Refusal :=
  match s.hartAt b n, s.dev.freeSlot with
  | some h, some slot =>
    let due : Bool := match h.run with
      | .stopped => h.entry.isNone
      | .retiring _ => true
      | _ => false
    if due && (s.dev.brick b).change.isNone then .next (s.withHart b n (fun s => s.saveHart slot)).settleHold else .next s
  | _, _ => .next s

/-! ### HOLD, RELEASE and FLUSH (R82) -/

/-- A SCHEDCMD write with one of the three commands: ignored while BUSY; context 0 is invalid. -/
def State.schedCommand (s : State) (w : Word) (h : State → Nat → State) : State :=
  if s.dev.sched.busy then s
  else
    let ctx := field w.toNat 0 12
    let s := s.mapSched (fun c => { c with cmd := BitVec.ofNat 64 (field w.toNat 0 16), result := if ctx = 0 then 2 else 0 })
    if ctx = 0 then s else h s ctx

/-- HOLD: every hart of the context stops, and none of it is dispatched. Without a slot for each, or with no pool at all (R81), it has no
effect. -/
def State.holdCtx (s : State) (ctx : Nat) : State :=
  let needs := (s.harts.filter (fun h => match h.run with
    | .running => h.ctx == ctx
    | .restoring => h.ctx == ctx
    | .stopped => true
    | .retiring _ => true
    | _ => false)).length
  if s.dev.sched.saveSlots = 0 ∨ s.dev.freeSlots < needs then s.mapSched (fun c => { c with result := 1 })
  else
    let s := s.mapSched (fun c => { c with busy := true, heldCtx := if c.heldCtx.contains ctx then c.heldCtx else ctx :: c.heldCtx })
    let gangs := s.dev.launches.filter (fun l => l.record.ctx == ctx && l.record.gang)
    let s := gangs.foldl (fun s l => if s.harts.any (fun h => h.launch == l.id) then s.giveUp l else s) s
    (s.stopWhere (fun h => h.ctx == ctx && !(gangs.any (fun l => l.id == h.launch)))).settleHold

def isCommand (w : Word) (op : Nat) : Bool := field w.toNat 12 4 == op

def execSchedHold (p : Nat) (f : Flit) (s : State) : Host.Outcome State Fault Refusal :=
  .next (s.onWindow p f (fun v r => v == 0 && r == 0x40) (fun s _ _ w =>
    if isCommand w 1 then s.schedCommand w State.holdCtx else s))

/-- RELEASE: areas in the pool replace the copies in the region. -/
def State.releaseCtx (s : State) (ctx : Nat) : State :=
  (s.mapSched (fun c => { c with heldCtx := c.heldCtx.filter (· != ctx) })).mapDev (fun d => { d with
    saved := d.saved.map (fun a => if a.hart.ctx = ctx ∧ a.flushed then { a with spilled := true, flushed := false } else a) })

def execSchedRelease (p : Nat) (f : Flit) (s : State) : Host.Outcome State Fault Refusal :=
  .next (s.onWindow p f (fun v r => v == 0 && r == 0x40) (fun s _ _ w =>
    if isCommand w 2 then s.schedCommand w State.releaseCtx else s))

def execSchedFlush (p : Nat) (f : Flit) (s : State) : Host.Outcome State Fault Refusal :=
  .next (s.onWindow p f (fun v r => v == 0 && r == 0x40) (fun s _ _ w =>
    if isCommand w 3 then s.schedCommand w (fun s _ => s.mapSched (fun c => { c with busy := true })) else s))

/-- An area of a held context is written to its slot. The energy of the write is charged to its hart and tenant (R59, R147). -/
def State.flushArea (s : State) (a : SaveArea) : State :=
  let (n, s) := s.draw
  let uj := Config.energy n
  let charge := fun (a : SaveArea) => { a with hart := { a.hart with energy := a.hart.energy + BitVec.ofNat 48 uj } }
  let s := (s.mapArea a.slot charge).mapTenant a.hart.vmid (fun t => { t with energy := t.energy + BitVec.ofNat 64 uj })
  (s.writeArea (charge a)).mapArea a.slot (fun a => { a with flushed := true })

/-- Every save area of the context is in its slot, and BUSY clears. -/
def execFlushComplete (s : State) : Host.Outcome State Fault Refusal :=
  let c := s.dev.sched
  let ctx := field c.cmd.toNat 0 12
  if c.busy && isCommand c.cmd 3 then
    .next (((s.dev.saved.filter (fun a => a.hart.ctx == ctx && !a.spilled)).foldl State.flushArea s).mapSched (fun c =>
      { c with busy := false }))
  else .next s

end Sys2Proof.Machine
end

