-- ==== Sys2Proof/Machine/Sparse.lean ====
section
/-! DEFINITION. Sparse registers (R365, R366). -/

namespace Sys2Proof.Machine

/-- A value above VLMAX is an illegal operand (R365). -/
def execSplen (d a : Nat) (s : State) : Host.Outcome State Fault Refusal :=
  let n := (s.x a).toNat
  done (s.settle (
    (s.needsLanes).bind fun _ =>
    (require (n ≤ s.hart.r.vtype.vlmax s.hart.nlg) illegalOperand).bind fun _ =>
    .ok (s.mapRegs (fun r => { r with slen := r.slen.setIfInBounds d (BitVec.ofNat 14 n) })).retire))

/-- An entry: coordinate and value. -/
abbrev Coord := Nat × Nat

/-- Whether coordinates are strictly ascending. -/
def ascending : List Nat → Bool
  | a :: b :: rest => a < b && ascending (b :: rest)
  | _ => true

/-- One entry of the union or intersection, with the flags of its value. -/
def unite (f : Nat → Nat → Nat × BitVec 5) (both : Bool) (a b : List Coord) : List (Nat × Nat × BitVec 5) :=
  let coords := sortBy (fun (x y : Nat) => x ≤ y) (distinct (a.map (·.1) ++ b.map (·.1)))
  coords.filterMap (fun c => match lookupKey c a, lookupKey c b with
    | some x, some y => let (v, fl) := f x y; some (c, v, fl)
    | some x, none => if both then none else some (c, x, 0)
    | none, some y => if both then none else some (c, y, 0)
    | none, none => none)

/-- The stages of spadd and spmul: passes of one stage more each (R366). The order within a pass is left open (DESIGN CHOICE, log 26). -/
def stagesOf (n : Nat) : List (Nat × Nat) :=
  (List.range (((List.range 13).filter (fun t => 2 ^ t < n)).length + 1)).flatMap (fun p => (List.range (p + 1)).map (fun t => (p, p - t)))

/-- spadd and spmul (R366): each operand is the pair v16 + 2i and v17 + 2i. -/
def State.sparse (s : State) (both : Bool) (d a b : Nat) (f : FpFmt → Nat → Nat → Nat → Nat × BitVec 5) : State :=
  let c := s.capture 0 0
  let w := c.w
  let len := fun (n : Nat) => (s.hart.r.slen.getD n 0).toNat
  let regs := [16 + 2 * a, 17 + 2 * a, 16 + 2 * b, 17 + 2 * b]
  let outs := [16 + 2 * d, 17 + 2 * d]
  let need := outs.foldl (fun n v => n + s.chunkNeed v w c.n) 0
  let s0 := if s.hart.resume.isSome then s else s.boundary need
  s0.settleStaged (
      (if s.hart.resume.isSome then .ok () else s0.roomFor need).bind fun _ =>
      (s0.needsLanes).bind fun _ =>
      (require (c.g == 1 && w != 8 && len a ≤ c.n && len b ≤ c.n && (regs ++ outs).all (fun v => s0.groupOk c v 1)) illegalOperand).bind fun _ =>
      (if s.hart.resume.isSome then .ok () else s0.needsParts 2).bind fun _ =>
      (s0.stagedSources c 1 regs).bind fun (gs, s1) =>
      let g := fun j => gs.getD j {}
      let entries := fun (j n : Nat) => (List.range (len n)).map (fun e => ((g j).elem w e, (g (j + 1)).elem w e))
      let ea := entries 0 a
      let eb := entries 2 b
      (require (ascending (ea.map (·.1)) && ascending (eb.map (·.1))) illegalOperand).bind fun _ =>
      let u := unite (f (bondFmt w) c.rm) both ea eb
      (require (u.length ≤ c.n) illegalOperand).bind fun _ =>
      (s1.sound [(w, g 0), (w, g 1)] (fun _ => true) (len a)).bind fun _ =>
      (s1.sound [(w, g 2), (w, g 3)] (fun _ => true) (len b)).bind fun _ =>
      let fill := fun (v : Nat) (l : List Nat) =>
        ((List.range c.n).foldl (fun (x : Group) e => x.put w e (l.getD e 0)) (s1.hart.r.group s1.hart.lanes v 1)).seal
          (blocksOf s1.hart.lanes 1) true
      let coords := fill (outs.headD 0) (u.map (·.1))
      let vals := fill (outs.getD 1 0) (u.map (·.2.1))
      let bound := s.anyBound (regs ++ outs)
      s1.inStages c (stagesOf c.n) (!bound) gs regs outs fun s1 =>
      (s1.emitChunk (outs.headD 0) w c.n (fun _ => true) coords).bind fun s2 =>
      (s2.emitChunk (outs.getD 1 0) w c.n (fun _ => true) vals).bind fun s3 =>
      let s4 := ((s3.setGroup (outs.headD 0) 1 coords).setGroup (outs.getD 1 0) 1 vals)
      let s5 := (s4.nameGroup (outs.headD 0) c.vl c.vtype).nameGroup (outs.getD 1 0) c.vl c.vtype
      let s6 := s5.mapRegs (fun r => { r with slen := r.slen.setIfInBounds d (BitVec.ofNat 14 u.length) })
      let fl := (u.zipIdx).foldl (fun (fl : Flags) x => fl.add x.2 x.1.2.2) {}
      let s7 := s6.mergeFlags fl
      .ok (if 256 < need then s7.endStrip (s7.pc + 4) else s7))
where
  /-- Values are FP of SEW (R365). -/
  bondFmt (w : Nat) : FpFmt := if w = 64 then .fp64 else if w = 32 then .fp32 else .fp16

def execSpadd (d a b : Nat) (s : State) : Host.Outcome State Fault Refusal := done (s.sparse false d a b fpAdd)
def execSpmul (d a b : Nat) (s : State) : Host.Outcome State Fault Refusal := done (s.sparse true d a b fpMul)

end Sys2Proof.Machine
end

