-- ==== Sys2Proof/Machine/VectorMask.lean ====
section
/-! DEFINITION. Carries, compares, merges and moves (R317 to R320), and the mask instructions (R321 to R324). -/

namespace Sys2Proof.Machine

/-! ### Carries (R317) -/

/-- vadc and vsbc: every element below VL is written, with the carry that bit i of kc gives. -/
def State.carryV (s : State) (code d a b c : Nat) (f : Nat → Nat → Nat → Nat → Nat) : State :=
  let cp := s.capture 0 0
  let w := cp.w
  s.runV { elementSpec w w code d [a, b] c (fun _ _ => true) (fun _ _ => (0, 0)) with
    carry := true
    check := fun i e => e < i.cap.n
    run := fun s i lo hi =>
      let all := { i with mask := 2 ^ 8192 - 1 }
      let (g, _) := all.each w w lo hi (fun e => (f w ((i.src 0).elem w e) ((i.src 1).elem w e) (bit i.mask e).toNat, 0))
      .ok ({ group := g.seal (blocksOf i.nl i.cap.g) true }, s) }

def execVadc (d a b c : Nat) (s : State) : Host.Outcome State Fault Refusal :=
  done (s.carryV 0x9c000000 d a b c (fun w x y z => (x + y + z) % 2 ^ w))
def execVsbc (d a b c : Nat) (s : State) : Host.Outcome State Fault Refusal :=
  done (s.carryV 0x9c000001 d a b c (fun w x y z => wrap w ((x : Int) - y - z)))

/-- vaddk: the carries out, as mask bits. -/
def execVaddk (d a b c : Nat) (s : State) : Host.Outcome State Fault Refusal :=
  let w := (s.capture 0 0).w
  let kc := s.mask c
  done (s.runMaskWrite
    { dest := d, srcs := [a, b], sel := c, carry := true, ok := fun _ => true
      f := fun i e => (2 ^ w ≤ (i.src 0).elem w e + (i.src 1).elem w e + (bit kc e).toNat, 0) })

/-! ### Compares (R318) -/

/-- The integer comparisons by their code. -/
def intCompare (cond w a b : Nat) : Bool :=
  match cond with
  | 0 => a == b
  | 1 => a != b
  | 2 => toSigned w a < toSigned w b
  | 3 => a < b
  | 4 => toSigned w a ≤ toSigned w b
  | _ => a ≤ b

def State.compareInt (s : State) (cond d a b k : Nat) : State :=
  let w := (s.capture 0 0).w
  s.runMaskWrite
    { dest := d, srcs := [a, b], sel := k, ok := fun _ => true
      f := fun i e => (intCompare cond w ((i.src 0).elem w e) ((i.src 1).elem w e), 0) }

def State.compareFp (s : State) (cond d a b k : Nat) (bf : Bool) : State :=
  let c := s.capture 0 0
  s.runMaskWrite
    { dest := d, srcs := [a, b], sel := k, ok := fun c => fpLegal c bf
      f := fun i e => fpCompare (fpOf c bf) cond ((i.src 0).elem c.w e) ((i.src 1).elem c.w e) }

def execVcmpEq (d a b k : Nat) (s : State) : Host.Outcome State Fault Refusal := done (s.compareInt 0 d a b k)
def execVcmpNe (d a b k : Nat) (s : State) : Host.Outcome State Fault Refusal := done (s.compareInt 1 d a b k)
def execVcmpLt (d a b k : Nat) (s : State) : Host.Outcome State Fault Refusal := done (s.compareInt 2 d a b k)
def execVcmpLtn (d a b k : Nat) (s : State) : Host.Outcome State Fault Refusal := done (s.compareInt 3 d a b k)
def execVcmpLe (d a b k : Nat) (s : State) : Host.Outcome State Fault Refusal := done (s.compareInt 4 d a b k)
def execVcmpLen (d a b k : Nat) (s : State) : Host.Outcome State Fault Refusal := done (s.compareInt 5 d a b k)
def execVcmpFeq (d a b k : Nat) (bf : Bool) (s : State) : Host.Outcome State Fault Refusal := done (s.compareFp 0 d a b k bf)
def execVcmpFlt (d a b k : Nat) (bf : Bool) (s : State) : Host.Outcome State Fault Refusal := done (s.compareFp 1 d a b k bf)
def execVcmpFle (d a b k : Nat) (bf : Bool) (s : State) : Host.Outcome State Fault Refusal := done (s.compareFp 2 d a b k bf)
def execVcmpFunord (d a b k : Nat) (bf : Bool) (s : State) : Host.Outcome State Fault Refusal := done (s.compareFp 3 d a b k bf)

/-! ### Merges and moves (R319, R320) -/

/-- vmerge: vs2 where kc is 1, else vs1, mortar bytes with the blocks that are of one kind. -/
def execVmerge (d a b c : Nat) (s : State) : Host.Outcome State Fault Refusal :=
  let w := (s.capture 0 0).w
  let per := 256 / w
  done (s.runV { elementSpec w w 0x9c000020 d [a, b] c (fun _ _ => true) (fun _ _ => (0, 0)) with
    carry := true
    check := fun _ _ => false
    steps := fun _ => 1
    run := fun s i _ _ =>
      (s.sound [(w, i.src 1)] i.active i.cap.n).bind fun _ =>
      (s.sound [(w, i.src 0)] (fun e => !(bit i.mask e)) i.cap.n).bind fun _ =>
      let g := (List.range i.cap.n).foldl (fun (g : Group) e =>
        g.put w e (if bit i.mask e then (i.src 1).elem w e else (i.src 0).elem w e)) i.old
      let g := (List.range (divUp i.cap.n per)).foldl (fun (g : Group) q =>
        let m := field i.mask (per * q) (min per (i.cap.n - per * q))
        g.setScale q (if m = 0 then (i.src 0).scale q
          else if m = 2 ^ (min per (i.cap.n - per * q)) - 1 then (i.src 1).scale q else 0)) g
      .ok ({ group := g.seal (blocksOf i.nl i.cap.g) false }, s) })

/-- vmv vd, vs1: bytes, mortar bytes and failed slots move as they are (R203, R243). -/
def execVmvVv (d a : Nat) (s : State) : Host.Outcome State Fault Refusal :=
  let w := (s.capture 0 0).w
  let per := 256 / w
  done (s.runV { wholeSpec w 0x9c000021 d [a] 0 (fun _ _ => true) (fun s i =>
      let g := (List.range i.cap.n).foldl (fun (g : Group) e => g.put w e ((i.src 0).elem w e)) i.old
      let g := (List.range (divUp i.cap.n per)).foldl (fun (g : Group) q => g.setScale q ((i.src 0).scale q)) g
      let g := g.seal (blocksOf i.nl i.cap.g) false
      let g := (List.range (divUp (i.cap.n * w) 64)).foldl (fun (g : Group) t =>
        if bit (i.src 0).fail t then { g with fail := setField g.fail t 1 1 } else g) g
      .ok ({ group := g }, s)) with check := fun _ _ => false })

/-- A scalar in every element below VL. -/
def State.splat (s : State) (code d : Nat) (v : Word) : State :=
  let c := s.capture v 0
  s.runV { elementSpec c.w c.w code d [] 0 (fun _ _ => true) (fun i _ => (i.cap.op1.toNat % 2 ^ c.w, 0)) with ops := (v, 0) }

def execVmvVx (d rs : Nat) (s : State) : Host.Outcome State Fault Refusal := done (s.splat 0x9c000022 d (s.x rs))
def execVmvVf (d rs : Nat) (s : State) : Host.Outcome State Fault Refusal := done (s.splat 0x9c000023 d (s.f rs))

def execVid (d k : Nat) (s : State) : Host.Outcome State Fault Refusal :=
  let w := (s.capture 0 0).w
  done (s.runV (elementSpec w w 0x9c000026 d [] k (fun _ _ => true) (fun _ e => (e % 2 ^ w, 0))))

/-- Element 0 of a vector register, whatever VL is (R320): `k` writes it. -/
def State.moveOut (s : State) (a : Nat) (k : State → Nat → Nat → State) : State :=
  let c := s.capture 0 0
  s.settle (
    (s.needsLanes).bind fun _ =>
    (require (s.groupOk c a c.g) illegalOperand).bind fun _ =>
    (s.readGroup c a c.g).bind fun (g, s1) =>
    (s1.sound [(c.w, g)] (fun _ => true) 1).bind fun _ =>
    .ok (k s1 c.w (g.elem c.w 0)).retire)

def execVmvXv (d a : Nat) (s : State) : Host.Outcome State Fault Refusal :=
  done (s.moveOut a (fun s w v => s.setX d (BitVec.ofInt 64 (toSigned w v))))
def execVmvFv (d a : Nat) (s : State) : Host.Outcome State Fault Refusal :=
  done (s.moveOut a (fun s _ v => s.setF d (BitVec.ofNat 64 v)))

/-! ### Mask instructions (R321 to R324) -/

/-- A mask instruction that writes bits below VL of a mask, from sound source masks. -/
def State.maskOp (s : State) (d : Nat) (srcs : List Nat) (f : Nat → Nat) : State :=
  let vl := s.hart.r.vl.toNat
  s.settle (
    (s.needsLanes).bind fun _ =>
    (srcs.foldl (fun (r : Except Stop Unit) k => r.bind fun _ => s.soundMask k vl) (.ok ())).bind fun _ =>
    .ok (s.setMask d vl (f vl)).retire)

def execKand (d a b : Nat) (s : State) : Host.Outcome State Fault Refusal := done (s.maskOp d [a, b] (fun _ => Nat.land (s.mask a) (s.mask b)))
def execKor (d a b : Nat) (s : State) : Host.Outcome State Fault Refusal := done (s.maskOp d [a, b] (fun _ => Nat.lor (s.mask a) (s.mask b)))
def execKxor (d a b : Nat) (s : State) : Host.Outcome State Fault Refusal := done (s.maskOp d [a, b] (fun _ => Nat.xor (s.mask a) (s.mask b)))
def execKandn (d a b : Nat) (s : State) : Host.Outcome State Fault Refusal :=
  done (s.maskOp d [a, b] (fun _ => Nat.xor (Nat.lor (s.mask a) (s.mask b)) (s.mask b)))
def execKnot (d a : Nat) (s : State) : Host.Outcome State Fault Refusal :=
  done (s.maskOp d [a] (fun n => Nat.xor (s.mask a) (2 ^ n - 1)))
def execKmv (d a : Nat) (s : State) : Host.Outcome State Fault Refusal := done (s.maskOp d [a] (fun _ => s.mask a))

/-- Shifts stay below VL in both directions (R323). -/
def execKshl (d a b : Nat) (s : State) : Host.Outcome State Fault Refusal :=
  done (s.maskOp d [a] (fun n => if n ≤ (s.x b).toNat then 0 else s.mask a * 2 ^ (s.x b).toNat))
def execKshr (d a b : Nat) (s : State) : Host.Outcome State Fault Refusal :=
  done (s.maskOp d [a] (fun n => if n ≤ (s.x b).toNat then 0 else s.mask a % 2 ^ n / 2 ^ (s.x b).toNat))

/-- A mask read by the scalar side (R324). -/
def State.maskToX (s : State) (d a : Nat) (f : List Nat → Word) : State :=
  let vl := s.hart.r.vl.toNat
  s.settle (
    (s.needsLanes).bind fun _ =>
    (s.soundMask a vl).bind fun _ =>
    .ok (s.setX d (f (setBits vl (s.mask a)))).retire)

def execKpop (d a : Nat) (s : State) : Host.Outcome State Fault Refusal := done (s.maskToX d a (fun l => BitVec.ofNat 64 l.length))
def execKfirst (d a : Nat) (s : State) : Host.Outcome State Fault Refusal :=
  done (s.maskToX d a (fun l => match l.head? with | some i => BitVec.ofNat 64 i | none => allOnes64))
def execKlast (d a : Nat) (s : State) : Host.Outcome State Fault Refusal :=
  done (s.maskToX d a (fun l => match l.getLast? with | some i => BitVec.ofNat 64 i | none => allOnes64))

end Sys2Proof.Machine
end

