-- ==== Sys2Proof/Machine/Dispatch.lean ====
section
/-! DEFINITION. One arm for each constructor of `Instr`: a direct call of its meaning. -/

namespace Sys2Proof.Machine
open Sys2Proof

def exec (i : Instr) (s : State) : Host.Outcome State Fault Refusal :=
  match i with
  | .readRequest p f => Sys2Proof.Machine.execReadRequest p f s
  | .readResponse p f => Sys2Proof.Machine.execReadResponse p f s
  | .readStatus p f => Sys2Proof.Machine.execReadStatus p f s
  | .write p f => Sys2Proof.Machine.execWrite p f s
  | .writeAcknowledgement p f => Sys2Proof.Machine.execWriteAcknowledgement p f s
  | .atomicRequest p f => Sys2Proof.Machine.execAtomicRequest p f s
  | .atomicResponse p f => Sys2Proof.Machine.execAtomicResponse p f s
  | .linkControl p f => Sys2Proof.Machine.execLinkControl p f s
  | .flitDiscard p f => Sys2Proof.Machine.execFlitDiscard p f s
  | .flitCrcFailure p => Sys2Proof.Machine.execFlitCrcFailure p s
  | .replayTimeout p => Sys2Proof.Machine.execReplayTimeout p s
  | .portDown p => Sys2Proof.Machine.execPortDown p s
  | .linkControlKeepalive p => Sys2Proof.Machine.execLinkControlKeepalive p s
  | .portTrainingDone p => Sys2Proof.Machine.execPortTrainingDone p s
  | .portTrainingFailed p => Sys2Proof.Machine.execPortTrainingFailed p s
  | .portFail p => Sys2Proof.Machine.execPortFail p s
  | .scheduledSlotStart p slot => Sys2Proof.Machine.execScheduledSlotStart p slot s
  | .systemBarrierArrival p f => Sys2Proof.Machine.execSystemBarrierArrival p f s
  | .systemBarrierRelease p f => Sys2Proof.Machine.execSystemBarrierRelease p f s
  | .gangReady p f => Sys2Proof.Machine.execGangReady p f s
  | .gangGo p f => Sys2Proof.Machine.execGangGo p f s
  | .withdrawRequest p f => Sys2Proof.Machine.execWithdrawRequest p f s
  | .withdraw p f => Sys2Proof.Machine.execWithdraw p f s
  | .tokenProgress p f => Sys2Proof.Machine.execTokenProgress p f s
  | .preemptionRelay p f => Sys2Proof.Machine.execPreemptionRelay p f s
  | .gangFailed p f => Sys2Proof.Machine.execGangFailed p f s
  | .throttleNotice p f => Sys2Proof.Machine.execThrottleNotice p f s
  | .gmcManagementRead p f => Sys2Proof.Machine.execGmcManagementRead p f s
  | .gmcManagementWrite p f => Sys2Proof.Machine.execGmcManagementWrite p f s
  | .gmcWriteThold p f => Sys2Proof.Machine.execGmcWriteThold p f s
  | .gmcWriteGrandmaster p f => Sys2Proof.Machine.execGmcWriteGrandmaster p f s
  | .gmcWriteMinSecurity p f => Sys2Proof.Machine.execGmcWriteMinSecurity p f s
  | .gmcRestartTraining p f => Sys2Proof.Machine.execGmcRestartTraining p f s
  | .attestationRequest p f => Sys2Proof.Machine.execAttestationRequest p f s
  | .sync p f => Sys2Proof.Machine.execSync p f s
  | .followUp p f => Sys2Proof.Machine.execFollowUp p f s
  | .pdelayReq p f => Sys2Proof.Machine.execPdelayReq p f s
  | .pdelayResp p f => Sys2Proof.Machine.execPdelayResp p f s
  | .pdelayRespFollowUp p f => Sys2Proof.Machine.execPdelayRespFollowUp p f s
  | .announce p f => Sys2Proof.Machine.execAnnounce p f s
  | .syncInterval p => Sys2Proof.Machine.execSyncInterval p s
  | .pdelayInterval p => Sys2Proof.Machine.execPdelayInterval p s
  | .announceInterval p => Sys2Proof.Machine.execAnnounceInterval p s
  | .timeLockGained => Sys2Proof.Machine.execTimeLockGained s
  | .timeLockLost => Sys2Proof.Machine.execTimeLockLost s
  | .thermalWarning => Sys2Proof.Machine.execThermalWarning s
  | .thermalLimit => Sys2Proof.Machine.execThermalLimit s
  | .thermalRecovery => Sys2Proof.Machine.execThermalRecovery s
  | .throttleHoldStart => Sys2Proof.Machine.execThrottleHoldStart s
  | .throttleHoldEnd => Sys2Proof.Machine.execThrottleHoldEnd s
  | .reset => Sys2Proof.Machine.execReset s
  | .unitStart => Sys2Proof.Machine.execUnitStart s
  | .unitReady u => Sys2Proof.Machine.execUnitReady u s
  | .unitSelfTestFail u => Sys2Proof.Machine.execUnitSelfTestFail u s
  | .patrolScrub g => Sys2Proof.Machine.execPatrolScrub g s
  | .windowRegisterWrite p f => Sys2Proof.Machine.execWindowRegisterWrite p f s
  | .queueEnable p f => Sys2Proof.Machine.execQueueEnable p f s
  | .queueDisable p f => Sys2Proof.Machine.execQueueDisable p f s
  | .qtailWrite p f => Sys2Proof.Machine.execQtailWrite p f s
  | .sigpushSet p f => Sys2Proof.Machine.execSigpushSet p f s
  | .sigpushAdd p f => Sys2Proof.Machine.execSigpushAdd p f s
  | .signalApply q => Sys2Proof.Machine.execSignalApply q s
  | .ctxentWrite p f => Sys2Proof.Machine.execCtxentWrite p f s
  | .evcfgWrite p f => Sys2Proof.Machine.execEvcfgWrite p f s
  | .evconsWrite p f => Sys2Proof.Machine.execEvconsWrite p f s
  | .schedHold p f => Sys2Proof.Machine.execSchedHold p f s
  | .schedRelease p f => Sys2Proof.Machine.execSchedRelease p f s
  | .schedFlush p f => Sys2Proof.Machine.execSchedFlush p f s
  | .tlbinvAll p f => Sys2Proof.Machine.execTlbinvAll p f s
  | .tlbinvPage p f => Sys2Proof.Machine.execTlbinvPage p f s
  | .shootdownComplete => Sys2Proof.Machine.execShootdownComplete s
  | .recordRead q => Sys2Proof.Machine.execRecordRead q s
  | .startatReached q n => Sys2Proof.Machine.execStartatReached q n s
  | .schedulerChoice => Sys2Proof.Machine.execSchedulerChoice s
  | .gangGoEffective q n => Sys2Proof.Machine.execGangGoEffective q n s
  | .hartSave b n => Sys2Proof.Machine.execHartSave b n s
  | .launchComplete q n => Sys2Proof.Machine.execLaunchComplete q n s
  | .retentionEnter b lg => Sys2Proof.Machine.execRetentionEnter b lg s
  | .laneGroupRetire b lg => Sys2Proof.Machine.execLaneGroupRetire b lg s
  | .stripClose b n => Sys2Proof.Machine.execStripClose b n s
  | .storeBufferTimeout b n => Sys2Proof.Machine.execStoreBufferTimeout b n s
  | .tileClaimServed b n => Sys2Proof.Machine.execTileClaimServed b n s
  | .smcastStart b n => Sys2Proof.Machine.execSmcastStart b n s
  | .vectorInstructionComplete b n => Sys2Proof.Machine.execVectorInstructionComplete b n s
  | .nameCompareDone b n => Sys2Proof.Machine.execNameCompareDone b n s
  | .walkComplete b ctx vmid va => Sys2Proof.Machine.execWalkComplete b ctx vmid va s
  | .probePassDone b n => Sys2Proof.Machine.execProbePassDone b n s
  | .changeoverEnd b => Sys2Proof.Machine.execChangeoverEnd b s
  | .autoGearDrop b n => Sys2Proof.Machine.execAutoGearDrop b n s
  | .gearLeadReached b n => Sys2Proof.Machine.execGearLeadReached b n s
  | .waittTargetReached b n => Sys2Proof.Machine.execWaittTargetReached b n s
  | .barrierRelease q n bar => Sys2Proof.Machine.execBarrierRelease q n bar s
  | .energyInterval => Sys2Proof.Machine.execEnergyInterval s
  | .streamFetch b n sn => Sys2Proof.Machine.execStreamFetch b n sn s
  | .streamFetchComplete b n sn => Sys2Proof.Machine.execStreamFetchComplete b n sn s
  | .copyComplete course imm => Sys2Proof.Machine.execCopyComplete course imm s
  | .mcastLand course imm => Sys2Proof.Machine.execMcastLand course imm s
  | .mergeOpenCommand course imm => Sys2Proof.Machine.execMergeOpenCommand course imm s
  | .mergeEntryArrival course imm => Sys2Proof.Machine.execMergeEntryArrival course imm s
  | .mergeFinCommand course imm => Sys2Proof.Machine.execMergeFinCommand course imm s
  | .mergeStatCommand course imm => Sys2Proof.Machine.execMergeStatCommand course imm s
  | .idleTimeout b n => Sys2Proof.Machine.execIdleTimeout b n s
  | .csrWriteFstat b n => Sys2Proof.Machine.execCsrWriteFstat b n s
  | .csrWriteFidx b n => Sys2Proof.Machine.execCsrWriteFidx b n s
  | .csrWriteReusehit b n => Sys2Proof.Machine.execCsrWriteReusehit b n s
  | .add d a b => Sys2Proof.Machine.execAdd d a b s
  | .sub d a b => Sys2Proof.Machine.execSub d a b s
  | .and d a b => Sys2Proof.Machine.execAnd d a b s
  | .or d a b => Sys2Proof.Machine.execOr d a b s
  | .xor d a b => Sys2Proof.Machine.execXor d a b s
  | .sll d a b => Sys2Proof.Machine.execSll d a b s
  | .srl d a b => Sys2Proof.Machine.execSrl d a b s
  | .sra d a b => Sys2Proof.Machine.execSra d a b s
  | .slt d a b => Sys2Proof.Machine.execSlt d a b s
  | .sltn d a b => Sys2Proof.Machine.execSltn d a b s
  | .mul d a b => Sys2Proof.Machine.execMul d a b s
  | .mulh d a b => Sys2Proof.Machine.execMulh d a b s
  | .mulhn d a b => Sys2Proof.Machine.execMulhn d a b s
  | .div d a b => Sys2Proof.Machine.execDiv d a b s
  | .divn d a b => Sys2Proof.Machine.execDivn d a b s
  | .rem d a b => Sys2Proof.Machine.execRem d a b s
  | .remn d a b => Sys2Proof.Machine.execRemn d a b s
  | .min d a b => Sys2Proof.Machine.execMin d a b s
  | .minn d a b => Sys2Proof.Machine.execMinn d a b s
  | .max d a b => Sys2Proof.Machine.execMax d a b s
  | .maxn d a b => Sys2Proof.Machine.execMaxn d a b s
  | .clz d a => Sys2Proof.Machine.execClz d a s
  | .ctz d a => Sys2Proof.Machine.execCtz d a s
  | .popc d a => Sys2Proof.Machine.execPopc d a s
  | .addi d a imm => Sys2Proof.Machine.execAddi d a imm s
  | .andi d a imm => Sys2Proof.Machine.execAndi d a imm s
  | .ori d a imm => Sys2Proof.Machine.execOri d a imm s
  | .xori d a imm => Sys2Proof.Machine.execXori d a imm s
  | .slti d a imm => Sys2Proof.Machine.execSlti d a imm s
  | .sltni d a imm => Sys2Proof.Machine.execSltni d a imm s
  | .slli d a sh => Sys2Proof.Machine.execSlli d a sh s
  | .srli d a sh => Sys2Proof.Machine.execSrli d a sh s
  | .srai d a sh => Sys2Proof.Machine.execSrai d a sh s
  | .lhi d imm => Sys2Proof.Machine.execLhi d imm s
  | .apc d imm => Sys2Proof.Machine.execApc d imm s
  | .ld d a w h off => Sys2Proof.Machine.execLd d a w h off s
  | .ldz d a w h off => Sys2Proof.Machine.execLdz d a w h off s
  | .fld d a w h off => Sys2Proof.Machine.execFld d a w h off s
  | .st rs a w h off => Sys2Proof.Machine.execSt rs a w h off s
  | .fst rs a w h off => Sys2Proof.Machine.execFst rs a w h off s
  | .amoadd d a b w h => Sys2Proof.Machine.execAmoadd d a b w h s
  | .amoswap d a b w h => Sys2Proof.Machine.execAmoswap d a b w h s
  | .amocas d a b w h => Sys2Proof.Machine.execAmocas d a b w h s
  | .amomin d a b w h => Sys2Proof.Machine.execAmomin d a b w h s
  | .amominn d a b w h => Sys2Proof.Machine.execAmominn d a b w h s
  | .amomax d a b w h => Sys2Proof.Machine.execAmomax d a b w h s
  | .amomaxn d a b w h => Sys2Proof.Machine.execAmomaxn d a b w h s
  | .amoand d a b w h => Sys2Proof.Machine.execAmoand d a b w h s
  | .amoor d a b w h => Sys2Proof.Machine.execAmoor d a b w h s
  | .amoxor d a b w h => Sys2Proof.Machine.execAmoxor d a b w h s
  | .jal d imm => Sys2Proof.Machine.execJal d imm s
  | .jalr d a imm => Sys2Proof.Machine.execJalr d a imm s
  | .beq a b off => Sys2Proof.Machine.execBeq a b off s
  | .bne a b off => Sys2Proof.Machine.execBne a b off s
  | .blt a b off => Sys2Proof.Machine.execBlt a b off s
  | .bge a b off => Sys2Proof.Machine.execBge a b off s
  | .bltn a b off => Sys2Proof.Machine.execBltn a b off s
  | .bgen a b off => Sys2Proof.Machine.execBgen a b off s
  | .bkany k off => Sys2Proof.Machine.execBkany k off s
  | .bknone k off => Sys2Proof.Machine.execBknone k off s
  | .fadd d a b t => Sys2Proof.Machine.execFadd d a b t s
  | .fsub d a b t => Sys2Proof.Machine.execFsub d a b t s
  | .fmul d a b t => Sys2Proof.Machine.execFmul d a b t s
  | .fdiv d a b t => Sys2Proof.Machine.execFdiv d a b t s
  | .fsqrt d a t => Sys2Proof.Machine.execFsqrt d a t s
  | .fmin d a b t => Sys2Proof.Machine.execFmin d a b t s
  | .fmax d a b t => Sys2Proof.Machine.execFmax d a b t s
  | .fclass d a t => Sys2Proof.Machine.execFclass d a t s
  | .fmvX d a => Sys2Proof.Machine.execFmvX d a s
  | .fmvF d a => Sys2Proof.Machine.execFmvF d a s
  | .fma d a b c t => Sys2Proof.Machine.execFma d a b c t s
  | .fms d a b c t => Sys2Proof.Machine.execFms d a b c t s
  | .fcvt d a t f => Sys2Proof.Machine.execFcvt d a t f s
  | .fcmpEq d a b t => Sys2Proof.Machine.execFcmpEq d a b t s
  | .fcmpLt d a b t => Sys2Proof.Machine.execFcmpLt d a b t s
  | .fcmpLe d a b t => Sys2Proof.Machine.execFcmpLe d a b t s
  | .fcmpUnord d a b t => Sys2Proof.Machine.execFcmpUnord d a b t s
  | .csrr d n => Sys2Proof.Machine.execCsrr d n s
  | .csrw a n => Sys2Proof.Machine.execCsrw a n s
  | .csrs a n => Sys2Proof.Machine.execCsrs a n s
  | .csrc a n => Sys2Proof.Machine.execCsrc a n s
  | .setvli d a v => Sys2Proof.Machine.execSetvli d a v s
  | .fork d imm => Sys2Proof.Machine.execFork d imm s
  | .setvl d a b => Sys2Proof.Machine.execSetvl d a b s
  | .nexti d => Sys2Proof.Machine.execNexti d s
  | .join x => Sys2Proof.Machine.execJoin x s
  | .gear g => Sys2Proof.Machine.execGear g s
  | .gearauto g => Sys2Proof.Machine.execGearauto g s
  | .waitt a => Sys2Proof.Machine.execWaitt a s
  | .bara a scope => Sys2Proof.Machine.execBara a scope s
  | .barw a => Sys2Proof.Machine.execBarw a s
  | .fence paths scope => Sys2Proof.Machine.execFence paths scope s
  | .svc code => Sys2Proof.Machine.execSvc code s
  | .eret => Sys2Proof.Machine.execEret s
  | .idle => Sys2Proof.Machine.execIdle s
  | .exit => Sys2Proof.Machine.execExit s
  | .vaddVv d a b k => Sys2Proof.Machine.execVaddVv d a b k s
  | .vsubVv d a b k => Sys2Proof.Machine.execVsubVv d a b k s
  | .vmulVv d a b k => Sys2Proof.Machine.execVmulVv d a b k s
  | .vmulhVv d a b k => Sys2Proof.Machine.execVmulhVv d a b k s
  | .vmulhnVv d a b k => Sys2Proof.Machine.execVmulhnVv d a b k s
  | .vdivVv d a b k => Sys2Proof.Machine.execVdivVv d a b k s
  | .vdivnVv d a b k => Sys2Proof.Machine.execVdivnVv d a b k s
  | .vremVv d a b k => Sys2Proof.Machine.execVremVv d a b k s
  | .vremnVv d a b k => Sys2Proof.Machine.execVremnVv d a b k s
  | .vminVv d a b k => Sys2Proof.Machine.execVminVv d a b k s
  | .vminnVv d a b k => Sys2Proof.Machine.execVminnVv d a b k s
  | .vmaxVv d a b k => Sys2Proof.Machine.execVmaxVv d a b k s
  | .vmaxnVv d a b k => Sys2Proof.Machine.execVmaxnVv d a b k s
  | .vandVv d a b k => Sys2Proof.Machine.execVandVv d a b k s
  | .vorVv d a b k => Sys2Proof.Machine.execVorVv d a b k s
  | .vxorVv d a b k => Sys2Proof.Machine.execVxorVv d a b k s
  | .vsllVv d a b k => Sys2Proof.Machine.execVsllVv d a b k s
  | .vsrlVv d a b k => Sys2Proof.Machine.execVsrlVv d a b k s
  | .vsraVv d a b k => Sys2Proof.Machine.execVsraVv d a b k s
  | .vsaddVv d a b k => Sys2Proof.Machine.execVsaddVv d a b k s
  | .vsaddnVv d a b k => Sys2Proof.Machine.execVsaddnVv d a b k s
  | .vssubVv d a b k => Sys2Proof.Machine.execVssubVv d a b k s
  | .vssubnVv d a b k => Sys2Proof.Machine.execVssubnVv d a b k s
  | .vaddVx d a x k => Sys2Proof.Machine.execVaddVx d a x k s
  | .vsubVx d a x k => Sys2Proof.Machine.execVsubVx d a x k s
  | .vmulVx d a x k => Sys2Proof.Machine.execVmulVx d a x k s
  | .vmulhVx d a x k => Sys2Proof.Machine.execVmulhVx d a x k s
  | .vmulhnVx d a x k => Sys2Proof.Machine.execVmulhnVx d a x k s
  | .vdivVx d a x k => Sys2Proof.Machine.execVdivVx d a x k s
  | .vdivnVx d a x k => Sys2Proof.Machine.execVdivnVx d a x k s
  | .vremVx d a x k => Sys2Proof.Machine.execVremVx d a x k s
  | .vremnVx d a x k => Sys2Proof.Machine.execVremnVx d a x k s
  | .vminVx d a x k => Sys2Proof.Machine.execVminVx d a x k s
  | .vminnVx d a x k => Sys2Proof.Machine.execVminnVx d a x k s
  | .vmaxVx d a x k => Sys2Proof.Machine.execVmaxVx d a x k s
  | .vmaxnVx d a x k => Sys2Proof.Machine.execVmaxnVx d a x k s
  | .vandVx d a x k => Sys2Proof.Machine.execVandVx d a x k s
  | .vorVx d a x k => Sys2Proof.Machine.execVorVx d a x k s
  | .vxorVx d a x k => Sys2Proof.Machine.execVxorVx d a x k s
  | .vsllVx d a x k => Sys2Proof.Machine.execVsllVx d a x k s
  | .vsrlVx d a x k => Sys2Proof.Machine.execVsrlVx d a x k s
  | .vsraVx d a x k => Sys2Proof.Machine.execVsraVx d a x k s
  | .vsaddVx d a x k => Sys2Proof.Machine.execVsaddVx d a x k s
  | .vsaddnVx d a x k => Sys2Proof.Machine.execVsaddnVx d a x k s
  | .vssubVx d a x k => Sys2Proof.Machine.execVssubVx d a x k s
  | .vssubnVx d a x k => Sys2Proof.Machine.execVssubnVx d a x k s
  | .vaddVi d a imm k => Sys2Proof.Machine.execVaddVi d a imm k s
  | .vsubVi d a imm k => Sys2Proof.Machine.execVsubVi d a imm k s
  | .vmulVi d a imm k => Sys2Proof.Machine.execVmulVi d a imm k s
  | .vmulhVi d a imm k => Sys2Proof.Machine.execVmulhVi d a imm k s
  | .vmulhnVi d a imm k => Sys2Proof.Machine.execVmulhnVi d a imm k s
  | .vdivVi d a imm k => Sys2Proof.Machine.execVdivVi d a imm k s
  | .vdivnVi d a imm k => Sys2Proof.Machine.execVdivnVi d a imm k s
  | .vremVi d a imm k => Sys2Proof.Machine.execVremVi d a imm k s
  | .vremnVi d a imm k => Sys2Proof.Machine.execVremnVi d a imm k s
  | .vminVi d a imm k => Sys2Proof.Machine.execVminVi d a imm k s
  | .vminnVi d a imm k => Sys2Proof.Machine.execVminnVi d a imm k s
  | .vmaxVi d a imm k => Sys2Proof.Machine.execVmaxVi d a imm k s
  | .vmaxnVi d a imm k => Sys2Proof.Machine.execVmaxnVi d a imm k s
  | .vandVi d a imm k => Sys2Proof.Machine.execVandVi d a imm k s
  | .vorVi d a imm k => Sys2Proof.Machine.execVorVi d a imm k s
  | .vxorVi d a imm k => Sys2Proof.Machine.execVxorVi d a imm k s
  | .vsllVi d a imm k => Sys2Proof.Machine.execVsllVi d a imm k s
  | .vsrlVi d a imm k => Sys2Proof.Machine.execVsrlVi d a imm k s
  | .vsraVi d a imm k => Sys2Proof.Machine.execVsraVi d a imm k s
  | .vsaddVi d a imm k => Sys2Proof.Machine.execVsaddVi d a imm k s
  | .vsaddnVi d a imm k => Sys2Proof.Machine.execVsaddnVi d a imm k s
  | .vssubVi d a imm k => Sys2Proof.Machine.execVssubVi d a imm k s
  | .vssubnVi d a imm k => Sys2Proof.Machine.execVssubnVi d a imm k s
  | .vfaddVv d a b k bf => Sys2Proof.Machine.execVfaddVv d a b k bf s
  | .vfsubVv d a b k bf => Sys2Proof.Machine.execVfsubVv d a b k bf s
  | .vfmulVv d a b k bf => Sys2Proof.Machine.execVfmulVv d a b k bf s
  | .vfdivVv d a b k bf => Sys2Proof.Machine.execVfdivVv d a b k bf s
  | .vfminVv d a b k bf => Sys2Proof.Machine.execVfminVv d a b k bf s
  | .vfmaxVv d a b k bf => Sys2Proof.Machine.execVfmaxVv d a b k bf s
  | .vfsqrt d a k bf => Sys2Proof.Machine.execVfsqrt d a k bf s
  | .vfaddVf d a f k bf => Sys2Proof.Machine.execVfaddVf d a f k bf s
  | .vfsubVf d a f k bf => Sys2Proof.Machine.execVfsubVf d a f k bf s
  | .vfmulVf d a f k bf => Sys2Proof.Machine.execVfmulVf d a f k bf s
  | .vfdivVf d a f k bf => Sys2Proof.Machine.execVfdivVf d a f k bf s
  | .vfminVf d a f k bf => Sys2Proof.Machine.execVfminVf d a f k bf s
  | .vfmaxVf d a f k bf => Sys2Proof.Machine.execVfmaxVf d a f k bf s
  | .vfcvt d a t k f => Sys2Proof.Machine.execVfcvt d a t k f s
  | .vqz d a t k f => Sys2Proof.Machine.execVqz d a t k f s
  | .vdq d a t k f => Sys2Proof.Machine.execVdq d a t k f s
  | .vfexp d a k => Sys2Proof.Machine.execVfexp d a k s
  | .vflog d a k => Sys2Proof.Machine.execVflog d a k s
  | .vgumbel d k => Sys2Proof.Machine.execVgumbel d k s
  | .vrng d k => Sys2Proof.Machine.execVrng d k s
  | .vrngSeed rs => Sys2Proof.Machine.execVrngSeed rs s
  | .vscl d a b k => Sys2Proof.Machine.execVscl d a b k s
  | .vsclg d a => Sys2Proof.Machine.execVsclg d a s
  | .vfma d a b k bf => Sys2Proof.Machine.execVfma d a b k bf s
  | .vfms d a b k bf => Sys2Proof.Machine.execVfms d a b k bf s
  | .vdotS d a b k t => Sys2Proof.Machine.execVdotS d a b k t s
  | .vdotG d a b k t => Sys2Proof.Machine.execVdotG d a b k t s
  | .vadc d a b c => Sys2Proof.Machine.execVadc d a b c s
  | .vsbc d a b c => Sys2Proof.Machine.execVsbc d a b c s
  | .vaddk d a b c => Sys2Proof.Machine.execVaddk d a b c s
  | .vcmpEq d a b k => Sys2Proof.Machine.execVcmpEq d a b k s
  | .vcmpNe d a b k => Sys2Proof.Machine.execVcmpNe d a b k s
  | .vcmpLt d a b k => Sys2Proof.Machine.execVcmpLt d a b k s
  | .vcmpLtn d a b k => Sys2Proof.Machine.execVcmpLtn d a b k s
  | .vcmpLe d a b k => Sys2Proof.Machine.execVcmpLe d a b k s
  | .vcmpLen d a b k => Sys2Proof.Machine.execVcmpLen d a b k s
  | .vcmpFeq d a b k bf => Sys2Proof.Machine.execVcmpFeq d a b k bf s
  | .vcmpFlt d a b k bf => Sys2Proof.Machine.execVcmpFlt d a b k bf s
  | .vcmpFle d a b k bf => Sys2Proof.Machine.execVcmpFle d a b k bf s
  | .vcmpFunord d a b k bf => Sys2Proof.Machine.execVcmpFunord d a b k bf s
  | .vmerge d a b c => Sys2Proof.Machine.execVmerge d a b c s
  | .vmvVv d a => Sys2Proof.Machine.execVmvVv d a s
  | .vmvVx d rs => Sys2Proof.Machine.execVmvVx d rs s
  | .vmvVf d rs => Sys2Proof.Machine.execVmvVf d rs s
  | .vmvXv d a => Sys2Proof.Machine.execVmvXv d a s
  | .vmvFv d a => Sys2Proof.Machine.execVmvFv d a s
  | .vid d k => Sys2Proof.Machine.execVid d k s
  | .kand d a b => Sys2Proof.Machine.execKand d a b s
  | .kor d a b => Sys2Proof.Machine.execKor d a b s
  | .kxor d a b => Sys2Proof.Machine.execKxor d a b s
  | .kandn d a b => Sys2Proof.Machine.execKandn d a b s
  | .knot d a => Sys2Proof.Machine.execKnot d a s
  | .kmv d a => Sys2Proof.Machine.execKmv d a s
  | .kshl d a b => Sys2Proof.Machine.execKshl d a b s
  | .kshr d a b => Sys2Proof.Machine.execKshr d a b s
  | .kpop d a => Sys2Proof.Machine.execKpop d a s
  | .kfirst d a => Sys2Proof.Machine.execKfirst d a s
  | .klast d a => Sys2Proof.Machine.execKlast d a s
  | .kld d a => Sys2Proof.Machine.execKld d a s
  | .kst ks a => Sys2Proof.Machine.execKst ks a s
  | .vld d a k eo so w h => Sys2Proof.Machine.execVld d a k eo so w h s
  | .vlds d a b k eo so w h => Sys2Proof.Machine.execVlds d a b k eo so w h s
  | .vldx d a b k eo so w h => Sys2Proof.Machine.execVldx d a b k eo so w h s
  | .vldff d a k eo so w h => Sys2Proof.Machine.execVldff d a k eo so w h s
  | .vst vs a k eo so w h => Sys2Proof.Machine.execVst vs a k eo so w h s
  | .vsts vs a b k eo so w h => Sys2Proof.Machine.execVsts vs a b k eo so w h s
  | .vstx vs a b k eo so w h => Sys2Proof.Machine.execVstx vs a b k eo so w h s
  | .vstxadd vs a b k w f => Sys2Proof.Machine.execVstxadd vs a b k w f s
  | .vldseg d a k f so w h => Sys2Proof.Machine.execVldseg d a k f so w h s
  | .vldpl d a k eo so w h => Sys2Proof.Machine.execVldpl d a k eo so w h s
  | .vstseg vs a k f so w h => Sys2Proof.Machine.execVstseg vs a k f so w h s
  | .vstpl vs a k eo so w h => Sys2Proof.Machine.execVstpl vs a k eo so w h s
  | .vamoadd d a b k w => Sys2Proof.Machine.execVamoadd d a b k w s
  | .vamomin d a b k w n => Sys2Proof.Machine.execVamomin d a b k w n s
  | .vamomax d a b k w n => Sys2Proof.Machine.execVamomax d a b k w n s
  | .vamoswap d a b k w => Sys2Proof.Machine.execVamoswap d a b k w s
  | .sbind d a n => Sys2Proof.Machine.execSbind d a n s
  | .sunbind n => Sys2Proof.Machine.execSunbind n s
  | .sclose n => Sys2Proof.Machine.execSclose n s
  | .scopy d a c => Sys2Proof.Machine.execScopy d a c s
  | .sxform d a c => Sys2Proof.Machine.execSxform d a c s
  | .smcast d vs c => Sys2Proof.Machine.execSmcast d vs c s
  | .xwait a c => Sys2Proof.Machine.execXwait a c s
  | .xpoll d a c => Sys2Proof.Machine.execXpoll d a c s
  | .mgopen d a => Sys2Proof.Machine.execMgopen d a s
  | .mgpush a b k => Sys2Proof.Machine.execMgpush a b k s
  | .mgfin d a => Sys2Proof.Machine.execMgfin d a s
  | .mgstat d a => Sys2Proof.Machine.execMgstat d a s
  | .vpass d c op start cnt => Sys2Proof.Machine.execVpass d c op start cnt s
  | .vpassD d c op start cnt => Sys2Proof.Machine.execVpassD d c op start cnt s
  | .vredS d a t k => Sys2Proof.Machine.execVredS d a t k s
  | .vredG d a t k => Sys2Proof.Machine.execVredG d a t k s
  | .vredOp d a op k => Sys2Proof.Machine.execVredOp d a op k s
  | .vscanS d a t k => Sys2Proof.Machine.execVscanS d a t k s
  | .vscanG d a t k => Sys2Proof.Machine.execVscanG d a t k s
  | .vscanOp d a op k => Sys2Proof.Machine.execVscanOp d a op k s
  | .vcompress d a c => Sys2Proof.Machine.execVcompress d a c s
  | .vmaxi d a f c => Sys2Proof.Machine.execVmaxi d a f c s
  | .vmaxiBf16 d a f c => Sys2Proof.Machine.execVmaxiBf16 d a f c s
  | .vsort d a k => Sys2Proof.Machine.execVsort d a k s
  | .vsortD d a k => Sys2Proof.Machine.execVsortD d a k s
  | .vroute d a => Sys2Proof.Machine.execVroute d a s
  | .spadd d a b => Sys2Proof.Machine.execSpadd d a b s
  | .spmul d a b => Sys2Proof.Machine.execSpmul d a b s
  | .splen d a => Sys2Proof.Machine.execSplen d a s
  | .opld n a => Sys2Proof.Machine.execOpld n a s
  | .opclr n => Sys2Proof.Machine.execOpclr n s
  | .topaS t a b k y => Sys2Proof.Machine.execTopaS t a b k y s
  | .topaG t a b k y => Sys2Proof.Machine.execTopaG t a b k y s
  | .tileon n => Sys2Proof.Machine.execTileon n s
  | .tileoff => Sys2Proof.Machine.execTileoff s
  | .tzero t => Sys2Proof.Machine.execTzero t s
  | .tld t a b h => Sys2Proof.Machine.execTld t a b h s
  | .tst t a b h => Sys2Proof.Machine.execTst t a b h s
  | .tmvr d t a k => Sys2Proof.Machine.execTmvr d t a k s
  | .tmvc d t a k => Sys2Proof.Machine.execTmvc d t a k s
  | .tvmr t vs a => Sys2Proof.Machine.execTvmr t vs a s
  | .tvmc t vs a => Sys2Proof.Machine.execTvmc t vs a s
  | .nop => Sys2Proof.Machine.execNop s
  | .hpf a h off => Sys2Proof.Machine.execHpf a h off s
  | .illegalInstruction reserved w => Sys2Proof.Machine.execIllegalInstruction reserved w s
  | .hintNoOp w => Sys2Proof.Machine.execHintNoOp w s
  | .instructionFetchFault => Sys2Proof.Machine.execInstructionFetchFault s
  | .idleEarlyEnd b n => Sys2Proof.Machine.execIdleEarlyEnd b n s
  | .flushComplete => Sys2Proof.Machine.execFlushComplete s
  | .restoreComplete b n => Sys2Proof.Machine.execRestoreComplete b n s

end Sys2Proof.Machine
end

