-- ==== Sys2Proof/Machine/Issue.lean ====
section
/-! DEFINITION. What waits in the queue of the vector side with a block that was read at its dispatch (R338, R342, R354, R367), and what one of
them does once the vector side reaches it. -/

namespace Sys2Proof.Machine

/-- The block of a word that reads one at its dispatch, on path S. -/
def State.readIssued (s : State) (w : BitVec 32) : Except Stop (Issued × State) :=
  let f := fun (lo n : Nat) => field w.toNat lo n
  let a := f 16 5
  if isOpld w then (s.slotBlock a).bind fun (v, s) => .ok (.slot v, s)
  else if isSbind w then (s.streamBlock (f 21 5) a (f 8 3)).bind fun (t, s) => .ok (.stream t, s)
  else if isCopy w then
    (if f 11 5 = 0 then s.copyBlock a (f 9 2) 32 scopyBlock else s.copyBlock a (f 9 2) 64 sxformBlock).bind fun (b, s) => .ok (.copy b, s)
  else
    (s.mergeBlock a (match f 11 5 with
      | 0 => mgopenBlock
      | 2 => mgfinBlock
      | _ => mgstatBlock)).bind fun (x, s) => .ok (.merge x.1 x.2, s)

/-- The vector side reaches it. -/
def State.runIssued (s : State) (w : BitVec 32) (o : Issued) : State :=
  let f := fun (lo n : Nat) => field w.toNat lo n
  match o with
  | .slot v => (s.setSlot (f 21 3) v).retire
  | .stream t => s.settle (s.bindStream (f 21 5) (f 8 3) t)
  | .copy b => s.issueCopy (f 21 5) (f 9 2) b
  | .merge c m => s.issueMerge (f 21 5) c m

/-- The scalar side places the word in hand in the queue, with the block it reads for it. -/
def State.dispatchWord (s : State) (w : BitVec 32) : State :=
  if readsBlock w then
    match s.readIssued w with
    | .ok (o, t) => t.enqueue w (some o)
    | .error e => s.settle (.error e)
  else s.enqueue w

end Sys2Proof.Machine
end

