-- ==== Sys2Proof/Machine/Step.lean ====
section
/-! DEFINITION. One step of the machine: whoever the agenda names moves; with an empty agenda the hart in focus moves. The
definitions that need the decoder carry the word noncomputable because Lean's runtime has no tags for the later
constructors of `Instr`; they are plain functions. -/

namespace Sys2Proof.Machine

/-- An instruction that has been started on lane groups wakes them (R108). -/
def woken (s : State) (w : BitVec 32) : Host.Outcome State Fault Refusal → Host.Outcome State Fault Refusal
  | .next t => .next (t.wokenBy s w)
  | r => r

/-- Run the word in hand: the instruction it decodes to, or the trap of a word that is none (R270). -/
noncomputable def runWord (w : BitVec 32) (s : State) : Host.Outcome State Fault Refusal :=
  woken s w (match decodeWord w.toNat with
  | .ok i => exec i s
  | .error .reserved => exec (.illegalInstruction true w) s
  | .error _ => exec (.illegalInstruction false w) s)

/-- Fetch and run the instruction at the program counter (R201, R252). -/
noncomputable def issue (s : State) : Host.Outcome State Fault Refusal :=
  match s.fetch with
  | .ok (w, s) => runWord w (s.mapHart (fun h => { h with iword := w }))
  | .error (.wait w need) => .next (s.waitFor w need)
  | .error (.hold need _) => .next (s.askFor .memory need)
  | .error (.trap _) => exec .instructionFetchFault s

/-- The state that an outcome holds, if it is one. -/
def stateOr (s : State) : Host.Outcome State Fault Refusal → State
  | .next t => t
  | _ => s

/-- The scalar side issues behind the vector instructions that wait, if it may now (R97, R98): a vector instruction takes its place in the
queue, a scalar one runs. What would trap, end a strip or wait stays for later. -/
noncomputable def issueBehind (s : State) : State :=
  if !s.mayIssue then s
  else match s.fetch with
    | .error (.wait w need) => (s.waitFor w need).issuedBehind s s 0
    | .error _ => s
    | .ok (w, s1) =>
      if !(s1.issues w) then s
      else
        let s2 := s1.aside w
        (if queues w || trails w then s2.dispatchWord w else stateOr s2 (runWord w s2)).issuedBehind s s2 w

/-- The oldest queued instruction does on the vector side what its dispatch found. -/
noncomputable def runQueued (q : Queued) (s : State) : State :=
  match q.op with
  | some o => s.runIssued q.word o
  | none => stateOr s (runWord q.word s)

/-- The oldest queued instruction starts as its dispatch found it (R97). While an smcast waits the scalar side issues behind it; a report that
traps at a boundary traps before it (R241). -/
noncomputable def startQueued (q : Queued) (rest : List Queued) (s : State) : State :=
  let t := (runQueued q (s.asOf q)).putBack s q rest
  if t.hart.vqueue.length ≤ rest.length ∨ t.hart.wait ≠ .smcast then t
  else match t.boundaryReport with
    | some r => t.squash.takeReport r q.word
    | none => issueBehind t

/-- The oldest queued instruction starts behind those in flight and does `k` steps, if it may and goes through (R95, R97). -/
noncomputable def startBehind (k : Nat) (s : State) : State :=
  match s.hart.vqueue with
  | [] => s
  | q :: rest =>
    if s.hart.run ≠ .running ∨ !s.mayStart q then s
    else
      let t := stateOr s (runWord q.word ((s.asOf q).mapHart (fun h => { h with budget := some k })))
      if t.clean s && t.hart.inflight.length == s.hart.inflight.length + 1 then t.putBack s q rest else s

/-- The `j`-th instruction in flight does `k` more steps (R95, R96). -/
noncomputable def proceedWith (j k : Nat) (s : State) : State :=
  match s.hart.inflight[j]? with
  | none => s
  | some r =>
    if s.hart.run ≠ .running ∨ r.finished ∨ s.brick.change.isSome ∨ s.hart.entry.isSome then s
    else
      let t := stateOr s (runWord r.word ((s.takeInFlight r).mapHart (fun h => { h with budget := some k })))
      if j = 0 ∨ t.clean s then t else s

/-- A report that traps at the boundary before the next instruction, unless that instruction meets a synchronous cause, which an answer of
another node may yet show (R225, R241). -/
noncomputable def reportBefore (r : Word) (s : State) : Host.Outcome State Fault Refusal :=
  match s.fetch with
  | .error (.trap _) => exec .instructionFetchFault s
  | .error (.wait w need) => .next (s.waitFor w need)
  | .error (.hold need _) => .next (s.askFor .memory need)
  | .ok (w, s1) =>
    let t := stateOr s1 (runWord w (s1.mapHart (fun h => { h with iword := w })))
    if t.asksReads s1 ∨ t.dev.traps ≠ s1.dev.traps ∧ t.dev.cause ≠ 0x11 then .next t else .next (s1.takeReport r w)

/-- The turn of the hart in focus. -/
noncomputable def hartTurn (ahead : Bool) (s : State) : Host.Outcome State Fault Refusal :=
  let b := s.hart.brick
  let n := s.hart.num
  if s.hart.run ≠ .running then .next (match s.hart.run, s.hart.entry with
    | .stopped, some e => s.proceed e
    | _, _ => s)
  else match s.before ahead with
    | .changeover => exec (.changeoverEnd b) s
    | .entry e => .next (s.proceed e)
    | .stay => .next s
    | .start q rest => .next (startQueued q rest s)
    | .close => exec (.stripClose b n) s
    | .complete => exec (.vectorInstructionComplete b n) s
    | .resume r => runWord r.word (s.takeInFlight r)
    | .csr (.fstat _ _) => exec (.csrWriteFstat b n) s
    | .csr (.fidx _ _ _) => exec (.csrWriteFidx b n) s
    | .csr (.reuseHit _ _) => exec (.csrWriteReusehit b n) s
    | .split => .next (s.endStrip s.pc)
    | .report r => reportBefore r s
    | .idle => if s.idleOver then exec (.idleTimeout b n) s else .next s
    | .nothing => issue s

/-- End an instruction: no record is being continued, no limit holds, and a wait that has ended lowers no gear. -/
def finish : Host.Outcome State Fault Refusal → Host.Outcome State Fault Refusal
  | .next s => .next s.settled.regear
  | r => r

/-- What one turn of the agenda does. -/
noncomputable def turn (t : Turn) (s : State) : Host.Outcome State Fault Refusal :=
  match t with
  | .hart b n => if b < 1024 ∧ n < 4 then finish (hartTurn false (s.focus b n)) else .fault .noSuchUnit
  | .ahead b n => if b < 1024 ∧ n < 4 then finish (hartTurn true (s.focus b n)) else .fault .noSuchUnit
  | .part b n k =>
    if b < 1024 ∧ n < 4 then
      finish (hartTurn false ((s.focus b n).mapHart (fun h => { h with budget := some k })))
    else .fault .noSuchUnit
  | .issue b n => if b < 1024 ∧ n < 4 then
      finish (.next (let s := s.focus b n; if s.hart.run = .running then issueBehind s else s)) else .fault .noSuchUnit
  | .start b n k => if b < 1024 ∧ n < 4 then finish (.next (startBehind k (s.focus b n))) else .fault .noSuchUnit
  | .proceed b n j k => if b < 1024 ∧ n < 4 then finish (.next (proceedWith j k (s.focus b n))) else .fault .noSuchUnit
  | .event i => if i.isEvent && i.wf then exec i s else .fault .noSuchUnit
  | .flit p l =>
    if p < 32 ∧ l.length = 256 then (if (s.dev.port p).ready || s.dev.released.contains (p, flitOfBytes l)
      then exec (bytesRow s.dev p l) s else .next s)
    else .fault .noSuchUnit
  | .evictTlb i => .next (s.mapDev (fun d => { d with tlb := removeAt i d.tlb }))
  | .fillTlb i l => .next (s.mapDev (fun d => match d.tlb[i]? with
      | some e => { d with tlb := keepEntry d.tlb { e with level := l } }
      | none => d))
  | .evictReuse b _ => if b < 1024 then .next (s.relieve b) else .fault .noSuchUnit
  | .upset u => .next (s.upset u)

/-- What a step leaves: stores of harts that have ended go on performing (R190, R231), and the areas in the pool hold what the device
has changed (R171, R242). -/
def keep : Host.Outcome State Fault Refusal → Host.Outcome State Fault Refusal
  | .next s => .next s.closeEnded.syncAreas
  | r => r

/-- One step. -/
noncomputable def step (s : State) : Host.Outcome State Fault Refusal :=
  let s := s.tick
  keep (match s.dev.agenda with
    | t :: rest => turn t (s.mapDev (fun d => { d with agenda := rest }))
    | [] => finish (hartTurn false s))

/-- The state with an instruction's word where the next step fetches. Every instruction is one word. -/
def State.withFetchWord (s : State) (nbits w : Nat) : State := s.placeWord (w % 2 ^ (min nbits 32))

end Sys2Proof.Machine
end

