-- ==== Sys2Proof/Certificates/Slice0/Obligations.lean ====
section
/-! DEFINITION. The statements for the provers. Each docstring names the rule that a statement formalises. The vocabulary they share
stands in the namespace Sys2Proof.Claims. -/

namespace Sys2Proof.Claims
open Sys2Proof.Machine

/-- An instruction completes, and its next state is as said. -/
def Completes (i : Instr) (s : State) (P : State → Prop) : Prop := ∃ t, exec i s = .next t ∧ P t

/-- The memory of the device and the local memory of every brick have their canonical form. -/
def MemoryCanonical (s : State) : Prop := Memory.wf s.dev.mem = true ∧ ∀ b ∈ s.dev.bricks, Memory.wf b.2.locmem = true

/-! ### Frames -/

/-- Nothing but integer registers and the program counter of the hart in focus has changed: no other register, no flag, no byte of
memory. -/
def OnlyX (s t : State) : Prop :=
  t = { s with hart := { s.hart with r := { s.hart.r with x := t.hart.r.x, pc := t.hart.r.pc } } }

/-- The same with the accumulated flags. -/
def OnlyXFlags (s t : State) : Prop :=
  t = { s with hart := { s.hart with fstat := t.hart.fstat, r := { s.hart.r with x := t.hart.r.x, pc := t.hart.r.pc } } }

/-- Nothing but FP registers, the accumulated flags and the program counter has changed. -/
def OnlyFFlags (s t : State) : Prop :=
  t = { s with hart := { s.hart with fstat := t.hart.fstat, r := { s.hart.r with f := t.hart.r.f, pc := t.hart.r.pc } } }

/-- What accesses leave of the device: translations are kept, free values are used, and storage errors that were latent are corrected or
marked and logged (R15, R157, R245). No byte of memory changes, and every byte is poisoned as before. -/
def Checked (d d' : Device) : Prop :=
  d' = { d with
    tlb := d'.tlb, fresh := d'.fresh, poison := d'.poison, latent := d'.latent
    gmc := { d.gmc with corrected := d'.gmc.corrected, log := d'.gmc.log } } ∧
  ∀ off, d'.poisoned off = d.poisoned off

/-- A hart has read memory: nothing but one set of registers, the program counter, what it waited for and what accesses leave of the device
has changed. -/
def OnlyLoaded (s t : State) : Prop :=
  t.hart = { s.hart with
    wait := t.hart.wait, landed := t.hart.landed
    r := { s.hart.r with x := t.hart.r.x, f := t.hart.r.f, pc := t.hart.r.pc } } ∧
  Checked s.dev t.dev

/-- xd holds v, x0 stays 0, and every other integer register is as it was. -/
def SetsX (s t : State) (d : Nat) (v : Word) : Prop :=
  t.x 0 = 0 ∧ ∀ n, n < 32 → t.x n = if n = d ∧ d ≠ 0 then v else s.x n

/-- fd holds v, and every other FP register is as it was. -/
def SetsF (s t : State) (d : Nat) (v : Word) : Prop := ∀ n, n < 32 → t.f n = if n = d then v else s.f n

/-- The instruction writes v to xd, goes on at the next instruction and does nothing else. -/
def ResultX (i : Instr) (s : State) (d : Nat) (v : Word) : Prop :=
  Completes i s fun t => OnlyX s t ∧ t.pc = s.pc + 4 ∧ SetsX s t d v

/-- The instruction writes scalar registers as said, goes on at the next instruction, waits no longer, and does nothing else. -/
def ResultWait (i : Instr) (s : State) (P : State → Prop) : Prop :=
  Completes i s fun t => P t ∧ t.pc = s.pc + 4 ∧
    t = { s with hart := { s.hart with
            wait := .none, landed := [], r := { s.hart.r with x := t.hart.r.x, f := t.hart.r.f, pc := t.hart.r.pc } } }

/-- The instruction takes a trap of the given cause and kind at its own address, with every other part of the trap at its
default: nothing of the instruction's own effect happens. -/
def Traps (i : Instr) (s : State) (cause kind : Nat) : Prop := exec i s = .next (s.takeTrap { cause := cause, kind := kind })

/-! ### Counting bits, in words of their own -/

/-- c is the number of zeros above the highest one. -/
def LeadingZeros (v : Word) (c : Nat) : Prop :=
  c ≤ 64 ∧ (∀ i, 64 - c ≤ i → i < 64 → v.getLsbD i = false) ∧ (c < 64 → v.getLsbD (63 - c) = true)

/-- c is the number of zeros below the lowest one. -/
def TrailingZeros (v : Word) (c : Nat) : Prop :=
  c ≤ 64 ∧ (∀ i, i < c → v.getLsbD i = false) ∧ (c < 64 → v.getLsbD c = true)

/-- How many bits are one. -/
def ones (v : Word) : Nat := ((List.range 64).filter (fun i => v.getLsbD i)).length

/-- 1 or 0. -/
def oneIf (p : Prop) [Decidable p] : Word := if p then 1 else 0

end Sys2Proof.Claims

open Sys2Proof Sys2Proof.Machine Sys2Proof.Claims

/-! ### Integer instructions -/

/-- R278: what each form of major 0x01 writes to xd, the two cases without a true quotient included. No flag changes and no trap is
taken, and a write to x0 is discarded. -/
def Obligations.IntegerRegisterForms : Prop :=
  ∀ (s : State) (d a b : Nat),
    ResultX (.add d a b) s d (s.x a + s.x b) ∧
    ResultX (.sub d a b) s d (s.x a - s.x b) ∧
    ResultX (.and d a b) s d (s.x a &&& s.x b) ∧
    ResultX (.or d a b) s d (s.x a ||| s.x b) ∧
    ResultX (.xor d a b) s d (s.x a ^^^ s.x b) ∧
    ResultX (.sll d a b) s d (s.x a <<< (s.x b &&& 63).toNat) ∧
    ResultX (.srl d a b) s d (s.x a >>> (s.x b &&& 63).toNat) ∧
    ResultX (.sra d a b) s d ((s.x a).sshiftRight (s.x b &&& 63).toNat) ∧
    ResultX (.slt d a b) s d (oneIf ((s.x a).toInt < (s.x b).toInt)) ∧
    ResultX (.sltn d a b) s d (oneIf (s.x a < s.x b)) ∧
    ResultX (.mul d a b) s d (s.x a * s.x b) ∧
    ResultX (.mulh d a b) s d (((s.x a).signExtend 128 * (s.x b).signExtend 128) >>> 64 |>.setWidth 64) ∧
    ResultX (.mulhn d a b) s d (((s.x a).setWidth 128 * (s.x b).setWidth 128) >>> 64 |>.setWidth 64) ∧
    ResultX (.div d a b) s d (if s.x b = 0 then BitVec.allOnes 64 else (s.x a).sdiv (s.x b)) ∧
    ResultX (.divn d a b) s d (if s.x b = 0 then BitVec.allOnes 64 else s.x a / s.x b) ∧
    ResultX (.rem d a b) s d (if s.x b = 0 then s.x a else (s.x a).srem (s.x b)) ∧
    ResultX (.remn d a b) s d (if s.x b = 0 then s.x a else s.x a % s.x b) ∧
    ResultX (.min d a b) s d (if (s.x a).toInt ≤ (s.x b).toInt then s.x a else s.x b) ∧
    ResultX (.minn d a b) s d (if s.x a ≤ s.x b then s.x a else s.x b) ∧
    ResultX (.max d a b) s d (if (s.x a).toInt ≤ (s.x b).toInt then s.x b else s.x a) ∧
    ResultX (.maxn d a b) s d (if s.x a ≤ s.x b then s.x b else s.x a) ∧
    (∃ c, LeadingZeros (s.x a) c ∧ ResultX (.clz d a) s d (BitVec.ofNat 64 c)) ∧
    (∃ c, TrailingZeros (s.x a) c ∧ ResultX (.ctz d a) s d (BitVec.ofNat 64 c)) ∧
    ResultX (.popc d a) s d (BitVec.ofNat 64 (ones (s.x a)))

/-- R279, R270: what each immediate form writes to xd, and which words of major 0x08 are none: a nonzero [15:8] is reserved, and [7:6] = 3 is
illegal. That a word with both is illegal is log 23, the model's reading of R270. -/
def Obligations.IntegerImmediateForms : Prop :=
  (∀ w, w < 2 ^ 32 → w / 2 ^ 26 = 0x08 →
    (w / 2 ^ 6 % 4 = 3 → decodeWord w = .error .illegal) ∧
    (w / 2 ^ 6 % 4 ≠ 3 → w / 2 ^ 8 % 2 ^ 8 ≠ 0 → decodeWord w = .error .reserved)) ∧
  ∀ (s : State) (d a : Nat) (i : BitVec 16) (sh : BitVec 6) (j : BitVec 21),
    ResultX (.addi d a i) s d (s.x a + i.signExtend 64) ∧
    ResultX (.andi d a i) s d (s.x a &&& i.setWidth 64) ∧
    ResultX (.ori d a i) s d (s.x a ||| i.setWidth 64) ∧
    ResultX (.xori d a i) s d (s.x a ^^^ i.setWidth 64) ∧
    ResultX (.slti d a i) s d (oneIf ((s.x a).toInt < i.toInt)) ∧
    ResultX (.sltni d a i) s d (oneIf (s.x a < i.signExtend 64)) ∧
    ResultX (.slli d a sh) s d (s.x a <<< sh.toNat) ∧
    ResultX (.srli d a sh) s d (s.x a >>> sh.toNat) ∧
    ResultX (.srai d a sh) s d ((s.x a).sshiftRight sh.toNat) ∧
    ResultX (.lhi d j) s d (j.signExtend 64 <<< 16) ∧
    ResultX (.apc d j) s d (s.pc + j.signExtend 64 <<< 16)

/-! ### Scalar memory -/

namespace Sys2Proof.Claims

/-- The value of bytes given least significant first. -/
def value (l : List Byte) : Nat := l.foldr (fun b n => b.toNat + 256 * n) 0

/-- The low `n` bytes of a register, least significant first. -/
def bytesOf (n : Nat) (v : Word) : List Byte := (List.range n).map (fun i => (v >>> (8 * i)).setWidth 8)

/-- EA = (xa + sext(offset10) × 2^W) mod 2^64 (R280). -/
def ea (s : State) (a : Nat) (w : Width) (off : BitVec 10) : Nat :=
  (s.x a + off.signExtend 64 <<< w.code).toNat

/-- What `n` bytes at a virtual address hold for a scalar load of the hart in focus: each byte comes from the newest of its own buffered
stores that writes it, and else from memory (R191). No store of which a scalar load has a choice is buffered. -/
def ScalarBytes (s : State) (va n : Nat) (bs : List Byte) : Prop :=
  (∀ st ∈ s.hart.strip.stores, st.soft = false) ∧
  ∃ ps hs u, s.places va n .read = .ok (ps, hs, u) ∧
    ps.map (u.see (s.hart.strip.stores.reverse ++ s.hart.earlierStores)) = bs.map Seen.byte

/-- A load completes at the next instruction: it waits no longer and nothing else has changed. -/
def Loaded (s t : State) : Prop :=
  OnlyLoaded s t ∧ t.pc = s.pc + 4 ∧ t.hart.wait = .none ∧ t.hart.landed = []

/-- Every byte of the device's memory reads as before, in every brick and in GDDR 7. -/
def SameMemory (s t : State) : Prop :=
  (∀ a, Memory.read t.dev.mem a = Memory.read s.dev.mem a) ∧
  (∀ b a, Memory.read (t.dev.brick b).locmem a = Memory.read (s.dev.brick b).locmem a)

/-- A scalar store has been buffered in the open strip: one more store stands behind the others, with the addresses and places that the
access was translated to, and no byte of memory has changed. -/
def Buffered (s t : State) (va : Nat) (ps : List Place) (data : List Byte) : Prop :=
  t.hart.strip.stores = s.hart.strip.stores ++
    [{ va := va, place := ps, data := data, path := .s, ins := s.hart.strip.count }] ∧
  t.hart.strip.count = s.hart.strip.count + 1 ∧
  t.hart.strip.used = s.hart.strip.used + entryCount va data.length ∧
  t.pc = s.pc + 4 ∧ t.hart.wait = .none ∧ t.hart.landed = [] ∧ SameMemory s t ∧
  t.hart = { s.hart with
    strip := { s.hart.strip with stores := t.hart.strip.stores, count := t.hart.strip.count, used := t.hart.strip.used }
    wait := t.hart.wait, landed := t.hart.landed, r := { s.hart.r with pc := t.hart.r.pc } } ∧
  Checked s.dev t.dev

end Sys2Proof.Claims

/-- R280, R191: a scalar load writes the sign-extended or zero-extended bytes that the hart sees at EA, and nothing else changes. -/
def Sys2Proof.Claims.ScalarLoads : Prop :=
  ∀ (s : State) (d a : Nat) (w : Width) (h : Hint) (off : BitVec 10) (bs : List Byte),
    ScalarBytes s (ea s a w off) w.bytes bs →
    Completes (.ld d a w h off) s (fun t => Loaded s t ∧ (∀ n, n < 32 → t.f n = s.f n) ∧
      SetsX s t d ((BitVec.ofNat (8 * w.bytes) (value bs)).signExtend 64)) ∧
    Completes (.ldz d a w h off) s (fun t => Loaded s t ∧ (∀ n, n < 32 → t.f n = s.f n) ∧
      SetsX s t d (BitVec.ofNat 64 (value bs))) ∧
    (w ≠ .b1 → d < 32 → Completes (.fld d a w h off) s (fun t => Loaded s t ∧ (∀ n, n < 32 → t.x n = s.x n) ∧
      SetsF s t d (BitVec.ofNat 64 (value bs))))

/-- R280, R188, R282: a scalar store is held in the strip store buffer. It takes the low bytes of its register, and no byte of memory
changes until its strip closes. -/
def Sys2Proof.Claims.ScalarStores : Prop :=
  ∀ (s : State) (r a : Nat) (w : Width) (h : Hint) (off : BitVec 10) (ps : List Place) (hs : Bool) (u : State),
    s.places (ea s a w off) w.bytes .write = .ok (ps, hs, u) →
    entryCount (ea s a w off) w.bytes ≤ s.freeEntries →
    Completes (.st r a w h off) s (fun t => Buffered s t (ea s a w off) ps (bytesOf w.bytes (s.x r))) ∧
    (w ≠ .b1 → Completes (.fst r a w h off) s (fun t => Buffered s t (ea s a w off) ps (bytesOf w.bytes (s.f r))))

/-- R280, R281, R148: fld and fst of one byte take the illegal-operand trap. So does any scalar access across either edge of the local-
memory window, 0xFF_FFFF_FFE8_0000 to 0xFF_FFFF_FFFF_FFFF. An access that lies wholly above bit 55 takes the translation trap of kind "not
mapped" with its address. An access that begins in the window and ends above it is one of those across an edge by log 84, which is the
model's reading. -/
def Sys2Proof.Claims.ScalarAccessTraps : Prop :=
  ∀ (s : State) (d a : Nat) (w : Width) (h : Hint) (off : BitVec 10),
    let va := ea s a w off
    let window := 0xFFFFFFFFE80000
    let traps := fun (i : Instr) (tr : Trap) => exec i s = .next (s.takeTrap tr)
    Traps (.fld d a .b1 h off) s 0x02 0 ∧
    Traps (.fst d a .b1 h off) s 0x02 0 ∧
    (∀ tr : Trap,
      ((va < window ∧ window < va + w.bytes ∨ va < 2 ^ 56 ∧ 2 ^ 56 < va + w.bytes) ∧
          tr = { cause := 0x02, tval := BitVec.ofNat 64 va } ∨
        (2 ^ 56 ≤ va ∧ va + w.bytes ≤ 2 ^ 64) ∧ tr = { cause := 0x08, kind := 1, tval := BitVec.ofNat 64 va }) →
      traps (.ld d a w h off) tr ∧ traps (.ldz d a w h off) tr ∧ (w ≠ .b1 → traps (.fld d a w h off) tr) ∧
      (entryCount va w.bytes ≤ s.freeEntries →
        traps (.st d a w h off) tr ∧ (w ≠ .b1 → traps (.fst d a w h off) tr)))

/-- R191, R282: what a scalar store has written, the next scalar load of the same bytes returns, although memory still holds what it
held. (The places of an access's bytes are distinct, and the translations it keeps are found again: the premises say so for the access at
hand.) -/
def Obligations.LoadReturnsStoredBytes : Prop :=
  ∀ (s : State) (r d a : Nat) (w : Width) (h h' : Hint) (off : BitVec 10) (ps : List Place) (hs hs' : Bool) (u u' : State),
    (∀ st ∈ s.hart.strip.stores, st.soft = false) → 0 < d → d < 32 →
    entryCount (ea s a w off) w.bytes ≤ s.freeEntries →
    s.places (ea s a w off) w.bytes .write = .ok (ps, hs, u) → ps.Nodup →
    u.places (ea s a w off) w.bytes .read = .ok (ps, hs', u') →
    ∃ t v, exec (.st r a w h off) s = .next t ∧ exec (.ldz d a w h' off) t = .next v ∧
      v.x d = BitVec.ofNat 64 (value (bytesOf w.bytes (s.x r))) ∧ SameMemory s v

/-! ### Atomics -/

namespace Sys2Proof.Claims

/-- The scalar atomics with the value each leaves in memory, from what it found, xb and xd (R283). -/
def atomicForms : List ((Nat → Nat → Nat → Bool → Hint → Instr) ×
    ((n : Nat) → BitVec n → BitVec n → BitVec n → BitVec n)) :=
  [(.amoadd, fun _ o b _ => o + b),
   (.amoswap, fun _ _ b _ => b),
   (.amocas, fun _ o b c => if o = c then b else o),
   (.amomin, fun _ o b _ => if o.toInt ≤ b.toInt then o else b),
   (.amominn, fun _ o b _ => if o ≤ b then o else b),
   (.amomax, fun _ o b _ => if o.toInt ≤ b.toInt then b else o),
   (.amomaxn, fun _ o b _ => if o ≤ b then b else o),
   (.amoand, fun _ o b _ => o &&& b),
   (.amoor, fun _ o b _ => o ||| b),
   (.amoxor, fun _ o b _ => o ^^^ b)]

/-- Memory m', if m has the canonical form that every step keeps, is m but for the `n` bytes of v from an address on. -/
def Written {n : Nat} (m m' : List Host.Cell) (at' : Nat) (v : BitVec n) : Prop :=
  Memory.wf m = true → ∀ a, Memory.read m' a =
    if at' ≤ a ∧ a < at' + n / 8 then (v >>> (8 * (a - at'))).setWidth 8 else Memory.read m a

/-- The `n` bits of memory from an address on. -/
def Held (m : List Host.Cell) (at' n : Nat) : BitVec n := BitVec.ofNat n (value (Memory.readBytes m at' (n / 8)))

end Sys2Proof.Claims

/-- R283, R162, R193: after the strip boundary before it, and once everything earlier of the hart has performed, a scalar atomic on this
device's memory writes the form's new value to the bytes of its address and no other byte, writes the sign-extended old value to xd, and
goes on in a new strip. On local memory it does the same in the brick. Until then it waits, and while the atomic group of another node
holds its address. -/
def Sys2Proof.Claims.ScalarAtomics : Prop :=
  ∀ (s : State) (d a b : Nat) (wide : Bool) (h : Hint), ∀ m ∈ atomicForms,
    let n := if wide then 64 else 32
    let u := s.splitAndDrain
    let va := (s.x a).toNat
    va % (n / 8) = 0 →
    (∀ ps hs v, u.places va (n / 8) .write = .ok (ps, hs, v) → u.allPerformed = false ∨ u.groupHolds ps = true →
      Completes (m.1 d a b wide h) s fun t => t.hart.wait = .memory ∧ t.pc = s.pc ∧ t.dev.mem = u.dev.mem) ∧
    (∀ pa ps hs v, u.places va (n / 8) .write = .ok (.phys pa :: ps, hs, v) → u.dev.own pa = true →
      u.allPerformed = true → u.groupHolds (.phys pa :: ps) = false →
      u.dev.populated (offsetOf pa) = true → u.dev.poisoned (offsetOf pa) = false →
      Completes (m.1 d a b wide h) s fun t =>
        let old := Held u.dev.mem (offsetOf pa) n
        Written u.dev.mem t.dev.mem (offsetOf pa) (m.2 n old ((s.x b).setWidth n) ((s.x d).setWidth n)) ∧
        (∀ k, (t.dev.brick k).locmem = (u.dev.brick k).locmem) ∧
        SetsX s t d (old.signExtend 64) ∧ t.pc = s.pc + 4 ∧ t.hart.strip.stores = [] ∧ t.hart.ckpt.pc = s.pc + 4) ∧
    (∀ off ps hs v, u.places va (n / 8) .write = .ok (.loc off :: ps, hs, v) →
      u.allPerformed = true → u.groupHolds (.loc off :: ps) = false →
      u.brick.locpoison.contains (off / 64) = false →
      Completes (m.1 d a b wide h) s fun t =>
        let old := Held u.brick.locmem off n
        Written u.brick.locmem t.brick.locmem off (m.2 n old ((s.x b).setWidth n) ((s.x d).setWidth n)) ∧
        t.dev.mem = u.dev.mem ∧
        SetsX s t d (old.signExtend 64) ∧ t.pc = s.pc + 4 ∧ t.hart.strip.stores = [] ∧ t.hart.ckpt.pc = s.pc + 4)

/-- R283, R244: a misaligned atomic takes the illegal-operand trap with nothing performed, and one whose target is poisoned is not
performed: xd receives 0, and memory changes by the event of its report alone (R58). -/
def Sys2Proof.Claims.ScalarAtomicsNotPerformed : Prop :=
  ∀ (s : State) (d a b : Nat) (wide : Bool) (h : Hint), ∀ m ∈ atomicForms,
    let n := if wide then 8 else 4
    let u := s.splitAndDrain
    let va := (s.x a).toNat
    (va % n ≠ 0 → exec (m.1 d a b wide h) s = .next (u.takeTrap { cause := 0x02 })) ∧
    (∀ pa ps hs v, va % n = 0 → u.places va n .write = .ok (.phys pa :: ps, hs, v) → u.dev.own pa = true →
      u.allPerformed = true → u.groupHolds (.phys pa :: ps) = false →
      u.dev.populated (offsetOf pa) = true → u.dev.poisoned (offsetOf pa) = true →
      let tenant := ((u.dev.launch s.hart.launch).map (·.record.vmid)).getD 0
      let r := report 0x05 0x01 0 va
      Completes (m.1 d a b wide h) s fun t =>
        t.dev.mem = (u.dev.postEvent tenant 0x05 s.hart.queue s.hart.seq r).mem ∧ SetsX s t d 0 ∧ t.pc = s.pc + 4)

/-! ### Control transfer -/

namespace Sys2Proof.Claims

/-- The instruction goes on at the given address and does nothing else. -/
def Goes (i : Instr) (s : State) (pc : Word) : Prop :=
  exec i s = .next { s with hart := { s.hart with r := { s.hart.r with pc := pc } } }

/-- The target of a branch that is taken, else the next instruction. -/
def branchTo (s : State) (taken : Prop) [Decidable taken] (off : BitVec 13) : Word :=
  if taken then s.pc + 4 * off.signExtend 64 else s.pc + 4

/-- Some bit of mask k below VL is 1. -/
def SomeBit (s : State) (k : Nat) : Prop :=
  ∃ i, i < s.hart.r.vl.toNat ∧ (s.hart.r.k.getD k 0).getLsbD i = true

end Sys2Proof.Claims

/-- R284: where each jump and branch goes, what jal and jalr write, and the trap of a target that is not a multiple of 4. A target with
a bit above bit 55 faults at its fetch as "not mapped". No transfer closes a strip: nothing else changes. -/
def Sys2Proof.Claims.ControlTransfer : Prop :=
  (∀ (s : State) (d a b : Nat) (i : BitVec 16) (j : BitVec 21) (off : BitVec 13),
    Completes (.jal d j) s (fun t => OnlyX s t ∧ SetsX s t d (s.pc + 4) ∧ t.pc = s.pc + 4 * j.signExtend 64) ∧
    ((s.x a + i.signExtend 64) &&& 3 = 0 →
      Completes (.jalr d a i) s (fun t => OnlyX s t ∧ SetsX s t d (s.pc + 4) ∧ t.pc = s.x a + i.signExtend 64)) ∧
    ((s.x a + i.signExtend 64) &&& 3 ≠ 0 → Traps (.jalr d a i) s 0x02 0) ∧
    Goes (.beq a b off) s (branchTo s (s.x a = s.x b) off) ∧
    Goes (.bne a b off) s (branchTo s (s.x a ≠ s.x b) off) ∧
    Goes (.blt a b off) s (branchTo s ((s.x a).toInt < (s.x b).toInt) off) ∧
    Goes (.bge a b off) s (branchTo s ((s.x b).toInt ≤ (s.x a).toInt) off) ∧
    Goes (.bltn a b off) s (branchTo s (s.x a < s.x b) off) ∧
    Goes (.bgen a b off) s (branchTo s (s.x b ≤ s.x a) off)) ∧
  (∀ (s : State), s.pc &&& 3 = 0 → 2 ^ 56 ≤ s.pc.toNat → s.pc.toNat + 4 ≤ 2 ^ 64 →
    ∃ tr, s.fetch = .error (.trap tr) ∧ tr.cause = 0x08 ∧ tr.kind = 1 ∧ tr.tval = s.pc)

/-- R285, R88, R89, R243: bkany is taken when some bit of its mask below VL is 1 and bknone when none is. On a scalar-only hart, and
while VILL is 1, both take the illegal-instruction trap. -/
def Sys2Proof.Claims.MaskBranches : Prop :=
  ∀ (s : State) (k : Nat) (off : BitVec 13),
    (s.hart.bound ≠ 0 → s.hart.r.vtype.vill = false → s.hart.r.kfail.getD k 0 = 0 →
      (SomeBit s k → Goes (.bkany k off) s (branchTo s True off) ∧ Goes (.bknone k off) s (branchTo s False off)) ∧
      (¬ SomeBit s k → Goes (.bkany k off) s (branchTo s False off) ∧ Goes (.bknone k off) s (branchTo s True off))) ∧
    (s.hart.bound = 0 ∨ s.hart.r.vtype.vill = true → Traps (.bkany k off) s 0x01 0 ∧ Traps (.bknone k off) s 0x01 0)

/-! ### Scalar floating point -/

namespace Sys2Proof.Claims

/-- The instruction writes an FP result with zeros above it, merges its flags into FSTAT alone, and does nothing else. -/
def ResultF (i : Instr) (s : State) (d : Nat) (r : Nat × BitVec 5) : Prop :=
  Completes i s fun t => OnlyFFlags s t ∧ t.pc = s.pc + 4 ∧ t.hart.fstat = s.hart.fstat ||| r.2 ∧
    SetsF s t d (BitVec.ofNat 64 r.1)

/-- The instruction writes an integer register, merges flags into FSTAT alone, and does nothing else. -/
def ResultXF (i : Instr) (s : State) (d : Nat) (v : Word) (f : BitVec 5) : Prop :=
  Completes i s fun t => OnlyXFlags s t ∧ t.pc = s.pc + 4 ∧ t.hart.fstat = s.hart.fstat ||| f ∧ SetsX s t d v

/-- The low bits of an f register that a format reads (R276). -/
def low (s : State) (f : FpFmt) (n : Nat) : Nat := (s.f n).toNat % 2 ^ fpWidth f

/-- Exponent and fraction of an encoding, by the widths of R202. -/
def expField (f : FpFmt) (v : Nat) : Nat := v / 2 ^ fracBits f % 2 ^ expBits f
def fracField (f : FpFmt) (v : Nat) : Nat := v % 2 ^ fracBits f
def signField (f : FpFmt) (v : Nat) : Nat := v / 2 ^ (fpWidth f - 1) % 2

/-- A finite encoding: its exponent field is not all ones. -/
def Finite (f : FpFmt) (v : Nat) : Prop := expField f v ≠ 2 ^ expBits f - 1

/-- The magnitude of a finite encoding (R202): a subnormal has no leading one. -/
def magnitude (f : FpFmt) (v : Nat) : ℚ :=
  let unit : ℚ := 2 ^ (1 - (fpBias f : ℤ) - fracBits f)
  if expField f v = 0 then fracField f v * unit
  else (2 ^ fracBits f + fracField f v) * 2 ^ (expField f v - 1) * unit

/-- The number that a finite encoding stands for. -/
def number (f : FpFmt) (v : Nat) : ℚ := if signField f v = 1 then - magnitude f v else magnitude f v

/-- r is an exact nonzero number rounded once, with the flags of the rounding. -/
def RoundsTo (f : FpFmt) (rm : Nat) (q : ℚ) (r : Nat × BitVec 5) : Prop :=
  ∃ n d : Nat, 0 < n ∧ 0 < d ∧ (n : ℚ) / d = |q| ∧ r = roundMag f rm (decide (q < 0)) n d

/-- The encodings of a format that are no NaNs in the order of their numbers, in which −0 stands below +0 (R286, R363). -/
def place (w v : Nat) : Int := if v < 2 ^ (w - 1) then v else -((v : Int) - 2 ^ (w - 1)) - 1

/-- What an encoding stands for when it is no finite nonzero number (R202), and its sign. -/
def isNanCode (f : FpFmt) (v : Nat) : Bool := expField f v == 2 ^ expBits f - 1 && fracField f v != 0
def isSignalling (f : FpFmt) (v : Nat) : Bool := isNanCode f v && fracField f v / 2 ^ (fracBits f - 1) == 0
def isInfCode (f : FpFmt) (v : Nat) : Bool := expField f v == 2 ^ expBits f - 1 && fracField f v == 0
def isZeroCode (f : FpFmt) (v : Nat) : Bool := expField f v == 0 && fracField f v == 0
def isNeg (f : FpFmt) (v : Nat) : Bool := signField f v == 1

/-- Zero and infinity of a sign, and the canonical NaN of an invalid operation or of NaN operands. -/
def zeroCode (f : FpFmt) (neg : Bool) : Nat := if neg then 2 ^ (fpWidth f - 1) else 0
def infCode (f : FpFmt) (neg : Bool) : Nat := zeroCode f neg + (2 ^ expBits f - 1) * 2 ^ fracBits f
def invalid (f : FpFmt) : Nat × BitVec 5 := (infCode f false + 2 ^ (fracBits f - 1), 16)
def fromNans (f : FpFmt) (l : List Nat) : Nat × BitVec 5 := ((invalid f).1, if l.any (isSignalling f) then 16 else 0)

/-- i is a number rounded to an integer under a mode (R204, R216). -/
def RoundsToInt (rm : Nat) (x : ℚ) (i : Int) : Prop :=
  (rm = 0 → |(i : ℚ) - x| ≤ 1 / 2 ∧ (|(i : ℚ) - x| = 1 / 2 → i % 2 = 0)) ∧
  (rm = 1 → |(i : ℚ)| ≤ |x| ∧ |x| < |(i : ℚ)| + 1 ∧ 0 ≤ i * x) ∧
  (rm = 2 → i ≤ x ∧ x < i + 1) ∧ (rm = 3 → x ≤ i ∧ i < x + 1) ∧
  (rm = 4 → |(i : ℚ) - x| ≤ 1 / 2 ∧ (|(i : ℚ) - x| = 1 / 2 → |x| ≤ |(i : ℚ)|))

/-- The bit of R287 for an encoding. -/
def classBit (f : FpFmt) (v : Nat) : Nat :=
  let neg := signField f v = 1
  let e := expField f v
  let m := fracField f v
  if e = 2 ^ expBits f - 1 then
    if m = 0 then (if neg then 0 else 7)
    else if m / 2 ^ (fracBits f - 1) = 0 then 8 else 9
  else if e = 0 then
    if m = 0 then (if neg then 3 else 4) else (if neg then 2 else 5)
  else (if neg then 1 else 6)

end Sys2Proof.Claims

/-- R286, R276, R204, R219: every scalar FP arithmetic form reads the low bits of its operands, writes its result with zeros above,
rounds under FRM, merges its flags into FSTAT alone, and changes nothing else. -/
def Sys2Proof.Claims.ScalarFpForms : Prop :=
  ∀ (s : State) (d a b c : Nat) (f : FpFmt),
    let rm := s.hart.frm.toNat
    ResultF (.fadd d a b f) s d (fpAdd f rm (low s f a) (low s f b)) ∧
    ResultF (.fsub d a b f) s d (fpSub f rm (low s f a) (low s f b)) ∧
    ResultF (.fmul d a b f) s d (fpMul f rm (low s f a) (low s f b)) ∧
    ResultF (.fdiv d a b f) s d (fpDiv f rm (low s f a) (low s f b)) ∧
    ResultF (.fsqrt d a f) s d (fpSqrt f rm (low s f a)) ∧
    ResultF (.fmin d a b f) s d (fpMinMax f false (low s f a) (low s f b)) ∧
    ResultF (.fmax d a b f) s d (fpMinMax f true (low s f a) (low s f b)) ∧
    ResultF (.fma d a b c f) s d (fpFma f rm (low s f a) (low s f b) (low s f c)) ∧
    ResultF (.fms d a b c f) s d (fpFms f rm (low s f a) (low s f b) (low s f c))

/-- R286: on finite operands with a nonzero exact result, sums, differences, products, quotients and fused forms are the exact result
rounded once, and nothing but the rounding raises a flag. -/
def Sys2Proof.Claims.FpFiniteResults : Prop :=
  ∀ (f : FpFmt) (rm a b c : Nat), rm ≤ 4 → a < 2 ^ fpWidth f → b < 2 ^ fpWidth f → c < 2 ^ fpWidth f →
    Finite f a → Finite f b → Finite f c →
    let x := number f a
    let y := number f b
    let z := number f c
    (x + y ≠ 0 → RoundsTo f rm (x + y) (fpAdd f rm a b)) ∧
    (x - y ≠ 0 → RoundsTo f rm (x - y) (fpSub f rm a b)) ∧
    (x * y ≠ 0 → RoundsTo f rm (x * y) (fpMul f rm a b)) ∧
    (x ≠ 0 → y ≠ 0 → RoundsTo f rm (x / y) (fpDiv f rm a b)) ∧
    (x * y + z ≠ 0 → RoundsTo f rm (x * y + z) (fpFma f rm a b c)) ∧
    (x * y - z ≠ 0 → RoundsTo f rm (x * y - z) (fpFms f rm a b c))

/-- R205, R286: exact zeros of finite operands: −0 when all terms are −0, +0 when all are +0, else +0, or −0 under RDN; and quotients by zero. -/
def Sys2Proof.Claims.FpZeroResults : Prop :=
  ∀ (f : FpFmt) (rm a b c : Nat), rm ≤ 4 → a < 2 ^ fpWidth f → b < 2 ^ fpWidth f → c < 2 ^ fpWidth f →
    Finite f a → Finite f b → Finite f c →
    let x := number f a
    let y := number f b
    let z := number f c
    let sign := isNeg f a ^^ isNeg f b
    let zero := fun (same : Bool) (neg : Bool) => ((if same then zeroCode f neg else zeroCode f (rm == 2), 0) : Nat × BitVec 5)
    (x + y = 0 → fpAdd f rm a b = zero (x == 0 && y == 0 && !sign) (isNeg f a)) ∧
    (x - y = 0 → fpSub f rm a b = zero (x == 0 && y == 0 && sign) (isNeg f a)) ∧
    (x * y = 0 → fpMul f rm a b = (zeroCode f sign, 0)) ∧
    (x = 0 → y ≠ 0 → fpDiv f rm a b = (zeroCode f sign, 0)) ∧
    (x ≠ 0 → y = 0 → fpDiv f rm a b = (infCode f sign, 8)) ∧ (x = 0 → y = 0 → fpDiv f rm a b = invalid f) ∧
    (x * y + z = 0 → fpFma f rm a b c = zero (x * y == 0 && z == 0 && sign == isNeg f c) sign) ∧
    (x * y - z = 0 → fpFms f rm a b c = zero (x * y == 0 && z == 0 && sign != isNeg f c) sign)

/-- R203, R205, R286: results of infinite operands and of NaNs, with their flags: an invalid operation gives the canonical NaN and nv, and so does a
signalling NaN; a quiet one gives it without a flag. 0 × ∞ raises nv in a fused form whatever the addend is. -/
def Sys2Proof.Claims.FpSpecialResults : Prop :=
  ∀ (f : FpFmt) (rm a b c : Nat), rm ≤ 4 → a < 2 ^ fpWidth f → b < 2 ^ fpWidth f → c < 2 ^ fpWidth f →
    let nan := isNanCode f
    let inf := isInfCode f
    let zero := isZeroCode f
    let sign := isNeg f a ^^ isNeg f b
    let ends := fun (neg : Bool) => ((infCode f neg, 0) : Nat × BitVec 5)
    let bad := inf a && zero b || zero a && inf b
    (nan a || nan b → fpAdd f rm a b = fromNans f [a, b] ∧ fpSub f rm a b = fromNans f [a, b] ∧ fpMul f rm a b = fromNans f [a, b] ∧
      fpDiv f rm a b = fromNans f [a, b]) ∧
    (nan a → fpSqrt f rm a = fromNans f [a]) ∧
    (nan a || nan b || nan c && !bad → fpFma f rm a b c = fromNans f [a, b, c] ∧ fpFms f rm a b c = fromNans f [a, b, c]) ∧
    (!(nan a || nan b) →
      (inf a && !(inf b && sign) → fpAdd f rm a b = ends (isNeg f a)) ∧ (!(inf a) && inf b → fpAdd f rm a b = ends (isNeg f b)) ∧
      (inf a && inf b && sign → fpAdd f rm a b = invalid f) ∧
      (inf a && !(inf b && !sign) → fpSub f rm a b = ends (isNeg f a)) ∧ (!(inf a) && inf b → fpSub f rm a b = ends (!isNeg f b)) ∧
      (inf a && inf b && !sign → fpSub f rm a b = invalid f) ∧
      (bad → fpMul f rm a b = invalid f ∧ fpFma f rm a b c = invalid f ∧ fpFms f rm a b c = invalid f) ∧
      ((inf a || inf b) && !bad → fpMul f rm a b = ends sign) ∧
      (inf a && inf b → fpDiv f rm a b = invalid f) ∧ (inf a && !(inf b) → fpDiv f rm a b = ends sign) ∧
      (!(inf a) && inf b → fpDiv f rm a b = (zeroCode f sign, 0))) ∧
    (!(nan a || nan b || nan c || bad) →
      let prod := inf a || inf b
      (prod && !(inf c && sign != isNeg f c) → fpFma f rm a b c = ends sign) ∧ (prod && inf c && sign != isNeg f c → fpFma f rm a b c = invalid f) ∧
      (!prod && inf c → fpFma f rm a b c = ends (isNeg f c)) ∧
      (prod && !(inf c && sign == isNeg f c) → fpFms f rm a b c = ends sign) ∧ (prod && inf c && sign == isNeg f c → fpFms f rm a b c = invalid f) ∧
      (!prod && inf c → fpFms f rm a b c = ends (!isNeg f c)))

/-- R286: the square root is the exact root rounded once: among all finite encodings v is the one that its mode names, inexact unless its square
is the operand; ±0 and +∞ are their own roots, and a negative operand is invalid. -/
def Sys2Proof.Claims.FpRoots : Prop :=
  ∀ (f : FpFmt) (rm a : Nat), rm ≤ 4 → a < 2 ^ fpWidth f →
    (isZeroCode f a ∨ a = infCode f false → fpSqrt f rm a = (a, 0)) ∧
    (isNeg f a → ¬ isZeroCode f a → ¬ isNanCode f a → fpSqrt f rm a = invalid f) ∧
    (Finite f a → 0 < number f a → ∃ v, v < fpInf f ∧
      let x := number f a
      let m := magnitude f v
      fpSqrt f rm a = (v, if m ^ 2 = x then 0 else 1) ∧
      ∀ c, c < fpInf f →
        let n := magnitude f c
        (rm = 1 ∨ rm = 2 → m ^ 2 ≤ x ∧ (n ^ 2 ≤ x → n ≤ m)) ∧
        (rm = 3 → x ≤ m ^ 2 ∧ (x ≤ n ^ 2 → m ≤ n)) ∧
        (rm = 0 ∨ rm = 4 → (n < m → ((n + m) / 2) ^ 2 ≤ x) ∧ (m < n → x ≤ ((n + m) / 2) ^ 2)))

/-- R286, R203: fmin and fmax give the operand that is the lower or the higher number, −0 below +0; the other operand beside one NaN, and the
canonical NaN for two. Only a signalling NaN raises a flag. -/
def Sys2Proof.Claims.FpExtremes : Prop :=
  ∀ (f : FpFmt) (a b : Nat), a < 2 ^ fpWidth f → b < 2 ^ fpWidth f →
    let nan := isNanCode f
    let below := place (fpWidth f) a ≤ place (fpWidth f) b
    ∀ high : Bool,
      let r := fpMinMax f high a b
      r.2 = (if isSignalling f a || isSignalling f b then 16 else 0) ∧
      (nan a && nan b → r.1 = (invalid f).1) ∧ (nan a && !(nan b) → r.1 = b) ∧ (!(nan a) && nan b → r.1 = a) ∧
      (!(nan a) && !(nan b) → (below → r.1 = if high then b else a) ∧ (¬ below → r.1 = if high then a else b)) ∧
      (Finite f a → Finite f b → number f r.1 = if high then max (number f a) (number f b) else min (number f a) (number f b))

/-- R213, R216, R288: a conversion between FP types is the exact number rounded once, and one to the same type changes nothing but NaNs. To an
integer the number is rounded once; what is out of range gives the end of the range, and a NaN 0, with nv. From an integer it is rounded once. -/
def Sys2Proof.Claims.ConversionsAreRoundedOnce : Prop :=
  ∀ (f g : FpFmt) (rm a : Nat), rm ≤ 4 → a < 2 ^ fpWidth f →
    (isNanCode f a → fpConvert f g rm a = ((invalid g).1, if isSignalling f a then 16 else 0)) ∧
    (¬ isNanCode f a → f = g → fpConvert f g rm a = (a, 0)) ∧
    (isInfCode f a → fpConvert f g rm a = (infCode g (isNeg f a), 0)) ∧ (isZeroCode f a → fpConvert f g rm a = (zeroCode g (isNeg f a), 0)) ∧
    (Finite f a → number f a ≠ 0 → f ≠ g → RoundsTo g rm (number f a) (fpConvert f g rm a)) ∧
    (∀ (sg : Bool) (w : Nat), w = 8 ∨ w = 16 ∨ w = 32 ∨ w = 64 →
      let r := numToInt sg w rm (decodeFp f a)
      let least : Int := if sg then -(2 ^ (w - 1)) else 0
      let most : Int := if sg then 2 ^ (w - 1) - 1 else 2 ^ w - 1
      let code := fun (i : Int) => (BitVec.ofInt w i).toNat
      (isNanCode f a → r = (0, 16)) ∧ (isInfCode f a → r = (code (if isNeg f a then least else most), 16)) ∧
      (Finite f a → ∃ i : Int, RoundsToInt rm (number f a) i ∧
        (least ≤ i → i ≤ most → r = (code i, if (i : ℚ) = number f a then 0 else 1)) ∧
        (i < least → r = (code least, 16)) ∧ (most < i → r = (code most, 16)))) ∧
    (∀ i : Int, (i = 0 → intToFp g rm i = (0, 0)) ∧ (i ≠ 0 → RoundsTo g rm i (intToFp g rm i)))

/-- R204, R205: rounding an exact magnitude gives the encoding that its mode names among all finite ones, unless it overflows: the
nearest with ties to even (RNE) or away from zero (RMM), the nearest not above in magnitude (RTZ, and RDN or RUP on the side of
zero), or the nearest not below. NX is raised exactly when the result is not exact. -/
def Obligations.RoundingIsCorrect : Prop :=
  ∀ (f : FpFmt) (rm n d : Nat) (neg : Bool), rm ≤ 4 → 0 < n → 0 < d →
    let r := roundMag f rm neg n d
    let q : ℚ := n / d
    r.2 &&& 4 = 0 →
    ∃ v, v < fpInf f ∧ r.1 = (if neg then 2 ^ (fpWidth f - 1) else 0) + v ∧
      (r.2 &&& 1 = 0 ↔ magnitude f v = q) ∧
      (∀ c, c < fpInf f →
        (rm = 0 → |magnitude f v - q| ≤ |magnitude f c - q| ∧
          (|magnitude f v - q| = |magnitude f c - q| → c ≠ v → v % 2 = 0)) ∧
        (rm = 1 ∨ (rm = 2 ∧ neg = false) ∨ (rm = 3 ∧ neg = true) →
          magnitude f v ≤ q ∧ (magnitude f c ≤ q → magnitude f c ≤ magnitude f v)) ∧
        ((rm = 2 ∧ neg = true) ∨ (rm = 3 ∧ neg = false) →
          q ≤ magnitude f v ∧ (q ≤ magnitude f c → magnitude f v ≤ magnitude f c)) ∧
        (rm = 4 → |magnitude f v - q| ≤ |magnitude f c - q| ∧
          (|magnitude f v - q| = |magnitude f c - q| → magnitude f c ≤ magnitude f v)))

/-- R287, R289: fclass writes a one-hot class and raises nothing; fmv.x and fmv.f move 64 bits and raise nothing; the comparisons
write 1 or 0. Between finite operands they compare the numbers, so that −0 equals +0. A NaN makes eq, lt and le 0 and unord 1. lt and le
raise nv for any NaN, eq and unord for a signalling one. -/
def Sys2Proof.Claims.FpClassMovesCompares : Prop :=
  ∀ (s : State) (d a b : Nat) (f : FpFmt),
    let v := low s f a
    let w := low s f b
    let nan := fun v => expField f v = 2 ^ expBits f - 1 ∧ fracField f v ≠ 0
    let quiet := fun v => fracField f v / 2 ^ (fracBits f - 1) = 1
    let signalling := (nan v ∧ ¬ quiet v) ∨ (nan w ∧ ¬ quiet w)
    let nvIf := fun (p : Prop) [Decidable p] => if p then (16 : BitVec 5) else 0
    ResultX (.fclass d a f) s d (BitVec.ofNat 64 (2 ^ classBit f v)) ∧
    ResultX (.fmvX d a) s d (s.f a) ∧
    ResultF (.fmvF d a) s d ((s.x a).toNat, 0) ∧
    (Finite f v → Finite f w →
      ResultX (.fcmpEq d a b f) s d (oneIf (number f v = number f w)) ∧
      ResultX (.fcmpLt d a b f) s d (oneIf (number f v < number f w)) ∧
      ResultX (.fcmpLe d a b f) s d (oneIf (number f v ≤ number f w)) ∧
      ResultX (.fcmpUnord d a b f) s d 0) ∧
    (nan v ∨ nan w →
      ResultXF (.fcmpEq d a b f) s d 0 (nvIf signalling) ∧
      ResultXF (.fcmpLt d a b f) s d 0 16 ∧
      ResultXF (.fcmpLe d a b f) s d 0 16 ∧
      ResultXF (.fcmpUnord d a b f) s d 1 (nvIf signalling))

/-- R288, R259: the forms of fcvt: between FP types, to an integer type with the result extended by its signedness, and from one. A type
code of 8 or more, and a pair of integer types, take the illegal-operand trap. -/
def Sys2Proof.Claims.FpConversions : Prop :=
  ∀ (s : State) (d a : Nat) (f g : FpFmt),
    let rm := s.hart.frm.toNat
    let toInt := fun (sg : Bool) (w : Nat) => numToInt sg w rm (decodeFp f (low s f a))
    let signed := fun (w v : Nat) => (BitVec.ofNat w v).signExtend 64
    ResultF (.fcvt d a g.code f.code) s d (fpConvert f g rm (low s f a)) ∧
    ResultXF (.fcvt d a 4 f.code) s d (signed 32 (toInt true 32).1) (toInt true 32).2 ∧
    ResultXF (.fcvt d a 5 f.code) s d (signed 64 (toInt true 64).1) (toInt true 64).2 ∧
    ResultXF (.fcvt d a 6 f.code) s d (BitVec.ofNat 64 (toInt false 32).1) (toInt false 32).2 ∧
    ResultXF (.fcvt d a 7 f.code) s d (BitVec.ofNat 64 (toInt false 64).1) (toInt false 64).2 ∧
    ResultF (.fcvt d a g.code 4) s d (intToFp g rm ((s.x a).setWidth 32).toInt) ∧
    ResultF (.fcvt d a g.code 5) s d (intToFp g rm (s.x a).toInt) ∧
    ResultF (.fcvt d a g.code 6) s d (intToFp g rm ((s.x a).setWidth 32).toNat) ∧
    ResultF (.fcvt d a g.code 7) s d (intToFp g rm (s.x a).toNat) ∧
    (∀ x y, 8 ≤ x ∨ 8 ≤ y ∨ (4 ≤ x ∧ 4 ≤ y) → Traps (.fcvt d a x y) s 0x02 0)

/-! ### Control registers -/

namespace Sys2Proof.Claims

/-- A register from its fields, each with its lowest bit. -/
def fields (l : List (Nat × Nat)) : Word := BitVec.ofNat 64 (l.foldr (fun f n => f.1 * 2 ^ f.2 + n) 0)

/-- How many lane groups a set holds. -/
def groups (b : BitVec 4) : Nat := (List.range 4).countP (fun i => b.getLsbD i)

/-- Every control register of R251 with what it reads as. -/
def csrValues (s : State) : List (Nat × Word) :=
  let h := s.hart
  let r := h.r
  [(0x00, fields [(r.vl.toNat, 0)]),
   (0x01, fields [(r.vtype.vill.toNat, 63), (r.vtype.kz.toNat, 6), (r.vtype.gm.toNat, 3), (r.vtype.sew.toNat, 0)]),
   (0x02, fields [(h.chg.toNat, 8), (h.lgn.toNat, 0)]),
   (0x03, fields [(h.ret.toNat, 8), (h.next.toNat, 4), (h.bound.toNat, 0)]),
   (0x04, fields [(h.fstat.toNat, 0)]),
   (0x05, fields [(h.frm.toNat, 0)]),
   (0x08, h.fidx[0]), (0x09, h.fidx[1]), (0x0A, h.fidx[2]), (0x0B, h.fidx[3]), (0x0C, h.fidx[4]),
   (0x10, fields [(r.passst.valid.toNat, 31), (r.passst.step.toNat, 16), (r.passst.next.toNat, 8), (r.passst.done.toNat, 4)]),
   (0x11, r.sstat),
   (0x12, fields [(r.ncl.toNat, 8), (r.ten.toNat, 0)]),
   (0x14, fields [(r.issued[0].toNat, 32), (h.done[0].toNat, 0)]), (0x15, fields [(r.issued[1].toNat, 32), (h.done[1].toNat, 0)]),
   (0x16, fields [(r.issued[2].toNat, 32), (h.done[2].toNat, 0)]), (0x17, fields [(r.issued[3].toNat, 32), (h.done[3].toNat, 0)]),
   (0x18, h.aerr.word),
   (0x20, s.dev.time.dtime),
   (0x21, fields [(s.dev.thermal.hold.isSome.toNat, 7), (s.brick.gear.toNat, 4), (h.gears.eff.toNat, 3), (h.gears.auto.toNat, 1),
     (h.gears.req.toNat, 0)]),
   (0x22, fields [(h.gears.lead.toNat, 0)]), (0x23, fields [(h.gears.idle.toNat, 0)]), (0x24, fields [(h.vskew.toNat, 0)]),
   (0x25, fields [(h.energy.toNat, 0)]), (0x26, fields [(h.reuseHit.toNat, 0)]),
   (0x28, fields [(r.lidx[0].toNat, 0)]), (0x29, fields [(r.lidx[1].toNat, 0)]), (0x2A, fields [(r.lidx[2].toNat, 0)]),
   (0x2B, fields [(r.lidx[3].toNat, 0)]),
   (0x30, fields [(h.num, 0)]), (0x31, fields [(s.dev.node, 16), (h.brick, 0)]), (0x32, fields [(h.vmid, 12), (h.ctx, 0)]),
   (0x38, fields [(r.slen[0].toNat, 0)]), (0x39, fields [(r.slen[1].toNat, 0)]), (0x3A, fields [(r.slen[2].toNat, 0)]),
   (0x3B, fields [(r.slen[3].toNat, 0)]), (0x3C, fields [(r.slen[4].toNat, 0)]), (0x3D, fields [(r.slen[5].toNat, 0)]),
   (0x3E, fields [(r.slen[6].toNat, 0)]), (0x3F, fields [(r.slen[7].toNat, 0)])]

/-- The registers of R251 without a writable field. -/
def readOnly : List Nat :=
  [0x00, 0x01, 0x03, 0x10, 0x11, 0x12, 0x14, 0x15, 0x16, 0x17, 0x20, 0x25, 0x28, 0x29, 0x2A, 0x2B, 0x30, 0x31, 0x32,
   0x38, 0x39, 0x3A, 0x3B, 0x3C, 0x3D, 0x3E, 0x3F]

/-- The three writing forms with what RW fields receive (R290). -/
def csrForms : List ((Nat → Nat → Instr) × (Word → Word → Word)) :=
  [(.csrw, fun _ v => v), (.csrs, fun old v => old ||| v), (.csrc, fun old v => old &&& ~~~v)]

/-- The same with the fn of each, and the write that stays behind vector instructions in flight. -/
def lateForms : List ((Nat → Nat → Instr) × Nat × (Word → Word → Word)) :=
  [(.csrw, 1, fun _ v => v), (.csrs, 2, fun old v => old ||| v), (.csrc, 3, fun old v => old &&& ~~~v)]
def lateWrite (n fn : Nat) (v : Word) : CsrWrite :=
  if n = 0x04 then .fstat fn v else if n = 0x26 then .reuseHit fn v else .fidx (n - 0x08) fn v

/-- The instruction changes the hart in focus as `f` says, goes on at the next instruction and does nothing else. -/
def ChangesHart (i : Instr) (s : State) (f : Hart → Hart) : Prop :=
  exec i s = .next { s with hart := { f s.hart with r := { (f s.hart).r with pc := s.pc + 4 } } }

end Sys2Proof.Claims

/-- R251, R290: csrr reads every listed register in the layout of its rule, and a number that is not listed is an illegal operand of
every CSR form. -/
def Obligations.CsrReads : Prop :=
  ∀ (s : State) (d : Nat),
    (∀ p ∈ csrValues s, ResultX (.csrr d p.1) s d p.2) ∧
    (∀ n, n ∉ (csrValues s).map (·.1) → Traps (.csrr d n) s 0x02 0 ∧ ∀ m ∈ csrForms, Traps (m.1 d n) s 0x02 0)

/-- R290, R291, R204, R132, R134, R138, R141, R128, R220: what csrw, csrs and csrc change in each register with a writable field while no vector
instruction is in flight: the field, unless its own rule refuses the value, and nothing else. A register without one is left alone. -/
def Sys2Proof.Claims.CsrWrites : Prop :=
  ∀ (s : State) (a : Nat), s.hart.inflight = [] → s.hart.pendCsr = [] → ∀ m ∈ csrForms,
    let v := s.x a
    (∀ n ∈ readOnly, Goes (m.1 a n) s (s.pc + 4)) ∧
    ChangesHart (m.1 a 0x04) s (fun h => { h with fstat := (m.2 (h.fstat.setWidth 64) v).setWidth 5 }) ∧
    ChangesHart (m.1 a 0x05) s (fun h => { h with frm :=
      let new := (m.2 (h.frm.setWidth 64) v).setWidth 3
      if new ≤ 4 then new else h.frm }) ∧
    (∀ c : Fin 5, ChangesHart (m.1 a (0x08 + c)) s (fun h => { h with fidx := h.fidx.set c (m.2 h.fidx[c] v) })) ∧
    (let g := s.hart.gears
     let new := m.2 (fields [(s.dev.thermal.hold.isSome.toNat, 7), (s.brick.gear.toNat, 4), (g.eff.toNat, 3), (g.auto.toNat, 1), (g.req.toNat, 0)]) v
     let req := new.getLsbD 0
     Completes (m.1 a 0x21) s fun t =>
       t.hart = { s.hart with
         gears := if new.getLsbD 1 then { g with req := req, eff := if g.auto && g.drop then g.eff else req, auto := true }
           else { g with req := req, eff := req, auto := false, drop := false }
         r := { s.hart.r with pc := s.pc + 4 } } ∧
       SameMemory s t ∧ t.dev = { s.dev with bricks := t.dev.bricks }) ∧
    ChangesHart (m.1 a 0x22) s (fun h => { h with gears := { h.gears with lead := (m.2 (h.gears.lead.setWidth 64) v).setWidth 14 } }) ∧
    ChangesHart (m.1 a 0x23) s (fun h =>
      let new := (m.2 (h.gears.idle.setWidth 64) v).setWidth 24
      if 16 ≤ new then { h with gears := { h.gears with idle := new } } else h) ∧
    ChangesHart (m.1 a 0x24) s (fun h => { h with vskew := (m.2 (h.vskew.setWidth 64) v).setWidth 4 }) ∧
    ChangesHart (m.1 a 0x26) s (fun h => { h with reuseHit := (m.2 (h.reuseHit.setWidth 64) v).setWidth 40 })

/-- R290, R239: a W1C field clears by a 1 of csrw and csrs, and csrc clears nothing: VLCAP.CHG and AERR.VALID, whose next report moves up. ATE
receives what its form gives it, whether a report is removed or not. -/
def Sys2Proof.Claims.WriteOneClears : Prop :=
  ∀ (s : State) (a : Nat),
    let v := s.x a
    (∀ m ∈ [Instr.csrw a 0x02, Instr.csrs a 0x02],
      ChangesHart m s (fun h => { h with chg := h.chg && !(v.getLsbD 8) })) ∧
    Goes (.csrc a 0x02) s (s.pc + 4) ∧
    (∀ m ∈ csrForms,
      let ate := (m.2 s.hart.aerr.word v).getLsbD 43
      let keeps := ChangesHart (m.1 a 0x18) s (fun h => { h with aerr := { h.aerr with ate := ate } })
      (v.getLsbD 45 = false → keeps) ∧
      (m.1 a 0x18 = .csrc a 0x18 → keeps) ∧
      (m.1 a 0x18 ≠ .csrc a 0x18 → v.getLsbD 45 = true →
        (∀ r, s.hart.aerr.held = some r → ChangesHart (m.1 a 0x18) s (fun h => { h with aerr :=
          { h.aerr with ate := ate, held := h.aerr.queue.head?, queue := h.aerr.queue.tail } })) ∧
        (s.hart.aerr.all = [] → keeps)))

/-- R220, R128, R290: a write to FSTAT, to an FIDX register or to REUSEHIT behind a vector instruction in flight waits, by csrw, csrs and csrc alike, and
takes effect as an event of its own once no vector instruction is in flight: the register then receives what its form gives it from the value
that it has then. -/
def Sys2Proof.Claims.LateCsrWrites : Prop :=
  (∀ (s : State) (a n : Nat), n ∈ [0x04, 0x08, 0x09, 0x0A, 0x0B, 0x0C, 0x26] → s.hart.inflight ≠ [] → ∀ m ∈ lateForms,
    ChangesHart (m.1 a n) s (fun h => { h with pendCsr := h.pendCsr ++ [lateWrite n m.2.1 (s.x a)] })) ∧
  (∀ (s : State) (v : Word) (rest : List CsrWrite), s.hart.run = .running → s.hart.inflight = [] → ∀ m ∈ lateForms,
    let b := s.hart.brick
    let n := s.hart.num
    (s.hart.pendCsr = .fstat m.2.1 v :: rest → exec (.csrWriteFstat b n) s =
      .next { s with hart := { s.hart with pendCsr := rest, fstat := (m.2.2 (s.hart.fstat.setWidth 64) v).setWidth 5 } }) ∧
    (∀ i : Fin 5, s.hart.pendCsr = .fidx i m.2.1 v :: rest → exec (.csrWriteFidx b n) s =
      .next { s with hart := { s.hart with pendCsr := rest, fidx := s.hart.fidx.set i (m.2.2 s.hart.fidx[i] v) } }) ∧
    (s.hart.pendCsr = .reuseHit m.2.1 v :: rest → exec (.csrWriteReusehit b n) s =
      .next { s with hart := { s.hart with pendCsr := rest, reuseHit := (m.2.2 (s.hart.reuseHit.setWidth 64) v).setWidth 40 } }))

/-! ### Vector length, loop indices, forks -/

namespace Sys2Proof.Claims

/-- A request that sets VILL (R89, R292). -/
def IllegalType (t : Word) : Prop := t.getLsbD 5 = true ∨ 3 < t.toNat % 8 ∨ 2 ^ 7 ≤ t.toNat

/-- The VTYPE and VL that a request for `n` elements gives a hart of `lgn` lane groups (R89, R90, R292). -/
def Typed (u : State) (t : Word) (lgn n : Nat) : Prop :=
  (IllegalType t → u.hart.r.vtype = { vill := true, kz := false, gm := 0, sew := 0 } ∧ u.hart.r.vl = 0) ∧
  (¬ IllegalType t →
    u.hart.r.vtype = { vill := false, kz := t.getLsbD 6, gm := (t >>> 3).setWidth 2, sew := t.setWidth 2 } ∧
    u.hart.r.vl.toNat = if lgn = 0 then 0 else
      min n (256 * lgn * 2 ^ ((t >>> 3).setWidth 2 : BitVec 2).toNat / 2 ^ (t.setWidth 2 : BitVec 2).toNat))

/-- A new strip has opened whose checkpoint follows the instruction (R187, R232). -/
def NewStrip (s t : State) : Prop :=
  t.hart.strip = {} ∧ t.hart.serial = s.hart.serial + 1 ∧ t.hart.ckpt = t.hart.r

/-- Level l of a launch is temporal and can be stepped (R293). -/
def CanStep (s : State) (l : Nat) : Prop :=
  l < 4 ∧ (s.hart.levels.getD l {}).place = 1 ∧ (s.hart.r.lidx.getD l 0).toNat + 1 < (s.hart.levels.getD l {}).extent

end Sys2Proof.Claims

/-- R292, R89, R90: setvl and setvli without a pending lane change set VTYPE and VL, write VL to xd, and open a new strip whose
checkpoint follows them. No vector, mask or FP register and no byte of memory changes. -/
def Sys2Proof.Claims.SetVectorLength : Prop :=
  ∀ (s : State) (d a b : Nat) (imm : BitVec 7), s.hart.next = s.hart.bound → (∀ p, s.hart.fork ≠ .child p false) →
    let ok := fun (i : Instr) (t : Word) => Completes i s fun u =>
      Typed u t (groups s.hart.bound) (s.x a).toNat ∧ SetsX s u d (u.hart.r.vl.setWidth 64) ∧ u.pc = s.pc + 4 ∧
      NewStrip s u ∧ SameMemory s u ∧ u.hart.r.v = s.hart.r.v ∧ u.hart.r.k = s.hart.r.k ∧ u.hart.r.f = s.hart.r.f ∧
      u.hart.bound = s.hart.bound ∧ u.hart.fstat = s.hart.fstat
    ok (.setvl d a b) (s.x b) ∧ ok (.setvli d a imm) (imm.setWidth 64)

/-- R101: the parent's next setvl after a fork binds its lower half and computes VL from that half, and each register holds the lower
lanes' elements; a child's first setvl waits until then. -/
def Sys2Proof.Claims.SplitAtSetvl : Prop :=
  ∀ (s : State) (d a b c : Nat),
    (s.hart.run = .running → s.hart.fork = .parent c false → s.hart.next ≠ s.hart.bound → s.hart.strip.stores = [] → s.hart.strip.cmds = [] →
      s.hart.ended = [] → c ≠ s.hart.num →
      Completes (.setvl d a b) s fun u => u.hart.bound = s.hart.next ∧ u.hart.fork = .parent c true ∧
        Typed u (s.x b) (groups s.hart.next) (s.x a).toNat ∧ u.pc = s.pc + 4 ∧
        ∀ r, r < 32 → (u.hart.r.v.getD r 0).toNat = (s.hart.r.v.getD r 0).toNat % 2 ^ (128 * (8 * groups s.hart.bound))) ∧
    (∀ p h q, s.hart.fork = .child p false → s.hartAt s.hart.brick p = some h → h.fork = .parent q false →
      Completes (.setvl d a b) s fun u => u.hart.wait = .forkSetvl ∧ u.hart.r = s.hart.r ∧ u.dev = s.dev)

/-- R293: nexti steps the highest temporal level that is not at its end, returns those above it to 0, and writes the index of the highest
temporal level; when every temporal level is at its end, or none is temporal, it writes all ones and changes no index. -/
def Obligations.NextLoopIndex : Prop :=
  ∀ (s : State) (d : Nat),
    ((∀ l, ¬ CanStep s l) → ResultX (.nexti d) s d (BitVec.allOnes 64)) ∧
    (∀ l top, CanStep s l → (∀ m, l < m → ¬ CanStep s m) →
      top < 4 → (s.hart.levels.getD top {}).place = 1 → (∀ m, top < m → m < 4 → (s.hart.levels.getD m {}).place ≠ 1) →
      Completes (.nexti d) s fun t =>
        (∀ m, m < 4 → t.hart.r.lidx.getD m 0 =
          if m = l then s.hart.r.lidx.getD m 0 + 1
          else if l < m ∧ (s.hart.levels.getD m {}).place = 1 then 0 else s.hart.r.lidx.getD m 0) ∧
        SetsX s t d ((t.hart.r.lidx.getD top 0).setWidth 64) ∧ t.pc = s.pc + 4 ∧
        t = { s with hart := { s.hart with r := { s.hart.r with x := t.hart.r.x, lidx := t.hart.r.lidx, pc := t.hart.r.pc } } })

/-- R100: fork fails, writing all ones and changing nothing else, when the hart holds neither two nor four lane groups, is part of a
fork, has a lane change pending, or no hart of the brick is free. Else the lowest free hart becomes the child at the label, with the
parent's registers as R100 lists them, and the two halves of the lane groups are to be theirs. That is once the parent's earlier strips have
performed: until then fork waits. -/
def Sys2Proof.Claims.ForkStartsAChild : Prop :=
  ∀ (s : State) (d : Nat) (i : BitVec 16),
    let free := fun n => (s.hartAt s.hart.brick n).isNone = true
    let two := groups s.hart.bound = 2 ∨ groups s.hart.bound = 4
    (¬ two ∨ s.hart.fork ≠ .none ∨ s.hart.next ≠ s.hart.bound ∨ (∀ n, n < 4 → ¬ free n) →
      ResultWait (.fork d i) s (fun t => SetsX s t d (BitVec.allOnes 64) ∧ t.hart.r.f = s.hart.r.f)) ∧
    (∀ c, two → s.hart.fork = .none → s.hart.next = s.hart.bound → c < 4 → free c → (∀ n, n < c → ¬ free n) →
      let closed := s.splitAndDrain.hart.ended = [] ∧ s.splitAndDrain.dev.onWay s.hart.uid = []
      (¬ closed → Completes (.fork d i) s fun t => t.hart = { s.splitAndDrain.hart with wait := .memory } ∧ t.dev = s.splitAndDrain.dev) ∧
      (closed → Completes (.fork d i) s fun t =>
        SetsX s t d (BitVec.ofNat 64 c) ∧ t.pc = s.pc + 4 ∧ t.hart.ended = s.splitAndDrain.hart.ended ∧
        t.hart.fork = .parent c false ∧ t.hart.bound = s.hart.bound ∧ t.hart.next ||| upperHalf s.hart.bound = s.hart.bound ∧
        t.hart.next &&& upperHalf s.hart.bound = 0 ∧
        ∃ h ∈ t.dev.parked, h.brick = s.hart.brick ∧ h.num = c ∧ h.run = .running ∧ h.fork = .child s.hart.num false ∧
          h.launch = s.hart.launch ∧ h.ctx = s.hart.ctx ∧ h.vmid = s.hart.vmid ∧
          h.r.pc = s.pc + 4 * i.signExtend 64 ∧ h.ckpt = h.r ∧
          (∀ n, 0 < n → n < 32 → h.r.x.getD n 0 = if n = d then BitVec.ofNat 64 s.hart.num else s.hart.r.x.getD n 0) ∧
          h.r.f = s.hart.r.f ∧ h.r.lidx = s.hart.r.lidx ∧ h.r.vtype = s.hart.r.vtype ∧ h.r.ops = s.hart.r.ops ∧
          h.frm = s.hart.frm ∧ h.vskew = s.hart.vskew ∧ h.r.vl = 0 ∧ h.bound = 0 ∧ h.next = upperHalf s.hart.bound ∧
          h.fstat = 0 ∧ h.fidx = Vector.replicate 5 (BitVec.allOnes 64)))

/-- R102, R103: join outside a fork writes 0. In a parent it waits until the child has ended and then writes the child's value, and
makes the lane groups whole again at the next setvl; before the split it is an illegal instruction. In a child that owes nothing, and whose
strips have closed, it hands its value to the parent and ends the child. -/
def Sys2Proof.Claims.JoinEndsAFork : Prop :=
  ∀ (s : State) (x : Nat),
    (s.hart.fork = .none → ResultX (.join x) s x 0) ∧
    (∀ c, s.hart.fork = .parent c false → Traps (.join x) s 0x01 0) ∧
    (∀ c, s.hart.fork = .parent c true → Completes (.join x) s fun t => t.hart.wait = .join ∧ t.pc = s.pc ∧ t.hart.strip = {}) ∧
    (∀ v lgs r, s.hart.fork = .ended v true lgs r → lgs ≠ 0 →
      Completes (.join x) s fun t => SetsX s t x v ∧ t.pc = s.pc + 4 ∧ t.hart.next = s.hart.bound ||| lgs ∧ t.hart.fork = .rejoin lgs r ∧
        t.hart.ended = s.splitAndDrain.hart.ended ∧ t.hart.strip = {}) ∧
    (∀ p h q sp, s.hart.run = .running → s.hart.bound ≠ 0 → s.hart.fork = .child p true → p ≠ s.hart.num → s.splitAndDrain.commandsDone = true →
      s.splitAndDrain.hart.ended = [] →
      s.splitAndDrain.dev.parked.find? (fun h => h.brick == s.hart.brick && h.num == p) = some h → h.fork = .parent q sp →
      Completes (.join x) s fun t => t.hart.run = .free ∧
        ∃ h' ∈ t.dev.parked, h'.brick = s.hart.brick ∧ h'.num = p ∧
          h'.fork = .ended (s.x x) sp s.hart.bound s.splitAndDrain.hart.r)

/-! ### Gears and waits -/

namespace Sys2Proof.Claims

/-- The gear that R133 gives the brick of the hart in focus: 0 during a hold, else 1 when some running hart of it has EFF 1. -/
def Wants (s : State) (g : Bool) : Prop :=
  g = true ↔ s.dev.thermal.hold = none ∧ ∃ h ∈ s.harts, h.brick = s.hart.brick ∧ h.run ≠ .token ∧ h.gears.eff = true

/-- After a request of the hart in focus its brick changes over when, and only when, the gear that is wanted is not the one it has and no
changeover is in progress (R133, R137). -/
def Regeared (s t : State) : Prop :=
  (s.brick.change.isSome = true → t.brick = s.brick) ∧
  (s.brick.change = none → ∀ g, Wants t g → t.brick = { s.brick with change := if g = s.brick.gear then none else some g })

end Sys2Proof.Claims

/-- R134, R133: gear g sets REQ, and EFF with it unless an auto drop is in force; gearauto a sets AUTO, and with 0 ends an auto drop; the
brick's gear is recomputed. A value other than 0 or 1 takes the illegal-operand trap. No register and no byte of memory changes. -/
def Sys2Proof.Claims.GearRequests : Prop :=
  ∀ (s : State) (g : Nat),
    let after := fun (i : Instr) (f : Gears → Gears) => Completes i s fun t =>
      t.hart = { s.hart with gears := f s.hart.gears, r := { s.hart.r with pc := s.pc + 4 } } ∧ Regeared s t ∧ SameMemory s t ∧
      t.dev = { s.dev with bricks := t.dev.bricks }
    (g < 2 → s.hart.run = .running →
      after (.gear g) (fun q => { q with req := g == 1, eff := if q.auto && q.drop then q.eff else g == 1 }) ∧
      after (.gearauto g) (fun q => if g = 1 then { q with auto := true } else { q with auto := false, eff := q.req, drop := false })) ∧
    (2 ≤ g → Traps (.gear g) s 0x02 0 ∧ Traps (.gearauto g) s 0x02 0)

/-- R142, R296, R138: waitt passes at once when DTIME has reached its target, else the hart waits at it; when DTIME reaches the target
the wait ends at the next instruction, with EFF back at REQ. The AUTOIDLE count lowers EFF in a wait that has not reached the gear-lead
point, and that point raises it again. -/
def Sys2Proof.Claims.TimedWaits : Prop :=
  ∀ (s : State) (a T : Nat), s.hart.run = .running →
    let now := s.dev.time.dtime.toNat
    let b := s.hart.brick
    let n := s.hart.num
    (¬ s.hart.gears.drop → (s.x a).toNat ≤ now → ChangesHart (.waitt a) s (fun h => { h with wait := .none, landed := [] })) ∧
    (now < (s.x a).toNat → exec (.waitt a) s = .next { s with hart := { s.hart with wait := .waitt (s.x a).toNat } }) ∧
    (s.hart.wait = .waitt T →
      (T ≤ now → Completes (.waittTargetReached b n) s fun t => t.hart.wait = .none ∧ t.pc = s.pc + 4 ∧ t.hart.gears.drop = false ∧
        (s.hart.gears.drop = true → t.hart.gears.eff = s.hart.gears.req) ∧ SameMemory s t) ∧
      (s.hart.gears.auto = true → s.hart.gears.drop = false → now + s.hart.gears.lead.toNat < T →
        Completes (.autoGearDrop b n) s fun t => Regeared s t ∧
          t.hart = { s.hart with gears := { s.hart.gears with eff := false, drop := true } }) ∧
      (s.hart.gears.drop = true → T ≤ now + s.hart.gears.lead.toNat →
        Completes (.gearLeadReached b n) s fun t => Regeared s t ∧
          t.hart = { s.hart with gears := { s.hart.gears with eff := s.hart.gears.req, drop := false } }))

/-- R301: idle passes itself and stops issue; 1 ms of DTIME, or an end without a cause, lets the hart issue again. -/
def Sys2Proof.Claims.IdleAndItsEnds : Prop :=
  ∀ (s : State), s.hart.run = .running →
    let b := s.hart.brick
    let n := s.hart.num
    Completes .idle s (fun t => t.pc = s.pc + 4 ∧ t.dev = s.dev ∧
      (∃ done reports, t.hart.wait = .idle s.dev.time.dtime.toNat done reports) ∧
      t.hart = { s.hart with wait := t.hart.wait, r := { s.hart.r with pc := t.hart.r.pc } }) ∧
    (∀ since done reports, s.hart.wait = .idle since done reports →
      exec (.idleEarlyEnd b n) s = .next { s with hart := { s.hart with wait := .none } } ∧
      (since + 1000000 ≤ s.dev.time.dtime.toNat →
        exec (.idleTimeout b n) s = .next { s with hart := { s.hart with wait := .none } }))

/-! ### Barriers and fences -/

/-- R297, R298: bara takes the illegal-operand trap for a barrier above 15, for the scope codes that are none, for system scope in a
launch of one device, and in a fork child; else, unless the hart has an unreleased arrival there, it records the arrival, and the
phase is released when every other member has arrived or ended. -/
def Sys2Proof.Claims.BarrierArrival : Prop :=
  ∀ (s : State) (a scope : Nat),
    let bar := (s.x a).toNat
    (16 ≤ bar ∨ scope < 2 ∨ 5 < scope ∨ (scope = 5 ∧ ∀ l ∈ s.hart.levels.toList, l.place ≠ 5) ∨
        (∃ p sp, s.hart.fork = .child p sp) → Traps (.bara a scope) s 0x02 0) ∧
    (∀ l, bar < 16 → 2 ≤ scope → scope ≤ 4 → (∀ p sp, s.hart.fork ≠ .child p sp) → s.dev.launch s.hart.launch = some l →
      (∀ x ∈ s.hart.arrivals, x.bar = bar → x.scope = scope →
        x.again = false ∧ x.phase < (s.dev.barrier l bar scope s.hart.index).phase) →
      let before := s.dev.barrier l bar scope s.hart.index
      let others := fun i => i ∈ barrierMembers l.record.levels scope before.inst → i ≠ s.hart.index →
        i ∈ before.arrived ∨ i ∈ l.ended
      Completes (.bara a scope) s fun t =>
        let after := t.dev.barrier l bar scope s.hart.index
        t.pc = s.pc + 4 ∧ SameMemory s t ∧
        (∃ x ∈ t.hart.arrivals, x.bar = bar ∧ x.scope = scope ∧ x.phase = before.phase) ∧
        ((∀ i, others i) → after.phase = before.phase + 1 ∧ after.arrived = []) ∧
        ((¬ ∀ i, others i) → after.phase = before.phase ∧ s.hart.index ∈ after.arrived))

/-- R298: barw passes when the hart's latest arrival with the number has been released, or when there is none; else the hart waits at
it. -/
def Sys2Proof.Claims.BarrierWait : Prop :=
  ∀ (s : State) (a : Nat),
    let bar := (s.x a).toNat
    ((16 ≤ bar ∨ ∃ p sp, s.hart.fork = .child p sp) → Traps (.barw a) s 0x02 0) ∧
    (bar < 16 → (∀ p sp, s.hart.fork ≠ .child p sp) → s.hart.gears.drop = false →
      ((∀ x ∈ s.hart.arrivals, x.bar ≠ bar) → ChangesHart (.barw a) s (fun h => { h with wait := .none, landed := [] })) ∧
      (∀ x l rest, s.hart.arrivals = rest ++ [x] → x.bar = bar → x.again = false → s.dev.launch s.hart.launch = some l →
        let now := (s.dev.barrier l bar x.scope s.hart.index).phase
        (x.phase < now → ChangesHart (.barw a) s (fun h => { h with wait := .none, landed := [] })) ∧
        (now ≤ x.phase → exec (.barw a) s = .next { s with hart := { s.hart with wait := .barw bar } })))

/-- R194, R241, R300: a fence of no path, or of a scope that is none, takes the illegal-operand trap. Else the strip closes before it;
a held report of a named path is delivered as a trap of cause 0x11; with nothing left to wait for the fence completes, and drops fetched
elements when it names Q; else the hart waits at it. -/
def Obligations.Fences : Prop :=
  ∀ (s : State) (paths : BitVec 6) (scope : Nat),
    let u := s.splitAndDrain
    (paths = 0 ∨ 5 < scope → Traps (.fence paths scope) s 0x02 0) ∧
    (paths ≠ 0 → scope ≤ 5 →
      ((∀ r ∈ u.hart.aerr.all, fenceTakes paths r = false) →
        (u.fenceMet paths scope = true → Completes (.fence paths scope) s fun t =>
          t.pc = s.pc + 4 ∧ t.hart.wait = .none ∧ t.hart.ended = u.hart.ended ∧ t.hart.strip = {} ∧ t.dev.mem = u.dev.mem ∧
          (paths.getLsbD 2 = true → t.hart.fetched = [])) ∧
        (u.fenceMet paths scope = false → exec (.fence paths scope) s = .next { u with hart := { u.hart with wait := .fence } })) ∧
      (∀ r l m, u.hart.aerr.all = l ++ r :: m → (∀ x ∈ l, fenceTakes paths x = false) → fenceTakes paths r = true →
        exec (.fence paths scope) s = .next (u.takeTrap { cause := 0x11, kind := reportSource r, report := r })))

/-! ### Traps -/

namespace Sys2Proof.Claims

/-- A trap descriptor that names a handler for a cause (R227): 64 bytes within every limit of its table. -/
def Names (l : List Byte) (cause handler frames : Nat) : Prop :=
  l.length = 64 ∧ value (l.take 8) = handler ∧ handler ≠ 0 ∧ handler % 4 = 0 ∧
  value ((l.drop 8).take 8) = frames ∧ frames % 256 = 0 ∧
  (∃ enable : BitVec 32, value ((l.drop 16).take 4) = enable.toNat ∧ enable &&& ~~~(0x7033E#32) = 0 ∧ enable.getLsbD cause = true) ∧
  ∀ b ∈ l.drop 20, b = 0

/-- The bytes of a trap frame (R228), by the table of its fields. -/
def FrameHolds (m : List Byte) (s : State) (tr : Trap) (epc resume : Word) : Prop :=
  let at' := fun o n => value ((m.drop o).take n)
  m.length = 256 ∧ at' 0 8 = tr.cause + 256 * tr.kind ∧ at' 8 8 = epc.toNat ∧ at' 16 8 = resume.toNat ∧
  at' 24 8 = (if 1 ≤ tr.cause ∧ tr.cause ≤ 5 then s.hart.iword.toNat else tr.tval.toNat) ∧
  at' 32 8 = (match tr.elem with | some e => e % 2 ^ 64 | none => 2 ^ 64 - 1) ∧
  at' 40 2 = (match tr.lane with | some l => l % 2 ^ 16 | none => 2 ^ 16 - 1) ∧ at' 42 6 = 0 ∧
  at' 48 8 = (s.x 30).toNat ∧ at' 56 8 = (s.x 31).toNat ∧ at' 64 4 = s.hart.iword.toNat ∧ at' 68 4 = 0 ∧
  at' 72 8 = s.dev.time.dtime.toNat ∧ at' 80 8 = tr.report.toNat ∧ ∀ b ∈ m.drop 88, b = 0

/-- The offsets in this device's memory of some places. -/
def offsets (ps : List Place) : List Nat := ps.map (fun p => match p with | .phys pa => offsetOf pa | .loc _ => 0)

/-- Everything the entry into a handler needs: INH is 0, nothing of another node is awaited, the descriptor is read and names a handler for
the cause, and the frame's 256 bytes lie in this device's memory. -/
structure Enters (s : State) (cause handler frames : Nat) (ps : List Place) : Prop where
  inh : s.hart.aerr.inh = false
  landed : s.hart.landed = []
  settled : s.directPending = false
  entry : ∃ l u hs v, s.loadScalar (s.hart.kernel - 64).toNat 64 = .ok (l, u) ∧ Names l cause handler frames ∧
    u.places (frames + 256 * (4 * s.hart.brick + s.hart.num)) 256 .write = .ok (ps, hs, v)
  own : ∀ p ∈ ps, ∃ pa, p = .phys pa ∧ s.dev.own pa = true
  apart : (offsets ps).Nodup
  memory : MemoryCanonical s

/-- The hart has entered its handler: the frame is in memory, x30 and x31 hold its address and the cause, INH is 1 and the program
counter is at HANDLER. No other byte of memory has changed. -/
def Entered (s t : State) (tr : Trap) (resume : Word) (handler frames : Nat) (ps : List Place) : Prop :=
  t.pc = BitVec.ofNat 64 handler ∧ t.hart.aerr.inh = true ∧
  t.x 30 = BitVec.ofNat 64 (frames + 256 * (4 * s.hart.brick + s.hart.num)) ∧
  t.x 31 = BitVec.ofNat 64 (tr.cause + 256 * tr.kind) ∧
  FrameHolds ((offsets ps).map (Memory.read t.dev.mem)) s tr s.pc resume ∧
  (∀ a, a ∉ offsets ps → Memory.read t.dev.mem a = Memory.read s.dev.mem a)

end Sys2Proof.Claims

/-- R226, R227, R228, R229: a trap at the instruction enters the handler that the descriptor names. RESUMEPC is the instruction, and for
svc the next one. The strip stays open with its stores, and every register but x30 and x31 is as it was. svc takes it with cause 0x10, an
illegal word with 0x01, and a reserved encoding with 0x05. -/
def Sys2Proof.Claims.TrapEntry : Prop :=
  ∀ (s : State) (handler frames : Nat) (ps : List Place) (code : BitVec 11) (w : BitVec 32),
    let goes := fun (i : Instr) (cause : Nat) (resume : Word) => Enters s cause handler frames ps → Completes i s fun t =>
      Entered s t { cause := cause } resume handler frames ps ∧ (∀ n, n < 30 → t.x n = s.x n) ∧ t.hart.r.f = s.hart.r.f ∧
      t.hart.r.v = s.hart.r.v ∧ t.hart.strip = s.hart.strip ∧ t.hart.ended = s.hart.ended
    goes (.svc code) 0x10 (s.pc + 4) ∧ goes (.illegalInstruction false w) 0x01 s.pc ∧ goes (.illegalInstruction true w) 0x05 s.pc

/-- R226, R229, R233: a translation fault or access error discards the open strip, returns every register to the checkpoint but x30 and x31,
and resumes at the checkpoint's address; the descriptor is read after the restart. A fetch that faults takes it. -/
def Sys2Proof.Claims.TrapRestartsStrip : Prop :=
  ∀ (s : State) (tr : Trap) (handler frames : Nat) (ps : List Place),
    let u := s.unfetched
    s.fetch = .error (.trap tr) → restarts tr.cause = true → Enters u.restart tr.cause handler frames ps →
    Completes .instructionFetchFault s fun t =>
      t.pc = BitVec.ofNat 64 handler ∧ t.hart.aerr.inh = true ∧ t.hart.strip = {} ∧
      t.x 31 = BitVec.ofNat 64 (tr.cause + 256 * tr.kind) ∧
      (∀ n, 0 < n → n < 30 → t.x n = s.hart.ckpt.x.getD n 0) ∧ t.hart.r.f = s.hart.ckpt.f ∧ t.hart.r.v = s.hart.ckpt.v ∧
      t.hart.r.vl = s.hart.ckpt.vl ∧ t.hart.r.lidx = s.hart.ckpt.lidx ∧
      let m := (offsets ps).map (Memory.read t.dev.mem)
      value ((m.drop 8).take 8) = s.pc.toNat ∧ value ((m.drop 16).take 8) = s.hart.ckpt.pc.toNat

/-- R230: eret in a handler restores the program counter from bytes 16 to 23 and x30 and x31 from bytes 48 to 63 of the frame that x30 names,
reads no other byte of it, and clears INH; outside one it takes
the illegal-instruction trap. -/
def Obligations.ReturnFromTrap : Prop :=
  ∀ (s : State),
    (s.hart.aerr.inh = false → Traps .eret s 0x01 0) ∧
    (∀ p q u, s.hart.aerr.inh = true → s.loadScalar (((s.x 30).toNat + 16) % 2 ^ 64) 8 = .ok (p, u) → q.length = 16 →
      ScalarBytes u (((s.x 30).toNat + 48) % 2 ^ 64) 16 q →
      Completes .eret s fun t => t.pc = BitVec.ofNat 64 (value p) ∧ t.hart.aerr = { s.hart.aerr with inh := false } ∧
        (∀ n, n < 32 → t.x n = if n = 30 then BitVec.ofNat 64 (value (q.take 8))
          else if n = 31 then BitVec.ofNat 64 (value (q.drop 8)) else s.x n) ∧
        t.hart.r.f = s.hart.r.f ∧ t.hart.r.v = s.hart.r.v ∧ t.hart.strip = s.hart.strip ∧ SameMemory s t)

/-- R301, R231: exit closes the strip and ends the hart, which counts in its launch as ended; it is an illegal operand in a fork child and in
a parent whose child has not ended. A trap while INH is 1 ends the hart, and its launch notes it. -/
def Obligations.EndOfHart : Prop :=
  ∀ (s : State),
    (∀ p sp, s.hart.fork = .child p sp ∨ s.hart.fork = .parent p sp → Traps .exit s 0x02 0) ∧
    ((∀ p sp, s.hart.fork ≠ .child p sp ∧ s.hart.fork ≠ .parent p sp) → Completes .exit s fun t => t.hart.run = .free ∧ t.hart.brick = s.hart.brick ∧ t.hart.num = s.hart.num ∧
      ∀ l ∈ t.dev.launches, (l.queue, l.seq) = s.hart.launch → s.hart.index ∈ l.ended) ∧
    (∀ code, s.hart.aerr.inh = true → s.hart.fork = .none →
      Completes (.svc code) s fun t => t.hart.run = .free ∧
        ∀ l ∈ t.dev.launches, (l.queue, l.seq) = s.hart.launch → s.hart.index ∈ l.ended ∧ l.trapped = true)

/-! ### Vector instructions -/

namespace Sys2Proof.Claims

/-- SEW in bits, G, and the bound lanes of the hart in focus (R89, R91). -/
def sew (s : State) : Nat := 8 * 2 ^ s.hart.r.vtype.sew.toNat
def gOf (s : State) : Nat := 2 ^ s.hart.r.vtype.gm.toNat
def lanes (s : State) : Nat := 8 * groups s.hart.bound
def vlen (s : State) : Nat := s.hart.r.vl.toNat

/-- Element e of w bits of the group that begins at register v: the elements lie one after another in the 32 bytes of each bound lane of
each register (R91). -/
def el (s : State) (w v e : Nat) : Nat :=
  let per := 256 * lanes s / w
  (s.hart.r.v.getD (v + e / per) 0).toNat / 2 ^ (w * (e % per)) % 2 ^ w

/-- The mortar byte of block q of the group that begins at register v. -/
def scaleByte (s : State) (v q : Nat) : Nat :=
  (s.hart.r.mortar.getD (v + q / lanes s) 0).toNat / 2 ^ (8 * (q % lanes s)) % 256

/-- Element e is active under a selector: it lies below VL, and its mask bit is 1 or there is no mask (R302). -/
abbrev Active (s : State) (k e : Nat) : Prop := e < vlen s ∧ (k = 0 ∨ (s.hart.r.k.getD k 0).getLsbD e = true)

/-- The hart can run a vector instruction on some register groups, by the state alone: lanes are bound, VTYPE is legal, VL is within
VLMAX, the groups are aligned, no stream is bound, no slot has failed, no vector instruction is in flight, eight slot parts of each bound lane
group are free (R113), and the reuse table is empty, so that the instruction computes. -/
structure VReady (s : State) (regs : List Nat) : Prop where
  bound : s.hart.bound ≠ 0
  legal : s.hart.r.vtype.vill = false
  length : vlen s ≤ 256 * groups s.hart.bound * gOf s / 2 ^ s.hart.r.vtype.sew.toNat
  alone : s.hart.resume = none ∧ s.hart.budget = none ∧ s.hart.inflight = []
  parts : s.hasParts 8 = true
  unbound : s.hart.r.streams = Vector.replicate 8 none
  sound : s.hart.r.vfail = Vector.replicate 32 0 ∧ s.hart.r.kfail = Vector.replicate 8 0 ∧ s.hart.r.tfail = Vector.replicate 8 0
  aligned : ∀ v ∈ regs, v < 32 ∧ v % gOf s = 0
  unused : s.brick.reuse = []

/-- Two sets of registers differ in the names of their groups alone. -/
def SameButNames (r r' : Regs) : Prop := r' = { r with names := r'.names }

/-- The checkpoints of the open strip and of those that have ended are as they were, but for names that their groups have got (R112, R127). -/
def SameCheckpoints (s t : State) : Prop :=
  SameButNames s.hart.ckpt t.hart.ckpt ∧
  List.Forall₂ (fun e e' => e' = { e with ckpt := e'.ckpt } ∧ SameButNames e.ckpt e'.ckpt) s.hart.ended t.hart.ended

/-- Nothing but vector registers with their mortar bytes, mappings and names, masks with their generations, the accumulated flags, the
program counter, what the hart waited for, and the brick's reuse table has changed: no scalar register, no control register, no byte of
memory. -/
def OnlyVector (s t : State) : Prop :=
  SameMemory s t ∧ SameCheckpoints s t ∧
  t = { hart := { s.hart with
          ckpt := t.hart.ckpt, ended := t.hart.ended
          fstat := t.hart.fstat, fidx := t.hart.fidx, comparing := t.hart.comparing, wait := t.hart.wait, landed := t.hart.landed
          r := { s.hart.r with
            v := t.hart.r.v, mortar := t.hart.r.mortar, vfail := t.hart.r.vfail, names := t.hart.r.names, phys := t.hart.r.phys
            k := t.hart.r.k, kfail := t.hart.r.kfail, kgen := t.hart.r.kgen, pc := t.hart.r.pc } }
        dev := { s.dev with bricks := t.dev.bricks } }

/-- Registers outside a group are as they were, with their mortar bytes. -/
def OtherRegs (s t : State) (d n : Nat) : Prop :=
  ∀ v, v < 32 → (v < d ∨ d + n ≤ v) →
    t.hart.r.v.getD v 0 = s.hart.r.v.getD v 0 ∧ t.hart.r.mortar.getD v 0 = s.hart.r.mortar.getD v 0

/-- Every mask is as it was. -/
def SameMasks (s t : State) : Prop := ∀ k, k < 8 → t.hart.r.k.getD k 0 = s.hart.r.k.getD k 0

/-- Flags as R219 merges them: FSTAT gains each class that some active element raised, and FIDX of the class becomes the lower of
itself and the lowest such element. `raised e` are the flags of element e, in FSTAT's bits. -/
def Flagged (s t : State) (k : Nat) (raised : Nat → BitVec 5) : Prop :=
  ∀ c : Fin 5,
    let hits := fun e => Active s k e ∧ (raised e).getLsbD (4 - c) = true
    (t.hart.fstat.getLsbD (4 - c) = true ↔ s.hart.fstat.getLsbD (4 - c) = true ∨ ∃ e, hits e) ∧
    (∀ e, hits e → t.hart.fidx[c].toNat ≤ e) ∧ t.hart.fidx[c] ≤ s.hart.fidx[c] ∧
    (t.hart.fidx[c] = s.hart.fidx[c] ∨ ∃ e, hits e ∧ t.hart.fidx[c].toNat = e)

/-- The instruction completes: element e of the group at d, dw bits wide, becomes `val e` when active; an inactive element below VL is
kept, or zeroed under KZ; elements at and above VL, every other register and every mask are kept, and the flags merge (R302). -/
def WritesElements (i : Instr) (s : State) (d dw k : Nat) (val : Nat → Nat) (raised : Nat → BitVec 5) (more : State → Prop) : Prop :=
  Completes i s fun t =>
    OnlyVector s t ∧ t.pc = s.pc + 4 ∧ OtherRegs s t d (gOf s) ∧ SameMasks s t ∧ Flagged s t k raised ∧
    (∀ e, e < 256 * lanes s / dw * gOf s →
      el t dw d e = if Active s k e then val e
        else if e < vlen s ∧ s.hart.r.vtype.kz = true then 0 else el s dw d e) ∧
    more t

/-- The blocks in which an element is written get mortar byte 0, and the others keep theirs (R211). -/
def ZeroesScales (s t : State) (d dw k : Nat) : Prop :=
  ∀ q, q < lanes s * gOf s → ∀ n, (n = scaleByte t d q) →
    ((∃ e, e * dw / 256 = q ∧ e < vlen s ∧ (Active s k e ∨ s.hart.r.vtype.kz = true)) → n = 0) ∧
    ((∀ e, e * dw / 256 = q → e < vlen s → ¬ Active s k e ∧ s.hart.r.vtype.kz = false) → n = scaleByte s d q)

/-- An instruction of majors 0x20 to 0x27 that follows R302 and R211 throughout. -/
def WritesGroup (i : Instr) (s : State) (d dw k : Nat) (val : Nat → Nat) (raised : Nat → BitVec 5) : Prop :=
  WritesElements i s d dw k val raised (fun t => ZeroesScales s t d dw k)

/-- The instruction completes: bit e of mask d, below VL, becomes `val e` when e is active; an inactive bit is kept, or cleared under KZ; bits
at and above VL, the other masks and every vector register are kept, and the flags merge (R318, R321). -/
def WritesMask (i : Instr) (s : State) (d k : Nat) (val : Nat → Bool) (raised : Nat → BitVec 5) : Prop :=
  Completes i s fun t =>
    OnlyVector s t ∧ t.pc = s.pc + 4 ∧ t.hart.r.v = s.hart.r.v ∧ t.hart.r.mortar = s.hart.r.mortar ∧ Flagged s t k raised ∧
    (∀ m, m < 8 → m ≠ d → t.hart.r.k.getD m 0 = s.hart.r.k.getD m 0) ∧
    t.hart.r.kgen.getD d 0 = s.hart.r.kgen.getD d 0 + 1 ∧
    (∀ e, e < 8192 → (t.hart.r.k.getD d 0).getLsbD e =
      if Active s k e then val e
      else if e < vlen s ∧ s.hart.r.vtype.kz = true then false else (s.hart.r.k.getD d 0).getLsbD e)

/-- The low w bits of the exact product of two signed numbers of w bits, from bit w on. -/
def highSigned {w : Nat} (a b : BitVec w) : BitVec w := ((a.signExtend (2 * w) * b.signExtend (2 * w)) >>> w).setWidth w
def highUnsigned {w : Nat} (a b : BitVec w) : BitVec w := ((a.setWidth (2 * w) * b.setWidth (2 * w)) >>> w).setWidth w

/-- An integer clamped to the signed numbers of w bits. -/
def clampSigned (w : Nat) (i : Int) : BitVec w := BitVec.ofInt w (max (-(2 ^ (w - 1))) (min (2 ^ (w - 1) - 1) i))

/-- The operations of R306 with their three forms, and whether the immediate is a shift amount. -/
structure IntForm where
  vv : Nat → Nat → Nat → Nat → Instr
  vx : Nat → Nat → Nat → Nat → Instr
  vi : Nat → Nat → BitVec 5 → Nat → Instr
  shift : Bool
  op : (w : Nat) → BitVec w → BitVec w → BitVec w

noncomputable def intForms : List IntForm :=
  [⟨.vaddVv, .vaddVx, .vaddVi, false, fun _ a b => a + b⟩,
   ⟨.vsubVv, .vsubVx, .vsubVi, false, fun _ a b => a - b⟩,
   ⟨.vmulVv, .vmulVx, .vmulVi, false, fun _ a b => a * b⟩,
   ⟨.vmulhVv, .vmulhVx, .vmulhVi, false, fun _ a b => highSigned a b⟩,
   ⟨.vmulhnVv, .vmulhnVx, .vmulhnVi, false, fun _ a b => highUnsigned a b⟩,
   ⟨.vdivVv, .vdivVx, .vdivVi, false, fun w a b => if b = 0 then BitVec.allOnes w else a.sdiv b⟩,
   ⟨.vdivnVv, .vdivnVx, .vdivnVi, false, fun w a b => if b = 0 then BitVec.allOnes w else a / b⟩,
   ⟨.vremVv, .vremVx, .vremVi, false, fun _ a b => if b = 0 then a else a.srem b⟩,
   ⟨.vremnVv, .vremnVx, .vremnVi, false, fun _ a b => if b = 0 then a else a % b⟩,
   ⟨.vminVv, .vminVx, .vminVi, false, fun _ a b => if a.toInt ≤ b.toInt then a else b⟩,
   ⟨.vminnVv, .vminnVx, .vminnVi, false, fun _ a b => if a ≤ b then a else b⟩,
   ⟨.vmaxVv, .vmaxVx, .vmaxVi, false, fun _ a b => if a.toInt ≤ b.toInt then b else a⟩,
   ⟨.vmaxnVv, .vmaxnVx, .vmaxnVi, false, fun _ a b => if a ≤ b then b else a⟩,
   ⟨.vandVv, .vandVx, .vandVi, false, fun _ a b => a &&& b⟩,
   ⟨.vorVv, .vorVx, .vorVi, false, fun _ a b => a ||| b⟩,
   ⟨.vxorVv, .vxorVx, .vxorVi, false, fun _ a b => a ^^^ b⟩,
   ⟨.vsllVv, .vsllVx, .vsllVi, true, fun w a b => a <<< (b.toNat % w)⟩,
   ⟨.vsrlVv, .vsrlVx, .vsrlVi, true, fun w a b => a >>> (b.toNat % w)⟩,
   ⟨.vsraVv, .vsraVx, .vsraVi, true, fun w a b => a.sshiftRight (b.toNat % w)⟩,
   ⟨.vsaddVv, .vsaddVx, .vsaddVi, false, fun w a b => clampSigned w (a.toInt + b.toInt)⟩,
   ⟨.vsaddnVv, .vsaddnVx, .vsaddnVi, false, fun w a b => BitVec.ofNat w (min (a.toNat + b.toNat) (2 ^ w - 1))⟩,
   ⟨.vssubVv, .vssubVx, .vssubVi, false, fun w a b => clampSigned w (a.toInt - b.toInt)⟩,
   ⟨.vssubnVv, .vssubnVx, .vssubnVi, false, fun w a b => BitVec.ofNat w (a.toNat - b.toNat)⟩]

/-- The FP type of a SEW, and BF16 with B (R307); the SEW limits of the FP forms. -/
def vfp (s : State) (bf : Bool) : FpFmt := if bf then .bf16 else if sew s = 64 then .fp64 else if sew s = 32 then .fp32 else .fp16
def FpSew (s : State) (bf : Bool) : Prop := sew s ≠ 8 ∧ (bf = true → sew s = 16)

/-- The FP operations of R307 with their two forms, and what each computes in a format under a rounding mode. -/
noncomputable def fpForms : List ((Nat → Nat → Nat → Nat → Bool → Instr) × (Nat → Nat → Nat → Nat → Bool → Instr) ×
    (FpFmt → Nat → Nat → Nat → Nat × BitVec 5)) :=
  [(.vfaddVv, .vfaddVf, fpAdd), (.vfsubVv, .vfsubVf, fpSub), (.vfmulVv, .vfmulVf, fpMul), (.vfdivVv, .vfdivVf, fpDiv),
   (.vfminVv, .vfminVf, fun f _ => fpMinMax f false), (.vfmaxVv, .vfmaxVf, fun f _ => fpMinMax f true)]

/-- The integer comparisons of R318. -/
noncomputable def intCompares : List ((Nat → Nat → Nat → Nat → Instr) × ((w : Nat) → BitVec w → BitVec w → Bool)) :=
  [(.vcmpEq, fun _ a b => a == b), (.vcmpNe, fun _ a b => a != b),
   (.vcmpLt, fun _ a b => decide (a.toInt < b.toInt)), (.vcmpLtn, fun _ a b => decide (a < b)),
   (.vcmpLe, fun _ a b => decide (a.toInt ≤ b.toInt)), (.vcmpLen, fun _ a b => decide (a ≤ b))]

/-- The FP comparisons of R318, by the condition codes of R289. -/
noncomputable def fpCompares : List ((Nat → Nat → Nat → Nat → Bool → Instr) × Nat) :=
  [(.vcmpFeq, 0), (.vcmpFlt, 1), (.vcmpFle, 2), (.vcmpFunord, 3)]

/-- Mask bit e. -/
def kbit (s : State) (k e : Nat) : Bool := (s.hart.r.k.getD k 0).getLsbD e

end Sys2Proof.Claims

/-- R306, R302, R211: what each integer operation writes in its three forms, for every SEW, element by element. A code from 0x17 on is
an illegal instruction. -/
def Obligations.VectorInteger : Prop :=
  (∀ (s : State) (d a b x k : Nat) (imm : BitVec 5), ∀ m ∈ intForms,
    let w := sew s
    let e1 := fun e => BitVec.ofNat w (el s w a e)
    (VReady s [d, a, b] →
      WritesGroup (m.vv d a b k) s d w k (fun e => (m.op w (e1 e) (BitVec.ofNat w (el s w b e))).toNat) (fun _ => 0)) ∧
    (VReady s [d, a] →
      WritesGroup (m.vx d a x k) s d w k (fun e => (m.op w (e1 e) ((s.x x).setWidth w)).toNat) (fun _ => 0) ∧
      WritesGroup (m.vi d a imm k) s d w k
        (fun e => (m.op w (e1 e) (if m.shift then imm.setWidth w else imm.signExtend w)).toNat) (fun _ => 0))) ∧
  (∀ w, w < 2 ^ 32 → w / 2 ^ 26 = 0x20 ∨ w / 2 ^ 26 = 0x21 ∨ w / 2 ^ 26 = 0x22 → 0x17 ≤ w % 256 →
    decodeWord w = .error .illegal)

/-- R307, R308, R204, R219: what each FP operation writes in its forms, rounded under the captured FRM, with the flags of each active
element; the fused forms read the old vd as their addend. SEW 8, and B with another SEW than 16, take the illegal-operand trap. -/
def Obligations.VectorFloat : Prop :=
  ∀ (s : State) (d a b f k : Nat) (bf : Bool),
    let w := sew s
    let y := vfp s bf
    let rm := s.hart.frm.toNat
    let res := fun (i : Instr) (r : Nat → Nat × BitVec 5) => WritesGroup i s d w k (fun e => (r e).1) (fun e => (r e).2)
    (FpSew s bf →
      (∀ m ∈ fpForms,
        (VReady s [d, a, b] → res (m.1 d a b k bf) (fun e => m.2.2 y rm (el s w a e) (el s w b e))) ∧
        (VReady s [d, a] → res (m.2.1 d a f k bf) (fun e => m.2.2 y rm (el s w a e) ((s.f f).toNat % 2 ^ w)))) ∧
      (VReady s [d, a] → res (.vfsqrt d a k bf) (fun e => fpSqrt y rm (el s w a e))) ∧
      (VReady s [d, a, b] →
        res (.vfma d a b k bf) (fun e => fpFma y rm (el s w a e) (el s w b e) (el s w d e)) ∧
        res (.vfms d a b k bf) (fun e => fpFms y rm (el s w a e) (el s w b e) (el s w d e)))) ∧
    (¬ FpSew s bf → VReady s [d, a, b] →
      (∀ m ∈ fpForms, Traps (m.1 d a b k bf) s 0x02 0 ∧ Traps (m.2.1 d a f k bf) s 0x02 0) ∧
      Traps (.vfsqrt d a k bf) s 0x02 0 ∧ Traps (.vfma d a b k bf) s 0x02 0 ∧ Traps (.vfms d a b k bf) s 0x02 0)

/-- R317, R318: carries through a mask and compares. Every element or bit below VL is written by a carry, with kc's bit; selector 0 of a
carry is an illegal operand. Compares write a mask bit for each active element, and the FP forms raise what R289 says and have the SEW
limits of R307. -/
def Obligations.CarriesAndCompares : Prop :=
  ∀ (s : State) (d a b k : Nat) (bf : Bool), VReady s [a, b] →
    let w := sew s
    let x := fun e => BitVec.ofNat w (el s w a e)
    let y := fun e => BitVec.ofNat w (el s w b e)
    let c := fun e => (kbit s k e).toNat
    (k ≠ 0 → VReady s [d, a, b] →
      WritesGroup (.vadc d a b k) s d w 0 (fun e => (x e + y e + BitVec.ofNat w (c e)).toNat) (fun _ => 0) ∧
      WritesGroup (.vsbc d a b k) s d w 0 (fun e => (x e - y e - BitVec.ofNat w (c e)).toNat) (fun _ => 0)) ∧
    (d < 8 →
      (k ≠ 0 → WritesMask (.vaddk d a b k) s d 0 (fun e => decide (2 ^ w ≤ el s w a e + el s w b e + c e)) (fun _ => 0)) ∧
      (∀ m ∈ intCompares, WritesMask (m.1 d a b k) s d k (fun e => m.2 w (x e) (y e)) (fun _ => 0)) ∧
      (FpSew s bf → ∀ m ∈ fpCompares, WritesMask (m.1 d a b k bf) s d k
        (fun e => (fpCompare (vfp s bf) m.2 (el s w a e) (el s w b e)).1)
        (fun e => (fpCompare (vfp s bf) m.2 (el s w a e) (el s w b e)).2))) ∧
    (¬ FpSew s bf → ∀ m ∈ fpCompares, Traps (m.1 d a b k bf) s 0x02 0) ∧
    (VReady s [d, a, b] → Traps (.vadc d a b 0) s 0x02 0 ∧ Traps (.vsbc d a b 0) s 0x02 0 ∧ Traps (.vaddk d a b 0) s 0x02 0)

/-- R319, R320: merges and moves. vmerge takes vs2 where kc is 1 and vs1 elsewhere, with the mortar byte of a block that is of one kind and
0 for a mixed one; vmv copies elements and mortar bytes; the splats and vid write elements; the two moves out read element 0 whatever
VL is. -/
def Sys2Proof.Claims.MergesAndMoves : Prop :=
  ∀ (s : State) (d a b x k c : Nat),
    let w := sew s
    let per := 256 / w
    let all := fun (q : Nat) (v : Bool) => ∀ e, e / per = q → e < vlen s → kbit s c e = v
    (c ≠ 0 → VReady s [d, a, b] →
      WritesElements (.vmerge d a b c) s d w 0 (fun e => if kbit s c e then el s w b e else el s w a e) (fun _ => 0)
        (fun t => ∀ q, q * per < vlen s →
          (all q true → scaleByte t d q = scaleByte s b q) ∧ (all q false → scaleByte t d q = scaleByte s a q) ∧
          (¬ all q true → ¬ all q false → scaleByte t d q = 0))) ∧
    (VReady s [d, a, b] → Traps (.vmerge d a b 0) s 0x02 0) ∧
    (VReady s [d, a] →
      WritesElements (.vmvVv d a) s d w 0 (fun e => el s w a e) (fun _ => 0)
        (fun t => ∀ q, q * per < vlen s → scaleByte t d q = scaleByte s a q)) ∧
    (VReady s [d] →
      WritesGroup (.vmvVx d x) s d w 0 (fun _ => (s.x x).toNat % 2 ^ w) (fun _ => 0) ∧
      WritesGroup (.vmvVf d x) s d w 0 (fun _ => (s.f x).toNat % 2 ^ w) (fun _ => 0) ∧
      WritesGroup (.vid d k) s d w k (fun e => e % 2 ^ w) (fun _ => 0)) ∧
    (VReady s [a] →
      ResultWait (.vmvXv x a) s (fun t => SetsX s t x ((BitVec.ofNat w (el s w a 0)).signExtend 64) ∧ t.hart.r.f = s.hart.r.f) ∧
      (x < 32 → ResultWait (.vmvFv x a) s (fun t => SetsF s t x (BitVec.ofNat 64 (el s w a 0)) ∧ t.hart.r.x = s.hart.r.x)))

/-- R321, R322, R323, R324, R264: the mask instructions: logic, moves and shifts that stay below VL, and the count, first and last set bit. -/
def Sys2Proof.Claims.MaskInstructions : Prop :=
  ∀ (s : State) (d a b x : Nat), VReady s [] → d < 8 →
    let n := vlen s
    let sh := (s.x x).toNat
    let res := fun (i : Instr) (f : Nat → Bool) => WritesMask i s d 0 f (fun _ => 0)
    let A := kbit s a
    let B := kbit s b
    res (.kand d a b) (fun e => A e && B e) ∧ res (.kor d a b) (fun e => A e || B e) ∧ res (.kxor d a b) (fun e => A e ^^ B e) ∧
    res (.kandn d a b) (fun e => A e && !B e) ∧ res (.knot d a) (fun e => !A e) ∧ res (.kmv d a) A ∧
    res (.kshl d a x) (fun e => decide (sh ≤ e) && A (e - sh)) ∧
    res (.kshr d a x) (fun e => decide (e + sh < n) && A (e + sh)) ∧
    ResultWait (.kpop x a) s (fun t => SetsX s t x (BitVec.ofNat 64 ((List.range n).countP A))) ∧
    ((∀ e, e < n → A e = false) →
      ResultWait (.kfirst x a) s (fun t => SetsX s t x (BitVec.allOnes 64)) ∧
      ResultWait (.klast x a) s (fun t => SetsX s t x (BitVec.allOnes 64))) ∧
    (∀ e, e < n → A e = true →
      ((∀ m, m < e → A m = false) → ResultWait (.kfirst x a) s (fun t => SetsX s t x (BitVec.ofNat 64 e))) ∧
      ((∀ m, e < m → m < n → A m = false) → ResultWait (.klast x a) s (fun t => SetsX s t x (BitVec.ofNat 64 e))))

/-! ### Conversions, quantization, generators, dot products -/

namespace Sys2Proof.Claims

/-- The code of an integer type of R262, of 8 × 2^i bits. -/
def intCode (signed : Bool) (i : Fin 4) : Nat := (if signed then 8 else 12) + i

/-- The code of a narrow type of R262. -/
def narrowCode : Narrow → Nat
  | .d8 => 4 | .d4 => 5

/-- Code e of a narrow group with the scale of its block (R210). -/
def narrowAt (s : State) (n : Narrow) (v e : Nat) : FpNum :=
  decodeNarrow n (BitVec.ofNat 8 (scaleByte s v (e * n.width / 256))) (el s n.width v e)

/-- Every block of `size` elements below VL is wholly active or wholly inactive, and VL holds whole blocks (R212). -/
def WholeBlocks (s : State) (k size : Nat) : Prop :=
  vlen s % size = 0 ∧ ∀ e f, e < vlen s → e / size = f / size → (Active s k e ↔ Active s k f)

/-- The codes of block q of a quantization, with the scale it chooses (R215). -/
def quantized (s : State) (n : Narrow) (y : FpFmt) (a q : Nat) : Int × List (Nat × BitVec 5) :=
  let size := 256 / n.width
  quantizeBlock n s.hart.frm.toNat ((List.range size).map (fun j => decodeFp y (el s (fpWidth y) a (size * q + j))))

/-- The bound-lane ordinal that holds element e of w bits (R91). -/
def laneOfElement (s : State) (w e : Nat) : Nat := e * w / 256 % lanes s

/-- The word that element e draws: its lane's generator stands behind the draws of that lane's lower active elements (R222, R223). -/
def drawn (s : State) (w k e : Nat) : Word :=
  let l := laneOfElement s w e
  drawWord (s.hart.r.gkey.getD l 0) (s.hart.r.gpos.getD l 0 +
    BitVec.ofNat 64 ((List.range e).countP (fun m => decide (Active s k m) && laneOfElement s w m == l)))

/-- A generator instruction: each active element is made of its draw, and each lane's position moves on by its draws. -/
def Generates (i : Instr) (s : State) (d w k : Nat) (val : Word → Nat) (raised : Word → BitVec 5) : Prop :=
  Completes i s fun t =>
    SameMemory s t ∧ t.pc = s.pc + 4 ∧ OtherRegs s t d (gOf s) ∧ SameMasks s t ∧ t.hart.r.x = s.hart.r.x ∧ t.hart.r.f = s.hart.r.f ∧
    t.hart.r.gkey = s.hart.r.gkey ∧ Flagged s t k (fun e => raised (drawn s w k e)) ∧
    (∀ e, e < 256 * lanes s / w * gOf s →
      el t w d e = if Active s k e then val (drawn s w k e)
        else if e < vlen s ∧ s.hart.r.vtype.kz = true then 0 else el s w d e) ∧
    (∀ l, l < 32 → t.hart.r.gpos.getD l 0 = s.hart.r.gpos.getD l 0 +
      BitVec.ofNat 64 ((List.range (vlen s)).countP (fun m => decide (Active s k m) && laneOfElement s w m == l)))

/-- SEW, accumulator format, codes per element and the reading of code q for each type of R315. -/
def dotTypes : List (Nat × Nat × FpFmt × Nat × (State → Nat → Nat → FpNum)) :=
  [(0, 64, .fp64, 1, fun s v q => decodeFp .fp64 (el s 64 v q)),
   (1, 32, .fp32, 1, fun s v q => decodeFp .fp32 (el s 32 v q)),
   (2, 16, .fp32, 1, fun s v q => decodeFp .fp16 (el s 16 v q)),
   (3, 16, .fp32, 1, fun s v q => decodeFp .bf16 (el s 16 v q)),
   (4, 8, .fp32, 1, fun s v q => narrowAt s .d8 v q),
   (5, 8, .fp32, 2, fun s v q => narrowAt s .d4 v q)]

/-- The terms of a dot product, with the element that holds each (R315). -/
def dotTerms (s : State) (k per a b : Nat) (at' : State → Nat → Nat → FpNum) : List Term :=
  (List.range (vlen s * per)).map (fun q =>
    if Active s k (q / per) then
      some (q / per, (productOf (at' s a q) (at' s b q)).1, (productOf (at' s a q) (at' s b q)).2)
    else none)

end Sys2Proof.Claims

/-- R309, R304, R213, R216: vfcvt converts each active element between FP types and between FP and integer types, at SEW equal to the
wider one. Another SEW, two integer types, a narrow type and a code that stands for no type are illegal operands. -/
def Sys2Proof.Claims.VectorConversions : Prop :=
  ∀ (s : State) (d a k : Nat) (x y : FpFmt) (sg : Bool) (i : Fin 4), VReady s [d, a] →
    let rm := s.hart.frm.toNat
    let w := 8 * 2 ^ i.val
    let res := fun (j : Instr) (dw : Nat) (r : Nat → Nat × BitVec 5) => WritesGroup j s d dw k (fun e => (r e).1) (fun e => (r e).2)
    (sew s = max (fpWidth x) (fpWidth y) →
      res (.vfcvt d a x.code k y.code) (fpWidth x) (fun e => fpConvert y x rm (el s (fpWidth y) a e))) ∧
    (sew s = max w (fpWidth y) →
      res (.vfcvt d a (intCode sg i) k y.code) w (fun e => numToInt sg w rm (decodeFp y (el s (fpWidth y) a e))) ∧
      res (.vfcvt d a y.code k (intCode sg i)) (fpWidth y)
        (fun e => intToFp y rm (if sg then (BitVec.ofNat w (el s w a e)).toInt else el s w a e))) ∧
    (sew s ≠ max (fpWidth x) (fpWidth y) → Traps (.vfcvt d a x.code k y.code) s 0x02 0) ∧
    (sew s ≠ max w (fpWidth y) →
      Traps (.vfcvt d a (intCode sg i) k y.code) s 0x02 0 ∧ Traps (.vfcvt d a y.code k (intCode sg i)) s 0x02 0) ∧
    (∀ j : Fin 4, ∀ sg', Traps (.vfcvt d a (intCode sg i) k (intCode sg' j)) s 0x02 0) ∧
    (let none := fun c => 4 ≤ c ∧ c < 8 ∨ 16 ≤ c
     ∀ t f, none t ∨ none f → Traps (.vfcvt d a t k f) s 0x02 0)

/-- R310, R311, R312, R212: vqz writes the codes and the scale that R215 chooses for each active block and takes the illegal-operand trap
for blocks that are not whole; vdq rounds each code's exact value once; vscl gives blocks of codes new scales; vsclg reads scales as
elements. Another SEW than these need, other types, and blocks that are not whole are illegal operands. -/
def Sys2Proof.Claims.NarrowFormats : Prop :=
  ∀ (s : State) (d a b k : Nat) (n : Narrow) (y : FpFmt), VReady s [d, a] →
    let rm := s.hart.frm.toNat
    let size := 256 / n.width
    let code := fun e => (quantized s n y a (e / size)).2.getD (e % size) (0, 0)
    (sew s = fpWidth y →
      (WholeBlocks s k size →
        WritesElements (.vqz d a (narrowCode n) k y.code) s d n.width k (fun e => (code e).1) (fun e => (code e).2)
          (fun t => ∀ q, q < vlen s / size → scaleByte t d q =
            if Active s k (size * q) then (mortarOf (quantized s n y a q).1).toNat
            else if s.hart.r.vtype.kz = true then 0 else scaleByte s d q)) ∧
      (¬ WholeBlocks s k size → Traps (.vqz d a (narrowCode n) k y.code) s 0x02 0) ∧
      WritesGroup (.vdq d a y.code k (narrowCode n)) s d (fpWidth y) k (fun e => (roundNum y rm (narrowAt s n a e)).1)
        (fun e => (roundNum y rm (narrowAt s n a e)).2 ||| snanFlag [narrowAt s n a e])) ∧
    (sew s ≠ fpWidth y → Traps (.vqz d a (narrowCode n) k y.code) s 0x02 0 ∧ Traps (.vdq d a y.code k (narrowCode n)) s 0x02 0) ∧
    (∀ t f, (¬ ((t = 4 ∨ t = 5) ∧ f < 4) → Traps (.vqz d a t k f) s 0x02 0) ∧
      (¬ (t < 4 ∧ (f = 4 ∨ f = 5)) → Traps (.vdq d a t k f) s 0x02 0)) ∧
    (VReady s [d, a, b] → sew s ≠ 8 ∨ ¬ WholeBlocks s k 32 → Traps (.vscl d a b k) s 0x02 0) ∧
    (sew s ≠ 8 ∨ vlen s % 32 ≠ 0 → Traps (.vsclg d a) s 0x02 0) ∧
    (sew s = 8 → VReady s [d, a, b] → WholeBlocks s k 32 →
      WritesElements (.vscl d a b k) s d 8 k (fun e => el s 8 a e) (fun _ => 0)
        (fun t => ∀ q, q < vlen s / 32 → scaleByte t d q =
          if Active s k (32 * q) then el s 8 b q else if s.hart.r.vtype.kz = true then 0 else scaleByte s d q)) ∧
    (sew s = 8 → vlen s % 32 = 0 →
      WritesGroup (.vsclg d a) s d 8 0 (fun e => if e < vlen s / 32 then scaleByte s a e else 0) (fun _ => 0))

/-- R313, R314, R222, R223: the functions write e^x and ln x; the generators make each active element of its own draw, lane by lane in
rising element order; vrng.seed keys every bound lane. -/
def Sys2Proof.Claims.FunctionsAndGenerators : Prop :=
  ∀ (s : State) (d a k r : Nat),
    let rm := s.hart.frm.toNat
    let res := fun (i : Instr) (f : Nat → Nat × BitVec 5) => WritesGroup i s d 32 k (fun e => (f e).1) (fun e => (f e).2)
    (sew s = 32 → VReady s [d, a] →
      res (.vfexp d a k) (fun e => fpExp rm (el s 32 a e)) ∧ res (.vflog d a k) (fun e => fpLog rm (el s 32 a e))) ∧
    (sew s ≠ 32 → VReady s [d, a] → Traps (.vfexp d a k) s 0x02 0 ∧ Traps (.vflog d a k) s 0x02 0 ∧ Traps (.vgumbel d k) s 0x02 0) ∧
    (VReady s [d] →
      Generates (.vrng d k) s d (sew s) k (fun w => (w >>> (64 - sew s)).toNat) (fun _ => 0) ∧
      (sew s = 32 → Generates (.vgumbel d k) s d 32 k
        (fun w => (fpGumbel rm (w >>> 40).toNat).1) (fun w => (fpGumbel rm (w >>> 40).toNat).2))) ∧
    (VReady s [] → Completes (.vrngSeed r) s fun t =>
      t.pc = s.pc + 4 ∧ SameMemory s t ∧ t.hart.r.x = s.hart.r.x ∧ t.hart.r.f = s.hart.r.f ∧ t.hart.r.v = s.hart.r.v ∧
      ∀ l, l < 32 → t.hart.r.gkey.getD l 0 = (if l < lanes s then seedKey (s.x r) l else s.hart.r.gkey.getD l 0) ∧
        t.hart.r.gpos.getD l 0 = if l < lanes s then 0 else s.hart.r.gpos.getD l 0)

/-- R315, R217: a dot product adds the exact products of its active terms into the accumulator in element 0 of vd, one by one or in runs of
eight, and keeps every other element; with VL 0 vd is unchanged. Another SEW than the type's takes the illegal-operand trap. -/
def Sys2Proof.Claims.DotProducts : Prop :=
  ∀ (s : State) (d a b k : Nat), VReady s [d, a, b] → ∀ m ∈ dotTypes,
    let t := m.1
    let aw := fpWidth m.2.2.1
    let terms := dotTerms s k m.2.2.2.1 a b m.2.2.2.2
    let res := fun (i : Instr) (grouped : Bool) => Completes i s fun u =>
      let r := sumTerms grouped m.2.2.1 s.hart.frm.toNat (el s aw d 0) terms
      OnlyVector s u ∧ u.pc = s.pc + 4 ∧ OtherRegs s u d (gOf s) ∧ SameMasks s u ∧
      (vlen s = 0 → ∀ e, e < 256 * lanes s / aw * gOf s → el u aw d e = el s aw d e) ∧
      (0 < vlen s → el u aw d 0 = r.1 ∧ (∀ e, 0 < e → e < 256 * lanes s / aw * gOf s → el u aw d e = el s aw d e) ∧
        scaleByte u d 0 = 0 ∧ u.hart.fstat = r.2.foldr (fun f acc => f.2 ||| acc) s.hart.fstat)
    (sew s = m.2.1 → res (.vdotS d a b k t) false ∧ res (.vdotG d a b k t) true) ∧
    (sew s ≠ m.2.1 → Traps (.vdotS d a b k t) s 0x02 0 ∧ Traps (.vdotG d a b k t) s 0x02 0)

/-! ### Vector memory -/

namespace Sys2Proof.Claims

/-- The addresses of R327, and those of indexed accesses by the index group at b. -/
def unitAt (s : State) (a e : Nat) : Nat := ((s.x a).toNat + e * (sew s / 8)) % 2 ^ 64
def stridedAt (s : State) (a b e : Nat) : Nat := (s.x a + BitVec.ofNat 64 e * s.x b).toNat
def indexedAt (s : State) (a b e : Nat) : Nat := ((s.x a).toNat + el s (sew s) b e) % 2 ^ 64

/-- One access of n bytes for each active element. -/
def perElement (s : State) (k n : Nat) (addr : Nat → Nat) : List Access :=
  ((List.range (vlen s)).filter (fun e => decide (Active s k e))).map (fun e => { elem := e, va := addr e, n := n })

/-- Every access has its places r; u is the state with the translations kept. -/
def Reached (s : State) (p : Purpose) (lane : Nat → Option Nat) (l : List Access) (r : List (Access × List Place)) (u : State) : Prop :=
  ∃ hs, s.reach p lane l = .ok (r, hs, u)

/-- `mem va` are the bytes that a vector load finds at the address of each access: stores of earlier strips are forwarded, and those of
its own strip are not (R191). Nothing is kept from an earlier attempt of an element-ordered load. -/
def Sees (u : State) (r : List (Access × List Place)) (mem : Nat → List Byte) : Prop :=
  (∀ x ∈ r, x.2.map (u.see u.hart.earlierStores) = (mem x.1.va).map Seen.byte) ∧ ∀ j l, Landed.value j l ∉ u.hart.landed

/-- As `OnlyVector`, for an instruction that reads memory: VL and what accesses leave of the device may change too. -/
def OnlyVectorLoaded (s t : State) : Prop :=
  SameMemory s t ∧ SameCheckpoints s t ∧ Checked { s.dev with bricks := t.dev.bricks } t.dev ∧
  t.hart = { s.hart with
    ckpt := t.hart.ckpt, ended := t.hart.ended
    fstat := t.hart.fstat, fidx := t.hart.fidx, comparing := t.hart.comparing, wait := t.hart.wait, landed := t.hart.landed
    r := { s.hart.r with
      v := t.hart.r.v, mortar := t.hart.r.mortar, vfail := t.hart.r.vfail, names := t.hart.r.names, phys := t.hart.r.phys
      k := t.hart.r.k, kfail := t.hart.r.kfail, kgen := t.hart.r.kgen, vl := t.hart.r.vl, pc := t.hart.r.pc } }

/-- A load completes with VL n: each active element below n of the group at d becomes `val e`, and every other is as R302 says. -/
def LoadsElements (i : Instr) (s : State) (d w k n : Nat) (val : Nat → Nat) (raised : Nat → BitVec 5) (more : State → Prop) : Prop :=
  Completes i s fun t =>
    OnlyVectorLoaded s t ∧ t.pc = s.pc + 4 ∧ vlen t = n ∧ OtherRegs s t d (gOf s) ∧ SameMasks s t ∧ Flagged s t k raised ∧
    (∀ e, e < 256 * lanes s / w * gOf s →
      el t w d e = if Active s k e ∧ e < n then val e
        else if e < n ∧ s.hart.r.vtype.kz = true then 0 else el s w d e) ∧
    more t

/-- The hart has buffered a vector store in its open strip: each piece with its places and data, marked with its element, with the ordering
bits of its instruction (eo also for a page with HS), with whether its addresses are indexed, and with whether it goes apart from scheduled
messages (R405). -/
def VectorBuffered (s t : State) (so eo idx part : Bool) (need : Nat) (r : List (Access × List Place)) (data : Access → List Byte) : Prop :=
  t.hart.strip.stores = s.hart.strip.stores ++ r.map (fun x =>
    { va := x.1.va, place := x.2, data := data x.1, path := .v, elem := x.1.elem, soft := !so, eo := eo, idx := idx
      part := part, ins := s.hart.strip.count }) ∧
  t.hart.strip.count = s.hart.strip.count + 1 ∧ t.hart.strip.used = s.hart.strip.used + need ∧
  t.pc = s.pc + 4 ∧ t.hart.wait = .none ∧ t.hart.landed = [] ∧ SameMemory s t ∧
  Checked s.dev t.dev ∧
  t.hart = { s.hart with
    strip := { s.hart.strip with stores := t.hart.strip.stores, count := t.hart.strip.count, used := t.hart.strip.used }
    wait := t.hart.wait, landed := t.hart.landed, r := { s.hart.r with pc := t.hart.r.pc } }

/-- The bytes of some pieces with the offsets in this device's memory where they lie. -/
def bytesAt (r : List (Access × List Place)) (data : Access → List Byte) : List (Nat × Byte) :=
  r.flatMap (fun x => (offsets x.2).zip (data x.1))

/-- Nothing of the hart is still to perform: no strip that has ended, no access on its way, no failure that awaits its report; and memory has
its canonical form. -/
structure Quiet (s : State) : Prop where
  ended : s.hart.ended = []
  way : s.dev.onWay s.hart.uid = []
  failures : ∀ l ∈ s.dev.launches, l.failures = []
  memory : MemoryCanonical s

/-- A vector store of `need` entries: buffered when the strip has room. When it has not, the strip ends before it, and the store is buffered in
the new one, or waits until earlier strips have given their entries back. One that no buffer could hold is performed at once, in a strip of
its own (R188, R189), and until everything earlier has performed it waits. The direct form is stated for pieces that lie apart in this
device's memory. -/
def Stores (i : Instr) (s : State) (so eo idx : Bool) (need : Nat) (lane : Nat → Option Nat) (l : List Access)
    (data : Access → List Byte) : Prop :=
  (∀ r hs u, s.reach .write lane l = .ok (r, hs, u) → need ≤ s.freeEntries →
    Completes i s fun t => VectorBuffered s t so (eo || hs) idx false need r data) ∧
  (s.freeEntries < need → need ≤ 256 →
    let u := s.splitAndDrain
    (u.freeEntries < need → Completes i s fun t => t.hart.wait = .memory ∧ t.pc = s.pc ∧ t.hart.strip = {}) ∧
    (∀ r hs v, u.reach .write lane l = .ok (r, hs, v) → need ≤ u.freeEntries →
      Completes i s fun t => VectorBuffered u t so (eo || hs) idx false need r data)) ∧
  (256 < need → s.splitAndDrain.allPerformed = false → Completes i s fun t => t.hart.wait = .memory ∧ t.pc = s.pc) ∧
  (∀ r u, 256 < need → Quiet s.splitAndDrain → Reached s.splitAndDrain .write lane l r u →
    (∀ x ∈ r, ∀ p ∈ x.2, ∃ pa, p = .phys pa ∧ u.dev.own pa = true) → ((bytesAt r data).map (·.1)).Nodup →
    Completes i s fun t => t.pc = s.pc + 4 ∧ t.hart.strip = {} ∧ t.hart.ended = [] ∧ t.hart.ckpt.pc = s.pc + 4 ∧
      (∀ y ∈ bytesAt r data, Memory.read t.dev.mem y.1 = y.2) ∧
      (∀ a, a ∉ (bytesAt r data).map (·.1) → Memory.read t.dev.mem a = Memory.read u.dev.mem a))

/-- The pieces of a segment access and of a bit-plane access: 36 bytes for each active block, and one byte for the scale and each code of
it (R336, R337). -/
def segmentPieces (s : State) (k a : Nat) : List Access :=
  ((List.range (vlen s / 32)).filter (fun q => decide (Active s k (32 * q)))).map
    (fun q => { elem := 32 * q, va := ((s.x a).toNat + 36 * q) % 2 ^ 64, n := 36 })
def planePieces (s : State) (k a : Nat) : List Access :=
  let live := (List.range (vlen s / 32)).filter (fun q => decide (Active s k (32 * q)))
  live.flatMap (fun q => (List.range 32).map (fun j => { elem := 32 * q + j, va := ((s.x a).toNat + (32 * q + j)) % 2 ^ 64, n := 1 })) ++
    live.map (fun q => { elem := 32 * q, va := ((s.x a).toNat + (vlen s + q)) % 2 ^ 64, n := 1 })

/-- Byte b of what is found at an address. -/
def nth (mem : Nat → List Byte) (va b : Nat) : Nat := ((mem va).getD b 0).toNat

/-- A block's 36 bytes as a segment (R174): its codes, its scale, its format, two zeros. -/
def segmentOf (s : State) (vs q : Nat) (f : Bool) : List Byte :=
  (List.range 32).map (fun j => BitVec.ofNat 8 (el s 8 vs (32 * q + j))) ++
    [BitVec.ofNat 8 (scaleByte s vs q), if f then 4 else 8, 0, 0]

end Sys2Proof.Claims

/-- R326, R327, R302, R191: vld, vlds and vldx load each active element from its address; with a mask, a width other than SEW or an access
that fails as in R329, they do what the rules say. -/
def Sys2Proof.Claims.VectorLoads : Prop :=
  ∀ (s : State) (d a b k : Nat) (eo so : Bool) (w : Width) (h : Hint), VReady s [d] →
    let loads := fun (i : Instr) (addr : Nat → Nat) =>
      let l := perElement s k w.bytes addr
      let lane := s.hart.lane (sew s)
      (∀ r u mem, Reached s .read lane l r u → Sees u r mem →
        LoadsElements i s d (sew s) k (vlen s) (fun e => value (mem (addr e))) (fun _ => 0) (fun t => ZeroesScales s t d (sew s) k)) ∧
      (∀ tr, s.reach .read lane l = .error (.trap tr) → exec i s = .next (s.takeTrap tr))
    (sew s = 8 * w.bytes →
      loads (.vld d a k eo so w h) (unitAt s a) ∧ loads (.vlds d a b k eo so w h) (stridedAt s a b) ∧
      (VReady s [d, b] → loads (.vldx d a b k eo so w h) (indexedAt s a b))) ∧
    (sew s ≠ 8 * w.bytes →
      Traps (.vld d a k eo so w h) s 0x02 0 ∧ Traps (.vlds d a b k eo so w h) s 0x02 0 ∧
      (VReady s [d, b] → Traps (.vldx d a b k eo so w h) s 0x02 0))

/-- R333, R235: vldff loads up to the first active element that meets a condition. At element 0 that is its trap; at a later one VL becomes
its index and nothing from it on is written; without one VL stays. (For pages that the brick has translated, with no latent error, and
with nothing kept from an earlier attempt.) -/
def Sys2Proof.Claims.FaultFirstLoads : Prop :=
  ∀ (s : State) (d a k m : Nat) (eo so : Bool) (w : Width) (h : Hint) (mem : Nat → List Byte), VReady s [d] → sew s = 8 * w.bytes →
    m ≤ vlen s →
    let lane := s.hart.lane (sew s)
    s.dev.latent = [] → (∀ j l, Landed.value j l ∉ s.hart.landed) →
    (∀ e, e < m → Active s k e → ∃ ps hs, s.places (unitAt s a e) w.bytes .read (lane e) = .ok (ps, hs, s) ∧
      ps.map (s.see s.hart.earlierStores) = (mem (unitAt s a e)).map Seen.byte) →
    ((m = vlen s ∨ 0 < m ∧ Active s k m ∧ ∃ tr, s.access (unitAt s a m) w.bytes .read (some m) (lane m) = .error (.trap tr)) →
      LoadsElements (.vldff d a k eo so w h) s d (sew s) k m (fun e => value (mem (unitAt s a e))) (fun _ => 0) (fun _ => True)) ∧
    (∀ tr, Active s k 0 → s.access (unitAt s a 0) w.bytes .read (some 0) (lane 0) = .error (.trap tr) →
      exec (.vldff d a k eo so w h) s = .next (s.takeTrap tr))

/-- R326, R327, R188, R189, R332: vst, vsts and vstx store each active element at its address. -/
def Sys2Proof.Claims.VectorStores : Prop :=
  ∀ (s : State) (vs a b k : Nat) (eo so : Bool) (w : Width) (h : Hint), VReady s [vs] → VReady s.splitAndDrain [vs] →
    let data := fun (x : Access) => bytesOf w.bytes (BitVec.ofNat 64 (el s (sew s) vs x.elem))
    let stores := fun (i : Instr) (idx : Bool) (need : Nat) (addr : Nat → Nat) =>
      Stores i s so eo idx need (s.hart.lane (sew s)) (perElement s k w.bytes addr) data
    (sew s = 8 * w.bytes →
      stores (.vst vs a k eo so w h) false (stridedCount (s.x a).toNat w.bytes w.bytes (vlen s)) (unitAt s a) ∧
      stores (.vsts vs a b k eo so w h) false (stridedCount (s.x a).toNat (s.x b).toInt w.bytes (vlen s)) (stridedAt s a b) ∧
      (VReady s [vs, b] → VReady s.splitAndDrain [vs, b] → stores (.vstx vs a b k eo so w h) true (2 * vlen s) (indexedAt s a b))) ∧
    (sew s ≠ 8 * w.bytes →
      (stridedCount (s.x a).toNat w.bytes w.bytes (vlen s) ≤ s.freeEntries → Traps (.vst vs a k eo so w h) s 0x02 0) ∧
      (stridedCount (s.x a).toNat (s.x b).toInt w.bytes (vlen s) ≤ s.freeEntries → Traps (.vsts vs a b k eo so w h) s 0x02 0) ∧
      (VReady s [vs, b] → 2 * vlen s ≤ s.freeEntries → Traps (.vstx vs a b k eo so w h) s 0x02 0))

/-- R336, R337, R174: vldseg loads whole blocks with their scales, and a segment of another format gives codes 0, scale 0x80 and NV;
vldpl loads the codes and the scales from their planes. -/
def Sys2Proof.Claims.SegmentAndPlaneLoads : Prop :=
  ∀ (s : State) (d a k : Nat) (f so : Bool) (h : Hint) (r : List (Access × List Place)) (u : State) (mem : Nat → List Byte),
    VReady s [d] → sew s = 8 → WholeBlocks s k 32 → Sees u r mem →
    let at' := fun q => ((s.x a).toNat + 36 * q) % 2 ^ 64
    let good := fun q => nth mem (at' q) 33 = (if f then 4 else 8) ∧ nth mem (at' q) 34 = 0 ∧ nth mem (at' q) 35 = 0
    let scales := fun (t : State) (v : Nat → Nat) => ∀ q, q < vlen s / 32 → scaleByte t d q =
      if Active s k (32 * q) then v q else if s.hart.r.vtype.kz = true then 0 else scaleByte s d q
    let lane := s.hart.lane 8
    ((s.x a).toNat % 4 = 0 → Reached s .read lane (segmentPieces s k a) r u →
      LoadsElements (.vldseg d a k f so .b1 h) s d 8 k (vlen s)
        (fun e => if good (e / 32) then nth mem (at' (e / 32)) (e % 32) else 0)
        (fun e => if e % 32 = 0 ∧ ¬ good (e / 32) then 0x10 else 0)
        (fun t => scales t (fun q => if good q then nth mem (at' q) 32 else 0x80))) ∧
    ((s.x a).toNat % 4 ≠ 0 → Traps (.vldseg d a k f so .b1 h) s 0x02 0) ∧
    (vlen s % 256 = 0 → Reached s .read lane (planePieces s k a) r u →
      LoadsElements (.vldpl d a k f so .b1 h) s d 8 k (vlen s)
        (fun e => nth mem (((s.x a).toNat + e) % 2 ^ 64) 0) (fun _ => 0)
        (fun t => scales t (fun q => nth mem (((s.x a).toNat + (vlen s + q)) % 2 ^ 64) 0))) ∧
    (vlen s % 256 ≠ 0 → Traps (.vldpl d a k f so .b1 h) s 0x02 0)

/-- R336, R337, R174: vstseg stores each active block as a segment, and vstpl its codes and its scale in their planes. -/
def Sys2Proof.Claims.SegmentAndPlaneStores : Prop :=
  ∀ (s : State) (vs a k : Nat) (f so : Bool) (h : Hint),
    VReady s [vs] → VReady s.splitAndDrain [vs] → sew s = 8 → WholeBlocks s k 32 →
    let lane := s.hart.lane 8
    ((s.x a).toNat % 4 = 0 → Stores (.vstseg vs a k f so .b1 h) s so false false (entryCount (s.x a).toNat (36 * (vlen s / 32))) lane
      (segmentPieces s k a) (fun x => segmentOf s vs (x.elem / 32) f)) ∧
    (vlen s % 256 = 0 → (s.x a).toNat + vlen s + vlen s / 32 ≤ 2 ^ 64 →
      Stores (.vstpl vs a k f so .b1 h) s so f false (entryCount (s.x a).toNat (vlen s + vlen s / 32)) lane
        (planePieces s k a) (fun x =>
          [BitVec.ofNat 8 (if (s.x a).toNat + vlen s ≤ x.va then scaleByte s vs (x.elem / 32) else el s 8 vs x.elem)]))

/-- R334, R163: vstxadd closes the strip before it and combines the elements of one address in ascending element index; one update for
each address, in a strip of its own, awaits the strip's close. -/
def Sys2Proof.Claims.ScatterAdd : Prop :=
  ∀ (s : State) (vs a b k : Nat) (w : Width) (f : Bool) (r : List (Access × List Place)) (v : State),
    let u := s.splitAndDrain
    VReady u [vs, b] → 4 ≤ w.bytes → sew u = 8 * w.bytes →
    let addr := indexedAt u a b
    let n := sew u
    let y : FpFmt := if n = 32 then .fp32 else .fp64
    let add := fun x z => if f then (fpAdd y u.hart.frm.toNat x z).1 else (x + z) % 2 ^ n
    let at' := fun va => (List.range (vlen u)).filter (fun e => decide (Active u k e) && addr e == va)
    (∀ e, Active u k e → addr e % w.bytes = 0) → Reached u .write (u.hart.lane n) (perElement u k w.bytes addr) r v →
    Completes (.vstxadd vs a b k w f) s fun t =>
      let sums := (t.hart.ended.drop u.hart.ended.length).flatMap (·.strip.stores)
      t.hart.ended.take u.hart.ended.length = u.hart.ended ∧
      t.pc = s.pc + 4 ∧ SameMemory u t ∧ t.hart.strip = {} ∧ t.hart.r.v = u.hart.r.v ∧ t.hart.r.x = u.hart.r.x ∧
      sums.Pairwise (fun p q => p.va < q.va) ∧ (∀ e, Active u k e → ∃ st ∈ sums, st.va = addr e) ∧
      ∀ st ∈ sums, st.path = .a ∧ st.op = (if f then .addFp u.hart.frm.toNat else .addInt) ∧ st.data.length = w.bytes ∧
        ∃ e rest, at' st.va = e :: rest ∧ value st.data = rest.foldl (fun acc m => add acc (el u n vs m)) (el u n vs e)

namespace Sys2Proof.Claims

/-- The vector atomics with the value each leaves in memory, from what it found and its element (R335). -/
noncomputable def vectorAtomics : List ((Nat → Nat → Nat → Nat → Width → Instr) × ((n : Nat) → BitVec n → BitVec n → BitVec n)) :=
  [(.vamoadd, fun _ o b => o + b), (.vamoswap, fun _ _ b => b),
   (fun d a b k w => .vamomin d a b k w false, fun _ o b => if o.toInt ≤ b.toInt then o else b),
   (fun d a b k w => .vamomin d a b k w true, fun _ o b => if o ≤ b then o else b),
   (fun d a b k w => .vamomax d a b k w false, fun _ o b => if o.toInt ≤ b.toInt then b else o),
   (fun d a b k w => .vamomax d a b k w true, fun _ o b => if o ≤ b then b else o)]

end Sys2Proof.Claims

/-- R335, R162, R193: after the strip boundary before it, and once everything earlier of the hart has performed, a vector atomic on this device's memory performs its active elements one after another in
ascending index, returns what each found in vd, and goes on in a new strip. -/
def Sys2Proof.Claims.VectorAtomics : Prop :=
  ∀ (s : State) (d a b k : Nat) (w : Width) (r : List (Access × List Place)) (v : State) (off : Nat → Nat), ∀ m ∈ vectorAtomics,
    let u := s.splitAndDrain
    VReady u [d, b] → 4 ≤ w.bytes → sew u = 8 * w.bytes → MemoryCanonical u → (∀ e st o, Landed.atomic e st o ∉ u.hart.landed) →
    let n := sew u
    let addr := indexedAt u a b
    ((∃ e, Active u k e ∧ addr e % w.bytes ≠ 0) → ∃ tr, tr.cause = 0x02 ∧ exec (m.1 d a b k w) s = .next (u.takeTrap tr)) ∧
    ((∀ e, Active u k e → addr e % w.bytes = 0) → Reached u .write (u.hart.lane n) (perElement u k w.bytes addr) r v →
      u.allPerformed = true → u.groupHolds (r.flatMap (·.2)) = false →
      (∀ x ∈ r, ∃ pa ps, x.2 = .phys pa :: ps ∧ off x.1.elem = offsetOf pa ∧ u.dev.own pa = true ∧ u.dev.populated (offsetOf pa) = true ∧
        u.dev.poisoned (offsetOf pa) = false) →
      Completes (m.1 d a b k w) s fun t =>
        t.pc = s.pc + 4 ∧ t.hart.strip = {} ∧ t.hart.ckpt.pc = s.pc + 4 ∧ OtherRegs u t d (gOf u) ∧ SameMasks u t ∧
        t.hart.r.x = u.hart.r.x ∧ (∀ q, (t.dev.brick q).locmem = (u.dev.brick q).locmem) ∧
        ∃ M : Nat → List Host.Cell, M 0 = u.dev.mem ∧ M (vlen u) = t.dev.mem ∧ (∀ e, e ≤ vlen u → Memory.wf (M e) = true) ∧
          (∀ e, e < vlen u → if Active u k e then
              Written (M e) (M (e + 1)) (off e) (m.2 n (Held (M e) (off e) n) (BitVec.ofNat n (el u n d e))) ∧
                el t n d e = (Held (M e) (off e) n).toNat
            else M (e + 1) = M e ∧ el t n d e = if u.hart.r.vtype.kz = true then 0 else el u n d e) ∧
          ∀ e, vlen u ≤ e → e < 256 * lanes u / n * gOf u → el t n d e = el u n d e)

/-- R325, R156: kld loads the bits of a mask below VL from bytes, and kst stores them, with zeros above VL, in element order on a page with HS. -/
def Sys2Proof.Claims.MaskLoadsAndStores : Prop :=
  ∀ (s : State) (d a : Nat), VReady s [] → d < 8 →
    let n := vlen s
    let l := (List.range ((n + 7) / 8)).map (fun b => { elem := 8 * b, va := ((s.x a).toNat + b) % 2 ^ 64, n := 1 : Access })
    let lane := s.hart.lane (sew s)
    (∀ r u mem, Reached s .read lane l r u → Sees u r mem → Completes (.kld d a) s fun t =>
      OnlyVectorLoaded s t ∧ t.pc = s.pc + 4 ∧ vlen t = n ∧ t.hart.r.v = s.hart.r.v ∧ t.hart.r.mortar = s.hart.r.mortar ∧
      t.hart.fstat = s.hart.fstat ∧ (∀ m, m < 8 → m ≠ d → t.hart.r.k.getD m 0 = s.hart.r.k.getD m 0) ∧
      ∀ e, e < 8192 → kbit t d e =
        if e < n then (nth mem (((s.x a).toNat + e / 8) % 2 ^ 64) 0).testBit (e % 8) else kbit s d e) ∧
    (∀ r hs u, s.reach .write lane l = .ok (r, hs, u) →
      entryCount (s.x a).toNat ((n + 7) / 8) ≤ s.freeEntries → Completes (.kst d a) s fun t =>
      VectorBuffered s t false hs false true (entryCount (s.x a).toNat ((n + 7) / 8)) r (fun x =>
        [BitVec.ofNat 8 ((s.hart.r.k.getD d 0).toNat % 2 ^ n / 2 ^ x.elem)]))

/-! ### Streams, transfer commands, merge commands -/

namespace Sys2Proof.Claims

/-- Bytes o to o + n − 1 of a block, as a number. -/
def part (l : List Byte) (o n : Nat) : Nat := value ((l.drop o).take n)

/-- A stream descriptor that R164 does not refuse. -/
def StreamLegal (l : List Byte) : Prop :=
  part l 56 8 = 0 ∧ part l 21 1 ≤ 2 ∧ part l 22 1 ≠ 1 ∧ part l 22 1 ≤ 16 ∧ part l 20 1 ≤ 3 ∧
  1 ≤ part l 8 4 ∧ 1 ≤ part l 12 4 ∧ 1 ≤ part l 16 4 ∧ (part l 21 1 = 2 ∨ part l 23 1 = 0) ∧
  ∀ o ∈ [0, 24, 32, 40, 48], part l o 8 % 2 ^ part l 20 1 = 0

/-- The descriptor with these bytes, read at an address. -/
def Describes (va : Nat) (l : List Byte) (t : StreamDesc) : Prop :=
  t.va = va ∧ t.base.toNat = part l 0 8 ∧ t.cnt0 = part l 8 4 ∧ t.cnt1 = part l 12 4 ∧ t.cnt2 = part l 16 4 ∧
  t.ew = part l 20 1 ∧ t.mode = part l 21 1 ∧ t.win = part l 22 1 ∧ t.sender = part l 23 1 ∧ t.str0.toNat = part l 24 8 ∧
  t.str1.toNat = part l 32 8 ∧ t.str2.toNat = part l 40 8 ∧ t.wstr.toNat = part l 48 8

/-- What the streams are after an instruction: stream n as said, the others as they were; registers and memory keep their contents. -/
def SetsStream (s t : State) (n : Nat) (st : Option Stream) : Prop :=
  t.hart.r.streams.getD n none = st ∧ (∀ m, m < 8 → m ≠ n → t.hart.r.streams.getD m none = s.hart.r.streams.getD m none) ∧
  t.pc = s.pc + 4 ∧ t.hart.wait = .none ∧ SameMemory s t ∧ t.hart.strip = s.hart.strip ∧ t.hart.ended = s.hart.ended ∧
  t.hart.r.v = s.hart.r.v ∧ t.hart.r.x = s.hart.r.x ∧ t.hart.r.f = s.hart.r.f ∧ t.hart.r.k = s.hart.r.k

/-- The hart passes an instruction that changes nothing. -/
def Passes (i : Instr) (s : State) : Prop := ChangesHart i s (fun h => { h with wait := .none, landed := [] })

/-- A command of the hart has been seen complete: no later load hits an entry of an earlier one (R196, R346), and nothing else of the device
has changed. -/
def ForgetsLoads (s t : State) : Prop :=
  SameMemory s t ∧ t.dev = { s.dev with bricks := t.dev.bricks } ∧
  ∀ e ∈ t.brick.reuse, e ∈ s.brick.reuse ∧
    (e.kind = .compute ∨ e.key.lgset ≠ s.hart.bound ∨ e.key.ctx ≠ s.hart.ctx ∨ e.key.vmid ≠ s.hart.vmid)

/-- The hart waits at the instruction. -/
def Waits (i : Instr) (s : State) (w : Wait) : Prop := exec i s = .next { s with hart := { s.hart with wait := w } }

/-- xd receives the identifier after the channel's last, which 0 never is (R171). -/
def TakesId (s t : State) (d c : Nat) (id : BitVec 32) : Prop :=
  let last := s.hart.r.issued.getD c 0
  id = (if last = 0xFFFFFFFF then 1 else last + 1) ∧ t.hart.r.issued = s.hart.r.issued.setIfInBounds c id ∧ SetsX s t d (id.setWidth 64) ∧
  t.hart.r.f = s.hart.r.f ∧ t.hart.r.k = s.hart.r.k ∧ SameMemory s t ∧ t.pc = s.pc + 4

/-- The strip ends with the command as its last, and a new one is open (R187, R342). -/
def EndsStrip (s t : State) (c : Command) : Prop :=
  t.hart.ended = s.hart.ended ++
    [{ strip := { s.hart.strip with cmds := s.hart.strip.cmds ++ [c], serial := s.hart.serial }, ckpt := s.hart.ckpt,
       freed := s.hart.freed }] ∧
  t.hart.strip = {} ∧ t.hart.serial = s.hart.serial + 1 ∧ t.hart.ckpt.pc = s.pc + 4

/-- The command blocks of R343 and R344. -/
def CopyLegal (l : List Byte) : Prop := 1 ≤ part l 16 8 ∧ part l 16 8 ≤ 2 ^ 30 ∧ part l 24 8 % 32 = 0
def XformLegal (l : List Byte) : Prop :=
  part l 16 8 % 32 = 0 ∧ part l 26 2 = 0 ∧ part l 36 4 = 0 ∧ part l 48 16 = 0 ∧
  ((part l 24 1 = 0 ∧ part l 25 1 ≤ 3 ∧ 1 ≤ part l 28 4 ∧ part l 28 4 ≤ 65535 ∧ 1 ≤ part l 32 4 ∧ part l 32 4 ≤ 65535 ∧ part l 40 8 = 0 ∧
      part l 28 4 * part l 32 4 * 2 ^ part l 25 1 ≤ 2 ^ 30) ∨
    ((part l 24 1 = 1 ∨ part l 24 1 = 2) ∧ part l 25 1 = 0 ∧ part l 28 4 = 0 ∧ part l 32 4 = 0 ∧ part l 40 8 % 512 = 0 ∧
      36 * (part l 40 8 / 64) ≤ 2 ^ 30 ∧ part l 40 8 / 2 + part l 40 8 / 64 ≤ 2 ^ 30))

/-- The merge command blocks of R368, and the commands they give. -/
def MergeCommon (l : List Byte) : Prop := part l 8 1 ≤ 3 ∧ part l 0 8 % 32 = 0 ∧ part l 10 6 = 0 ∧ part l 44 20 = 0
def word64 (l : List Byte) (o : Nat) : Word := BitVec.ofNat 64 (part l o 8)
noncomputable def mergeForms : List ((Nat → Nat → Instr) × (List Byte → Prop) × (List Byte → MergeCmd)) :=
  [(.mgopen, fun l => part l 9 1 ≤ 1 ∧ part l 16 8 % 64 = 0 ∧ part l 24 8 % 64 = 0 ∧ 1 ≤ part l 32 4 ∧ part l 32 4 ≤ 1048576 ∧
      1 ≤ part l 36 4 ∧ part l 36 4 ≤ 2 ^ 31 ∧ part l 40 4 = 0,
    fun l => .openSession (word64 l 0) (part l 9 1 == 1) (word64 l 16) (part l 24 8) (part l 32 4) (part l 36 4)),
   (.mgfin, fun l => part l 9 1 = 0 ∧ part l 16 8 % 4 = 0 ∧ part l 24 8 % 4 = 0 ∧ part l 32 8 % 4 = 0 ∧ 1 ≤ part l 40 4 ∧
      part l 40 4 ≤ 2 ^ 31,
    fun l => .fin (word64 l 0) (word64 l 16) (word64 l 24) (word64 l 32) (part l 40 4)),
   (.mgstat, fun l => part l 9 1 = 0 ∧ part l 16 8 % 64 = 0 ∧ part l 24 20 = 0, fun l => .stat (word64 l 0) (word64 l 16))]

end Sys2Proof.Claims

/-- R164, R338: sbind reads its descriptor and binds the stream at position 0; a mode-2 stream joins its sender's group with four permits. A
refused descriptor, one of another width than SEW, a stream or register that is bound, and a misaligned address are illegal operands; a hart
that finds no slot waits. That a count of 0 and a SENDER in a mode without one are refused is log 24, the model's reading of R164. -/
def Sys2Proof.Claims.StreamBinding : Prop :=
  ∀ (s : State) (d a n : Nat) (l : List Byte), s.hart.bound ≠ 0 → s.hart.r.vtype.vill = false → n < 8 →
    let va := (s.x a).toNat
    let free := s.hart.r.streams.getD n none = none ∧ s.streamOf d = none ∧ va % 64 = 0
    let ok := StreamLegal l ∧ part l 20 1 = s.hart.r.vtype.sew.toNat ∧ (part l 21 1 = 2 → (s.senderOf (part l 23 1)).isSome = true)
    let slot := s.canClaim (·.streamRes) Hart.boundStreams 1
    (¬ free → Traps (.sbind d a n) s 0x02 0) ∧
    (free → ScalarBytes s va 64 l → l.length = 64 →
      (¬ ok → Traps (.sbind d a n) s 0x02 0) ∧
      (ok → slot = false → Waits (.sbind d a n) s .streamSlot) ∧
      (ok → slot = true → Completes (.sbind d a n) s fun t =>
        ∃ st, SetsStream s t n (some st) ∧ Describes va l st.desc ∧ st.reg = d ∧ st.pos = 0 ∧ st.ended = false ∧
          (part l 21 1 ≠ 2 → t.dev.groups = s.dev.groups) ∧
          (∀ h, part l 21 1 = 2 → s.senderOf (part l 23 1) = some h → t.dev.groups = s.dev.groups ++
            [{ sender := h.uid, receiver := s.hart.uid, stream := n, permits := 4 }])))

/-- R340, R341, R166, R176: sunbind unbinds its stream and leaves its group, and keeps aside what a restart of the strip brings back; sclose ends a stream of mode 0 or 1 and is an illegal operand for
mode 2. Both drop what was fetched for it, and change nothing for a stream that is not bound. -/
def Sys2Proof.Claims.StreamUnbinding : Prop :=
  ∀ (s : State) (n : Nat), s.hart.bound ≠ 0 → s.hart.r.vtype.vill = false → n < 8 →
    (s.hart.r.streams.getD n none = none → Passes (.sunbind n) s ∧ Passes (.sclose n) s) ∧
    (∀ st, s.hart.r.streams.getD n none = some st →
      Completes (.sunbind n) s (fun t => SetsStream s t n none ∧ (∀ f ∈ t.hart.fetched, f.1 ≠ n) ∧ (∀ b ∈ t.hart.buffers, b.1 ≠ n) ∧
        (∀ x ∈ t.hart.landing, x.1 ≠ n) ∧
        (let kept := fun (g : McMember) => t.hart.unbound = s.hart.unbound ++
           [{ member := g, buffers := (s.hart.buffers.filter (fun b => b.1 == n)).map (·.2) }]
         (st.desc.mode ≠ 2 → t.hart.unbound = s.hart.unbound) ∧
         (∀ g, st.desc.mode = 2 → s.memberOf n = some g → kept g) ∧
         (st.desc.mode = 2 → s.memberOf n = none →
           kept { sender := 0, receiver := s.hart.uid, stream := n, permits := 0, gone := true })) ∧
        (∀ g ∈ t.dev.groups, g.receiver = s.hart.uid → g.stream ≠ n)) ∧
      (st.desc.mode = 2 → Traps (.sclose n) s 0x02 0) ∧
      (st.desc.mode ≠ 2 → Completes (.sclose n) s fun t =>
        SetsStream s t n (some { st with ended := true }) ∧ (∀ f ∈ t.hart.fetched, f.1 ≠ n)))

/-- R346, R347, R171, R196, R241: xwait passes when its identifier counts as complete and else waits, and xpoll writes which it is. An identifier
that was not issued is an illegal operand, and a report of the channel is delivered as a trap of cause 0x11. -/
def Sys2Proof.Claims.TransferWaits : Prop :=
  ∀ (s : State) (d a c : Nat),
    let v := s.x a
    let n : BitVec 32 := v.setWidth 32
    let issued := v.toNat < 2 ^ 32 ∧ (n = 0 ∨ (s.hart.r.issued.getD c 0 - n).toNat < 2 ^ 31)
    let complete := n = 0 ∨ (s.hart.done.getD c 0 - n).toNat < 2 ^ 31
    let mine := fun (r : Word) => reportSource r = 0x01 ∧ reportChan r = c
    (¬ issued → Traps (.xwait a c) s 0x02 0 ∧ Traps (.xpoll d a c) s 0x02 0) ∧
    (∀ r l m, issued → s.hart.aerr.all = l ++ r :: m → (∀ x ∈ l, ¬ mine x) → mine r →
      let tr : Trap := { cause := 0x11, kind := 1, report := r }
      exec (.xwait a c) s = .next (s.takeTrap tr) ∧ exec (.xpoll d a c) s = .next (s.takeTrap tr)) ∧
    (issued → (∀ r ∈ s.hart.aerr.all, ¬ mine r) →
      (complete → Completes (.xwait a c) s fun t => ForgetsLoads s t ∧
        t.hart = { s.hart with wait := .none, landed := [], r := { s.hart.r with pc := s.pc + 4 } }) ∧
      (¬ complete → Waits (.xwait a c) s (.xwait c n)) ∧
      Completes (.xpoll d a c) s fun t => SetsX s t d (if complete then 1 else 0) ∧ (if complete then ForgetsLoads s t else t.dev = s.dev) ∧
        t.hart = { s.hart with wait := .none, landed := [], r := { s.hart.r with x := t.hart.r.x, pc := s.pc + 4 } })

/-- R342, R343, R344, R171, R187: scopy and sxform read and check their block, take the channel's next identifier, and end their strip with
the command. A block out of its limits or alignment is an illegal operand, and a channel that holds 64 commands makes the hart wait. -/
def Sys2Proof.Claims.CopyCommands : Prop :=
  ∀ (s : State) (d a c : Nat) (l : List Byte), s.hart.bound ≠ 0 → s.hart.r.vtype.vill = false →
    let va := (s.x a).toNat
    let goes := fun (i : Instr) (n : Nat) (legal : Prop) (is : CopyBlock → Prop) =>
      (va % n ≠ 0 → Traps i s 0x02 0) ∧
      (va % n = 0 → ScalarBytes s va n l → l.length = n →
        (¬ legal → Traps i s 0x02 0) ∧
        (legal → 64 ≤ s.hart.openCommands c → Waits i s .channel) ∧
        (legal → s.hart.openCommands c < 64 → Completes i s fun t =>
          ∃ id b, TakesId s t d c id ∧ EndsStrip s t (.copy c id b) ∧ is b))
    goes (.scopy d a c) 32 (CopyLegal l) (fun b => b.xform = false ∧ b.src.toNat = part l 0 8 ∧ b.dst.toNat = part l 8 8 ∧
      b.len = part l 16 8 ∧ b.record.toNat = part l 24 8) ∧
    goes (.sxform d a c) 64 (XformLegal l) (fun b => b.xform = true ∧ b.src.toNat = part l 0 8 ∧ b.dst.toNat = part l 8 8 ∧
      b.record.toNat = part l 16 8 ∧ b.kind = part l 24 1 ∧ b.ecode = part l 25 1 ∧ b.rows = part l 28 4 ∧ b.cols = part l 32 4 ∧
      b.n = part l 40 8)

/-- R345, R177: smcast takes one permit of each receiver of its group and ends its strip with the register, its mortar bytes, VL and VTYPE
for them. While a receiver has given none, it writes xd and takes its place in the queue of the vector side, which waits while the scalar side
goes on. It requires G = 1. -/
def Sys2Proof.Claims.MulticastCommand : Prop :=
  ∀ (s : State) (d v c : Nat), VReady s [v] →
    let mine := fun (g : McMember) => g.sender = s.hart.uid ∧ g.gone = false
    (gOf s ≠ 1 → Traps (.smcast d v c) s 0x02 0) ∧
    (gOf s = 1 → 64 ≤ s.hart.openCommands c → Waits (.smcast d v c) s .channel) ∧
    (gOf s = 1 → s.hart.openCommands c < 64 →
      ((∃ g ∈ s.dev.groups, mine g ∧ g.permits = 0) →
        s.hart.iword = BitVec.ofNat 32 (0x31 * 2 ^ 26 + d * 2 ^ 21 + v * 2 ^ 16 + 2 * 2 ^ 11 + c * 2 ^ 9) → d < 32 → v < 32 → c < 4 →
        Completes (.smcast d v c) s fun t => t.hart.wait = .smcast ∧ (∃ id, TakesId s t d c id) ∧ t.hart.strip.stores = s.hart.strip.stores ∧
          ∃ q, t.hart.vqueue = s.hart.vqueue ++ [q] ∧ q.word = s.hart.iword ∧ q.pc = s.pc ∧ q.x = s.hart.r.x ∧
            q.ins = s.hart.strip.count) ∧
      ((∀ g ∈ s.dev.groups, mine g → 0 < g.permits) → Completes (.smcast d v c) s fun t =>
        ∃ id buf dests, TakesId s t d c id ∧ EndsStrip s t (.mcast c id buf dests) ∧ buf.vl = s.hart.r.vl ∧ buf.vtype = s.hart.r.vtype ∧
          buf.data.toNat = (s.hart.r.v.getD v 0).toNat % 2 ^ (256 * lanes s) ∧
          buf.mortar.toNat = (s.hart.r.mortar.getD v 0).toNat % 2 ^ (8 * lanes s) ∧
          (∀ x, x ∈ dests ↔ ∃ g ∈ s.dev.groups, mine g ∧ x = (g.receiver, g.stream)) ∧
          (t.dev.groups.map (·.permits) = s.dev.groups.map (fun g => if g.sender = s.hart.uid ∧ g.gone = false then g.permits - 1 else g.permits))))

/-- R367, R368, R371: mgopen, mgfin and mgstat check their block, take the next identifier of the channel it names and leave their command
in the open strip; mgpush captures its active entries in ascending order and ends the strip. -/
def Obligations.MergeCommands : Prop :=
  (∀ (s : State) (d a : Nat) (l : List Byte), ∀ m ∈ mergeForms,
    let va := (s.x a).toNat
    let c := part l 8 1
    (va % 64 ≠ 0 → Traps (m.1 d a) s 0x02 0) ∧
    (va % 64 = 0 → ScalarBytes s va 64 l → l.length = 64 →
      (¬ (MergeCommon l ∧ m.2.1 l) → Traps (m.1 d a) s 0x02 0) ∧
      (MergeCommon l → m.2.1 l → 64 ≤ s.hart.openCommands c → Waits (m.1 d a) s .channel) ∧
      (MergeCommon l → m.2.1 l → s.hart.openCommands c < 64 → Completes (m.1 d a) s fun t =>
        ∃ id, TakesId s t d c id ∧ t.hart.strip = { s.hart.strip with cmds := s.hart.strip.cmds ++ [.merge c id (m.2.2 l)] } ∧
          t.hart.ended = s.hart.ended))) ∧
  (∀ (s : State) (a b k : Nat), VReady s [a, b] →
    (sew s ≠ 64 → Traps (.mgpush a b k) s 0x02 0) ∧
    (sew s = 64 → Completes (.mgpush a b k) s fun t => t.pc = s.pc + 4 ∧ SameMemory s t ∧ t.hart.r.v = s.hart.r.v ∧ t.hart.r.x = s.hart.r.x ∧
      EndsStrip s t (.merge 0 0 (.push (((List.range (vlen s)).filter (fun e => decide (Active s k e))).map
        (fun e => (el s 64 a e, el s 64 b e)))))))

/-! ### Registers that are bound to streams, and reuse -/

namespace Sys2Proof.Claims

/-- Stream n, bound to register v, is the only one of the hart. -/
def OneStream (s : State) (n v : Nat) (t : Stream) : Prop :=
  t.reg = v ∧ s.hart.r.streams = (Vector.replicate 8 none).setIfInBounds n (some t)

/-- The hart with no stream bound. -/
def unstreamed (s : State) : State :=
  { s with hart := { s.hart with r := { s.hart.r with streams := Vector.replicate 8 none } } }

/-- The elements of a stream, those left, the chunk of an instruction, and the stream behind it (R165, R166, R167). -/
def elements (t : Stream) : Nat := t.desc.cnt2 * t.desc.cnt1 * t.desc.cnt0 * max t.desc.win 1
def chunkOf (s : State) (t : Stream) : Nat := min (vlen s) (if t.ended then 0 else elements t - t.pos)
def movedOn (s : State) (t : Stream) : Stream :=
  { t with pos := t.pos + chunkOf s t, ended := t.ended || t.pos + chunkOf s t == elements t }

/-- The landed buffers of stream n, oldest first. -/
def landed (s : State) (n : Nat) : List McBuf := (s.hart.buffers.filter (fun b => b.1 == n)).map (·.2)

/-- As s, but for what u holds of streams and of the open strip. -/
def streamsAs (s u : State) : State :=
  { s with
    hart := { s.hart with
      fetched := u.hart.fetched, buffers := u.hart.buffers, landing := u.hart.landing, strip := u.hart.strip
      r := { s.hart.r with streams := u.hart.r.streams } }
    dev := { s.dev with groups := u.dev.groups } }

/-- What an integer instruction leaves of the vector state, whatever it does to streams (R302, R211). -/
def Wrote (s u : State) (d k : Nat) (val : Nat → Nat) : Prop :=
  OnlyVector (streamsAs s u) u ∧ u.pc = s.pc + 4 ∧ OtherRegs s u d (gOf s) ∧ SameMasks s u ∧ Flagged s u k (fun _ => 0) ∧
  (∀ e, e < 256 * lanes s / sew s * gOf s →
    el u (sew s) d e = if Active s k e then val e
      else if e < vlen s ∧ s.hart.r.vtype.kz = true then 0 else el s (sew s) d e) ∧
  ZeroesScales s u d (sew s) k

/-- What transfers hold of streams is as it was, but for what was fetched. -/
def SameTransfers (s u : State) : Prop :=
  u.hart.buffers = s.hart.buffers ∧ u.hart.landing = s.hart.landing ∧ u.dev.groups = s.dev.groups

/-- A landed buffer has become the contents of register v. -/
def withBuffer (s : State) (v : Nat) (b : McBuf) : State :=
  { s with hart := { s.hart with r := { s.hart.r with
      v := s.hart.r.v.setIfInBounds v b.data, mortar := s.hart.r.mortar.setIfInBounds v b.mortar } } }

/-- The name of a register group under the G in effect (R114). -/
def NamedAs (s : State) (v : Nat) (m : GroupName) : Prop :=
  s.hart.r.names.getD v none = some m ∧ m.gm = s.hart.r.vtype.gm

end Sys2Proof.Claims

/-- R165, R166, R339, R177: an integer instruction whose operands or destination are bound to a stream. An operand of a mode-0 stream is the
chunk of it, VL elements or those left, with zeros behind it, and the stream moves on; a destination of a mode-1 stream is written as ever,
and its active elements of the chunk go into the open strip at their addresses; an operand of a mode-2 stream is the oldest landed
buffer, of the hart's lane groups and of SEW, and its permit returns at the first read; one that has not come is waited for. A stream of
another width than SEW, and one bound inside a group, are illegal operands. A read of a mode-1 register and a write of one of another
mode touch no stream. -/
def Sys2Proof.Claims.StreamRegisters : Prop :=
  (∀ (t : StreamDesc) (c2 c1 p j : Nat), c1 < t.cnt1 → p < t.cnt0 → j < max t.win 1 →
    t.addr (((c2 * t.cnt1 + c1) * t.cnt0 + p) * max t.win 1 + j) =
      (t.base + BitVec.ofNat 64 c2 * t.str2 + BitVec.ofNat 64 c1 * t.str1 + BitVec.ofNat 64 p * t.str0 + BitVec.ofNat 64 j * t.wstr).toNat) ∧
  ∀ (s : State) (d a b k n : Nat) (t : Stream), n < 8 → VReady (unstreamed s) [d, a, b] → ∀ m ∈ intForms,
    let w := sew s
    let i := m.vv d a b k
    let op := fun (x y : Nat) => (m.op w (BitVec.ofNat w x) (BitVec.ofNat w y)).toNat
    let cnt := chunkOf s t
    let streams := fun (u : State) (st : Stream) => u.hart.r.streams = (Vector.replicate 8 none).setIfInBounds n (some st)
    (∀ v, OneStream s n v t →
      ((v = d ∨ v = a ∨ v = b) ∧ t.desc.mode ≠ 2 ∧ t.desc.ew ≠ s.hart.r.vtype.sew.toNat ∨
        (∃ g ∈ [d, a, b], g < v ∧ v < g + gOf s)) → Traps i s 0x02 0) ∧
    (∀ vals : Nat → Nat, OneStream s n a t → t.desc.mode = 0 → t.desc.ew = s.hart.r.vtype.sew.toNat →
      (∀ e, e < cnt → s.hart.fetched.find? (fun f => f.1 == n && f.2.1 == t.pos + e) = some (n, t.pos + e, .data (vals e))) →
      let x := fun e => if e < cnt then vals e else 0
      Completes i s fun u => Wrote s u d k (fun e => op (x e) (if b = a then x e else el s w b e)) ∧ streams u (movedOn s t) ∧
        u.hart.strip = s.hart.strip ∧ SameTransfers s u ∧
        u.hart.fetched = s.hart.fetched.filter (fun f => !(f.1 == n && decide (f.2.1 < t.pos + cnt)))) ∧
    (∀ (places : Nat → List Place) (need : Nat), OneStream s n d t → t.desc.mode = 1 → t.desc.ew = s.hart.r.vtype.sew.toNat →
      (∀ e, e < cnt → Active s k e → ∃ hs,
        s.places (t.desc.addr (t.pos + e)) (w / 8) .write (s.hart.lane w e) = .ok (places e, hs, s)) →
      need = piecesOf ((List.range cnt).map (fun e => (t.desc.addr (t.pos + e), w / 8))) → need ≤ s.freeEntries → need ≤ 256 →
      Completes i s fun u => Wrote s u d k (fun e => op (el s w a e) (el s w b e)) ∧ streams u (movedOn s t) ∧
        SameTransfers s u ∧ u.hart.fetched = s.hart.fetched ∧
        u.hart.strip = { s.hart.strip with
          stores := s.hart.strip.stores ++ ((List.range cnt).filter (fun e => decide (Active s k e))).map (fun e =>
            { va := t.desc.addr (t.pos + e), place := places e, data := bytesOf (w / 8) (BitVec.ofNat 64 (el u w d e))
              path := .q, elem := e, ins := s.hart.strip.count })
          used := s.hart.strip.used + need, count := s.hart.strip.count + 1 }) ∧
    (OneStream s n a t → t.desc.mode = 1 → t.desc.ew = s.hart.r.vtype.sew.toNat → d ≠ a →
      Completes i s fun u => Wrote s u d k (fun e => op (el s w a e) (el s w b e)) ∧ streams u t ∧ u.hart.strip = s.hart.strip ∧
        SameTransfers s u ∧ u.hart.fetched = s.hart.fetched) ∧
    (OneStream s n d t → (t.desc.mode = 2 ∨ t.desc.mode = 0 ∧ t.desc.ew = s.hart.r.vtype.sew.toNat) → d ≠ a → d ≠ b →
      Completes i s fun u => Wrote s u d k (fun e => op (el s w a e) (el s w b e)) ∧ streams u t ∧ u.hart.strip = s.hart.strip ∧
        SameTransfers s u ∧ u.hart.fetched = s.hart.fetched) ∧
    (OneStream s n a t → t.desc.mode = 2 → (landed s n)[t.pos]? = none →
      (t.ended = false → Waits i s .stream) ∧
      (t.ended = true → Completes i s fun u =>
        Wrote s u d k (fun e => op 0 (if b = a then 0 else el s w b e)) ∧ streams u t ∧ u.hart.strip = s.hart.strip ∧
        SameTransfers s u ∧ u.hart.fetched = s.hart.fetched)) ∧
    (∀ buf, OneStream s n a t → t.desc.mode = 2 → (landed s n)[t.pos]? = some buf →
      (buf.lgn ≠ groups s.hart.bound ∨ buf.vtype.sew ≠ s.hart.r.vtype.sew → Traps i s 0x02 0) ∧
      (buf.lgn = groups s.hart.bound → buf.vtype.sew = s.hart.r.vtype.sew → buf.fail = 0 →
        let s' := withBuffer s a buf
        Completes i s fun u => Wrote s' u d k (fun e => op (el s' w a e) (el s' w b e)) ∧ streams u { t with pos := t.pos + 1 } ∧
          u.hart.strip = s.hart.strip ∧ u.hart.fetched = s.hart.fetched ∧
          landed u n = (landed s n).set t.pos { buf with read := true } ∧
          u.hart.buffers.filter (fun x => x.1 != n) = s.hart.buffers.filter (fun x => x.1 != n) ∧
          u.dev.groups = (if buf.read then s.dev.groups else s.dev.groups.map (fun g =>
            if g.receiver = s.hart.uid ∧ g.stream = n then { g with permits := g.permits + 1 } else g)) ∧
          (∃ new, u.hart.landing = s.hart.landing ++ new ∧
            new.map (·.1) = if buf.read = false ∧ (s.memberOf n).isSome = true then [n] else [])))

/-- R119, R120, R121: a hit in the reuse table. The key of an integer instruction has the hart's context, machine and lanes, its word with the
register fields cleared, VTYPE, VL, the names of its operands, the generation of its mask, and the name of its old destination when some
element of it stays. An entry of that key gives the destination its registers, mortar bytes and name, replays its flags, and counts a
hit; nothing is computed. -/
def Sys2Proof.Claims.ReuseHits : Prop :=
  ∀ (s : State) (d a b k code : Nat) (na nb : GroupName) (old : Option GroupName) (e : ReuseEntry),
    VReady { s with dev := s.dev.setBrick s.hart.brick { s.brick with reuse := [] } } [d, a, b] → s.hasParts 8 = true →
    NamedAs s a na → NamedAs s b nb → ∀ m ∈ intForms, encode (m.vv 0 0 0 0) = some code →
    let t := s.hart.r.vtype
    let stays := vlen s < 256 * lanes s / sew s * gOf s ∨ (t.kz = false ∧ ∃ q, q < vlen s ∧ ¬ Active s k q)
    (stays → ∃ nd, NamedAs s d nd ∧ old = some nd) → (¬ stays → old = none) →
    e ∈ s.brick.reuse → e.kind = .compute → (∀ e' ∈ s.brick.reuse, e'.key = e.key → e' = e) →
    e.key = { ctx := s.hart.ctx, vmid := s.hart.vmid, lgset := s.hart.bound, word := BitVec.ofNat 32 code
              vtype := BitVec.ofNat 7 (64 * t.kz.toNat + 8 * t.gm.toNat + t.sew.toNat), frm := 0, vl := s.hart.r.vl, srcs := [na, nb]
              mask := if k = 0 then none else some (k, s.hart.r.kgen.getD k 0), old := old, sop1 := 0, sop2 := 0, slot := none } →
    Completes (m.vv d a b k) s fun u =>
      OnlyVector { s with hart := { s.hart with reuseHit := u.hart.reuseHit } } u ∧ u.pc = s.pc + 4 ∧ OtherRegs s u d (gOf s) ∧
      SameMasks s u ∧ u.hart.reuseHit = s.hart.reuseHit + 1 ∧
      (∀ j, j < gOf s → u.hart.r.v.getD (d + j) 0 = e.result.regs.getD j 0 ∧
        u.hart.r.mortar.getD (d + j) 0 = e.result.mortar.getD j 0 ∧ u.hart.r.phys.getD (d + j) [] = e.result.phys.getD j []) ∧
      u.hart.r.names.getD d none = some e.result.name ∧ u.hart.fstat = s.hart.fstat ||| e.flags.bits ∧
      (∀ c : Fin 5, u.hart.fidx[c] = match e.flags.idx[c] with
        | some q => if q < s.hart.fidx[c].toNat then BitVec.ofNat 64 q else s.hart.fidx[c]
        | none => s.hart.fidx[c]) ∧
      u.brick.reuse.head? = some e ∧ (∀ e', e' ∈ u.brick.reuse ↔ e' ∈ s.brick.reuse)

/-! ### The bond network and sparse registers -/

namespace Sys2Proof.Claims

/-- A signed element of w bits. -/
def signed (w v : Nat) : Int := (BitVec.ofNat w v).toInt

/-- The control bit of a constant at a stage: bit t going up and bit 13 + t going down; bits from SEW on read 0 (R352). -/
def ctlBit (w : Nat) (down : Bool) (t c : Nat) : Bool :=
  let i := if down then 13 + t else t
  decide (i < w) && c.testBit i

/-- The outputs of a node with their flags: the built-in operators as the table of R352 has them, and those of a loaded slot. -/
noncomputable def node (s : State) (op rm w : Nat) (down : Bool) (t a b c : Nat) : (Nat × BitVec 5) × (Nat × BitVec 5) :=
  let one := ctlBit w down t c
  let y : FpFmt := if w = 64 then .fp64 else if w = 32 then .fp32 else .fp16
  let key := fun v => signed (w / 2) (v / 2 ^ (w / 2))
  let pair := fun (p q : Nat) => (((p, 0), (q, 0)) : (Nat × BitVec 5) × (Nat × BitVec 5))
  if op = 8 then
    (let low := if signed w a ≤ signed w b then a else b
     let high := if signed w a ≤ signed w b then b else a
     if one then pair high low else pair low high)
  else if op = 9 then
    (if (if one then key b ≤ key a else key a ≤ key b) then pair a b else pair b a)
  else if op = 10 then (if one then (fpAdd y rm a b, (b, 0)) else ((a, 0), fpAdd y rm a b))
  else if op = 11 then (fpFma y rm b c a, fpFma y rm (b ^^^ 2 ^ (w - 1)) c a)
  else if op = 12 then (if one then pair b a else pair a b)
  else (OpDesc.output (s.slots op) 0 rm w (control w down t) a b c, OpDesc.output (s.slots op) 1 rm w (control w down t) a b c)

/-- One stage over n values with the flags of each: every node reads the values from before the stage (R351). -/
def stage {α : Type} (f : Nat → α → α → Nat → α × α) (n t : Nat) (x : Nat → α) : Nat → α := fun e =>
  if e.testBit t then (f t (x (e - 2 ^ t)) (x e) (e - 2 ^ t)).2
  else if e + 2 ^ t < n then (f t (x e) (x (e + 2 ^ t)) e).1
  else x e

/-- The stages of a pass, in order. -/
def passStages (down : Bool) (start cnt : Nat) : List Nat :=
  (List.range (cnt + 1)).map (fun j => if down then start - j else start + j)

/-- The stages of a pass lie within 0 to 12. -/
def PassInRange (down : Bool) (start cnt : Nat) : Prop := if down then cnt ≤ start ∧ start ≤ 12 else start + cnt ≤ 12

/-- The whole of a pass: values with the flags gathered at each element. -/
noncomputable def passed (s : State) (down : Bool) (d c op start cnt : Nat) : Nat → Nat × BitVec 5 :=
  let w := sew s
  (passStages down start cnt).foldl
    (fun x t => stage (fun t p q e =>
      let r := node s op s.hart.frm.toNat w down t p.1 q.1 (el s w c e)
      ((r.1.1, p.2 ||| r.1.2), (r.2.1, q.2 ||| r.2.2))) (vlen s) t x)
    (fun e => (el s w d e, 0))

/-- An operator that an instruction may name at SEW w (R350, R352), and one that moves whole blocks (R358). -/
def OpFits (s : State) (op w : Nat) : Prop :=
  op ≤ 12 ∧ (op < 8 → s.slots op ≠ 0 ∧ (typeOf ((s.slots op).byte 1)).bits = w) ∧ ((op = 9 ∨ op = 10 ∨ op = 11) → w ≠ 8)
def Blockwise (s : State) (op : Nat) : Prop := op < 8 ∧ ((s.slots op).byte 1 = 4 ∨ (s.slots op).byte 1 = 5)

/-- Elements of the group at d get the values that `val` names and the others keep theirs, in a frame that leaves the flags open. -/
def Puts (i : Instr) (s : State) (d w : Nat) (val : Nat → Option Nat) (more : State → Prop) : Prop :=
  Completes i s fun t => OnlyVector s t ∧ t.pc = s.pc + 4 ∧ OtherRegs s t d (gOf s) ∧ SameMasks s t ∧
    (∀ e, e < 256 * lanes s / w * gOf s → el t w d e = (val e).getD (el s w d e)) ∧ more t

/-- The active elements of a group as terms of a sum, and their plain values (R361). -/
def termsOfGroup (s : State) (y : FpFmt) (k a : Nat) : List Term :=
  (List.range (vlen s)).map (fun e =>
    if Active s k e then
      some (e, decodeFp y (el s (fpWidth y) a e), snanFlag [decodeFp y (el s (fpWidth y) a e)])
    else none)
def activeValues (s : State) (w k a n : Nat) : List Nat :=
  ((List.range n).filter (fun e => decide (Active s k e))).map (fun e => el s w a e)

/-- A swapb pass over some stages: the values, with the control bits of each node at its low element (R352). -/
noncomputable def swapPass (s : State) (down : Bool) (c : Nat → Nat) (stages : List Nat) (x : Nat → Nat) : Nat → Nat :=
  stages.foldl (fun x t => stage (fun t p q e =>
    let r := node s 12 s.hart.frm.toNat (sew s) down t p q (c e)
    (r.1.1, r.2.1)) (vlen s) t x) x

/-- The two passes of a route over 2^m elements: up the stages 0 to m − 1, then down from m − 2 to 0 (R359). -/
noncomputable def routePair (s : State) (m : Nat) (c x : Nat → Nat) : Nat → Nat :=
  let up := swapPass s false c (passStages false 0 (m - 1)) x
  if m = 1 then up else swapPass s true c (passStages true (m - 2) (m - 2)) up

/-- Two values that may be absent, joined by an operator. -/
def joined (f : Nat → Nat → Nat) : Option Nat → Option Nat → Option Nat
  | some a, some b => some (f a b)
  | none, b => b
  | a, none => a

/-- The trees of R362. -/
noncomputable def reduceTree (s : State) (op w k a : Nat) : Nat → Option Nat :=
  (List.range 13).foldl (fun x t => fun i =>
    if i % 2 ^ (t + 1) = 0 ∧ i + 2 ^ t < vlen s then
      joined (fun p q => (node s op s.hart.frm.toNat w false t p q (2 ^ w - 1)).1.1) (x i) (x (i + 2 ^ t))
    else x i) (fun i => if Active s k i then some (el s w a i) else none)
noncomputable def scanTree (s : State) (op w k a : Nat) : Nat → Option Nat :=
  (List.range 13).foldl (fun x t => fun i =>
    if i.testBit t ∧ i < vlen s then
      joined (fun p q => (node s op s.hart.frm.toNat w false t p q (2 ^ w - 1)).1.1) (x (i / 2 ^ (t + 1) * 2 ^ (t + 1) + 2 ^ t - 1)) (x i)
    else x i) (fun i => if Active s k i then some (el s w a i) else none)

end Sys2Proof.Claims

/-- R351, R352, R350: vpass and vpass.d run their stages over the elements below VL, each node with its two outputs, and raise the flags of
each element. A stage outside 0 to 12 and an operator that does not fit SEW are illegal operands. -/
def Sys2Proof.Claims.BondPasses : Prop :=
  ∀ (s : State) (d c op start cnt : Nat), VReady s [d, c] → s.hart.r.passst = {} → ¬ Blockwise s op →
    let form := fun (down : Bool) => if down then Instr.vpassD d c op start cnt else Instr.vpass d c op start cnt
    ∀ down,
      (PassInRange down start cnt → OpFits s op (sew s) →
        WritesGroup (form down) s d (sew s) 0 (fun e => (passed s down d c op start cnt e).1) (fun e => (passed s down d c op start cnt e).2)) ∧
      (¬ (PassInRange down start cnt ∧ OpFits s op (sew s)) → Traps (form down) s 0x02 0)

/-- R358: an operator of D8 or D4 type moves whole blocks of 32 bytes with their mortar bytes, at SEW 8, with VL in whole blocks and no
stage below 5. -/
def Sys2Proof.Claims.BlockPasses : Prop :=
  ∀ (s : State) (d c op start cnt : Nat), VReady s [d, c] → s.hart.r.passst = {} → Blockwise s op → s.slots op ≠ 0 →
    let form := fun (down : Bool) => if down then Instr.vpassD d c op start cnt else Instr.vpass d c op start cnt
    let block := fun (v q : Nat) => ((el s 256 v q, BitVec.ofNat 8 (scaleByte s v q)) : Block)
    ∀ down,
      let ok := PassInRange down start cnt ∧ sew s = 8 ∧ vlen s % 32 = 0 ∧ ∀ t ∈ passStages down start cnt, 5 ≤ t
      let out := (passStages down start cnt).foldl
        (fun x t => stage (fun _ p q e => ((s.slots op).blockOut 0 (control 32 down t) p q (block c e),
          (s.slots op).blockOut 1 (control 32 down t) p q (block c e))) (vlen s / 32) (t - 5) x) (block d)
      (ok → Completes (form down) s fun t => OnlyVector s t ∧ t.pc = s.pc + 4 ∧ OtherRegs s t d (gOf s) ∧ SameMasks s t ∧
        t.hart.fstat = s.hart.fstat ∧
        ∀ q, q < lanes s * gOf s → (el t 256 d q, BitVec.ofNat 8 (scaleByte t d q)) =
          if q < vlen s / 32 then out q else block d q) ∧
      (¬ ok → Traps (form down) s 0x02 0)

/-- R361, R217: vred.s and vred.g add the active elements into element 0 of vd and keep the rest; vscan.s and vscan.g give each active element
the sum that begins at −0, or 0, and ends at it. Integer sums wrap. Another type code or width is an illegal operand. -/
def Sys2Proof.Claims.SumsAndScans : Prop :=
  ∀ (s : State) (d a k t : Nat), VReady s [d, a] →
    let w := sew s
    let rm := s.hart.frm.toNat
    let acc := el s w d 0
    let some' := ∃ e, Active s k e
    let forms := [(Instr.vredS d a t k, Instr.vscanS d a t k, false), (Instr.vredG d a t k, Instr.vscanG d a t k, true)]
    (∀ y : FpFmt, y.code = t → fpWidth y = w → ∀ m ∈ forms,
      let terms := termsOfGroup s y k a
      let r := sumTerms m.2.2 y rm acc terms
      let scans := scanTerms m.2.2 y rm terms
      let minus := 2 ^ (w - 1)
      (some' → Puts m.1 s d w (fun e => if e = 0 then some r.1 else none) (fun u => scaleByte u d 0 = 0 ∧
        u.hart.fstat = r.2.foldr (fun f acc => f.2 ||| acc) s.hart.fstat)) ∧
      (¬ some' → Puts m.1 s d w (fun _ => none) (fun u => u.hart.fstat = s.hart.fstat)) ∧
      WritesGroup m.2.1 s d w k (fun e => (sumTerms m.2.2 y rm minus (terms.take (e + 1))).1)
        (fun e => ((lookupKey e scans).getD (0, 0)).2)) ∧
    (∀ (sg : Bool) (j : Fin 4), intCode sg j = t → 8 * 2 ^ j.val = w → ∀ m ∈ forms,
      (some' → Puts m.1 s d w (fun e => if e = 0 then some ((acc + (activeValues s w k a (vlen s)).sum) % 2 ^ w) else none)
        (fun u => scaleByte u d 0 = 0 ∧ u.hart.fstat = s.hart.fstat)) ∧
      (¬ some' → Puts m.1 s d w (fun _ => none) (fun u => u.hart.fstat = s.hart.fstat)) ∧
      WritesGroup m.2.1 s d w k (fun e => (activeValues s w k a (e + 1)).sum % 2 ^ w) (fun _ => 0)) ∧
    ((∀ y : FpFmt, y.code = t → fpWidth y ≠ w) → (∀ (sg : Bool) (j : Fin 4), intCode sg j = t → 8 * 2 ^ j.val ≠ w) →
      ∀ m ∈ forms, Traps m.1 s 0x02 0 ∧ Traps m.2.1 s 0x02 0)

/-- R362, R360: vred and vscan with an operator combine live elements by the trees that the rule gives, with every bit of the constant 1 and
the low output only. -/
def Sys2Proof.Claims.OperatorTrees : Prop :=
  ∀ (s : State) (d a op k : Nat), VReady s [d, a] → s.hart.r.passst = {} → ¬ Blockwise s op →
    let w := sew s
    (OpFits s op w → op ≠ 11 →
      Puts (.vredOp d a op k) s d w (fun e => if e = 0 then reduceTree s op w k a 0 else none)
        (fun t => op ≠ 10 → 8 ≤ op → t.hart.fstat = s.hart.fstat) ∧
      Puts (.vscanOp d a op k) s d w (fun e => if Active s k e then scanTree s op w k a e
        else if e < vlen s ∧ s.hart.r.vtype.kz = true then some 0 else none)
        (fun t => op ≠ 10 → 8 ≤ op → t.hart.fstat = s.hart.fstat)) ∧
    (¬ OpFits s op w ∨ op = 11 → Traps (.vredOp d a op k) s 0x02 0 ∧ Traps (.vscanOp d a op k) s 0x02 0)

/-- R363: vcompress gathers the active elements in order and vsort and vsort.d sort them; the places behind them up to VL are kept, or zero under
KZ. Selector 0 of vcompress is an illegal operand. -/
def Sys2Proof.Claims.CompressAndSort : Prop :=
  ∀ (s : State) (d a k : Nat), VReady s [d, a] → s.hart.r.passst = {} →
    let w := sew s
    let L := activeValues s w k a (vlen s)
    let fills := fun (i : Instr) (l : List Nat) => Puts i s d w (fun e => match l[e]? with
      | some v => some v
      | none => if e < vlen s ∧ s.hart.r.vtype.kz = true then some 0 else none) (fun t => t.hart.fstat = s.hart.fstat)
    (k ≠ 0 → fills (.vcompress d a k) L) ∧ Traps (.vcompress d a 0) s 0x02 0 ∧
    (∃ l, l.Perm L ∧ l.Pairwise (fun p q => signed w p ≤ signed w q) ∧ fills (.vsort d a k) l) ∧
    (∃ l, l.Perm L ∧ l.Pairwise (fun p q => signed w q ≤ signed w p) ∧ fills (.vsortD d a k) l)

/-- R363: vmaxi finds the largest active value that is not a NaN, at its lowest index, writes index and value, and clears its mask bit; with
none it writes all ones and the canonical NaN. Selector 0 and a SEW without the format are illegal operands. -/
def Sys2Proof.Claims.LargestElement : Prop :=
  ∀ (s : State) (d f a c : Nat) (bf : Bool), VReady s [a] → s.hart.r.passst = {} → c < 8 → f < 32 →
    let i := if bf then Instr.vmaxiBf16 d a f c else Instr.vmaxi d a f c
    let w := sew s
    let y := vfp s bf
    let counts := fun e => e < vlen s ∧ kbit s c e = true ∧ (decodeFp y (el s w a e)).isNan = false
    let after := fun (x fd : Word) (bit : Nat → Bool) => Completes i s fun t =>
      OnlyVector { s with hart := { s.hart with r := { s.hart.r with x := t.hart.r.x, f := t.hart.r.f } } } t ∧ t.pc = s.pc + 4 ∧
      SetsX s t d x ∧ SetsF s t f fd ∧ t.hart.r.v = s.hart.r.v ∧ (∀ m, m < 8 → m ≠ c → t.hart.r.k.getD m 0 = s.hart.r.k.getD m 0) ∧
      t.hart.r.kgen.getD c 0 = s.hart.r.kgen.getD c 0 + 1 ∧ ∀ e, e < 8192 → kbit t c e = bit e
    (c = 0 ∨ ¬ FpSew s bf → Traps i s 0x02 0) ∧
    (c ≠ 0 → FpSew s bf →
      (∀ m, counts m → (∀ e, counts e → place w (el s w a e) ≤ place w (el s w a m) ∧ (e < m → place w (el s w a e) < place w (el s w a m))) →
        after (BitVec.ofNat 64 m) (BitVec.ofNat 64 (el s w a m)) (fun e => kbit s c e && e != m)) ∧
      ((∀ e, ¬ counts e) → after (BitVec.allOnes 64) (BitVec.ofNat 64 (fpNaN y)) (kbit s c)))

/-- R359, R352: vroute writes the control bits that the looping algorithm chooses, at SEW 32 or 64, for a power of two of targets that form a
permutation; anything else is an illegal operand. With these bits an ascending swapb pass and then a descending one bring each element to
its target. -/
def Sys2Proof.Claims.Routes : Prop :=
  ∀ (s : State) (d a : Nat), VReady s [d, a] →
    let w := sew s
    let n := vlen s
    let targets := (List.range n).map (el s w a)
    let ok := (w = 32 ∨ w = 64) ∧ (∃ m, 1 ≤ m ∧ n = 2 ^ m) ∧ ∀ p, p < n → p ∈ targets
    (ok → WritesGroup (.vroute d a) s d w 0 (fun p => (routeBits targets n).getD p 0 % 2 ^ w) (fun _ => 0)) ∧
    (∀ m x p, ok → n = 2 ^ m → p < n →
      routePair s m (fun q => (routeBits targets n).getD q 0 % 2 ^ w) x (el s w a p) = x p) ∧
    (¬ ok → Traps (.vroute d a) s 0x02 0)

/-- R354, R355, R356, R117: opld puts a legal descriptor into its slot and raises the slot's generation; opclr empties the slot. An illegal
descriptor is an illegal operator, and a misaligned address an illegal operand; the slot is then as it was. -/
def Sys2Proof.Claims.OperatorSlots : Prop :=
  ∀ (s : State) (n a : Nat) (l : List Byte), n < 8 →
    let sets := fun (i : Instr) (v : Nat) => Completes i s fun t =>
      t.hart.r.ops = s.hart.r.ops.setIfInBounds n (BitVec.ofNat 256 v) ∧
      t.hart.r.ogen = s.hart.r.ogen.setIfInBounds n (s.hart.r.ogen.getD n 0 + 1) ∧ t.pc = s.pc + 4 ∧ SameMemory s t ∧
      t.hart.r.x = s.hart.r.x ∧ t.hart.r.v = s.hart.r.v ∧ t.hart.strip = s.hart.strip
    let va := (s.x a).toNat
    sets (.opclr n) 0 ∧ (va % 32 ≠ 0 → Traps (.opld n a) s 0x02 0) ∧
    (va % 32 = 0 → ScalarBytes s va 32 l → l.length = 32 →
      (OpDesc.legal (value l) = true → sets (.opld n a) (value l)) ∧
      (OpDesc.legal (value l) = false → Traps (.opld n a) s 0x03 0))

namespace Sys2Proof.Claims

/-- Entry i of a sparse register (R365). -/
def coord (s : State) (r i : Nat) : Nat := el s (sew s) (16 + 2 * r) i
def entryVal (s : State) (r i : Nat) : Nat := el s (sew s) (17 + 2 * r) i
def entries (s : State) (r : Nat) : Nat := (s.hart.r.slen.getD r 0).toNat

/-- The coordinates of a sparse register ascend strictly. -/
def Ascending (s : State) (r : Nat) : Prop := ∀ i j, i < j → j < entries s r → coord s r i < coord s r j
def HasCoord (s : State) (r c : Nat) : Prop := ∃ i, i < entries s r ∧ coord s r i = c

end Sys2Proof.Claims

/-- R365, R366: splen sets a length of at most VLMAX. spadd unites two sparse registers and spmul intersects them: coordinates ascend,
common entries are added or multiplied, the others move unchanged, zeros follow up to VL, and SLEN becomes the count. What breaks their limits
is an illegal operand. -/
def Sys2Proof.Claims.SparseRegisters : Prop :=
  (∀ (s : State) (d a : Nat), s.hart.bound ≠ 0 → s.hart.r.vtype.vill = false → d < 8 →
    let max := 256 * groups s.hart.bound * gOf s / 2 ^ s.hart.r.vtype.sew.toNat
    (max < (s.x a).toNat → Traps (.splen d a) s 0x02 0) ∧
    ((s.x a).toNat ≤ max → ChangesHart (.splen d a) s (fun h => { h with
      wait := .none, landed := [], r := { h.r with slen := h.r.slen.setIfInBounds d (BitVec.ofNat 14 (s.x a).toNat) } }))) ∧
  (∀ (s : State) (d a b : Nat) (both : Bool), VReady s [] → d < 8 → a < 8 → b < 8 →
    let i := if both then Instr.spmul d a b else Instr.spadd d a b
    let y : FpFmt := if sew s = 64 then .fp64 else if sew s = 32 then .fp32 else .fp16
    let op := if both then fpMul y s.hart.frm.toNat else fpAdd y s.hart.frm.toNat
    let fits := gOf s = 1 ∧ sew s ≠ 8 ∧ entries s a ≤ vlen s ∧ entries s b ≤ vlen s ∧ Ascending s a ∧ Ascending s b
    (¬ fits → Traps i s 0x02 0) ∧
    (fits → ∀ U : List Nat, U.Pairwise (· < ·) →
      (∀ c, c ∈ U ↔ if both then HasCoord s a c ∧ HasCoord s b c else HasCoord s a c ∨ HasCoord s b c) →
      (vlen s < U.length → Traps i s 0x02 0) ∧
      (U.length ≤ vlen s → Completes i s fun t =>
        SameMemory s t ∧ t.pc = s.pc + 4 ∧ OtherRegs s t (16 + 2 * d) 2 ∧ SameMasks s t ∧ t.hart.r.x = s.hart.r.x ∧ t.hart.r.f = s.hart.r.f ∧
        entries t d = U.length ∧ (∀ r, r < 8 → r ≠ d → entries t r = entries s r) ∧
        (∀ m, U.length ≤ m → m < vlen s → coord t d m = 0 ∧ entryVal t d m = 0) ∧
        ∀ m c, U[m]? = some c → coord t d m = c ∧
          (∀ p q, p < entries s a → q < entries s b → coord s a p = c → coord s b q = c →
            entryVal t d m = (op (entryVal s a p) (entryVal s b q)).1) ∧
          (∀ p, p < entries s a → coord s a p = c → ¬ HasCoord s b c → entryVal t d m = entryVal s a p) ∧
          (∀ q, q < entries s b → coord s b q = c → ¬ HasCoord s a c → entryVal t d m = entryVal s b q))))

/-! ### Tiles -/

namespace Sys2Proof.Claims

/-- Element (r, c) of a tile in words of 32 bits, and of the pair at an even tile in words of 64 (R374). -/
def tileEl (s : State) (w t r c : Nat) : Nat :=
  if w = 64 then (s.hart.r.tile.getD (t + c / 8) 0).toNat / 2 ^ (64 * (8 * r + c % 8)) % 2 ^ 64
  else (s.hart.r.tile.getD t 0).toNat / 2 ^ (32 * (16 * r + c)) % 2 ^ 32

/-- A tile is enabled, and so is the other of its pair where one is named (R375). -/
def TileOn (s : State) (pair : Prop) (t : Nat) : Prop :=
  s.hart.r.ten.getLsbD t = true ∧ (pair → t % 2 = 1 ∨ s.hart.r.ten.getLsbD (t + 1) = true)

/-- Nothing but tiles with their claim, the accumulated flags, what the hart waited for, the program counter and what accesses leave of the
device has changed. -/
def OnlyTiles (s t : State) : Prop :=
  t.pc = s.pc + 4 ∧ SameMemory s t ∧
  Checked s.dev t.dev ∧
  t.hart = { s.hart with
    fstat := t.hart.fstat, fidx := t.hart.fidx, wait := .none, landed := []
    r := { s.hart.r with
      tile := t.hart.r.tile, tfail := t.hart.r.tfail, ncl := t.hart.r.ncl, ten := t.hart.r.ten, claim := t.hart.r.claim
      pc := t.hart.r.pc } }

/-- The tiles from one on that an instruction does not name keep their contents, and no claim changes. -/
def OtherTiles (s t : State) (v n : Nat) : Prop :=
  (∀ u, u < 8 → (u < v ∨ v + n ≤ u) → t.hart.r.tile.getD u 0 = s.hart.r.tile.getD u 0) ∧
  t.hart.r.ten = s.hart.r.ten ∧ t.hart.r.ncl = s.hart.r.ncl

/-- The 256 words of a tile in memory, row by row (R384). -/
def tileWordAt (s : State) (a b i : Nat) : Nat :=
  (s.x a + BitVec.ofNat 64 (i / 16) * s.x b + BitVec.ofNat 64 (4 * (i % 16))).toNat
def tilePieces (s : State) (a b : Nat) : List Access :=
  (List.range 256).map (fun i => { elem := i, va := tileWordAt s a b i, n := 4 })
def tileNeed (s : State) (a b : Nat) : Nat :=
  ((List.range 16).map (fun r => entryCount (s.x a + BitVec.ofNat 64 r * s.x b).toNat 64)).sum

/-- The types of topa: SEW, accumulator, factors per element, and the reading of factor q (R381). -/
def outerTypes : List (Nat × Nat × FpFmt × Nat × (State → Nat → Nat → FpNum)) :=
  [(0, 64, .fp64, 1, fun s v q => decodeFp .fp64 (el s 64 v q)),
   (1, 32, .fp32, 1, fun s v q => decodeFp .fp32 (el s 32 v q)),
   (2, 16, .fp32, 1, fun s v q => decodeFp .bf16 (el s 16 v q)),
   (3, 16, .fp32, 1, fun s v q => decodeFp .fp16 (el s 16 v q)),
   (4, 8, .fp32, 1, fun s v q => narrowAt s .d8 v q),
   (5, 8, .fp32, 2, fun s v q => narrowAt s .d4 v q)]

/-- The row or column of a mask is on (R382). -/
def LineOn (s : State) (k i : Nat) : Prop := k = 0 ∨ kbit s k i = true

/-- Where element e of a slice move lies in a tile, from row or column f on (R386). -/
def sliceAt (cols : Bool) (f e : Nat) : Nat × Nat := if cols then (e % 16, f + e / 16) else (f + e / 16, e % 16)

end Sys2Proof.Claims

/-- R105, R378, R379, R380, R376, R375: tileon claims tiles 0 to n − 1 as zeros, or waits while the brick has too few; tileoff releases them, for
other harts once the strip has closed; tzero zeroes one. Tiles released in an unclosed strip count for the hart's own next claim (log 104, the model's reading). A hart without lanes takes the illegal-instruction trap, and a tile that is not enabled is a tile trap. -/
def Sys2Proof.Claims.TileClaims : Prop :=
  ∀ (s : State) (n t : Nat), t < 8 →
    (s.hart.bound = 0 → Traps (.tileon n) s 0x01 0 ∧ Traps .tileoff s 0x01 0 ∧ Traps (.tzero t) s 0x01 0) ∧
    (s.hart.bound ≠ 0 →
      (n = 0 ∨ 8 < n ∨ s.hart.r.ncl ≠ 0 → Traps (.tileon n) s 0x02 0) ∧
      (1 ≤ n → n ≤ 8 → s.hart.r.ncl = 0 →
        let new := n - s.hart.spareTiles
        (s.canClaim (·.tileRes) Hart.claims new = false → Waits (.tileon n) s (.tileon n)) ∧
        (s.canClaim (·.tileRes) Hart.claims new = true → Completes (.tileon n) s fun u => OnlyTiles s u ∧
          u.hart.r.ncl.toNat = n ∧ (∀ m, m < 8 → u.hart.r.ten.getLsbD m = decide (m < n)) ∧
          (∀ m, m < 8 → u.hart.r.tile.getD m 0 = if m < n then 0 else s.hart.r.tile.getD m 0) ∧ u.hart.fstat = s.hart.fstat)) ∧
      Completes .tileoff s (fun u => OnlyTiles { s with hart := { s.hart with freed := u.hart.freed } } u ∧
        u.hart.freed = (if s.hart.r.ncl = 0 then s.hart.freed else (s.hart.r.claim, s.hart.r.ncl.toNat) :: s.hart.freed) ∧ u.hart.r.ncl = 0 ∧ u.hart.r.ten = 0 ∧ u.hart.r.tile = s.hart.r.tile) ∧
      (¬ TileOn s False t → Traps (.tzero t) s 0x04 0) ∧
      (TileOn s False t → Completes (.tzero t) s fun u => OnlyTiles s u ∧ u.hart.r.tile.getD t 0 = 0 ∧ OtherTiles s u t 1))

/-- R384, R385: tld loads the 256 words of a tile row by row, and tst stores them in the strip store buffer, in element order on a page
with HS (R156). -/
def Sys2Proof.Claims.TileLoadsAndStores : Prop :=
  ∀ (s : State) (t a b : Nat) (h : Hint) (r : List (Access × List Place)) (u : State), s.hart.bound ≠ 0 → t < 8 →
    (¬ TileOn s False t → Traps (.tld t a b h) s 0x04 0 ∧ (tileNeed s a b ≤ s.freeEntries → Traps (.tst t a b h) s 0x04 0)) ∧
    (TileOn s False t →
      (∀ mem, Reached s .read noLane (tilePieces s a b) r u → Sees u r mem → Completes (.tld t a b h) s fun v =>
        OnlyTiles s v ∧ OtherTiles s v t 1 ∧
        ∀ i, i < 256 → tileEl v 32 t (i / 16) (i % 16) = value (mem (tileWordAt s a b i))) ∧
      (∀ hs, s.reach .write noLane (tilePieces s a b) = .ok (r, hs, u) → s.hart.r.tfail = Vector.replicate 8 0 → tileNeed s a b ≤ s.freeEntries →
        Completes (.tst t a b h) s fun v => VectorBuffered s v false hs false false (tileNeed s a b) r
          (fun x => bytesOf 4 (BitVec.ofNat 64 (tileEl s 32 t (x.elem / 16) (x.elem % 16))))))

/-- R381, R382, R383, R217: topa adds K exact products into each element whose row and column are on, one by one or in runs of eight, and keeps
the others. A tile that is not enabled is a tile trap; another SEW, a VL out of whole columns, and an odd tile for FP64 are illegal
operands. -/
def Sys2Proof.Claims.OuterProducts : Prop :=
  ∀ (s : State) (t a b k : Nat), VReady s [a, b] → t < 8 → ∀ m ∈ outerTypes, ∀ grouped : Bool,
    let y := m.1
    let acc := m.2.2.1
    let per := m.2.2.2.1
    let at' := m.2.2.2.2
    let aw := fpWidth acc
    let K := vlen s * per / 16
    let i := if grouped then Instr.topaG t a b k y else Instr.topaS t a b k y
    let ok := sew s = m.2.1 ∧ vlen s * per % 16 = 0 ∧ (y = 0 → t % 2 = 0)
    let product := fun (r c j : Nat) => productOf (at' s a (16 * j + r)) (at' s b (16 * j + c))
    let terms := fun (r c : Nat) => ((List.range K).map (fun j => some (16 * r + c, (product r c j).1, (product r c j).2)) : List Term)
    (¬ TileOn s (y = 0) t → Traps i s 0x04 0) ∧
    (TileOn s (y = 0) t → ¬ ok → Traps i s 0x02 0) ∧
    (TileOn s (y = 0) t → ok → Completes i s fun u =>
      OnlyTiles s u ∧ OtherTiles s u t (if y = 0 then 2 else 1) ∧
      ∀ r c, r < 16 → c < 16 →
        (LineOn s k r ∧ LineOn s k (16 + c) →
          tileEl u aw t r c = (sumTerms grouped acc s.hart.frm.toNat (tileEl s aw t r c) (terms r c)).1) ∧
        (¬ (LineOn s k r ∧ LineOn s k (16 + c)) → tileEl u aw t r c = tileEl s aw t r c))

/-- R386, R387: tmvr and tmvc move tile rows or columns into a vector group, and tvmr and tvmc a group into a tile, from the line that xa
names. A tile that is not enabled is a tile trap; lines beyond the tile, another SEW than 32 or 64, and an odd tile at 64 are illegal
operands. That a line beyond the tile traps at VL 0 too is log 44, the model's reading. -/
def Sys2Proof.Claims.SliceMoves : Prop :=
  ∀ (s : State) (d t a k : Nat), VReady s [d] → t < 8 →
    let w := sew s
    let f := (s.x a).toNat
    let on := TileOn s (w = 64) t
    let ok := (w = 32 ∨ w = 64 ∧ t % 2 = 0) ∧ f < 16 ∧ f + (vlen s + 15) / 16 ≤ 16
    ∀ cols : Bool,
      let outward := if cols then Instr.tmvc d t a k else Instr.tmvr d t a k
      let inward := if cols then Instr.tvmc t d a else Instr.tvmr t d a
      let at' := sliceAt cols f
      (¬ on → Traps outward s 0x04 0 ∧ Traps inward s 0x04 0) ∧
      (on → ¬ ok → Traps outward s 0x02 0 ∧ Traps inward s 0x02 0) ∧
      (on → ok →
        WritesGroup outward s d w k (fun e => tileEl s w t (at' e).1 (at' e).2) (fun _ => 0) ∧
        Completes inward s fun u => OnlyTiles s u ∧ OtherTiles s u t (if w = 64 then 2 else 1) ∧ u.hart.fstat = s.hart.fstat ∧
          (∀ e, e < vlen s → tileEl u w t (at' e).1 (at' e).2 = el s w d e) ∧
          ∀ r c, r < 16 → c < 16 → (∀ e, e < vlen s → at' e ≠ (r, c)) → tileEl u w t r c = tileEl s w t r c)

/-! ### Hints -/

/-- R269: nop and the hints that are not defined do nothing but go on; hpf translates its address as a load does, leaves nothing
else, and meets no fault. -/
def Obligations.Hints : Prop :=
  ∀ (s : State) (a : Nat) (h : Hint) (off : BitVec 12) (w : BitVec 32),
    Goes .nop s (s.pc + 4) ∧ Goes (.hintNoOp w) s (s.pc + 4) ∧
    Completes (.hpf a h off) s fun t => t.hart = { s.hart with r := { s.hart.r with pc := s.pc + 4 } } ∧ Checked s.dev t.dev

/-! ### Links -/

namespace Sys2Proof.Claims

/-- Nothing but ports and what they have sent has changed. -/
def OnlyPorts (s t : State) : Prop := t = { s with dev := { s.dev with ports := t.dev.ports, wire := t.dev.wire } }

/-- The other ports are as they were. -/
def OtherPorts (s t : State) (p : Nat) : Prop := ∀ m, m < 32 → m ≠ p → t.dev.port m = s.dev.port m

/-- Every row of the table that is a flit with a sequence number. -/
noncomputable def sequencedRows : List (Nat → Flit → Instr) :=
  [.readRequest, .readResponse, .readStatus, .write, .writeAcknowledgement, .atomicRequest, .atomicResponse, .systemBarrierArrival,
   .systemBarrierRelease, .gangReady, .gangGo, .withdrawRequest, .withdraw, .tokenProgress, .preemptionRelay, .gangFailed, .throttleNotice,
   .gmcManagementRead, .gmcManagementWrite, .gmcWriteThold, .gmcWriteGrandmaster, .gmcWriteMinSecurity, .gmcRestartTraining,
   .attestationRequest, .sync, .followUp, .pdelayReq, .pdelayResp, .pdelayRespFollowUp, .announce, .windowRegisterWrite, .queueEnable,
   .queueDisable, .qtailWrite, .sigpushSet, .sigpushAdd, .ctxentWrite, .evcfgWrite, .evconsWrite, .schedHold, .schedRelease, .schedFlush,
   .tlbinvAll, .tlbinvPage]

/-- What the ACKSEQ of a flit does: the flits of the replay buffer up to the one it names leave it, and none leave when it names none
(R22). The flits in the buffer are numbered up to the one before SEQ. -/
def Acknowledged (q q' : Port) (f : Flit) : Prop :=
  let seqOf := fun k => (q.seq + 256 - q.replay.length + k) % 256
  (∀ k, k < q.replay.length → f.ackseq = seqOf k → q'.replay = q.replay.drop (k + 1)) ∧
  ((∀ k, k < q.replay.length → f.ackseq ≠ seqOf k) → q'.replay = q.replay)

/-- The credits of a flit are added to the pools of their classes (R25). -/
def Credited (q q' : Port) (f : Flit) : Prop := ∀ c, c < 4 → q'.credit.getD c 0 = q.credit.getD c 0 + f.credits.getD c 0

/-- A port as it is between flits: it is up, at most 128 flits are unacknowledged, and each class has a pool and a count. -/
structure PortUp (s : State) (p : Nat) : Prop where
  small : p < 32
  up : (s.dev.port p).ready = true
  window : (s.dev.port p).replay.length ≤ 128 ∧ (s.dev.port p).seq < 256
  classes : (s.dev.port p).credit.length = 4 ∧ (s.dev.port p).owed.length = 4

/-- No flit of its node waits before it, and as an atomic it is not one on an address that the group of another node holds (R162, R198). -/
def Free (s : State) (f : Flit) : Prop :=
  f.cls ≠ 0 ∨ (∀ x ∈ s.dev.deferred, x.2.src = f.src → x.2.cls ≠ 0) ∧ (f.kind = 4 → ∀ g ∈ s.dev.groupsHeld, g.2 = f.pa → g.1 = f.src)

/-- A flit reaches a ready port as the next in sequence, and need not wait. -/
def Comes (s : State) (p : Nat) (f : Flit) : Prop :=
  p < 32 ∧ (s.dev.port p).ready = true ∧ f.seq = ((s.dev.port p).ackIn + 1) % 256 ∧ (p, f) ∉ s.dev.released ∧ Free s f

/-- The port has taken the flit in, and nothing else has happened. -/
def Received (s : State) (p : Nat) (f : Flit) : State := { s with dev := (s.dev.arrive p f).getD s.dev }

/-- A flit that waited comes back, and need not wait again; and the state in which it waits no longer. -/
def Returns (s : State) (p : Nat) (f : Flit) : Prop := (p, f) ∈ s.dev.released ∧ Free s f
def Returned (s : State) (p : Nat) (f : Flit) : State :=
  { s with dev := { s.dev with released := removeFirst (fun x => x == (p, f)) s.dev.released } }

/-- These answers have been given to a flit, by the port that earlier flits of their class to its sender have yet to leave and else by the
port it came on (R24); that port then sends link control if it still owes an acknowledgement or credits. -/
def Answers (u t : State) (p : Nat) (f : Flit) (gs : List Flit) : Prop :=
  let d := (gs.foldl (fun d g => d.reply p f g) u.dev).payDebts p
  t.dev.ports = d.ports ∧ t.dev.wire = d.wire

/-- A flit that arrives, or that comes back from its wait, leaves a state that is as `P` says of the states before and after. -/
def Takes (i : Instr) (s : State) (p : Nat) (f : Flit) (P : State → State → Prop) : Prop :=
  (Comes s p f → Completes i s (P (Received s p f))) ∧ (Returns s p f → Completes i s (P (Returned s p f)))

/-- It is answered so as well. -/
def Serves (i : Instr) (s : State) (p : Nat) (f : Flit) (gs : State → List Flit) (P : State → State → Prop) : Prop :=
  Takes i s p f fun u t => Answers u t p f (gs u) ∧ P u t

/-- An access has been made for another node: what it leaves of the device (R15, R245), and what the ports have sent. -/
def OnlyAccessed (s t : State) : Prop :=
  t.hart = s.hart ∧ Checked s.dev { t.dev with ports := s.dev.ports, wire := s.dev.wire }

/-- Nothing has changed but the ports, the memory of this device with its marks of poison, and what storage errors that were met leave. -/
def OnlyMemory (s t : State) : Prop :=
  t = { s with dev := { s.dev with
    mem := t.dev.mem, poison := t.dev.poison, latent := t.dev.latent, fresh := t.dev.fresh, ports := t.dev.ports, wire := t.dev.wire
    gmc := { s.dev.gmc with corrected := t.dev.gmc.corrected, log := t.dev.gmc.log } } }

/-- The same, with the addresses that atomic groups hold and the flits that wait for them. -/
def OnlyAtomic (s t : State) : Prop :=
  OnlyMemory { s with dev := { s.dev with
    groupsHeld := t.dev.groupsHeld, deferred := t.dev.deferred, released := t.dev.released, agenda := t.dev.agenda } } t

/-- An answer of one status byte (R20). -/
def statusOf (kind : Nat) (f : Flit) (st : Nat) : Flit :=
  { cls := f.cls, kind := kind, pa := f.pa, len := 7, payload := BitVec.ofNat 8 st :: zeros 223 }

end Sys2Proof.Claims

/-- R22, R25: a port takes in a sequenced flit whose SEQ follows the newest one it has, and acknowledges it; one that does not has no effect
but its ACKSEQ, and the port acknowledges again what it has. Link control brings ACKSEQ and credits only. A port that is down receives
nothing, a flit whose CRC fails has no effect, and a discarded flit is counted. That a flit out of sequence still gives its ACKSEQ but no
credits, and that neither a discarded flit nor a resent one gives any, are logs 30 and 89, the model's readings. -/
def Sys2Proof.Claims.PortSequencing : Prop :=
  ∀ (s : State) (p : Nat) (f : Flit), PortUp s p → (s.dev.port p).queue = [] → f.ackseq < 256 → f.cls < 4 → (p, f) ∉ s.dev.released →
    let q := s.dev.port p
    let control := fun (t : State) (ack : Nat) (credits : List Nat) =>
      ∃ g, t.dev.wire = s.dev.wire ++ [(p, g)] ∧ g.kind = 0x30 ∧ g.ackseq = ack ∧ g.credits = credits
    (f.seq = (q.ackIn + 1) % 256 →
      (let u := Received s p f
       OnlyPorts s u ∧ OtherPorts s u p ∧ u.dev.wire = s.dev.wire ∧
       let q' := u.dev.port p
       q'.ackIn = f.seq ∧ q'.owesAck = true ∧ Acknowledged q q' f ∧ Credited q q' f ∧
       ∀ c, c < 4 → q'.owed.getD c 0 = q.owed.getD c 0 + if c = f.cls then 1 else 0) ∧
      (Free s f → Completes (.followUp p f) s fun t => OnlyPorts s t ∧ OtherPorts s t p ∧
        control t f.seq (q.owed.set f.cls (q.owed.getD f.cls 0 + 1)) ∧
        (t.dev.port p).ackIn = f.seq ∧ (t.dev.port p).owed = [0, 0, 0, 0] ∧ Acknowledged q (t.dev.port p) f ∧ Credited q (t.dev.port p) f)) ∧
    (f.seq ≠ (q.ackIn + 1) % 256 → ∀ row ∈ sequencedRows, Completes (row p f) s fun t => OnlyPorts s t ∧ OtherPorts s t p ∧
      control t q.ackIn q.owed ∧
      (t.dev.port p).ackIn = q.ackIn ∧ (t.dev.port p).credit = q.credit ∧ Acknowledged q (t.dev.port p) f) ∧
    (Completes (.linkControl p f) s fun t => OnlyPorts s t ∧ OtherPorts s t p ∧ t.dev.wire = s.dev.wire ∧
      (t.dev.port p).ackIn = q.ackIn ∧ Acknowledged q (t.dev.port p) f ∧ Credited q (t.dev.port p) f) ∧
    exec (.flitCrcFailure p) s = .next s ∧
    (Completes (.flitDiscard p f) s fun t => OnlyPorts s t ∧ OtherPorts s t p ∧ t.dev.wire = s.dev.wire ∧
      t.dev.port p = { q with errors := q.errors + 1 }) ∧
    ∀ m, m < 32 → (s.dev.port m).ready = false → (m, f) ∉ s.dev.released →
      exec (.linkControl m f) s = .next s ∧ ∀ row ∈ sequencedRows, exec (row m f) s = .next s

/-- R22, R23: a port resends its unacknowledged flits up to eight times and then goes down, trains again, and lets what was outstanding on
it fail with status 4; it sends link control at least every microsecond. Training that succeeds starts afresh and returns the receive
buffers, 64, 32, 32 and 16 flits; the fifth failure in a row sets FAIL and ends training. That a restart of training takes a port that is up
down is log 52, and that it clears FAIL at once log 86: both the model's. -/
def Sys2Proof.Claims.PortLife : Prop :=
  ∀ (s : State) (p : Nat), p < 32 →
    let q := s.dev.port p
    let only := fun (i : Instr) (q' : Port) (sent : List Flit) => Completes i s fun t =>
      OnlyPorts s t ∧ OtherPorts s t p ∧ t.dev.port p = q' ∧ t.dev.wire = s.dev.wire ++ sent.map (fun f => (p, f))
    let control := fun (ack : Nat) (owed : List Nat) =>
      ({ kind := 0x30, dst := (lookupKey p s.dev.cabling).getD 0, src := s.dev.node, ackseq := ack, credits := owed, payload := zeros 224 } : Flit)
    (q.ready = true → only (.linkControlKeepalive p) { q with owed := [0, 0, 0, 0], owesAck := false } [control q.ackIn q.owed]) ∧
    (q.ready = true → q.replay ≠ [] → q.resends < 8 →
      only (.replayTimeout p) { q with resends := q.resends + 1, owesAck := false } (q.replay.map (fun f => { f with ackseq := q.ackIn }))) ∧
    (q.ready = true → q.replay ≠ [] → 8 ≤ q.resends → Completes (.portDown p) s fun t =>
      t.dev.port p = { q with ready := false, training := true, replay := [], queue := [], resends := 0, owesAck := false } ∧
      (∀ o ∈ s.dev.outstanding, o.port ≠ p → o ∈ t.dev.outstanding) ∧ (∀ m ∈ s.dev.slotQueue, m.port ≠ p → m ∈ t.dev.slotQueue) ∧
      (s.hart.run ≠ .free → s.dev.slotQueue = [] → (∀ k ∈ s.dev.launches, k.failures = []) →
        (∀ o ∈ s.dev.outstanding, o.port = p → o.owner = .hart s.hart.uid ∧ o.kind = 0) →
        t.dev.outstanding = s.dev.outstanding.filter (fun o => o.port != p) ∧
        ∀ o ∈ s.dev.outstanding, o.port = p → 0 < o.len → ∃ l, l ∈ t.hart.landed ∧ l = .failed o.pa 4)) ∧
    (q.training = true → q.ready = false → q.fails < 5 →
      only (.portTrainingDone p) { q with
        ready := true, training := false, fails := 0, seq := 0, ackIn := 255, replay := [], resends := 0
        credit := [0, 0, 0, 0], owed := [0, 0, 0, 0], owesAck := false } [control 255 [64, 32, 32, 16]]) ∧
    (q.training = true → q.fails < 4 → only (.portTrainingFailed p) { q with fails := q.fails + 1 } []) ∧
    (q.training = true → 4 ≤ q.fails → only (.portTrainingFailed p) { q with fails := q.fails + 1, fail := true, training := false } []) ∧
    (5 ≤ q.fails → only (.portFail p) { q with fail := true, training := false } [] ∧ only (.portTrainingDone p) q [])

/-- R26, R161, R405: a reserved slot begins once a frame, in its own 128 ns of the 16,384 ns that DTIME counts. It carries the oldest message of
its launch that was handed over by its start and can go by its port, unless the hart has unacknowledged class 0 stores to the same node, of earlier strips or of the same
bytes; each flit of it then awaits its acknowledgement. -/
def Sys2Proof.Claims.ScheduledSlots : Prop :=
  ∀ (s : State) (p slot : Nat) (launch : Nat × Nat), p < 32 →
    s.dev.slots.find? (fun x => x.1 == p && x.2.1 == slot) = some (p, slot, launch) →
    let time := s.dev.time.dtime.toNat
    let begins := s.dev.time.counting = true ∧ time % 16384 / 128 = slot ∧ lookupKey (128 * p + slot) s.dev.slotRuns ≠ some (time / 16384)
    let ran := { s with dev := { s.dev with slotRuns := insertKey (128 * p + slot) (time / 16384) s.dev.slotRuns } }
    let found := s.dev.slotQueue.find? (fun y => y.launch == launch && y.since ≤ 16384 * (time / 16384) + 128 * slot && s.dev.carriesTo p y)
    (¬ begins → exec (.scheduledSlotStart p slot) s = .next s) ∧
    (begins → found = none → exec (.scheduledSlotStart p slot) s = .next ran) ∧
    ∀ m, begins → found = some m →
      let behind := fun (o : Outstanding) => o.owner = .hart m.uid ∧ o.kind = 2 ∧ o.cls = 0 ∧ nodeOf o.pa % 4096 = m.node ∧
        (o.strip < m.strip ∨ o.strip = m.strip ∧ ∃ x ∈ m.flits, x.2.pa < o.pa + o.len ∧ o.pa ≤ x.2.pa + x.2.len)
      ((∃ o ∈ s.dev.outstanding, behind o) → exec (.scheduledSlotStart p slot) s = .next ran) ∧
      ((∀ o ∈ s.dev.outstanding, ¬ behind o) → Completes (.scheduledSlotStart p slot) s fun t =>
        t.hart = s.hart ∧ t.dev.mem = s.dev.mem ∧ OtherPorts s t p ∧ t.dev.slotRuns = ran.dev.slotRuns ∧
        (∃ l r, s.dev.slotQueue = l ++ m :: r ∧ t.dev.slotQueue = l ++ r) ∧
        t.dev.outstanding = s.dev.outstanding ++ m.flits.map (fun x =>
          { owner := .hart m.uid, kind := 2, pa := x.2.pa, len := x.2.len + 1, va := x.1, source := 0x04, port := p, cls := 1,
            strip := m.strip, path := .v, so := m.so, launch := m.launch }) ∧
        t.dev.wire.length + (t.dev.port p).queue.length = s.dev.wire.length + (s.dev.port p).queue.length + m.flits.length)

/-! ### Memory messages -/

namespace Sys2Proof.Claims

/-- The atomic operations of R20 by their codes, with the value each leaves. -/
def atomicCodes : List (Nat × ((n : Nat) → BitVec n → BitVec n → BitVec n → BitVec n)) :=
  [(0, fun _ o b _ => o + b), (1, fun _ _ b _ => b), (2, fun _ o b c => if o = c then b else o),
   (3, fun _ o b _ => if o.toInt ≤ b.toInt then o else b), (4, fun _ o b _ => if o ≤ b then o else b),
   (5, fun _ o b _ => if o.toInt ≤ b.toInt then b else o), (6, fun _ o b _ => if o ≤ b then b else o),
   (7, fun _ o b _ => o &&& b), (8, fun _ o b _ => o ||| b), (9, fun _ o b _ => o ^^^ b)]

/-- The request at place `o` of a list is the oldest that an answer meets. -/
def Oldest (l : List Outstanding) (meets : Outstanding → Prop) (before : List Outstanding) (o : Outstanding) (after : List Outstanding) : Prop :=
  l = before ++ o :: after ∧ meets o ∧ ∀ x ∈ before, ¬ meets x

end Sys2Proof.Claims

/-- R20, R13, R15: a read of 1 to 4,096 bytes within 4 KiB of this device's memory is answered with the bytes, at most 224 to a flit, in ascending
order; one granule that is poisoned is answered with status 2, and one that is not populated, a length out of range and another node's
address with status 1. Memory does not change. -/
def Sys2Proof.Claims.ReadsForOtherNodes : Prop :=
  ∀ (s : State) (p : Nat) (f : Flit),
    let n := flitAt f 0 4
    let off := offsetOf f.pa
    let gives := fun (gs : List Flit) => Serves (.readRequest p f) s p f (fun _ => gs) OnlyAccessed
    let good := 1 ≤ n ∧ n ≤ 4096 ∧ f.pa % 4096 + n ≤ 4096 ∧ s.dev.own f.pa = true ∧ off + n ≤ Config.commandBase
    (good → off + n ≤ s.dev.gddr → (∀ i, i < n → s.dev.poisoned (off + i) = false) →
      gives ((List.range ((n + 223) / 224)).map (fun i =>
        let m := min 224 (n - 224 * i)
        { cls := f.cls, kind := 1, pa := f.pa + 224 * i, len := m - 1
          payload := Memory.readBytes s.dev.mem (off + 224 * i) m ++ zeros (224 - m) }))) ∧
    (good → off % 64 + n ≤ 64 →
      (s.dev.gddr ≤ off → gives [statusOf 6 f 1]) ∧
      (off < s.dev.gddr → s.dev.poisoned off = true → gives [statusOf 6 f 2])) ∧
    (n = 0 ∨ 4096 < n ∨ 4096 < f.pa % 4096 + n ∨ s.dev.own f.pa = false → gives [statusOf 6 f 1])

/-- R20, R162, R198, R244: a write that lies in this device's memory is written and acknowledged with status 0, and takes the poison of the
granules it covers whole; any other writes nothing and is acknowledged with status 1. An atomic leaves the value of its operation and is
answered with the value found; on a poisoned granule it is not performed. The first of a group holds its address, and the last gives it up
and lets what waited go on; what must wait does so unanswered. -/
def Sys2Proof.Claims.WritesForOtherNodes : Prop :=
  ∀ (s : State) (p : Nat) (f : Flit), MemoryCanonical s → f.len < 224 → f.payload.length = 224 →
    let off := offsetOf f.pa
    let here := s.dev.own f.pa = true ∧ off + f.len < s.dev.gddr
    (here → Serves (.write p f) s p f (fun _ => [statusOf 3 f 0]) fun u t => OnlyMemory u t ∧
      (∀ a, Memory.read t.dev.mem a = if off ≤ a ∧ a ≤ off + f.len then f.payload.getD (a - off) 0 else Memory.read s.dev.mem a) ∧
      ∀ a, t.dev.poisoned a = true ↔ s.dev.poisoned a = true ∧ ¬ (off ≤ 64 * (a / 64) ∧ 64 * (a / 64) + 63 ≤ off + f.len)) ∧
    (¬ here → Serves (.write p f) s p f (fun _ => [statusOf 3 f 1]) OnlyPorts) ∧
    (let target := fun (op n : Nat) => flitAt f 0 1 = op ∧ flitAt f 1 1 = n / 8 ∧ flitAt f 2 1 ≤ 3 ∧ s.dev.own f.pa = true ∧ f.pa % (n / 8) = 0 ∧
       off < s.dev.gddr
     let answer := fun (st flags v : Nat) => ({ kind := 5, pa := f.pa, len := 15
                                                payload := leBytes 1 st ++ leBytes 1 flags ++ zeros 6 ++ leBytes 8 v ++ zeros 208 } : Flit)
     let groups := fun (u t : State) =>
       let mine := (f.src, f.pa) ∈ u.dev.groupsHeld
       (flitAt f 2 1 = 1 → t.dev.groupsHeld = (f.src, f.pa) :: u.dev.groupsHeld) ∧ (flitAt f 2 1 = 0 → t.dev.groupsHeld = u.dev.groupsHeld) ∧
       (flitAt f 2 1 < 2 ∨ ¬ mine → t.dev.deferred = u.dev.deferred ∧ t.dev.released = u.dev.released ∧ t.dev.agenda = u.dev.agenda) ∧
       (2 ≤ flitAt f 2 1 → (∀ g, g ∈ t.dev.groupsHeld ↔ g ∈ u.dev.groupsHeld ∧ g ≠ (f.src, f.pa)) ∧
         (mine → t.dev.deferred = [] ∧ t.dev.released = u.dev.released ++ u.dev.deferred ∧
           t.dev.agenda = u.dev.deferred.map (fun x => .flit x.1 (flitBytes x.2)) ++ u.dev.agenda))
     (∀ m ∈ atomicCodes, ∀ wide : Bool,
       let n := if wide then 64 else 32
       let old := Held s.dev.mem off n
       target m.1 n →
       (s.dev.poisoned off = false → Serves (.atomicRequest p f) s p f (fun _ => [answer 0 0 old.toNat]) fun u t => OnlyAtomic u t ∧ groups u t ∧
         Written s.dev.mem t.dev.mem off (m.2 n old (BitVec.ofNat n (flitAt f 8 8)) (BitVec.ofNat n (flitAt f 16 8)))) ∧
       (s.dev.poisoned off = true → Serves (.atomicRequest p f) s p f (fun _ => [answer 2 0 0]) fun u t =>
         OnlyAtomic u t ∧ groups u t ∧ t.dev.mem = s.dev.mem)) ∧
     (∀ wide : Bool,
       let n := if wide then 64 else 32
       let old := Held s.dev.mem off n
       let sum := fpAdd (if wide then .fp64 else .fp32) (flitAt f 3 1) old.toNat (flitAt f 8 8 % 2 ^ n)
       target 10 n → s.dev.poisoned off = false → Serves (.atomicRequest p f) s p f (fun _ => [answer 0 sum.2.toNat old.toNat]) fun u t =>
         OnlyAtomic u t ∧ groups u t ∧ Written s.dev.mem t.dev.mem off (BitVec.ofNat n sum.1))) ∧
    (p < 32 → (s.dev.port p).ready = true → f.seq = ((s.dev.port p).ackIn + 1) % 256 → (p, f) ∉ s.dev.released → ¬ Free s f →
      ∀ i ∈ [Instr.write p f, .atomicRequest p f, .readRequest p f], Completes i s fun t =>
        let u := Received s p f
        Answers u t p f [] ∧ t = { u with dev := { u.dev with
          deferred := u.dev.deferred ++ [(p, f)], ports := t.dev.ports, wire := t.dev.wire } })

/-- R20, R163, R195, R219, R238: what an answer brings to the hart that asked. Data and statuses of reads and atomics land with it, the flags of
an FP add are merged into FSTAT, and a write that is acknowledged awaits nothing more; one that failed makes a report when nothing of its
strip is on its way, or lands with a hart that waits for it. -/
def Sys2Proof.Claims.AnswersFromOtherNodes : Prop :=
  ∀ (s : State) (p : Nat) (f : Flit) (l r : List Outstanding) (o : Outstanding), Comes s p f → s.hart.run ≠ .free →
    o.owner = .hart s.hart.uid →
    let meets := fun (kind : Nat) (x : Outstanding) => x.kind = kind ∧ x.cls = f.cls ∧ x.pa = f.pa
    let clean := ∀ l ∈ s.dev.launches, l.failures = []
    (Oldest s.dev.outstanding (fun x => meets 0 x ∧ f.len < x.len) l o r → Completes (.readResponse p f) s fun t =>
      t.hart = { s.hart with landed := s.hart.landed ++ (f.payload.take (f.len + 1)).zipIdx.map (fun x => .byte (f.pa + x.2) x.1) } ∧
      t.dev.outstanding = l ++ (if o.len = f.len + 1 then [] else [{ o with pa := f.pa + (f.len + 1), len := o.len - (f.len + 1) }]) ++ r) ∧
    (Oldest s.dev.outstanding (meets 0) l o r → 0 < o.len → Completes (.readStatus p f) s fun t =>
      let n := min o.len (64 - f.pa % 64)
      t.hart = { s.hart with landed := s.hart.landed ++ [.failed f.pa (flitAt f 0 1)] } ∧
      t.dev.outstanding = l ++ (if o.len = n then [] else [{ o with pa := f.pa + n, len := o.len - n }]) ++ r) ∧
    (Oldest s.dev.outstanding (meets 2) l o r →
      (flitAt f 0 1 = 0 → clean → Completes (.writeAcknowledgement p f) s fun t => t.hart = s.hart ∧ t.dev.outstanding = l ++ r ∧
        t.dev.launches = s.dev.launches) ∧
      (flitAt f 0 1 ≠ 0 → o.source = 0 → clean → Completes (.writeAcknowledgement p f) s fun t =>
        t.hart = { s.hart with landed := s.hart.landed ++ [.failed o.pa 1] } ∧ t.dev.outstanding = l ++ r) ∧
      (∀ k, flitAt f 0 1 ≠ 0 → s.dev.launch o.launch = some k → k.failures = [] → k.reported = [] → 0 < o.source → o.source < 5 →
        s.hart.aerr.held = none → (∀ a ∈ s.dev.saved, a.hart.uid ≠ s.hart.uid) →
        (∀ e ∈ s.hart.ended, e.strip.serial = o.strip → e.strip.stores = []) → (∀ h ∈ s.dev.closing, h.uid ≠ s.hart.uid) →
        (∀ x ∈ l ++ r, ¬ (x.owner = o.owner ∧ x.strip = o.strip ∧ x.source = o.source)) →
        Completes (.writeAcknowledgement p f) s fun t =>
          t.hart = { s.hart with aerr := { s.hart.aerr with
            held := some (BitVec.ofNat 64 (o.source * 2 ^ 56 + 0x03 * 2 ^ 48 + o.va % 2 ^ 32)) } })) ∧
    (Oldest s.dev.outstanding (meets 4) l o r →
      (o.source ≠ 0x05 → Completes (.atomicResponse p f) s fun t => t.dev.outstanding = l ++ r ∧
        t.hart = { s.hart with landed := s.hart.landed ++ [.atomic o.elem (flitAt f 0 1) (BitVec.ofNat 64 (flitAt f 8 8))] }) ∧
      (o.source = 0x05 → flitAt f 0 1 = 0 → clean → Completes (.atomicResponse p f) s fun t => t.dev.outstanding = l ++ r ∧
        t.hart = { s.hart with fstat := s.hart.fstat ||| BitVec.ofNat 5 (flitAt f 1 1) }))

/-! ### Management, time, heat, start-up -/

namespace Sys2Proof.Claims

/-- The answer to a management message in parts of at most 208 bytes (R21). -/
def managementReply (f : Flit) (status : Nat) (data : List Byte) : List Flit :=
  (List.range (max 1 ((data.length + 207) / 208))).map (fun i =>
    let m := min 208 (data.length - 208 * i)
    { cls := 2, kind := 0x12, len := 15 + m
      payload := leBytes 1 (flitAt f 0 1 + 0x80) ++ leBytes 1 status ++ leBytes 2 (flitAt f 2 2) ++ leBytes 4 (flitAt f 4 4) ++
        leBytes 2 m ++ leBytes 2 i ++ leBytes 4 data.length ++ (data.drop (208 * i)).take m ++ zeros (208 - m) })

/-- READYSUM (R35). -/
def ReadySum (s : State) (v : Nat) : Prop :=
  let g := s.dev.gmc
  let ready := fun w => (∀ i, i < 16 → g.readyCourse.getLsbD (16 * w + i) = true) ∧ (∀ i, i < 256 → g.readyBrick.getLsbD (256 * w + i) = true) ∧
    (∀ i, i < 32 → g.readyChan.getLsbD (32 * w + i) = true) ∧ ∀ i, i < 8 → (s.dev.port (8 * w + i)).ready = true
  let failed := fun w => (∃ i, i < 16 ∧ g.failCourse.getLsbD (16 * w + i) = true) ∨ (∃ i, i < 256 ∧ g.failBrick.getLsbD (256 * w + i) = true) ∨
    (∃ i, i < 32 ∧ g.failChan.getLsbD (32 * w + i) = true) ∨ ∃ i, i < 8 ∧ (s.dev.port (8 * w + i)).fail = true
  v < 2 ^ 28 ∧ v % 2 ^ 15 = 0 ∧ v.testBit 27 = g.verified ∧ v.testBit 26 = s.dev.time.counting ∧ v.testBit 25 = s.dev.time.locked ∧
  (v.testBit 24 = true ↔ ∀ c, c < 128 → g.readyChan.getLsbD c = true) ∧ v.testBit 15 = g.schedRunning ∧
  ∀ w, w < 4 → (v.testBit (20 + w) = true ↔ ready w) ∧ (v.testBit (16 + w) = true ↔ failed w)

/-- The ready or fail bits of the ports (R35). -/
def PortBits (s : State) (b : Port → Bool) (v : Nat) : Prop := v < 2 ^ 32 ∧ ∀ p, p < 32 → v.testBit p = b (s.dev.port p)

/-- The management registers of fixed contents, with their addresses (R21). -/
def managementSpace (s : State) : List (Nat × List Byte) :=
  let g := s.dev.gmc
  [(0x0000, leBytes 128 g.readyBrick.toNat), (0x0080, leBytes 128 g.failBrick.toNat), (0x0100, leBytes 8 g.readyCourse.toNat),
   (0x0108, leBytes 8 g.failCourse.toNat), (0x0110, leBytes 16 g.readyChan.toNat), (0x0120, leBytes 16 g.failChan.toNat),
   (0x0140, leBytes 8 s.dev.gddr), (0x0200, leBytes 4 g.thold), (0x0210, leBytes 1 s.dev.time.grandmaster.toNat),
   (0x0220, leBytes 2 g.minGmc ++ leBytes 2 g.minSched), (0x0240, leBytes 8 g.corrected), (0x1000, g.group)]

/-- A flit of time goes by its port, or by the one that earlier flits of class 3 to the same node have yet to leave (R24). -/
def sendsTime (p : Nat) (d : Device) (g : Flit) : Device := d.transmit ((d.follows 3 g.dst).getD p) g

/-- Flits of time have gone by the port. -/
def Sends (u t : State) (p : Nat) (gs : List Flit) : Prop :=
  let d := gs.foldl (sendsTime p) u.dev
  t.dev.ports = d.ports ∧ t.dev.wire = d.wire ∧ t = { u with dev := { u.dev with fresh := t.dev.fresh, ports := t.dev.ports, wire := t.dev.wire } }

/-- A time message of a kind to the other end of the cable; what it carries is IEEE 1588's and open here. -/
def IsTime (s : State) (p kind : Nat) (g : Flit) : Prop := g.cls = 3 ∧ g.kind = kind ∧ g.dst = (lookupKey p s.dev.cabling).getD 0

/-- The time function after a Sync interval: a grandmaster is within range of itself, another device counts an interval without a Sync, and
the sixteenth in range locks and the eighth missed one unlocks (R30, R31). -/
def Counted (t : TimeFn) : TimeFn :=
  if t.counting = false then t
  else if t.acting = true then
    { t with missed := 0, outside := false, inRange := t.inRange + 1, locked := t.locked || decide (16 ≤ t.inRange + 1) }
  else if t.locked = true then
    (if 8 ≤ t.missed + 1 ∨ t.outside = true then { t with missed := t.missed + 1, inRange := 0, locked := false }
     else { t with missed := t.missed + 1 })
  else { t with missed := t.missed + 1, inRange := 0 }

/-- A bit of a set of units is set and the others are as they were. -/
def SetsBit {n : Nat} (v v' : BitVec n) (i : Nat) : Prop := ∀ j, j < n → v'.getLsbD j = (v.getLsbD j || decide (j = i))

end Sys2Proof.Claims

/-- R21, R35, R39: a management read of a register answers with its bytes in parts of 208; an address that is none has status 1, and a length out
of range, or address 0x230, status 2. A nonce of 16 to 64 bytes is answered with the report of R39, signed. -/
def Sys2Proof.Claims.ManagementReads : Prop :=
  ∀ (s : State) (p : Nat) (f : Flit), f.payload.length = 224 → s.dev.gmc.group.length = 130 →
    let a := flitAt f 4 4
    let n := flitAt f 12 4
    let gives := fun (i : Nat → Flit → Instr) (st : Nat) (data : List Byte) => Serves (i p f) s p f (fun _ => managementReply f st data) OnlyPorts
    (flitAt f 0 1 = 1 →
      (∀ m ∈ managementSpace s, a = m.1 → n = m.2.length → gives .gmcManagementRead 0 m.2) ∧
      (a = 0x138 → n = 4 → ∃ v, ReadySum s v ∧ gives .gmcManagementRead 0 (leBytes 4 v)) ∧
      (a = 0x130 → n = 4 → ∃ v, PortBits s (·.ready) v ∧ gives .gmcManagementRead 0 (leBytes 4 v)) ∧
      (a = 0x134 → n = 4 → ∃ v, PortBits s (·.fail) v ∧ gives .gmcManagementRead 0 (leBytes 4 v)) ∧
      (n = 0 ∨ 65536 < n ∨ a = 0x230 → gives .gmcManagementRead 2 []) ∧
      (0x300 ≤ a → a < 0x1000 → 1 ≤ n → n ≤ 65536 → gives .gmcManagementRead 1 [])) ∧
    let k := flitAt f 8 2
    (a = 0 → 16 ≤ k → k ≤ 64 → ∃ sum digests v1 v2 signatures, ReadySum s sum ∧ digests.length = 96 ∧ signatures.length = 16608 ∧
      gives .attestationRequest 0 (leBytes 2 16788 ++ leBytes 1 k ++ [0] ++ (f.payload.drop 16).take k ++ zeros (64 - k) ++
        leBytes 8 s.dev.time.dtime.toNat ++ digests ++ leBytes 2 v1 ++ leBytes 2 v2 ++ leBytes 4 sum ++ signatures)) ∧
    (k < 16 ∨ 64 < k → gives .attestationRequest 2 [])

/-- R21, R38, R144, R23, R37: THOLD takes 100 to 10,000 µs, the fused minima only rise, the collective group takes a count of at most 64,
one bit makes the device a grandmaster, and a bit for each port starts its training again. Any other value is refused with status 2, and so
is every write but that of the minima in recovery mode. That a part of the collective group may be written (log 85), that a restart takes a
port that is up down (log 52) and clears FAIL at once (log 86) are the model's. -/
def Sys2Proof.Claims.ManagementWrites : Prop :=
  ∀ (s : State) (p : Nat) (f : Flit), f.payload.length = 224 → s.dev.gmc.group.length = 130 →
    let a := flitAt f 4 4
    let n := flitAt f 8 2
    let v := flitAt f 16 4
    let g := s.dev.gmc
    let gives := fun (i : Nat → Flit → Instr) (st : Nat) (P : State → State → Prop) => Serves (i p f) s p f (fun _ => managementReply f st []) P
    let sets := fun (u t : State) (x : Gmc) => t = { u with dev := { u.dev with gmc := x, ports := t.dev.ports, wire := t.dev.wire } }
    (g.recovery = false →
      (a = 0x200 → n = 4 → 100 ≤ v → v ≤ 10000 → gives .gmcWriteThold 0 fun u t => sets u t { g with thold := v }) ∧
      (a ≠ 0x200 ∨ n ≠ 4 ∨ v < 100 ∨ 10000 < v → gives .gmcWriteThold 2 OnlyPorts) ∧
      (0x1000 ≤ a → a + n ≤ 0x1082 → 1 ≤ n →
        let new := g.group.take (a - 0x1000) ++ (f.payload.drop 16).take n ++ g.group.drop (a - 0x1000 + n)
        (value (new.take 2) ≤ 64 → gives .gmcManagementWrite 0 fun u t => sets u t { g with group := new }) ∧
        (64 < value (new.take 2) → gives .gmcManagementWrite 2 OnlyPorts)) ∧
      (a = 0x210 → n = 1 → gives .gmcWriteGrandmaster 0 fun u t =>
        let on := v.testBit 0
        t.dev.time.grandmaster = on ∧ t.dev.time.acting = on ∧ t.dev.time.counting = (u.dev.time.counting || on) ∧
        (u.dev.time.counting = true ∨ on = false → t.dev.time.dtime = u.dev.time.dtime) ∧ t.dev.gmc = g ∧ t.dev.mem = u.dev.mem ∧ t.hart = u.hart) ∧
      (a = 0x230 → n = 4 → Comes s p f → Completes (.gmcRestartTraining p f) s fun t => ∀ m, m < 32 →
        let q := t.dev.port m
        (v.testBit m = true → (s.dev.port m).broken = false → q.training = true ∧ q.ready = false ∧ q.fail = false ∧ q.fails = 0) ∧
        (v.testBit m = false ∨ (s.dev.port m).broken = true →
          q.training = (s.dev.port m).training ∧ q.ready = (s.dev.port m).ready ∧ q.fail = (s.dev.port m).fail))) ∧
    (a = 0x220 → n = 4 → gives .gmcWriteMinSecurity 0 fun u t =>
      sets u t { g with minGmc := max g.minGmc (v % 2 ^ 16), minSched := max g.minSched (v / 2 ^ 16) }) ∧
    (g.recovery = true → a ≠ 0x220 → gives .gmcWriteThold 2 OnlyPorts ∧ gives .gmcWriteGrandmaster 2 OnlyPorts ∧
      gives .gmcManagementWrite 2 OnlyPorts ∧ gives .gmcRestartTraining 2 OnlyPorts)

/-- R29, R30, R31: the first Sync after reset sets DTIME and lets it count, and no later one steps it; Pdelay_Req is answered with Pdelay_Resp and its
follow-up; only a device that may be grandmaster acts as one, and it sends Sync, Follow_Up and Announce at their intervals. Lock comes with
16 Sync intervals in range and goes with eight intervals without Sync or an offset out of range; a grandmaster is in range of itself. How the
messages steer the rate is open. -/
def Obligations.PrecisionTime : Prop :=
  ∀ (s : State) (p : Nat) (f : Flit),
    let time := fun (s : State) => s.dev.time
    let now := s.dev.time
    let kept := fun (u t : State) => t.hart = u.hart ∧ t.dev.mem = u.dev.mem ∧ t.dev.gmc = u.dev.gmc
    let counted := if p = now.port then { s with dev := { s.dev with time := Counted now } } else s
    let judged := fun (x : TimeFn) => ∀ i ∈ [Instr.timeLockGained, .timeLockLost], exec i s = .next { s with dev := { s.dev with time := x } }
    (Takes (.sync p f) s p f fun u t => kept u t ∧ (time t).counting = true ∧
      ((time u).counting = true → (time t).dtime = (time u).dtime) ∧ (time t).port = p ∧ (time t).missed = 0 ∧
      ((time t).inRange = (time u).inRange + 1 ∧ (time t).outside = false ∧
          (time t).locked = ((time u).locked || decide (16 ≤ (time u).inRange + 1)) ∨
        (time t).inRange = 0 ∧ (time t).outside = true ∧ (time t).locked = false)) ∧
    (Serves (.followUp p f) s p f (fun _ => []) OnlyPorts ∧ Serves (.pdelayResp p f) s p f (fun _ => []) OnlyPorts ∧
      Serves (.pdelayRespFollowUp p f) s p f (fun _ => []) OnlyPorts) ∧
    (Takes (.pdelayReq p f) s p f fun u t => kept u t ∧ t.dev.time = u.dev.time ∧ ∃ a b, IsTime s p 0x23 a ∧ IsTime s p 0x24 b ∧
      let d := ([a, b].foldl (sendsTime p) u.dev).payDebts p
      t.dev.ports = d.ports ∧ t.dev.wire = d.wire) ∧
    (Takes (.announce p f) s p f fun u t => kept u t ∧ (time t).grandmaster = (time u).grandmaster ∧
      ((time t).acting = true → (time u).grandmaster = true) ∧ (time t).dtime = (time u).dtime ∧ (time t).locked = (time u).locked) ∧
    ((s.dev.port p).ready = true →
      (now.acting = true → (∃ a b, IsTime s p 0x20 a ∧ IsTime s p 0x21 b ∧ Completes (.syncInterval p) s fun t => Sends counted t p [a, b]) ∧
        ∃ a, IsTime s p 0x25 a ∧ Completes (.announceInterval p) s fun t => Sends s t p [a]) ∧
      ∃ a, IsTime s p 0x22 a ∧ Completes (.pdelayInterval p) s fun t => Sends s t p [a]) ∧
    ((s.dev.port p).ready = false → exec (.pdelayInterval p) s = .next s) ∧
    (now.acting = false ∨ (s.dev.port p).ready = false → exec (.announceInterval p) s = .next s ∧ exec (.syncInterval p) s = .next counted) ∧
    (now.locked = true → 8 ≤ now.missed ∨ now.outside = true → judged { now with locked := false, inRange := 0 }) ∧
    (now.locked = false ∨ now.missed < 8 ∧ now.outside = false →
      (now.counting = true → 16 ≤ now.inRange → judged { now with locked := true }) ∧
      (now.counting = false ∨ now.inRange < 16 → judged now))

/-- R32, R144, R145, R21: at 100 °C a device tells its collective group of a hold that is effective 2,000 ns later and lasts THOLD, and it and every
receiver keep their bricks in gear 0 meanwhile; a notice during a hold extends it to the later end, and one that comes late takes effect on
arrival. A hold that its sender still needs goes on. At the limit nothing is dispatched until the die has cooled. -/
def Sys2Proof.Claims.ThrottleHolds : Prop :=
  ∀ (s : State) (p : Nat) (f : Flit), s.hart.run = .running →
    let now := s.dev.time.dtime.toNat
    let th := s.dev.thermal
    let eff := now + 2000
    let stop := eff + 1000 * s.dev.gmc.thold
    let slow := fun (t : State) => t.brick.change = none → t.brick.gear = false
    let bytes := leBytes 2 s.dev.node ++ zeros 6 ++ leBytes 8 eff ++ leBytes 4 s.dev.gmc.thold ++ zeros 204
    let flit := fun (n : Nat) => ({ cls := 2, kind := 0x11, dst := n, len := 23, payload := bytes } : Flit)
    let mates := ((List.range (min 64 (part s.dev.gmc.group 0 2))).map (fun i => part s.dev.gmc.group (2 + 2 * i) 2 % 4096)).filter (· != s.dev.node)
    let tells := fun (t : State) =>
      let d := mates.foldl (fun d n => (d.send (flit n)).2) s.dev
      t.dev.ports = d.ports ∧ t.dev.wire = d.wire ∧ t.dev.thermal.mine = true
    (th.warm = false → Completes .thermalWarning s fun t => tells t ∧ t.hart = s.hart ∧ t.dev.mem = s.dev.mem ∧
      (th.hold = none → t.dev.thermal = { th with warm := true, mine := true, pending := th.pending ++ [(eff, stop)] }) ∧
      ∀ e, th.hold = some e → t.dev.thermal = { th with warm := true, mine := true, hold := some (max stop e) }) ∧
    (th.warm = true → exec .thermalWarning s = .next s) ∧ (th.warm = false → exec .thermalLimit s = .next s) ∧
    (th.warm = true → exec .thermalLimit s = .next { s with dev := { s.dev with thermal := { th with limit := true } } }) ∧
    exec .thermalRecovery s = .next { s with dev := { s.dev with thermal := { th with warm := false, limit := false } } } ∧
    (∀ b e l r, th.pending = l ++ (b, e) :: r → b ≤ now → (∀ x ∈ l ++ r, now < x.1) → now < e → th.hold = none →
      Completes .throttleHoldStart s fun t => t.dev.thermal = { th with pending := l ++ r, hold := some e } ∧ slow t ∧ t.hart = s.hart) ∧
    (∀ e, th.hold = some e →
      (now < e → exec .throttleHoldEnd s = .next s) ∧
      (e ≤ now → th.warm = true → th.mine = true → Completes .throttleHoldEnd s fun t => tells t ∧
        t.dev.thermal = { th with hold := some (max stop e) }) ∧
      (e ≤ now → th.warm = false ∨ th.mine = false → Completes .throttleHoldEnd s fun t =>
        t.dev.thermal = { th with hold := none, mine := false } ∧ Regeared s t)) ∧
    (let from' := flitAt f 8 8
     let us := flitAt f 16 4
     let e := from' + 1000 * us
     (100 ≤ us → us ≤ 10000 → Takes (.throttleNotice p f) s p f fun _ t => t.hart = s.hart ∧ t.dev.mem = s.dev.mem ∧
       (th.hold = none → now < from' → t.dev.thermal = { th with pending := th.pending ++ [(from', e)] }) ∧
       (th.hold = none → from' ≤ now → now < e → t.dev.thermal = { th with hold := some e } ∧ slow t) ∧
       (∀ e', th.hold = some e' → now < e → t.dev.thermal = { th with hold := some (max e e') })) ∧
     (us < 100 ∨ 10000 < us → Comes s p f → Completes (.throttleNotice p f) s fun t =>
       OnlyPorts s t ∧ t.dev.port p = { s.dev.port p with errors := (s.dev.port p).errors + 1 }))

/-- R135, R137, R147, R59: when a changeover ends the brick has the gear it changed to, and changes again if another is wanted by then. A metering
interval adds what it measures, which is open, to the hart's account, its tenant's and the device's; what the engines do for a hart that has
ended is added to its launch. -/
def Sys2Proof.Claims.ChangeoversAndEnergy : Prop :=
  ∀ (s : State), s.hart.run = .running →
    (∀ g, s.brick.change = some g → Completes (.changeoverEnd s.hart.brick) s fun t => t.hart = s.hart ∧
      t.dev = { s.dev with bricks := t.dev.bricks } ∧
      ∀ w, Wants t w → t.brick = { s.brick with gear := g, change := if w = g then none else some w }) ∧
    (s.brick.change = none → exec (.changeoverEnd s.hart.brick) s = .next s) ∧
    (s.dev.parked = [] → s.dev.saved = [] → ∀ j : CopyJob, j.uid ≠ s.hart.uid →
      (∀ c ∈ s.dev.courses, c.2.copies = [j] ∧ c.2.merges = [] ∧ c.2.mcasts = []) → s.dev.courses ≠ [] →
      ∃ a b c : Nat, Completes .energyInterval s fun t =>
        t.hart = { s.hart with energy := s.hart.energy + BitVec.ofNat 48 a } ∧ t.dev.devEnergy = s.dev.devEnergy + BitVec.ofNat 64 c ∧
        t.dev.launches = s.dev.launches.map (fun l => if (l.queue, l.seq) = j.launch then { l with energy := l.energy + b } else l)) ∧
    (s.dev.parked = [] → s.dev.saved = [] → s.dev.courses = [] → ∃ a b : Nat, Completes .energyInterval s fun t =>
      t.hart = { s.hart with energy := s.hart.energy + BitVec.ofNat 48 a } ∧
      (∀ v, t.dev.tenant v = if v = s.hart.vmid then { s.dev.tenant v with energy := (s.dev.tenant v).energy + BitVec.ofNat 64 a }
        else s.dev.tenant v) ∧ t.dev.devEnergy = s.dev.devEnergy + BitVec.ofNat 64 b ∧
      t.dev = { s.dev with fresh := t.dev.fresh, tenants := t.dev.tenants, devEnergy := t.dev.devEnergy })

/-- R34, R36, R37, R38: a device reset leaves memory, poison and fuses, stops every hart and forgets every launch, and the scheduler runs
only when both images verify and are not below the fused minima; else the device is in recovery and no brick starts. Units start one at a
time, wythe by wythe: 16 times a course's engines and its 16 bricks, then 16 channel pairs, then eight ports. A unit sets its ready bit or
its fail bit. That a reset leaves memory, poison, fuses and the node number is log 14, the model's choice. -/
def Sys2Proof.Claims.BringUp : Prop :=
  ∀ (s : State),
    (Completes .reset s fun t => t.hart = {} ∧ t.dev.parked = [] ∧ t.dev.saved = [] ∧ t.dev.launches = [] ∧ t.dev.queues = [] ∧ t.dev.time = {} ∧
      t.dev.mem = s.dev.mem ∧ t.dev.poison = s.dev.poison ∧ t.dev.node = s.dev.node ∧ t.dev.gddr = s.dev.gddr ∧
      t.dev.ports = Vector.replicate 32 {} ∧
      let g := t.dev.gmc
      g.minGmc = s.dev.gmc.minGmc ∧ g.minSched = s.dev.gmc.minSched ∧ g.recovery = !g.verified ∧ g.schedRunning = g.verified ∧
      (g.verified = true → g.minGmc ≤ Config.gmcVersion g.image % 2 ^ 16 ∧ g.minSched ≤ Config.schedVersion g.image % 2 ^ 16) ∧
      g.readyBrick = 0 ∧ g.readyCourse = 0 ∧ g.readyChan = 0 ∧ g.failBrick = 0 ∧ g.startedUnits = 0 ∧ g.thold = 1000) ∧
    let g := s.dev.gmc
    let k := g.startedUnits
    let passedOver := fun j => g.recovery = true ∧ j % 296 < 272 ∧ j % 296 % 17 ≠ 0
    (g.verified = false → g.recovery = false → exec .unitStart s = .next s) ∧
    (∀ m, g.verified = true ∨ g.recovery = true → k ≤ m → ¬ passedOver m → (∀ j, k ≤ j → j < m → passedOver j) →
      (1184 ≤ m → exec .unitStart s = .next s) ∧
      (m < 1184 → Completes .unitStart s fun t =>
        t = { s with dev := { s.dev with gmc := { g with startedUnits := m + 1 }, ports := t.dev.ports } } ∧
        ∀ p, p < 32 → t.dev.port p = if m = 296 * (p / 8) + 288 + p % 8 then { s.dev.port p with training := true } else s.dev.port p)) ∧
    (∀ c, c < 64 → 296 * (c / 16) + 17 * (c % 16) < k → g.readyCourse.getLsbD c = false → g.failCourse.getLsbD c = false →
      (Completes (.unitReady (.course c)) s fun t => SetsBit g.readyCourse t.dev.gmc.readyCourse c ∧
        t = { s with dev := { s.dev with gmc := { g with readyCourse := t.dev.gmc.readyCourse } } }) ∧
      (Completes (.unitSelfTestFail (.course c)) s fun t => SetsBit g.failCourse t.dev.gmc.failCourse c ∧
        t = { s with dev := { s.dev with gmc := { g with failCourse := t.dev.gmc.failCourse } } })) ∧
    (∀ b, b < 1024 → 296 * (b / 256) + 17 * (b / 16 % 16) + 1 + b % 16 < k → g.readyBrick.getLsbD b = false → g.failBrick.getLsbD b = false →
      g.recovery = false →
      (Completes (.unitReady (.brick b)) s fun t => SetsBit g.readyBrick t.dev.gmc.readyBrick b ∧
        t = { s with dev := { s.dev with gmc := { g with readyBrick := t.dev.gmc.readyBrick } } }) ∧
      (Completes (.unitSelfTestFail (.brick b)) s fun t => SetsBit g.failBrick t.dev.gmc.failBrick b ∧
        t = { s with dev := { s.dev with gmc := { g with failBrick := t.dev.gmc.failBrick } } })) ∧
    (∀ c, c < 128 → 296 * (c / 32) + 272 + c % 32 / 2 < k → g.readyChan.getLsbD c = false → g.failChan.getLsbD c = false →
      (Completes (.unitReady (.chan c)) s fun t => SetsBit g.readyChan t.dev.gmc.readyChan c ∧
        t = { s with dev := { s.dev with gmc := { g with readyChan := t.dev.gmc.readyChan } } }) ∧
      (Completes (.unitSelfTestFail (.chan c)) s fun t => SetsBit g.failChan t.dev.gmc.failChan c ∧
        t = { s with dev := { s.dev with gmc := { g with failChan := t.dev.gmc.failChan } } })) ∧
    (∀ b, b < 1024 → g.recovery = true →
      exec (.unitReady (.brick b)) s = .next s ∧ exec (.unitSelfTestFail (.brick b)) s = .next s) ∧
    (∀ p, p < 32 → 296 * (p / 8) + 288 + p % 8 < k → (s.dev.port p).ready = false → (s.dev.port p).fail = false →
      (s.dev.port p).training = true → (s.dev.port p).fails < 5 →
      (Completes (.unitReady (.port p)) s fun t => OnlyPorts s t ∧ OtherPorts s t p ∧ (t.dev.port p).ready = true ∧ (t.dev.port p).training = false) ∧
      (Completes (.unitSelfTestFail (.port p)) s fun t => OnlyPorts s t ∧ OtherPorts s t p ∧
        t.dev.port p = { s.dev.port p with fail := true, training := false, broken := true }))

/-- R15, R245, R108, R109, R126: the patrol scrub corrects what can be corrected and counts it, and poisons and logs a granule with an uncorrectable
error; memory keeps its bytes. A lane group that is retired takes no more work: its reuse entries go, the error is logged, and the hart that
holds it stops for its save. An idle lane group enters retention. -/
def Sys2Proof.Claims.StorageErrors : Prop :=
  ∀ (s : State) (n lg : Nat),
    (64 * n < s.dev.gddr → Completes (.patrolScrub n) s fun t => t.hart = s.hart ∧ t.dev.mem = s.dev.mem ∧
      t.dev.latent = s.dev.latent.filter (fun l => l.1 != n) ∧
      t.dev.gmc.corrected = s.dev.gmc.corrected + s.dev.latent.count (n, true) ∧
      (∀ g, g ∈ t.dev.poison ↔ g ∈ s.dev.poison ∨ g = n ∧ (n, false) ∈ s.dev.latent) ∧
      ((n, false) ∉ s.dev.latent → t.dev.gmc.log = s.dev.gmc.log) ∧
      ((n, false) ∈ s.dev.latent → s.dev.gmc.log.length < 1024 → ∃ code : Byte, t.dev.gmc.log = s.dev.gmc.log ++
        [code :: zeros 7 ++ leBytes 8 (64 * n) ++ leBytes 8 s.dev.time.dtime.toNat ++ zeros 8])) ∧
    (lg < 4 → s.brick.retired.getLsbD lg = false → s.hart.run = .running → s.dev.parked = [] → Completes (.laneGroupRetire s.hart.brick lg) s fun t =>
      (∀ i, i < 4 → t.brick.retired.getLsbD i = (s.brick.retired.getLsbD i || decide (i = lg))) ∧
      t.brick.reuse = s.brick.reuse.filter (fun e => !(e.key.lgset.getLsbD lg)) ∧ t.dev.mem = s.dev.mem ∧
      (s.dev.gmc.log.length < 1024 → ∃ code : Byte, t.dev.gmc.log = s.dev.gmc.log ++
        [code :: 0 :: leBytes 2 s.hart.brick ++ leBytes 2 (8 * lg) ++ zeros 10 ++ leBytes 8 s.dev.time.dtime.toNat ++ zeros 8]) ∧
      t.hart = { s.hart with run := if s.hart.holds.getLsbD lg = true then .retiring (1#4 <<< lg) else .running }) ∧
    (lg < 4 → (∀ h ∈ s.harts, h.brick = n → h.bound.getLsbD lg = true → h.inflight = []) → Completes (.retentionEnter n lg) s fun t =>
      t.hart = s.hart ∧ t.dev = { s.dev with bricks := t.dev.bricks } ∧
      (t.dev.brick n).retention = (s.dev.brick n).retention ||| 1#4 <<< lg)

/-! ### The host's windows -/

namespace Sys2Proof.Claims

/-- A write flit of class 0 for offset r of window v, under a VMID that may use it (R40, R41). -/
structure ForWindow (s : State) (f : Flit) (v r : Nat) : Prop where
  range : v < 64 ∧ r < 2 ^ 32
  own : s.dev.own f.pa = true
  place : offsetOf f.pa = Config.commandBase + v * 2 ^ 32 + r
  cls : f.cls = 0
  vmid : f.vmid = 0 ∨ f.vmid = v
  payload : f.payload.length = 224

/-- Such a write of the 8 bytes w. -/
def PutsWord (s : State) (f : Flit) (v r : Nat) (w : Word) : Prop := ForWindow s f v r ∧ f.len = 7 ∧ w = BitVec.ofNat 64 (part f.payload 0 8)

/-- The rows of register writes. -/
noncomputable def windowRows : List (Nat → Flit → Instr) :=
  [.windowRegisterWrite, .queueEnable, .queueDisable, .qtailWrite, .ctxentWrite, .evcfgWrite, .evconsWrite, .schedHold, .schedRelease,
   .schedFlush, .tlbinvAll, .tlbinvPage]

/-- A row takes a flit as a write that is done. -/
def Accepts (i : Nat → Flit → Instr) (s : State) (p : Nat) (f : Flit) (P : State → State → Prop) : Prop :=
  Serves (i p f) s p f (fun _ => [statusOf 3 f 0]) P

/-- Nothing has changed but the ports and one tenant, queue or the scheduler's registers. -/
def SetsTenant (u t : State) (v : Nat) (x : Tenant) : Prop :=
  t = { u with dev := { u.dev with tenants := t.dev.tenants, ports := t.dev.ports, wire := t.dev.wire } } ∧
  ∀ y, t.dev.tenant y = if y = v then x else u.dev.tenant y
def SetsQueue (u t : State) (q : Nat) (x : Queue) : Prop :=
  t = { u with dev := { u.dev with queues := t.dev.queues, ports := t.dev.ports, wire := t.dev.wire } } ∧
  ∀ y, t.dev.queue y = if y = q then x else u.dev.queue y
def SetsSched (u t : State) (x : SchedRegs) : Prop :=
  t = { u with dev := { u.dev with sched := x, ports := t.dev.ports, wire := t.dev.wire } }

/-- Address bits [51:16] of a written value. -/
def base52 (w : Word) : Word := w &&& 0x000FFFFFFFFF0000#64

/-- A ring's address lies in this device's memory. -/
def RingHere (s : State) (base : Nat) : Prop := s.dev.own base = true ∧ offsetOf base < s.dev.gddr

/-- No other hart has the place of the hart in focus. -/
def OwnPlace (s : State) : Prop := ∀ h ∈ s.dev.parked, h.brick ≠ s.hart.brick ∨ h.num ≠ s.hart.num

/-- A queue's registers: its configuration in window 0 and its page in its owner's (R44, R46). -/
def configAt (q : Nat) : Nat := 0x20000000 + 32 * q
def pageAt (q : Nat) : Nat := 0x10000000 + 0x10000 * q

end Sys2Proof.Claims

/-- R41, R42, R44, R46, R47, R82, R159: a window answers status 1, changing nothing, to a flit of another class, another tenant, another size than 8
bytes, and for an address without a register. A write to a register changes its writable fields, unless its own rule says that it is ignored. -/
def Sys2Proof.Claims.WindowRegisters : Prop :=
  ∀ (s : State) (p : Nat) (f : Flit),
    (∀ v r, f.cls ≠ 0 ∨ (f.vmid ≠ 0 ∧ f.vmid ≠ v) ∨ f.len ≠ 7 ∨ r % 8 ≠ 0 ∨ (0x1000 ≤ r ∧ r < 0x10000 ∧ v ≠ 0) ∨ 0x50000000 ≤ r →
      s.dev.own f.pa = true → r < 2 ^ 32 → offsetOf f.pa = Config.commandBase + v * 2 ^ 32 + r →
      ∀ row ∈ windowRows, Serves (row p f) s p f (fun _ => [statusOf 3 f 1]) OnlyPorts) ∧
    ∀ w,
      let sched := s.dev.sched
      let takes := Accepts .windowRegisterWrite s p f
      (∀ v, PutsWord s f v 0x00 w → takes fun u t => SetsTenant u t v { s.dev.tenant v with evbase := base52 w }) ∧
      (∀ v, ∀ r ∈ [0x10, 0x20, 0x28], PutsWord s f v r w → takes OnlyPorts) ∧
      (∀ q v, q < 4096 → (s.dev.queue q).vmid = v → PutsWord s f v (pageAt q + 0x18) w → takes fun u t => SetsQueue u t q
        { s.dev.queue q with ovr := (s.dev.queue q).ovr && !(w.getLsbD 0), sigerr := (s.dev.queue q).sigerr && !(w.getLsbD 1) }) ∧
      (∀ q, q < 4096 → let k := s.dev.queue q
        let weight := if w.toNat % 256 = 0 then k.weight else w.toNat % 256
        (PutsWord s f 0 (configAt q) w → k.en = w.getLsbD 63 → takes fun u t => SetsQueue u t q
          (if k.en = true then { k with weight := weight }
           else { k with vmid := w.toNat / 2 ^ 56 % 64, qsz := w.toNat / 2 ^ 52 % 16, weight := weight })) ∧
        (PutsWord s f 0 (configAt q + 8) w → takes fun u t => SetsQueue u t q (if k.en = true then k else { k with base := (base52 w).toNat })) ∧
        (PutsWord s f 0 (configAt q + 16) w → takes fun u t => SetsQueue u t q (if k.en = true then k else { k with cmpl := (base52 w).toNat }))) ∧
      (∀ v, v < 64 → PutsWord s f 0 (0x40000000 + 8 * v) w → takes fun u t => SetsTenant u t v
        (if w.toNat % 256 = 0 then s.dev.tenant v else { s.dev.tenant v with weight := w.toNat % 256 })) ∧
      (PutsWord s f 0 0x38 w → takes fun u t => SetsSched u t
        (let q := w.toNat % 2 ^ 14
         if 10 ≤ q ∧ q ≤ 10000 then { sched with quantum := q } else sched)) ∧
      (PutsWord s f 0 0x50 w → takes fun u t => SetsSched u t
        (if s.dev.saved.any (·.spilled) then sched else { sched with savePool := (base52 w).toNat })) ∧
      (PutsWord s f 0 0x58 w → takes fun u t => SetsSched u t (if s.dev.saved = [] then { sched with saveSlots := w.toNat % 2 ^ 16 } else sched)) ∧
      (PutsWord s f 0 0x68 w → takes fun u t => SetsSched u t { sched with invVa := w &&& 0x00FFFFFFFFFF0000#64 }) ∧
      (PutsWord s f 0 0x40 w → (∀ op, op ∈ [1, 2, 3] → w.toNat / 2 ^ 12 % 16 ≠ op) → takes fun u t => SetsSched u t
        (if sched.busy = true then sched else { sched with cmd := w &&& 0xFFFF#64, result := 2 }))

/-- R47, R48, R45, R58: setting EN takes effect only for rings in this device's memory, a QSZ of at most 10 and no incomplete launch, and
starts the queue afresh; clearing EN keeps the rest. A tail is accepted that does not go back and lies in the ring, and any other sets OVR.
A context entry is not written while a launch names it. EVCFG with EVSZ above 8 is ignored, and EVCONS only rises, up to EVPROD. That EN
asks the two base addresses alone to lie in populated memory is log 50, the model's reading. -/
def Sys2Proof.Claims.QueuesContextsAndEvents : Prop :=
  ∀ (s : State) (p : Nat) (f : Flit) (w : Word),
    (∀ q, q < 4096 → PutsWord s f 0 (configAt q) w →
      let k := s.dev.queue q
      let weight := if w.toNat % 256 = 0 then k.weight else w.toNat % 256
      let qsz := w.toNat / 2 ^ 52 % 16
      let ok := qsz ≤ 10 ∧ RingHere s k.base ∧ RingHere s k.cmpl ∧ ∀ l ∈ s.dev.launches, l.queue ≠ q
      (k.en = false → w.getLsbD 63 = true →
        (ok → Accepts .queueEnable s p f fun u t => SetsQueue u t q { k with
          en := true, vmid := w.toNat / 2 ^ 56 % 64, qsz := qsz, weight := weight
          head := 0, tail := 0, done := 0, doneSet := [], ovr := false, sigerr := false, reads := 0 }) ∧
        (¬ ok → Accepts .queueEnable s p f OnlyPorts)) ∧
      (k.en = true → w.getLsbD 63 = false → Accepts .queueDisable s p f fun u t => SetsQueue u t q { k with en := false, weight := weight })) ∧
    (∀ q v, q < 4096 → (s.dev.queue q).vmid = v → PutsWord s f v (pageAt q) w →
      let k := s.dev.queue q
      let size := 2 ^ (k.qsz + 6)
      let T := w.toNat % 2 ^ 16
      let good := T < size ∧ (k.tail + size - k.head) % size ≤ (T + size - k.head) % size
      (k.en = false → Accepts .qtailWrite s p f OnlyPorts) ∧
      (k.en = true → good → Accepts .qtailWrite s p f fun u t => SetsQueue u t q { k with tail := T }) ∧
      (k.en = true → ¬ good → (s.dev.tenant v).even = false → Accepts .qtailWrite s p f fun u t => SetsQueue u t q { k with ovr := true })) ∧
    (∀ c, c < 4096 → PutsWord s f 0 (0x30000000 + 8 * c) w →
      (c = 0 ∨ (∃ l ∈ s.dev.launches, l.record.ctx = c) → Accepts .ctxentWrite s p f OnlyPorts) ∧
      (c ≠ 0 → (∀ l ∈ s.dev.launches, l.record.ctx ≠ c) → Accepts .ctxentWrite s p f fun u t =>
        t = { u with dev := { u.dev with ctxents := t.dev.ctxents, ports := t.dev.ports, wire := t.dev.wire } } ∧
        ∀ y, t.dev.ctxent y = if y = c then { valid := w.getLsbD 63, vmid := w.toNat / 2 ^ 56 % 64, root := (base52 w).toNat }
          else s.dev.ctxent y)) ∧
    (∀ v, let k := s.dev.tenant v
      (PutsWord s f v 0x08 w → k.owes = false ∨ k.even = false ∨ w.getLsbD 63 = false → Accepts .evcfgWrite s p f fun u t => SetsTenant u t v
        (if 9 ≤ w.toNat % 16 then k
         else if w.getLsbD 63 = true ∧ k.even = false then
           { k with even := true, evsz := w.toNat % 16, evprod := 0, evcons := 0, evlost := 0, owes := false }
         else { k with even := w.getLsbD 63, evsz := w.toNat % 16 })) ∧
      (PutsWord s f v 0x18 w → k.owes = false → Accepts .evconsWrite s p f fun u t => SetsTenant u t v
        (if k.evcons ≤ w ∧ w ≤ k.evprod then { k with evcons := w } else k)))

/-- R58: an event is written whole at its place in the tenant's ring, and EVPROD goes up by one; when the ring is full it is dropped and
counted, and event 0x06 with the count comes as soon as there is room. Here the event is 0x03 of a tail write that is ignored, and the room
that of an EVCONS write or of a larger ring. -/
def Sys2Proof.Claims.EventRing : Prop :=
  ∀ (s : State) (p : Nat) (f : Flit) (w : Word) (q v : Nat), MemoryCanonical s →
    let k := s.dev.tenant v
    let at' := fun (evsz : Nat) => (base52 k.evbase).toNat + 16 * (k.evprod.toNat % 2 ^ (evsz + 8))
    let here := fun (evsz : Nat) => s.dev.own (at' evsz) = true ∧ offsetOf (at' evsz) + 16 ≤ s.dev.gddr
    let wrote := fun (t : State) (evsz : Nat) (l : List Byte) =>
      Memory.readBytes t.dev.mem (offsetOf (at' evsz)) 16 = l ∧
      ∀ a, (a < offsetOf (at' evsz) ∨ offsetOf (at' evsz) + 16 ≤ a) → Memory.read t.dev.mem a = Memory.read s.dev.mem a
    let full := fun (evsz : Nat) (evcons : Word) => k.evprod - evcons = BitVec.ofNat 64 (2 ^ (evsz + 8))
    let lost := [0x06, 0] ++ zeros 6 ++ leBytes 8 k.evlost.toNat
    (q < 4096 → (s.dev.queue q).vmid = v → PutsWord s f v (pageAt q) w → (s.dev.queue q).en = true →
      2 ^ ((s.dev.queue q).qsz + 6) ≤ w.toNat % 2 ^ 16 → k.even = true → k.owes = false →
      (¬ full k.evsz k.evcons → here k.evsz → Accepts .qtailWrite s p f fun _ t =>
        (t.dev.queue q).ovr = true ∧ t.dev.tenant v = { k with evprod := k.evprod + 1 } ∧
        wrote t k.evsz ([0x03, 0] ++ leBytes 2 q ++ zeros 4 ++ leBytes 8 w.toNat)) ∧
      (full k.evsz k.evcons → Accepts .qtailWrite s p f fun _ t =>
        (t.dev.queue q).ovr = true ∧ t.dev.tenant v = { k with evlost := k.evlost + 1, owes := true } ∧ t.dev.mem = s.dev.mem)) ∧
    (PutsWord s f v 0x18 w → k.even = true → k.owes = true → k.evcons ≤ w → w ≤ k.evprod → ¬ full k.evsz w → here k.evsz →
      Accepts .evconsWrite s p f fun _ t =>
        t.dev.tenant v = { k with evcons := w, owes := false, evprod := k.evprod + 1 } ∧ wrote t k.evsz lost) ∧
    (let sz := w.toNat % 16
     PutsWord s f v 0x08 w → k.even = true → k.owes = true → w.getLsbD 63 = true → sz ≤ 8 → ¬ full sz k.evcons → here sz →
      Accepts .evcfgWrite s p f fun _ t =>
        t.dev.tenant v = { k with evsz := sz, owes := false, evprod := k.evprod + 1 } ∧ wrote t sz lost)

/-- R51, R52, R43, R54: SIGPUSH takes one aligned write of 16 bytes with a known OP into the queue's lane; a third one waits unacknowledged.
Any other is acknowledged and sets SIGERR. The oldest entry of a lane sets the tenant's signal or adds to it, and launches that wait for it
have seen it. That the tenant is the one that QCFG names when the entry is applied is log 93, the model's choice. -/
def Sys2Proof.Claims.SignalLane : Prop :=
  ∀ (s : State) (p : Nat) (f : Flit) (q v o : Nat), q < 4096 → o < 16 → (s.dev.queue q).vmid = v →
    let k := s.dev.queue q
    let op := part f.payload 0 1
    let good := o = 0 ∧ f.len = 15 ∧ (op = 1 ∨ op = 2) ∧ part f.payload 1 1 = 0 ∧ part f.payload 2 2 < 1024 ∧ part f.payload 4 4 = 0
    let e : SigEntry := { add := op == 2, sig := part f.payload 2 2, value := BitVec.ofNat 64 (part f.payload 8 8) }
    (ForWindow s f v (pageAt q + 0x40 + o) → ∀ i ∈ [Instr.sigpushSet p f, Instr.sigpushAdd p f],
      (good → k.lane.length < 2 → k.held = [] → Serves i s p f (fun _ => [statusOf 3 f 0]) fun u t =>
        SetsQueue u t q { k with lane := k.lane ++ [e] }) ∧
      (good → 2 ≤ k.lane.length ∨ k.held ≠ [] → Serves i s p f (fun _ => []) fun u t =>
        SetsQueue u t q { k with held := k.held ++ [(p, f)] }) ∧
      (¬ good → (s.dev.tenant v).even = false → Serves i s p f (fun _ => [statusOf 3 f 0]) fun u t =>
        SetsQueue u t q { k with sigerr := true })) ∧
    (∀ e rest, k.lane = e :: rest → k.held = [] → Completes (.signalApply q) s fun t =>
      let new := if e.add = true then s.signal v e.sig + e.value else e.value
      (∀ y n, t.signal y n = if y = v ∧ n = e.sig then new else s.signal y n) ∧ (t.dev.queue q).lane = rest ∧
      t.hart = s.hart ∧ t.dev.mem = s.dev.mem ∧
      t.dev.launches.map (·.sigSeen) = s.dev.launches.map (fun l => l.sigSeen || decide (l.record.vmid = v ∧ l.record.flags.getLsbD 4 = true ∧
        l.record.waitsig = e.sig ∧ l.record.waitval ≤ new))) ∧
    (∀ e rest m g more e', k.lane = e :: rest → k.held = (m, g) :: more → sigEntry g = some e' → Completes (.signalApply q) s fun t =>
      (t.dev.queue q).lane = rest ++ [e'] ∧ (t.dev.queue q).held = more ∧ t.hart = s.hart ∧
      t.dev.wire = (s.dev.reply m g (statusOf 3 g 0)).wire ∧ t.dev.ports = (s.dev.reply m g (statusOf 3 g 0)).ports)

/-- R159, R157, R124, R418: a shootdown drops the translations of its context that it names and restarts the strips that may have used one;
it is ignored while another is busy, for context 0 and for the reserved size. When it ends, the constant-hint entries of the context are
gone. A walk that ends keeps its translation. That every unclosed strip of the context restarts is log 51, the model's reading. -/
def Sys2Proof.Claims.Shootdowns : Prop :=
  ∀ (s : State) (p : Nat) (f : Flit) (w : Word),
    let c := s.dev.sched
    let ctx := w.toNat % 2 ^ 12
    let size := w.toNat / 2 ^ 14 % 4
    let all := w.getLsbD 16
    let bits := if size = 0 then 16 else if size = 1 then 21 else 30
    let hit := fun (e : TlbEntry) => e.ctx = ctx ∧ (all = true ∨ e.va / 2 ^ max e.bits bits = c.invVa.toNat / 2 ^ max e.bits bits)
    let i := if all = true then Instr.tlbinvAll else Instr.tlbinvPage
    (PutsWord s f 0 0x60 w →
      (c.invBusy = true ∨ ctx = 0 ∨ size = 3 ∧ all = false → Accepts i s p f OnlyPorts) ∧
      (c.invBusy = false → ctx ≠ 0 → size ≠ 3 ∨ all = true → Accepts i s p f fun u t =>
        t.dev.sched.invBusy = true ∧ (∀ e, e ∈ t.dev.tlb ↔ e ∈ u.dev.tlb ∧ ¬ hit e) ∧ t.dev.mem = u.dev.mem ∧
        (s.hart.run = .running → OwnPlace s →
          (s.hart.ctx = ctx → (∀ e ∈ s.hart.ended, e.kept = true) →
            t.pc = s.hart.ckpt.pc ∧ t.hart.strip = {} ∧ t.hart.r.x = s.hart.ckpt.x ∧ t.hart.r.v = s.hart.ckpt.v) ∧
          (s.hart.ctx ≠ ctx → t.hart = s.hart)))) ∧
    (let free := s.translatedBefore (c.inv.toNat % 2 ^ 12)
     (c.invBusy = true → free = false → Completes .shootdownComplete s fun t => t.hart = s.hart ∧ t.dev.mem = s.dev.mem ∧
       t.dev.sched.invBusy = false ∧ t.dev.tlb = s.dev.tlb ∧
       ∀ b ∈ t.dev.bricks, ∀ e ∈ b.2.reuse, e.kind = .const → e.key.ctx ≠ c.inv.toNat % 2 ^ 12) ∧
     (c.invBusy = false ∨ free = true → exec .shootdownComplete s = .next s)) ∧
    (∀ b ctx vmid va e, (∃ h ∈ s.harts, h.brick = b ∧ h.ctx = ctx ∧ h.vmid = vmid) → s.dev.tlbFind b ctx vmid va = none →
      s.dev.walk ctx va = .ok e → Completes (.walkComplete b ctx vmid va) s fun t =>
        t.hart = s.hart ∧ t.dev.mem = s.dev.mem ∧ { e with brick := b, ctx := ctx, vmid := vmid, level := .second } ∈ t.dev.tlb ∧
        (∀ x ∈ t.dev.tlb, x ∈ s.dev.tlb ∨ x = { e with brick := b, ctx := ctx, vmid := vmid, level := .second }) ∧
        ((s.dev.tlb.filter (fun x => x.brick == b && x.level == .second)).length < 4096 → ∀ x ∈ s.dev.tlb, x ∈ t.dev.tlb))

/-! ### The scheduler -/

/-- R82, R78, R81: HOLD stops every running hart of its context, and without a slot for each it gives result 1; RELEASE ends it, and areas
in the pool replace the region's; FLUSH writes each area of the context to its slot. All are ignored while BUSY, and context 0 gives result
2. That a HOLD of result 1 leaves its context unheld is log 55, the model's reading. -/
def Sys2Proof.Claims.SchedulerCommands : Prop :=
  ∀ (s : State) (p : Nat) (f : Flit) (w : Word),
    let c := s.dev.sched
    let ctx := w.toNat % 2 ^ 12
    let forms : List ((Nat → Flit → Instr) × Nat) := [(.schedHold, 1), (.schedRelease, 2), (.schedFlush, 3)]
    let begun : SchedRegs := { c with cmd := w &&& 0xFFFF#64, result := 0 }
    (PutsWord s f 0 0x40 w →
      (∀ m ∈ forms, w.toNat / 2 ^ 12 % 16 = m.2 →
        (c.busy = true → Accepts m.1 s p f OnlyPorts) ∧
        (c.busy = false → ctx = 0 → Accepts m.1 s p f fun u t => SetsSched u t { begun with result := 2 })) ∧
      (c.busy = false → ctx ≠ 0 →
        (w.toNat / 2 ^ 12 % 16 = 1 → s.hart.run = .running → s.dev.parked = [] → s.hart.ctx = ctx →
          (∀ l ∈ s.dev.launches, l.record.ctx = ctx → l.record.gang = false) → c.heldCtx = [] → s.hart.fork = .none →
          (c.saveSlots ≤ s.dev.saved.length → Accepts .schedHold s p f fun u t => SetsSched u t { begun with result := 1 }) ∧
          (s.dev.saved.length < c.saveSlots → Accepts .schedHold s p f fun _ t =>
            t.hart = { s.hart with run := .stopped } ∧ t.dev.sched = { begun with busy := true, heldCtx := [ctx] } ∧ t.dev.mem = s.dev.mem)) ∧
        (w.toNat / 2 ^ 12 % 16 = 1 → c.saveSlots = 0 → Accepts .schedHold s p f fun u t => SetsSched u t { begun with result := 1 }) ∧
        (w.toNat / 2 ^ 12 % 16 = 2 → Accepts .schedRelease s p f fun _ t =>
          t.dev.sched = { begun with heldCtx := c.heldCtx.filter (· != ctx) } ∧ t.hart = s.hart ∧ t.dev.mem = s.dev.mem ∧
          t.dev.saved = s.dev.saved.map (fun a =>
            if a.hart.ctx = ctx ∧ a.flushed = true then { a with spilled := true, flushed := false } else a)) ∧
        (w.toNat / 2 ^ 12 % 16 = 3 → Accepts .schedFlush s p f fun u t => SetsSched u t { begun with busy := true }))) ∧
    (c.busy = true → c.cmd.toNat / 2 ^ 12 % 16 = 3 → Completes .flushComplete s fun t =>
      t.dev.sched = { c with busy := false } ∧ t.hart = s.hart ∧
      (∀ a ∈ t.dev.saved, a.hart.ctx = c.cmd.toNat % 2 ^ 12 → a.spilled = false → a.flushed = true) ∧
      (∀ a off, s.dev.saved = [a] → a.hart.ctx = c.cmd.toNat % 2 ^ 12 → a.spilled = false → s.dev.slotAt a.slot = some off → MemoryCanonical s →
        ∃ x, t.dev.saved = [x] ∧ x.hart = { a.hart with energy := x.hart.energy } ∧
          Memory.readBytes t.dev.mem off (t.areaBytes x).length = t.areaBytes x))

namespace Sys2Proof.Claims

/-- The fields of a launch record are within the limits of R53. -/
def FieldsLegal (l : List Byte) : Prop :=
  (part l 0 1 = 1 ∨ part l 0 1 = 2) ∧ part l 1 1 = 1 ∧ part l 2 2 < 64 ∧ part l 8 8 % 4 = 0 ∧ part l 15 1 = 0 ∧ part l 23 1 = 0 ∧
  part l 24 2 < 4096 ∧ part l 26 1 < 64 ∧ part l 27 1 ≠ 0 ∧ part l 28 1 < 4 ∧ part l 29 1 ≤ 8 ∧ part l 30 1 ≤ 8 ∧ part l 31 1 ≤ 16 ∧
  part l 54 1 < 64 ∧ part l 55 1 < 4 ∧ part l 60 4 = 0 ∧ part l 64 2 < 4096 ∧ part l 66 2 = 0 ∧ part l 72 2 < 1024 ∧ part l 74 6 = 0 ∧
  part l 88 2 < 1024 ∧ part l 90 6 = 0 ∧ part l 120 8 = 0

/-- What a record holds (R53), as far as a launch on one device goes. -/
def HoldsRecord (l : List Byte) (r : Record) : Prop :=
  r.marker = (part l 0 1 == 2) ∧ r.flags = BitVec.ofNat 16 (part l 2 2) ∧ r.usertag = part l 4 4 ∧ r.kernel = BitVec.ofNat 64 (part l 8 8) ∧
  r.args = BitVec.ofNat 64 (part l 16 8) ∧ r.ctx = part l 24 2 ∧ r.vmid = part l 26 1 ∧ r.weight = part l 27 1 ∧ r.lgph = part l 28 1 ∧
  r.tiles = part l 29 1 ∧ r.streams = part l 30 1 ∧ r.gearcfg = part l 55 1 ∧ r.waitsig = part l 72 2 ∧
  r.waitval = BitVec.ofNat 64 (part l 80 8) ∧ r.donesig = part l 88 2 ∧ r.doneval = BitVec.ofNat 64 (part l 96 8) ∧
  r.startat = BitVec.ofNat 64 (part l 104 8) ∧
  ∀ i, i < 4 → r.levels.getD i {} = { extent := part l (32 + 4 * i) 4, place := part l (48 + i) 1 }

/-- The place of a launch's completion record (R57). -/
def completionAt (k : Queue) (n : Nat) : Nat := offsetOf k.cmpl + 64 * ((n - 1) % 2 ^ (k.qsz + 6))

end Sys2Proof.Claims

/-- R49, R53, R54, R57: the scheduler reads the record at HEAD and numbers its launch. A record with a field out of its limits is refused with
status 1, one of another tenant or of a context that is not valid with status 2, and is complete at once, with a completion record if it
asks for one. One that has no fault becomes a launch. Nothing is read while the queue is disabled, empty, or eight launches ahead of QDONE. -/
def Sys2Proof.Claims.LaunchRecords : Prop :=
  ∀ (s : State) (q : Nat),
    let k := s.dev.queue q
    let l := Memory.readBytes s.dev.mem (offsetOf k.base + 128 * k.head) 128
    let n := k.reads + 1
    let due := s.dev.gmc.schedRunning = true ∧ k.en = true ∧ k.head ≠ k.tail ∧ n ≤ k.done + 8
    let c := s.dev.ctxent (part l 24 2)
    let mine := part l 26 1 = k.vmid ∧ part l 24 2 ≠ 0 ∧ c.valid = true ∧ c.vmid = part l 26 1
    let simple := (∀ i, i < 4 → part l (48 + i) 1 = 0) ∧ part l 112 8 = 0 ∧ part l 56 4 = 0 ∧ (BitVec.ofNat 16 (part l 2 2)).getLsbD 3 = false ∧
      (BitVec.ofNat 16 (part l 2 2)).getLsbD 5 = false
    let stepped := fun (t : State) => (t.dev.queue q).head = (k.head + 1) % 2 ^ (k.qsz + 6) ∧ (t.dev.queue q).reads = n
    (¬ due → exec (.recordRead q) s = .next s) ∧
    (due → (s.dev.tenant k.vmid).even = false →
      (∀ st, (st = 1 ∧ ¬ FieldsLegal l ∨ st = 2 ∧ FieldsLegal l ∧ simple ∧ ¬ mine) → Completes (.recordRead q) s fun t =>
        stepped t ∧ t.dev.launches = s.dev.launches ∧ t.hart = s.hart ∧
        ((BitVec.ofNat 16 (part l 2 2)).getLsbD 0 = false → t.dev.mem = s.dev.mem) ∧
        ((BitVec.ofNat 16 (part l 2 2)).getLsbD 0 = true → MemoryCanonical s → completionAt k n + 64 ≤ s.dev.gddr →
          let m := Memory.readBytes t.dev.mem (completionAt k n) 64
          part m 0 4 = n % 2 ^ 32 ∧ part m 4 1 = st ∧ part m 6 2 = q % 2 ^ 16 ∧ part m 8 4 = part l 4 4)) ∧
      (FieldsLegal l → simple → mine → (∃ b, b < 1024 ∧ s.dev.gmc.readyBrick.getLsbD b = true ∧
          s.dev.gmc.failCourse.getLsbD (b / 16) = false ∧ (s.dev.brick b).retired = 0) →
        Completes (.recordRead q) s fun t => stepped t ∧ t.dev.mem = s.dev.mem ∧ t.hart = s.hart ∧
          ∃ x, t.dev.launches = s.dev.launches ++ [x] ∧ x.queue = q ∧ x.seq = n ∧ HoldsRecord l x.record ∧ x.placed = [] ∧ x.ended = []))

/-- R55, R57, R52, R54: a launch whose harts have all ended, with nothing of it under way, completes: its completion record is written, its signal is
raised, QDONE passes it, and its barriers and slots are gone. One of whose harts a store has yet to perform does not. DTIME that reaches STARTAT makes a launch startable. -/
def Sys2Proof.Claims.LaunchCompletion : Prop :=
  ∀ (s : State) (q n : Nat) (l : Launch), s.dev.launches = [l] → l.queue = q → l.seq = n →
    let k := s.dev.queue q
    let r := l.record
    (r.startat ≤ s.dev.time.dtime → exec (.startatReached q n) s = .next { s with dev := { s.dev with launches := [{ l with startSeen := true }] } }) ∧
    (s.dev.time.dtime < r.startat → exec (.startatReached q n) s = .next s) ∧
    (r.marker = false → (∃ h ∈ s.dev.closing, h.launch = (q, n)) → exec (.launchComplete q n) s = .next s) ∧
    (r.marker = false → l.failures = [] → (∀ i, i < hartCount r.levels → i ∈ l.ended) → (∀ h ∈ s.harts, h.launch ≠ (q, n)) → s.dev.saved = [] →
      (∀ h ∈ s.dev.closing, h.launch ≠ (q, n)) → s.dev.outstanding = [] → s.dev.slotQueue = [] → s.dev.courses = [] → (s.dev.tenant k.vmid).even = false → 1 ≤ n →
      Completes (.launchComplete q n) s fun t =>
        t.dev.launches = [] ∧ t.hart = s.hart ∧ (k.done + 1 = n → n ≤ (t.dev.queue q).done) ∧
        (∀ b ∈ t.dev.barriers, ¬ (b.queue = q ∧ b.seq = n)) ∧ (∀ x ∈ t.dev.slots, x.2.2 ≠ (q, n)) ∧
        (r.flags.getLsbD 2 = true → t.signal r.vmid r.donesig = s.signal r.vmid r.donesig + r.doneval) ∧
        (r.flags.getLsbD 0 = true → MemoryCanonical s → completionAt k n + 64 ≤ s.dev.gddr →
          let m := Memory.readBytes t.dev.mem (completionAt k n) 64
          part m 0 4 = n % 2 ^ 32 ∧ part m 8 4 = r.usertag % 2 ^ 32 ∧ part m 24 8 = s.dev.time.dtime.toNat ∧ part m 40 4 = l.ran % 2 ^ 32 ∧
          part m 4 1 = if l.uncorrectable = true then 8 else if l.gangFailed = true then 7 else if l.trapped = true then 5
            else if l.asyncLeft = true then 6 else 0))

/-- R36, R145, R62, R63, R64, R56, R55, R99: nothing is dispatched while the microcode does not run, a channel is not ready or the die is at its limit.
Else the harts of an eligible launch are dispatched in hart order until one does not fit: the first to the lowest brick that is ready and can hold
it, as hart 0 on the lowest lane groups, to start at KERNEL with ARGS and USERTAG; no two share a place or a lane group, those that differ at
the spatial-brick level alone lie in one course and those that differ at that or the spatial-course level in one wythe, and a brick holds
one run of spatial-brick indices. That a brick takes work only with its course ready is log 96, and launches are numbered without bound (log 91). -/
def Sys2Proof.Claims.Dispatch : Prop :=
  ∀ (s : State), s.dev.sched.busy = false →
    (s.dev.gmc.schedRunning = false ∨ (∃ c, c < 128 ∧ s.dev.gmc.readyChan.getLsbD c = false) ∨ s.dev.thermal.limit = true →
      exec .schedulerChoice s = .next s) ∧
    (∀ l b, s.dev.gmc.schedRunning = true → (∀ c, c < 128 → s.dev.gmc.readyChan.getLsbD c = true) → s.dev.thermal.limit = false →
      s.hart.run = .free → s.dev.parked = [] → s.dev.saved = [] → s.dev.closing = [] → s.dev.launches = [l] →
      let r := l.record
      r.marker = false → l.killed = false → r.flags.getLsbD 3 = false → r.flags.getLsbD 5 = false → (∀ x ∈ r.levels.toList, x.place ≠ 5) →
      l.sigSeen = true → l.startSeen = true → s.dev.sched.heldCtx = [] → r.slotmask = 0 → l.placed = [] → l.home = [] → l.owed = none →
      0 < hartCount r.levels → r.tiles ≤ 8 → r.streams ≤ 8 → r.lgph < 4 →
      let ready := fun (a : Nat) => s.dev.gmc.readyBrick.getLsbD a = true ∧ s.dev.gmc.readyCourse.getLsbD (a / 16) = true
      b < 1024 → ready b → (∀ a, a < b → ¬ ready a) → (s.dev.brick b).retired = 0 →
      Completes .schedulerChoice s fun t =>
        (∃ h ∈ t.harts,
          h.launch = (l.queue, l.seq) ∧ h.index = 0 ∧ h.brick = b ∧ h.num = 0 ∧ h.run = .running ∧ h.ctx = r.ctx ∧ h.vmid = r.vmid ∧
          h.bound = [0, 1, 3, 15].getD r.lgph 0 ∧ h.r.pc = r.kernel ∧
          (∀ n, 0 < n → n < 32 → h.r.x.getD n 0 = if n = 10 then r.args else if n = 11 then BitVec.ofNat 64 r.usertag else 0) ∧
          h.r.vl = 0 ∧ h.r.vtype = {} ∧ h.strip = {} ∧ h.fstat = 0 ∧ h.gears.req = r.gearcfg.testBit 0 ∧ h.gears.auto = r.gearcfg.testBit 1) ∧
        (∃ m, m ≤ hartCount r.levels ∧ (∀ i, (∃ h ∈ t.harts, h.index = i) ↔ i < m) ∧
          (m < hartCount r.levels → ∀ x, t.dev.launches = [x] → t.dev.placeMember t.harts x m = none)) ∧
        (∀ h ∈ t.harts, h.launch = (l.queue, l.seq) ∧ h.run = .running ∧ ready h.brick ∧ h.num < 4) ∧
        ∀ h ∈ t.harts, ∀ g ∈ t.harts,
          (h.index = g.index → h = g) ∧ (h.brick = g.brick → h.index ≠ g.index → h.num ≠ g.num ∧ h.bound &&& g.bound = 0) ∧
          (sameBarrier r.levels 2 h.index g.index = true → h.brick / 16 = g.brick / 16) ∧
          (sameBarrier r.levels 3 h.index g.index = true → h.brick / 256 = g.brick / 256) ∧
          (∀ x ∈ r.levels.toList, x.place = 2 → (h.brick = g.brick ↔ r.block h.index = r.block g.index)))

/-- R76, R81, R77, R80, R132, R147: a stopped hart is saved in the lowest free slot once its brick changes gear no more, with every register as it
was, and its place on the brick is free. The energy of the save is charged to it and its tenant, a report that it holds may be pending, and
the area keeps HOLD and BRICK of the save. A restore that ends, with nothing more to read, lets the hart run. -/
def Sys2Proof.Claims.SavesAndRestores : Prop :=
  ∀ (s : State), let b := s.hart.brick
    let n := s.hart.num
    (s.hart.run = .stopped → s.brick.change = none → s.dev.saved = [] → 0 < s.dev.sched.saveSlots → s.dev.sched.busy = false →
      s.hart.entry = none → s.hart.vqueue = [] → s.hart.inflight = [] → s.hart.pendCsr = [] → s.hart.ended = [] → s.hart.strip = {} → s.hart.r.streams = Vector.replicate 8 none →
      Completes (.hartSave b n) s fun t => t.hart.run = .free ∧ t.dev.mem = s.dev.mem ∧ ∃ a, t.dev.saved = [a] ∧ a.slot = 0 ∧
        a.hart.r = s.hart.r ∧ a.hart.fstat = s.hart.fstat ∧ a.hart.fidx = s.hart.fidx ∧ a.hart.frm = s.hart.frm ∧ a.hart.done = s.hart.done ∧
        a.hart.aerr = { s.hart.aerr with pending := a.hart.aerr.pending } ∧
        (a.hart.aerr.pending = true ↔ s.hart.aerr.pending = true ∨ s.hart.aerr.ate = true ∧ s.hart.aerr.inh = false ∧
          (s.hart.aerr.held ≠ none ∨ s.hart.aerr.queue ≠ [])) ∧
        a.hart.energy = s.hart.energy + BitVec.ofNat 48 a.saveUj ∧
        (t.dev.tenant s.hart.vmid).energy = (s.dev.tenant s.hart.vmid).energy + BitVec.ofNat 64 a.saveUj ∧ a.hart.uid = s.hart.uid ∧
        a.hart.launch = s.hart.launch ∧ a.hart.index = s.hart.index ∧ a.hart.gears.eff = s.hart.gears.req ∧
        a.gearBits = (if s.dev.thermal.hold = none then 0 else 128) + (if s.brick.gear = true then 16 else 0)) ∧
    (s.hart.run = .restoring → s.hart.r.streams = Vector.replicate 8 none → Completes (.restoreComplete b n) s fun t =>
      ∃ l : List Landed, (∀ x ∈ l, ∃ e st v, x = .atomic e st v) ∧
        t = { s with hart := { s.hart with run := .running, ckpt := s.hart.r, landed := l } }) ∧
    (s.hart.run ≠ .restoring → exec (.restoreComplete b n) s = .next s)

/-! ### Gangs and barriers -/

namespace Sys2Proof.Claims

/-- A token names the one launch of a gang of several devices. -/
def ForGang (s : State) (f : Flit) (l : Launch) : Prop :=
  s.dev.launches = [l] ∧ l.record.gangid = flitAt f 2 2 ∧ l.record.gangid ≠ 0 ∧ ∃ x ∈ l.record.levels.toList, x.place = 5

/-- The rows of barrier tokens. -/
noncomputable def tokenRows : List (Nat → Flit → Instr) :=
  [.systemBarrierArrival, .systemBarrierRelease, .gangReady, .gangGo, .withdrawRequest, .withdraw, .tokenProgress, .preemptionRelay, .gangFailed]

/-- What the launch of the gang has become. -/
def NowIs (t : State) (P : Launch → Prop) : Prop := ∃ l, t.dev.launches = [l] ∧ P l

end Sys2Proof.Claims

/-- R21, R69, R70, R71, R72, R73, R74: a token of no gang of this device is discarded and counted. The coordinator adds up the devices that are ready, and
when all are it sends go for 5,000 ns later; go lets the token holders run at its time. A withdrawn gang holds no token; a relay stops a
gang that runs, or one that will run as soon as it does, once there are slots for its harts; a failed gang ends its harts. At the thermal
limit nothing starts. That a relay without slots is remembered until there are some is log 97, the model's reading. -/
def Sys2Proof.Claims.GangTokens : Prop :=
  ∀ (s : State) (p : Nat) (f : Flit), Comes s p f →
    let now := s.dev.time.dtime.toNat
    let when' := flitAt f 8 8
    let count := flitAt f 16 4
    let sender := flitAt f 4 2
    ((∀ l ∈ s.dev.launches, l.record.gangid ≠ flitAt f 2 2 ∨ l.record.gangid = 0) → ∀ row ∈ tokenRows, Completes (row p f) s fun t =>
      OnlyPorts s t ∧ t.dev.port p = { s.dev.port p with errors := (s.dev.port p).errors + 1 }) ∧
    ∀ l, ForGang s f l → s.dev.sched.busy = false → s.dev.saved = [] → s.hart.launch = (l.queue, l.seq) → s.dev.parked = [] →
      s.brick.retired = 0 → l.relay = false →
      let token := s.hart.run = .token
      let running := s.hart.run = .running
      (Completes (.tokenProgress p f) s fun t => t.hart = s.hart ∧ NowIs t (fun k => k = { l with progress := count })) ∧
      (l.record.devidx = 0 → l.phase = .ready →
        let ready := (sender, count) :: l.readyFrom.filter (fun x => x.1 != sender)
        let sum := (ready.map (·.2)).sum
        Completes (.gangReady p f) s fun t => t.hart = s.hart ∧
          NowIs t (fun k => k = { l with readyFrom := ready, progress := sum, phase := if ready.length < l.devices then .ready else .go (now + 5000) })) ∧
      (l.phase = .ready → token →
        (now < when' → Completes (.gangGo p f) s fun t => t.hart = s.hart ∧ NowIs t (fun k => k = { l with phase := .go when' })) ∧
        (when' ≤ now → s.dev.thermal.limit = true → Completes (.gangGo p f) s fun t => t.hart = s.hart ∧ NowIs t (fun k => k = { l with phase := .go when' })) ∧
        (when' ≤ now → s.dev.thermal.limit = false → Completes (.gangGo p f) s fun t => t.hart.run = .running ∧ t.pc = s.pc ∧ NowIs t (fun k => k.phase = .started)) ∧
        (Completes (.withdraw p f) s fun t => t.hart.run = .free ∧ NowIs t (fun k => k.phase = .idle ∧ k.readyFrom = [] ∧ k.progress = 0)) ∧
        (l.record.devidx = 0 → Completes (.withdrawRequest p f) s fun t => t.hart.run = .free ∧ NowIs t (fun k => k.phase = .idle))) ∧
      (∀ T, l.phase = .go T → token →
        (T ≤ now → s.dev.thermal.limit = false → Completes (.gangGoEffective l.queue l.seq) s fun t => t.hart.run = .running ∧ t.pc = s.pc ∧ NowIs t (fun k => k.phase = .started)) ∧
        (now < T ∨ s.dev.thermal.limit = true → exec (.gangGoEffective l.queue l.seq) s = .next s) ∧
        (Completes (.preemptionRelay p f) s fun t => t.hart = s.hart ∧ NowIs t (fun k => k = { l with relay := true }))) ∧
      (l.phase = .started → running →
        (0 < s.dev.sched.saveSlots → Completes (.preemptionRelay p f) s fun t => t.hart = { s.hart with run := .stopped } ∧
          NowIs t (fun k => k = { l with preempts := l.preempts + 1, phase := .idle, readyFrom := [], progress := 0 })) ∧
        (s.dev.sched.saveSlots = 0 → Completes (.preemptionRelay p f) s fun t =>
          t.hart = s.hart ∧ NowIs t (fun k => k = { l with relay := true }))) ∧
      (token ∨ running → s.hart.ended = [] → Completes (.gangFailed p f) s fun t =>
        t.hart.run = .free ∧ NowIs t (fun k => k.gangFailed = true ∧ k.killed = true))

/-- R297, R298, R299, R21: a barrier's phase is released when every member on this device has arrived or ended, and a system barrier's when every device
has said so to the coordinator, whose release frees the other devices. A token of another phase, or of a barrier above 15, is discarded. -/
def Sys2Proof.Claims.BarrierReleases : Prop :=
  ∀ (s : State) (l : Launch), s.dev.launches = [l] →
    let next := fun (b : Barrier) => ({ b with phase := b.phase + 1, arrived := [], remote := [], told := false } : Barrier)
    let all := fun (b : Barrier) => ∀ i ∈ barrierMembers l.record.levels b.scope b.inst, i ∈ b.arrived ∨ i ∈ l.ended
    (∀ b, s.dev.barriers = [b] → b.queue = l.queue → b.seq = l.seq → b.arrived ≠ [] → b.scope ≠ 5 →
      (1 < l.devices → ∃ i ∈ barrierMembers l.record.levels 5 0, i ∉ l.ended) →
      (all b → Completes (.barrierRelease l.queue l.seq b.num) s fun t => t.dev.barriers = [next b] ∧ t.hart.r = s.hart.r ∧ t.dev.mem = s.dev.mem ∧
        ∀ a done reports, s.hart.run = .running → s.hart.launch = (l.queue, l.seq) → s.hart.levels = l.record.levels →
          s.hart.index ∈ barrierMembers l.record.levels b.scope b.inst →
          { bar := b.num, scope := b.scope, phase := b.phase, strip := a, again := false } ∈ s.hart.arrivals →
          t.hart.gears.eff = s.hart.gears.req ∧ t.hart.gears.drop = false ∧
          (∀ since, s.hart.wait = .idle since done reports → t.hart.wait = .none)) ∧
      (¬ all b → exec (.barrierRelease l.queue l.seq b.num) s = .next s)) ∧
    (∀ p f, Comes s p f → ForGang s f l →
      let bar := flitAt f 6 2
      let b := s.dev.barrier l bar 5 0
      let now := flitAt f 20 4 = b.phase
      (15 < bar ∨ ¬ now → ∀ row ∈ [Instr.systemBarrierArrival p f, Instr.systemBarrierRelease p f], Completes row s fun t =>
        OnlyPorts s t ∧ t.dev.port p = { s.dev.port p with errors := (s.dev.port p).errors + 1 }) ∧
      (bar ≤ 15 → now → Completes (.systemBarrierRelease p f) s fun t => t.dev.barrier l bar 5 0 = next b ∧ t.dev.mem = s.dev.mem) ∧
      (bar ≤ 15 → now → l.record.devidx = 0 → l.devices = 2 → flitAt f 4 2 = 1 →
        (all b → Completes (.systemBarrierArrival p f) s fun t => t.dev.barrier l bar 5 0 = next b) ∧
        (¬ all b → Completes (.systemBarrierArrival p f) s fun t => t.hart = s.hart ∧
          (t.dev.barrier l bar 5 0).phase = b.phase ∧ (1, b.phase) ∈ (t.dev.barrier l bar 5 0).remote)))

/-! ### What happens to a hart between its instructions -/

namespace Sys2Proof.Claims

/-- The byte that some stores, oldest first, leave at an offset of this device's memory: the newest one's that writes it. -/
def storedAt (l : List BufStore) (a : Nat) : Option Byte :=
  l.reverse.findSome? (fun st => ((offsets st.place).zip st.data).findSome? (fun x => if x.1 = a then some x.2 else none))

/-- Stores of writes alone, in program order, that lie in this device's memory, each byte at a place of its own. -/
def PlainStores (s : State) (st : Strip) : Prop :=
  st.stores.Pairwise (fun a b => a.ins ≤ b.ins) ∧ ∀ b ∈ st.stores, b.ins < st.count ∧ b.op = .write ∧ b.place.length = b.data.length ∧
    (offsets b.place).Nodup ∧ ∀ p ∈ b.place, ∃ pa, p = .phys pa ∧ s.dev.own pa = true

/-- No failed store awaits its report. -/
def NoFailures (s : State) : Prop := ∀ l ∈ s.dev.launches, l.failures = []

end Sys2Proof.Claims

/-- R190, R187, R170: once no vector instruction is in flight the oldest strip closes, when nothing of its hart is on its way to other nodes: each
byte in memory takes the newest of its stores, and then its commands are handed over. A store buffer that has waited too long makes a boundary fall due before the next instruction. -/
def Sys2Proof.Claims.StripsClose : Prop :=
  ∀ (s : State), s.hart.run = .running →
    let b := s.hart.brick
    let n := s.hart.num
    (∀ e rest, s.hart.inflight = [] → s.hart.ended = e :: rest → NoFailures s → MemoryCanonical s → s.dev.onWay s.hart.uid = [] →
      (e.strip.cmds = [] → PlainStores s e.strip → Completes (.stripClose b n) s fun t =>
        t.hart = { s.hart with ended := rest } ∧
        ∀ a, Memory.read t.dev.mem a = (storedAt e.strip.stores a).getD (Memory.read s.dev.mem a)) ∧
      (∀ chan id block, e.strip.stores = [] → e.strip.cmds = [.copy chan id block] → Completes (.stripClose b n) s fun t =>
        t.hart = { s.hart with ended := rest } ∧ t.dev.mem = s.dev.mem ∧
        (t.dev.course (b / 16)).copies = (s.dev.course (b / 16)).copies ++
          [{ uid := s.hart.uid, brick := b, ctx := s.hart.ctx, vmid := s.hart.vmid, launch := s.hart.launch, chan := chan, id := id, block := block }]) ∧
      (∀ chan id cmd, e.strip.stores = [] → e.strip.cmds = [.merge chan id cmd] → Completes (.stripClose b n) s fun t =>
        t.hart = { s.hart with ended := rest } ∧ t.dev.mem = s.dev.mem ∧
        (t.dev.course (b / 16)).merges = (s.dev.course (b / 16)).merges ++
          [{ uid := s.hart.uid, brick := b, ctx := s.hart.ctx, vmid := s.hart.vmid, launch := s.hart.launch, chan := chan, id := id, cmd := cmd }])) ∧
    (s.hart.inflight ≠ [] → exec (.stripClose b n) s = .next s) ∧
    (s.hart.strip.stores ≠ [] → exec (.storeBufferTimeout b n) s = .next { s with hart := { s.hart with timeout := true } }) ∧
    (s.hart.strip.stores = [] → exec (.storeBufferTimeout b n) s = .next s)

namespace Sys2Proof.Claims

/-- The queued smcast leaves the queue and ends its strip with its command, which takes one permit of each receiver; its own registers stand in
the checkpoint of the next strip, and the hart goes on where the scalar side stood (R97, R177, R345). -/
def Multicasts (s t : State) (q : Queued) (rest : List Queued) (v c : Nat) : Prop :=
  let u := s.asOf q
  t.hart.wait = .none ∧ t.hart.vqueue.map (·.word) = rest.map (·.word) ∧ t.hart.r.x = s.hart.r.x ∧ t.hart.r.f = s.hart.r.f ∧ t.pc = s.pc ∧
  t.hart.r.issued = s.hart.r.issued ∧ t.hart.serial = s.hart.serial + 1 ∧ t.hart.ckpt.pc = q.pc + 4 ∧
  t.dev.groups.map (·.permits) = s.dev.groups.map (fun g => if g.sender = s.hart.uid ∧ g.gone = false then g.permits - 1 else g.permits) ∧
  ∃ id buf dests, id = (let last := q.issued.getD c 0
      if last = 0xFFFFFFFF then 1 else last + 1) ∧
    t.hart.ended = s.hart.ended ++
      [{ strip := { u.hart.strip with cmds := s.hart.strip.cmds ++ [.mcast c id buf dests], serial := s.hart.serial }, ckpt := s.hart.ckpt
         freed := s.hart.freed }] ∧
    buf.data.toNat = (s.hart.r.v.getD v 0).toNat % 2 ^ (256 * lanes s) ∧
    (∀ x, x ∈ dests ↔ ∃ g ∈ s.dev.groups, (g.sender = s.hart.uid ∧ g.gone = false) ∧ x = (g.receiver, g.stream))

end Sys2Proof.Claims

/-- R378, R135, R177, R20: a tileon that waits gets its tiles once the brick has enough, an smcast that waits takes its permits once every receiver
has given one, neither of them during a changeover, and an access that waits for other nodes goes on once all it asked for has come. -/
def Sys2Proof.Claims.WaitsEnd : Prop :=
  ∀ (s : State), s.hart.run = .running →
    let b := s.hart.brick
    let n := s.hart.num
    (∀ k, s.hart.wait = .tileon k → s.hart.bound ≠ 0 → 1 ≤ k → k ≤ 8 → s.hart.r.ncl = 0 →
      let more := k - s.hart.spareTiles
      let holds := fun (r : Regs) => r.ncl.toNat = k ∧ ∀ m, m < 8 → r.tile.getD m 0 = if m < k then 0 else s.hart.r.tile.getD m 0
      (s.brick.change.isSome = true → exec (.tileClaimServed b n) s = .next s) ∧
      (s.hart.vqueue = [] → s.canClaim (·.tileRes) Hart.claims more = false → exec (.tileClaimServed b n) s = .next s) ∧
      (s.hart.vqueue = [] → s.brick.change = none → s.canClaim (·.tileRes) Hart.claims more = true →
        Completes (.tileClaimServed b n) s fun u => OnlyTiles s u ∧ holds u.hart.r) ∧
      (∀ q rest, s.hart.vqueue = q :: rest → isTileon q.word = true →
        (s.hart.inflight ≠ [] ∨ s.hart.entry ≠ none → exec (.tileClaimServed b n) s = .next s) ∧
        (s.hart.inflight = [] → s.hart.entry = none → s.brick.change = none → (s.asOf q).canClaim (·.tileRes) Hart.claims more = true →
          (s.hart.strip.younger q.ins).2 ≤ (s.asOf q).freeEntries → Completes (.tileClaimServed b n) s fun t => holds t.hart.r ∧
            t.hart.wait = .none ∧ t.hart.vqueue.map (·.word) = rest.map (·.word) ∧ t.hart.r.x = s.hart.r.x ∧ t.hart.r.f = s.hart.r.f ∧
            t.pc = s.pc ∧ t.hart.serial = s.hart.serial ∧ SameMemory s t))) ∧
    (∀ q rest, s.hart.wait = .smcast → s.hart.vqueue = q :: rest → isSmcast q.word = true →
      let v := q.word.toNat / 2 ^ 16 % 32
      let c := q.word.toNat / 2 ^ 9 % 4
      let u := s.asOf q
      let free := s.brick.change = none ∧ s.hart.inflight = [] ∧ s.hart.entry = none
      let mine := fun (g : McMember) => g.sender = s.hart.uid ∧ g.gone = false
      (¬ free → exec (.smcastStart b n) s = .next s) ∧
      (free → VReady u [v] → gOf u = 1 → u.hart.openCommands c < 64 → (s.hart.strip.younger q.ins).2 ≤ 256 →
        ((∃ g ∈ s.dev.groups, mine g ∧ g.permits = 0) → exec (.smcastStart b n) s = .next s) ∧
        ((∀ g ∈ s.dev.groups, mine g → 0 < g.permits) → Completes (.smcastStart b n) s fun t => Multicasts s t q rest v c))) ∧
    (s.hart.wait = .memory →
      let asked := fun (o : Outstanding) => o.owner = .hart s.hart.uid ∧ o.kind = 0
      ((∀ o ∈ s.dev.outstanding, ¬ asked o) → exec (.probePassDone b n) s = .next { s with hart := { s.hart with wait := .none } }) ∧
      ((∃ o ∈ s.dev.outstanding, asked o) → exec (.probePassDone b n) s = .next s))

/-- R95, R219, R116, R118, R112: a vector instruction that has finished completes: its flags are merged, and no register changes. A comparison that ends
gives the group the name and the physical registers of the live group it equals, else its own name with the lowest salt that is not taken, and
none when all four are. So does every other group that maps the same physical registers. -/
def Sys2Proof.Claims.VectorCompletion : Prop :=
  ∀ (s : State), s.hart.run = .running →
    let b := s.hart.brick
    let n := s.hart.num
    (∀ r rest, s.hart.inflight = r :: rest →
      (r.finished = true → Completes (.vectorInstructionComplete b n) s fun t => t.hart.inflight = rest ∧
        t.hart.fstat = s.hart.fstat ||| r.flags.bits ∧ t.hart.r.v = s.hart.r.v ∧ t.hart.r.x = s.hart.r.x ∧ t.hart.r.k = s.hart.r.k ∧
        t.pc = s.pc ∧ SameMemory s t) ∧
      (r.finished = false → exec (.vectorInstructionComplete b n) s = .next s)) ∧
    (∀ v m rest, v < 32 → s.hart.comparing = (v, m) :: rest →
      let alike := fun (l : NamedGroup) => l.name.digest = m.digest ∧ l.name.gm = m.gm
      let here := s.hart.r.named v m
      let equal := fun (l : NamedGroup) => alike l ∧ l.regs = here.regs ∧ l.mortar = here.mortar ∧ l.name.vl = m.vl ∧ l.name.vtype = m.vtype
      let size := 2 ^ m.gm.toNat
      let own := fun j => s.hart.r.phys.getD (v + j) []
      let named := fun (o : GroupName) (phys : Nat → Phys) => Completes (.nameCompareDone b n) s fun t =>
        let maps := fun u => t.hart.r.phys.getD u []
        t.hart.comparing = rest ∧ (∀ j, j < size → v + j < 32 → maps (v + j) = phys j) ∧
        (∀ u, u < 32 → u < v ∨ v + size ≤ u → (∀ j, j < size → s.hart.r.phys.getD u [] ≠ own j) → maps u = s.hart.r.phys.getD u []) ∧
        (∀ u, u < 32 → t.hart.r.names.getD u none =
          if u = v ∨ u % size = 0 ∧ ∀ j, j < size → maps (u + j) = maps (v + j) ∧ maps (v + j) ≠ [] then some o else s.hart.r.names.getD u none) ∧
        t.hart.r.v = s.hart.r.v ∧ t.hart.r.mortar = s.hart.r.mortar ∧ t.hart.r.x = s.hart.r.x ∧ t.hart.r.k = s.hart.r.k ∧ t.pc = s.pc ∧
        t.dev = s.dev
      (∀ l, l ∈ s.liveGroups → equal l → (∀ l' ∈ s.liveGroups, equal l' → l' = l) → l.phys.length = size →
        (∀ j j', j < size → j' < size → own j' ≠ [] → l.phys.getD j [] ≠ own j' ∧ (own j = own j' → j = j')) →
        named l.name (fun j => l.phys.getD j [])) ∧
      ((∀ l ∈ s.liveGroups, ¬ alike l) → named { m with salt := 0 } own) ∧
      (∀ l, (∀ l' ∈ s.liveGroups, alike l' → l' = l) → l ∈ s.liveGroups → alike l → ¬ equal l → l.name.salt = 0 →
        named { m with salt := 1 } own) ∧
      ((∀ l ∈ s.liveGroups, ¬ equal l) → (∀ k, k < 4 → ∃ l ∈ s.liveGroups, alike l ∧ l.name.salt = k) →
        exec (.nameCompareDone b n) s = .next { s with hart := { s.hart with comparing := rest } }))

/-! ### The engines -/

namespace Sys2Proof.Claims

/-- The i-th copy of a course, alone with nothing on its way: its command is to begin, and its channel waits for it. -/
def CopyHere (s : State) (c i : Nat) (j : CopyJob) : Prop :=
  (s.dev.course c).copies[i]? = some j ∧ s.dev.outstanding = [] ∧ j.stage = 0 ∧ j.landed = [] ∧ j.block.record = 0 ∧
  s.hart.run ≠ .free ∧ j.uid = s.hart.uid ∧ j.chan < 4 ∧ s.hart.finished = [] ∧
  j.id = (let last := s.hart.done.getD j.chan 0
          if last = 0xFFFFFFFF then 1 else last + 1)

/-- The brick of an engine's command holds a translation of an address, so that what the engine writes cannot change it. -/
def HeldFor (s : State) (i : Issuer) (va : Nat) : Prop := (s.dev.tlbFind i.brick i.ctx i.vmid (va % 2 ^ 64)).isSome = true

/-- An engine writes n bytes from an address on to one piece of this device's memory. -/
def Mapped (s : State) (i : Issuer) (va n off : Nat) : Prop :=
  ∃ pa, ∀ k, k < n → HeldFor s i (va + k) ∧ s.dev.engineAddr i ((va + k) % 2 ^ 64) .write = .ok (pa + k) ∧ s.dev.own (pa + k) = true ∧ offsetOf (pa + k) = off + k

/-- Code c of n D4 codes in segments of 64, and in four planes of bits (R174). -/
def codeInSegments (m : Nat → Byte) (c : Nat) : Nat := (m (36 * (c / 64) + c % 64 / 2)).toNat / 2 ^ (4 * (c % 2)) % 16
def codeInPlanes (m : Nat → Byte) (n c q : Nat) : Bool := (m (q * (n / 8) + c / 8)).getLsbD (c % 8)

/-- Byte o that a command brings to its destination from the bytes m of its source: the same byte, a transposed element's byte, or a byte of the
other image of D4 codes (R343, R344, R174). -/
def Brings (b : CopyBlock) (m : Nat → Byte) (o : Nat) (v : Byte) : Prop :=
  (b.xform = false → v = m o) ∧
  (b.xform = true → b.kind = 0 →
    let e := 2 ^ b.ecode
    v = m ((o / e % b.rows * b.cols + o / e / b.rows) * e + o % e)) ∧
  (b.xform = true → b.kind = 1 →
    (o < b.n / 2 → ∀ i, i < 8 → v.getLsbD i = (codeInSegments m (8 * (o % (b.n / 8)) + i)).testBit (o / (b.n / 8))) ∧
    (b.n / 2 ≤ o → v = m (36 * (o - b.n / 2) + 32))) ∧
  (b.xform = true → b.kind = 2 →
    let seg := o / 36
    let k := o % 36
    (k < 32 → ∀ q, q < 4 → v.getLsbD q = codeInPlanes m b.n (64 * seg + 2 * k) q ∧
      v.getLsbD (4 + q) = codeInPlanes m b.n (64 * seg + 2 * k + 1) q) ∧
    (k = 32 → v = m (b.n / 2 + seg)) ∧ (k = 33 → v = 4) ∧ (34 ≤ k → v = 0))

/-- The bytes of a command's source and destination (R343, R344, R174). -/
def sourceBytes (b : CopyBlock) : Nat :=
  if b.xform = false then b.len else if b.kind = 0 then b.rows * b.cols * 2 ^ b.ecode
  else if b.kind = 1 then 36 * (b.n / 64) else b.n / 2 + b.n / 64
def destinationBytes (b : CopyBlock) : Nat :=
  if b.xform = true ∧ b.kind = 1 then b.n / 2 + b.n / 64 else if b.xform = true ∧ b.kind = 2 then 36 * (b.n / 64) else sourceBytes b

end Sys2Proof.Claims

/-- R170, R171, R173, R174, R343, R344: a copy whose source can be read and whose destination can be written, here, brings each byte of the source as
it was before to its place, or each element or code of a transform to its place in the other image, writes no other byte, and lets DONE pass
its identifier. -/
def Sys2Proof.Claims.CopiesPerform : Prop :=
  ∀ (s : State) (c i : Nat) (j : CopyJob) (source dest : Nat → Nat), CopyHere s c i j →
    let b := j.block
    let w : Issuer := ⟨j.brick, j.ctx, j.vmid, j.launch⟩
    let m := fun o => Memory.read s.dev.mem (offsetOf (source o))
    (b.xform = true → sourceBytes b ≤ (b.dst - b.src).toNat ∧ destinationBytes b ≤ (b.src - b.dst).toNat) →
    (b.xform = true → b.kind ≤ 2 ∧ (b.kind ≠ 0 → b.n % 512 = 0) ∧ (b.kind = 0 → 1 ≤ b.rows ∧ 1 ≤ b.cols)) →
    (b.xform = true → b.kind = 1 → ∀ g, g < b.n / 64 → m (36 * g + 33) = 4 ∧ m (36 * g + 34) = 0 ∧ m (36 * g + 35) = 0) →
    (∀ o, o < sourceBytes b → s.dev.engineAddr w ((b.src.toNat + o) % 2 ^ 64) .read = .ok (source o) ∧ s.dev.own (source o) = true ∧
      s.dev.poisoned (offsetOf (source o)) = false) →
    (∀ o, o < destinationBytes b → HeldFor s w (b.dst.toNat + o) ∧ s.dev.engineAddr w ((b.dst.toNat + o) % 2 ^ 64) .write = .ok (dest o) ∧ s.dev.own (dest o) = true) →
    (∀ o, o + 1 < destinationBytes b → (b.dst.toNat + o + 1) % 64 ≠ 0 → dest (o + 1) = dest o + 1 ∧ offsetOf (dest (o + 1)) = offsetOf (dest o) + 1) →
    (∀ o o', o < o' → o' < destinationBytes b → offsetOf (dest o) ≠ offsetOf (dest o')) → MemoryCanonical s →
    Completes (.copyComplete c i) s fun t =>
      (∀ o, o < destinationBytes b → Brings b m o (Memory.read t.dev.mem (offsetOf (dest o)))) ∧
      (∀ a, (∀ o, o < destinationBytes b → offsetOf (dest o) ≠ a) → Memory.read t.dev.mem a = Memory.read s.dev.mem a) ∧
      (∃ l r, (s.dev.course c).copies = l ++ j :: r ∧ l.length = i ∧ (t.dev.course c).copies = l ++ r) ∧
      t.hart.done.getD j.chan 0 = j.id ∧ t.hart.r = s.hart.r ∧ t.hart.aerr = s.hart.aerr

/-- R170, R172, R175, R238: a command that names local memory, or a transform whose images overlap, writes nothing, reports an access error
to its hart and counts as done. That the overlap of a transform's images is judged by virtual addresses is log 66, the model's reading. -/
def Sys2Proof.Claims.CopiesRefused : Prop :=
  ∀ (s : State) (c i : Nat) (j : CopyJob) (k : Launch), CopyHere s c i j → s.dev.launch j.launch = some k →
    (s.dev.tenant k.record.vmid).even = false → s.hart.aerr.held = none → (∀ a ∈ s.dev.saved, a.hart.uid ≠ s.hart.uid) →
    let b := j.block
    let window := fun (va n : Nat) => ∃ o, o < n ∧ 0xFFFFFFFFE80000 ≤ (va + o) % 2 ^ 64 ∧ (va + o) % 2 ^ 64 < 2 ^ 56
    0 < destinationBytes b →
    (window b.src.toNat (sourceBytes b) ∨ window b.dst.toNat (destinationBytes b) ∨
      b.xform = true ∧ 0 < sourceBytes b ∧ ((b.dst - b.src).toNat < sourceBytes b ∨ (b.src - b.dst).toNat < destinationBytes b)) →
    Completes (.copyComplete c i) s fun t => t.dev.mem = s.dev.mem ∧ t.hart.done.getD j.chan 0 = j.id ∧ t.hart.r = s.hart.r ∧
      t.hart.aerr.held = some (BitVec.ofNat 64 (0x01 * 2 ^ 56 + 0x03 * 2 ^ 48 + j.chan * 2 ^ 46 + j.id.toNat))

/-- R177, R178, R168: a multicast that lands stands behind the others in its receiver's buffers, and is done when it was the last. The stream engine
fetches the next element of a mode-0 stream, but not during a changeover (R136), and an element that has come is at hand for its reader. -/
def Sys2Proof.Claims.StreamsDeliver : Prop :=
  ∀ (s : State) (c i sn : Nat), s.hart.run = .running → s.dev.saved = [] →
    let b := s.hart.brick
    let n := s.hart.num
    (∀ m l r, (s.dev.course c).mcasts = l ++ m :: r → l.length = i → m.receiver = s.hart.uid → m.sender ≠ s.hart.uid →
      (∃ g ∈ s.dev.groups, g.sender = m.sender ∧ g.receiver = m.receiver ∧ g.stream = m.stream) → (∀ g ∈ s.dev.groups, g.gone = false) →
      Completes (.mcastLand c i) s fun t => (∃ p, t.hart = { s.hart with landing := t.hart.landing, buffers := s.hart.buffers ++ [(m.stream, { m.buf with phys := p })] }) ∧
        (t.dev.course c).mcasts = l ++ r ∧ t.dev.mem = s.dev.mem) ∧
    (∀ m, (s.dev.course c).mcasts = [m] → i = 0 → m.sender = s.hart.uid → m.receiver ≠ s.hart.uid → (∀ g ∈ s.dev.groups, g.gone = false) →
      m.chan < 4 → s.hart.finished = [] → m.id = s.hart.done.getD m.chan 0 + 1 → m.id ≠ 0 → Completes (.mcastLand c i) s fun t =>
        t.hart.done.getD m.chan 0 = m.id ∧ (t.dev.course c).mcasts = []) ∧
    (s.brick.change.isSome = true → exec (.streamFetch b n sn) s = .next s) ∧
    (∀ st f u, sn < 8 → s.hart.r.streams.getD sn none = some st → st.desc.mode = 0 → s.hart.fetched = [] → s.hart.fetching = [] →
      s.hart.streamLanded = [] → s.hart.landed = [] → s.brick.change = none → 0 < st.left → st.desc.ew ≤ 3 → s.fetchElem st st.pos = .ok (f, u) →
      Completes (.streamFetch b n sn) s fun t => t.hart = { s.hart with fetching := [(sn, st.pos, f)] } ∧ t.dev.mem = s.dev.mem) ∧
    (∀ st ps hs u l, s.places (st.desc.addr st.pos) (2 ^ st.desc.ew) .read = .ok (ps, hs, u) →
      ps.map (u.see u.hart.earlierStores) = l.map Seen.byte → ∃ t, s.fetchElem st st.pos = .ok (.data (value l), t) ∧
        t.hart = u.hart ∧ Checked u.dev t.dev) ∧
    (∀ f l r, s.hart.fetching = l ++ f :: r → f.1 = sn → (∀ x ∈ l, x.1 ≠ sn) → Completes (.streamFetchComplete b n sn) s fun t =>
      t = { s with hart := { s.hart with fetching := l ++ r, fetched := s.hart.fetched ++ [f] } })

namespace Sys2Proof.Claims

/-- A merge command alone at its course's engine, with nothing on its way, that names no record. -/
def MergeHere (s : State) (c : Nat) (m : MergeMsg) : Prop :=
  (s.dev.course c).merges = [m] ∧ s.dev.outstanding = [] ∧ m.stage = 0 ∧ m.pos = 0 ∧ m.status = 0 ∧
  (∀ r f sp n l w, m.cmd = .openSession r f sp n l w → r = 0) ∧ (∀ r p q v cap, m.cmd = .fin r p q v cap → r = 0) ∧ (∀ r o, m.cmd = .stat r o → r = 0)

/-- The engine is done with the command: the session is as said, and the identifier counts as complete. -/
def MergeDone (s t : State) (c : Nat) (m : MergeMsg) (k : Option Session) : Prop :=
  (t.dev.course c).merges = [] ∧ (t.dev.course c).session = k ∧
  (s.hart.run ≠ .free → m.uid = s.hart.uid → m.chan < 4 → s.hart.finished = [] → m.id = s.hart.done.getD m.chan 0 + 1 → m.id ≠ 0 →
    t.hart.done.getD m.chan 0 = m.id ∧ t.hart.r = s.hart.r)

/-- The entries of a key in the order of their sum: by stream, and within one as they came (R182). -/
def entriesOfKey (l : List MergeEntry) (key : Nat) : List Nat :=
  (List.range 16).flatMap (fun q => (l.filter (fun e => decide (e.key = key ∧ e.stream = q))).map (·.val))

/-- What a session of resident entries alone emits (R182): its keys in rising order, each with the sum of its entries from left to right. -/
def Emits (k : Session) (out : List (Nat × Nat)) : Prop :=
  out.Pairwise (fun a b => a.1 < b.1) ∧ (∀ key, (∃ v, (key, v) ∈ out) ↔ ∃ e ∈ k.resident, e.key = key) ∧
  ∀ x ∈ out, ∃ v rest, entriesOfKey k.resident x.1 = v :: rest ∧
    x.2 = rest.foldl (fun a b => (fpAdd (if k.fp64 = true then .fp64 else .fp32) 0 a b).1) v

end Sys2Proof.Claims

/-- R179, R180, R183, R370, R371: mgopen opens the course's session when none is open and else fails; an entry that arrives uses its stream's next
arrival number and is accepted while there is room, counted when its row is out of range, and refused when the session is full. With the set
at its limit the engine first writes a run of 64 + 16 bytes for each entry + half a byte for each tag, rounded up to 64. -/
def Sys2Proof.Claims.MergeSessions : Prop :=
  ∀ (s : State) (c : Nat) (m : MergeMsg), MergeHere s c m →
    (∀ r fp64 spill bytes limit rows, m.cmd = .openSession r fp64 spill bytes limit rows →
      ((s.dev.course c).session = none → Completes (.mergeOpenCommand c 0) s fun t => t.dev.mem = s.dev.mem ∧ MergeDone s t c m
        (some { launch := m.launch, fp64 := fp64, limit := limit, rows := rows, spill := spill, spillBytes := bytes })) ∧
      (∀ k, (s.dev.course c).session = some k → Completes (.mergeOpenCommand c 0) s fun t =>
        t.dev.mem = s.dev.mem ∧ MergeDone s t c m (some k))) ∧
    (∀ key val k, m.cmd = .push [(key, val)] → (s.dev.course c).session = some k → k.launch = m.launch → val < 2 ^ 64 →
      let q := m.brick % 16
      let n := k.arrivals.getD q 0
      let counted : Session := { k with arrivals := k.arrivals.setIfInBounds q (n + 1) }
      let entry : MergeEntry := { key := key, val := if k.fp64 = true then val else val % 2 ^ 32, stream := q, arrival := n }
      let taken := fun (k' : Session) => Completes (.mergeEntryArrival c 0) s fun t =>
        (t.dev.course c).session = some k' ∧ (t.dev.course c).merges = []
      (k.rows ≤ key / 2 ^ 32 → taken { counted with outOfRange := k.outOfRange + 1 }) ∧
      (key / 2 ^ 32 < k.rows → k.full = false → k.resident.length < k.limit →
        taken { counted with accepted := k.accepted + 1, resident := k.resident ++ [entry] }) ∧
      (key / 2 ^ 32 < k.rows → k.full = true ∨ k.limit ≤ k.resident.length ∧ 64 ≤ k.runs.length →
        taken { counted with full := true, firstRefused := if (k.firstRefused.getD q none).isNone = true
          then k.firstRefused.setIfInBounds q (some n) else k.firstRefused }) ∧
      (∀ s1, key / 2 ^ 32 < k.rows → k.full = false → k.limit ≤ k.resident.length → k.runs.length < 64 →
        let size := (64 + 16 * k.resident.length + (k.resident.length + 1) / 2 + 63) / 64 * 64
        k.used + size ≤ k.spillBytes →
        s.engineWrite ⟨m.brick, m.ctx, m.vmid, m.launch⟩ (.merge c) (k.spill.toNat + k.used) k.run = (0, s1) → s1.dev.outstanding = [] →
        (s1.dev.course c) = s.dev.course c →
        taken { counted with accepted := k.accepted + 1, runs := k.runs ++ [(k.used, k.resident.length)], used := k.used + size, resident := [entry] })) ∧
    (∀ entries, m.cmd = .push entries → (s.dev.course c).session = none → Completes (.mergeEntryArrival c 0) s fun t =>
      (t.dev.course c).merges = [] ∧ (t.dev.course c).session = none)

/-- R182, R372, R373: mgfin of a session without runs writes ROWPTR, COL and VAL: for each row the number of keys in the rows below it, the keys' columns
in rising order of the keys, and the sum of each key's entries; it then closes the session. More keys than its capacity, and an FP64 VAL that is
misaligned, leave the session open and write nothing. mgstat writes the session's counts. Both fail without a session. -/
def Sys2Proof.Claims.MergeResults : Prop :=
  ∀ (s : State) (c : Nat) (m : MergeMsg), MergeHere s c m → MemoryCanonical s →
    let w : Issuer := ⟨m.brick, m.ctx, m.vmid, m.launch⟩
    (∀ i ∈ [Instr.mergeFinCommand c 0, Instr.mergeStatCommand c 0], (s.dev.course c).session = none →
      (∀ es, m.cmd ≠ .push es) → (∀ a b d e f g, m.cmd ≠ .openSession a b d e f g) →
      (i = .mergeFinCommand c 0 → ∀ a b, m.cmd ≠ .stat a b) → (i = .mergeStatCommand c 0 → ∀ a b d e f, m.cmd ≠ .fin a b d e f) →
      Completes i s fun t => t.dev.mem = s.dev.mem ∧ MergeDone s t c m none) ∧
    (∀ r rowptr col val cap k out, m.cmd = .fin r rowptr col val cap → (s.dev.course c).session = some k → k.launch = m.launch → k.runs = [] →
      (∀ e ∈ k.resident, e.stream < 16) → Emits k out → (k.fp64 = true → val.toNat % 8 = 0) →
      let size := if k.fp64 = true then 8 else 4
      (cap < out.length → Completes (.mergeFinCommand c 0) s fun t => t.dev.mem = s.dev.mem ∧ MergeDone s t c m (some k)) ∧
      (∀ o1 o2 o3, out.length ≤ cap →
        let n1 := 4 * (k.rows + 1)
        let n2 := 4 * out.length
        let n3 := size * out.length
        Mapped s w rowptr.toNat n1 o1 → Mapped s w col.toNat n2 o2 → Mapped s w val.toNat n3 o3 →
        (o1 + n1 ≤ o2 ∧ o2 + n2 ≤ o3 ∧ o3 + n3 ≤ s.dev.gddr) →
        Completes (.mergeFinCommand c 0) s fun t => MergeDone s t c m none ∧
          (∀ row, row ≤ k.rows → part (Memory.readBytes t.dev.mem o1 n1) (4 * row) 4 = (out.filter (fun x => x.1 / 2 ^ 32 < row)).length % 2 ^ 32) ∧
          (∀ x y, out[x]? = some y → part (Memory.readBytes t.dev.mem o2 n2) (4 * x) 4 = y.1 % 2 ^ 32 ∧
            part (Memory.readBytes t.dev.mem o3 n3) (size * x) size = y.2 % 2 ^ (8 * size)) ∧
          ∀ a, (a < o1 ∨ o1 + n1 ≤ a ∧ a < o2 ∨ o2 + n2 ≤ a ∧ a < o3 ∨ o3 + n3 ≤ a) → Memory.read t.dev.mem a = Memory.read s.dev.mem a)) ∧
    (∀ r rowptr col val cap k, m.cmd = .fin r rowptr col val cap → (s.dev.course c).session = some k → k.launch = m.launch → k.fp64 = true →
      val.toNat % 8 ≠ 0 → Completes (.mergeFinCommand c 0) s fun t => t.dev.mem = s.dev.mem ∧ MergeDone s t c m (some k)) ∧
    (∀ r out k off, m.cmd = .stat r out → (s.dev.course c).session = some k → k.launch = m.launch → Mapped s w out.toNat 128 off →
      off + 128 ≤ s.dev.gddr → Completes (.mergeStatCommand c 0) s fun t => MergeDone s t c m (some k) ∧
        let l := Memory.readBytes t.dev.mem off 128
        part l 0 4 = k.resident.length % 2 ^ 32 ∧ part l 4 1 = k.runs.length % 2 ^ 8 ∧ part l 5 1 = k.fp64.toNat ∧ part l 8 8 = k.used % 2 ^ 64 ∧
        part l 16 8 = k.outOfRange % 2 ^ 64 ∧ part l 24 8 = k.refused % 2 ^ 64 ∧ part l 32 8 = k.accepted % 2 ^ 64 ∧
        (∀ q, q < 16 → part l (64 + 4 * q) 4 = (match k.firstRefused.getD q none with | some n => n % 2 ^ 32 | none => 0xFFFFFFFF)) ∧
        ∀ a, (a < off ∨ off + 128 ≤ a) → Memory.read t.dev.mem a = Memory.read s.dev.mem a)

/-! ### The statements that have several parts -/

/-- R280, R191, R188, R282, R281, R148: scalar loads, buffered scalar stores, and the traps of scalar accesses. -/
def Obligations.ScalarMemory : Prop := ScalarLoads ∧ ScalarStores ∧ ScalarAccessTraps

/-- R283, R162, R193, R244: scalar atomics read and write one datum; misaligned and poisoned ones are not performed. -/
def Obligations.Atomics : Prop := ScalarAtomics ∧ ScalarAtomicsNotPerformed

/-- R284, R285, R88, R89, R243: jumps, branches and mask branches: where they go and what they write. -/
def Obligations.Transfers : Prop := ControlTransfer ∧ MaskBranches

/-- R286, R276, R204, R219, R287, R289, R288, R259: scalar FP arithmetic, classes, moves, comparisons and conversions. -/
def Obligations.ScalarFp : Prop := ScalarFpForms ∧ FpClassMovesCompares ∧ FpConversions

/-- R286, R205, R203, R213, R216, R288: FP results are the exact result rounded once, or what the rules give for zeros, infinities and NaNs.
-/
def Obligations.FpResultsAreRoundedOnce : Prop := FpFiniteResults ∧ FpZeroResults ∧ FpSpecialResults ∧ FpRoots ∧ FpExtremes ∧ ConversionsAreRoundedOnce

/-- R290, R291, R204, R132, R134, R138, R141, R128, R220, R239: what CSR writes change, when fields clear by a 1, and which writes wait for
the vector side. -/
def Obligations.CsrChanges : Prop := CsrWrites ∧ WriteOneClears ∧ LateCsrWrites

/-- R292, R89, R90, R101: setvl and setvli set VTYPE and VL at a strip boundary, and split the lanes of a fork. -/
def Obligations.VectorLength : Prop := SetVectorLength ∧ SplitAtSetvl

/-- R100, R102, R103: fork starts a child or fails; join waits, takes the value, or ends the child. -/
def Obligations.Forks : Prop := ForkStartsAChild ∧ JoinEndsAFork

/-- R134, R133, R142, R296, R138, R301: gear requests, timed waits with auto gear, and idle. -/
def Obligations.GearsAndWaits : Prop := GearRequests ∧ TimedWaits ∧ IdleAndItsEnds

/-- R297, R298: bara arrives at a barrier and barw waits for its release. -/
def Obligations.Barriers : Prop := BarrierArrival ∧ BarrierWait

/-- R226, R227, R228, R229, R233: taking a trap at the instruction, and with a strip restart. -/
def Obligations.TrapTaking : Prop := TrapEntry ∧ TrapRestartsStrip

/-- R319, R320, R321, R322, R323, R324, R264: vector merges and moves, and the mask instructions. -/
def Obligations.MergesAndMasks : Prop := MergesAndMoves ∧ MaskInstructions

/-- R309, R304, R213, R216, R310, R311, R312, R212: vector conversions and the narrow formats with their scales. -/
def Obligations.VectorFormats : Prop := VectorConversions ∧ NarrowFormats

/-- R313, R314, R222, R223, R315, R217: the exponential, the logarithm, the generators and the dot products. -/
def Obligations.FunctionsAndDots : Prop := FunctionsAndGenerators ∧ DotProducts

/-- R326, R327, R302, R191, R333, R235: vector loads and fault-first loads write the active elements. -/
def Obligations.VectorReads : Prop := VectorLoads ∧ FaultFirstLoads

/-- R326, R327, R188, R189, R332, R325, R156: vector stores buffer their active elements; mask loads and stores. -/
def Obligations.VectorWrites : Prop := VectorStores ∧ MaskLoadsAndStores

/-- R336, R337, R174: segments and planes: codes and scales to and from memory. -/
def Obligations.SegmentsAndPlanes : Prop := SegmentAndPlaneLoads ∧ SegmentAndPlaneStores

/-- R334, R163, R335, R162, R193: scatter-adds and vector atomics. -/
def Obligations.VectorUpdates : Prop := ScatterAdd ∧ VectorAtomics

/-- R164, R338, R340, R341, R166, R176, R346, R347, R171, R196, R241, R165, R339, R177: binding, unbinding and closing streams, reading and
writing through them; waiting for transfers. -/
def Obligations.StreamsAndWaits : Prop := StreamBinding ∧ StreamUnbinding ∧ TransferWaits ∧ StreamRegisters

/-- R342, R343, R344, R171, R187, R345, R177: copy commands and multicasts are issued. -/
def Obligations.TransferCommands : Prop := CopyCommands ∧ MulticastCommand

/-- R351, R352, R350, R358: bond passes exchange elements between lanes. -/
def Obligations.Passes : Prop := BondPasses ∧ BlockPasses

/-- R361, R217, R362, R360, R354, R355, R356, R117: sums, scans, operator trees and the operator slots. -/
def Obligations.Reductions : Prop := SumsAndScans ∧ OperatorTrees ∧ OperatorSlots

/-- R363: compress, sort and the largest element. -/
def Obligations.Orderings : Prop := CompressAndSort ∧ LargestElement

/-- R359, R352, R365, R366: routes, and sums and products of sparse registers. -/
def Obligations.RoutesAndSparseRegisters : Prop := Routes ∧ SparseRegisters

/-- R105, R378, R379, R380, R376, R375, R384, R385: claiming tiles, and loads and stores of tiles. -/
def Obligations.TileMemory : Prop := TileClaims ∧ TileLoadsAndStores

/-- R381, R382, R383, R217, R386, R387: outer products and slice moves. -/
def Obligations.TileArithmetic : Prop := OuterProducts ∧ SliceMoves

/-- R22, R25, R23, R26, R161, R405: what a port does with sequence numbers, errors, training and slots. -/
def Obligations.Ports : Prop := PortSequencing ∧ PortLife ∧ ScheduledSlots

/-- R20, R13, R15, R162, R198, R244, R163, R195, R219, R238: reads, writes and atomics for other nodes, and their answers. -/
def Obligations.FabricRequests : Prop := ReadsForOtherNodes ∧ WritesForOtherNodes ∧ AnswersFromOtherNodes

/-- R21, R35, R39, R38, R144, R23, R37: reads and writes of the management class. -/
def Obligations.Management : Prop := ManagementReads ∧ ManagementWrites

/-- R32, R144, R145, R21, R135, R137, R147, R59: thermal holds, changeovers and metering. -/
def Obligations.GearsOfTheDevice : Prop := ThrottleHolds ∧ ChangeoversAndEnergy

/-- R34, R36, R37, R38, R15, R245, R108, R109, R126: reset, the start order, readiness, and storage errors. -/
def Obligations.BringUpAndErrors : Prop := BringUp ∧ StorageErrors

/-- R41, R42, R44, R46, R47, R82, R159, R48, R45, R58: the registers of the windows, queues, contexts and the event ring. -/
def Obligations.HostWindows : Prop := WindowRegisters ∧ QueuesContextsAndEvents ∧ EventRing

/-- R51, R52, R43, R54, R159, R157, R124, R418, R82, R78, R81: signals, shootdowns and the commands of the scheduler. -/
def Obligations.HostCommands : Prop := SignalLane ∧ Shootdowns ∧ SchedulerCommands

/-- R49, R53, R54, R57, R55, R52, R36, R145, R62, R63, R64, R56, R99, R76, R81, R77, R80, R132, R147: launch records, dispatch, saves,
restores and completion. -/
def Obligations.Launches : Prop := LaunchRecords ∧ LaunchCompletion ∧ Dispatch ∧ SavesAndRestores

/-- R21, R69, R70, R71, R72, R73, R74, R297, R298, R299: gang tokens and the release of barriers. -/
def Obligations.GangsAndBarriers : Prop := GangTokens ∧ BarrierReleases

/-- R190, R187, R170, R378, R135, R177, R20, R95, R219, R116, R118, R112, R119, R120, R121: strips close, waits end, vector instructions
complete, and results are reused. -/
def Obligations.EventsOfAHart : Prop := StripsClose ∧ WaitsEnd ∧ VectorCompletion ∧ ReuseHits

/-- R170, R171, R173, R174, R343, R344, R172, R175, R238, R177, R178, R168: copies, multicasts and stream fetches perform. -/
def Obligations.EnginesDeliver : Prop := CopiesPerform ∧ CopiesRefused ∧ StreamsDeliver

/-- R179, R180, R183, R370, R371, R182, R372, R373: merge sessions accept entries and write their results. -/
def Obligations.MergeEngine : Prop := MergeSessions ∧ MergeResults

/-! ### The whole machine -/

namespace Sys2Proof.Claims

/-- Nothing comes before the instruction at the program counter of the hart in focus: nobody else's turn is due, the hart runs, its brick changes no
gear, no trap entry goes on, no vector instruction is queued or in flight, every ended strip has closed, and no CSR write, answer of an update,
boundary, report or idle is due. -/
structure AtInstruction (s : State) : Prop where
  agenda : s.dev.agenda = []
  running : s.hart.run = .running
  gear : s.brick.change = none
  entry : s.hart.entry = none
  vector : s.hart.inflight = [] ∧ s.hart.vqueue = []
  closed : s.hart.ended = []
  csr : s.hart.pendCsr = []
  updates : s.updatesPending = false
  boundary : s.hart.timeout = false
  report : s.hart.aerr.ate = false ∨ s.hart.aerr.inh = true ∨ s.hart.aerr.all = []
  idle : ∀ since done reports, s.hart.wait ≠ .idle since done reports

/-- What a step adds after an instruction, when no stores of an ended hart are left, nothing is saved and no wait that lowered the gear has
ended: no limit of a turn and no record that is continued stays behind. -/
def Ended (s t : State) : Prop := t = { s with hart := { s.hart with resume := none, budget := none } }

/-- A vector, mask, bond or tile instruction, smcast or mgpush: it runs on lane groups (R108). -/
def RunsOnLanes (w : Nat) : Prop :=
  let m := w / 2 ^ 26
  let fn := w / 2 ^ 11 % 32
  0x20 ≤ m ∧ m ≤ 0x3B ∧ m ≠ 0x30 ∧ m ≠ 0x37 ∧ (m = 0x31 → fn = 2 ∨ 5 ≤ fn) ∧ (m = 0x32 → fn = 1)

/-- The instruction in hand at u has led to t: the lane groups that it has started on wake, but not when it trapped, when it waits, or when a
reuse hit did its work (R108, R121). -/
def Wakes (u t t' : State) (w : Nat) : Prop :=
  let on := RunsOnLanes w ∧ t.dev.traps = u.dev.traps ∧ t.hart.wait = .none ∧ t.hart.reuseHit = u.hart.reuseHit
  let k := t.dev.brick u.hart.brick
  (on → t' = { t with dev := t.dev.setBrick u.hart.brick { k with retention := k.retention &&& ~~~u.hart.bound } }) ∧ (¬ on → t' = t)

/-- The state after what a step adds: the end of the instruction, the gear of a wait that has ended (R138), stores of ended harts (R190), and
the areas in the pool (R171). -/
def after (t : State) : State := t.settled.regear.closeEnded.syncAreas

/-- A step answers what an instruction answers in a state, with what a step adds after it. -/
def StepIs (s : State) (i : Instr) (u : State) (w : Nat) : Prop :=
  (∀ t, exec i u = .next t → ∃ t', Wakes u t t' w ∧ step s = .next (after t') ∧
    (t'.dev.closing = [] → t'.dev.saved = [] → t'.hart.gears.drop = false ∨ t'.counts = true → Ended t' (after t'))) ∧
  (∀ f, exec i u = .fault f → step s = .fault f) ∧ (∀ f, exec i u = .refused f → step s = .refused f)

/-- Words written out from the encodings of the specification, with the instructions they stand for. -/
noncomputable def wordsOf : List (Nat × Instr) :=
  [(0x08A6FFFC, .addi 5 6 0xFFFC#16), (0x40A6C002, .ld 5 6 .b8 .normal 2#10), (0x48A63C00, .amoadd 5 6 7 true .normal),
   (0x50200010, .jal 1 16#21), (0x58A60003, .beq 5 6 3#13), (0x5C400005, .bkany 2 5#13), (0x60221A00, .fadd 1 2 3 .fp32),
   (0x70A00005, .csrr 5 5), (0x70060804, .csrw 6 4), (0x7CA601C0, .setvl 5 6 7), (0x78A00014, .fork 5 20#16),
   (0x7C004064, .fence 0b000011#6 4), (0xC1050200, .sbind 8 5 2), (0xC9090900, .mgpush 8 9 1), (0xD102C002, .vpass 8 2 12 0 1),
   (0xD4820800, .vredS 4 2 1 0), (0xD441000A, .vroute 2 1), (0xDC450000, .opld 2 5), (0xE0011201, .topaS 0 1 2 2 1),
   (0xEC602800, .tmvr 3 0 5 0), (0xF0000000, .nop)]

/-- The words of vector, mask, bond and stream-register instructions, copies, multicasts, mgpush, outer products and slice moves: every one of
them reads VL or VTYPE, or runs on lanes (R88, R266, R376). -/
def LaneWord (w : Nat) : Prop :=
  let m := w / 2 ^ 26
  let fn := w / 2 ^ 11 % 32
  (0x20 ≤ m ∧ m ≤ 0x30) ∨ (m = 0x31 ∧ fn ≤ 2) ∨ (m = 0x32 ∧ fn = 1) ∨ (0x34 ≤ m ∧ m ≤ 0x36) ∨ m = 0x38 ∨ m = 0x3B

/-- The words of tile claims, and of tile loads and stores (R376). -/
def TileWord (w : Nat) : Prop := w / 2 ^ 26 = 0x39 ∨ w / 2 ^ 26 = 0x3A

/-- The instruction is an illegal one. An atomic, a scatter-add, and a store without room in the open strip have ended the strip first. -/
def Illegal (i : Instr) (s : State) (w : Nat) : Prop :=
  let m := w / 2 ^ 26
  let mode := w / 2 ^ 2 % 4
  let at' := fun (u : State) => exec i s = .next (u.takeTrap { cause := 0x01, kind := 0 })
  if m = 0x2F ∨ m = 0x2D ∧ mode = 3 then at' s.splitAndDrain
  else if m = 0x2D ∨ m = 0x2E then at' s ∨ at' s.splitAndDrain else at' s

/-- Vector instructions with the register groups that they name. -/
noncomputable def groupedForms (d a b k c : Nat) (imm : BitVec 5) (bf : Bool) (w : Width) (h : Hint) : List (Instr × List Nat) :=
  (intForms.map (fun m => (m.vv d a b k, [d, a, b]))) ++ (intForms.map (fun m => (m.vx d a b k, [d, a]))) ++
  (intForms.map (fun m => (m.vi d a imm k, [d, a]))) ++
  (fpForms.map (fun m => (m.1 d a b k bf, [d, a, b]))) ++ (fpForms.map (fun m => (m.2.1 d a b k bf, [d, a]))) ++
  (intCompares.map (fun m => (m.1 d a b k, [a, b]))) ++ (fpCompares.map (fun m => (m.1 d a b k bf, [a, b]))) ++
  [(.vfsqrt d a k bf, [d, a]), (.vfma d a b k bf, [d, a, b]), (.vfms d a b k bf, [d, a, b]), (.vadc d a b k, [d, a, b]),
   (.vsbc d a b k, [d, a, b]), (.vaddk d a b k, [a, b]), (.vmerge d a b k, [d, a, b]), (.vmvVv d a, [d, a]), (.vmvVx d b, [d]),
   (.vmvVf d b, [d]), (.vmvXv b a, [a]), (.vmvFv b a, [a]), (.vid d k, [d]), (.vfcvt d a b k c, [d, a]), (.vqz d a b k c, [d, a]),
   (.vdq d a b k c, [d, a]), (.vscl d a b k, [d, a, b]), (.vsclg d a, [d, a]), (.vfexp d a k, [d, a]), (.vflog d a k, [d, a]),
   (.vrng d k, [d]), (.vgumbel d k, [d]), (.vdotS d a b k (c % 6), [d, a, b]), (.vdotG d a b k (c % 6), [d, a, b]),
   (.vredS d a c k, [d, a]), (.vredG d a c k, [d, a]), (.vscanS d a c k, [d, a]), (.vscanG d a c k, [d, a]),
   (.vcompress d a k, [d, a]), (.vsort d a k, [d, a]), (.vsortD d a k, [d, a]), (.vroute d a, [d, a]),
   (.vld d a k bf bf w h, [d]), (.vlds d a b k bf bf w h, [d]), (.vldx d a b k bf bf w h, [d, b]), (.vldff d a k bf bf w h, [d]),
   (.vldseg d a k bf bf w h, [d]), (.vldpl d a k bf bf w h, [d])]

/-- The vector stores with theirs and the entries of the store buffer that they count. -/
noncomputable def groupedStores (s : State) (vs a b k : Nat) (f so : Bool) (w : Width) (h : Hint) : List (Instr × List Nat × Nat) :=
  [(.vst vs a k f so w h, [vs], stridedCount (s.x a).toNat w.bytes w.bytes (vlen s)),
   (.vsts vs a b k f so w h, [vs], stridedCount (s.x a).toNat (s.x b).toInt w.bytes (vlen s)),
   (.vstx vs a b k f so w h, [vs, b], 2 * vlen s), (.vstseg vs a k f so w h, [vs], entryCount (s.x a).toNat (36 * (vlen s / 32))),
   (.vstpl vs a k f so w h, [vs], entryCount (s.x a).toNat (vlen s + vlen s / 32))]

/-- The atomics of memory with theirs. -/
noncomputable def groupedAtomics (d a b k : Nat) (w : Width) (n : Bool) : List Instr :=
  [.vstxadd d a b k w n, .vamoadd d a b k w, .vamomin d a b k w n, .vamomax d a b k w n, .vamoswap d a b k w]

end Sys2Proof.Claims

/-- R201, R252, R270: with nothing before it, the step of a hart fetches the word at its program counter and runs the instruction the word
stands for, with the word in IWORD. A reserved word and a word of no instruction run the row of an illegal instruction, and a fetch that
fails runs the row of a fetch fault; one that other nodes must answer waits. Time passes first (log 6), and lane groups in retention on which
the instruction has started wake (R108), by a reuse hit none (R121). -/
def Obligations.StepRunsTheDecodedInstruction : Prop :=
  ∀ (s : State), AtInstruction s →
    s.tick.hart = s.hart ∧ s.tick.dev.mem = s.dev.mem ∧ (s.dev.time.counting = false → s.tick = s) ∧
    (∀ (w : BitVec 32) (u : State), s.tick.fetch = .ok (w, u) →
      let u' : State := { u with hart := { u.hart with iword := w } }
      (∀ i, decodeWord w.toNat = .ok i → StepIs s i u' w.toNat) ∧
      (decodeWord w.toNat = .error .reserved → StepIs s (.illegalInstruction true w) u' w.toNat) ∧
      (∀ e, e ≠ .reserved → decodeWord w.toNat = .error e → StepIs s (.illegalInstruction false w) u' w.toNat)) ∧
    (∀ t, s.tick.fetch = .error (.trap t) → StepIs s .instructionFetchFault s.tick 0) ∧
    (∀ w need, s.tick.fetch = .error (.wait w need) → step s = .next (after (s.tick.waitFor w need)))

/-- The encodings of the chapters 11 to 22: words of the families, written out bit by bit, decode to the instructions they stand for. -/
def Obligations.WordsDecode : Prop := ∀ p ∈ wordsOf, decodeTableWord 32 p.1 = some p.2 ∧ decodeWord p.1 = .ok p.2

/-- R248 to R270: every well-formed instruction that has a word decodes from that word to itself, whatever values its operands have, and its word
has 32 bits. -/
def Obligations.DecodeGivesBackEncode : Prop :=
  ∀ (i : Instr) (w : Nat), i.wf = true → encode i = some w → decodeWord w = .ok i ∧ decodeTableWord 32 w = some i

/-- R30, R34, R35, R42, R43, R82: what the specification says of the machine right after reset. -/
def Obligations.ResetValues : Prop :=
  let d := State.reset.dev
  d.time.dtime = 0 ∧ d.time.counting = false ∧ d.time.locked = false ∧ d.gmc.verified = false ∧ d.gmc.schedRunning = false ∧ d.gmc.thold = 1000 ∧
  d.gmc.readyBrick = 0 ∧ d.gmc.failBrick = 0 ∧ d.gmc.readyCourse = 0 ∧ d.gmc.failCourse = 0 ∧ d.gmc.readyChan = 0 ∧ d.gmc.failChan = 0 ∧
  (∀ p, (d.port p).ready = false ∧ (d.port p).fail = false) ∧
  (∀ q, (d.queue q).en = false ∧ (d.queue q).head = 0) ∧
  (∀ v, (d.tenant v).sigs = [] ∧ (d.tenant v).energy = 0 ∧ (d.tenant v).weight = 16 ∧ (d.tenant v).even = false) ∧
  d.devEnergy = 0 ∧ d.sched.quantum = 50 ∧ d.sched.saveSlots = 0 ∧ d.sched.cmd = 0 ∧ d.sched.busy = false ∧
  (∀ b, (d.brick b).retired = 0 ∧ (d.brick b).gear = false) ∧ d.gmc.corrected = 0 ∧
  State.reset.harts = [] ∧ d.launches = [] ∧ MemoryCanonical State.reset

/-- The model's own form of memory (log 4): whatever a step does, the memory of the device and of every brick keeps its canonical form. -/
def Obligations.MemoryKeepsItsForm : Prop := ∀ (s t : State), MemoryCanonical s → step s = .next t → MemoryCanonical t

/-- The specification gives every instruction and every event an effect: each of them answers a next state, in every state and for all operands.
None stops the machine. -/
def Obligations.EveryInstructionHasAnEffect : Prop := ∀ (i : Instr) (s : State), ∃ t, exec i s = .next t

/-- R88, R89, R376, R92: without a bound lane group, or with an illegal type, every vector, mask, bond and stream-register instruction, copy, multicast,
mgpush, outer product and slice move is an illegal instruction. Tile claims, tile loads and tile stores need a lane group alone: they run
while VILL is 1. A register group that begins at no multiple of G is an illegal operand. -/
def Obligations.VectorNeedsLanes : Prop :=
  (∀ (s : State) (i : Instr) (w : Nat), i.wf = true → encode i = some w → s.hart.resume = none →
    (∀ n, s.hart.r.streams.getD n none = none) → s.hart.strip.used ≤ 128 →
    (s.hart.bound = 0 ∨ s.hart.r.vtype.vill = true → LaneWord w → Illegal i s w) ∧
    (s.hart.bound = 0 → TileWord w → Traps i s 0x01 0)) ∧
  (∀ (s : State) (n t a b : Nat) (h : Hint) (r : List (Access × List Place)) (u : State) (mem : Nat → List Byte) (hs : Bool),
    s.hart.bound ≠ 0 → s.hart.r.vtype.vill = true → t < 8 →
    (1 ≤ n → n ≤ 8 → s.hart.r.ncl = 0 → s.canClaim (·.tileRes) Hart.claims (n - s.hart.spareTiles) = true →
      Completes (.tileon n) s fun v => OnlyTiles s v ∧ v.hart.r.ncl.toNat = n) ∧
    (Completes .tileoff s fun v => v.pc = s.pc + 4 ∧ v.hart.r.ncl = 0 ∧ v.hart.r.ten = 0) ∧
    (TileOn s False t →
      (Completes (.tzero t) s fun v => OnlyTiles s v ∧ v.hart.r.tile.getD t 0 = 0) ∧
      (Reached s .read noLane (tilePieces s a b) r u → Sees u r mem → Completes (.tld t a b h) s fun v =>
        OnlyTiles s v ∧ ∀ i, i < 256 → tileEl v 32 t (i / 16) (i % 16) = value (mem (tileWordAt s a b i))) ∧
      (s.reach .write noLane (tilePieces s a b) = .ok (r, hs, u) → s.hart.r.tfail = Vector.replicate 8 0 → tileNeed s a b ≤ s.freeEntries →
        Completes (.tst t a b h) s fun v => VectorBuffered s v false hs false false (tileNeed s a b) r
          (fun x => bytesOf 4 (BitVec.ofNat 64 (tileEl s 32 t (x.elem / 16) (x.elem % 16))))))) ∧
  ∀ (s : State) (d a b k c : Nat) (imm : BitVec 5) (f so : Bool) (w : Width) (h : Hint),
    let off := fun (v : Nat) => v % gOf s ≠ 0
    (VReady s [] →
      (∀ m ∈ groupedForms d a b k c imm f w h, (∃ v ∈ m.2, off v) → Traps m.1 s 0x02 0) ∧
      (∀ m ∈ groupedStores s d a b k f so w h, (∃ v ∈ m.2.1, off v) → m.2.2 ≤ s.freeEntries → Traps m.1 s 0x02 0)) ∧
    (VReady s.splitAndDrain [] → off d ∨ off b → ∀ i ∈ groupedAtomics d a b k w f,
      exec i s = .next (s.splitAndDrain.takeTrap { cause := 0x02, kind := 0 }))
end

