-- ==== Sys2Proof/Laws/Memory.lean ====
section
/-! SUPPORT. Memory: a read after a write, and that every operation keeps the canonical form. -/

namespace Sys2Proof.Machine

/-! ### Reads after writes -/

/-- An address below every listed one reads as unwritten. -/
theorem Memory.read_below : ∀ (m : List Host.Cell) (lo a : Nat), Memory.wfFrom lo m = true → a < lo →
    Memory.read m a = Memory.unwritten
  | [], _, _, _, _ => rfl
  | (c, b) :: rest, lo, a, h, ha => by
    simp only [Memory.wfFrom, Bool.and_eq_true, decide_eq_true_eq] at h
    have hne : c ≠ a := by omega
    simp only [Memory.read, hne, if_false]
    exact Memory.read_below rest (c + 1) a h.2 (by omega)

/-- In a canonical memory a write is read back, and every other address reads as before. -/
theorem Memory.read_write_from : ∀ (m : List Host.Cell) (lo a : Nat) (b : Byte) (x : Nat), Memory.wfFrom lo m = true →
    Memory.read (Memory.write m a b) x = if x = a then b else Memory.read m x
  | [], _, a, b, x, _ => by
    by_cases hb : b = Memory.unwritten <;> by_cases hx : x = a <;> simp [Memory.write, Memory.read, hb, hx]
    intro h; exact absurd h.symm hx
  | (c, v) :: rest, lo, a, b, x, h => by
    have h' := h
    simp only [Memory.wfFrom, Bool.and_eq_true, decide_eq_true_eq] at h'
    have below : ∀ y, y ≤ c → Memory.read rest y = Memory.unwritten := fun y hy =>
      Memory.read_below rest (c + 1) y h'.2 (by omega)
    by_cases h1 : a < c
    · have hac : c ≠ a := by omega
      by_cases hb : b = Memory.unwritten
      · by_cases hx : x = a
        · subst hx; simp [Memory.write, h1, hb, Memory.read, hac, below x (by omega)]
        · simp [Memory.write, h1, hb, hx]
      · by_cases hx : x = a
        · subst hx; simp [Memory.write, h1, hb, Memory.read]
        · have : ¬ a = x := fun e => hx e.symm
          simp [Memory.write, h1, hb, hx, Memory.read, this]
    · by_cases h2 : a = c
      · subst h2
        by_cases hb : b = Memory.unwritten
        · by_cases hx : x = a
          · subst hx; simp [Memory.write, hb, below x (by omega)]
          · have : ¬ a = x := fun e => hx e.symm
            simp [Memory.write, hb, hx, Memory.read, this]
        · by_cases hx : x = a
          · subst hx; simp [Memory.write, hb, Memory.read]
          · have : ¬ a = x := fun e => hx e.symm
            simp [Memory.write, hb, hx, Memory.read, this]
      · have ih := Memory.read_write_from rest (c + 1) a b x h'.2
        by_cases hx : c = x
        · subst hx
          simp [Memory.write, h1, h2, Memory.read, show ¬ c = a by omega]
        · simp [Memory.write, h1, h2, Memory.read, hx, ih]

theorem Memory.read_write (m : List Host.Cell) (a : Nat) (b : Byte) (x : Nat) (h : Memory.wf m = true) :
    Memory.read (Memory.write m a b) x = if x = a then b else Memory.read m x :=
  Memory.read_write_from m 0 a b x h

/-! ### The canonical form -/

theorem Memory.wfFrom_mono : ∀ (m : List Host.Cell) (lo lo' : Nat), lo' ≤ lo → Memory.wfFrom lo m = true → Memory.wfFrom lo' m = true
  | [], _, _, _, _ => rfl
  | (c, b) :: rest, lo, lo', hl, h => by
    simp only [Memory.wfFrom, Bool.and_eq_true, decide_eq_true_eq] at h ⊢
    exact ⟨⟨by omega, h.1.2⟩, h.2⟩

theorem Memory.wfFrom_write : ∀ (m : List Host.Cell) (lo a : Nat) (b : Byte), lo ≤ a → Memory.wfFrom lo m = true →
    Memory.wfFrom lo (Memory.write m a b) = true
  | [], lo, a, b, ha, _ => by
    by_cases hb : b = Memory.unwritten <;> simp [Memory.write, Memory.wfFrom, hb, ha]
  | (c, v) :: rest, lo, a, b, ha, h => by
    have h' := h
    simp only [Memory.wfFrom, Bool.and_eq_true, decide_eq_true_eq] at h'
    by_cases h1 : a < c
    · by_cases hb : b = Memory.unwritten
      · simpa [Memory.write, h1, hb] using h
      · have hv : (v == Memory.unwritten) = false := by simpa using h'.1.2
        have hac : a + 1 ≤ c := h1
        simp [Memory.write, h1, hb, Memory.wfFrom, ha, hv, h'.2, hac]
    · by_cases h2 : a = c
      · subst h2
        by_cases hb : b = Memory.unwritten
        · simpa [Memory.write, hb] using Memory.wfFrom_mono rest (a + 1) lo (by omega) h'.2
        · simp [Memory.write, hb, Memory.wfFrom, ha, h'.2]
      · have ih := Memory.wfFrom_write rest (c + 1) a b (by omega) h'.2
        have hv : (v == Memory.unwritten) = false := by simpa using h'.1.2
        simp [Memory.write, h1, h2, Memory.wfFrom, h'.1.1, hv, ih]

theorem Memory.wf_write (m : List Host.Cell) (a : Nat) (b : Byte) (h : Memory.wf m = true) :
    Memory.wf (Memory.write m a b) = true :=
  Memory.wfFrom_write m 0 a b (Nat.zero_le a) h

theorem Memory.wf_writeBytes : ∀ (l : List Byte) (m : List Host.Cell) (a : Nat), Memory.wf m = true →
    Memory.wf (Memory.writeBytes m a l) = true
  | [], _, _, h => h
  | b :: rest, m, a, h => Memory.wf_writeBytes rest (Memory.write m a b) (a + 1) (Memory.wf_write m a b h)

theorem Memory.wfFrom_filter (p : Host.Cell → Bool) : ∀ (m : List Host.Cell) (lo : Nat), Memory.wfFrom lo m = true →
    Memory.wfFrom lo (m.filter p) = true
  | [], _, _ => rfl
  | (c, b) :: rest, lo, h => by
    have h' := h
    simp only [Memory.wfFrom, Bool.and_eq_true, decide_eq_true_eq] at h'
    have ih := Memory.wfFrom_filter p rest (c + 1) h'.2
    by_cases hp : p (c, b) = true
    · simp [hp, Memory.wfFrom, h'.1.1, ih]
      simpa using h'.1.2
    · simp only [List.filter_cons, hp]
      exact Memory.wfFrom_mono _ (c + 1) lo (by omega) ih

theorem Memory.wf_clear (m : List Host.Cell) (lo hi : Nat) (h : Memory.wf m = true) : Memory.wf (Memory.clear m lo hi) = true :=
  Memory.wfFrom_filter _ m 0 h

/-! ### Several bytes -/

/-- Bytes outside those written read as before. -/
theorem Memory.read_writeBytes_out : ∀ (l : List Byte) (m : List Host.Cell) (a x : Nat), Memory.wf m = true →
    x < a ∨ a + l.length ≤ x → Memory.read (Memory.writeBytes m a l) x = Memory.read m x
  | [], _, _, _, _, _ => rfl
  | b :: rest, m, a, x, h, hx => by
    have hl : (b :: rest).length = rest.length + 1 := rfl
    rw [hl] at hx
    have ih := Memory.read_writeBytes_out rest (Memory.write m a b) (a + 1) x (Memory.wf_write m a b h) (by omega)
    have hne : x ≠ a := by omega
    simpa [Memory.writeBytes, Memory.read_write m a b x h, hne] using ih

/-- A byte that was written reads as it was written. -/
theorem Memory.read_writeBytes_in : ∀ (l : List Byte) (m : List Host.Cell) (a i : Nat), Memory.wf m = true →
    i < l.length → Memory.read (Memory.writeBytes m a l) (a + i) = l.getD i 0
  | [], _, _, _, _, hi => absurd hi (by simp)
  | b :: rest, m, a, 0, h, _ => by
    have out := Memory.read_writeBytes_out rest (Memory.write m a b) (a + 1) a (Memory.wf_write m a b h) (by omega)
    simpa [Memory.writeBytes, Memory.read_write m a b a h] using out
  | b :: rest, m, a, i + 1, h, hi => by
    have hl : i < rest.length := by simpa using hi
    have ih := Memory.read_writeBytes_in rest (Memory.write m a b) (a + 1) i (Memory.wf_write m a b h) hl
    have e : a + (i + 1) = a + 1 + i := by omega
    simpa [Memory.writeBytes, e] using ih

/-- What is written is read back. -/
theorem Memory.readBytes_writeBytes (m : List Host.Cell) (a : Nat) (l : List Byte) (h : Memory.wf m = true) :
    Memory.readBytes (Memory.writeBytes m a l) a l.length = l := by
  apply List.ext_getElem
  · simp [Memory.readBytes]
  · intro i h1 h2
    have := Memory.read_writeBytes_in l m a i h h2
    simp [Memory.readBytes, this, List.getD, h2]

end Sys2Proof.Machine
end

