-- ==== Sys2Proof/Laws/State.lean ====
section
/-! SUPPORT. What each update of the state leaves of each field: the lemmas by which later proofs read through an update without
unfolding it. -/

namespace Sys2Proof.Machine

variable (s : State) (n : Nat) (v : Word)

/-! ### Changing one part -/

@[simp] theorem State.mapHart_hart (f : Hart → Hart) : (s.mapHart f).hart = f s.hart := rfl
@[simp] theorem State.mapHart_dev (f : Hart → Hart) : (s.mapHart f).dev = s.dev := rfl
@[simp] theorem State.mapDev_hart (f : Device → Device) : (s.mapDev f).hart = s.hart := rfl
@[simp] theorem State.mapDev_dev (f : Device → Device) : (s.mapDev f).dev = f s.dev := rfl
@[simp] theorem State.mapRegs_r (f : Regs → Regs) : (s.mapRegs f).hart.r = f s.hart.r := rfl
@[simp] theorem State.mapRegs_dev (f : Regs → Regs) : (s.mapRegs f).dev = s.dev := rfl
@[simp] theorem State.mapBrick_hart (f : Brick → Brick) : (s.mapBrick f).hart = s.hart := rfl
@[simp] theorem State.draw_fst : s.draw.1 = s.dev.fresh := rfl
@[simp] theorem State.draw_hart : s.draw.2.hart = s.hart := rfl

@[simp] theorem State.mapRegs_brick (f : Regs → Regs) : (s.mapRegs f).hart.brick = s.hart.brick := rfl
@[simp] theorem State.mapRegs_num (f : Regs → Regs) : (s.mapRegs f).hart.num = s.hart.num := rfl
@[simp] theorem State.mapRegs_uid (f : Regs → Regs) : (s.mapRegs f).hart.uid = s.hart.uid := rfl
@[simp] theorem State.mapRegs_run (f : Regs → Regs) : (s.mapRegs f).hart.run = s.hart.run := rfl
@[simp] theorem State.mapRegs_ckpt (f : Regs → Regs) : (s.mapRegs f).hart.ckpt = s.hart.ckpt := rfl
@[simp] theorem State.mapRegs_serial (f : Regs → Regs) : (s.mapRegs f).hart.serial = s.hart.serial := rfl
@[simp] theorem State.mapRegs_queue (f : Regs → Regs) : (s.mapRegs f).hart.queue = s.hart.queue := rfl
@[simp] theorem State.mapRegs_seq (f : Regs → Regs) : (s.mapRegs f).hart.seq = s.hart.seq := rfl
@[simp] theorem State.mapRegs_index (f : Regs → Regs) : (s.mapRegs f).hart.index = s.hart.index := rfl
@[simp] theorem State.mapRegs_ctx (f : Regs → Regs) : (s.mapRegs f).hart.ctx = s.hart.ctx := rfl
@[simp] theorem State.mapRegs_vmid (f : Regs → Regs) : (s.mapRegs f).hart.vmid = s.hart.vmid := rfl
@[simp] theorem State.mapRegs_kernel (f : Regs → Regs) : (s.mapRegs f).hart.kernel = s.hart.kernel := rfl
@[simp] theorem State.mapRegs_levels (f : Regs → Regs) : (s.mapRegs f).hart.levels = s.hart.levels := rfl
@[simp] theorem State.mapRegs_tileRes (f : Regs → Regs) : (s.mapRegs f).hart.tileRes = s.hart.tileRes := rfl
@[simp] theorem State.mapRegs_streamRes (f : Regs → Regs) : (s.mapRegs f).hart.streamRes = s.hart.streamRes := rfl
@[simp] theorem State.mapRegs_iword (f : Regs → Regs) : (s.mapRegs f).hart.iword = s.hart.iword := rfl
@[simp] theorem State.mapRegs_lgn (f : Regs → Regs) : (s.mapRegs f).hart.lgn = s.hart.lgn := rfl
@[simp] theorem State.mapRegs_chg (f : Regs → Regs) : (s.mapRegs f).hart.chg = s.hart.chg := rfl
@[simp] theorem State.mapRegs_bound (f : Regs → Regs) : (s.mapRegs f).hart.bound = s.hart.bound := rfl
@[simp] theorem State.mapRegs_next (f : Regs → Regs) : (s.mapRegs f).hart.next = s.hart.next := rfl
@[simp] theorem State.mapRegs_ret (f : Regs → Regs) : (s.mapRegs f).hart.ret = s.hart.ret := rfl
@[simp] theorem State.mapRegs_fstat (f : Regs → Regs) : (s.mapRegs f).hart.fstat = s.hart.fstat := rfl
@[simp] theorem State.mapRegs_fidx (f : Regs → Regs) : (s.mapRegs f).hart.fidx = s.hart.fidx := rfl
@[simp] theorem State.mapRegs_frm (f : Regs → Regs) : (s.mapRegs f).hart.frm = s.hart.frm := rfl
@[simp] theorem State.mapRegs_done (f : Regs → Regs) : (s.mapRegs f).hart.done = s.hart.done := rfl
@[simp] theorem State.mapRegs_finished (f : Regs → Regs) : (s.mapRegs f).hart.finished = s.hart.finished := rfl
@[simp] theorem State.mapRegs_aerr (f : Regs → Regs) : (s.mapRegs f).hart.aerr = s.hart.aerr := rfl
@[simp] theorem State.mapRegs_gears (f : Regs → Regs) : (s.mapRegs f).hart.gears = s.hart.gears := rfl
@[simp] theorem State.mapRegs_vskew (f : Regs → Regs) : (s.mapRegs f).hart.vskew = s.hart.vskew := rfl
@[simp] theorem State.mapRegs_energy (f : Regs → Regs) : (s.mapRegs f).hart.energy = s.hart.energy := rfl
@[simp] theorem State.mapRegs_reuseHit (f : Regs → Regs) : (s.mapRegs f).hart.reuseHit = s.hart.reuseHit := rfl
@[simp] theorem State.mapRegs_strip (f : Regs → Regs) : (s.mapRegs f).hart.strip = s.hart.strip := rfl
@[simp] theorem State.mapRegs_ended (f : Regs → Regs) : (s.mapRegs f).hart.ended = s.hart.ended := rfl
@[simp] theorem State.mapRegs_freed (f : Regs → Regs) : (s.mapRegs f).hart.freed = s.hart.freed := rfl
@[simp] theorem State.mapRegs_timeout (f : Regs → Regs) : (s.mapRegs f).hart.timeout = s.hart.timeout := rfl
@[simp] theorem State.mapRegs_entry (f : Regs → Regs) : (s.mapRegs f).hart.entry = s.hart.entry := rfl
@[simp] theorem State.mapRegs_vqueue (f : Regs → Regs) : (s.mapRegs f).hart.vqueue = s.hart.vqueue := rfl
@[simp] theorem State.mapRegs_inflight (f : Regs → Regs) : (s.mapRegs f).hart.inflight = s.hart.inflight := rfl
@[simp] theorem State.mapRegs_pendCsr (f : Regs → Regs) : (s.mapRegs f).hart.pendCsr = s.hart.pendCsr := rfl
@[simp] theorem State.mapRegs_landed (f : Regs → Regs) : (s.mapRegs f).hart.landed = s.hart.landed := rfl
@[simp] theorem State.mapRegs_wait (f : Regs → Regs) : (s.mapRegs f).hart.wait = s.hart.wait := rfl
@[simp] theorem State.mapRegs_fork (f : Regs → Regs) : (s.mapRegs f).hart.fork = s.hart.fork := rfl
@[simp] theorem State.mapRegs_arrivals (f : Regs → Regs) : (s.mapRegs f).hart.arrivals = s.hart.arrivals := rfl
@[simp] theorem State.mapRegs_fetched (f : Regs → Regs) : (s.mapRegs f).hart.fetched = s.hart.fetched := rfl
@[simp] theorem State.mapRegs_fetching (f : Regs → Regs) : (s.mapRegs f).hart.fetching = s.hart.fetching := rfl
@[simp] theorem State.mapRegs_streamLanded (f : Regs → Regs) : (s.mapRegs f).hart.streamLanded = s.hart.streamLanded := rfl
@[simp] theorem State.mapRegs_buffers (f : Regs → Regs) : (s.mapRegs f).hart.buffers = s.hart.buffers := rfl
@[simp] theorem State.mapRegs_landing (f : Regs → Regs) : (s.mapRegs f).hart.landing = s.hart.landing := rfl
@[simp] theorem State.mapRegs_unbound (f : Regs → Regs) : (s.mapRegs f).hart.unbound = s.hart.unbound := rfl
@[simp] theorem State.mapRegs_comparing (f : Regs → Regs) : (s.mapRegs f).hart.comparing = s.hart.comparing := rfl
@[simp] theorem State.mapRegs_budget (f : Regs → Regs) : (s.mapRegs f).hart.budget = s.hart.budget := rfl
@[simp] theorem State.mapRegs_resume (f : Regs → Regs) : (s.mapRegs f).hart.resume = s.hart.resume := rfl

/-! ### The program counter -/

@[simp] theorem State.setPc_dev : (s.setPc v).dev = s.dev := rfl
@[simp] theorem State.advance_dev : s.advance.dev = s.dev := rfl
@[simp] theorem State.setPc_pc : (s.setPc v).hart.r.pc = v := rfl
@[simp] theorem State.advance_pc : s.advance.hart.r.pc = s.hart.r.pc + 4 := rfl
@[simp] theorem State.setPc_r_x : (s.setPc v).hart.r.x = s.hart.r.x := rfl
@[simp] theorem State.advance_r_x : s.advance.hart.r.x = s.hart.r.x := rfl
@[simp] theorem State.setPc_r_f : (s.setPc v).hart.r.f = s.hart.r.f := rfl
@[simp] theorem State.advance_r_f : s.advance.hart.r.f = s.hart.r.f := rfl
@[simp] theorem State.setPc_r_v : (s.setPc v).hart.r.v = s.hart.r.v := rfl
@[simp] theorem State.advance_r_v : s.advance.hart.r.v = s.hart.r.v := rfl
@[simp] theorem State.setPc_r_mortar : (s.setPc v).hart.r.mortar = s.hart.r.mortar := rfl
@[simp] theorem State.advance_r_mortar : s.advance.hart.r.mortar = s.hart.r.mortar := rfl
@[simp] theorem State.setPc_r_names : (s.setPc v).hart.r.names = s.hart.r.names := rfl
@[simp] theorem State.advance_r_names : s.advance.hart.r.names = s.hart.r.names := rfl
@[simp] theorem State.setPc_r_phys : (s.setPc v).hart.r.phys = s.hart.r.phys := rfl
@[simp] theorem State.advance_r_phys : s.advance.hart.r.phys = s.hart.r.phys := rfl
@[simp] theorem State.setPc_r_k : (s.setPc v).hart.r.k = s.hart.r.k := rfl
@[simp] theorem State.advance_r_k : s.advance.hart.r.k = s.hart.r.k := rfl
@[simp] theorem State.setPc_r_vl : (s.setPc v).hart.r.vl = s.hart.r.vl := rfl
@[simp] theorem State.advance_r_vl : s.advance.hart.r.vl = s.hart.r.vl := rfl
@[simp] theorem State.setPc_r_vtype : (s.setPc v).hart.r.vtype = s.hart.r.vtype := rfl
@[simp] theorem State.advance_r_vtype : s.advance.hart.r.vtype = s.hart.r.vtype := rfl
@[simp] theorem State.setPc_r_slen : (s.setPc v).hart.r.slen = s.hart.r.slen := rfl
@[simp] theorem State.advance_r_slen : s.advance.hart.r.slen = s.hart.r.slen := rfl
@[simp] theorem State.setPc_r_passst : (s.setPc v).hart.r.passst = s.hart.r.passst := rfl
@[simp] theorem State.advance_r_passst : s.advance.hart.r.passst = s.hart.r.passst := rfl
@[simp] theorem State.setPc_r_gkey : (s.setPc v).hart.r.gkey = s.hart.r.gkey := rfl
@[simp] theorem State.advance_r_gkey : s.advance.hart.r.gkey = s.hart.r.gkey := rfl
@[simp] theorem State.setPc_r_gpos : (s.setPc v).hart.r.gpos = s.hart.r.gpos := rfl
@[simp] theorem State.advance_r_gpos : s.advance.hart.r.gpos = s.hart.r.gpos := rfl
@[simp] theorem State.setPc_r_streams : (s.setPc v).hart.r.streams = s.hart.r.streams := rfl
@[simp] theorem State.advance_r_streams : s.advance.hart.r.streams = s.hart.r.streams := rfl
@[simp] theorem State.setPc_r_tile : (s.setPc v).hart.r.tile = s.hart.r.tile := rfl
@[simp] theorem State.advance_r_tile : s.advance.hart.r.tile = s.hart.r.tile := rfl
@[simp] theorem State.setPc_r_ncl : (s.setPc v).hart.r.ncl = s.hart.r.ncl := rfl
@[simp] theorem State.advance_r_ncl : s.advance.hart.r.ncl = s.hart.r.ncl := rfl
@[simp] theorem State.setPc_r_ten : (s.setPc v).hart.r.ten = s.hart.r.ten := rfl
@[simp] theorem State.advance_r_ten : s.advance.hart.r.ten = s.hart.r.ten := rfl
@[simp] theorem State.setPc_r_claim : (s.setPc v).hart.r.claim = s.hart.r.claim := rfl
@[simp] theorem State.advance_r_claim : s.advance.hart.r.claim = s.hart.r.claim := rfl
@[simp] theorem State.setPc_r_issued : (s.setPc v).hart.r.issued = s.hart.r.issued := rfl
@[simp] theorem State.advance_r_issued : s.advance.hart.r.issued = s.hart.r.issued := rfl
@[simp] theorem State.setPc_r_lidx : (s.setPc v).hart.r.lidx = s.hart.r.lidx := rfl
@[simp] theorem State.advance_r_lidx : s.advance.hart.r.lidx = s.hart.r.lidx := rfl
@[simp] theorem State.setPc_r_ops : (s.setPc v).hart.r.ops = s.hart.r.ops := rfl
@[simp] theorem State.advance_r_ops : s.advance.hart.r.ops = s.hart.r.ops := rfl
@[simp] theorem State.setPc_r_kgen : (s.setPc v).hart.r.kgen = s.hart.r.kgen := rfl
@[simp] theorem State.advance_r_kgen : s.advance.hart.r.kgen = s.hart.r.kgen := rfl
@[simp] theorem State.setPc_r_ogen : (s.setPc v).hart.r.ogen = s.hart.r.ogen := rfl
@[simp] theorem State.advance_r_ogen : s.advance.hart.r.ogen = s.hart.r.ogen := rfl
@[simp] theorem State.setPc_r_vfail : (s.setPc v).hart.r.vfail = s.hart.r.vfail := rfl
@[simp] theorem State.advance_r_vfail : s.advance.hart.r.vfail = s.hart.r.vfail := rfl
@[simp] theorem State.setPc_r_kfail : (s.setPc v).hart.r.kfail = s.hart.r.kfail := rfl
@[simp] theorem State.advance_r_kfail : s.advance.hart.r.kfail = s.hart.r.kfail := rfl
@[simp] theorem State.setPc_r_tfail : (s.setPc v).hart.r.tfail = s.hart.r.tfail := rfl
@[simp] theorem State.advance_r_tfail : s.advance.hart.r.tfail = s.hart.r.tfail := rfl
@[simp] theorem State.setPc_brick : (s.setPc v).hart.brick = s.hart.brick := rfl
@[simp] theorem State.advance_brick : s.advance.hart.brick = s.hart.brick := rfl
@[simp] theorem State.setPc_num : (s.setPc v).hart.num = s.hart.num := rfl
@[simp] theorem State.advance_num : s.advance.hart.num = s.hart.num := rfl
@[simp] theorem State.setPc_uid : (s.setPc v).hart.uid = s.hart.uid := rfl
@[simp] theorem State.advance_uid : s.advance.hart.uid = s.hart.uid := rfl
@[simp] theorem State.setPc_run : (s.setPc v).hart.run = s.hart.run := rfl
@[simp] theorem State.advance_run : s.advance.hart.run = s.hart.run := rfl
@[simp] theorem State.setPc_ckpt : (s.setPc v).hart.ckpt = s.hart.ckpt := rfl
@[simp] theorem State.advance_ckpt : s.advance.hart.ckpt = s.hart.ckpt := rfl
@[simp] theorem State.setPc_serial : (s.setPc v).hart.serial = s.hart.serial := rfl
@[simp] theorem State.advance_serial : s.advance.hart.serial = s.hart.serial := rfl
@[simp] theorem State.setPc_queue : (s.setPc v).hart.queue = s.hart.queue := rfl
@[simp] theorem State.advance_queue : s.advance.hart.queue = s.hart.queue := rfl
@[simp] theorem State.setPc_seq : (s.setPc v).hart.seq = s.hart.seq := rfl
@[simp] theorem State.advance_seq : s.advance.hart.seq = s.hart.seq := rfl
@[simp] theorem State.setPc_index : (s.setPc v).hart.index = s.hart.index := rfl
@[simp] theorem State.advance_index : s.advance.hart.index = s.hart.index := rfl
@[simp] theorem State.setPc_ctx : (s.setPc v).hart.ctx = s.hart.ctx := rfl
@[simp] theorem State.advance_ctx : s.advance.hart.ctx = s.hart.ctx := rfl
@[simp] theorem State.setPc_vmid : (s.setPc v).hart.vmid = s.hart.vmid := rfl
@[simp] theorem State.advance_vmid : s.advance.hart.vmid = s.hart.vmid := rfl
@[simp] theorem State.setPc_kernel : (s.setPc v).hart.kernel = s.hart.kernel := rfl
@[simp] theorem State.advance_kernel : s.advance.hart.kernel = s.hart.kernel := rfl
@[simp] theorem State.setPc_levels : (s.setPc v).hart.levels = s.hart.levels := rfl
@[simp] theorem State.advance_levels : s.advance.hart.levels = s.hart.levels := rfl
@[simp] theorem State.setPc_tileRes : (s.setPc v).hart.tileRes = s.hart.tileRes := rfl
@[simp] theorem State.advance_tileRes : s.advance.hart.tileRes = s.hart.tileRes := rfl
@[simp] theorem State.setPc_streamRes : (s.setPc v).hart.streamRes = s.hart.streamRes := rfl
@[simp] theorem State.advance_streamRes : s.advance.hart.streamRes = s.hart.streamRes := rfl
@[simp] theorem State.setPc_iword : (s.setPc v).hart.iword = s.hart.iword := rfl
@[simp] theorem State.advance_iword : s.advance.hart.iword = s.hart.iword := rfl
@[simp] theorem State.setPc_lgn : (s.setPc v).hart.lgn = s.hart.lgn := rfl
@[simp] theorem State.advance_lgn : s.advance.hart.lgn = s.hart.lgn := rfl
@[simp] theorem State.setPc_chg : (s.setPc v).hart.chg = s.hart.chg := rfl
@[simp] theorem State.advance_chg : s.advance.hart.chg = s.hart.chg := rfl
@[simp] theorem State.setPc_bound : (s.setPc v).hart.bound = s.hart.bound := rfl
@[simp] theorem State.advance_bound : s.advance.hart.bound = s.hart.bound := rfl
@[simp] theorem State.setPc_next : (s.setPc v).hart.next = s.hart.next := rfl
@[simp] theorem State.advance_next : s.advance.hart.next = s.hart.next := rfl
@[simp] theorem State.setPc_ret : (s.setPc v).hart.ret = s.hart.ret := rfl
@[simp] theorem State.advance_ret : s.advance.hart.ret = s.hart.ret := rfl
@[simp] theorem State.setPc_fstat : (s.setPc v).hart.fstat = s.hart.fstat := rfl
@[simp] theorem State.advance_fstat : s.advance.hart.fstat = s.hart.fstat := rfl
@[simp] theorem State.setPc_fidx : (s.setPc v).hart.fidx = s.hart.fidx := rfl
@[simp] theorem State.advance_fidx : s.advance.hart.fidx = s.hart.fidx := rfl
@[simp] theorem State.setPc_frm : (s.setPc v).hart.frm = s.hart.frm := rfl
@[simp] theorem State.advance_frm : s.advance.hart.frm = s.hart.frm := rfl
@[simp] theorem State.setPc_done : (s.setPc v).hart.done = s.hart.done := rfl
@[simp] theorem State.advance_done : s.advance.hart.done = s.hart.done := rfl
@[simp] theorem State.setPc_finished : (s.setPc v).hart.finished = s.hart.finished := rfl
@[simp] theorem State.advance_finished : s.advance.hart.finished = s.hart.finished := rfl
@[simp] theorem State.setPc_aerr : (s.setPc v).hart.aerr = s.hart.aerr := rfl
@[simp] theorem State.advance_aerr : s.advance.hart.aerr = s.hart.aerr := rfl
@[simp] theorem State.setPc_gears : (s.setPc v).hart.gears = s.hart.gears := rfl
@[simp] theorem State.advance_gears : s.advance.hart.gears = s.hart.gears := rfl
@[simp] theorem State.setPc_vskew : (s.setPc v).hart.vskew = s.hart.vskew := rfl
@[simp] theorem State.advance_vskew : s.advance.hart.vskew = s.hart.vskew := rfl
@[simp] theorem State.setPc_energy : (s.setPc v).hart.energy = s.hart.energy := rfl
@[simp] theorem State.advance_energy : s.advance.hart.energy = s.hart.energy := rfl
@[simp] theorem State.setPc_reuseHit : (s.setPc v).hart.reuseHit = s.hart.reuseHit := rfl
@[simp] theorem State.advance_reuseHit : s.advance.hart.reuseHit = s.hart.reuseHit := rfl
@[simp] theorem State.setPc_strip : (s.setPc v).hart.strip = s.hart.strip := rfl
@[simp] theorem State.advance_strip : s.advance.hart.strip = s.hart.strip := rfl
@[simp] theorem State.setPc_ended : (s.setPc v).hart.ended = s.hart.ended := rfl
@[simp] theorem State.advance_ended : s.advance.hart.ended = s.hart.ended := rfl
@[simp] theorem State.setPc_freed : (s.setPc v).hart.freed = s.hart.freed := rfl
@[simp] theorem State.advance_freed : s.advance.hart.freed = s.hart.freed := rfl
@[simp] theorem State.setPc_timeout : (s.setPc v).hart.timeout = s.hart.timeout := rfl
@[simp] theorem State.advance_timeout : s.advance.hart.timeout = s.hart.timeout := rfl
@[simp] theorem State.setPc_entry : (s.setPc v).hart.entry = s.hart.entry := rfl
@[simp] theorem State.advance_entry : s.advance.hart.entry = s.hart.entry := rfl
@[simp] theorem State.setPc_vqueue : (s.setPc v).hart.vqueue = s.hart.vqueue := rfl
@[simp] theorem State.advance_vqueue : s.advance.hart.vqueue = s.hart.vqueue := rfl
@[simp] theorem State.setPc_inflight : (s.setPc v).hart.inflight = s.hart.inflight := rfl
@[simp] theorem State.advance_inflight : s.advance.hart.inflight = s.hart.inflight := rfl
@[simp] theorem State.setPc_pendCsr : (s.setPc v).hart.pendCsr = s.hart.pendCsr := rfl
@[simp] theorem State.advance_pendCsr : s.advance.hart.pendCsr = s.hart.pendCsr := rfl
@[simp] theorem State.setPc_landed : (s.setPc v).hart.landed = s.hart.landed := rfl
@[simp] theorem State.advance_landed : s.advance.hart.landed = s.hart.landed := rfl
@[simp] theorem State.setPc_wait : (s.setPc v).hart.wait = s.hart.wait := rfl
@[simp] theorem State.advance_wait : s.advance.hart.wait = s.hart.wait := rfl
@[simp] theorem State.setPc_fork : (s.setPc v).hart.fork = s.hart.fork := rfl
@[simp] theorem State.advance_fork : s.advance.hart.fork = s.hart.fork := rfl
@[simp] theorem State.setPc_arrivals : (s.setPc v).hart.arrivals = s.hart.arrivals := rfl
@[simp] theorem State.advance_arrivals : s.advance.hart.arrivals = s.hart.arrivals := rfl
@[simp] theorem State.setPc_fetched : (s.setPc v).hart.fetched = s.hart.fetched := rfl
@[simp] theorem State.advance_fetched : s.advance.hart.fetched = s.hart.fetched := rfl
@[simp] theorem State.setPc_fetching : (s.setPc v).hart.fetching = s.hart.fetching := rfl
@[simp] theorem State.advance_fetching : s.advance.hart.fetching = s.hart.fetching := rfl
@[simp] theorem State.setPc_streamLanded : (s.setPc v).hart.streamLanded = s.hart.streamLanded := rfl
@[simp] theorem State.advance_streamLanded : s.advance.hart.streamLanded = s.hart.streamLanded := rfl
@[simp] theorem State.setPc_buffers : (s.setPc v).hart.buffers = s.hart.buffers := rfl
@[simp] theorem State.advance_buffers : s.advance.hart.buffers = s.hart.buffers := rfl
@[simp] theorem State.setPc_landing : (s.setPc v).hart.landing = s.hart.landing := rfl
@[simp] theorem State.advance_landing : s.advance.hart.landing = s.hart.landing := rfl
@[simp] theorem State.setPc_unbound : (s.setPc v).hart.unbound = s.hart.unbound := rfl
@[simp] theorem State.advance_unbound : s.advance.hart.unbound = s.hart.unbound := rfl
@[simp] theorem State.setPc_comparing : (s.setPc v).hart.comparing = s.hart.comparing := rfl
@[simp] theorem State.advance_comparing : s.advance.hart.comparing = s.hart.comparing := rfl
@[simp] theorem State.setPc_budget : (s.setPc v).hart.budget = s.hart.budget := rfl
@[simp] theorem State.advance_budget : s.advance.hart.budget = s.hart.budget := rfl
@[simp] theorem State.setPc_resume : (s.setPc v).hart.resume = s.hart.resume := rfl
@[simp] theorem State.advance_resume : s.advance.hart.resume = s.hart.resume := rfl

/-! ### The end of an instruction -/

@[simp] theorem State.retire_dev : s.retire.dev = s.dev := rfl
@[simp] theorem State.retire_pc : s.retire.hart.r.pc = s.hart.r.pc + 4 := rfl
@[simp] theorem State.retire_wait : s.retire.hart.wait = .none := rfl
@[simp] theorem State.retire_landed : s.retire.hart.landed = [] := rfl
@[simp] theorem State.retire_r_x : s.retire.hart.r.x = s.hart.r.x := rfl
@[simp] theorem State.retire_r_f : s.retire.hart.r.f = s.hart.r.f := rfl
@[simp] theorem State.retire_r_v : s.retire.hart.r.v = s.hart.r.v := rfl
@[simp] theorem State.retire_r_mortar : s.retire.hart.r.mortar = s.hart.r.mortar := rfl
@[simp] theorem State.retire_r_names : s.retire.hart.r.names = s.hart.r.names := rfl
@[simp] theorem State.retire_r_phys : s.retire.hart.r.phys = s.hart.r.phys := rfl
@[simp] theorem State.retire_r_k : s.retire.hart.r.k = s.hart.r.k := rfl
@[simp] theorem State.retire_r_vl : s.retire.hart.r.vl = s.hart.r.vl := rfl
@[simp] theorem State.retire_r_vtype : s.retire.hart.r.vtype = s.hart.r.vtype := rfl
@[simp] theorem State.retire_r_slen : s.retire.hart.r.slen = s.hart.r.slen := rfl
@[simp] theorem State.retire_r_passst : s.retire.hart.r.passst = s.hart.r.passst := rfl
@[simp] theorem State.retire_r_gkey : s.retire.hart.r.gkey = s.hart.r.gkey := rfl
@[simp] theorem State.retire_r_gpos : s.retire.hart.r.gpos = s.hart.r.gpos := rfl
@[simp] theorem State.retire_r_streams : s.retire.hart.r.streams = s.hart.r.streams := rfl
@[simp] theorem State.retire_r_tile : s.retire.hart.r.tile = s.hart.r.tile := rfl
@[simp] theorem State.retire_r_ncl : s.retire.hart.r.ncl = s.hart.r.ncl := rfl
@[simp] theorem State.retire_r_ten : s.retire.hart.r.ten = s.hart.r.ten := rfl
@[simp] theorem State.retire_r_claim : s.retire.hart.r.claim = s.hart.r.claim := rfl
@[simp] theorem State.retire_r_issued : s.retire.hart.r.issued = s.hart.r.issued := rfl
@[simp] theorem State.retire_r_lidx : s.retire.hart.r.lidx = s.hart.r.lidx := rfl
@[simp] theorem State.retire_r_ops : s.retire.hart.r.ops = s.hart.r.ops := rfl
@[simp] theorem State.retire_r_kgen : s.retire.hart.r.kgen = s.hart.r.kgen := rfl
@[simp] theorem State.retire_r_ogen : s.retire.hart.r.ogen = s.hart.r.ogen := rfl
@[simp] theorem State.retire_r_vfail : s.retire.hart.r.vfail = s.hart.r.vfail := rfl
@[simp] theorem State.retire_r_kfail : s.retire.hart.r.kfail = s.hart.r.kfail := rfl
@[simp] theorem State.retire_r_tfail : s.retire.hart.r.tfail = s.hart.r.tfail := rfl
@[simp] theorem State.retire_brick : s.retire.hart.brick = s.hart.brick := rfl
@[simp] theorem State.retire_num : s.retire.hart.num = s.hart.num := rfl
@[simp] theorem State.retire_uid : s.retire.hart.uid = s.hart.uid := rfl
@[simp] theorem State.retire_run : s.retire.hart.run = s.hart.run := rfl
@[simp] theorem State.retire_ckpt : s.retire.hart.ckpt = s.hart.ckpt := rfl
@[simp] theorem State.retire_serial : s.retire.hart.serial = s.hart.serial := rfl
@[simp] theorem State.retire_queue : s.retire.hart.queue = s.hart.queue := rfl
@[simp] theorem State.retire_seq : s.retire.hart.seq = s.hart.seq := rfl
@[simp] theorem State.retire_index : s.retire.hart.index = s.hart.index := rfl
@[simp] theorem State.retire_ctx : s.retire.hart.ctx = s.hart.ctx := rfl
@[simp] theorem State.retire_vmid : s.retire.hart.vmid = s.hart.vmid := rfl
@[simp] theorem State.retire_kernel : s.retire.hart.kernel = s.hart.kernel := rfl
@[simp] theorem State.retire_levels : s.retire.hart.levels = s.hart.levels := rfl
@[simp] theorem State.retire_tileRes : s.retire.hart.tileRes = s.hart.tileRes := rfl
@[simp] theorem State.retire_streamRes : s.retire.hart.streamRes = s.hart.streamRes := rfl
@[simp] theorem State.retire_iword : s.retire.hart.iword = s.hart.iword := rfl
@[simp] theorem State.retire_lgn : s.retire.hart.lgn = s.hart.lgn := rfl
@[simp] theorem State.retire_chg : s.retire.hart.chg = s.hart.chg := rfl
@[simp] theorem State.retire_bound : s.retire.hart.bound = s.hart.bound := rfl
@[simp] theorem State.retire_next : s.retire.hart.next = s.hart.next := rfl
@[simp] theorem State.retire_ret : s.retire.hart.ret = s.hart.ret := rfl
@[simp] theorem State.retire_fstat : s.retire.hart.fstat = s.hart.fstat := rfl
@[simp] theorem State.retire_fidx : s.retire.hart.fidx = s.hart.fidx := rfl
@[simp] theorem State.retire_frm : s.retire.hart.frm = s.hart.frm := rfl
@[simp] theorem State.retire_done : s.retire.hart.done = s.hart.done := rfl
@[simp] theorem State.retire_finished : s.retire.hart.finished = s.hart.finished := rfl
@[simp] theorem State.retire_aerr : s.retire.hart.aerr = s.hart.aerr := rfl
@[simp] theorem State.retire_gears : s.retire.hart.gears = s.hart.gears := rfl
@[simp] theorem State.retire_vskew : s.retire.hart.vskew = s.hart.vskew := rfl
@[simp] theorem State.retire_energy : s.retire.hart.energy = s.hart.energy := rfl
@[simp] theorem State.retire_reuseHit : s.retire.hart.reuseHit = s.hart.reuseHit := rfl
@[simp] theorem State.retire_strip : s.retire.hart.strip = s.hart.strip := rfl
@[simp] theorem State.retire_ended : s.retire.hart.ended = s.hart.ended := rfl
@[simp] theorem State.retire_freed : s.retire.hart.freed = s.hart.freed := rfl
@[simp] theorem State.retire_timeout : s.retire.hart.timeout = s.hart.timeout := rfl
@[simp] theorem State.retire_entry : s.retire.hart.entry = s.hart.entry := rfl
@[simp] theorem State.retire_vqueue : s.retire.hart.vqueue = s.hart.vqueue := rfl
@[simp] theorem State.retire_inflight : s.retire.hart.inflight = s.hart.inflight := rfl
@[simp] theorem State.retire_pendCsr : s.retire.hart.pendCsr = s.hart.pendCsr := rfl
@[simp] theorem State.retire_fork : s.retire.hart.fork = s.hart.fork := rfl
@[simp] theorem State.retire_arrivals : s.retire.hart.arrivals = s.hart.arrivals := rfl
@[simp] theorem State.retire_fetched : s.retire.hart.fetched = s.hart.fetched := rfl
@[simp] theorem State.retire_fetching : s.retire.hart.fetching = s.hart.fetching := rfl
@[simp] theorem State.retire_streamLanded : s.retire.hart.streamLanded = s.hart.streamLanded := rfl
@[simp] theorem State.retire_buffers : s.retire.hart.buffers = s.hart.buffers := rfl
@[simp] theorem State.retire_landing : s.retire.hart.landing = s.hart.landing := rfl
@[simp] theorem State.retire_unbound : s.retire.hart.unbound = s.hart.unbound := rfl
@[simp] theorem State.retire_comparing : s.retire.hart.comparing = s.hart.comparing := rfl
@[simp] theorem State.retire_budget : s.retire.hart.budget = s.hart.budget := rfl
@[simp] theorem State.retire_resume : s.retire.hart.resume = s.hart.resume := rfl

/-! ### FP registers and flags -/

@[simp] theorem State.setF_dev : (s.setF n v).dev = s.dev := rfl
@[simp] theorem State.setF_r_f : (s.setF n v).hart.r.f = s.hart.r.f.setIfInBounds n v := rfl
@[simp] theorem State.setF_r_pc : (s.setF n v).hart.r.pc = s.hart.r.pc := rfl
@[simp] theorem State.setF_r_x : (s.setF n v).hart.r.x = s.hart.r.x := rfl
@[simp] theorem State.setF_r_v : (s.setF n v).hart.r.v = s.hart.r.v := rfl
@[simp] theorem State.setF_r_mortar : (s.setF n v).hart.r.mortar = s.hart.r.mortar := rfl
@[simp] theorem State.setF_r_names : (s.setF n v).hart.r.names = s.hart.r.names := rfl
@[simp] theorem State.setF_r_phys : (s.setF n v).hart.r.phys = s.hart.r.phys := rfl
@[simp] theorem State.setF_r_k : (s.setF n v).hart.r.k = s.hart.r.k := rfl
@[simp] theorem State.setF_r_vl : (s.setF n v).hart.r.vl = s.hart.r.vl := rfl
@[simp] theorem State.setF_r_vtype : (s.setF n v).hart.r.vtype = s.hart.r.vtype := rfl
@[simp] theorem State.setF_r_slen : (s.setF n v).hart.r.slen = s.hart.r.slen := rfl
@[simp] theorem State.setF_r_passst : (s.setF n v).hart.r.passst = s.hart.r.passst := rfl
@[simp] theorem State.setF_r_gkey : (s.setF n v).hart.r.gkey = s.hart.r.gkey := rfl
@[simp] theorem State.setF_r_gpos : (s.setF n v).hart.r.gpos = s.hart.r.gpos := rfl
@[simp] theorem State.setF_r_streams : (s.setF n v).hart.r.streams = s.hart.r.streams := rfl
@[simp] theorem State.setF_r_tile : (s.setF n v).hart.r.tile = s.hart.r.tile := rfl
@[simp] theorem State.setF_r_ncl : (s.setF n v).hart.r.ncl = s.hart.r.ncl := rfl
@[simp] theorem State.setF_r_ten : (s.setF n v).hart.r.ten = s.hart.r.ten := rfl
@[simp] theorem State.setF_r_claim : (s.setF n v).hart.r.claim = s.hart.r.claim := rfl
@[simp] theorem State.setF_r_issued : (s.setF n v).hart.r.issued = s.hart.r.issued := rfl
@[simp] theorem State.setF_r_lidx : (s.setF n v).hart.r.lidx = s.hart.r.lidx := rfl
@[simp] theorem State.setF_r_ops : (s.setF n v).hart.r.ops = s.hart.r.ops := rfl
@[simp] theorem State.setF_r_kgen : (s.setF n v).hart.r.kgen = s.hart.r.kgen := rfl
@[simp] theorem State.setF_r_ogen : (s.setF n v).hart.r.ogen = s.hart.r.ogen := rfl
@[simp] theorem State.setF_r_vfail : (s.setF n v).hart.r.vfail = s.hart.r.vfail := rfl
@[simp] theorem State.setF_r_kfail : (s.setF n v).hart.r.kfail = s.hart.r.kfail := rfl
@[simp] theorem State.setF_r_tfail : (s.setF n v).hart.r.tfail = s.hart.r.tfail := rfl
@[simp] theorem State.setF_brick : (s.setF n v).hart.brick = s.hart.brick := rfl
@[simp] theorem State.setF_num : (s.setF n v).hart.num = s.hart.num := rfl
@[simp] theorem State.setF_uid : (s.setF n v).hart.uid = s.hart.uid := rfl
@[simp] theorem State.setF_run : (s.setF n v).hart.run = s.hart.run := rfl
@[simp] theorem State.setF_ckpt : (s.setF n v).hart.ckpt = s.hart.ckpt := rfl
@[simp] theorem State.setF_serial : (s.setF n v).hart.serial = s.hart.serial := rfl
@[simp] theorem State.setF_queue : (s.setF n v).hart.queue = s.hart.queue := rfl
@[simp] theorem State.setF_seq : (s.setF n v).hart.seq = s.hart.seq := rfl
@[simp] theorem State.setF_index : (s.setF n v).hart.index = s.hart.index := rfl
@[simp] theorem State.setF_ctx : (s.setF n v).hart.ctx = s.hart.ctx := rfl
@[simp] theorem State.setF_vmid : (s.setF n v).hart.vmid = s.hart.vmid := rfl
@[simp] theorem State.setF_kernel : (s.setF n v).hart.kernel = s.hart.kernel := rfl
@[simp] theorem State.setF_levels : (s.setF n v).hart.levels = s.hart.levels := rfl
@[simp] theorem State.setF_tileRes : (s.setF n v).hart.tileRes = s.hart.tileRes := rfl
@[simp] theorem State.setF_streamRes : (s.setF n v).hart.streamRes = s.hart.streamRes := rfl
@[simp] theorem State.setF_iword : (s.setF n v).hart.iword = s.hart.iword := rfl
@[simp] theorem State.setF_lgn : (s.setF n v).hart.lgn = s.hart.lgn := rfl
@[simp] theorem State.setF_chg : (s.setF n v).hart.chg = s.hart.chg := rfl
@[simp] theorem State.setF_bound : (s.setF n v).hart.bound = s.hart.bound := rfl
@[simp] theorem State.setF_next : (s.setF n v).hart.next = s.hart.next := rfl
@[simp] theorem State.setF_ret : (s.setF n v).hart.ret = s.hart.ret := rfl
@[simp] theorem State.setF_fstat : (s.setF n v).hart.fstat = s.hart.fstat := rfl
@[simp] theorem State.setF_fidx : (s.setF n v).hart.fidx = s.hart.fidx := rfl
@[simp] theorem State.setF_frm : (s.setF n v).hart.frm = s.hart.frm := rfl
@[simp] theorem State.setF_done : (s.setF n v).hart.done = s.hart.done := rfl
@[simp] theorem State.setF_finished : (s.setF n v).hart.finished = s.hart.finished := rfl
@[simp] theorem State.setF_aerr : (s.setF n v).hart.aerr = s.hart.aerr := rfl
@[simp] theorem State.setF_gears : (s.setF n v).hart.gears = s.hart.gears := rfl
@[simp] theorem State.setF_vskew : (s.setF n v).hart.vskew = s.hart.vskew := rfl
@[simp] theorem State.setF_energy : (s.setF n v).hart.energy = s.hart.energy := rfl
@[simp] theorem State.setF_reuseHit : (s.setF n v).hart.reuseHit = s.hart.reuseHit := rfl
@[simp] theorem State.setF_strip : (s.setF n v).hart.strip = s.hart.strip := rfl
@[simp] theorem State.setF_ended : (s.setF n v).hart.ended = s.hart.ended := rfl
@[simp] theorem State.setF_freed : (s.setF n v).hart.freed = s.hart.freed := rfl
@[simp] theorem State.setF_timeout : (s.setF n v).hart.timeout = s.hart.timeout := rfl
@[simp] theorem State.setF_entry : (s.setF n v).hart.entry = s.hart.entry := rfl
@[simp] theorem State.setF_vqueue : (s.setF n v).hart.vqueue = s.hart.vqueue := rfl
@[simp] theorem State.setF_inflight : (s.setF n v).hart.inflight = s.hart.inflight := rfl
@[simp] theorem State.setF_pendCsr : (s.setF n v).hart.pendCsr = s.hart.pendCsr := rfl
@[simp] theorem State.setF_landed : (s.setF n v).hart.landed = s.hart.landed := rfl
@[simp] theorem State.setF_wait : (s.setF n v).hart.wait = s.hart.wait := rfl
@[simp] theorem State.setF_fork : (s.setF n v).hart.fork = s.hart.fork := rfl
@[simp] theorem State.setF_arrivals : (s.setF n v).hart.arrivals = s.hart.arrivals := rfl
@[simp] theorem State.setF_fetched : (s.setF n v).hart.fetched = s.hart.fetched := rfl
@[simp] theorem State.setF_fetching : (s.setF n v).hart.fetching = s.hart.fetching := rfl
@[simp] theorem State.setF_streamLanded : (s.setF n v).hart.streamLanded = s.hart.streamLanded := rfl
@[simp] theorem State.setF_buffers : (s.setF n v).hart.buffers = s.hart.buffers := rfl
@[simp] theorem State.setF_landing : (s.setF n v).hart.landing = s.hart.landing := rfl
@[simp] theorem State.setF_unbound : (s.setF n v).hart.unbound = s.hart.unbound := rfl
@[simp] theorem State.setF_comparing : (s.setF n v).hart.comparing = s.hart.comparing := rfl
@[simp] theorem State.setF_budget : (s.setF n v).hart.budget = s.hart.budget := rfl
@[simp] theorem State.setF_resume : (s.setF n v).hart.resume = s.hart.resume := rfl
@[simp] theorem State.mergeFstat_dev (b : BitVec 5) : (s.mergeFstat b).dev = s.dev := rfl
@[simp] theorem State.mergeFstat_fstat (b : BitVec 5) : (s.mergeFstat b).hart.fstat = s.hart.fstat ||| b := rfl
@[simp] theorem State.mergeFstat_brick (b : BitVec 5) : (s.mergeFstat b).hart.brick = s.hart.brick := rfl
@[simp] theorem State.mergeFstat_num (b : BitVec 5) : (s.mergeFstat b).hart.num = s.hart.num := rfl
@[simp] theorem State.mergeFstat_uid (b : BitVec 5) : (s.mergeFstat b).hart.uid = s.hart.uid := rfl
@[simp] theorem State.mergeFstat_run (b : BitVec 5) : (s.mergeFstat b).hart.run = s.hart.run := rfl
@[simp] theorem State.mergeFstat_r (b : BitVec 5) : (s.mergeFstat b).hart.r = s.hart.r := rfl
@[simp] theorem State.mergeFstat_ckpt (b : BitVec 5) : (s.mergeFstat b).hart.ckpt = s.hart.ckpt := rfl
@[simp] theorem State.mergeFstat_serial (b : BitVec 5) : (s.mergeFstat b).hart.serial = s.hart.serial := rfl
@[simp] theorem State.mergeFstat_queue (b : BitVec 5) : (s.mergeFstat b).hart.queue = s.hart.queue := rfl
@[simp] theorem State.mergeFstat_seq (b : BitVec 5) : (s.mergeFstat b).hart.seq = s.hart.seq := rfl
@[simp] theorem State.mergeFstat_index (b : BitVec 5) : (s.mergeFstat b).hart.index = s.hart.index := rfl
@[simp] theorem State.mergeFstat_ctx (b : BitVec 5) : (s.mergeFstat b).hart.ctx = s.hart.ctx := rfl
@[simp] theorem State.mergeFstat_vmid (b : BitVec 5) : (s.mergeFstat b).hart.vmid = s.hart.vmid := rfl
@[simp] theorem State.mergeFstat_kernel (b : BitVec 5) : (s.mergeFstat b).hart.kernel = s.hart.kernel := rfl
@[simp] theorem State.mergeFstat_levels (b : BitVec 5) : (s.mergeFstat b).hart.levels = s.hart.levels := rfl
@[simp] theorem State.mergeFstat_tileRes (b : BitVec 5) : (s.mergeFstat b).hart.tileRes = s.hart.tileRes := rfl
@[simp] theorem State.mergeFstat_streamRes (b : BitVec 5) : (s.mergeFstat b).hart.streamRes = s.hart.streamRes := rfl
@[simp] theorem State.mergeFstat_iword (b : BitVec 5) : (s.mergeFstat b).hart.iword = s.hart.iword := rfl
@[simp] theorem State.mergeFstat_lgn (b : BitVec 5) : (s.mergeFstat b).hart.lgn = s.hart.lgn := rfl
@[simp] theorem State.mergeFstat_chg (b : BitVec 5) : (s.mergeFstat b).hart.chg = s.hart.chg := rfl
@[simp] theorem State.mergeFstat_bound (b : BitVec 5) : (s.mergeFstat b).hart.bound = s.hart.bound := rfl
@[simp] theorem State.mergeFstat_next (b : BitVec 5) : (s.mergeFstat b).hart.next = s.hart.next := rfl
@[simp] theorem State.mergeFstat_ret (b : BitVec 5) : (s.mergeFstat b).hart.ret = s.hart.ret := rfl
@[simp] theorem State.mergeFstat_fidx (b : BitVec 5) : (s.mergeFstat b).hart.fidx = s.hart.fidx := rfl
@[simp] theorem State.mergeFstat_frm (b : BitVec 5) : (s.mergeFstat b).hart.frm = s.hart.frm := rfl
@[simp] theorem State.mergeFstat_done (b : BitVec 5) : (s.mergeFstat b).hart.done = s.hart.done := rfl
@[simp] theorem State.mergeFstat_finished (b : BitVec 5) : (s.mergeFstat b).hart.finished = s.hart.finished := rfl
@[simp] theorem State.mergeFstat_aerr (b : BitVec 5) : (s.mergeFstat b).hart.aerr = s.hart.aerr := rfl
@[simp] theorem State.mergeFstat_gears (b : BitVec 5) : (s.mergeFstat b).hart.gears = s.hart.gears := rfl
@[simp] theorem State.mergeFstat_vskew (b : BitVec 5) : (s.mergeFstat b).hart.vskew = s.hart.vskew := rfl
@[simp] theorem State.mergeFstat_energy (b : BitVec 5) : (s.mergeFstat b).hart.energy = s.hart.energy := rfl
@[simp] theorem State.mergeFstat_reuseHit (b : BitVec 5) : (s.mergeFstat b).hart.reuseHit = s.hart.reuseHit := rfl
@[simp] theorem State.mergeFstat_strip (b : BitVec 5) : (s.mergeFstat b).hart.strip = s.hart.strip := rfl
@[simp] theorem State.mergeFstat_ended (b : BitVec 5) : (s.mergeFstat b).hart.ended = s.hart.ended := rfl
@[simp] theorem State.mergeFstat_freed (b : BitVec 5) : (s.mergeFstat b).hart.freed = s.hart.freed := rfl
@[simp] theorem State.mergeFstat_timeout (b : BitVec 5) : (s.mergeFstat b).hart.timeout = s.hart.timeout := rfl
@[simp] theorem State.mergeFstat_entry (b : BitVec 5) : (s.mergeFstat b).hart.entry = s.hart.entry := rfl
@[simp] theorem State.mergeFstat_vqueue (b : BitVec 5) : (s.mergeFstat b).hart.vqueue = s.hart.vqueue := rfl
@[simp] theorem State.mergeFstat_inflight (b : BitVec 5) : (s.mergeFstat b).hart.inflight = s.hart.inflight := rfl
@[simp] theorem State.mergeFstat_pendCsr (b : BitVec 5) : (s.mergeFstat b).hart.pendCsr = s.hart.pendCsr := rfl
@[simp] theorem State.mergeFstat_landed (b : BitVec 5) : (s.mergeFstat b).hart.landed = s.hart.landed := rfl
@[simp] theorem State.mergeFstat_wait (b : BitVec 5) : (s.mergeFstat b).hart.wait = s.hart.wait := rfl
@[simp] theorem State.mergeFstat_fork (b : BitVec 5) : (s.mergeFstat b).hart.fork = s.hart.fork := rfl
@[simp] theorem State.mergeFstat_arrivals (b : BitVec 5) : (s.mergeFstat b).hart.arrivals = s.hart.arrivals := rfl
@[simp] theorem State.mergeFstat_fetched (b : BitVec 5) : (s.mergeFstat b).hart.fetched = s.hart.fetched := rfl
@[simp] theorem State.mergeFstat_fetching (b : BitVec 5) : (s.mergeFstat b).hart.fetching = s.hart.fetching := rfl
@[simp] theorem State.mergeFstat_streamLanded (b : BitVec 5) : (s.mergeFstat b).hart.streamLanded = s.hart.streamLanded := rfl
@[simp] theorem State.mergeFstat_buffers (b : BitVec 5) : (s.mergeFstat b).hart.buffers = s.hart.buffers := rfl
@[simp] theorem State.mergeFstat_landing (b : BitVec 5) : (s.mergeFstat b).hart.landing = s.hart.landing := rfl
@[simp] theorem State.mergeFstat_unbound (b : BitVec 5) : (s.mergeFstat b).hart.unbound = s.hart.unbound := rfl
@[simp] theorem State.mergeFstat_comparing (b : BitVec 5) : (s.mergeFstat b).hart.comparing = s.hart.comparing := rfl
@[simp] theorem State.mergeFstat_budget (b : BitVec 5) : (s.mergeFstat b).hart.budget = s.hart.budget := rfl
@[simp] theorem State.mergeFstat_resume (b : BitVec 5) : (s.mergeFstat b).hart.resume = s.hart.resume := rfl

/-! ### Integer registers: x0 keeps its value -/

@[simp] theorem State.setX_dev : (s.setX n v).dev = s.dev := by
  unfold State.setX; split <;> rfl
@[simp] theorem State.setX_r_x : (s.setX n v).hart.r.x = if n = 0 then s.hart.r.x else s.hart.r.x.setIfInBounds n v := by
  unfold State.setX; split <;> rfl
@[simp] theorem State.setX_r_pc : (s.setX n v).hart.r.pc = s.hart.r.pc := by
  unfold State.setX; split <;> rfl
@[simp] theorem State.setX_r_f : (s.setX n v).hart.r.f = s.hart.r.f := by
  unfold State.setX; split <;> rfl
@[simp] theorem State.setX_r_v : (s.setX n v).hart.r.v = s.hart.r.v := by
  unfold State.setX; split <;> rfl
@[simp] theorem State.setX_r_mortar : (s.setX n v).hart.r.mortar = s.hart.r.mortar := by
  unfold State.setX; split <;> rfl
@[simp] theorem State.setX_r_names : (s.setX n v).hart.r.names = s.hart.r.names := by
  unfold State.setX; split <;> rfl
@[simp] theorem State.setX_r_phys : (s.setX n v).hart.r.phys = s.hart.r.phys := by
  unfold State.setX; split <;> rfl
@[simp] theorem State.setX_r_k : (s.setX n v).hart.r.k = s.hart.r.k := by
  unfold State.setX; split <;> rfl
@[simp] theorem State.setX_r_vl : (s.setX n v).hart.r.vl = s.hart.r.vl := by
  unfold State.setX; split <;> rfl
@[simp] theorem State.setX_r_vtype : (s.setX n v).hart.r.vtype = s.hart.r.vtype := by
  unfold State.setX; split <;> rfl
@[simp] theorem State.setX_r_slen : (s.setX n v).hart.r.slen = s.hart.r.slen := by
  unfold State.setX; split <;> rfl
@[simp] theorem State.setX_r_passst : (s.setX n v).hart.r.passst = s.hart.r.passst := by
  unfold State.setX; split <;> rfl
@[simp] theorem State.setX_r_gkey : (s.setX n v).hart.r.gkey = s.hart.r.gkey := by
  unfold State.setX; split <;> rfl
@[simp] theorem State.setX_r_gpos : (s.setX n v).hart.r.gpos = s.hart.r.gpos := by
  unfold State.setX; split <;> rfl
@[simp] theorem State.setX_r_streams : (s.setX n v).hart.r.streams = s.hart.r.streams := by
  unfold State.setX; split <;> rfl
@[simp] theorem State.setX_r_tile : (s.setX n v).hart.r.tile = s.hart.r.tile := by
  unfold State.setX; split <;> rfl
@[simp] theorem State.setX_r_ncl : (s.setX n v).hart.r.ncl = s.hart.r.ncl := by
  unfold State.setX; split <;> rfl
@[simp] theorem State.setX_r_ten : (s.setX n v).hart.r.ten = s.hart.r.ten := by
  unfold State.setX; split <;> rfl
@[simp] theorem State.setX_r_claim : (s.setX n v).hart.r.claim = s.hart.r.claim := by
  unfold State.setX; split <;> rfl
@[simp] theorem State.setX_r_issued : (s.setX n v).hart.r.issued = s.hart.r.issued := by
  unfold State.setX; split <;> rfl
@[simp] theorem State.setX_r_lidx : (s.setX n v).hart.r.lidx = s.hart.r.lidx := by
  unfold State.setX; split <;> rfl
@[simp] theorem State.setX_r_ops : (s.setX n v).hart.r.ops = s.hart.r.ops := by
  unfold State.setX; split <;> rfl
@[simp] theorem State.setX_r_kgen : (s.setX n v).hart.r.kgen = s.hart.r.kgen := by
  unfold State.setX; split <;> rfl
@[simp] theorem State.setX_r_ogen : (s.setX n v).hart.r.ogen = s.hart.r.ogen := by
  unfold State.setX; split <;> rfl
@[simp] theorem State.setX_r_vfail : (s.setX n v).hart.r.vfail = s.hart.r.vfail := by
  unfold State.setX; split <;> rfl
@[simp] theorem State.setX_r_kfail : (s.setX n v).hart.r.kfail = s.hart.r.kfail := by
  unfold State.setX; split <;> rfl
@[simp] theorem State.setX_r_tfail : (s.setX n v).hart.r.tfail = s.hart.r.tfail := by
  unfold State.setX; split <;> rfl
@[simp] theorem State.setX_brick : (s.setX n v).hart.brick = s.hart.brick := by
  unfold State.setX; split <;> rfl
@[simp] theorem State.setX_num : (s.setX n v).hart.num = s.hart.num := by
  unfold State.setX; split <;> rfl
@[simp] theorem State.setX_uid : (s.setX n v).hart.uid = s.hart.uid := by
  unfold State.setX; split <;> rfl
@[simp] theorem State.setX_run : (s.setX n v).hart.run = s.hart.run := by
  unfold State.setX; split <;> rfl
@[simp] theorem State.setX_ckpt : (s.setX n v).hart.ckpt = s.hart.ckpt := by
  unfold State.setX; split <;> rfl
@[simp] theorem State.setX_serial : (s.setX n v).hart.serial = s.hart.serial := by
  unfold State.setX; split <;> rfl
@[simp] theorem State.setX_queue : (s.setX n v).hart.queue = s.hart.queue := by
  unfold State.setX; split <;> rfl
@[simp] theorem State.setX_seq : (s.setX n v).hart.seq = s.hart.seq := by
  unfold State.setX; split <;> rfl
@[simp] theorem State.setX_index : (s.setX n v).hart.index = s.hart.index := by
  unfold State.setX; split <;> rfl
@[simp] theorem State.setX_ctx : (s.setX n v).hart.ctx = s.hart.ctx := by
  unfold State.setX; split <;> rfl
@[simp] theorem State.setX_vmid : (s.setX n v).hart.vmid = s.hart.vmid := by
  unfold State.setX; split <;> rfl
@[simp] theorem State.setX_kernel : (s.setX n v).hart.kernel = s.hart.kernel := by
  unfold State.setX; split <;> rfl
@[simp] theorem State.setX_levels : (s.setX n v).hart.levels = s.hart.levels := by
  unfold State.setX; split <;> rfl
@[simp] theorem State.setX_tileRes : (s.setX n v).hart.tileRes = s.hart.tileRes := by
  unfold State.setX; split <;> rfl
@[simp] theorem State.setX_streamRes : (s.setX n v).hart.streamRes = s.hart.streamRes := by
  unfold State.setX; split <;> rfl
@[simp] theorem State.setX_iword : (s.setX n v).hart.iword = s.hart.iword := by
  unfold State.setX; split <;> rfl
@[simp] theorem State.setX_lgn : (s.setX n v).hart.lgn = s.hart.lgn := by
  unfold State.setX; split <;> rfl
@[simp] theorem State.setX_chg : (s.setX n v).hart.chg = s.hart.chg := by
  unfold State.setX; split <;> rfl
@[simp] theorem State.setX_bound : (s.setX n v).hart.bound = s.hart.bound := by
  unfold State.setX; split <;> rfl
@[simp] theorem State.setX_next : (s.setX n v).hart.next = s.hart.next := by
  unfold State.setX; split <;> rfl
@[simp] theorem State.setX_ret : (s.setX n v).hart.ret = s.hart.ret := by
  unfold State.setX; split <;> rfl
@[simp] theorem State.setX_fstat : (s.setX n v).hart.fstat = s.hart.fstat := by
  unfold State.setX; split <;> rfl
@[simp] theorem State.setX_fidx : (s.setX n v).hart.fidx = s.hart.fidx := by
  unfold State.setX; split <;> rfl
@[simp] theorem State.setX_frm : (s.setX n v).hart.frm = s.hart.frm := by
  unfold State.setX; split <;> rfl
@[simp] theorem State.setX_done : (s.setX n v).hart.done = s.hart.done := by
  unfold State.setX; split <;> rfl
@[simp] theorem State.setX_finished : (s.setX n v).hart.finished = s.hart.finished := by
  unfold State.setX; split <;> rfl
@[simp] theorem State.setX_aerr : (s.setX n v).hart.aerr = s.hart.aerr := by
  unfold State.setX; split <;> rfl
@[simp] theorem State.setX_gears : (s.setX n v).hart.gears = s.hart.gears := by
  unfold State.setX; split <;> rfl
@[simp] theorem State.setX_vskew : (s.setX n v).hart.vskew = s.hart.vskew := by
  unfold State.setX; split <;> rfl
@[simp] theorem State.setX_energy : (s.setX n v).hart.energy = s.hart.energy := by
  unfold State.setX; split <;> rfl
@[simp] theorem State.setX_reuseHit : (s.setX n v).hart.reuseHit = s.hart.reuseHit := by
  unfold State.setX; split <;> rfl
@[simp] theorem State.setX_strip : (s.setX n v).hart.strip = s.hart.strip := by
  unfold State.setX; split <;> rfl
@[simp] theorem State.setX_ended : (s.setX n v).hart.ended = s.hart.ended := by
  unfold State.setX; split <;> rfl
@[simp] theorem State.setX_freed : (s.setX n v).hart.freed = s.hart.freed := by
  unfold State.setX; split <;> rfl
@[simp] theorem State.setX_timeout : (s.setX n v).hart.timeout = s.hart.timeout := by
  unfold State.setX; split <;> rfl
@[simp] theorem State.setX_entry : (s.setX n v).hart.entry = s.hart.entry := by
  unfold State.setX; split <;> rfl
@[simp] theorem State.setX_vqueue : (s.setX n v).hart.vqueue = s.hart.vqueue := by
  unfold State.setX; split <;> rfl
@[simp] theorem State.setX_inflight : (s.setX n v).hart.inflight = s.hart.inflight := by
  unfold State.setX; split <;> rfl
@[simp] theorem State.setX_pendCsr : (s.setX n v).hart.pendCsr = s.hart.pendCsr := by
  unfold State.setX; split <;> rfl
@[simp] theorem State.setX_landed : (s.setX n v).hart.landed = s.hart.landed := by
  unfold State.setX; split <;> rfl
@[simp] theorem State.setX_wait : (s.setX n v).hart.wait = s.hart.wait := by
  unfold State.setX; split <;> rfl
@[simp] theorem State.setX_fork : (s.setX n v).hart.fork = s.hart.fork := by
  unfold State.setX; split <;> rfl
@[simp] theorem State.setX_arrivals : (s.setX n v).hart.arrivals = s.hart.arrivals := by
  unfold State.setX; split <;> rfl
@[simp] theorem State.setX_fetched : (s.setX n v).hart.fetched = s.hart.fetched := by
  unfold State.setX; split <;> rfl
@[simp] theorem State.setX_fetching : (s.setX n v).hart.fetching = s.hart.fetching := by
  unfold State.setX; split <;> rfl
@[simp] theorem State.setX_streamLanded : (s.setX n v).hart.streamLanded = s.hart.streamLanded := by
  unfold State.setX; split <;> rfl
@[simp] theorem State.setX_buffers : (s.setX n v).hart.buffers = s.hart.buffers := by
  unfold State.setX; split <;> rfl
@[simp] theorem State.setX_landing : (s.setX n v).hart.landing = s.hart.landing := by
  unfold State.setX; split <;> rfl
@[simp] theorem State.setX_unbound : (s.setX n v).hart.unbound = s.hart.unbound := by
  unfold State.setX; split <;> rfl
@[simp] theorem State.setX_comparing : (s.setX n v).hart.comparing = s.hart.comparing := by
  unfold State.setX; split <;> rfl
@[simp] theorem State.setX_budget : (s.setX n v).hart.budget = s.hart.budget := by
  unfold State.setX; split <;> rfl
@[simp] theorem State.setX_resume : (s.setX n v).hart.resume = s.hart.resume := by
  unfold State.setX; split <;> rfl

/-- The zero register reads as zero in every state (R276). -/
@[simp] theorem State.x_zero : s.x 0 = 0 := rfl

/-- A register that is written reads as written, and every other one as before. -/
theorem State.x_setX (m : Nat) (hn : n < 32) (h0 : n ≠ 0) : (s.setX n v).x m = if m = n then v else s.x m := by
  by_cases hm : m = n
  · subst hm
    simp [State.x, State.setX, State.mapRegs, h0, Vector.getD, hn]
  · by_cases hz : m = 0
    · subst hz; simp [State.x, hm]
    · have he : ¬ n = m := fun e => hm e.symm
      simp [State.x, State.setX, h0, hm, hz, he, State.mapRegs, Vector.getD, Array.getD_eq_getD_getElem?]

@[simp] theorem State.setX_zero : s.setX 0 v = s := rfl

end Sys2Proof.Machine
end

