-- ==== Sys2Proof/Laws/Access.lean ====
section
/-! SUPPORT. What an access can do to the state: finding places and loading change the translations held, what is known of errors and
the counter of free values alone, and a write changes memory and what is known of errors alone. -/

namespace Sys2Proof.Machine

/-! ### Errors met (R15) -/

/-- A device that differs in the translations held, in what is known of errors and in the counter of free values, and in nothing else:
the same granules are poisoned. -/
structure Device.SameButChecks (d d' : Device) : Prop where
  rest : ∃ t f p l c g, d' = { d with tlb := t, fresh := f, poison := p, latent := l, gmc := { d.gmc with corrected := c, log := g } }
  poisoned : ∀ off, d'.poisoned off = d.poisoned off

theorem Device.SameButChecks.refl (d : Device) : d.SameButChecks d :=
  ⟨⟨d.tlb, d.fresh, d.poison, d.latent, d.gmc.corrected, d.gmc.log, rfl⟩, fun _ => rfl⟩

theorem Device.SameButChecks.trans {d e f : Device} (h : d.SameButChecks e) (k : e.SameButChecks f) : d.SameButChecks f := by
  refine ⟨?_, fun off => by rw [k.poisoned off, h.poisoned off]⟩
  have held := h.1
  obtain ⟨tlb, fresh, poison, latent, corrected, log, rfl⟩ := k.1
  obtain ⟨_, _, _, _, _, _, rfl⟩ := held
  exact ⟨tlb, fresh, poison, latent, corrected, log, rfl⟩

theorem Device.SameButChecks.tlb (d : Device) (l : List TlbEntry) : d.SameButChecks { d with tlb := l } :=
  ⟨⟨l, d.fresh, d.poison, d.latent, d.gmc.corrected, d.gmc.log, rfl⟩, fun _ => rfl⟩

theorem Device.SameButChecks.fresh (d : Device) (n : Nat) : d.SameButChecks { d with fresh := n } :=
  ⟨⟨d.tlb, n, d.poison, d.latent, d.gmc.corrected, d.gmc.log, rfl⟩, fun _ => rfl⟩

theorem Device.SameButChecks.mem {d e : Device} (h : d.SameButChecks e) : e.mem = d.mem := by
  obtain ⟨⟨_, _, _, _, _, _, rfl⟩, _⟩ := h; rfl

theorem Device.SameButChecks.own {d e : Device} (h : d.SameButChecks e) (pa : Nat) : e.own pa = d.own pa := by
  obtain ⟨⟨_, _, _, _, _, _, rfl⟩, _⟩ := h; rfl

/-- The check of a granule changes what is known of its errors alone (R15). -/
theorem Device.scrub_checks (d : Device) (g : Nat) : d.SameButChecks (d.scrub g) := by
  unfold Device.scrub
  dsimp only
  split
  · rename_i hb
    refine ⟨?_, fun off => ?_⟩
    · unfold Device.logError Device.addPoison
      split
      · exact ⟨_, _, _, _, _, _, rfl⟩
      · exact ⟨_, _, _, _, _, _, rfl⟩
    · by_cases h : off / 64 = g
      · subst h
        have : d.poisoned off = true := by
          simp only [Device.poisoned, hb, Bool.or_true]
        rw [this]
        unfold Device.logError Device.addPoison Device.poisoned
        split
        · rename_i hc; simp_all
        · simp
      · have key : ((off / 64, false) : Nat × Bool) ∈ d.latent.filter (fun l => l.1 != g) ↔ (off / 64, false) ∈ d.latent := by
          simp [List.mem_filter, h]
        unfold Device.logError Device.addPoison Device.poisoned
        split <;> simp [key, h]
  · rename_i hb
    refine ⟨⟨d.tlb, d.fresh, d.poison, _, _, d.gmc.log, rfl⟩, fun off => ?_⟩
    by_cases h : off / 64 = g
    · subst h
      have hb' : d.latent.contains (off / 64, false) = false := by simpa using hb
      simp only [Device.poisoned, hb']
      simp
    · have key : ((off / 64, false) : Nat × Bool) ∈ d.latent.filter (fun l => l.1 != g) ↔ (off / 64, false) ∈ d.latent := by
        simp [List.mem_filter, h]
      simp [Device.poisoned, key]

theorem Device.foldl_scrub : ∀ (l : List Nat) (d : Device), d.SameButChecks (l.foldl Device.scrub d)
  | [], d => .refl d
  | g :: rest, d => (d.scrub_checks g).trans (Device.foldl_scrub rest (d.scrub g))

theorem Device.meet_checks (d : Device) (offs : List Nat) : d.SameButChecks (d.meet offs) := by
  unfold Device.meet
  split
  · exact .refl d
  · exact Device.foldl_scrub _ d

theorem Device.meetWalk_checks (d : Device) (ctx va : Nat) : d.SameButChecks (d.meetWalk ctx va) := by
  unfold Device.meetWalk
  split
  · exact .refl d
  · exact d.meet_checks _

/-! ### Translations (R157) -/

/-- A state whose device differs so, and nothing else. -/
def State.SameButChecks (s t : State) : Prop := t.hart = s.hart ∧ s.dev.SameButChecks t.dev

theorem State.SameButChecks.refl (s : State) : s.SameButChecks s := ⟨rfl, .refl _⟩

theorem State.SameButChecks.trans {s t u : State} (h : s.SameButChecks t) (k : t.SameButChecks u) : s.SameButChecks u :=
  ⟨k.1.trans h.1, h.2.trans k.2⟩

/-- A translation keeps what it found and meets the errors of what it reads, and changes nothing else. -/
theorem Device.translate_dev {d d' : Device} {b ctx vmid va pa : Nat} {p : Purpose} {v : TlbLevel} {e : TlbEntry}
    (h : d.translate b ctx vmid va p v = .ok (pa, e, d')) : d.SameButChecks d' := by
  unfold Device.translate at h
  split at h
  · cases h
  · revert h
    cases d.tlbFind b ctx vmid va v with
    | some x =>
      simp only
      intro h
      split at h
      · cases h
      · split at h
        · cases h
        · cases h; exact .refl d
    | none =>
      cases d.walk ctx va with
      | error f => simp
      | ok x =>
        simp only
        intro h
        split at h
        · cases h
        · split at h
          · cases h
          · cases h; exact (d.meetWalk_checks ctx va).trans (.tlb _ _)

/-- A translation that is found allows what it is for (R155) and gives an address below 2^56 its place. -/
theorem Device.translate_allows {d d' : Device} {b ctx vmid va pa : Nat} {p : Purpose} {v : TlbLevel} {e : TlbEntry}
    (h : d.translate b ctx vmid va p v = .ok (pa, e, d')) :
    va / 2 ^ 56 = 0 ∧ e.allows p = true ∧ pa = e.pa + va % 2 ^ e.bits := by
  unfold Device.translate at h
  split at h
  · cases h
  · rename_i h0
    refine ⟨by simpa using h0, ?_⟩
    revert h
    have last : ∀ (x : TlbEntry) (y : Device),
        (if !(x.allows p) then Except.error noPermission
          else
            let pa := x.pa + va % 2 ^ x.bits
            if d.own pa && !(d.populated (offsetOf pa)) then .error accessError else .ok (pa, x, y)) = Except.ok (pa, e, d') →
        e.allows p = true ∧ pa = e.pa + va % 2 ^ e.bits := by
      intro x y h
      split at h
      · cases h
      · rename_i ha
        dsimp only at h
        split at h
        · cases h
        · cases h; exact ⟨by simpa using ha, rfl⟩
    cases d.tlbFind b ctx vmid va v with
    | some x => exact last x d
    | none =>
      cases d.walk ctx va with
      | error f => simp
      | ok x => exact last _ _

theorem placesFrom_checks : ∀ (vas : List Nat) (s : State) (p : Purpose) (v : TlbLevel) (last : Option TlbEntry) {l : List Place} {hs : Bool} {t : State},
    placesFrom s p v vas last = .ok (l, hs, t) → s.SameButChecks t := by
  intro vas
  induction vas with
  | nil =>
    intro s p v last l hs t h
    simp only [placesFrom] at h
    cases h; exact .refl s
  | cons va rest ih =>
    have next : ∀ (s : State) (p : Purpose) (v : TlbLevel) {pa : Nat} {e : TlbEntry} {d : Device} {o : Option TlbEntry} {l : List Place} {hs : Bool} {t : State},
        s.dev.translate s.hart.brick s.hart.ctx s.hart.vmid va p v = .ok (pa, e, d) →
        placesFrom { s with dev := d } p v rest o = .ok (l, hs, t) → s.SameButChecks t := by
      intro s p v pa e d o l hs t hd hr
      exact State.SameButChecks.trans (t := { s with dev := d }) ⟨rfl, Device.translate_dev hd⟩ (ih _ _ _ _ hr)
    intro s p v last l hs t h
    unfold placesFrom at h
    split at h
    · split at h
      · split at h
        · rename_i hr; cases h; exact ih _ _ _ _ hr
        · cases h
      · split at h
        · cases h
        · rename_i hd
          split at h
          · rename_i hr; cases h; exact next s p v hd hr
          · cases h
    · split at h
      · cases h
      · rename_i hd
        split at h
        · rename_i hr; cases h; exact next s p v hd hr
        · cases h

/-- Finding the places of an access changes the translations held and what is known of errors, and nothing else. -/
theorem State.places_checks {s t : State} {va n : Nat} {p : Purpose} {ln : Option Nat} {l : List Place} {hs : Bool}
    (h : s.places va n p ln = .ok (l, hs, t)) : s.SameButChecks t := by
  unfold State.places at h
  dsimp only at h
  split at h
  · split at h
    · cases h; exact .refl s
    · cases h
  · split at h
    · cases h
    · exact placesFrom_checks _ _ _ _ _ h

theorem State.access_checks {s t : State} {va n : Nat} {p : Purpose} {el ln : Option Nat} {l : List Place} {hs : Bool}
    (h : s.access va n p el ln = .ok (l, hs, t)) : s.SameButChecks t := by
  unfold State.access at h
  split at h
  · rename_i hp
    cases h
    have hp := places_checks hp
    split
    · exact hp
    · exact ⟨hp.1, hp.2.trans (Device.meet_checks _ _)⟩
  · dsimp only at h
    split at h
    · cases h
    · split at h <;> cases h

/-- Choosing what a load of the same strip sees uses free values, and changes nothing else (R191). -/
theorem chooseSoft_dev : ∀ (l : List BufStore) (s : State) (ps : List Place) (acc : List BufStore),
    ∃ n, (chooseSoft s ps l acc).2 = { s with dev := { s.dev with fresh := n } } := by
  intro l
  induction l with
  | nil => intro s ps acc; exact ⟨s.dev.fresh, rfl⟩
  | cons st rest ih =>
    intro s ps acc
    unfold chooseSoft
    split
    · obtain ⟨n, hn⟩ := ih s.draw.2 ps (if Config.forwards s.draw.1 then st :: acc else acc)
      exact ⟨n, by simpa [State.draw] using hn⟩
    · exact ih s ps _

/-- A scalar load changes the translations held, what is known of errors and the counter of free values, and nothing else. -/
theorem State.loadScalar_state {s t : State} {va n : Nat} {l : List Byte} (h : s.loadScalar va n = .ok (l, t)) : s.SameButChecks t := by
  unfold State.loadScalar at h
  split at h
  · cases h
  · rename_i ps hs s1 ha
    obtain ⟨m, hm⟩ := chooseSoft_dev s1.hart.strip.stores s1 ps []
    dsimp only at h hm
    split at h
    · cases h
      rw [hm]
      exact (access_checks ha).trans ⟨rfl, .fresh _ _⟩
    · cases h

/-! ### Writes (R244) -/

@[simp] theorem Device.clearPoison_mem (d : Device) (g : Nat) : (d.clearPoison g).mem = d.mem := rfl
@[simp] theorem Device.clearPoison_bricks (d : Device) (g : Nat) : (d.clearPoison g).bricks = d.bricks := rfl
@[simp] theorem Device.addPoison_mem (d : Device) (g : Nat) : (d.addPoison g).mem = d.mem := by
  unfold Device.addPoison; split <;> rfl
@[simp] theorem Device.addPoison_bricks (d : Device) (g : Nat) : (d.addPoison g).bricks = d.bricks := by
  unfold Device.addPoison; split <;> rfl

theorem Device.foldl_clearPoison : ∀ (l : List Nat) (k : Nat) (d : Device),
    ∃ p q, l.foldl (fun d i => d.clearPoison (k + i)) d = { d with poison := p, latent := q } := by
  intro l k
  induction l with
  | nil => intro d; exact ⟨d.poison, d.latent, rfl⟩
  | cons i rest ih =>
    intro d
    obtain ⟨p, q, h⟩ := ih (d.clearPoison (k + i))
    exact ⟨p, q, by rw [List.foldl_cons, h]; rfl⟩

/-- A write changes the bytes it names, the poison of granules and what is known of errors, and nothing else. -/
theorem Device.writeAccess_dev (d : Device) (off : Nat) (l : List Byte) :
    ∃ p q f c g, d.writeAccess off l = { d with
      mem := Memory.writeBytes d.mem off l, poison := p, latent := q, fresh := f, gmc := { d.gmc with corrected := c, log := g } } := by
  unfold Device.writeAccess
  dsimp only
  obtain ⟨p, q, h⟩ := Device.foldl_clearPoison ((List.range (l.length / 64 + 2)).filter
    (fun i => off ≤ 64 * (off / 64 + i) && 64 * (off / 64 + i) + 64 ≤ off + l.length)) (off / 64) { d with mem := Memory.writeBytes d.mem off l }
  rw [h]
  have key : ∀ (e : Device) (g : Nat), ∃ p q f c k, e.scrub g = { e with poison := p, latent := q, fresh := f, gmc := { e.gmc with corrected := c, log := k } } := by
    intro e g
    unfold Device.scrub Device.logError Device.addPoison
    dsimp only
    split
    · split <;> exact ⟨_, _, _, _, _, rfl⟩
    · exact ⟨e.poison, _, e.fresh, _, e.gmc.log, rfl⟩
  have all : ∀ (l : List Nat) (e : Device), ∃ p q f c k, l.foldl Device.scrub e = { e with poison := p, latent := q, fresh := f, gmc := { e.gmc with corrected := c, log := k } } := by
    intro l
    induction l with
    | nil => intro e; exact ⟨e.poison, e.latent, e.fresh, e.gmc.corrected, e.gmc.log, rfl⟩
    | cons g r ih =>
      intro e
      rw [List.foldl_cons]
      obtain ⟨_, _, _, _, _, h1⟩ := key e g
      obtain ⟨p, q, f, c, k, h2⟩ := ih (e.scrub g)
      exact ⟨p, q, f, c, k, by rw [h2, h1]⟩
  unfold Device.meet
  split
  · exact ⟨p, q, d.fresh, d.gmc.corrected, d.gmc.log, rfl⟩
  · obtain ⟨p, q, f, c, k, h2⟩ := all (distinct (((List.range l.length).map (off + ·)).map (· / 64)))
      { d with mem := Memory.writeBytes d.mem off l, poison := p, latent := q }
    exact ⟨p, q, f, c, k, h2⟩

@[simp] theorem Device.writeAccess_mem (d : Device) (off : Nat) (l : List Byte) :
    (d.writeAccess off l).mem = Memory.writeBytes d.mem off l := by
  obtain ⟨p, q, f, c, g, h⟩ := d.writeAccess_dev off l
  rw [h]

@[simp] theorem Device.writeAccess_bricks (d : Device) (off : Nat) (l : List Byte) : (d.writeAccess off l).bricks = d.bricks := by
  obtain ⟨p, q, f, c, g, h⟩ := d.writeAccess_dev off l
  rw [h]

/-- A write keeps the canonical form of memory. -/
theorem Device.wf_writeAccess (d : Device) (off : Nat) (l : List Byte) (h : Memory.wf d.mem = true) :
    Memory.wf (d.writeAccess off l).mem = true := by
  rw [Device.writeAccess_mem]
  exact Memory.wf_writeBytes l d.mem off h

/-- A granule that is marked poisoned is poisoned. -/
theorem Device.poisoned_addPoison (d : Device) (off : Nat) : (d.addPoison (off / 64)).poisoned off = true := by
  unfold Device.addPoison Device.poisoned
  split
  · rename_i h; simp_all
  · simp

/-- A granule whose poison is cleared is not poisoned (R244). -/
theorem Device.poisoned_clearPoison (d : Device) (off : Nat) : (d.clearPoison (off / 64)).poisoned off = false := by
  simp [Device.clearPoison, Device.poisoned]

end Sys2Proof.Machine
end

