-- ==== Sys2Proof/Laws/Fields.lean ====
section
/-! SUPPORT. What the fields of a word hold when it is put together from values that fit them. -/

set_option Elab.async false

namespace Sys2Proof.Laws.Field
open Sys2Proof

/-! ### Fields of a word -/

/-- Adding bits above a field does not change it. -/
theorem above (s v l lo n : Nat) (h : lo + n ≤ l) : Sys2Proof.fld (s + v * 2 ^ l) lo n = Sys2Proof.fld s lo n := by
  obtain ⟨j, rfl⟩ := Nat.exists_eq_add_of_le h
  have e : v * 2 ^ (lo + n + j) = 2 ^ lo * (2 ^ n * (v * 2 ^ j)) := by rw [Nat.pow_add, Nat.pow_add]; ring
  rw [e, Sys2Proof.fld, Nat.add_mul_div_left _ _ (Nat.two_pow_pos lo), Nat.add_mul_mod_self_left]; rfl

/-- A value written where the word is empty is what stands there. -/
theorem here (s v lo n : Nat) (b : v < 2 ^ n) (g : Sys2Proof.fld s lo n = 0) :
    Sys2Proof.fld (s + v * 2 ^ lo) lo n = v := by
  unfold Sys2Proof.fld at g ⊢
  rw [Nat.mul_comm v, Nat.add_mul_div_left _ _ (Nat.two_pow_pos lo), Nat.add_mod, g, Nat.zero_add, Nat.mod_mod, Nat.mod_eq_of_lt b]

/-- Adding bits where the word is empty carries nothing into the bits above. -/
theorem no_carry (s v l w : Nat) (b : v < 2 ^ w) (g : Sys2Proof.fld s l w = 0) :
    (s + v * 2 ^ l) / 2 ^ (l + w) = s / 2 ^ (l + w) := by
  unfold Sys2Proof.fld at g
  rw [Nat.pow_add, ← Nat.div_div_eq_div_mul, ← Nat.div_div_eq_div_mul, Nat.mul_comm v,
    Nat.add_mul_div_left _ _ (Nat.two_pow_pos l)]
  have e : s / 2 ^ l = 2 ^ w * (s / 2 ^ l / 2 ^ w) := by have := Nat.mod_add_div (s / 2 ^ l) (2 ^ w); omega
  rw [e, Nat.add_comm, Nat.add_mul_div_left _ _ (Nat.two_pow_pos w), Nat.div_eq_of_lt b, Nat.zero_add,
    Nat.mul_div_cancel_left _ (Nat.two_pow_pos w)]

/-- Adding bits below a field, where the word is empty, does not change it. -/
theorem below (s v l w lo n : Nat) (h : l + w ≤ lo) (b : v < 2 ^ w) (g : Sys2Proof.fld s l w = 0) :
    Sys2Proof.fld (s + v * 2 ^ l) lo n = Sys2Proof.fld s lo n := by
  obtain ⟨j, rfl⟩ := Nat.exists_eq_add_of_le h
  unfold Sys2Proof.fld
  rw [Nat.pow_add 2 (l + w) j, ← Nat.div_div_eq_div_mul, ← Nat.div_div_eq_div_mul, no_carry s v l w b g]

/-- Adding bits inside a field, where the word is empty, adds them to it. -/
theorem inside (s v l w lo n : Nat) (h : lo ≤ l) (t : l + w ≤ lo + n) (b : v < 2 ^ w) (g : Sys2Proof.fld s l w = 0) :
    Sys2Proof.fld (s + v * 2 ^ l) lo n = Sys2Proof.fld s lo n + v * 2 ^ (l - lo) := by
  obtain ⟨j, rfl⟩ := Nat.exists_eq_add_of_le h
  obtain ⟨k, rfl⟩ := Nat.exists_eq_add_of_le (show j + w ≤ n by omega)
  have e : v * 2 ^ (lo + j) = 2 ^ lo * (v * 2 ^ j) := by rw [Nat.pow_add]; ring
  unfold Sys2Proof.fld at g ⊢
  rw [e, Nat.add_mul_div_left _ _ (Nat.two_pow_pos lo), Nat.add_sub_cancel_left]
  rw [Nat.pow_add, ← Nat.div_div_eq_div_mul] at g
  have c := no_carry (s / 2 ^ lo) v j w b g
  have d := here (s / 2 ^ lo) v j w b g
  unfold Sys2Proof.fld at d
  rw [Nat.pow_add 2 (j + w) k, Nat.mod_mul, Nat.mod_mul, c, Nat.pow_add 2 j w, Nat.mod_mul, Nat.mod_mul, d, g,
    Nat.add_mul_mod_self_right]
  ring


/-! ### What a field of a word holds, for each layout of fields -/

theorem bits26w6_of_21w5_16w5_11w5 (m v0 v1 v2 word : Nat) (h : m + v0 * 2 ^ 21 + v1 * 2 ^ 16 + v2 * 2 ^ 11 = word) (b0 : v0 < 2 ^ 5) (b1 : v1 < 2 ^ 5) (b2 : v2 < 2 ^ 5) (g0 : Sys2Proof.fld m 21 5 = 0) (g1 : Sys2Proof.fld m 16 5 = 0) (g2 : Sys2Proof.fld m 11 5 = 0) : Sys2Proof.fld word 26 6 = Sys2Proof.fld m 26 6 := by
  subst h; exact (below _ _ 11 5 26 6 (by decide) b2 ((above _ _ 16 11 5 (by decide)).trans ((above _ _ 21 11 5 (by decide)).trans (g2)))).trans ((below _ _ 16 5 26 6 (by decide) b1 ((above _ _ 21 16 5 (by decide)).trans (g1))).trans ((below _ _ 21 5 26 6 (by decide) b0 (g0)).trans (rfl)))
theorem bits0w11_of_21w5_16w5_11w5 (m v0 v1 v2 word : Nat) (h : m + v0 * 2 ^ 21 + v1 * 2 ^ 16 + v2 * 2 ^ 11 = word) : Sys2Proof.fld word 0 11 = Sys2Proof.fld m 0 11 := by
  subst h; exact (above _ _ 11 0 11 (by decide)).trans ((above _ _ 16 0 11 (by decide)).trans ((above _ _ 21 0 11 (by decide)).trans (rfl)))
theorem bits21w5_of_21w5_16w5_11w5 (m v0 v1 v2 word : Nat) (h : m + v0 * 2 ^ 21 + v1 * 2 ^ 16 + v2 * 2 ^ 11 = word) (b0 : v0 < 2 ^ 5) (b1 : v1 < 2 ^ 5) (b2 : v2 < 2 ^ 5) (g0 : Sys2Proof.fld m 21 5 = 0) (g1 : Sys2Proof.fld m 16 5 = 0) (g2 : Sys2Proof.fld m 11 5 = 0) : Sys2Proof.fld word 21 5 = v0 := by
  subst h; exact (below _ _ 11 5 21 5 (by decide) b2 ((above _ _ 16 11 5 (by decide)).trans ((above _ _ 21 11 5 (by decide)).trans (g2)))).trans ((below _ _ 16 5 21 5 (by decide) b1 ((above _ _ 21 16 5 (by decide)).trans (g1))).trans (here _ _ 21 5 b0 (g0)))
theorem bits16w5_of_21w5_16w5_11w5 (m v0 v1 v2 word : Nat) (h : m + v0 * 2 ^ 21 + v1 * 2 ^ 16 + v2 * 2 ^ 11 = word) (b1 : v1 < 2 ^ 5) (b2 : v2 < 2 ^ 5) (g1 : Sys2Proof.fld m 16 5 = 0) (g2 : Sys2Proof.fld m 11 5 = 0) : Sys2Proof.fld word 16 5 = v1 := by
  subst h; exact (below _ _ 11 5 16 5 (by decide) b2 ((above _ _ 16 11 5 (by decide)).trans ((above _ _ 21 11 5 (by decide)).trans (g2)))).trans (here _ _ 16 5 b1 ((above _ _ 21 16 5 (by decide)).trans (g1)))
theorem bits11w5_of_21w5_16w5_11w5 (m v0 v1 v2 word : Nat) (h : m + v0 * 2 ^ 21 + v1 * 2 ^ 16 + v2 * 2 ^ 11 = word) (b2 : v2 < 2 ^ 5) (g2 : Sys2Proof.fld m 11 5 = 0) : Sys2Proof.fld word 11 5 = v2 := by
  subst h; exact here _ _ 11 5 b2 ((above _ _ 16 11 5 (by decide)).trans ((above _ _ 21 11 5 (by decide)).trans (g2)))
theorem bits26w6_of_21w5_16w5 (m v0 v1 word : Nat) (h : m + v0 * 2 ^ 21 + v1 * 2 ^ 16 = word) (b0 : v0 < 2 ^ 5) (b1 : v1 < 2 ^ 5) (g0 : Sys2Proof.fld m 21 5 = 0) (g1 : Sys2Proof.fld m 16 5 = 0) : Sys2Proof.fld word 26 6 = Sys2Proof.fld m 26 6 := by
  subst h; exact (below _ _ 16 5 26 6 (by decide) b1 ((above _ _ 21 16 5 (by decide)).trans (g1))).trans ((below _ _ 21 5 26 6 (by decide) b0 (g0)).trans (rfl))
theorem bits0w11_of_21w5_16w5 (m v0 v1 word : Nat) (h : m + v0 * 2 ^ 21 + v1 * 2 ^ 16 = word) : Sys2Proof.fld word 0 11 = Sys2Proof.fld m 0 11 := by
  subst h; exact (above _ _ 16 0 11 (by decide)).trans ((above _ _ 21 0 11 (by decide)).trans (rfl))
theorem bits11w5_of_21w5_16w5 (m v0 v1 word : Nat) (h : m + v0 * 2 ^ 21 + v1 * 2 ^ 16 = word) : Sys2Proof.fld word 11 5 = Sys2Proof.fld m 11 5 := by
  subst h; exact (above _ _ 16 11 5 (by decide)).trans ((above _ _ 21 11 5 (by decide)).trans (rfl))
theorem bits21w5_of_21w5_16w5 (m v0 v1 word : Nat) (h : m + v0 * 2 ^ 21 + v1 * 2 ^ 16 = word) (b0 : v0 < 2 ^ 5) (b1 : v1 < 2 ^ 5) (g0 : Sys2Proof.fld m 21 5 = 0) (g1 : Sys2Proof.fld m 16 5 = 0) : Sys2Proof.fld word 21 5 = v0 := by
  subst h; exact (below _ _ 16 5 21 5 (by decide) b1 ((above _ _ 21 16 5 (by decide)).trans (g1))).trans (here _ _ 21 5 b0 (g0))
theorem bits16w5_of_21w5_16w5 (m v0 v1 word : Nat) (h : m + v0 * 2 ^ 21 + v1 * 2 ^ 16 = word) (b1 : v1 < 2 ^ 5) (g1 : Sys2Proof.fld m 16 5 = 0) : Sys2Proof.fld word 16 5 = v1 := by
  subst h; exact here _ _ 16 5 b1 ((above _ _ 21 16 5 (by decide)).trans (g1))
theorem bits26w6_of_21w5_16w5_0w16 (m v0 v1 v2 word : Nat) (h : m + v0 * 2 ^ 21 + v1 * 2 ^ 16 + v2 * 2 ^ 0 = word) (b0 : v0 < 2 ^ 5) (b1 : v1 < 2 ^ 5) (b2 : v2 < 2 ^ 16) (g0 : Sys2Proof.fld m 21 5 = 0) (g1 : Sys2Proof.fld m 16 5 = 0) (g2 : Sys2Proof.fld m 0 16 = 0) : Sys2Proof.fld word 26 6 = Sys2Proof.fld m 26 6 := by
  subst h; exact (below _ _ 0 16 26 6 (by decide) b2 ((above _ _ 16 0 16 (by decide)).trans ((above _ _ 21 0 16 (by decide)).trans (g2)))).trans ((below _ _ 16 5 26 6 (by decide) b1 ((above _ _ 21 16 5 (by decide)).trans (g1))).trans ((below _ _ 21 5 26 6 (by decide) b0 (g0)).trans (rfl)))
theorem bits21w5_of_21w5_16w5_0w16 (m v0 v1 v2 word : Nat) (h : m + v0 * 2 ^ 21 + v1 * 2 ^ 16 + v2 * 2 ^ 0 = word) (b0 : v0 < 2 ^ 5) (b1 : v1 < 2 ^ 5) (b2 : v2 < 2 ^ 16) (g0 : Sys2Proof.fld m 21 5 = 0) (g1 : Sys2Proof.fld m 16 5 = 0) (g2 : Sys2Proof.fld m 0 16 = 0) : Sys2Proof.fld word 21 5 = v0 := by
  subst h; exact (below _ _ 0 16 21 5 (by decide) b2 ((above _ _ 16 0 16 (by decide)).trans ((above _ _ 21 0 16 (by decide)).trans (g2)))).trans ((below _ _ 16 5 21 5 (by decide) b1 ((above _ _ 21 16 5 (by decide)).trans (g1))).trans (here _ _ 21 5 b0 (g0)))
theorem bits16w5_of_21w5_16w5_0w16 (m v0 v1 v2 word : Nat) (h : m + v0 * 2 ^ 21 + v1 * 2 ^ 16 + v2 * 2 ^ 0 = word) (b1 : v1 < 2 ^ 5) (b2 : v2 < 2 ^ 16) (g1 : Sys2Proof.fld m 16 5 = 0) (g2 : Sys2Proof.fld m 0 16 = 0) : Sys2Proof.fld word 16 5 = v1 := by
  subst h; exact (below _ _ 0 16 16 5 (by decide) b2 ((above _ _ 16 0 16 (by decide)).trans ((above _ _ 21 0 16 (by decide)).trans (g2)))).trans (here _ _ 16 5 b1 ((above _ _ 21 16 5 (by decide)).trans (g1)))
theorem bits0w16_of_21w5_16w5_0w16 (m v0 v1 v2 word : Nat) (h : m + v0 * 2 ^ 21 + v1 * 2 ^ 16 + v2 * 2 ^ 0 = word) (b2 : v2 < 2 ^ 16) (g2 : Sys2Proof.fld m 0 16 = 0) : Sys2Proof.fld word 0 16 = v2 := by
  subst h; exact here _ _ 0 16 b2 ((above _ _ 16 0 16 (by decide)).trans ((above _ _ 21 0 16 (by decide)).trans (g2)))
theorem bits26w6_of_21w5_16w5_0w6 (m v0 v1 v2 word : Nat) (h : m + v0 * 2 ^ 21 + v1 * 2 ^ 16 + v2 * 2 ^ 0 = word) (b0 : v0 < 2 ^ 5) (b1 : v1 < 2 ^ 5) (b2 : v2 < 2 ^ 6) (g0 : Sys2Proof.fld m 21 5 = 0) (g1 : Sys2Proof.fld m 16 5 = 0) (g2 : Sys2Proof.fld m 0 6 = 0) : Sys2Proof.fld word 26 6 = Sys2Proof.fld m 26 6 := by
  subst h; exact (below _ _ 0 6 26 6 (by decide) b2 ((above _ _ 16 0 6 (by decide)).trans ((above _ _ 21 0 6 (by decide)).trans (g2)))).trans ((below _ _ 16 5 26 6 (by decide) b1 ((above _ _ 21 16 5 (by decide)).trans (g1))).trans ((below _ _ 21 5 26 6 (by decide) b0 (g0)).trans (rfl)))
theorem bits6w2_of_21w5_16w5_0w6 (m v0 v1 v2 word : Nat) (h : m + v0 * 2 ^ 21 + v1 * 2 ^ 16 + v2 * 2 ^ 0 = word) (b2 : v2 < 2 ^ 6) (g2 : Sys2Proof.fld m 0 6 = 0) : Sys2Proof.fld word 6 2 = Sys2Proof.fld m 6 2 := by
  subst h; exact (below _ _ 0 6 6 2 (by decide) b2 ((above _ _ 16 0 6 (by decide)).trans ((above _ _ 21 0 6 (by decide)).trans (g2)))).trans ((above _ _ 16 6 2 (by decide)).trans ((above _ _ 21 6 2 (by decide)).trans (rfl)))
theorem bits8w8_of_21w5_16w5_0w6 (m v0 v1 v2 word : Nat) (h : m + v0 * 2 ^ 21 + v1 * 2 ^ 16 + v2 * 2 ^ 0 = word) (b2 : v2 < 2 ^ 6) (g2 : Sys2Proof.fld m 0 6 = 0) : Sys2Proof.fld word 8 8 = Sys2Proof.fld m 8 8 := by
  subst h; exact (below _ _ 0 6 8 8 (by decide) b2 ((above _ _ 16 0 6 (by decide)).trans ((above _ _ 21 0 6 (by decide)).trans (g2)))).trans ((above _ _ 16 8 8 (by decide)).trans ((above _ _ 21 8 8 (by decide)).trans (rfl)))
theorem bits21w5_of_21w5_16w5_0w6 (m v0 v1 v2 word : Nat) (h : m + v0 * 2 ^ 21 + v1 * 2 ^ 16 + v2 * 2 ^ 0 = word) (b0 : v0 < 2 ^ 5) (b1 : v1 < 2 ^ 5) (b2 : v2 < 2 ^ 6) (g0 : Sys2Proof.fld m 21 5 = 0) (g1 : Sys2Proof.fld m 16 5 = 0) (g2 : Sys2Proof.fld m 0 6 = 0) : Sys2Proof.fld word 21 5 = v0 := by
  subst h; exact (below _ _ 0 6 21 5 (by decide) b2 ((above _ _ 16 0 6 (by decide)).trans ((above _ _ 21 0 6 (by decide)).trans (g2)))).trans ((below _ _ 16 5 21 5 (by decide) b1 ((above _ _ 21 16 5 (by decide)).trans (g1))).trans (here _ _ 21 5 b0 (g0)))
theorem bits16w5_of_21w5_16w5_0w6 (m v0 v1 v2 word : Nat) (h : m + v0 * 2 ^ 21 + v1 * 2 ^ 16 + v2 * 2 ^ 0 = word) (b1 : v1 < 2 ^ 5) (b2 : v2 < 2 ^ 6) (g1 : Sys2Proof.fld m 16 5 = 0) (g2 : Sys2Proof.fld m 0 6 = 0) : Sys2Proof.fld word 16 5 = v1 := by
  subst h; exact (below _ _ 0 6 16 5 (by decide) b2 ((above _ _ 16 0 6 (by decide)).trans ((above _ _ 21 0 6 (by decide)).trans (g2)))).trans (here _ _ 16 5 b1 ((above _ _ 21 16 5 (by decide)).trans (g1)))
theorem bits0w6_of_21w5_16w5_0w6 (m v0 v1 v2 word : Nat) (h : m + v0 * 2 ^ 21 + v1 * 2 ^ 16 + v2 * 2 ^ 0 = word) (b2 : v2 < 2 ^ 6) (g2 : Sys2Proof.fld m 0 6 = 0) : Sys2Proof.fld word 0 6 = v2 := by
  subst h; exact here _ _ 0 6 b2 ((above _ _ 16 0 6 (by decide)).trans ((above _ _ 21 0 6 (by decide)).trans (g2)))
theorem bits26w6_of_21w5_0w21 (m v0 v1 word : Nat) (h : m + v0 * 2 ^ 21 + v1 * 2 ^ 0 = word) (b0 : v0 < 2 ^ 5) (b1 : v1 < 2 ^ 21) (g0 : Sys2Proof.fld m 21 5 = 0) (g1 : Sys2Proof.fld m 0 21 = 0) : Sys2Proof.fld word 26 6 = Sys2Proof.fld m 26 6 := by
  subst h; exact (below _ _ 0 21 26 6 (by decide) b1 ((above _ _ 21 0 21 (by decide)).trans (g1))).trans ((below _ _ 21 5 26 6 (by decide) b0 (g0)).trans (rfl))
theorem bits21w5_of_21w5_0w21 (m v0 v1 word : Nat) (h : m + v0 * 2 ^ 21 + v1 * 2 ^ 0 = word) (b0 : v0 < 2 ^ 5) (b1 : v1 < 2 ^ 21) (g0 : Sys2Proof.fld m 21 5 = 0) (g1 : Sys2Proof.fld m 0 21 = 0) : Sys2Proof.fld word 21 5 = v0 := by
  subst h; exact (below _ _ 0 21 21 5 (by decide) b1 ((above _ _ 21 0 21 (by decide)).trans (g1))).trans (here _ _ 21 5 b0 (g0))
theorem bits0w21_of_21w5_0w21 (m v0 v1 word : Nat) (h : m + v0 * 2 ^ 21 + v1 * 2 ^ 0 = word) (b1 : v1 < 2 ^ 21) (g1 : Sys2Proof.fld m 0 21 = 0) : Sys2Proof.fld word 0 21 = v1 := by
  subst h; exact here _ _ 0 21 b1 ((above _ _ 21 0 21 (by decide)).trans (g1))
theorem bits26w6_of_21w5_16w5_14w2_12w2_0w10 (m v0 v1 v2 v3 v4 word : Nat) (h : m + v0 * 2 ^ 21 + v1 * 2 ^ 16 + v2 * 2 ^ 14 + v3 * 2 ^ 12 + v4 * 2 ^ 0 = word) (b0 : v0 < 2 ^ 5) (b1 : v1 < 2 ^ 5) (b2 : v2 < 2 ^ 2) (b3 : v3 < 2 ^ 2) (b4 : v4 < 2 ^ 10) (g0 : Sys2Proof.fld m 21 5 = 0) (g1 : Sys2Proof.fld m 16 5 = 0) (g2 : Sys2Proof.fld m 14 2 = 0) (g3 : Sys2Proof.fld m 12 2 = 0) (g4 : Sys2Proof.fld m 0 10 = 0) : Sys2Proof.fld word 26 6 = Sys2Proof.fld m 26 6 := by
  subst h; exact (below _ _ 0 10 26 6 (by decide) b4 ((above _ _ 12 0 10 (by decide)).trans ((above _ _ 14 0 10 (by decide)).trans ((above _ _ 16 0 10 (by decide)).trans ((above _ _ 21 0 10 (by decide)).trans (g4)))))).trans ((below _ _ 12 2 26 6 (by decide) b3 ((above _ _ 14 12 2 (by decide)).trans ((above _ _ 16 12 2 (by decide)).trans ((above _ _ 21 12 2 (by decide)).trans (g3))))).trans ((below _ _ 14 2 26 6 (by decide) b2 ((above _ _ 16 14 2 (by decide)).trans ((above _ _ 21 14 2 (by decide)).trans (g2)))).trans ((below _ _ 16 5 26 6 (by decide) b1 ((above _ _ 21 16 5 (by decide)).trans (g1))).trans ((below _ _ 21 5 26 6 (by decide) b0 (g0)).trans (rfl)))))
theorem bits10w2_of_21w5_16w5_14w2_12w2_0w10 (m v0 v1 v2 v3 v4 word : Nat) (h : m + v0 * 2 ^ 21 + v1 * 2 ^ 16 + v2 * 2 ^ 14 + v3 * 2 ^ 12 + v4 * 2 ^ 0 = word) (b4 : v4 < 2 ^ 10) (g4 : Sys2Proof.fld m 0 10 = 0) : Sys2Proof.fld word 10 2 = Sys2Proof.fld m 10 2 := by
  subst h; exact (below _ _ 0 10 10 2 (by decide) b4 ((above _ _ 12 0 10 (by decide)).trans ((above _ _ 14 0 10 (by decide)).trans ((above _ _ 16 0 10 (by decide)).trans ((above _ _ 21 0 10 (by decide)).trans (g4)))))).trans ((above _ _ 12 10 2 (by decide)).trans ((above _ _ 14 10 2 (by decide)).trans ((above _ _ 16 10 2 (by decide)).trans ((above _ _ 21 10 2 (by decide)).trans (rfl)))))
theorem bits21w5_of_21w5_16w5_14w2_12w2_0w10 (m v0 v1 v2 v3 v4 word : Nat) (h : m + v0 * 2 ^ 21 + v1 * 2 ^ 16 + v2 * 2 ^ 14 + v3 * 2 ^ 12 + v4 * 2 ^ 0 = word) (b0 : v0 < 2 ^ 5) (b1 : v1 < 2 ^ 5) (b2 : v2 < 2 ^ 2) (b3 : v3 < 2 ^ 2) (b4 : v4 < 2 ^ 10) (g0 : Sys2Proof.fld m 21 5 = 0) (g1 : Sys2Proof.fld m 16 5 = 0) (g2 : Sys2Proof.fld m 14 2 = 0) (g3 : Sys2Proof.fld m 12 2 = 0) (g4 : Sys2Proof.fld m 0 10 = 0) : Sys2Proof.fld word 21 5 = v0 := by
  subst h; exact (below _ _ 0 10 21 5 (by decide) b4 ((above _ _ 12 0 10 (by decide)).trans ((above _ _ 14 0 10 (by decide)).trans ((above _ _ 16 0 10 (by decide)).trans ((above _ _ 21 0 10 (by decide)).trans (g4)))))).trans ((below _ _ 12 2 21 5 (by decide) b3 ((above _ _ 14 12 2 (by decide)).trans ((above _ _ 16 12 2 (by decide)).trans ((above _ _ 21 12 2 (by decide)).trans (g3))))).trans ((below _ _ 14 2 21 5 (by decide) b2 ((above _ _ 16 14 2 (by decide)).trans ((above _ _ 21 14 2 (by decide)).trans (g2)))).trans ((below _ _ 16 5 21 5 (by decide) b1 ((above _ _ 21 16 5 (by decide)).trans (g1))).trans (here _ _ 21 5 b0 (g0)))))
theorem bits16w5_of_21w5_16w5_14w2_12w2_0w10 (m v0 v1 v2 v3 v4 word : Nat) (h : m + v0 * 2 ^ 21 + v1 * 2 ^ 16 + v2 * 2 ^ 14 + v3 * 2 ^ 12 + v4 * 2 ^ 0 = word) (b1 : v1 < 2 ^ 5) (b2 : v2 < 2 ^ 2) (b3 : v3 < 2 ^ 2) (b4 : v4 < 2 ^ 10) (g1 : Sys2Proof.fld m 16 5 = 0) (g2 : Sys2Proof.fld m 14 2 = 0) (g3 : Sys2Proof.fld m 12 2 = 0) (g4 : Sys2Proof.fld m 0 10 = 0) : Sys2Proof.fld word 16 5 = v1 := by
  subst h; exact (below _ _ 0 10 16 5 (by decide) b4 ((above _ _ 12 0 10 (by decide)).trans ((above _ _ 14 0 10 (by decide)).trans ((above _ _ 16 0 10 (by decide)).trans ((above _ _ 21 0 10 (by decide)).trans (g4)))))).trans ((below _ _ 12 2 16 5 (by decide) b3 ((above _ _ 14 12 2 (by decide)).trans ((above _ _ 16 12 2 (by decide)).trans ((above _ _ 21 12 2 (by decide)).trans (g3))))).trans ((below _ _ 14 2 16 5 (by decide) b2 ((above _ _ 16 14 2 (by decide)).trans ((above _ _ 21 14 2 (by decide)).trans (g2)))).trans (here _ _ 16 5 b1 ((above _ _ 21 16 5 (by decide)).trans (g1)))))
theorem bits14w2_of_21w5_16w5_14w2_12w2_0w10 (m v0 v1 v2 v3 v4 word : Nat) (h : m + v0 * 2 ^ 21 + v1 * 2 ^ 16 + v2 * 2 ^ 14 + v3 * 2 ^ 12 + v4 * 2 ^ 0 = word) (b2 : v2 < 2 ^ 2) (b3 : v3 < 2 ^ 2) (b4 : v4 < 2 ^ 10) (g2 : Sys2Proof.fld m 14 2 = 0) (g3 : Sys2Proof.fld m 12 2 = 0) (g4 : Sys2Proof.fld m 0 10 = 0) : Sys2Proof.fld word 14 2 = v2 := by
  subst h; exact (below _ _ 0 10 14 2 (by decide) b4 ((above _ _ 12 0 10 (by decide)).trans ((above _ _ 14 0 10 (by decide)).trans ((above _ _ 16 0 10 (by decide)).trans ((above _ _ 21 0 10 (by decide)).trans (g4)))))).trans ((below _ _ 12 2 14 2 (by decide) b3 ((above _ _ 14 12 2 (by decide)).trans ((above _ _ 16 12 2 (by decide)).trans ((above _ _ 21 12 2 (by decide)).trans (g3))))).trans (here _ _ 14 2 b2 ((above _ _ 16 14 2 (by decide)).trans ((above _ _ 21 14 2 (by decide)).trans (g2)))))
theorem bits12w2_of_21w5_16w5_14w2_12w2_0w10 (m v0 v1 v2 v3 v4 word : Nat) (h : m + v0 * 2 ^ 21 + v1 * 2 ^ 16 + v2 * 2 ^ 14 + v3 * 2 ^ 12 + v4 * 2 ^ 0 = word) (b3 : v3 < 2 ^ 2) (b4 : v4 < 2 ^ 10) (g3 : Sys2Proof.fld m 12 2 = 0) (g4 : Sys2Proof.fld m 0 10 = 0) : Sys2Proof.fld word 12 2 = v3 := by
  subst h; exact (below _ _ 0 10 12 2 (by decide) b4 ((above _ _ 12 0 10 (by decide)).trans ((above _ _ 14 0 10 (by decide)).trans ((above _ _ 16 0 10 (by decide)).trans ((above _ _ 21 0 10 (by decide)).trans (g4)))))).trans (here _ _ 12 2 b3 ((above _ _ 14 12 2 (by decide)).trans ((above _ _ 16 12 2 (by decide)).trans ((above _ _ 21 12 2 (by decide)).trans (g3)))))
theorem bits0w10_of_21w5_16w5_14w2_12w2_0w10 (m v0 v1 v2 v3 v4 word : Nat) (h : m + v0 * 2 ^ 21 + v1 * 2 ^ 16 + v2 * 2 ^ 14 + v3 * 2 ^ 12 + v4 * 2 ^ 0 = word) (b4 : v4 < 2 ^ 10) (g4 : Sys2Proof.fld m 0 10 = 0) : Sys2Proof.fld word 0 10 = v4 := by
  subst h; exact here _ _ 0 10 b4 ((above _ _ 12 0 10 (by decide)).trans ((above _ _ 14 0 10 (by decide)).trans ((above _ _ 16 0 10 (by decide)).trans ((above _ _ 21 0 10 (by decide)).trans (g4)))))
theorem bits26w6_of_21w5_16w5_11w5_10w1_8w2 (m v0 v1 v2 v3 v4 word : Nat) (h : m + v0 * 2 ^ 21 + v1 * 2 ^ 16 + v2 * 2 ^ 11 + v3 * 2 ^ 10 + v4 * 2 ^ 8 = word) (b0 : v0 < 2 ^ 5) (b1 : v1 < 2 ^ 5) (b2 : v2 < 2 ^ 5) (b3 : v3 < 2 ^ 1) (b4 : v4 < 2 ^ 2) (g0 : Sys2Proof.fld m 21 5 = 0) (g1 : Sys2Proof.fld m 16 5 = 0) (g2 : Sys2Proof.fld m 11 5 = 0) (g3 : Sys2Proof.fld m 10 1 = 0) (g4 : Sys2Proof.fld m 8 2 = 0) : Sys2Proof.fld word 26 6 = Sys2Proof.fld m 26 6 := by
  subst h; exact (below _ _ 8 2 26 6 (by decide) b4 ((above _ _ 10 8 2 (by decide)).trans ((above _ _ 11 8 2 (by decide)).trans ((above _ _ 16 8 2 (by decide)).trans ((above _ _ 21 8 2 (by decide)).trans (g4)))))).trans ((below _ _ 10 1 26 6 (by decide) b3 ((above _ _ 11 10 1 (by decide)).trans ((above _ _ 16 10 1 (by decide)).trans ((above _ _ 21 10 1 (by decide)).trans (g3))))).trans ((below _ _ 11 5 26 6 (by decide) b2 ((above _ _ 16 11 5 (by decide)).trans ((above _ _ 21 11 5 (by decide)).trans (g2)))).trans ((below _ _ 16 5 26 6 (by decide) b1 ((above _ _ 21 16 5 (by decide)).trans (g1))).trans ((below _ _ 21 5 26 6 (by decide) b0 (g0)).trans (rfl)))))
theorem bits0w4_of_21w5_16w5_11w5_10w1_8w2 (m v0 v1 v2 v3 v4 word : Nat) (h : m + v0 * 2 ^ 21 + v1 * 2 ^ 16 + v2 * 2 ^ 11 + v3 * 2 ^ 10 + v4 * 2 ^ 8 = word) : Sys2Proof.fld word 0 4 = Sys2Proof.fld m 0 4 := by
  subst h; exact (above _ _ 8 0 4 (by decide)).trans ((above _ _ 10 0 4 (by decide)).trans ((above _ _ 11 0 4 (by decide)).trans ((above _ _ 16 0 4 (by decide)).trans ((above _ _ 21 0 4 (by decide)).trans (rfl)))))
theorem bits4w4_of_21w5_16w5_11w5_10w1_8w2 (m v0 v1 v2 v3 v4 word : Nat) (h : m + v0 * 2 ^ 21 + v1 * 2 ^ 16 + v2 * 2 ^ 11 + v3 * 2 ^ 10 + v4 * 2 ^ 8 = word) : Sys2Proof.fld word 4 4 = Sys2Proof.fld m 4 4 := by
  subst h; exact (above _ _ 8 4 4 (by decide)).trans ((above _ _ 10 4 4 (by decide)).trans ((above _ _ 11 4 4 (by decide)).trans ((above _ _ 16 4 4 (by decide)).trans ((above _ _ 21 4 4 (by decide)).trans (rfl)))))
theorem bits21w5_of_21w5_16w5_11w5_10w1_8w2 (m v0 v1 v2 v3 v4 word : Nat) (h : m + v0 * 2 ^ 21 + v1 * 2 ^ 16 + v2 * 2 ^ 11 + v3 * 2 ^ 10 + v4 * 2 ^ 8 = word) (b0 : v0 < 2 ^ 5) (b1 : v1 < 2 ^ 5) (b2 : v2 < 2 ^ 5) (b3 : v3 < 2 ^ 1) (b4 : v4 < 2 ^ 2) (g0 : Sys2Proof.fld m 21 5 = 0) (g1 : Sys2Proof.fld m 16 5 = 0) (g2 : Sys2Proof.fld m 11 5 = 0) (g3 : Sys2Proof.fld m 10 1 = 0) (g4 : Sys2Proof.fld m 8 2 = 0) : Sys2Proof.fld word 21 5 = v0 := by
  subst h; exact (below _ _ 8 2 21 5 (by decide) b4 ((above _ _ 10 8 2 (by decide)).trans ((above _ _ 11 8 2 (by decide)).trans ((above _ _ 16 8 2 (by decide)).trans ((above _ _ 21 8 2 (by decide)).trans (g4)))))).trans ((below _ _ 10 1 21 5 (by decide) b3 ((above _ _ 11 10 1 (by decide)).trans ((above _ _ 16 10 1 (by decide)).trans ((above _ _ 21 10 1 (by decide)).trans (g3))))).trans ((below _ _ 11 5 21 5 (by decide) b2 ((above _ _ 16 11 5 (by decide)).trans ((above _ _ 21 11 5 (by decide)).trans (g2)))).trans ((below _ _ 16 5 21 5 (by decide) b1 ((above _ _ 21 16 5 (by decide)).trans (g1))).trans (here _ _ 21 5 b0 (g0)))))
theorem bits16w5_of_21w5_16w5_11w5_10w1_8w2 (m v0 v1 v2 v3 v4 word : Nat) (h : m + v0 * 2 ^ 21 + v1 * 2 ^ 16 + v2 * 2 ^ 11 + v3 * 2 ^ 10 + v4 * 2 ^ 8 = word) (b1 : v1 < 2 ^ 5) (b2 : v2 < 2 ^ 5) (b3 : v3 < 2 ^ 1) (b4 : v4 < 2 ^ 2) (g1 : Sys2Proof.fld m 16 5 = 0) (g2 : Sys2Proof.fld m 11 5 = 0) (g3 : Sys2Proof.fld m 10 1 = 0) (g4 : Sys2Proof.fld m 8 2 = 0) : Sys2Proof.fld word 16 5 = v1 := by
  subst h; exact (below _ _ 8 2 16 5 (by decide) b4 ((above _ _ 10 8 2 (by decide)).trans ((above _ _ 11 8 2 (by decide)).trans ((above _ _ 16 8 2 (by decide)).trans ((above _ _ 21 8 2 (by decide)).trans (g4)))))).trans ((below _ _ 10 1 16 5 (by decide) b3 ((above _ _ 11 10 1 (by decide)).trans ((above _ _ 16 10 1 (by decide)).trans ((above _ _ 21 10 1 (by decide)).trans (g3))))).trans ((below _ _ 11 5 16 5 (by decide) b2 ((above _ _ 16 11 5 (by decide)).trans ((above _ _ 21 11 5 (by decide)).trans (g2)))).trans (here _ _ 16 5 b1 ((above _ _ 21 16 5 (by decide)).trans (g1)))))
theorem bits11w5_of_21w5_16w5_11w5_10w1_8w2 (m v0 v1 v2 v3 v4 word : Nat) (h : m + v0 * 2 ^ 21 + v1 * 2 ^ 16 + v2 * 2 ^ 11 + v3 * 2 ^ 10 + v4 * 2 ^ 8 = word) (b2 : v2 < 2 ^ 5) (b3 : v3 < 2 ^ 1) (b4 : v4 < 2 ^ 2) (g2 : Sys2Proof.fld m 11 5 = 0) (g3 : Sys2Proof.fld m 10 1 = 0) (g4 : Sys2Proof.fld m 8 2 = 0) : Sys2Proof.fld word 11 5 = v2 := by
  subst h; exact (below _ _ 8 2 11 5 (by decide) b4 ((above _ _ 10 8 2 (by decide)).trans ((above _ _ 11 8 2 (by decide)).trans ((above _ _ 16 8 2 (by decide)).trans ((above _ _ 21 8 2 (by decide)).trans (g4)))))).trans ((below _ _ 10 1 11 5 (by decide) b3 ((above _ _ 11 10 1 (by decide)).trans ((above _ _ 16 10 1 (by decide)).trans ((above _ _ 21 10 1 (by decide)).trans (g3))))).trans (here _ _ 11 5 b2 ((above _ _ 16 11 5 (by decide)).trans ((above _ _ 21 11 5 (by decide)).trans (g2)))))
theorem bits10w1_of_21w5_16w5_11w5_10w1_8w2 (m v0 v1 v2 v3 v4 word : Nat) (h : m + v0 * 2 ^ 21 + v1 * 2 ^ 16 + v2 * 2 ^ 11 + v3 * 2 ^ 10 + v4 * 2 ^ 8 = word) (b3 : v3 < 2 ^ 1) (b4 : v4 < 2 ^ 2) (g3 : Sys2Proof.fld m 10 1 = 0) (g4 : Sys2Proof.fld m 8 2 = 0) : Sys2Proof.fld word 10 1 = v3 := by
  subst h; exact (below _ _ 8 2 10 1 (by decide) b4 ((above _ _ 10 8 2 (by decide)).trans ((above _ _ 11 8 2 (by decide)).trans ((above _ _ 16 8 2 (by decide)).trans ((above _ _ 21 8 2 (by decide)).trans (g4)))))).trans (here _ _ 10 1 b3 ((above _ _ 11 10 1 (by decide)).trans ((above _ _ 16 10 1 (by decide)).trans ((above _ _ 21 10 1 (by decide)).trans (g3)))))
theorem bits8w2_of_21w5_16w5_11w5_10w1_8w2 (m v0 v1 v2 v3 v4 word : Nat) (h : m + v0 * 2 ^ 21 + v1 * 2 ^ 16 + v2 * 2 ^ 11 + v3 * 2 ^ 10 + v4 * 2 ^ 8 = word) (b4 : v4 < 2 ^ 2) (g4 : Sys2Proof.fld m 8 2 = 0) : Sys2Proof.fld word 8 2 = v4 := by
  subst h; exact here _ _ 8 2 b4 ((above _ _ 10 8 2 (by decide)).trans ((above _ _ 11 8 2 (by decide)).trans ((above _ _ 16 8 2 (by decide)).trans ((above _ _ 21 8 2 (by decide)).trans (g4)))))
theorem bits26w6_of_21w5_16w5_0w13 (m v0 v1 v2 word : Nat) (h : m + v0 * 2 ^ 21 + v1 * 2 ^ 16 + v2 * 2 ^ 0 = word) (b0 : v0 < 2 ^ 5) (b1 : v1 < 2 ^ 5) (b2 : v2 < 2 ^ 13) (g0 : Sys2Proof.fld m 21 5 = 0) (g1 : Sys2Proof.fld m 16 5 = 0) (g2 : Sys2Proof.fld m 0 13 = 0) : Sys2Proof.fld word 26 6 = Sys2Proof.fld m 26 6 := by
  subst h; exact (below _ _ 0 13 26 6 (by decide) b2 ((above _ _ 16 0 13 (by decide)).trans ((above _ _ 21 0 13 (by decide)).trans (g2)))).trans ((below _ _ 16 5 26 6 (by decide) b1 ((above _ _ 21 16 5 (by decide)).trans (g1))).trans ((below _ _ 21 5 26 6 (by decide) b0 (g0)).trans (rfl)))
theorem bits13w3_of_21w5_16w5_0w13 (m v0 v1 v2 word : Nat) (h : m + v0 * 2 ^ 21 + v1 * 2 ^ 16 + v2 * 2 ^ 0 = word) (b2 : v2 < 2 ^ 13) (g2 : Sys2Proof.fld m 0 13 = 0) : Sys2Proof.fld word 13 3 = Sys2Proof.fld m 13 3 := by
  subst h; exact (below _ _ 0 13 13 3 (by decide) b2 ((above _ _ 16 0 13 (by decide)).trans ((above _ _ 21 0 13 (by decide)).trans (g2)))).trans ((above _ _ 16 13 3 (by decide)).trans ((above _ _ 21 13 3 (by decide)).trans (rfl)))
theorem bits21w5_of_21w5_16w5_0w13 (m v0 v1 v2 word : Nat) (h : m + v0 * 2 ^ 21 + v1 * 2 ^ 16 + v2 * 2 ^ 0 = word) (b0 : v0 < 2 ^ 5) (b1 : v1 < 2 ^ 5) (b2 : v2 < 2 ^ 13) (g0 : Sys2Proof.fld m 21 5 = 0) (g1 : Sys2Proof.fld m 16 5 = 0) (g2 : Sys2Proof.fld m 0 13 = 0) : Sys2Proof.fld word 21 5 = v0 := by
  subst h; exact (below _ _ 0 13 21 5 (by decide) b2 ((above _ _ 16 0 13 (by decide)).trans ((above _ _ 21 0 13 (by decide)).trans (g2)))).trans ((below _ _ 16 5 21 5 (by decide) b1 ((above _ _ 21 16 5 (by decide)).trans (g1))).trans (here _ _ 21 5 b0 (g0)))
theorem bits16w5_of_21w5_16w5_0w13 (m v0 v1 v2 word : Nat) (h : m + v0 * 2 ^ 21 + v1 * 2 ^ 16 + v2 * 2 ^ 0 = word) (b1 : v1 < 2 ^ 5) (b2 : v2 < 2 ^ 13) (g1 : Sys2Proof.fld m 16 5 = 0) (g2 : Sys2Proof.fld m 0 13 = 0) : Sys2Proof.fld word 16 5 = v1 := by
  subst h; exact (below _ _ 0 13 16 5 (by decide) b2 ((above _ _ 16 0 13 (by decide)).trans ((above _ _ 21 0 13 (by decide)).trans (g2)))).trans (here _ _ 16 5 b1 ((above _ _ 21 16 5 (by decide)).trans (g1)))
theorem bits0w13_of_21w5_16w5_0w13 (m v0 v1 v2 word : Nat) (h : m + v0 * 2 ^ 21 + v1 * 2 ^ 16 + v2 * 2 ^ 0 = word) (b2 : v2 < 2 ^ 13) (g2 : Sys2Proof.fld m 0 13 = 0) : Sys2Proof.fld word 0 13 = v2 := by
  subst h; exact here _ _ 0 13 b2 ((above _ _ 16 0 13 (by decide)).trans ((above _ _ 21 0 13 (by decide)).trans (g2)))
theorem bits26w6_of_21w3_0w13 (m v0 v1 word : Nat) (h : m + v0 * 2 ^ 21 + v1 * 2 ^ 0 = word) (b0 : v0 < 2 ^ 3) (b1 : v1 < 2 ^ 13) (g0 : Sys2Proof.fld m 21 3 = 0) (g1 : Sys2Proof.fld m 0 13 = 0) : Sys2Proof.fld word 26 6 = Sys2Proof.fld m 26 6 := by
  subst h; exact (below _ _ 0 13 26 6 (by decide) b1 ((above _ _ 21 0 13 (by decide)).trans (g1))).trans ((below _ _ 21 3 26 6 (by decide) b0 (g0)).trans (rfl))
theorem bits24w2_of_21w3_0w13 (m v0 v1 word : Nat) (h : m + v0 * 2 ^ 21 + v1 * 2 ^ 0 = word) (b0 : v0 < 2 ^ 3) (b1 : v1 < 2 ^ 13) (g0 : Sys2Proof.fld m 21 3 = 0) (g1 : Sys2Proof.fld m 0 13 = 0) : Sys2Proof.fld word 24 2 = Sys2Proof.fld m 24 2 := by
  subst h; exact (below _ _ 0 13 24 2 (by decide) b1 ((above _ _ 21 0 13 (by decide)).trans (g1))).trans ((below _ _ 21 3 24 2 (by decide) b0 (g0)).trans (rfl))
theorem bits13w3_of_21w3_0w13 (m v0 v1 word : Nat) (h : m + v0 * 2 ^ 21 + v1 * 2 ^ 0 = word) (b1 : v1 < 2 ^ 13) (g1 : Sys2Proof.fld m 0 13 = 0) : Sys2Proof.fld word 13 3 = Sys2Proof.fld m 13 3 := by
  subst h; exact (below _ _ 0 13 13 3 (by decide) b1 ((above _ _ 21 0 13 (by decide)).trans (g1))).trans ((above _ _ 21 13 3 (by decide)).trans (rfl))
theorem bits16w5_of_21w3_0w13 (m v0 v1 word : Nat) (h : m + v0 * 2 ^ 21 + v1 * 2 ^ 0 = word) (b1 : v1 < 2 ^ 13) (g1 : Sys2Proof.fld m 0 13 = 0) : Sys2Proof.fld word 16 5 = Sys2Proof.fld m 16 5 := by
  subst h; exact (below _ _ 0 13 16 5 (by decide) b1 ((above _ _ 21 0 13 (by decide)).trans (g1))).trans ((above _ _ 21 16 5 (by decide)).trans (rfl))
theorem bits21w3_of_21w3_0w13 (m v0 v1 word : Nat) (h : m + v0 * 2 ^ 21 + v1 * 2 ^ 0 = word) (b0 : v0 < 2 ^ 3) (b1 : v1 < 2 ^ 13) (g0 : Sys2Proof.fld m 21 3 = 0) (g1 : Sys2Proof.fld m 0 13 = 0) : Sys2Proof.fld word 21 3 = v0 := by
  subst h; exact (below _ _ 0 13 21 3 (by decide) b1 ((above _ _ 21 0 13 (by decide)).trans (g1))).trans (here _ _ 21 3 b0 (g0))
theorem bits0w13_of_21w3_0w13 (m v0 v1 word : Nat) (h : m + v0 * 2 ^ 21 + v1 * 2 ^ 0 = word) (b1 : v1 < 2 ^ 13) (g1 : Sys2Proof.fld m 0 13 = 0) : Sys2Proof.fld word 0 13 = v1 := by
  subst h; exact here _ _ 0 13 b1 ((above _ _ 21 0 13 (by decide)).trans (g1))
theorem bits26w6_of_21w5_16w5_11w5_9w2 (m v0 v1 v2 v3 word : Nat) (h : m + v0 * 2 ^ 21 + v1 * 2 ^ 16 + v2 * 2 ^ 11 + v3 * 2 ^ 9 = word) (b0 : v0 < 2 ^ 5) (b1 : v1 < 2 ^ 5) (b2 : v2 < 2 ^ 5) (b3 : v3 < 2 ^ 2) (g0 : Sys2Proof.fld m 21 5 = 0) (g1 : Sys2Proof.fld m 16 5 = 0) (g2 : Sys2Proof.fld m 11 5 = 0) (g3 : Sys2Proof.fld m 9 2 = 0) : Sys2Proof.fld word 26 6 = Sys2Proof.fld m 26 6 := by
  subst h; exact (below _ _ 9 2 26 6 (by decide) b3 ((above _ _ 11 9 2 (by decide)).trans ((above _ _ 16 9 2 (by decide)).trans ((above _ _ 21 9 2 (by decide)).trans (g3))))).trans ((below _ _ 11 5 26 6 (by decide) b2 ((above _ _ 16 11 5 (by decide)).trans ((above _ _ 21 11 5 (by decide)).trans (g2)))).trans ((below _ _ 16 5 26 6 (by decide) b1 ((above _ _ 21 16 5 (by decide)).trans (g1))).trans ((below _ _ 21 5 26 6 (by decide) b0 (g0)).trans (rfl))))
theorem bits0w4_of_21w5_16w5_11w5_9w2 (m v0 v1 v2 v3 word : Nat) (h : m + v0 * 2 ^ 21 + v1 * 2 ^ 16 + v2 * 2 ^ 11 + v3 * 2 ^ 9 = word) : Sys2Proof.fld word 0 4 = Sys2Proof.fld m 0 4 := by
  subst h; exact (above _ _ 9 0 4 (by decide)).trans ((above _ _ 11 0 4 (by decide)).trans ((above _ _ 16 0 4 (by decide)).trans ((above _ _ 21 0 4 (by decide)).trans (rfl))))
theorem bits4w5_of_21w5_16w5_11w5_9w2 (m v0 v1 v2 v3 word : Nat) (h : m + v0 * 2 ^ 21 + v1 * 2 ^ 16 + v2 * 2 ^ 11 + v3 * 2 ^ 9 = word) : Sys2Proof.fld word 4 5 = Sys2Proof.fld m 4 5 := by
  subst h; exact (above _ _ 9 4 5 (by decide)).trans ((above _ _ 11 4 5 (by decide)).trans ((above _ _ 16 4 5 (by decide)).trans ((above _ _ 21 4 5 (by decide)).trans (rfl))))
theorem bits21w5_of_21w5_16w5_11w5_9w2 (m v0 v1 v2 v3 word : Nat) (h : m + v0 * 2 ^ 21 + v1 * 2 ^ 16 + v2 * 2 ^ 11 + v3 * 2 ^ 9 = word) (b0 : v0 < 2 ^ 5) (b1 : v1 < 2 ^ 5) (b2 : v2 < 2 ^ 5) (b3 : v3 < 2 ^ 2) (g0 : Sys2Proof.fld m 21 5 = 0) (g1 : Sys2Proof.fld m 16 5 = 0) (g2 : Sys2Proof.fld m 11 5 = 0) (g3 : Sys2Proof.fld m 9 2 = 0) : Sys2Proof.fld word 21 5 = v0 := by
  subst h; exact (below _ _ 9 2 21 5 (by decide) b3 ((above _ _ 11 9 2 (by decide)).trans ((above _ _ 16 9 2 (by decide)).trans ((above _ _ 21 9 2 (by decide)).trans (g3))))).trans ((below _ _ 11 5 21 5 (by decide) b2 ((above _ _ 16 11 5 (by decide)).trans ((above _ _ 21 11 5 (by decide)).trans (g2)))).trans ((below _ _ 16 5 21 5 (by decide) b1 ((above _ _ 21 16 5 (by decide)).trans (g1))).trans (here _ _ 21 5 b0 (g0))))
theorem bits16w5_of_21w5_16w5_11w5_9w2 (m v0 v1 v2 v3 word : Nat) (h : m + v0 * 2 ^ 21 + v1 * 2 ^ 16 + v2 * 2 ^ 11 + v3 * 2 ^ 9 = word) (b1 : v1 < 2 ^ 5) (b2 : v2 < 2 ^ 5) (b3 : v3 < 2 ^ 2) (g1 : Sys2Proof.fld m 16 5 = 0) (g2 : Sys2Proof.fld m 11 5 = 0) (g3 : Sys2Proof.fld m 9 2 = 0) : Sys2Proof.fld word 16 5 = v1 := by
  subst h; exact (below _ _ 9 2 16 5 (by decide) b3 ((above _ _ 11 9 2 (by decide)).trans ((above _ _ 16 9 2 (by decide)).trans ((above _ _ 21 9 2 (by decide)).trans (g3))))).trans ((below _ _ 11 5 16 5 (by decide) b2 ((above _ _ 16 11 5 (by decide)).trans ((above _ _ 21 11 5 (by decide)).trans (g2)))).trans (here _ _ 16 5 b1 ((above _ _ 21 16 5 (by decide)).trans (g1))))
theorem bits11w5_of_21w5_16w5_11w5_9w2 (m v0 v1 v2 v3 word : Nat) (h : m + v0 * 2 ^ 21 + v1 * 2 ^ 16 + v2 * 2 ^ 11 + v3 * 2 ^ 9 = word) (b2 : v2 < 2 ^ 5) (b3 : v3 < 2 ^ 2) (g2 : Sys2Proof.fld m 11 5 = 0) (g3 : Sys2Proof.fld m 9 2 = 0) : Sys2Proof.fld word 11 5 = v2 := by
  subst h; exact (below _ _ 9 2 11 5 (by decide) b3 ((above _ _ 11 9 2 (by decide)).trans ((above _ _ 16 9 2 (by decide)).trans ((above _ _ 21 9 2 (by decide)).trans (g3))))).trans (here _ _ 11 5 b2 ((above _ _ 16 11 5 (by decide)).trans ((above _ _ 21 11 5 (by decide)).trans (g2))))
theorem bits9w2_of_21w5_16w5_11w5_9w2 (m v0 v1 v2 v3 word : Nat) (h : m + v0 * 2 ^ 21 + v1 * 2 ^ 16 + v2 * 2 ^ 11 + v3 * 2 ^ 9 = word) (b3 : v3 < 2 ^ 2) (g3 : Sys2Proof.fld m 9 2 = 0) : Sys2Proof.fld word 9 2 = v3 := by
  subst h; exact here _ _ 9 2 b3 ((above _ _ 11 9 2 (by decide)).trans ((above _ _ 16 9 2 (by decide)).trans ((above _ _ 21 9 2 (by decide)).trans (g3))))
theorem bits26w6_of_21w5_16w5_9w2 (m v0 v1 v2 word : Nat) (h : m + v0 * 2 ^ 21 + v1 * 2 ^ 16 + v2 * 2 ^ 9 = word) (b0 : v0 < 2 ^ 5) (b1 : v1 < 2 ^ 5) (b2 : v2 < 2 ^ 2) (g0 : Sys2Proof.fld m 21 5 = 0) (g1 : Sys2Proof.fld m 16 5 = 0) (g2 : Sys2Proof.fld m 9 2 = 0) : Sys2Proof.fld word 26 6 = Sys2Proof.fld m 26 6 := by
  subst h; exact (below _ _ 9 2 26 6 (by decide) b2 ((above _ _ 16 9 2 (by decide)).trans ((above _ _ 21 9 2 (by decide)).trans (g2)))).trans ((below _ _ 16 5 26 6 (by decide) b1 ((above _ _ 21 16 5 (by decide)).trans (g1))).trans ((below _ _ 21 5 26 6 (by decide) b0 (g0)).trans (rfl)))
theorem bits0w4_of_21w5_16w5_9w2 (m v0 v1 v2 word : Nat) (h : m + v0 * 2 ^ 21 + v1 * 2 ^ 16 + v2 * 2 ^ 9 = word) : Sys2Proof.fld word 0 4 = Sys2Proof.fld m 0 4 := by
  subst h; exact (above _ _ 9 0 4 (by decide)).trans ((above _ _ 16 0 4 (by decide)).trans ((above _ _ 21 0 4 (by decide)).trans (rfl)))
theorem bits11w5_of_21w5_16w5_9w2 (m v0 v1 v2 word : Nat) (h : m + v0 * 2 ^ 21 + v1 * 2 ^ 16 + v2 * 2 ^ 9 = word) (b2 : v2 < 2 ^ 2) (g2 : Sys2Proof.fld m 9 2 = 0) : Sys2Proof.fld word 11 5 = Sys2Proof.fld m 11 5 := by
  subst h; exact (below _ _ 9 2 11 5 (by decide) b2 ((above _ _ 16 9 2 (by decide)).trans ((above _ _ 21 9 2 (by decide)).trans (g2)))).trans ((above _ _ 16 11 5 (by decide)).trans ((above _ _ 21 11 5 (by decide)).trans (rfl)))
theorem bits4w5_of_21w5_16w5_9w2 (m v0 v1 v2 word : Nat) (h : m + v0 * 2 ^ 21 + v1 * 2 ^ 16 + v2 * 2 ^ 9 = word) : Sys2Proof.fld word 4 5 = Sys2Proof.fld m 4 5 := by
  subst h; exact (above _ _ 9 4 5 (by decide)).trans ((above _ _ 16 4 5 (by decide)).trans ((above _ _ 21 4 5 (by decide)).trans (rfl)))
theorem bits21w5_of_21w5_16w5_9w2 (m v0 v1 v2 word : Nat) (h : m + v0 * 2 ^ 21 + v1 * 2 ^ 16 + v2 * 2 ^ 9 = word) (b0 : v0 < 2 ^ 5) (b1 : v1 < 2 ^ 5) (b2 : v2 < 2 ^ 2) (g0 : Sys2Proof.fld m 21 5 = 0) (g1 : Sys2Proof.fld m 16 5 = 0) (g2 : Sys2Proof.fld m 9 2 = 0) : Sys2Proof.fld word 21 5 = v0 := by
  subst h; exact (below _ _ 9 2 21 5 (by decide) b2 ((above _ _ 16 9 2 (by decide)).trans ((above _ _ 21 9 2 (by decide)).trans (g2)))).trans ((below _ _ 16 5 21 5 (by decide) b1 ((above _ _ 21 16 5 (by decide)).trans (g1))).trans (here _ _ 21 5 b0 (g0)))
theorem bits16w5_of_21w5_16w5_9w2 (m v0 v1 v2 word : Nat) (h : m + v0 * 2 ^ 21 + v1 * 2 ^ 16 + v2 * 2 ^ 9 = word) (b1 : v1 < 2 ^ 5) (b2 : v2 < 2 ^ 2) (g1 : Sys2Proof.fld m 16 5 = 0) (g2 : Sys2Proof.fld m 9 2 = 0) : Sys2Proof.fld word 16 5 = v1 := by
  subst h; exact (below _ _ 9 2 16 5 (by decide) b2 ((above _ _ 16 9 2 (by decide)).trans ((above _ _ 21 9 2 (by decide)).trans (g2)))).trans (here _ _ 16 5 b1 ((above _ _ 21 16 5 (by decide)).trans (g1)))
theorem bits9w2_of_21w5_16w5_9w2 (m v0 v1 v2 word : Nat) (h : m + v0 * 2 ^ 21 + v1 * 2 ^ 16 + v2 * 2 ^ 9 = word) (b2 : v2 < 2 ^ 2) (g2 : Sys2Proof.fld m 9 2 = 0) : Sys2Proof.fld word 9 2 = v2 := by
  subst h; exact here _ _ 9 2 b2 ((above _ _ 16 9 2 (by decide)).trans ((above _ _ 21 9 2 (by decide)).trans (g2)))
theorem bits0w4_of_21w5_16w5 (m v0 v1 word : Nat) (h : m + v0 * 2 ^ 21 + v1 * 2 ^ 16 = word) : Sys2Proof.fld word 0 4 = Sys2Proof.fld m 0 4 := by
  subst h; exact (above _ _ 16 0 4 (by decide)).trans ((above _ _ 21 0 4 (by decide)).trans (rfl))
theorem bits4w12_of_21w5_16w5 (m v0 v1 word : Nat) (h : m + v0 * 2 ^ 21 + v1 * 2 ^ 16 = word) : Sys2Proof.fld word 4 12 = Sys2Proof.fld m 4 12 := by
  subst h; exact (above _ _ 16 4 12 (by decide)).trans ((above _ _ 21 4 12 (by decide)).trans (rfl))
theorem bits26w6_of_21w5_16w5_11w5_6w5_4w2 (m v0 v1 v2 v3 v4 word : Nat) (h : m + v0 * 2 ^ 21 + v1 * 2 ^ 16 + v2 * 2 ^ 11 + v3 * 2 ^ 6 + v4 * 2 ^ 4 = word) (b0 : v0 < 2 ^ 5) (b1 : v1 < 2 ^ 5) (b2 : v2 < 2 ^ 5) (b3 : v3 < 2 ^ 5) (b4 : v4 < 2 ^ 2) (g0 : Sys2Proof.fld m 21 5 = 0) (g1 : Sys2Proof.fld m 16 5 = 0) (g2 : Sys2Proof.fld m 11 5 = 0) (g3 : Sys2Proof.fld m 6 5 = 0) (g4 : Sys2Proof.fld m 4 2 = 0) : Sys2Proof.fld word 26 6 = Sys2Proof.fld m 26 6 := by
  subst h; exact (below _ _ 4 2 26 6 (by decide) b4 ((above _ _ 6 4 2 (by decide)).trans ((above _ _ 11 4 2 (by decide)).trans ((above _ _ 16 4 2 (by decide)).trans ((above _ _ 21 4 2 (by decide)).trans (g4)))))).trans ((below _ _ 6 5 26 6 (by decide) b3 ((above _ _ 11 6 5 (by decide)).trans ((above _ _ 16 6 5 (by decide)).trans ((above _ _ 21 6 5 (by decide)).trans (g3))))).trans ((below _ _ 11 5 26 6 (by decide) b2 ((above _ _ 16 11 5 (by decide)).trans ((above _ _ 21 11 5 (by decide)).trans (g2)))).trans ((below _ _ 16 5 26 6 (by decide) b1 ((above _ _ 21 16 5 (by decide)).trans (g1))).trans ((below _ _ 21 5 26 6 (by decide) b0 (g0)).trans (rfl)))))
theorem bits0w1_of_21w5_16w5_11w5_6w5_4w2 (m v0 v1 v2 v3 v4 word : Nat) (h : m + v0 * 2 ^ 21 + v1 * 2 ^ 16 + v2 * 2 ^ 11 + v3 * 2 ^ 6 + v4 * 2 ^ 4 = word) : Sys2Proof.fld word 0 1 = Sys2Proof.fld m 0 1 := by
  subst h; exact (above _ _ 4 0 1 (by decide)).trans ((above _ _ 6 0 1 (by decide)).trans ((above _ _ 11 0 1 (by decide)).trans ((above _ _ 16 0 1 (by decide)).trans ((above _ _ 21 0 1 (by decide)).trans (rfl)))))
theorem bits1w3_of_21w5_16w5_11w5_6w5_4w2 (m v0 v1 v2 v3 v4 word : Nat) (h : m + v0 * 2 ^ 21 + v1 * 2 ^ 16 + v2 * 2 ^ 11 + v3 * 2 ^ 6 + v4 * 2 ^ 4 = word) : Sys2Proof.fld word 1 3 = Sys2Proof.fld m 1 3 := by
  subst h; exact (above _ _ 4 1 3 (by decide)).trans ((above _ _ 6 1 3 (by decide)).trans ((above _ _ 11 1 3 (by decide)).trans ((above _ _ 16 1 3 (by decide)).trans ((above _ _ 21 1 3 (by decide)).trans (rfl)))))
theorem bits21w5_of_21w5_16w5_11w5_6w5_4w2 (m v0 v1 v2 v3 v4 word : Nat) (h : m + v0 * 2 ^ 21 + v1 * 2 ^ 16 + v2 * 2 ^ 11 + v3 * 2 ^ 6 + v4 * 2 ^ 4 = word) (b0 : v0 < 2 ^ 5) (b1 : v1 < 2 ^ 5) (b2 : v2 < 2 ^ 5) (b3 : v3 < 2 ^ 5) (b4 : v4 < 2 ^ 2) (g0 : Sys2Proof.fld m 21 5 = 0) (g1 : Sys2Proof.fld m 16 5 = 0) (g2 : Sys2Proof.fld m 11 5 = 0) (g3 : Sys2Proof.fld m 6 5 = 0) (g4 : Sys2Proof.fld m 4 2 = 0) : Sys2Proof.fld word 21 5 = v0 := by
  subst h; exact (below _ _ 4 2 21 5 (by decide) b4 ((above _ _ 6 4 2 (by decide)).trans ((above _ _ 11 4 2 (by decide)).trans ((above _ _ 16 4 2 (by decide)).trans ((above _ _ 21 4 2 (by decide)).trans (g4)))))).trans ((below _ _ 6 5 21 5 (by decide) b3 ((above _ _ 11 6 5 (by decide)).trans ((above _ _ 16 6 5 (by decide)).trans ((above _ _ 21 6 5 (by decide)).trans (g3))))).trans ((below _ _ 11 5 21 5 (by decide) b2 ((above _ _ 16 11 5 (by decide)).trans ((above _ _ 21 11 5 (by decide)).trans (g2)))).trans ((below _ _ 16 5 21 5 (by decide) b1 ((above _ _ 21 16 5 (by decide)).trans (g1))).trans (here _ _ 21 5 b0 (g0)))))
theorem bits16w5_of_21w5_16w5_11w5_6w5_4w2 (m v0 v1 v2 v3 v4 word : Nat) (h : m + v0 * 2 ^ 21 + v1 * 2 ^ 16 + v2 * 2 ^ 11 + v3 * 2 ^ 6 + v4 * 2 ^ 4 = word) (b1 : v1 < 2 ^ 5) (b2 : v2 < 2 ^ 5) (b3 : v3 < 2 ^ 5) (b4 : v4 < 2 ^ 2) (g1 : Sys2Proof.fld m 16 5 = 0) (g2 : Sys2Proof.fld m 11 5 = 0) (g3 : Sys2Proof.fld m 6 5 = 0) (g4 : Sys2Proof.fld m 4 2 = 0) : Sys2Proof.fld word 16 5 = v1 := by
  subst h; exact (below _ _ 4 2 16 5 (by decide) b4 ((above _ _ 6 4 2 (by decide)).trans ((above _ _ 11 4 2 (by decide)).trans ((above _ _ 16 4 2 (by decide)).trans ((above _ _ 21 4 2 (by decide)).trans (g4)))))).trans ((below _ _ 6 5 16 5 (by decide) b3 ((above _ _ 11 6 5 (by decide)).trans ((above _ _ 16 6 5 (by decide)).trans ((above _ _ 21 6 5 (by decide)).trans (g3))))).trans ((below _ _ 11 5 16 5 (by decide) b2 ((above _ _ 16 11 5 (by decide)).trans ((above _ _ 21 11 5 (by decide)).trans (g2)))).trans (here _ _ 16 5 b1 ((above _ _ 21 16 5 (by decide)).trans (g1)))))
theorem bits11w5_of_21w5_16w5_11w5_6w5_4w2 (m v0 v1 v2 v3 v4 word : Nat) (h : m + v0 * 2 ^ 21 + v1 * 2 ^ 16 + v2 * 2 ^ 11 + v3 * 2 ^ 6 + v4 * 2 ^ 4 = word) (b2 : v2 < 2 ^ 5) (b3 : v3 < 2 ^ 5) (b4 : v4 < 2 ^ 2) (g2 : Sys2Proof.fld m 11 5 = 0) (g3 : Sys2Proof.fld m 6 5 = 0) (g4 : Sys2Proof.fld m 4 2 = 0) : Sys2Proof.fld word 11 5 = v2 := by
  subst h; exact (below _ _ 4 2 11 5 (by decide) b4 ((above _ _ 6 4 2 (by decide)).trans ((above _ _ 11 4 2 (by decide)).trans ((above _ _ 16 4 2 (by decide)).trans ((above _ _ 21 4 2 (by decide)).trans (g4)))))).trans ((below _ _ 6 5 11 5 (by decide) b3 ((above _ _ 11 6 5 (by decide)).trans ((above _ _ 16 6 5 (by decide)).trans ((above _ _ 21 6 5 (by decide)).trans (g3))))).trans (here _ _ 11 5 b2 ((above _ _ 16 11 5 (by decide)).trans ((above _ _ 21 11 5 (by decide)).trans (g2)))))
theorem bits6w5_of_21w5_16w5_11w5_6w5_4w2 (m v0 v1 v2 v3 v4 word : Nat) (h : m + v0 * 2 ^ 21 + v1 * 2 ^ 16 + v2 * 2 ^ 11 + v3 * 2 ^ 6 + v4 * 2 ^ 4 = word) (b3 : v3 < 2 ^ 5) (b4 : v4 < 2 ^ 2) (g3 : Sys2Proof.fld m 6 5 = 0) (g4 : Sys2Proof.fld m 4 2 = 0) : Sys2Proof.fld word 6 5 = v3 := by
  subst h; exact (below _ _ 4 2 6 5 (by decide) b4 ((above _ _ 6 4 2 (by decide)).trans ((above _ _ 11 4 2 (by decide)).trans ((above _ _ 16 4 2 (by decide)).trans ((above _ _ 21 4 2 (by decide)).trans (g4)))))).trans (here _ _ 6 5 b3 ((above _ _ 11 6 5 (by decide)).trans ((above _ _ 16 6 5 (by decide)).trans ((above _ _ 21 6 5 (by decide)).trans (g3)))))
theorem bits4w2_of_21w5_16w5_11w5_6w5_4w2 (m v0 v1 v2 v3 v4 word : Nat) (h : m + v0 * 2 ^ 21 + v1 * 2 ^ 16 + v2 * 2 ^ 11 + v3 * 2 ^ 6 + v4 * 2 ^ 4 = word) (b4 : v4 < 2 ^ 2) (g4 : Sys2Proof.fld m 4 2 = 0) : Sys2Proof.fld word 4 2 = v4 := by
  subst h; exact here _ _ 4 2 b4 ((above _ _ 6 4 2 (by decide)).trans ((above _ _ 11 4 2 (by decide)).trans ((above _ _ 16 4 2 (by decide)).trans ((above _ _ 21 4 2 (by decide)).trans (g4)))))
theorem bits26w6_of_21w5_16w5_7w4_3w4 (m v0 v1 v2 v3 word : Nat) (h : m + v0 * 2 ^ 21 + v1 * 2 ^ 16 + v2 * 2 ^ 7 + v3 * 2 ^ 3 = word) (b0 : v0 < 2 ^ 5) (b1 : v1 < 2 ^ 5) (b2 : v2 < 2 ^ 4) (b3 : v3 < 2 ^ 4) (g0 : Sys2Proof.fld m 21 5 = 0) (g1 : Sys2Proof.fld m 16 5 = 0) (g2 : Sys2Proof.fld m 7 4 = 0) (g3 : Sys2Proof.fld m 3 4 = 0) : Sys2Proof.fld word 26 6 = Sys2Proof.fld m 26 6 := by
  subst h; exact (below _ _ 3 4 26 6 (by decide) b3 ((above _ _ 7 3 4 (by decide)).trans ((above _ _ 16 3 4 (by decide)).trans ((above _ _ 21 3 4 (by decide)).trans (g3))))).trans ((below _ _ 7 4 26 6 (by decide) b2 ((above _ _ 16 7 4 (by decide)).trans ((above _ _ 21 7 4 (by decide)).trans (g2)))).trans ((below _ _ 16 5 26 6 (by decide) b1 ((above _ _ 21 16 5 (by decide)).trans (g1))).trans ((below _ _ 21 5 26 6 (by decide) b0 (g0)).trans (rfl))))
theorem bits11w5_of_21w5_16w5_7w4_3w4 (m v0 v1 v2 v3 word : Nat) (h : m + v0 * 2 ^ 21 + v1 * 2 ^ 16 + v2 * 2 ^ 7 + v3 * 2 ^ 3 = word) (b2 : v2 < 2 ^ 4) (b3 : v3 < 2 ^ 4) (g2 : Sys2Proof.fld m 7 4 = 0) (g3 : Sys2Proof.fld m 3 4 = 0) : Sys2Proof.fld word 11 5 = Sys2Proof.fld m 11 5 := by
  subst h; exact (below _ _ 3 4 11 5 (by decide) b3 ((above _ _ 7 3 4 (by decide)).trans ((above _ _ 16 3 4 (by decide)).trans ((above _ _ 21 3 4 (by decide)).trans (g3))))).trans ((below _ _ 7 4 11 5 (by decide) b2 ((above _ _ 16 7 4 (by decide)).trans ((above _ _ 21 7 4 (by decide)).trans (g2)))).trans ((above _ _ 16 11 5 (by decide)).trans ((above _ _ 21 11 5 (by decide)).trans (rfl))))
theorem bits0w3_of_21w5_16w5_7w4_3w4 (m v0 v1 v2 v3 word : Nat) (h : m + v0 * 2 ^ 21 + v1 * 2 ^ 16 + v2 * 2 ^ 7 + v3 * 2 ^ 3 = word) : Sys2Proof.fld word 0 3 = Sys2Proof.fld m 0 3 := by
  subst h; exact (above _ _ 3 0 3 (by decide)).trans ((above _ _ 7 0 3 (by decide)).trans ((above _ _ 16 0 3 (by decide)).trans ((above _ _ 21 0 3 (by decide)).trans (rfl))))
theorem bits21w5_of_21w5_16w5_7w4_3w4 (m v0 v1 v2 v3 word : Nat) (h : m + v0 * 2 ^ 21 + v1 * 2 ^ 16 + v2 * 2 ^ 7 + v3 * 2 ^ 3 = word) (b0 : v0 < 2 ^ 5) (b1 : v1 < 2 ^ 5) (b2 : v2 < 2 ^ 4) (b3 : v3 < 2 ^ 4) (g0 : Sys2Proof.fld m 21 5 = 0) (g1 : Sys2Proof.fld m 16 5 = 0) (g2 : Sys2Proof.fld m 7 4 = 0) (g3 : Sys2Proof.fld m 3 4 = 0) : Sys2Proof.fld word 21 5 = v0 := by
  subst h; exact (below _ _ 3 4 21 5 (by decide) b3 ((above _ _ 7 3 4 (by decide)).trans ((above _ _ 16 3 4 (by decide)).trans ((above _ _ 21 3 4 (by decide)).trans (g3))))).trans ((below _ _ 7 4 21 5 (by decide) b2 ((above _ _ 16 7 4 (by decide)).trans ((above _ _ 21 7 4 (by decide)).trans (g2)))).trans ((below _ _ 16 5 21 5 (by decide) b1 ((above _ _ 21 16 5 (by decide)).trans (g1))).trans (here _ _ 21 5 b0 (g0))))
theorem bits16w5_of_21w5_16w5_7w4_3w4 (m v0 v1 v2 v3 word : Nat) (h : m + v0 * 2 ^ 21 + v1 * 2 ^ 16 + v2 * 2 ^ 7 + v3 * 2 ^ 3 = word) (b1 : v1 < 2 ^ 5) (b2 : v2 < 2 ^ 4) (b3 : v3 < 2 ^ 4) (g1 : Sys2Proof.fld m 16 5 = 0) (g2 : Sys2Proof.fld m 7 4 = 0) (g3 : Sys2Proof.fld m 3 4 = 0) : Sys2Proof.fld word 16 5 = v1 := by
  subst h; exact (below _ _ 3 4 16 5 (by decide) b3 ((above _ _ 7 3 4 (by decide)).trans ((above _ _ 16 3 4 (by decide)).trans ((above _ _ 21 3 4 (by decide)).trans (g3))))).trans ((below _ _ 7 4 16 5 (by decide) b2 ((above _ _ 16 7 4 (by decide)).trans ((above _ _ 21 7 4 (by decide)).trans (g2)))).trans (here _ _ 16 5 b1 ((above _ _ 21 16 5 (by decide)).trans (g1))))
theorem bits7w4_of_21w5_16w5_7w4_3w4 (m v0 v1 v2 v3 word : Nat) (h : m + v0 * 2 ^ 21 + v1 * 2 ^ 16 + v2 * 2 ^ 7 + v3 * 2 ^ 3 = word) (b2 : v2 < 2 ^ 4) (b3 : v3 < 2 ^ 4) (g2 : Sys2Proof.fld m 7 4 = 0) (g3 : Sys2Proof.fld m 3 4 = 0) : Sys2Proof.fld word 7 4 = v2 := by
  subst h; exact (below _ _ 3 4 7 4 (by decide) b3 ((above _ _ 7 3 4 (by decide)).trans ((above _ _ 16 3 4 (by decide)).trans ((above _ _ 21 3 4 (by decide)).trans (g3))))).trans (here _ _ 7 4 b2 ((above _ _ 16 7 4 (by decide)).trans ((above _ _ 21 7 4 (by decide)).trans (g2))))
theorem bits3w4_of_21w5_16w5_7w4_3w4 (m v0 v1 v2 v3 word : Nat) (h : m + v0 * 2 ^ 21 + v1 * 2 ^ 16 + v2 * 2 ^ 7 + v3 * 2 ^ 3 = word) (b3 : v3 < 2 ^ 4) (g3 : Sys2Proof.fld m 3 4 = 0) : Sys2Proof.fld word 3 4 = v3 := by
  subst h; exact here _ _ 3 4 b3 ((above _ _ 7 3 4 (by decide)).trans ((above _ _ 16 3 4 (by decide)).trans ((above _ _ 21 3 4 (by decide)).trans (g3))))
theorem bits0w3_of_21w5_16w5_11w5_9w2 (m v0 v1 v2 v3 word : Nat) (h : m + v0 * 2 ^ 21 + v1 * 2 ^ 16 + v2 * 2 ^ 11 + v3 * 2 ^ 9 = word) : Sys2Proof.fld word 0 3 = Sys2Proof.fld m 0 3 := by
  subst h; exact (above _ _ 9 0 3 (by decide)).trans ((above _ _ 11 0 3 (by decide)).trans ((above _ _ 16 0 3 (by decide)).trans ((above _ _ 21 0 3 (by decide)).trans (rfl))))
theorem bits3w6_of_21w5_16w5_11w5_9w2 (m v0 v1 v2 v3 word : Nat) (h : m + v0 * 2 ^ 21 + v1 * 2 ^ 16 + v2 * 2 ^ 11 + v3 * 2 ^ 9 = word) : Sys2Proof.fld word 3 6 = Sys2Proof.fld m 3 6 := by
  subst h; exact (above _ _ 9 3 6 (by decide)).trans ((above _ _ 11 3 6 (by decide)).trans ((above _ _ 16 3 6 (by decide)).trans ((above _ _ 21 3 6 (by decide)).trans (rfl))))
theorem bits26w6_of_21w5_0w8 (m v0 v1 word : Nat) (h : m + v0 * 2 ^ 21 + v1 * 2 ^ 0 = word) (b0 : v0 < 2 ^ 5) (b1 : v1 < 2 ^ 8) (g0 : Sys2Proof.fld m 21 5 = 0) (g1 : Sys2Proof.fld m 0 8 = 0) : Sys2Proof.fld word 26 6 = Sys2Proof.fld m 26 6 := by
  subst h; exact (below _ _ 0 8 26 6 (by decide) b1 ((above _ _ 21 0 8 (by decide)).trans (g1))).trans ((below _ _ 21 5 26 6 (by decide) b0 (g0)).trans (rfl))
theorem bits11w5_of_21w5_0w8 (m v0 v1 word : Nat) (h : m + v0 * 2 ^ 21 + v1 * 2 ^ 0 = word) (b1 : v1 < 2 ^ 8) (g1 : Sys2Proof.fld m 0 8 = 0) : Sys2Proof.fld word 11 5 = Sys2Proof.fld m 11 5 := by
  subst h; exact (below _ _ 0 8 11 5 (by decide) b1 ((above _ _ 21 0 8 (by decide)).trans (g1))).trans ((above _ _ 21 11 5 (by decide)).trans (rfl))
theorem bits16w5_of_21w5_0w8 (m v0 v1 word : Nat) (h : m + v0 * 2 ^ 21 + v1 * 2 ^ 0 = word) (b1 : v1 < 2 ^ 8) (g1 : Sys2Proof.fld m 0 8 = 0) : Sys2Proof.fld word 16 5 = Sys2Proof.fld m 16 5 := by
  subst h; exact (below _ _ 0 8 16 5 (by decide) b1 ((above _ _ 21 0 8 (by decide)).trans (g1))).trans ((above _ _ 21 16 5 (by decide)).trans (rfl))
theorem bits8w3_of_21w5_0w8 (m v0 v1 word : Nat) (h : m + v0 * 2 ^ 21 + v1 * 2 ^ 0 = word) (b1 : v1 < 2 ^ 8) (g1 : Sys2Proof.fld m 0 8 = 0) : Sys2Proof.fld word 8 3 = Sys2Proof.fld m 8 3 := by
  subst h; exact (below _ _ 0 8 8 3 (by decide) b1 ((above _ _ 21 0 8 (by decide)).trans (g1))).trans ((above _ _ 21 8 3 (by decide)).trans (rfl))
theorem bits21w5_of_21w5_0w8 (m v0 v1 word : Nat) (h : m + v0 * 2 ^ 21 + v1 * 2 ^ 0 = word) (b0 : v0 < 2 ^ 5) (b1 : v1 < 2 ^ 8) (g0 : Sys2Proof.fld m 21 5 = 0) (g1 : Sys2Proof.fld m 0 8 = 0) : Sys2Proof.fld word 21 5 = v0 := by
  subst h; exact (below _ _ 0 8 21 5 (by decide) b1 ((above _ _ 21 0 8 (by decide)).trans (g1))).trans (here _ _ 21 5 b0 (g0))
theorem bits0w8_of_21w5_0w8 (m v0 v1 word : Nat) (h : m + v0 * 2 ^ 21 + v1 * 2 ^ 0 = word) (b1 : v1 < 2 ^ 8) (g1 : Sys2Proof.fld m 0 8 = 0) : Sys2Proof.fld word 0 8 = v1 := by
  subst h; exact here _ _ 0 8 b1 ((above _ _ 21 0 8 (by decide)).trans (g1))
theorem bits26w6_of_16w5_0w8 (m v0 v1 word : Nat) (h : m + v0 * 2 ^ 16 + v1 * 2 ^ 0 = word) (b0 : v0 < 2 ^ 5) (b1 : v1 < 2 ^ 8) (g0 : Sys2Proof.fld m 16 5 = 0) (g1 : Sys2Proof.fld m 0 8 = 0) : Sys2Proof.fld word 26 6 = Sys2Proof.fld m 26 6 := by
  subst h; exact (below _ _ 0 8 26 6 (by decide) b1 ((above _ _ 16 0 8 (by decide)).trans (g1))).trans ((below _ _ 16 5 26 6 (by decide) b0 (g0)).trans (rfl))
theorem bits11w5_of_16w5_0w8 (m v0 v1 word : Nat) (h : m + v0 * 2 ^ 16 + v1 * 2 ^ 0 = word) (b1 : v1 < 2 ^ 8) (g1 : Sys2Proof.fld m 0 8 = 0) : Sys2Proof.fld word 11 5 = Sys2Proof.fld m 11 5 := by
  subst h; exact (below _ _ 0 8 11 5 (by decide) b1 ((above _ _ 16 0 8 (by decide)).trans (g1))).trans ((above _ _ 16 11 5 (by decide)).trans (rfl))
theorem bits21w5_of_16w5_0w8 (m v0 v1 word : Nat) (h : m + v0 * 2 ^ 16 + v1 * 2 ^ 0 = word) (b0 : v0 < 2 ^ 5) (b1 : v1 < 2 ^ 8) (g0 : Sys2Proof.fld m 16 5 = 0) (g1 : Sys2Proof.fld m 0 8 = 0) : Sys2Proof.fld word 21 5 = Sys2Proof.fld m 21 5 := by
  subst h; exact (below _ _ 0 8 21 5 (by decide) b1 ((above _ _ 16 0 8 (by decide)).trans (g1))).trans ((below _ _ 16 5 21 5 (by decide) b0 (g0)).trans (rfl))
theorem bits8w3_of_16w5_0w8 (m v0 v1 word : Nat) (h : m + v0 * 2 ^ 16 + v1 * 2 ^ 0 = word) (b1 : v1 < 2 ^ 8) (g1 : Sys2Proof.fld m 0 8 = 0) : Sys2Proof.fld word 8 3 = Sys2Proof.fld m 8 3 := by
  subst h; exact (below _ _ 0 8 8 3 (by decide) b1 ((above _ _ 16 0 8 (by decide)).trans (g1))).trans ((above _ _ 16 8 3 (by decide)).trans (rfl))
theorem bits16w5_of_16w5_0w8 (m v0 v1 word : Nat) (h : m + v0 * 2 ^ 16 + v1 * 2 ^ 0 = word) (b0 : v0 < 2 ^ 5) (b1 : v1 < 2 ^ 8) (g0 : Sys2Proof.fld m 16 5 = 0) (g1 : Sys2Proof.fld m 0 8 = 0) : Sys2Proof.fld word 16 5 = v0 := by
  subst h; exact (below _ _ 0 8 16 5 (by decide) b1 ((above _ _ 16 0 8 (by decide)).trans (g1))).trans (here _ _ 16 5 b0 (g0))
theorem bits0w8_of_16w5_0w8 (m v0 v1 word : Nat) (h : m + v0 * 2 ^ 16 + v1 * 2 ^ 0 = word) (b1 : v1 < 2 ^ 8) (g1 : Sys2Proof.fld m 0 8 = 0) : Sys2Proof.fld word 0 8 = v1 := by
  subst h; exact here _ _ 0 8 b1 ((above _ _ 16 0 8 (by decide)).trans (g1))
theorem bits26w6_of_21w5_16w5_0w7 (m v0 v1 v2 word : Nat) (h : m + v0 * 2 ^ 21 + v1 * 2 ^ 16 + v2 * 2 ^ 0 = word) (b0 : v0 < 2 ^ 5) (b1 : v1 < 2 ^ 5) (b2 : v2 < 2 ^ 7) (g0 : Sys2Proof.fld m 21 5 = 0) (g1 : Sys2Proof.fld m 16 5 = 0) (g2 : Sys2Proof.fld m 0 7 = 0) : Sys2Proof.fld word 26 6 = Sys2Proof.fld m 26 6 := by
  subst h; exact (below _ _ 0 7 26 6 (by decide) b2 ((above _ _ 16 0 7 (by decide)).trans ((above _ _ 21 0 7 (by decide)).trans (g2)))).trans ((below _ _ 16 5 26 6 (by decide) b1 ((above _ _ 21 16 5 (by decide)).trans (g1))).trans ((below _ _ 21 5 26 6 (by decide) b0 (g0)).trans (rfl)))
theorem bits7w9_of_21w5_16w5_0w7 (m v0 v1 v2 word : Nat) (h : m + v0 * 2 ^ 21 + v1 * 2 ^ 16 + v2 * 2 ^ 0 = word) (b2 : v2 < 2 ^ 7) (g2 : Sys2Proof.fld m 0 7 = 0) : Sys2Proof.fld word 7 9 = Sys2Proof.fld m 7 9 := by
  subst h; exact (below _ _ 0 7 7 9 (by decide) b2 ((above _ _ 16 0 7 (by decide)).trans ((above _ _ 21 0 7 (by decide)).trans (g2)))).trans ((above _ _ 16 7 9 (by decide)).trans ((above _ _ 21 7 9 (by decide)).trans (rfl)))
theorem bits21w5_of_21w5_16w5_0w7 (m v0 v1 v2 word : Nat) (h : m + v0 * 2 ^ 21 + v1 * 2 ^ 16 + v2 * 2 ^ 0 = word) (b0 : v0 < 2 ^ 5) (b1 : v1 < 2 ^ 5) (b2 : v2 < 2 ^ 7) (g0 : Sys2Proof.fld m 21 5 = 0) (g1 : Sys2Proof.fld m 16 5 = 0) (g2 : Sys2Proof.fld m 0 7 = 0) : Sys2Proof.fld word 21 5 = v0 := by
  subst h; exact (below _ _ 0 7 21 5 (by decide) b2 ((above _ _ 16 0 7 (by decide)).trans ((above _ _ 21 0 7 (by decide)).trans (g2)))).trans ((below _ _ 16 5 21 5 (by decide) b1 ((above _ _ 21 16 5 (by decide)).trans (g1))).trans (here _ _ 21 5 b0 (g0)))
theorem bits16w5_of_21w5_16w5_0w7 (m v0 v1 v2 word : Nat) (h : m + v0 * 2 ^ 21 + v1 * 2 ^ 16 + v2 * 2 ^ 0 = word) (b1 : v1 < 2 ^ 5) (b2 : v2 < 2 ^ 7) (g1 : Sys2Proof.fld m 16 5 = 0) (g2 : Sys2Proof.fld m 0 7 = 0) : Sys2Proof.fld word 16 5 = v1 := by
  subst h; exact (below _ _ 0 7 16 5 (by decide) b2 ((above _ _ 16 0 7 (by decide)).trans ((above _ _ 21 0 7 (by decide)).trans (g2)))).trans (here _ _ 16 5 b1 ((above _ _ 21 16 5 (by decide)).trans (g1)))
theorem bits0w7_of_21w5_16w5_0w7 (m v0 v1 v2 word : Nat) (h : m + v0 * 2 ^ 21 + v1 * 2 ^ 16 + v2 * 2 ^ 0 = word) (b2 : v2 < 2 ^ 7) (g2 : Sys2Proof.fld m 0 7 = 0) : Sys2Proof.fld word 0 7 = v2 := by
  subst h; exact here _ _ 0 7 b2 ((above _ _ 16 0 7 (by decide)).trans ((above _ _ 21 0 7 (by decide)).trans (g2)))
theorem bits26w6_of_21w5_0w16 (m v0 v1 word : Nat) (h : m + v0 * 2 ^ 21 + v1 * 2 ^ 0 = word) (b0 : v0 < 2 ^ 5) (b1 : v1 < 2 ^ 16) (g0 : Sys2Proof.fld m 21 5 = 0) (g1 : Sys2Proof.fld m 0 16 = 0) : Sys2Proof.fld word 26 6 = Sys2Proof.fld m 26 6 := by
  subst h; exact (below _ _ 0 16 26 6 (by decide) b1 ((above _ _ 21 0 16 (by decide)).trans (g1))).trans ((below _ _ 21 5 26 6 (by decide) b0 (g0)).trans (rfl))
theorem bits16w5_of_21w5_0w16 (m v0 v1 word : Nat) (h : m + v0 * 2 ^ 21 + v1 * 2 ^ 0 = word) (b1 : v1 < 2 ^ 16) (g1 : Sys2Proof.fld m 0 16 = 0) : Sys2Proof.fld word 16 5 = Sys2Proof.fld m 16 5 := by
  subst h; exact (below _ _ 0 16 16 5 (by decide) b1 ((above _ _ 21 0 16 (by decide)).trans (g1))).trans ((above _ _ 21 16 5 (by decide)).trans (rfl))
theorem bits21w5_of_21w5_0w16 (m v0 v1 word : Nat) (h : m + v0 * 2 ^ 21 + v1 * 2 ^ 0 = word) (b0 : v0 < 2 ^ 5) (b1 : v1 < 2 ^ 16) (g0 : Sys2Proof.fld m 21 5 = 0) (g1 : Sys2Proof.fld m 0 16 = 0) : Sys2Proof.fld word 21 5 = v0 := by
  subst h; exact (below _ _ 0 16 21 5 (by decide) b1 ((above _ _ 21 0 16 (by decide)).trans (g1))).trans (here _ _ 21 5 b0 (g0))
theorem bits0w16_of_21w5_0w16 (m v0 v1 word : Nat) (h : m + v0 * 2 ^ 21 + v1 * 2 ^ 0 = word) (b1 : v1 < 2 ^ 16) (g1 : Sys2Proof.fld m 0 16 = 0) : Sys2Proof.fld word 0 16 = v1 := by
  subst h; exact here _ _ 0 16 b1 ((above _ _ 21 0 16 (by decide)).trans (g1))
theorem bits26w6_of_21w5_16w5_6w5 (m v0 v1 v2 word : Nat) (h : m + v0 * 2 ^ 21 + v1 * 2 ^ 16 + v2 * 2 ^ 6 = word) (b0 : v0 < 2 ^ 5) (b1 : v1 < 2 ^ 5) (b2 : v2 < 2 ^ 5) (g0 : Sys2Proof.fld m 21 5 = 0) (g1 : Sys2Proof.fld m 16 5 = 0) (g2 : Sys2Proof.fld m 6 5 = 0) : Sys2Proof.fld word 26 6 = Sys2Proof.fld m 26 6 := by
  subst h; exact (below _ _ 6 5 26 6 (by decide) b2 ((above _ _ 16 6 5 (by decide)).trans ((above _ _ 21 6 5 (by decide)).trans (g2)))).trans ((below _ _ 16 5 26 6 (by decide) b1 ((above _ _ 21 16 5 (by decide)).trans (g1))).trans ((below _ _ 21 5 26 6 (by decide) b0 (g0)).trans (rfl)))
theorem bits11w5_of_21w5_16w5_6w5 (m v0 v1 v2 word : Nat) (h : m + v0 * 2 ^ 21 + v1 * 2 ^ 16 + v2 * 2 ^ 6 = word) (b2 : v2 < 2 ^ 5) (g2 : Sys2Proof.fld m 6 5 = 0) : Sys2Proof.fld word 11 5 = Sys2Proof.fld m 11 5 := by
  subst h; exact (below _ _ 6 5 11 5 (by decide) b2 ((above _ _ 16 6 5 (by decide)).trans ((above _ _ 21 6 5 (by decide)).trans (g2)))).trans ((above _ _ 16 11 5 (by decide)).trans ((above _ _ 21 11 5 (by decide)).trans (rfl)))
theorem bits0w6_of_21w5_16w5_6w5 (m v0 v1 v2 word : Nat) (h : m + v0 * 2 ^ 21 + v1 * 2 ^ 16 + v2 * 2 ^ 6 = word) : Sys2Proof.fld word 0 6 = Sys2Proof.fld m 0 6 := by
  subst h; exact (above _ _ 6 0 6 (by decide)).trans ((above _ _ 16 0 6 (by decide)).trans ((above _ _ 21 0 6 (by decide)).trans (rfl)))
theorem bits21w5_of_21w5_16w5_6w5 (m v0 v1 v2 word : Nat) (h : m + v0 * 2 ^ 21 + v1 * 2 ^ 16 + v2 * 2 ^ 6 = word) (b0 : v0 < 2 ^ 5) (b1 : v1 < 2 ^ 5) (b2 : v2 < 2 ^ 5) (g0 : Sys2Proof.fld m 21 5 = 0) (g1 : Sys2Proof.fld m 16 5 = 0) (g2 : Sys2Proof.fld m 6 5 = 0) : Sys2Proof.fld word 21 5 = v0 := by
  subst h; exact (below _ _ 6 5 21 5 (by decide) b2 ((above _ _ 16 6 5 (by decide)).trans ((above _ _ 21 6 5 (by decide)).trans (g2)))).trans ((below _ _ 16 5 21 5 (by decide) b1 ((above _ _ 21 16 5 (by decide)).trans (g1))).trans (here _ _ 21 5 b0 (g0)))
theorem bits16w5_of_21w5_16w5_6w5 (m v0 v1 v2 word : Nat) (h : m + v0 * 2 ^ 21 + v1 * 2 ^ 16 + v2 * 2 ^ 6 = word) (b1 : v1 < 2 ^ 5) (b2 : v2 < 2 ^ 5) (g1 : Sys2Proof.fld m 16 5 = 0) (g2 : Sys2Proof.fld m 6 5 = 0) : Sys2Proof.fld word 16 5 = v1 := by
  subst h; exact (below _ _ 6 5 16 5 (by decide) b2 ((above _ _ 16 6 5 (by decide)).trans ((above _ _ 21 6 5 (by decide)).trans (g2)))).trans (here _ _ 16 5 b1 ((above _ _ 21 16 5 (by decide)).trans (g1)))
theorem bits6w5_of_21w5_16w5_6w5 (m v0 v1 v2 word : Nat) (h : m + v0 * 2 ^ 21 + v1 * 2 ^ 16 + v2 * 2 ^ 6 = word) (b2 : v2 < 2 ^ 5) (g2 : Sys2Proof.fld m 6 5 = 0) : Sys2Proof.fld word 6 5 = v2 := by
  subst h; exact here _ _ 6 5 b2 ((above _ _ 16 6 5 (by decide)).trans ((above _ _ 21 6 5 (by decide)).trans (g2)))
theorem bits26w6_of_21w5 (m v0 word : Nat) (h : m + v0 * 2 ^ 21 = word) (b0 : v0 < 2 ^ 5) (g0 : Sys2Proof.fld m 21 5 = 0) : Sys2Proof.fld word 26 6 = Sys2Proof.fld m 26 6 := by
  subst h; exact (below _ _ 21 5 26 6 (by decide) b0 (g0)).trans (rfl)
theorem bits11w5_of_21w5 (m v0 word : Nat) (h : m + v0 * 2 ^ 21 = word) : Sys2Proof.fld word 11 5 = Sys2Proof.fld m 11 5 := by
  subst h; exact (above _ _ 21 11 5 (by decide)).trans (rfl)
theorem bits16w5_of_21w5 (m v0 word : Nat) (h : m + v0 * 2 ^ 21 = word) : Sys2Proof.fld word 16 5 = Sys2Proof.fld m 16 5 := by
  subst h; exact (above _ _ 21 16 5 (by decide)).trans (rfl)
theorem bits0w11_of_21w5 (m v0 word : Nat) (h : m + v0 * 2 ^ 21 = word) : Sys2Proof.fld word 0 11 = Sys2Proof.fld m 0 11 := by
  subst h; exact (above _ _ 21 0 11 (by decide)).trans (rfl)
theorem bits21w5_of_21w5 (m v0 word : Nat) (h : m + v0 * 2 ^ 21 = word) (b0 : v0 < 2 ^ 5) (g0 : Sys2Proof.fld m 21 5 = 0) : Sys2Proof.fld word 21 5 = v0 := by
  subst h; exact here _ _ 21 5 b0 (g0)
theorem bits26w6_of_0w5 (m v0 word : Nat) (h : m + v0 * 2 ^ 0 = word) (b0 : v0 < 2 ^ 5) (g0 : Sys2Proof.fld m 0 5 = 0) : Sys2Proof.fld word 26 6 = Sys2Proof.fld m 26 6 := by
  subst h; exact (below _ _ 0 5 26 6 (by decide) b0 (g0)).trans (rfl)
theorem bits11w5_of_0w5 (m v0 word : Nat) (h : m + v0 * 2 ^ 0 = word) (b0 : v0 < 2 ^ 5) (g0 : Sys2Proof.fld m 0 5 = 0) : Sys2Proof.fld word 11 5 = Sys2Proof.fld m 11 5 := by
  subst h; exact (below _ _ 0 5 11 5 (by decide) b0 (g0)).trans (rfl)
theorem bits16w10_of_0w5 (m v0 word : Nat) (h : m + v0 * 2 ^ 0 = word) (b0 : v0 < 2 ^ 5) (g0 : Sys2Proof.fld m 0 5 = 0) : Sys2Proof.fld word 16 10 = Sys2Proof.fld m 16 10 := by
  subst h; exact (below _ _ 0 5 16 10 (by decide) b0 (g0)).trans (rfl)
theorem bits5w6_of_0w5 (m v0 word : Nat) (h : m + v0 * 2 ^ 0 = word) (b0 : v0 < 2 ^ 5) (g0 : Sys2Proof.fld m 0 5 = 0) : Sys2Proof.fld word 5 6 = Sys2Proof.fld m 5 6 := by
  subst h; exact (below _ _ 0 5 5 6 (by decide) b0 (g0)).trans (rfl)
theorem bits0w5_of_0w5 (m v0 word : Nat) (h : m + v0 * 2 ^ 0 = word) (b0 : v0 < 2 ^ 5) (g0 : Sys2Proof.fld m 0 5 = 0) : Sys2Proof.fld word 0 5 = v0 := by
  subst h; exact here _ _ 0 5 b0 (g0)
theorem bits26w6_of_16w5 (m v0 word : Nat) (h : m + v0 * 2 ^ 16 = word) (b0 : v0 < 2 ^ 5) (g0 : Sys2Proof.fld m 16 5 = 0) : Sys2Proof.fld word 26 6 = Sys2Proof.fld m 26 6 := by
  subst h; exact (below _ _ 16 5 26 6 (by decide) b0 (g0)).trans (rfl)
theorem bits11w5_of_16w5 (m v0 word : Nat) (h : m + v0 * 2 ^ 16 = word) : Sys2Proof.fld word 11 5 = Sys2Proof.fld m 11 5 := by
  subst h; exact (above _ _ 16 11 5 (by decide)).trans (rfl)
theorem bits21w5_of_16w5 (m v0 word : Nat) (h : m + v0 * 2 ^ 16 = word) (b0 : v0 < 2 ^ 5) (g0 : Sys2Proof.fld m 16 5 = 0) : Sys2Proof.fld word 21 5 = Sys2Proof.fld m 21 5 := by
  subst h; exact (below _ _ 16 5 21 5 (by decide) b0 (g0)).trans (rfl)
theorem bits0w11_of_16w5 (m v0 word : Nat) (h : m + v0 * 2 ^ 16 = word) : Sys2Proof.fld word 0 11 = Sys2Proof.fld m 0 11 := by
  subst h; exact (above _ _ 16 0 11 (by decide)).trans (rfl)
theorem bits16w5_of_16w5 (m v0 word : Nat) (h : m + v0 * 2 ^ 16 = word) (b0 : v0 < 2 ^ 5) (g0 : Sys2Proof.fld m 16 5 = 0) : Sys2Proof.fld word 16 5 = v0 := by
  subst h; exact here _ _ 16 5 b0 (g0)
theorem bits26w6_of_16w5_0w3 (m v0 v1 word : Nat) (h : m + v0 * 2 ^ 16 + v1 * 2 ^ 0 = word) (b0 : v0 < 2 ^ 5) (b1 : v1 < 2 ^ 3) (g0 : Sys2Proof.fld m 16 5 = 0) (g1 : Sys2Proof.fld m 0 3 = 0) : Sys2Proof.fld word 26 6 = Sys2Proof.fld m 26 6 := by
  subst h; exact (below _ _ 0 3 26 6 (by decide) b1 ((above _ _ 16 0 3 (by decide)).trans (g1))).trans ((below _ _ 16 5 26 6 (by decide) b0 (g0)).trans (rfl))
theorem bits11w5_of_16w5_0w3 (m v0 v1 word : Nat) (h : m + v0 * 2 ^ 16 + v1 * 2 ^ 0 = word) (b1 : v1 < 2 ^ 3) (g1 : Sys2Proof.fld m 0 3 = 0) : Sys2Proof.fld word 11 5 = Sys2Proof.fld m 11 5 := by
  subst h; exact (below _ _ 0 3 11 5 (by decide) b1 ((above _ _ 16 0 3 (by decide)).trans (g1))).trans ((above _ _ 16 11 5 (by decide)).trans (rfl))
theorem bits21w5_of_16w5_0w3 (m v0 v1 word : Nat) (h : m + v0 * 2 ^ 16 + v1 * 2 ^ 0 = word) (b0 : v0 < 2 ^ 5) (b1 : v1 < 2 ^ 3) (g0 : Sys2Proof.fld m 16 5 = 0) (g1 : Sys2Proof.fld m 0 3 = 0) : Sys2Proof.fld word 21 5 = Sys2Proof.fld m 21 5 := by
  subst h; exact (below _ _ 0 3 21 5 (by decide) b1 ((above _ _ 16 0 3 (by decide)).trans (g1))).trans ((below _ _ 16 5 21 5 (by decide) b0 (g0)).trans (rfl))
theorem bits3w8_of_16w5_0w3 (m v0 v1 word : Nat) (h : m + v0 * 2 ^ 16 + v1 * 2 ^ 0 = word) (b1 : v1 < 2 ^ 3) (g1 : Sys2Proof.fld m 0 3 = 0) : Sys2Proof.fld word 3 8 = Sys2Proof.fld m 3 8 := by
  subst h; exact (below _ _ 0 3 3 8 (by decide) b1 ((above _ _ 16 0 3 (by decide)).trans (g1))).trans ((above _ _ 16 3 8 (by decide)).trans (rfl))
theorem bits16w5_of_16w5_0w3 (m v0 v1 word : Nat) (h : m + v0 * 2 ^ 16 + v1 * 2 ^ 0 = word) (b0 : v0 < 2 ^ 5) (b1 : v1 < 2 ^ 3) (g0 : Sys2Proof.fld m 16 5 = 0) (g1 : Sys2Proof.fld m 0 3 = 0) : Sys2Proof.fld word 16 5 = v0 := by
  subst h; exact (below _ _ 0 3 16 5 (by decide) b1 ((above _ _ 16 0 3 (by decide)).trans (g1))).trans (here _ _ 16 5 b0 (g0))
theorem bits0w3_of_16w5_0w3 (m v0 v1 word : Nat) (h : m + v0 * 2 ^ 16 + v1 * 2 ^ 0 = word) (b1 : v1 < 2 ^ 3) (g1 : Sys2Proof.fld m 0 3 = 0) : Sys2Proof.fld word 0 3 = v1 := by
  subst h; exact here _ _ 0 3 b1 ((above _ _ 16 0 3 (by decide)).trans (g1))
theorem bits26w6_of_5w6_0w3 (m v0 v1 word : Nat) (h : m + v0 * 2 ^ 5 + v1 * 2 ^ 0 = word) (b0 : v0 < 2 ^ 6) (b1 : v1 < 2 ^ 3) (g0 : Sys2Proof.fld m 5 6 = 0) (g1 : Sys2Proof.fld m 0 3 = 0) : Sys2Proof.fld word 26 6 = Sys2Proof.fld m 26 6 := by
  subst h; exact (below _ _ 0 3 26 6 (by decide) b1 ((above _ _ 5 0 3 (by decide)).trans (g1))).trans ((below _ _ 5 6 26 6 (by decide) b0 (g0)).trans (rfl))
theorem bits11w5_of_5w6_0w3 (m v0 v1 word : Nat) (h : m + v0 * 2 ^ 5 + v1 * 2 ^ 0 = word) (b0 : v0 < 2 ^ 6) (b1 : v1 < 2 ^ 3) (g0 : Sys2Proof.fld m 5 6 = 0) (g1 : Sys2Proof.fld m 0 3 = 0) : Sys2Proof.fld word 11 5 = Sys2Proof.fld m 11 5 := by
  subst h; exact (below _ _ 0 3 11 5 (by decide) b1 ((above _ _ 5 0 3 (by decide)).trans (g1))).trans ((below _ _ 5 6 11 5 (by decide) b0 (g0)).trans (rfl))
theorem bits16w10_of_5w6_0w3 (m v0 v1 word : Nat) (h : m + v0 * 2 ^ 5 + v1 * 2 ^ 0 = word) (b0 : v0 < 2 ^ 6) (b1 : v1 < 2 ^ 3) (g0 : Sys2Proof.fld m 5 6 = 0) (g1 : Sys2Proof.fld m 0 3 = 0) : Sys2Proof.fld word 16 10 = Sys2Proof.fld m 16 10 := by
  subst h; exact (below _ _ 0 3 16 10 (by decide) b1 ((above _ _ 5 0 3 (by decide)).trans (g1))).trans ((below _ _ 5 6 16 10 (by decide) b0 (g0)).trans (rfl))
theorem bits3w2_of_5w6_0w3 (m v0 v1 word : Nat) (h : m + v0 * 2 ^ 5 + v1 * 2 ^ 0 = word) (b1 : v1 < 2 ^ 3) (g1 : Sys2Proof.fld m 0 3 = 0) : Sys2Proof.fld word 3 2 = Sys2Proof.fld m 3 2 := by
  subst h; exact (below _ _ 0 3 3 2 (by decide) b1 ((above _ _ 5 0 3 (by decide)).trans (g1))).trans ((above _ _ 5 3 2 (by decide)).trans (rfl))
theorem bits5w6_of_5w6_0w3 (m v0 v1 word : Nat) (h : m + v0 * 2 ^ 5 + v1 * 2 ^ 0 = word) (b0 : v0 < 2 ^ 6) (b1 : v1 < 2 ^ 3) (g0 : Sys2Proof.fld m 5 6 = 0) (g1 : Sys2Proof.fld m 0 3 = 0) : Sys2Proof.fld word 5 6 = v0 := by
  subst h; exact (below _ _ 0 3 5 6 (by decide) b1 ((above _ _ 5 0 3 (by decide)).trans (g1))).trans (here _ _ 5 6 b0 (g0))
theorem bits0w3_of_5w6_0w3 (m v0 v1 word : Nat) (h : m + v0 * 2 ^ 5 + v1 * 2 ^ 0 = word) (b1 : v1 < 2 ^ 3) (g1 : Sys2Proof.fld m 0 3 = 0) : Sys2Proof.fld word 0 3 = v1 := by
  subst h; exact here _ _ 0 3 b1 ((above _ _ 5 0 3 (by decide)).trans (g1))
theorem bits26w6_of_0w11 (m v0 word : Nat) (h : m + v0 * 2 ^ 0 = word) (b0 : v0 < 2 ^ 11) (g0 : Sys2Proof.fld m 0 11 = 0) : Sys2Proof.fld word 26 6 = Sys2Proof.fld m 26 6 := by
  subst h; exact (below _ _ 0 11 26 6 (by decide) b0 (g0)).trans (rfl)
theorem bits11w5_of_0w11 (m v0 word : Nat) (h : m + v0 * 2 ^ 0 = word) (b0 : v0 < 2 ^ 11) (g0 : Sys2Proof.fld m 0 11 = 0) : Sys2Proof.fld word 11 5 = Sys2Proof.fld m 11 5 := by
  subst h; exact (below _ _ 0 11 11 5 (by decide) b0 (g0)).trans (rfl)
theorem bits16w10_of_0w11 (m v0 word : Nat) (h : m + v0 * 2 ^ 0 = word) (b0 : v0 < 2 ^ 11) (g0 : Sys2Proof.fld m 0 11 = 0) : Sys2Proof.fld word 16 10 = Sys2Proof.fld m 16 10 := by
  subst h; exact (below _ _ 0 11 16 10 (by decide) b0 (g0)).trans (rfl)
theorem bits0w11_of_0w11 (m v0 word : Nat) (h : m + v0 * 2 ^ 0 = word) (b0 : v0 < 2 ^ 11) (g0 : Sys2Proof.fld m 0 11 = 0) : Sys2Proof.fld word 0 11 = v0 := by
  subst h; exact here _ _ 0 11 b0 (g0)
theorem bits26w6_of_none (m word : Nat) (h : m = word) : Sys2Proof.fld word 26 6 = Sys2Proof.fld m 26 6 := by
  subst h; exact rfl
theorem bits11w5_of_none (m word : Nat) (h : m = word) : Sys2Proof.fld word 11 5 = Sys2Proof.fld m 11 5 := by
  subst h; exact rfl
theorem bits16w10_of_none (m word : Nat) (h : m = word) : Sys2Proof.fld word 16 10 = Sys2Proof.fld m 16 10 := by
  subst h; exact rfl
theorem bits0w11_of_none (m word : Nat) (h : m = word) : Sys2Proof.fld word 0 11 = Sys2Proof.fld m 0 11 := by
  subst h; exact rfl
theorem bits26w6_of_21w5_16w5_11w5_8w3 (m v0 v1 v2 v3 word : Nat) (h : m + v0 * 2 ^ 21 + v1 * 2 ^ 16 + v2 * 2 ^ 11 + v3 * 2 ^ 8 = word) (b0 : v0 < 2 ^ 5) (b1 : v1 < 2 ^ 5) (b2 : v2 < 2 ^ 5) (b3 : v3 < 2 ^ 3) (g0 : Sys2Proof.fld m 21 5 = 0) (g1 : Sys2Proof.fld m 16 5 = 0) (g2 : Sys2Proof.fld m 11 5 = 0) (g3 : Sys2Proof.fld m 8 3 = 0) : Sys2Proof.fld word 26 6 = Sys2Proof.fld m 26 6 := by
  subst h; exact (below _ _ 8 3 26 6 (by decide) b3 ((above _ _ 11 8 3 (by decide)).trans ((above _ _ 16 8 3 (by decide)).trans ((above _ _ 21 8 3 (by decide)).trans (g3))))).trans ((below _ _ 11 5 26 6 (by decide) b2 ((above _ _ 16 11 5 (by decide)).trans ((above _ _ 21 11 5 (by decide)).trans (g2)))).trans ((below _ _ 16 5 26 6 (by decide) b1 ((above _ _ 21 16 5 (by decide)).trans (g1))).trans ((below _ _ 21 5 26 6 (by decide) b0 (g0)).trans (rfl))))
theorem bits0w8_of_21w5_16w5_11w5_8w3 (m v0 v1 v2 v3 word : Nat) (h : m + v0 * 2 ^ 21 + v1 * 2 ^ 16 + v2 * 2 ^ 11 + v3 * 2 ^ 8 = word) : Sys2Proof.fld word 0 8 = Sys2Proof.fld m 0 8 := by
  subst h; exact (above _ _ 8 0 8 (by decide)).trans ((above _ _ 11 0 8 (by decide)).trans ((above _ _ 16 0 8 (by decide)).trans ((above _ _ 21 0 8 (by decide)).trans (rfl))))
theorem bits21w5_of_21w5_16w5_11w5_8w3 (m v0 v1 v2 v3 word : Nat) (h : m + v0 * 2 ^ 21 + v1 * 2 ^ 16 + v2 * 2 ^ 11 + v3 * 2 ^ 8 = word) (b0 : v0 < 2 ^ 5) (b1 : v1 < 2 ^ 5) (b2 : v2 < 2 ^ 5) (b3 : v3 < 2 ^ 3) (g0 : Sys2Proof.fld m 21 5 = 0) (g1 : Sys2Proof.fld m 16 5 = 0) (g2 : Sys2Proof.fld m 11 5 = 0) (g3 : Sys2Proof.fld m 8 3 = 0) : Sys2Proof.fld word 21 5 = v0 := by
  subst h; exact (below _ _ 8 3 21 5 (by decide) b3 ((above _ _ 11 8 3 (by decide)).trans ((above _ _ 16 8 3 (by decide)).trans ((above _ _ 21 8 3 (by decide)).trans (g3))))).trans ((below _ _ 11 5 21 5 (by decide) b2 ((above _ _ 16 11 5 (by decide)).trans ((above _ _ 21 11 5 (by decide)).trans (g2)))).trans ((below _ _ 16 5 21 5 (by decide) b1 ((above _ _ 21 16 5 (by decide)).trans (g1))).trans (here _ _ 21 5 b0 (g0))))
theorem bits16w5_of_21w5_16w5_11w5_8w3 (m v0 v1 v2 v3 word : Nat) (h : m + v0 * 2 ^ 21 + v1 * 2 ^ 16 + v2 * 2 ^ 11 + v3 * 2 ^ 8 = word) (b1 : v1 < 2 ^ 5) (b2 : v2 < 2 ^ 5) (b3 : v3 < 2 ^ 3) (g1 : Sys2Proof.fld m 16 5 = 0) (g2 : Sys2Proof.fld m 11 5 = 0) (g3 : Sys2Proof.fld m 8 3 = 0) : Sys2Proof.fld word 16 5 = v1 := by
  subst h; exact (below _ _ 8 3 16 5 (by decide) b3 ((above _ _ 11 8 3 (by decide)).trans ((above _ _ 16 8 3 (by decide)).trans ((above _ _ 21 8 3 (by decide)).trans (g3))))).trans ((below _ _ 11 5 16 5 (by decide) b2 ((above _ _ 16 11 5 (by decide)).trans ((above _ _ 21 11 5 (by decide)).trans (g2)))).trans (here _ _ 16 5 b1 ((above _ _ 21 16 5 (by decide)).trans (g1))))
theorem bits11w5_of_21w5_16w5_11w5_8w3 (m v0 v1 v2 v3 word : Nat) (h : m + v0 * 2 ^ 21 + v1 * 2 ^ 16 + v2 * 2 ^ 11 + v3 * 2 ^ 8 = word) (b2 : v2 < 2 ^ 5) (b3 : v3 < 2 ^ 3) (g2 : Sys2Proof.fld m 11 5 = 0) (g3 : Sys2Proof.fld m 8 3 = 0) : Sys2Proof.fld word 11 5 = v2 := by
  subst h; exact (below _ _ 8 3 11 5 (by decide) b3 ((above _ _ 11 8 3 (by decide)).trans ((above _ _ 16 8 3 (by decide)).trans ((above _ _ 21 8 3 (by decide)).trans (g3))))).trans (here _ _ 11 5 b2 ((above _ _ 16 11 5 (by decide)).trans ((above _ _ 21 11 5 (by decide)).trans (g2))))
theorem bits8w3_of_21w5_16w5_11w5_8w3 (m v0 v1 v2 v3 word : Nat) (h : m + v0 * 2 ^ 21 + v1 * 2 ^ 16 + v2 * 2 ^ 11 + v3 * 2 ^ 8 = word) (b3 : v3 < 2 ^ 3) (g3 : Sys2Proof.fld m 8 3 = 0) : Sys2Proof.fld word 8 3 = v3 := by
  subst h; exact here _ _ 8 3 b3 ((above _ _ 11 8 3 (by decide)).trans ((above _ _ 16 8 3 (by decide)).trans ((above _ _ 21 8 3 (by decide)).trans (g3))))
theorem bits26w6_of_21w5_16w5_11w5_8w3_7w1 (m v0 v1 v2 v3 v4 word : Nat) (h : m + v0 * 2 ^ 21 + v1 * 2 ^ 16 + v2 * 2 ^ 11 + v3 * 2 ^ 8 + v4 * 2 ^ 7 = word) (b0 : v0 < 2 ^ 5) (b1 : v1 < 2 ^ 5) (b2 : v2 < 2 ^ 5) (b3 : v3 < 2 ^ 3) (b4 : v4 < 2 ^ 1) (g0 : Sys2Proof.fld m 21 5 = 0) (g1 : Sys2Proof.fld m 16 5 = 0) (g2 : Sys2Proof.fld m 11 5 = 0) (g3 : Sys2Proof.fld m 8 3 = 0) (g4 : Sys2Proof.fld m 7 1 = 0) : Sys2Proof.fld word 26 6 = Sys2Proof.fld m 26 6 := by
  subst h; exact (below _ _ 7 1 26 6 (by decide) b4 ((above _ _ 8 7 1 (by decide)).trans ((above _ _ 11 7 1 (by decide)).trans ((above _ _ 16 7 1 (by decide)).trans ((above _ _ 21 7 1 (by decide)).trans (g4)))))).trans ((below _ _ 8 3 26 6 (by decide) b3 ((above _ _ 11 8 3 (by decide)).trans ((above _ _ 16 8 3 (by decide)).trans ((above _ _ 21 8 3 (by decide)).trans (g3))))).trans ((below _ _ 11 5 26 6 (by decide) b2 ((above _ _ 16 11 5 (by decide)).trans ((above _ _ 21 11 5 (by decide)).trans (g2)))).trans ((below _ _ 16 5 26 6 (by decide) b1 ((above _ _ 21 16 5 (by decide)).trans (g1))).trans ((below _ _ 21 5 26 6 (by decide) b0 (g0)).trans (rfl)))))
theorem bits0w7_of_21w5_16w5_11w5_8w3_7w1 (m v0 v1 v2 v3 v4 word : Nat) (h : m + v0 * 2 ^ 21 + v1 * 2 ^ 16 + v2 * 2 ^ 11 + v3 * 2 ^ 8 + v4 * 2 ^ 7 = word) : Sys2Proof.fld word 0 7 = Sys2Proof.fld m 0 7 := by
  subst h; exact (above _ _ 7 0 7 (by decide)).trans ((above _ _ 8 0 7 (by decide)).trans ((above _ _ 11 0 7 (by decide)).trans ((above _ _ 16 0 7 (by decide)).trans ((above _ _ 21 0 7 (by decide)).trans (rfl)))))
theorem bits21w5_of_21w5_16w5_11w5_8w3_7w1 (m v0 v1 v2 v3 v4 word : Nat) (h : m + v0 * 2 ^ 21 + v1 * 2 ^ 16 + v2 * 2 ^ 11 + v3 * 2 ^ 8 + v4 * 2 ^ 7 = word) (b0 : v0 < 2 ^ 5) (b1 : v1 < 2 ^ 5) (b2 : v2 < 2 ^ 5) (b3 : v3 < 2 ^ 3) (b4 : v4 < 2 ^ 1) (g0 : Sys2Proof.fld m 21 5 = 0) (g1 : Sys2Proof.fld m 16 5 = 0) (g2 : Sys2Proof.fld m 11 5 = 0) (g3 : Sys2Proof.fld m 8 3 = 0) (g4 : Sys2Proof.fld m 7 1 = 0) : Sys2Proof.fld word 21 5 = v0 := by
  subst h; exact (below _ _ 7 1 21 5 (by decide) b4 ((above _ _ 8 7 1 (by decide)).trans ((above _ _ 11 7 1 (by decide)).trans ((above _ _ 16 7 1 (by decide)).trans ((above _ _ 21 7 1 (by decide)).trans (g4)))))).trans ((below _ _ 8 3 21 5 (by decide) b3 ((above _ _ 11 8 3 (by decide)).trans ((above _ _ 16 8 3 (by decide)).trans ((above _ _ 21 8 3 (by decide)).trans (g3))))).trans ((below _ _ 11 5 21 5 (by decide) b2 ((above _ _ 16 11 5 (by decide)).trans ((above _ _ 21 11 5 (by decide)).trans (g2)))).trans ((below _ _ 16 5 21 5 (by decide) b1 ((above _ _ 21 16 5 (by decide)).trans (g1))).trans (here _ _ 21 5 b0 (g0)))))
theorem bits16w5_of_21w5_16w5_11w5_8w3_7w1 (m v0 v1 v2 v3 v4 word : Nat) (h : m + v0 * 2 ^ 21 + v1 * 2 ^ 16 + v2 * 2 ^ 11 + v3 * 2 ^ 8 + v4 * 2 ^ 7 = word) (b1 : v1 < 2 ^ 5) (b2 : v2 < 2 ^ 5) (b3 : v3 < 2 ^ 3) (b4 : v4 < 2 ^ 1) (g1 : Sys2Proof.fld m 16 5 = 0) (g2 : Sys2Proof.fld m 11 5 = 0) (g3 : Sys2Proof.fld m 8 3 = 0) (g4 : Sys2Proof.fld m 7 1 = 0) : Sys2Proof.fld word 16 5 = v1 := by
  subst h; exact (below _ _ 7 1 16 5 (by decide) b4 ((above _ _ 8 7 1 (by decide)).trans ((above _ _ 11 7 1 (by decide)).trans ((above _ _ 16 7 1 (by decide)).trans ((above _ _ 21 7 1 (by decide)).trans (g4)))))).trans ((below _ _ 8 3 16 5 (by decide) b3 ((above _ _ 11 8 3 (by decide)).trans ((above _ _ 16 8 3 (by decide)).trans ((above _ _ 21 8 3 (by decide)).trans (g3))))).trans ((below _ _ 11 5 16 5 (by decide) b2 ((above _ _ 16 11 5 (by decide)).trans ((above _ _ 21 11 5 (by decide)).trans (g2)))).trans (here _ _ 16 5 b1 ((above _ _ 21 16 5 (by decide)).trans (g1)))))
theorem bits11w5_of_21w5_16w5_11w5_8w3_7w1 (m v0 v1 v2 v3 v4 word : Nat) (h : m + v0 * 2 ^ 21 + v1 * 2 ^ 16 + v2 * 2 ^ 11 + v3 * 2 ^ 8 + v4 * 2 ^ 7 = word) (b2 : v2 < 2 ^ 5) (b3 : v3 < 2 ^ 3) (b4 : v4 < 2 ^ 1) (g2 : Sys2Proof.fld m 11 5 = 0) (g3 : Sys2Proof.fld m 8 3 = 0) (g4 : Sys2Proof.fld m 7 1 = 0) : Sys2Proof.fld word 11 5 = v2 := by
  subst h; exact (below _ _ 7 1 11 5 (by decide) b4 ((above _ _ 8 7 1 (by decide)).trans ((above _ _ 11 7 1 (by decide)).trans ((above _ _ 16 7 1 (by decide)).trans ((above _ _ 21 7 1 (by decide)).trans (g4)))))).trans ((below _ _ 8 3 11 5 (by decide) b3 ((above _ _ 11 8 3 (by decide)).trans ((above _ _ 16 8 3 (by decide)).trans ((above _ _ 21 8 3 (by decide)).trans (g3))))).trans (here _ _ 11 5 b2 ((above _ _ 16 11 5 (by decide)).trans ((above _ _ 21 11 5 (by decide)).trans (g2)))))
theorem bits8w3_of_21w5_16w5_11w5_8w3_7w1 (m v0 v1 v2 v3 v4 word : Nat) (h : m + v0 * 2 ^ 21 + v1 * 2 ^ 16 + v2 * 2 ^ 11 + v3 * 2 ^ 8 + v4 * 2 ^ 7 = word) (b3 : v3 < 2 ^ 3) (b4 : v4 < 2 ^ 1) (g3 : Sys2Proof.fld m 8 3 = 0) (g4 : Sys2Proof.fld m 7 1 = 0) : Sys2Proof.fld word 8 3 = v3 := by
  subst h; exact (below _ _ 7 1 8 3 (by decide) b4 ((above _ _ 8 7 1 (by decide)).trans ((above _ _ 11 7 1 (by decide)).trans ((above _ _ 16 7 1 (by decide)).trans ((above _ _ 21 7 1 (by decide)).trans (g4)))))).trans (here _ _ 8 3 b3 ((above _ _ 11 8 3 (by decide)).trans ((above _ _ 16 8 3 (by decide)).trans ((above _ _ 21 8 3 (by decide)).trans (g3)))))
theorem bits7w1_of_21w5_16w5_11w5_8w3_7w1 (m v0 v1 v2 v3 v4 word : Nat) (h : m + v0 * 2 ^ 21 + v1 * 2 ^ 16 + v2 * 2 ^ 11 + v3 * 2 ^ 8 + v4 * 2 ^ 7 = word) (b4 : v4 < 2 ^ 1) (g4 : Sys2Proof.fld m 7 1 = 0) : Sys2Proof.fld word 7 1 = v4 := by
  subst h; exact here _ _ 7 1 b4 ((above _ _ 8 7 1 (by decide)).trans ((above _ _ 11 7 1 (by decide)).trans ((above _ _ 16 7 1 (by decide)).trans ((above _ _ 21 7 1 (by decide)).trans (g4)))))
theorem bits26w6_of_21w5_16w5_8w3_7w1 (m v0 v1 v2 v3 word : Nat) (h : m + v0 * 2 ^ 21 + v1 * 2 ^ 16 + v2 * 2 ^ 8 + v3 * 2 ^ 7 = word) (b0 : v0 < 2 ^ 5) (b1 : v1 < 2 ^ 5) (b2 : v2 < 2 ^ 3) (b3 : v3 < 2 ^ 1) (g0 : Sys2Proof.fld m 21 5 = 0) (g1 : Sys2Proof.fld m 16 5 = 0) (g2 : Sys2Proof.fld m 8 3 = 0) (g3 : Sys2Proof.fld m 7 1 = 0) : Sys2Proof.fld word 26 6 = Sys2Proof.fld m 26 6 := by
  subst h; exact (below _ _ 7 1 26 6 (by decide) b3 ((above _ _ 8 7 1 (by decide)).trans ((above _ _ 16 7 1 (by decide)).trans ((above _ _ 21 7 1 (by decide)).trans (g3))))).trans ((below _ _ 8 3 26 6 (by decide) b2 ((above _ _ 16 8 3 (by decide)).trans ((above _ _ 21 8 3 (by decide)).trans (g2)))).trans ((below _ _ 16 5 26 6 (by decide) b1 ((above _ _ 21 16 5 (by decide)).trans (g1))).trans ((below _ _ 21 5 26 6 (by decide) b0 (g0)).trans (rfl))))
theorem bits0w7_of_21w5_16w5_8w3_7w1 (m v0 v1 v2 v3 word : Nat) (h : m + v0 * 2 ^ 21 + v1 * 2 ^ 16 + v2 * 2 ^ 8 + v3 * 2 ^ 7 = word) : Sys2Proof.fld word 0 7 = Sys2Proof.fld m 0 7 := by
  subst h; exact (above _ _ 7 0 7 (by decide)).trans ((above _ _ 8 0 7 (by decide)).trans ((above _ _ 16 0 7 (by decide)).trans ((above _ _ 21 0 7 (by decide)).trans (rfl))))
theorem bits11w5_of_21w5_16w5_8w3_7w1 (m v0 v1 v2 v3 word : Nat) (h : m + v0 * 2 ^ 21 + v1 * 2 ^ 16 + v2 * 2 ^ 8 + v3 * 2 ^ 7 = word) (b2 : v2 < 2 ^ 3) (b3 : v3 < 2 ^ 1) (g2 : Sys2Proof.fld m 8 3 = 0) (g3 : Sys2Proof.fld m 7 1 = 0) : Sys2Proof.fld word 11 5 = Sys2Proof.fld m 11 5 := by
  subst h; exact (below _ _ 7 1 11 5 (by decide) b3 ((above _ _ 8 7 1 (by decide)).trans ((above _ _ 16 7 1 (by decide)).trans ((above _ _ 21 7 1 (by decide)).trans (g3))))).trans ((below _ _ 8 3 11 5 (by decide) b2 ((above _ _ 16 8 3 (by decide)).trans ((above _ _ 21 8 3 (by decide)).trans (g2)))).trans ((above _ _ 16 11 5 (by decide)).trans ((above _ _ 21 11 5 (by decide)).trans (rfl))))
theorem bits21w5_of_21w5_16w5_8w3_7w1 (m v0 v1 v2 v3 word : Nat) (h : m + v0 * 2 ^ 21 + v1 * 2 ^ 16 + v2 * 2 ^ 8 + v3 * 2 ^ 7 = word) (b0 : v0 < 2 ^ 5) (b1 : v1 < 2 ^ 5) (b2 : v2 < 2 ^ 3) (b3 : v3 < 2 ^ 1) (g0 : Sys2Proof.fld m 21 5 = 0) (g1 : Sys2Proof.fld m 16 5 = 0) (g2 : Sys2Proof.fld m 8 3 = 0) (g3 : Sys2Proof.fld m 7 1 = 0) : Sys2Proof.fld word 21 5 = v0 := by
  subst h; exact (below _ _ 7 1 21 5 (by decide) b3 ((above _ _ 8 7 1 (by decide)).trans ((above _ _ 16 7 1 (by decide)).trans ((above _ _ 21 7 1 (by decide)).trans (g3))))).trans ((below _ _ 8 3 21 5 (by decide) b2 ((above _ _ 16 8 3 (by decide)).trans ((above _ _ 21 8 3 (by decide)).trans (g2)))).trans ((below _ _ 16 5 21 5 (by decide) b1 ((above _ _ 21 16 5 (by decide)).trans (g1))).trans (here _ _ 21 5 b0 (g0))))
theorem bits16w5_of_21w5_16w5_8w3_7w1 (m v0 v1 v2 v3 word : Nat) (h : m + v0 * 2 ^ 21 + v1 * 2 ^ 16 + v2 * 2 ^ 8 + v3 * 2 ^ 7 = word) (b1 : v1 < 2 ^ 5) (b2 : v2 < 2 ^ 3) (b3 : v3 < 2 ^ 1) (g1 : Sys2Proof.fld m 16 5 = 0) (g2 : Sys2Proof.fld m 8 3 = 0) (g3 : Sys2Proof.fld m 7 1 = 0) : Sys2Proof.fld word 16 5 = v1 := by
  subst h; exact (below _ _ 7 1 16 5 (by decide) b3 ((above _ _ 8 7 1 (by decide)).trans ((above _ _ 16 7 1 (by decide)).trans ((above _ _ 21 7 1 (by decide)).trans (g3))))).trans ((below _ _ 8 3 16 5 (by decide) b2 ((above _ _ 16 8 3 (by decide)).trans ((above _ _ 21 8 3 (by decide)).trans (g2)))).trans (here _ _ 16 5 b1 ((above _ _ 21 16 5 (by decide)).trans (g1))))
theorem bits8w3_of_21w5_16w5_8w3_7w1 (m v0 v1 v2 v3 word : Nat) (h : m + v0 * 2 ^ 21 + v1 * 2 ^ 16 + v2 * 2 ^ 8 + v3 * 2 ^ 7 = word) (b2 : v2 < 2 ^ 3) (b3 : v3 < 2 ^ 1) (g2 : Sys2Proof.fld m 8 3 = 0) (g3 : Sys2Proof.fld m 7 1 = 0) : Sys2Proof.fld word 8 3 = v2 := by
  subst h; exact (below _ _ 7 1 8 3 (by decide) b3 ((above _ _ 8 7 1 (by decide)).trans ((above _ _ 16 7 1 (by decide)).trans ((above _ _ 21 7 1 (by decide)).trans (g3))))).trans (here _ _ 8 3 b2 ((above _ _ 16 8 3 (by decide)).trans ((above _ _ 21 8 3 (by decide)).trans (g2))))
theorem bits7w1_of_21w5_16w5_8w3_7w1 (m v0 v1 v2 v3 word : Nat) (h : m + v0 * 2 ^ 21 + v1 * 2 ^ 16 + v2 * 2 ^ 8 + v3 * 2 ^ 7 = word) (b3 : v3 < 2 ^ 1) (g3 : Sys2Proof.fld m 7 1 = 0) : Sys2Proof.fld word 7 1 = v3 := by
  subst h; exact here _ _ 7 1 b3 ((above _ _ 8 7 1 (by decide)).trans ((above _ _ 16 7 1 (by decide)).trans ((above _ _ 21 7 1 (by decide)).trans (g3))))
theorem bits26w6_of_21w5_16w5_11w5_8w3_0w5 (m v0 v1 v2 v3 v4 word : Nat) (h : m + v0 * 2 ^ 21 + v1 * 2 ^ 16 + v2 * 2 ^ 11 + v3 * 2 ^ 8 + v4 * 2 ^ 0 = word) (b0 : v0 < 2 ^ 5) (b1 : v1 < 2 ^ 5) (b2 : v2 < 2 ^ 5) (b3 : v3 < 2 ^ 3) (b4 : v4 < 2 ^ 5) (g0 : Sys2Proof.fld m 21 5 = 0) (g1 : Sys2Proof.fld m 16 5 = 0) (g2 : Sys2Proof.fld m 11 5 = 0) (g3 : Sys2Proof.fld m 8 3 = 0) (g4 : Sys2Proof.fld m 0 5 = 0) : Sys2Proof.fld word 26 6 = Sys2Proof.fld m 26 6 := by
  subst h; exact (below _ _ 0 5 26 6 (by decide) b4 ((above _ _ 8 0 5 (by decide)).trans ((above _ _ 11 0 5 (by decide)).trans ((above _ _ 16 0 5 (by decide)).trans ((above _ _ 21 0 5 (by decide)).trans (g4)))))).trans ((below _ _ 8 3 26 6 (by decide) b3 ((above _ _ 11 8 3 (by decide)).trans ((above _ _ 16 8 3 (by decide)).trans ((above _ _ 21 8 3 (by decide)).trans (g3))))).trans ((below _ _ 11 5 26 6 (by decide) b2 ((above _ _ 16 11 5 (by decide)).trans ((above _ _ 21 11 5 (by decide)).trans (g2)))).trans ((below _ _ 16 5 26 6 (by decide) b1 ((above _ _ 21 16 5 (by decide)).trans (g1))).trans ((below _ _ 21 5 26 6 (by decide) b0 (g0)).trans (rfl)))))
theorem bits5w3_of_21w5_16w5_11w5_8w3_0w5 (m v0 v1 v2 v3 v4 word : Nat) (h : m + v0 * 2 ^ 21 + v1 * 2 ^ 16 + v2 * 2 ^ 11 + v3 * 2 ^ 8 + v4 * 2 ^ 0 = word) (b4 : v4 < 2 ^ 5) (g4 : Sys2Proof.fld m 0 5 = 0) : Sys2Proof.fld word 5 3 = Sys2Proof.fld m 5 3 := by
  subst h; exact (below _ _ 0 5 5 3 (by decide) b4 ((above _ _ 8 0 5 (by decide)).trans ((above _ _ 11 0 5 (by decide)).trans ((above _ _ 16 0 5 (by decide)).trans ((above _ _ 21 0 5 (by decide)).trans (g4)))))).trans ((above _ _ 8 5 3 (by decide)).trans ((above _ _ 11 5 3 (by decide)).trans ((above _ _ 16 5 3 (by decide)).trans ((above _ _ 21 5 3 (by decide)).trans (rfl)))))
theorem bits0w5_of_21w5_16w5_11w5_8w3_0w5 (m v0 v1 v2 v3 v4 word : Nat) (h : m + v0 * 2 ^ 21 + v1 * 2 ^ 16 + v2 * 2 ^ 11 + v3 * 2 ^ 8 + v4 * 2 ^ 0 = word) (b4 : v4 < 2 ^ 5) (g4 : Sys2Proof.fld m 0 5 = 0) : Sys2Proof.fld word 0 5 = v4 := by
  subst h; exact here _ _ 0 5 b4 ((above _ _ 8 0 5 (by decide)).trans ((above _ _ 11 0 5 (by decide)).trans ((above _ _ 16 0 5 (by decide)).trans ((above _ _ 21 0 5 (by decide)).trans (g4)))))
theorem bits21w5_of_21w5_16w5_11w5_8w3_0w5 (m v0 v1 v2 v3 v4 word : Nat) (h : m + v0 * 2 ^ 21 + v1 * 2 ^ 16 + v2 * 2 ^ 11 + v3 * 2 ^ 8 + v4 * 2 ^ 0 = word) (b0 : v0 < 2 ^ 5) (b1 : v1 < 2 ^ 5) (b2 : v2 < 2 ^ 5) (b3 : v3 < 2 ^ 3) (b4 : v4 < 2 ^ 5) (g0 : Sys2Proof.fld m 21 5 = 0) (g1 : Sys2Proof.fld m 16 5 = 0) (g2 : Sys2Proof.fld m 11 5 = 0) (g3 : Sys2Proof.fld m 8 3 = 0) (g4 : Sys2Proof.fld m 0 5 = 0) : Sys2Proof.fld word 21 5 = v0 := by
  subst h; exact (below _ _ 0 5 21 5 (by decide) b4 ((above _ _ 8 0 5 (by decide)).trans ((above _ _ 11 0 5 (by decide)).trans ((above _ _ 16 0 5 (by decide)).trans ((above _ _ 21 0 5 (by decide)).trans (g4)))))).trans ((below _ _ 8 3 21 5 (by decide) b3 ((above _ _ 11 8 3 (by decide)).trans ((above _ _ 16 8 3 (by decide)).trans ((above _ _ 21 8 3 (by decide)).trans (g3))))).trans ((below _ _ 11 5 21 5 (by decide) b2 ((above _ _ 16 11 5 (by decide)).trans ((above _ _ 21 11 5 (by decide)).trans (g2)))).trans ((below _ _ 16 5 21 5 (by decide) b1 ((above _ _ 21 16 5 (by decide)).trans (g1))).trans (here _ _ 21 5 b0 (g0)))))
theorem bits16w5_of_21w5_16w5_11w5_8w3_0w5 (m v0 v1 v2 v3 v4 word : Nat) (h : m + v0 * 2 ^ 21 + v1 * 2 ^ 16 + v2 * 2 ^ 11 + v3 * 2 ^ 8 + v4 * 2 ^ 0 = word) (b1 : v1 < 2 ^ 5) (b2 : v2 < 2 ^ 5) (b3 : v3 < 2 ^ 3) (b4 : v4 < 2 ^ 5) (g1 : Sys2Proof.fld m 16 5 = 0) (g2 : Sys2Proof.fld m 11 5 = 0) (g3 : Sys2Proof.fld m 8 3 = 0) (g4 : Sys2Proof.fld m 0 5 = 0) : Sys2Proof.fld word 16 5 = v1 := by
  subst h; exact (below _ _ 0 5 16 5 (by decide) b4 ((above _ _ 8 0 5 (by decide)).trans ((above _ _ 11 0 5 (by decide)).trans ((above _ _ 16 0 5 (by decide)).trans ((above _ _ 21 0 5 (by decide)).trans (g4)))))).trans ((below _ _ 8 3 16 5 (by decide) b3 ((above _ _ 11 8 3 (by decide)).trans ((above _ _ 16 8 3 (by decide)).trans ((above _ _ 21 8 3 (by decide)).trans (g3))))).trans ((below _ _ 11 5 16 5 (by decide) b2 ((above _ _ 16 11 5 (by decide)).trans ((above _ _ 21 11 5 (by decide)).trans (g2)))).trans (here _ _ 16 5 b1 ((above _ _ 21 16 5 (by decide)).trans (g1)))))
theorem bits11w5_of_21w5_16w5_11w5_8w3_0w5 (m v0 v1 v2 v3 v4 word : Nat) (h : m + v0 * 2 ^ 21 + v1 * 2 ^ 16 + v2 * 2 ^ 11 + v3 * 2 ^ 8 + v4 * 2 ^ 0 = word) (b2 : v2 < 2 ^ 5) (b3 : v3 < 2 ^ 3) (b4 : v4 < 2 ^ 5) (g2 : Sys2Proof.fld m 11 5 = 0) (g3 : Sys2Proof.fld m 8 3 = 0) (g4 : Sys2Proof.fld m 0 5 = 0) : Sys2Proof.fld word 11 5 = v2 := by
  subst h; exact (below _ _ 0 5 11 5 (by decide) b4 ((above _ _ 8 0 5 (by decide)).trans ((above _ _ 11 0 5 (by decide)).trans ((above _ _ 16 0 5 (by decide)).trans ((above _ _ 21 0 5 (by decide)).trans (g4)))))).trans ((below _ _ 8 3 11 5 (by decide) b3 ((above _ _ 11 8 3 (by decide)).trans ((above _ _ 16 8 3 (by decide)).trans ((above _ _ 21 8 3 (by decide)).trans (g3))))).trans (here _ _ 11 5 b2 ((above _ _ 16 11 5 (by decide)).trans ((above _ _ 21 11 5 (by decide)).trans (g2)))))
theorem bits8w3_of_21w5_16w5_11w5_8w3_0w5 (m v0 v1 v2 v3 v4 word : Nat) (h : m + v0 * 2 ^ 21 + v1 * 2 ^ 16 + v2 * 2 ^ 11 + v3 * 2 ^ 8 + v4 * 2 ^ 0 = word) (b3 : v3 < 2 ^ 3) (b4 : v4 < 2 ^ 5) (g3 : Sys2Proof.fld m 8 3 = 0) (g4 : Sys2Proof.fld m 0 5 = 0) : Sys2Proof.fld word 8 3 = v3 := by
  subst h; exact (below _ _ 0 5 8 3 (by decide) b4 ((above _ _ 8 0 5 (by decide)).trans ((above _ _ 11 0 5 (by decide)).trans ((above _ _ 16 0 5 (by decide)).trans ((above _ _ 21 0 5 (by decide)).trans (g4)))))).trans (here _ _ 8 3 b3 ((above _ _ 11 8 3 (by decide)).trans ((above _ _ 16 8 3 (by decide)).trans ((above _ _ 21 8 3 (by decide)).trans (g3)))))
theorem bits26w6_of_21w5_16w5_8w3 (m v0 v1 v2 word : Nat) (h : m + v0 * 2 ^ 21 + v1 * 2 ^ 16 + v2 * 2 ^ 8 = word) (b0 : v0 < 2 ^ 5) (b1 : v1 < 2 ^ 5) (b2 : v2 < 2 ^ 3) (g0 : Sys2Proof.fld m 21 5 = 0) (g1 : Sys2Proof.fld m 16 5 = 0) (g2 : Sys2Proof.fld m 8 3 = 0) : Sys2Proof.fld word 26 6 = Sys2Proof.fld m 26 6 := by
  subst h; exact (below _ _ 8 3 26 6 (by decide) b2 ((above _ _ 16 8 3 (by decide)).trans ((above _ _ 21 8 3 (by decide)).trans (g2)))).trans ((below _ _ 16 5 26 6 (by decide) b1 ((above _ _ 21 16 5 (by decide)).trans (g1))).trans ((below _ _ 21 5 26 6 (by decide) b0 (g0)).trans (rfl)))
theorem bits5w3_of_21w5_16w5_8w3 (m v0 v1 v2 word : Nat) (h : m + v0 * 2 ^ 21 + v1 * 2 ^ 16 + v2 * 2 ^ 8 = word) : Sys2Proof.fld word 5 3 = Sys2Proof.fld m 5 3 := by
  subst h; exact (above _ _ 8 5 3 (by decide)).trans ((above _ _ 16 5 3 (by decide)).trans ((above _ _ 21 5 3 (by decide)).trans (rfl)))
theorem bits0w5_of_21w5_16w5_8w3 (m v0 v1 v2 word : Nat) (h : m + v0 * 2 ^ 21 + v1 * 2 ^ 16 + v2 * 2 ^ 8 = word) : Sys2Proof.fld word 0 5 = Sys2Proof.fld m 0 5 := by
  subst h; exact (above _ _ 8 0 5 (by decide)).trans ((above _ _ 16 0 5 (by decide)).trans ((above _ _ 21 0 5 (by decide)).trans (rfl)))
theorem bits11w5_of_21w5_16w5_8w3 (m v0 v1 v2 word : Nat) (h : m + v0 * 2 ^ 21 + v1 * 2 ^ 16 + v2 * 2 ^ 8 = word) (b2 : v2 < 2 ^ 3) (g2 : Sys2Proof.fld m 8 3 = 0) : Sys2Proof.fld word 11 5 = Sys2Proof.fld m 11 5 := by
  subst h; exact (below _ _ 8 3 11 5 (by decide) b2 ((above _ _ 16 8 3 (by decide)).trans ((above _ _ 21 8 3 (by decide)).trans (g2)))).trans ((above _ _ 16 11 5 (by decide)).trans ((above _ _ 21 11 5 (by decide)).trans (rfl)))
theorem bits21w5_of_21w5_16w5_8w3 (m v0 v1 v2 word : Nat) (h : m + v0 * 2 ^ 21 + v1 * 2 ^ 16 + v2 * 2 ^ 8 = word) (b0 : v0 < 2 ^ 5) (b1 : v1 < 2 ^ 5) (b2 : v2 < 2 ^ 3) (g0 : Sys2Proof.fld m 21 5 = 0) (g1 : Sys2Proof.fld m 16 5 = 0) (g2 : Sys2Proof.fld m 8 3 = 0) : Sys2Proof.fld word 21 5 = v0 := by
  subst h; exact (below _ _ 8 3 21 5 (by decide) b2 ((above _ _ 16 8 3 (by decide)).trans ((above _ _ 21 8 3 (by decide)).trans (g2)))).trans ((below _ _ 16 5 21 5 (by decide) b1 ((above _ _ 21 16 5 (by decide)).trans (g1))).trans (here _ _ 21 5 b0 (g0)))
theorem bits16w5_of_21w5_16w5_8w3 (m v0 v1 v2 word : Nat) (h : m + v0 * 2 ^ 21 + v1 * 2 ^ 16 + v2 * 2 ^ 8 = word) (b1 : v1 < 2 ^ 5) (b2 : v2 < 2 ^ 3) (g1 : Sys2Proof.fld m 16 5 = 0) (g2 : Sys2Proof.fld m 8 3 = 0) : Sys2Proof.fld word 16 5 = v1 := by
  subst h; exact (below _ _ 8 3 16 5 (by decide) b2 ((above _ _ 16 8 3 (by decide)).trans ((above _ _ 21 8 3 (by decide)).trans (g2)))).trans (here _ _ 16 5 b1 ((above _ _ 21 16 5 (by decide)).trans (g1)))
theorem bits8w3_of_21w5_16w5_8w3 (m v0 v1 v2 word : Nat) (h : m + v0 * 2 ^ 21 + v1 * 2 ^ 16 + v2 * 2 ^ 8 = word) (b2 : v2 < 2 ^ 3) (g2 : Sys2Proof.fld m 8 3 = 0) : Sys2Proof.fld word 8 3 = v2 := by
  subst h; exact here _ _ 8 3 b2 ((above _ _ 16 8 3 (by decide)).trans ((above _ _ 21 8 3 (by decide)).trans (g2)))
theorem bits26w6_of_21w5_8w3 (m v0 v1 word : Nat) (h : m + v0 * 2 ^ 21 + v1 * 2 ^ 8 = word) (b0 : v0 < 2 ^ 5) (b1 : v1 < 2 ^ 3) (g0 : Sys2Proof.fld m 21 5 = 0) (g1 : Sys2Proof.fld m 8 3 = 0) : Sys2Proof.fld word 26 6 = Sys2Proof.fld m 26 6 := by
  subst h; exact (below _ _ 8 3 26 6 (by decide) b1 ((above _ _ 21 8 3 (by decide)).trans (g1))).trans ((below _ _ 21 5 26 6 (by decide) b0 (g0)).trans (rfl))
theorem bits5w3_of_21w5_8w3 (m v0 v1 word : Nat) (h : m + v0 * 2 ^ 21 + v1 * 2 ^ 8 = word) : Sys2Proof.fld word 5 3 = Sys2Proof.fld m 5 3 := by
  subst h; exact (above _ _ 8 5 3 (by decide)).trans ((above _ _ 21 5 3 (by decide)).trans (rfl))
theorem bits0w5_of_21w5_8w3 (m v0 v1 word : Nat) (h : m + v0 * 2 ^ 21 + v1 * 2 ^ 8 = word) : Sys2Proof.fld word 0 5 = Sys2Proof.fld m 0 5 := by
  subst h; exact (above _ _ 8 0 5 (by decide)).trans ((above _ _ 21 0 5 (by decide)).trans (rfl))
theorem bits11w10_of_21w5_8w3 (m v0 v1 word : Nat) (h : m + v0 * 2 ^ 21 + v1 * 2 ^ 8 = word) (b1 : v1 < 2 ^ 3) (g1 : Sys2Proof.fld m 8 3 = 0) : Sys2Proof.fld word 11 10 = Sys2Proof.fld m 11 10 := by
  subst h; exact (below _ _ 8 3 11 10 (by decide) b1 ((above _ _ 21 8 3 (by decide)).trans (g1))).trans ((above _ _ 21 11 10 (by decide)).trans (rfl))
theorem bits21w5_of_21w5_8w3 (m v0 v1 word : Nat) (h : m + v0 * 2 ^ 21 + v1 * 2 ^ 8 = word) (b0 : v0 < 2 ^ 5) (b1 : v1 < 2 ^ 3) (g0 : Sys2Proof.fld m 21 5 = 0) (g1 : Sys2Proof.fld m 8 3 = 0) : Sys2Proof.fld word 21 5 = v0 := by
  subst h; exact (below _ _ 8 3 21 5 (by decide) b1 ((above _ _ 21 8 3 (by decide)).trans (g1))).trans (here _ _ 21 5 b0 (g0))
theorem bits8w3_of_21w5_8w3 (m v0 v1 word : Nat) (h : m + v0 * 2 ^ 21 + v1 * 2 ^ 8 = word) (b1 : v1 < 2 ^ 3) (g1 : Sys2Proof.fld m 8 3 = 0) : Sys2Proof.fld word 8 3 = v1 := by
  subst h; exact here _ _ 8 3 b1 ((above _ _ 21 8 3 (by decide)).trans (g1))
theorem bits26w6_of_11w5 (m v0 word : Nat) (h : m + v0 * 2 ^ 11 = word) (b0 : v0 < 2 ^ 5) (g0 : Sys2Proof.fld m 11 5 = 0) : Sys2Proof.fld word 26 6 = Sys2Proof.fld m 26 6 := by
  subst h; exact (below _ _ 11 5 26 6 (by decide) b0 (g0)).trans (rfl)
theorem bits5w3_of_11w5 (m v0 word : Nat) (h : m + v0 * 2 ^ 11 = word) : Sys2Proof.fld word 5 3 = Sys2Proof.fld m 5 3 := by
  subst h; exact (above _ _ 11 5 3 (by decide)).trans (rfl)
theorem bits0w5_of_11w5 (m v0 word : Nat) (h : m + v0 * 2 ^ 11 = word) : Sys2Proof.fld word 0 5 = Sys2Proof.fld m 0 5 := by
  subst h; exact (above _ _ 11 0 5 (by decide)).trans (rfl)
theorem bits16w10_of_11w5 (m v0 word : Nat) (h : m + v0 * 2 ^ 11 = word) (b0 : v0 < 2 ^ 5) (g0 : Sys2Proof.fld m 11 5 = 0) : Sys2Proof.fld word 16 10 = Sys2Proof.fld m 16 10 := by
  subst h; exact (below _ _ 11 5 16 10 (by decide) b0 (g0)).trans (rfl)
theorem bits8w3_of_11w5 (m v0 word : Nat) (h : m + v0 * 2 ^ 11 = word) : Sys2Proof.fld word 8 3 = Sys2Proof.fld m 8 3 := by
  subst h; exact (above _ _ 11 8 3 (by decide)).trans (rfl)
theorem bits11w5_of_11w5 (m v0 word : Nat) (h : m + v0 * 2 ^ 11 = word) (b0 : v0 < 2 ^ 5) (g0 : Sys2Proof.fld m 11 5 = 0) : Sys2Proof.fld word 11 5 = v0 := by
  subst h; exact here _ _ 11 5 b0 (g0)
theorem bits5w3_of_21w5_16w5_11w5_8w3 (m v0 v1 v2 v3 word : Nat) (h : m + v0 * 2 ^ 21 + v1 * 2 ^ 16 + v2 * 2 ^ 11 + v3 * 2 ^ 8 = word) : Sys2Proof.fld word 5 3 = Sys2Proof.fld m 5 3 := by
  subst h; exact (above _ _ 8 5 3 (by decide)).trans ((above _ _ 11 5 3 (by decide)).trans ((above _ _ 16 5 3 (by decide)).trans ((above _ _ 21 5 3 (by decide)).trans (rfl))))
theorem bits0w5_of_21w5_16w5_11w5_8w3 (m v0 v1 v2 v3 word : Nat) (h : m + v0 * 2 ^ 21 + v1 * 2 ^ 16 + v2 * 2 ^ 11 + v3 * 2 ^ 8 = word) : Sys2Proof.fld word 0 5 = Sys2Proof.fld m 0 5 := by
  subst h; exact (above _ _ 8 0 5 (by decide)).trans ((above _ _ 11 0 5 (by decide)).trans ((above _ _ 16 0 5 (by decide)).trans ((above _ _ 21 0 5 (by decide)).trans (rfl))))
theorem bits5w3_of_21w5_16w5 (m v0 v1 word : Nat) (h : m + v0 * 2 ^ 21 + v1 * 2 ^ 16 = word) : Sys2Proof.fld word 5 3 = Sys2Proof.fld m 5 3 := by
  subst h; exact (above _ _ 16 5 3 (by decide)).trans ((above _ _ 21 5 3 (by decide)).trans (rfl))
theorem bits0w5_of_21w5_16w5 (m v0 v1 word : Nat) (h : m + v0 * 2 ^ 21 + v1 * 2 ^ 16 = word) : Sys2Proof.fld word 0 5 = Sys2Proof.fld m 0 5 := by
  subst h; exact (above _ _ 16 0 5 (by decide)).trans ((above _ _ 21 0 5 (by decide)).trans (rfl))
theorem bits8w8_of_21w5_16w5 (m v0 v1 word : Nat) (h : m + v0 * 2 ^ 21 + v1 * 2 ^ 16 = word) : Sys2Proof.fld word 8 8 = Sys2Proof.fld m 8 8 := by
  subst h; exact (above _ _ 16 8 8 (by decide)).trans ((above _ _ 21 8 8 (by decide)).trans (rfl))
theorem bits4w4_of_21w5_16w5_11w5_8w3_7w1 (m v0 v1 v2 v3 v4 word : Nat) (h : m + v0 * 2 ^ 21 + v1 * 2 ^ 16 + v2 * 2 ^ 11 + v3 * 2 ^ 8 + v4 * 2 ^ 7 = word) (b4 : v4 < 2 ^ 1) (g4 : Sys2Proof.fld m 7 1 = 0) : Sys2Proof.fld word 4 4 = Sys2Proof.fld m 4 4 + v4 * 2 ^ 3 := by
  subst h; exact (inside _ _ 7 1 4 4 (by decide) (by decide) b4 ((above _ _ 8 7 1 (by decide)).trans ((above _ _ 11 7 1 (by decide)).trans ((above _ _ 16 7 1 (by decide)).trans ((above _ _ 21 7 1 (by decide)).trans (g4)))))).trans (congrArg (· + v4 * 2 ^ 3) ((above _ _ 8 4 4 (by decide)).trans ((above _ _ 11 4 4 (by decide)).trans ((above _ _ 16 4 4 (by decide)).trans ((above _ _ 21 4 4 (by decide)).trans (rfl))))))
theorem bits1w3_of_21w5_16w5_11w5_8w3_7w1 (m v0 v1 v2 v3 v4 word : Nat) (h : m + v0 * 2 ^ 21 + v1 * 2 ^ 16 + v2 * 2 ^ 11 + v3 * 2 ^ 8 + v4 * 2 ^ 7 = word) : Sys2Proof.fld word 1 3 = Sys2Proof.fld m 1 3 := by
  subst h; exact (above _ _ 7 1 3 (by decide)).trans ((above _ _ 8 1 3 (by decide)).trans ((above _ _ 11 1 3 (by decide)).trans ((above _ _ 16 1 3 (by decide)).trans ((above _ _ 21 1 3 (by decide)).trans (rfl)))))
theorem bits0w1_of_21w5_16w5_11w5_8w3_7w1 (m v0 v1 v2 v3 v4 word : Nat) (h : m + v0 * 2 ^ 21 + v1 * 2 ^ 16 + v2 * 2 ^ 11 + v3 * 2 ^ 8 + v4 * 2 ^ 7 = word) : Sys2Proof.fld word 0 1 = Sys2Proof.fld m 0 1 := by
  subst h; exact (above _ _ 7 0 1 (by decide)).trans ((above _ _ 8 0 1 (by decide)).trans ((above _ _ 11 0 1 (by decide)).trans ((above _ _ 16 0 1 (by decide)).trans ((above _ _ 21 0 1 (by decide)).trans (rfl)))))
theorem bits26w6_of_21w5_16w5_11w5_8w3_1w3 (m v0 v1 v2 v3 v4 word : Nat) (h : m + v0 * 2 ^ 21 + v1 * 2 ^ 16 + v2 * 2 ^ 11 + v3 * 2 ^ 8 + v4 * 2 ^ 1 = word) (b0 : v0 < 2 ^ 5) (b1 : v1 < 2 ^ 5) (b2 : v2 < 2 ^ 5) (b3 : v3 < 2 ^ 3) (b4 : v4 < 2 ^ 3) (g0 : Sys2Proof.fld m 21 5 = 0) (g1 : Sys2Proof.fld m 16 5 = 0) (g2 : Sys2Proof.fld m 11 5 = 0) (g3 : Sys2Proof.fld m 8 3 = 0) (g4 : Sys2Proof.fld m 1 3 = 0) : Sys2Proof.fld word 26 6 = Sys2Proof.fld m 26 6 := by
  subst h; exact (below _ _ 1 3 26 6 (by decide) b4 ((above _ _ 8 1 3 (by decide)).trans ((above _ _ 11 1 3 (by decide)).trans ((above _ _ 16 1 3 (by decide)).trans ((above _ _ 21 1 3 (by decide)).trans (g4)))))).trans ((below _ _ 8 3 26 6 (by decide) b3 ((above _ _ 11 8 3 (by decide)).trans ((above _ _ 16 8 3 (by decide)).trans ((above _ _ 21 8 3 (by decide)).trans (g3))))).trans ((below _ _ 11 5 26 6 (by decide) b2 ((above _ _ 16 11 5 (by decide)).trans ((above _ _ 21 11 5 (by decide)).trans (g2)))).trans ((below _ _ 16 5 26 6 (by decide) b1 ((above _ _ 21 16 5 (by decide)).trans (g1))).trans ((below _ _ 21 5 26 6 (by decide) b0 (g0)).trans (rfl)))))
theorem bits0w7_of_21w5_16w5_11w5_8w3_1w3 (m v0 v1 v2 v3 v4 word : Nat) (h : m + v0 * 2 ^ 21 + v1 * 2 ^ 16 + v2 * 2 ^ 11 + v3 * 2 ^ 8 + v4 * 2 ^ 1 = word) (b4 : v4 < 2 ^ 3) (g4 : Sys2Proof.fld m 1 3 = 0) : Sys2Proof.fld word 0 7 = Sys2Proof.fld m 0 7 + v4 * 2 ^ 1 := by
  subst h; exact (inside _ _ 1 3 0 7 (by decide) (by decide) b4 ((above _ _ 8 1 3 (by decide)).trans ((above _ _ 11 1 3 (by decide)).trans ((above _ _ 16 1 3 (by decide)).trans ((above _ _ 21 1 3 (by decide)).trans (g4)))))).trans (congrArg (· + v4 * 2 ^ 1) ((above _ _ 8 0 7 (by decide)).trans ((above _ _ 11 0 7 (by decide)).trans ((above _ _ 16 0 7 (by decide)).trans ((above _ _ 21 0 7 (by decide)).trans (rfl))))))
theorem bits4w4_of_21w5_16w5_11w5_8w3_1w3 (m v0 v1 v2 v3 v4 word : Nat) (h : m + v0 * 2 ^ 21 + v1 * 2 ^ 16 + v2 * 2 ^ 11 + v3 * 2 ^ 8 + v4 * 2 ^ 1 = word) (b4 : v4 < 2 ^ 3) (g4 : Sys2Proof.fld m 1 3 = 0) : Sys2Proof.fld word 4 4 = Sys2Proof.fld m 4 4 := by
  subst h; exact (below _ _ 1 3 4 4 (by decide) b4 ((above _ _ 8 1 3 (by decide)).trans ((above _ _ 11 1 3 (by decide)).trans ((above _ _ 16 1 3 (by decide)).trans ((above _ _ 21 1 3 (by decide)).trans (g4)))))).trans ((above _ _ 8 4 4 (by decide)).trans ((above _ _ 11 4 4 (by decide)).trans ((above _ _ 16 4 4 (by decide)).trans ((above _ _ 21 4 4 (by decide)).trans (rfl)))))
theorem bits1w3_of_21w5_16w5_11w5_8w3_1w3 (m v0 v1 v2 v3 v4 word : Nat) (h : m + v0 * 2 ^ 21 + v1 * 2 ^ 16 + v2 * 2 ^ 11 + v3 * 2 ^ 8 + v4 * 2 ^ 1 = word) (b4 : v4 < 2 ^ 3) (g4 : Sys2Proof.fld m 1 3 = 0) : Sys2Proof.fld word 1 3 = v4 := by
  subst h; exact here _ _ 1 3 b4 ((above _ _ 8 1 3 (by decide)).trans ((above _ _ 11 1 3 (by decide)).trans ((above _ _ 16 1 3 (by decide)).trans ((above _ _ 21 1 3 (by decide)).trans (g4)))))
theorem bits0w1_of_21w5_16w5_11w5_8w3_1w3 (m v0 v1 v2 v3 v4 word : Nat) (h : m + v0 * 2 ^ 21 + v1 * 2 ^ 16 + v2 * 2 ^ 11 + v3 * 2 ^ 8 + v4 * 2 ^ 1 = word) : Sys2Proof.fld word 0 1 = Sys2Proof.fld m 0 1 := by
  subst h; exact (above _ _ 1 0 1 (by decide)).trans ((above _ _ 8 0 1 (by decide)).trans ((above _ _ 11 0 1 (by decide)).trans ((above _ _ 16 0 1 (by decide)).trans ((above _ _ 21 0 1 (by decide)).trans (rfl)))))
theorem bits21w5_of_21w5_16w5_11w5_8w3_1w3 (m v0 v1 v2 v3 v4 word : Nat) (h : m + v0 * 2 ^ 21 + v1 * 2 ^ 16 + v2 * 2 ^ 11 + v3 * 2 ^ 8 + v4 * 2 ^ 1 = word) (b0 : v0 < 2 ^ 5) (b1 : v1 < 2 ^ 5) (b2 : v2 < 2 ^ 5) (b3 : v3 < 2 ^ 3) (b4 : v4 < 2 ^ 3) (g0 : Sys2Proof.fld m 21 5 = 0) (g1 : Sys2Proof.fld m 16 5 = 0) (g2 : Sys2Proof.fld m 11 5 = 0) (g3 : Sys2Proof.fld m 8 3 = 0) (g4 : Sys2Proof.fld m 1 3 = 0) : Sys2Proof.fld word 21 5 = v0 := by
  subst h; exact (below _ _ 1 3 21 5 (by decide) b4 ((above _ _ 8 1 3 (by decide)).trans ((above _ _ 11 1 3 (by decide)).trans ((above _ _ 16 1 3 (by decide)).trans ((above _ _ 21 1 3 (by decide)).trans (g4)))))).trans ((below _ _ 8 3 21 5 (by decide) b3 ((above _ _ 11 8 3 (by decide)).trans ((above _ _ 16 8 3 (by decide)).trans ((above _ _ 21 8 3 (by decide)).trans (g3))))).trans ((below _ _ 11 5 21 5 (by decide) b2 ((above _ _ 16 11 5 (by decide)).trans ((above _ _ 21 11 5 (by decide)).trans (g2)))).trans ((below _ _ 16 5 21 5 (by decide) b1 ((above _ _ 21 16 5 (by decide)).trans (g1))).trans (here _ _ 21 5 b0 (g0)))))
theorem bits16w5_of_21w5_16w5_11w5_8w3_1w3 (m v0 v1 v2 v3 v4 word : Nat) (h : m + v0 * 2 ^ 21 + v1 * 2 ^ 16 + v2 * 2 ^ 11 + v3 * 2 ^ 8 + v4 * 2 ^ 1 = word) (b1 : v1 < 2 ^ 5) (b2 : v2 < 2 ^ 5) (b3 : v3 < 2 ^ 3) (b4 : v4 < 2 ^ 3) (g1 : Sys2Proof.fld m 16 5 = 0) (g2 : Sys2Proof.fld m 11 5 = 0) (g3 : Sys2Proof.fld m 8 3 = 0) (g4 : Sys2Proof.fld m 1 3 = 0) : Sys2Proof.fld word 16 5 = v1 := by
  subst h; exact (below _ _ 1 3 16 5 (by decide) b4 ((above _ _ 8 1 3 (by decide)).trans ((above _ _ 11 1 3 (by decide)).trans ((above _ _ 16 1 3 (by decide)).trans ((above _ _ 21 1 3 (by decide)).trans (g4)))))).trans ((below _ _ 8 3 16 5 (by decide) b3 ((above _ _ 11 8 3 (by decide)).trans ((above _ _ 16 8 3 (by decide)).trans ((above _ _ 21 8 3 (by decide)).trans (g3))))).trans ((below _ _ 11 5 16 5 (by decide) b2 ((above _ _ 16 11 5 (by decide)).trans ((above _ _ 21 11 5 (by decide)).trans (g2)))).trans (here _ _ 16 5 b1 ((above _ _ 21 16 5 (by decide)).trans (g1)))))
theorem bits11w5_of_21w5_16w5_11w5_8w3_1w3 (m v0 v1 v2 v3 v4 word : Nat) (h : m + v0 * 2 ^ 21 + v1 * 2 ^ 16 + v2 * 2 ^ 11 + v3 * 2 ^ 8 + v4 * 2 ^ 1 = word) (b2 : v2 < 2 ^ 5) (b3 : v3 < 2 ^ 3) (b4 : v4 < 2 ^ 3) (g2 : Sys2Proof.fld m 11 5 = 0) (g3 : Sys2Proof.fld m 8 3 = 0) (g4 : Sys2Proof.fld m 1 3 = 0) : Sys2Proof.fld word 11 5 = v2 := by
  subst h; exact (below _ _ 1 3 11 5 (by decide) b4 ((above _ _ 8 1 3 (by decide)).trans ((above _ _ 11 1 3 (by decide)).trans ((above _ _ 16 1 3 (by decide)).trans ((above _ _ 21 1 3 (by decide)).trans (g4)))))).trans ((below _ _ 8 3 11 5 (by decide) b3 ((above _ _ 11 8 3 (by decide)).trans ((above _ _ 16 8 3 (by decide)).trans ((above _ _ 21 8 3 (by decide)).trans (g3))))).trans (here _ _ 11 5 b2 ((above _ _ 16 11 5 (by decide)).trans ((above _ _ 21 11 5 (by decide)).trans (g2)))))
theorem bits8w3_of_21w5_16w5_11w5_8w3_1w3 (m v0 v1 v2 v3 v4 word : Nat) (h : m + v0 * 2 ^ 21 + v1 * 2 ^ 16 + v2 * 2 ^ 11 + v3 * 2 ^ 8 + v4 * 2 ^ 1 = word) (b3 : v3 < 2 ^ 3) (b4 : v4 < 2 ^ 3) (g3 : Sys2Proof.fld m 8 3 = 0) (g4 : Sys2Proof.fld m 1 3 = 0) : Sys2Proof.fld word 8 3 = v3 := by
  subst h; exact (below _ _ 1 3 8 3 (by decide) b4 ((above _ _ 8 1 3 (by decide)).trans ((above _ _ 11 1 3 (by decide)).trans ((above _ _ 16 1 3 (by decide)).trans ((above _ _ 21 1 3 (by decide)).trans (g4)))))).trans (here _ _ 8 3 b3 ((above _ _ 11 8 3 (by decide)).trans ((above _ _ 16 8 3 (by decide)).trans ((above _ _ 21 8 3 (by decide)).trans (g3)))))
theorem bits0w7_of_21w5_16w5_11w5_8w3 (m v0 v1 v2 v3 word : Nat) (h : m + v0 * 2 ^ 21 + v1 * 2 ^ 16 + v2 * 2 ^ 11 + v3 * 2 ^ 8 = word) : Sys2Proof.fld word 0 7 = Sys2Proof.fld m 0 7 := by
  subst h; exact (above _ _ 8 0 7 (by decide)).trans ((above _ _ 11 0 7 (by decide)).trans ((above _ _ 16 0 7 (by decide)).trans ((above _ _ 21 0 7 (by decide)).trans (rfl))))
theorem bits26w6_of_21w3_16w5_11w5_8w3 (m v0 v1 v2 v3 word : Nat) (h : m + v0 * 2 ^ 21 + v1 * 2 ^ 16 + v2 * 2 ^ 11 + v3 * 2 ^ 8 = word) (b0 : v0 < 2 ^ 3) (b1 : v1 < 2 ^ 5) (b2 : v2 < 2 ^ 5) (b3 : v3 < 2 ^ 3) (g0 : Sys2Proof.fld m 21 3 = 0) (g1 : Sys2Proof.fld m 16 5 = 0) (g2 : Sys2Proof.fld m 11 5 = 0) (g3 : Sys2Proof.fld m 8 3 = 0) : Sys2Proof.fld word 26 6 = Sys2Proof.fld m 26 6 := by
  subst h; exact (below _ _ 8 3 26 6 (by decide) b3 ((above _ _ 11 8 3 (by decide)).trans ((above _ _ 16 8 3 (by decide)).trans ((above _ _ 21 8 3 (by decide)).trans (g3))))).trans ((below _ _ 11 5 26 6 (by decide) b2 ((above _ _ 16 11 5 (by decide)).trans ((above _ _ 21 11 5 (by decide)).trans (g2)))).trans ((below _ _ 16 5 26 6 (by decide) b1 ((above _ _ 21 16 5 (by decide)).trans (g1))).trans ((below _ _ 21 3 26 6 (by decide) b0 (g0)).trans (rfl))))
theorem bits0w7_of_21w3_16w5_11w5_8w3 (m v0 v1 v2 v3 word : Nat) (h : m + v0 * 2 ^ 21 + v1 * 2 ^ 16 + v2 * 2 ^ 11 + v3 * 2 ^ 8 = word) : Sys2Proof.fld word 0 7 = Sys2Proof.fld m 0 7 := by
  subst h; exact (above _ _ 8 0 7 (by decide)).trans ((above _ _ 11 0 7 (by decide)).trans ((above _ _ 16 0 7 (by decide)).trans ((above _ _ 21 0 7 (by decide)).trans (rfl))))
theorem bits0w8_of_21w3_16w5_11w5_8w3 (m v0 v1 v2 v3 word : Nat) (h : m + v0 * 2 ^ 21 + v1 * 2 ^ 16 + v2 * 2 ^ 11 + v3 * 2 ^ 8 = word) : Sys2Proof.fld word 0 8 = Sys2Proof.fld m 0 8 := by
  subst h; exact (above _ _ 8 0 8 (by decide)).trans ((above _ _ 11 0 8 (by decide)).trans ((above _ _ 16 0 8 (by decide)).trans ((above _ _ 21 0 8 (by decide)).trans (rfl))))
theorem bits24w2_of_21w3_16w5_11w5_8w3 (m v0 v1 v2 v3 word : Nat) (h : m + v0 * 2 ^ 21 + v1 * 2 ^ 16 + v2 * 2 ^ 11 + v3 * 2 ^ 8 = word) (b0 : v0 < 2 ^ 3) (b1 : v1 < 2 ^ 5) (b2 : v2 < 2 ^ 5) (b3 : v3 < 2 ^ 3) (g0 : Sys2Proof.fld m 21 3 = 0) (g1 : Sys2Proof.fld m 16 5 = 0) (g2 : Sys2Proof.fld m 11 5 = 0) (g3 : Sys2Proof.fld m 8 3 = 0) : Sys2Proof.fld word 24 2 = Sys2Proof.fld m 24 2 := by
  subst h; exact (below _ _ 8 3 24 2 (by decide) b3 ((above _ _ 11 8 3 (by decide)).trans ((above _ _ 16 8 3 (by decide)).trans ((above _ _ 21 8 3 (by decide)).trans (g3))))).trans ((below _ _ 11 5 24 2 (by decide) b2 ((above _ _ 16 11 5 (by decide)).trans ((above _ _ 21 11 5 (by decide)).trans (g2)))).trans ((below _ _ 16 5 24 2 (by decide) b1 ((above _ _ 21 16 5 (by decide)).trans (g1))).trans ((below _ _ 21 3 24 2 (by decide) b0 (g0)).trans (rfl))))
theorem bits21w3_of_21w3_16w5_11w5_8w3 (m v0 v1 v2 v3 word : Nat) (h : m + v0 * 2 ^ 21 + v1 * 2 ^ 16 + v2 * 2 ^ 11 + v3 * 2 ^ 8 = word) (b0 : v0 < 2 ^ 3) (b1 : v1 < 2 ^ 5) (b2 : v2 < 2 ^ 5) (b3 : v3 < 2 ^ 3) (g0 : Sys2Proof.fld m 21 3 = 0) (g1 : Sys2Proof.fld m 16 5 = 0) (g2 : Sys2Proof.fld m 11 5 = 0) (g3 : Sys2Proof.fld m 8 3 = 0) : Sys2Proof.fld word 21 3 = v0 := by
  subst h; exact (below _ _ 8 3 21 3 (by decide) b3 ((above _ _ 11 8 3 (by decide)).trans ((above _ _ 16 8 3 (by decide)).trans ((above _ _ 21 8 3 (by decide)).trans (g3))))).trans ((below _ _ 11 5 21 3 (by decide) b2 ((above _ _ 16 11 5 (by decide)).trans ((above _ _ 21 11 5 (by decide)).trans (g2)))).trans ((below _ _ 16 5 21 3 (by decide) b1 ((above _ _ 21 16 5 (by decide)).trans (g1))).trans (here _ _ 21 3 b0 (g0))))
theorem bits16w5_of_21w3_16w5_11w5_8w3 (m v0 v1 v2 v3 word : Nat) (h : m + v0 * 2 ^ 21 + v1 * 2 ^ 16 + v2 * 2 ^ 11 + v3 * 2 ^ 8 = word) (b1 : v1 < 2 ^ 5) (b2 : v2 < 2 ^ 5) (b3 : v3 < 2 ^ 3) (g1 : Sys2Proof.fld m 16 5 = 0) (g2 : Sys2Proof.fld m 11 5 = 0) (g3 : Sys2Proof.fld m 8 3 = 0) : Sys2Proof.fld word 16 5 = v1 := by
  subst h; exact (below _ _ 8 3 16 5 (by decide) b3 ((above _ _ 11 8 3 (by decide)).trans ((above _ _ 16 8 3 (by decide)).trans ((above _ _ 21 8 3 (by decide)).trans (g3))))).trans ((below _ _ 11 5 16 5 (by decide) b2 ((above _ _ 16 11 5 (by decide)).trans ((above _ _ 21 11 5 (by decide)).trans (g2)))).trans (here _ _ 16 5 b1 ((above _ _ 21 16 5 (by decide)).trans (g1))))
theorem bits11w5_of_21w3_16w5_11w5_8w3 (m v0 v1 v2 v3 word : Nat) (h : m + v0 * 2 ^ 21 + v1 * 2 ^ 16 + v2 * 2 ^ 11 + v3 * 2 ^ 8 = word) (b2 : v2 < 2 ^ 5) (b3 : v3 < 2 ^ 3) (g2 : Sys2Proof.fld m 11 5 = 0) (g3 : Sys2Proof.fld m 8 3 = 0) : Sys2Proof.fld word 11 5 = v2 := by
  subst h; exact (below _ _ 8 3 11 5 (by decide) b3 ((above _ _ 11 8 3 (by decide)).trans ((above _ _ 16 8 3 (by decide)).trans ((above _ _ 21 8 3 (by decide)).trans (g3))))).trans (here _ _ 11 5 b2 ((above _ _ 16 11 5 (by decide)).trans ((above _ _ 21 11 5 (by decide)).trans (g2))))
theorem bits8w3_of_21w3_16w5_11w5_8w3 (m v0 v1 v2 v3 word : Nat) (h : m + v0 * 2 ^ 21 + v1 * 2 ^ 16 + v2 * 2 ^ 11 + v3 * 2 ^ 8 = word) (b3 : v3 < 2 ^ 3) (g3 : Sys2Proof.fld m 8 3 = 0) : Sys2Proof.fld word 8 3 = v3 := by
  subst h; exact here _ _ 8 3 b3 ((above _ _ 11 8 3 (by decide)).trans ((above _ _ 16 8 3 (by decide)).trans ((above _ _ 21 8 3 (by decide)).trans (g3))))
theorem bits26w6_of_21w3_16w5_11w5_8w3_7w1 (m v0 v1 v2 v3 v4 word : Nat) (h : m + v0 * 2 ^ 21 + v1 * 2 ^ 16 + v2 * 2 ^ 11 + v3 * 2 ^ 8 + v4 * 2 ^ 7 = word) (b0 : v0 < 2 ^ 3) (b1 : v1 < 2 ^ 5) (b2 : v2 < 2 ^ 5) (b3 : v3 < 2 ^ 3) (b4 : v4 < 2 ^ 1) (g0 : Sys2Proof.fld m 21 3 = 0) (g1 : Sys2Proof.fld m 16 5 = 0) (g2 : Sys2Proof.fld m 11 5 = 0) (g3 : Sys2Proof.fld m 8 3 = 0) (g4 : Sys2Proof.fld m 7 1 = 0) : Sys2Proof.fld word 26 6 = Sys2Proof.fld m 26 6 := by
  subst h; exact (below _ _ 7 1 26 6 (by decide) b4 ((above _ _ 8 7 1 (by decide)).trans ((above _ _ 11 7 1 (by decide)).trans ((above _ _ 16 7 1 (by decide)).trans ((above _ _ 21 7 1 (by decide)).trans (g4)))))).trans ((below _ _ 8 3 26 6 (by decide) b3 ((above _ _ 11 8 3 (by decide)).trans ((above _ _ 16 8 3 (by decide)).trans ((above _ _ 21 8 3 (by decide)).trans (g3))))).trans ((below _ _ 11 5 26 6 (by decide) b2 ((above _ _ 16 11 5 (by decide)).trans ((above _ _ 21 11 5 (by decide)).trans (g2)))).trans ((below _ _ 16 5 26 6 (by decide) b1 ((above _ _ 21 16 5 (by decide)).trans (g1))).trans ((below _ _ 21 3 26 6 (by decide) b0 (g0)).trans (rfl)))))
theorem bits0w7_of_21w3_16w5_11w5_8w3_7w1 (m v0 v1 v2 v3 v4 word : Nat) (h : m + v0 * 2 ^ 21 + v1 * 2 ^ 16 + v2 * 2 ^ 11 + v3 * 2 ^ 8 + v4 * 2 ^ 7 = word) : Sys2Proof.fld word 0 7 = Sys2Proof.fld m 0 7 := by
  subst h; exact (above _ _ 7 0 7 (by decide)).trans ((above _ _ 8 0 7 (by decide)).trans ((above _ _ 11 0 7 (by decide)).trans ((above _ _ 16 0 7 (by decide)).trans ((above _ _ 21 0 7 (by decide)).trans (rfl)))))
theorem bits0w8_of_21w3_16w5_11w5_8w3_7w1 (m v0 v1 v2 v3 v4 word : Nat) (h : m + v0 * 2 ^ 21 + v1 * 2 ^ 16 + v2 * 2 ^ 11 + v3 * 2 ^ 8 + v4 * 2 ^ 7 = word) (b4 : v4 < 2 ^ 1) (g4 : Sys2Proof.fld m 7 1 = 0) : Sys2Proof.fld word 0 8 = Sys2Proof.fld m 0 8 + v4 * 2 ^ 7 := by
  subst h; exact (inside _ _ 7 1 0 8 (by decide) (by decide) b4 ((above _ _ 8 7 1 (by decide)).trans ((above _ _ 11 7 1 (by decide)).trans ((above _ _ 16 7 1 (by decide)).trans ((above _ _ 21 7 1 (by decide)).trans (g4)))))).trans (congrArg (· + v4 * 2 ^ 7) ((above _ _ 8 0 8 (by decide)).trans ((above _ _ 11 0 8 (by decide)).trans ((above _ _ 16 0 8 (by decide)).trans ((above _ _ 21 0 8 (by decide)).trans (rfl))))))
theorem bits24w2_of_21w3_16w5_11w5_8w3_7w1 (m v0 v1 v2 v3 v4 word : Nat) (h : m + v0 * 2 ^ 21 + v1 * 2 ^ 16 + v2 * 2 ^ 11 + v3 * 2 ^ 8 + v4 * 2 ^ 7 = word) (b0 : v0 < 2 ^ 3) (b1 : v1 < 2 ^ 5) (b2 : v2 < 2 ^ 5) (b3 : v3 < 2 ^ 3) (b4 : v4 < 2 ^ 1) (g0 : Sys2Proof.fld m 21 3 = 0) (g1 : Sys2Proof.fld m 16 5 = 0) (g2 : Sys2Proof.fld m 11 5 = 0) (g3 : Sys2Proof.fld m 8 3 = 0) (g4 : Sys2Proof.fld m 7 1 = 0) : Sys2Proof.fld word 24 2 = Sys2Proof.fld m 24 2 := by
  subst h; exact (below _ _ 7 1 24 2 (by decide) b4 ((above _ _ 8 7 1 (by decide)).trans ((above _ _ 11 7 1 (by decide)).trans ((above _ _ 16 7 1 (by decide)).trans ((above _ _ 21 7 1 (by decide)).trans (g4)))))).trans ((below _ _ 8 3 24 2 (by decide) b3 ((above _ _ 11 8 3 (by decide)).trans ((above _ _ 16 8 3 (by decide)).trans ((above _ _ 21 8 3 (by decide)).trans (g3))))).trans ((below _ _ 11 5 24 2 (by decide) b2 ((above _ _ 16 11 5 (by decide)).trans ((above _ _ 21 11 5 (by decide)).trans (g2)))).trans ((below _ _ 16 5 24 2 (by decide) b1 ((above _ _ 21 16 5 (by decide)).trans (g1))).trans ((below _ _ 21 3 24 2 (by decide) b0 (g0)).trans (rfl)))))
theorem bits21w3_of_21w3_16w5_11w5_8w3_7w1 (m v0 v1 v2 v3 v4 word : Nat) (h : m + v0 * 2 ^ 21 + v1 * 2 ^ 16 + v2 * 2 ^ 11 + v3 * 2 ^ 8 + v4 * 2 ^ 7 = word) (b0 : v0 < 2 ^ 3) (b1 : v1 < 2 ^ 5) (b2 : v2 < 2 ^ 5) (b3 : v3 < 2 ^ 3) (b4 : v4 < 2 ^ 1) (g0 : Sys2Proof.fld m 21 3 = 0) (g1 : Sys2Proof.fld m 16 5 = 0) (g2 : Sys2Proof.fld m 11 5 = 0) (g3 : Sys2Proof.fld m 8 3 = 0) (g4 : Sys2Proof.fld m 7 1 = 0) : Sys2Proof.fld word 21 3 = v0 := by
  subst h; exact (below _ _ 7 1 21 3 (by decide) b4 ((above _ _ 8 7 1 (by decide)).trans ((above _ _ 11 7 1 (by decide)).trans ((above _ _ 16 7 1 (by decide)).trans ((above _ _ 21 7 1 (by decide)).trans (g4)))))).trans ((below _ _ 8 3 21 3 (by decide) b3 ((above _ _ 11 8 3 (by decide)).trans ((above _ _ 16 8 3 (by decide)).trans ((above _ _ 21 8 3 (by decide)).trans (g3))))).trans ((below _ _ 11 5 21 3 (by decide) b2 ((above _ _ 16 11 5 (by decide)).trans ((above _ _ 21 11 5 (by decide)).trans (g2)))).trans ((below _ _ 16 5 21 3 (by decide) b1 ((above _ _ 21 16 5 (by decide)).trans (g1))).trans (here _ _ 21 3 b0 (g0)))))
theorem bits16w5_of_21w3_16w5_11w5_8w3_7w1 (m v0 v1 v2 v3 v4 word : Nat) (h : m + v0 * 2 ^ 21 + v1 * 2 ^ 16 + v2 * 2 ^ 11 + v3 * 2 ^ 8 + v4 * 2 ^ 7 = word) (b1 : v1 < 2 ^ 5) (b2 : v2 < 2 ^ 5) (b3 : v3 < 2 ^ 3) (b4 : v4 < 2 ^ 1) (g1 : Sys2Proof.fld m 16 5 = 0) (g2 : Sys2Proof.fld m 11 5 = 0) (g3 : Sys2Proof.fld m 8 3 = 0) (g4 : Sys2Proof.fld m 7 1 = 0) : Sys2Proof.fld word 16 5 = v1 := by
  subst h; exact (below _ _ 7 1 16 5 (by decide) b4 ((above _ _ 8 7 1 (by decide)).trans ((above _ _ 11 7 1 (by decide)).trans ((above _ _ 16 7 1 (by decide)).trans ((above _ _ 21 7 1 (by decide)).trans (g4)))))).trans ((below _ _ 8 3 16 5 (by decide) b3 ((above _ _ 11 8 3 (by decide)).trans ((above _ _ 16 8 3 (by decide)).trans ((above _ _ 21 8 3 (by decide)).trans (g3))))).trans ((below _ _ 11 5 16 5 (by decide) b2 ((above _ _ 16 11 5 (by decide)).trans ((above _ _ 21 11 5 (by decide)).trans (g2)))).trans (here _ _ 16 5 b1 ((above _ _ 21 16 5 (by decide)).trans (g1)))))
theorem bits11w5_of_21w3_16w5_11w5_8w3_7w1 (m v0 v1 v2 v3 v4 word : Nat) (h : m + v0 * 2 ^ 21 + v1 * 2 ^ 16 + v2 * 2 ^ 11 + v3 * 2 ^ 8 + v4 * 2 ^ 7 = word) (b2 : v2 < 2 ^ 5) (b3 : v3 < 2 ^ 3) (b4 : v4 < 2 ^ 1) (g2 : Sys2Proof.fld m 11 5 = 0) (g3 : Sys2Proof.fld m 8 3 = 0) (g4 : Sys2Proof.fld m 7 1 = 0) : Sys2Proof.fld word 11 5 = v2 := by
  subst h; exact (below _ _ 7 1 11 5 (by decide) b4 ((above _ _ 8 7 1 (by decide)).trans ((above _ _ 11 7 1 (by decide)).trans ((above _ _ 16 7 1 (by decide)).trans ((above _ _ 21 7 1 (by decide)).trans (g4)))))).trans ((below _ _ 8 3 11 5 (by decide) b3 ((above _ _ 11 8 3 (by decide)).trans ((above _ _ 16 8 3 (by decide)).trans ((above _ _ 21 8 3 (by decide)).trans (g3))))).trans (here _ _ 11 5 b2 ((above _ _ 16 11 5 (by decide)).trans ((above _ _ 21 11 5 (by decide)).trans (g2)))))
theorem bits8w3_of_21w3_16w5_11w5_8w3_7w1 (m v0 v1 v2 v3 v4 word : Nat) (h : m + v0 * 2 ^ 21 + v1 * 2 ^ 16 + v2 * 2 ^ 11 + v3 * 2 ^ 8 + v4 * 2 ^ 7 = word) (b3 : v3 < 2 ^ 3) (b4 : v4 < 2 ^ 1) (g3 : Sys2Proof.fld m 8 3 = 0) (g4 : Sys2Proof.fld m 7 1 = 0) : Sys2Proof.fld word 8 3 = v3 := by
  subst h; exact (below _ _ 7 1 8 3 (by decide) b4 ((above _ _ 8 7 1 (by decide)).trans ((above _ _ 11 7 1 (by decide)).trans ((above _ _ 16 7 1 (by decide)).trans ((above _ _ 21 7 1 (by decide)).trans (g4)))))).trans (here _ _ 8 3 b3 ((above _ _ 11 8 3 (by decide)).trans ((above _ _ 16 8 3 (by decide)).trans ((above _ _ 21 8 3 (by decide)).trans (g3)))))
theorem bits7w1_of_21w3_16w5_11w5_8w3_7w1 (m v0 v1 v2 v3 v4 word : Nat) (h : m + v0 * 2 ^ 21 + v1 * 2 ^ 16 + v2 * 2 ^ 11 + v3 * 2 ^ 8 + v4 * 2 ^ 7 = word) (b4 : v4 < 2 ^ 1) (g4 : Sys2Proof.fld m 7 1 = 0) : Sys2Proof.fld word 7 1 = v4 := by
  subst h; exact here _ _ 7 1 b4 ((above _ _ 8 7 1 (by decide)).trans ((above _ _ 11 7 1 (by decide)).trans ((above _ _ 16 7 1 (by decide)).trans ((above _ _ 21 7 1 (by decide)).trans (g4)))))
theorem bits0w7_of_21w5_16w5 (m v0 v1 word : Nat) (h : m + v0 * 2 ^ 21 + v1 * 2 ^ 16 = word) : Sys2Proof.fld word 0 7 = Sys2Proof.fld m 0 7 := by
  subst h; exact (above _ _ 16 0 7 (by decide)).trans ((above _ _ 21 0 7 (by decide)).trans (rfl))
theorem bits0w8_of_21w5_16w5 (m v0 v1 word : Nat) (h : m + v0 * 2 ^ 21 + v1 * 2 ^ 16 = word) : Sys2Proof.fld word 0 8 = Sys2Proof.fld m 0 8 := by
  subst h; exact (above _ _ 16 0 8 (by decide)).trans ((above _ _ 21 0 8 (by decide)).trans (rfl))
theorem bits26w6_of_21w5_11w5 (m v0 v1 word : Nat) (h : m + v0 * 2 ^ 21 + v1 * 2 ^ 11 = word) (b0 : v0 < 2 ^ 5) (b1 : v1 < 2 ^ 5) (g0 : Sys2Proof.fld m 21 5 = 0) (g1 : Sys2Proof.fld m 11 5 = 0) : Sys2Proof.fld word 26 6 = Sys2Proof.fld m 26 6 := by
  subst h; exact (below _ _ 11 5 26 6 (by decide) b1 ((above _ _ 21 11 5 (by decide)).trans (g1))).trans ((below _ _ 21 5 26 6 (by decide) b0 (g0)).trans (rfl))
theorem bits0w7_of_21w5_11w5 (m v0 v1 word : Nat) (h : m + v0 * 2 ^ 21 + v1 * 2 ^ 11 = word) : Sys2Proof.fld word 0 7 = Sys2Proof.fld m 0 7 := by
  subst h; exact (above _ _ 11 0 7 (by decide)).trans ((above _ _ 21 0 7 (by decide)).trans (rfl))
theorem bits0w8_of_21w5_11w5 (m v0 v1 word : Nat) (h : m + v0 * 2 ^ 21 + v1 * 2 ^ 11 = word) : Sys2Proof.fld word 0 8 = Sys2Proof.fld m 0 8 := by
  subst h; exact (above _ _ 11 0 8 (by decide)).trans ((above _ _ 21 0 8 (by decide)).trans (rfl))
theorem bits16w5_of_21w5_11w5 (m v0 v1 word : Nat) (h : m + v0 * 2 ^ 21 + v1 * 2 ^ 11 = word) (b1 : v1 < 2 ^ 5) (g1 : Sys2Proof.fld m 11 5 = 0) : Sys2Proof.fld word 16 5 = Sys2Proof.fld m 16 5 := by
  subst h; exact (below _ _ 11 5 16 5 (by decide) b1 ((above _ _ 21 11 5 (by decide)).trans (g1))).trans ((above _ _ 21 16 5 (by decide)).trans (rfl))
theorem bits8w3_of_21w5_11w5 (m v0 v1 word : Nat) (h : m + v0 * 2 ^ 21 + v1 * 2 ^ 11 = word) : Sys2Proof.fld word 8 3 = Sys2Proof.fld m 8 3 := by
  subst h; exact (above _ _ 11 8 3 (by decide)).trans ((above _ _ 21 8 3 (by decide)).trans (rfl))
theorem bits21w5_of_21w5_11w5 (m v0 v1 word : Nat) (h : m + v0 * 2 ^ 21 + v1 * 2 ^ 11 = word) (b0 : v0 < 2 ^ 5) (b1 : v1 < 2 ^ 5) (g0 : Sys2Proof.fld m 21 5 = 0) (g1 : Sys2Proof.fld m 11 5 = 0) : Sys2Proof.fld word 21 5 = v0 := by
  subst h; exact (below _ _ 11 5 21 5 (by decide) b1 ((above _ _ 21 11 5 (by decide)).trans (g1))).trans (here _ _ 21 5 b0 (g0))
theorem bits11w5_of_21w5_11w5 (m v0 v1 word : Nat) (h : m + v0 * 2 ^ 21 + v1 * 2 ^ 11 = word) (b1 : v1 < 2 ^ 5) (g1 : Sys2Proof.fld m 11 5 = 0) : Sys2Proof.fld word 11 5 = v1 := by
  subst h; exact here _ _ 11 5 b1 ((above _ _ 21 11 5 (by decide)).trans (g1))
theorem bits0w7_of_21w5_8w3 (m v0 v1 word : Nat) (h : m + v0 * 2 ^ 21 + v1 * 2 ^ 8 = word) : Sys2Proof.fld word 0 7 = Sys2Proof.fld m 0 7 := by
  subst h; exact (above _ _ 8 0 7 (by decide)).trans ((above _ _ 21 0 7 (by decide)).trans (rfl))
theorem bits0w8_of_21w5_8w3 (m v0 v1 word : Nat) (h : m + v0 * 2 ^ 21 + v1 * 2 ^ 8 = word) : Sys2Proof.fld word 0 8 = Sys2Proof.fld m 0 8 := by
  subst h; exact (above _ _ 8 0 8 (by decide)).trans ((above _ _ 21 0 8 (by decide)).trans (rfl))
theorem bits26w6_of_21w3_16w3_11w3 (m v0 v1 v2 word : Nat) (h : m + v0 * 2 ^ 21 + v1 * 2 ^ 16 + v2 * 2 ^ 11 = word) (b0 : v0 < 2 ^ 3) (b1 : v1 < 2 ^ 3) (b2 : v2 < 2 ^ 3) (g0 : Sys2Proof.fld m 21 3 = 0) (g1 : Sys2Proof.fld m 16 3 = 0) (g2 : Sys2Proof.fld m 11 3 = 0) : Sys2Proof.fld word 26 6 = Sys2Proof.fld m 26 6 := by
  subst h; exact (below _ _ 11 3 26 6 (by decide) b2 ((above _ _ 16 11 3 (by decide)).trans ((above _ _ 21 11 3 (by decide)).trans (g2)))).trans ((below _ _ 16 3 26 6 (by decide) b1 ((above _ _ 21 16 3 (by decide)).trans (g1))).trans ((below _ _ 21 3 26 6 (by decide) b0 (g0)).trans (rfl)))
theorem bits24w2_of_21w3_16w3_11w3 (m v0 v1 v2 word : Nat) (h : m + v0 * 2 ^ 21 + v1 * 2 ^ 16 + v2 * 2 ^ 11 = word) (b0 : v0 < 2 ^ 3) (b1 : v1 < 2 ^ 3) (b2 : v2 < 2 ^ 3) (g0 : Sys2Proof.fld m 21 3 = 0) (g1 : Sys2Proof.fld m 16 3 = 0) (g2 : Sys2Proof.fld m 11 3 = 0) : Sys2Proof.fld word 24 2 = Sys2Proof.fld m 24 2 := by
  subst h; exact (below _ _ 11 3 24 2 (by decide) b2 ((above _ _ 16 11 3 (by decide)).trans ((above _ _ 21 11 3 (by decide)).trans (g2)))).trans ((below _ _ 16 3 24 2 (by decide) b1 ((above _ _ 21 16 3 (by decide)).trans (g1))).trans ((below _ _ 21 3 24 2 (by decide) b0 (g0)).trans (rfl)))
theorem bits19w2_of_21w3_16w3_11w3 (m v0 v1 v2 word : Nat) (h : m + v0 * 2 ^ 21 + v1 * 2 ^ 16 + v2 * 2 ^ 11 = word) (b1 : v1 < 2 ^ 3) (b2 : v2 < 2 ^ 3) (g1 : Sys2Proof.fld m 16 3 = 0) (g2 : Sys2Proof.fld m 11 3 = 0) : Sys2Proof.fld word 19 2 = Sys2Proof.fld m 19 2 := by
  subst h; exact (below _ _ 11 3 19 2 (by decide) b2 ((above _ _ 16 11 3 (by decide)).trans ((above _ _ 21 11 3 (by decide)).trans (g2)))).trans ((below _ _ 16 3 19 2 (by decide) b1 ((above _ _ 21 16 3 (by decide)).trans (g1))).trans ((above _ _ 21 19 2 (by decide)).trans (rfl)))
theorem bits14w2_of_21w3_16w3_11w3 (m v0 v1 v2 word : Nat) (h : m + v0 * 2 ^ 21 + v1 * 2 ^ 16 + v2 * 2 ^ 11 = word) (b2 : v2 < 2 ^ 3) (g2 : Sys2Proof.fld m 11 3 = 0) : Sys2Proof.fld word 14 2 = Sys2Proof.fld m 14 2 := by
  subst h; exact (below _ _ 11 3 14 2 (by decide) b2 ((above _ _ 16 11 3 (by decide)).trans ((above _ _ 21 11 3 (by decide)).trans (g2)))).trans ((above _ _ 16 14 2 (by decide)).trans ((above _ _ 21 14 2 (by decide)).trans (rfl)))
theorem bits4w7_of_21w3_16w3_11w3 (m v0 v1 v2 word : Nat) (h : m + v0 * 2 ^ 21 + v1 * 2 ^ 16 + v2 * 2 ^ 11 = word) : Sys2Proof.fld word 4 7 = Sys2Proof.fld m 4 7 := by
  subst h; exact (above _ _ 11 4 7 (by decide)).trans ((above _ _ 16 4 7 (by decide)).trans ((above _ _ 21 4 7 (by decide)).trans (rfl)))
theorem bits0w4_of_21w3_16w3_11w3 (m v0 v1 v2 word : Nat) (h : m + v0 * 2 ^ 21 + v1 * 2 ^ 16 + v2 * 2 ^ 11 = word) : Sys2Proof.fld word 0 4 = Sys2Proof.fld m 0 4 := by
  subst h; exact (above _ _ 11 0 4 (by decide)).trans ((above _ _ 16 0 4 (by decide)).trans ((above _ _ 21 0 4 (by decide)).trans (rfl)))
theorem bits21w3_of_21w3_16w3_11w3 (m v0 v1 v2 word : Nat) (h : m + v0 * 2 ^ 21 + v1 * 2 ^ 16 + v2 * 2 ^ 11 = word) (b0 : v0 < 2 ^ 3) (b1 : v1 < 2 ^ 3) (b2 : v2 < 2 ^ 3) (g0 : Sys2Proof.fld m 21 3 = 0) (g1 : Sys2Proof.fld m 16 3 = 0) (g2 : Sys2Proof.fld m 11 3 = 0) : Sys2Proof.fld word 21 3 = v0 := by
  subst h; exact (below _ _ 11 3 21 3 (by decide) b2 ((above _ _ 16 11 3 (by decide)).trans ((above _ _ 21 11 3 (by decide)).trans (g2)))).trans ((below _ _ 16 3 21 3 (by decide) b1 ((above _ _ 21 16 3 (by decide)).trans (g1))).trans (here _ _ 21 3 b0 (g0)))
theorem bits16w3_of_21w3_16w3_11w3 (m v0 v1 v2 word : Nat) (h : m + v0 * 2 ^ 21 + v1 * 2 ^ 16 + v2 * 2 ^ 11 = word) (b1 : v1 < 2 ^ 3) (b2 : v2 < 2 ^ 3) (g1 : Sys2Proof.fld m 16 3 = 0) (g2 : Sys2Proof.fld m 11 3 = 0) : Sys2Proof.fld word 16 3 = v1 := by
  subst h; exact (below _ _ 11 3 16 3 (by decide) b2 ((above _ _ 16 11 3 (by decide)).trans ((above _ _ 21 11 3 (by decide)).trans (g2)))).trans (here _ _ 16 3 b1 ((above _ _ 21 16 3 (by decide)).trans (g1)))
theorem bits11w3_of_21w3_16w3_11w3 (m v0 v1 v2 word : Nat) (h : m + v0 * 2 ^ 21 + v1 * 2 ^ 16 + v2 * 2 ^ 11 = word) (b2 : v2 < 2 ^ 3) (g2 : Sys2Proof.fld m 11 3 = 0) : Sys2Proof.fld word 11 3 = v2 := by
  subst h; exact here _ _ 11 3 b2 ((above _ _ 16 11 3 (by decide)).trans ((above _ _ 21 11 3 (by decide)).trans (g2)))
theorem bits26w6_of_21w3_16w3 (m v0 v1 word : Nat) (h : m + v0 * 2 ^ 21 + v1 * 2 ^ 16 = word) (b0 : v0 < 2 ^ 3) (b1 : v1 < 2 ^ 3) (g0 : Sys2Proof.fld m 21 3 = 0) (g1 : Sys2Proof.fld m 16 3 = 0) : Sys2Proof.fld word 26 6 = Sys2Proof.fld m 26 6 := by
  subst h; exact (below _ _ 16 3 26 6 (by decide) b1 ((above _ _ 21 16 3 (by decide)).trans (g1))).trans ((below _ _ 21 3 26 6 (by decide) b0 (g0)).trans (rfl))
theorem bits24w2_of_21w3_16w3 (m v0 v1 word : Nat) (h : m + v0 * 2 ^ 21 + v1 * 2 ^ 16 = word) (b0 : v0 < 2 ^ 3) (b1 : v1 < 2 ^ 3) (g0 : Sys2Proof.fld m 21 3 = 0) (g1 : Sys2Proof.fld m 16 3 = 0) : Sys2Proof.fld word 24 2 = Sys2Proof.fld m 24 2 := by
  subst h; exact (below _ _ 16 3 24 2 (by decide) b1 ((above _ _ 21 16 3 (by decide)).trans (g1))).trans ((below _ _ 21 3 24 2 (by decide) b0 (g0)).trans (rfl))
theorem bits19w2_of_21w3_16w3 (m v0 v1 word : Nat) (h : m + v0 * 2 ^ 21 + v1 * 2 ^ 16 = word) (b1 : v1 < 2 ^ 3) (g1 : Sys2Proof.fld m 16 3 = 0) : Sys2Proof.fld word 19 2 = Sys2Proof.fld m 19 2 := by
  subst h; exact (below _ _ 16 3 19 2 (by decide) b1 ((above _ _ 21 16 3 (by decide)).trans (g1))).trans ((above _ _ 21 19 2 (by decide)).trans (rfl))
theorem bits14w2_of_21w3_16w3 (m v0 v1 word : Nat) (h : m + v0 * 2 ^ 21 + v1 * 2 ^ 16 = word) : Sys2Proof.fld word 14 2 = Sys2Proof.fld m 14 2 := by
  subst h; exact (above _ _ 16 14 2 (by decide)).trans ((above _ _ 21 14 2 (by decide)).trans (rfl))
theorem bits4w7_of_21w3_16w3 (m v0 v1 word : Nat) (h : m + v0 * 2 ^ 21 + v1 * 2 ^ 16 = word) : Sys2Proof.fld word 4 7 = Sys2Proof.fld m 4 7 := by
  subst h; exact (above _ _ 16 4 7 (by decide)).trans ((above _ _ 21 4 7 (by decide)).trans (rfl))
theorem bits0w4_of_21w3_16w3 (m v0 v1 word : Nat) (h : m + v0 * 2 ^ 21 + v1 * 2 ^ 16 = word) : Sys2Proof.fld word 0 4 = Sys2Proof.fld m 0 4 := by
  subst h; exact (above _ _ 16 0 4 (by decide)).trans ((above _ _ 21 0 4 (by decide)).trans (rfl))
theorem bits11w3_of_21w3_16w3 (m v0 v1 word : Nat) (h : m + v0 * 2 ^ 21 + v1 * 2 ^ 16 = word) : Sys2Proof.fld word 11 3 = Sys2Proof.fld m 11 3 := by
  subst h; exact (above _ _ 16 11 3 (by decide)).trans ((above _ _ 21 11 3 (by decide)).trans (rfl))
theorem bits21w3_of_21w3_16w3 (m v0 v1 word : Nat) (h : m + v0 * 2 ^ 21 + v1 * 2 ^ 16 = word) (b0 : v0 < 2 ^ 3) (b1 : v1 < 2 ^ 3) (g0 : Sys2Proof.fld m 21 3 = 0) (g1 : Sys2Proof.fld m 16 3 = 0) : Sys2Proof.fld word 21 3 = v0 := by
  subst h; exact (below _ _ 16 3 21 3 (by decide) b1 ((above _ _ 21 16 3 (by decide)).trans (g1))).trans (here _ _ 21 3 b0 (g0))
theorem bits16w3_of_21w3_16w3 (m v0 v1 word : Nat) (h : m + v0 * 2 ^ 21 + v1 * 2 ^ 16 = word) (b1 : v1 < 2 ^ 3) (g1 : Sys2Proof.fld m 16 3 = 0) : Sys2Proof.fld word 16 3 = v1 := by
  subst h; exact here _ _ 16 3 b1 ((above _ _ 21 16 3 (by decide)).trans (g1))
theorem bits26w6_of_21w3_16w3_11w5 (m v0 v1 v2 word : Nat) (h : m + v0 * 2 ^ 21 + v1 * 2 ^ 16 + v2 * 2 ^ 11 = word) (b0 : v0 < 2 ^ 3) (b1 : v1 < 2 ^ 3) (b2 : v2 < 2 ^ 5) (g0 : Sys2Proof.fld m 21 3 = 0) (g1 : Sys2Proof.fld m 16 3 = 0) (g2 : Sys2Proof.fld m 11 5 = 0) : Sys2Proof.fld word 26 6 = Sys2Proof.fld m 26 6 := by
  subst h; exact (below _ _ 11 5 26 6 (by decide) b2 ((above _ _ 16 11 5 (by decide)).trans ((above _ _ 21 11 5 (by decide)).trans (g2)))).trans ((below _ _ 16 3 26 6 (by decide) b1 ((above _ _ 21 16 3 (by decide)).trans (g1))).trans ((below _ _ 21 3 26 6 (by decide) b0 (g0)).trans (rfl)))
theorem bits24w2_of_21w3_16w3_11w5 (m v0 v1 v2 word : Nat) (h : m + v0 * 2 ^ 21 + v1 * 2 ^ 16 + v2 * 2 ^ 11 = word) (b0 : v0 < 2 ^ 3) (b1 : v1 < 2 ^ 3) (b2 : v2 < 2 ^ 5) (g0 : Sys2Proof.fld m 21 3 = 0) (g1 : Sys2Proof.fld m 16 3 = 0) (g2 : Sys2Proof.fld m 11 5 = 0) : Sys2Proof.fld word 24 2 = Sys2Proof.fld m 24 2 := by
  subst h; exact (below _ _ 11 5 24 2 (by decide) b2 ((above _ _ 16 11 5 (by decide)).trans ((above _ _ 21 11 5 (by decide)).trans (g2)))).trans ((below _ _ 16 3 24 2 (by decide) b1 ((above _ _ 21 16 3 (by decide)).trans (g1))).trans ((below _ _ 21 3 24 2 (by decide) b0 (g0)).trans (rfl)))
theorem bits19w2_of_21w3_16w3_11w5 (m v0 v1 v2 word : Nat) (h : m + v0 * 2 ^ 21 + v1 * 2 ^ 16 + v2 * 2 ^ 11 = word) (b1 : v1 < 2 ^ 3) (b2 : v2 < 2 ^ 5) (g1 : Sys2Proof.fld m 16 3 = 0) (g2 : Sys2Proof.fld m 11 5 = 0) : Sys2Proof.fld word 19 2 = Sys2Proof.fld m 19 2 := by
  subst h; exact (below _ _ 11 5 19 2 (by decide) b2 ((above _ _ 16 11 5 (by decide)).trans ((above _ _ 21 11 5 (by decide)).trans (g2)))).trans ((below _ _ 16 3 19 2 (by decide) b1 ((above _ _ 21 16 3 (by decide)).trans (g1))).trans ((above _ _ 21 19 2 (by decide)).trans (rfl)))
theorem bits4w7_of_21w3_16w3_11w5 (m v0 v1 v2 word : Nat) (h : m + v0 * 2 ^ 21 + v1 * 2 ^ 16 + v2 * 2 ^ 11 = word) : Sys2Proof.fld word 4 7 = Sys2Proof.fld m 4 7 := by
  subst h; exact (above _ _ 11 4 7 (by decide)).trans ((above _ _ 16 4 7 (by decide)).trans ((above _ _ 21 4 7 (by decide)).trans (rfl)))
theorem bits0w4_of_21w3_16w3_11w5 (m v0 v1 v2 word : Nat) (h : m + v0 * 2 ^ 21 + v1 * 2 ^ 16 + v2 * 2 ^ 11 = word) : Sys2Proof.fld word 0 4 = Sys2Proof.fld m 0 4 := by
  subst h; exact (above _ _ 11 0 4 (by decide)).trans ((above _ _ 16 0 4 (by decide)).trans ((above _ _ 21 0 4 (by decide)).trans (rfl)))
theorem bits21w3_of_21w3_16w3_11w5 (m v0 v1 v2 word : Nat) (h : m + v0 * 2 ^ 21 + v1 * 2 ^ 16 + v2 * 2 ^ 11 = word) (b0 : v0 < 2 ^ 3) (b1 : v1 < 2 ^ 3) (b2 : v2 < 2 ^ 5) (g0 : Sys2Proof.fld m 21 3 = 0) (g1 : Sys2Proof.fld m 16 3 = 0) (g2 : Sys2Proof.fld m 11 5 = 0) : Sys2Proof.fld word 21 3 = v0 := by
  subst h; exact (below _ _ 11 5 21 3 (by decide) b2 ((above _ _ 16 11 5 (by decide)).trans ((above _ _ 21 11 5 (by decide)).trans (g2)))).trans ((below _ _ 16 3 21 3 (by decide) b1 ((above _ _ 21 16 3 (by decide)).trans (g1))).trans (here _ _ 21 3 b0 (g0)))
theorem bits16w3_of_21w3_16w3_11w5 (m v0 v1 v2 word : Nat) (h : m + v0 * 2 ^ 21 + v1 * 2 ^ 16 + v2 * 2 ^ 11 = word) (b1 : v1 < 2 ^ 3) (b2 : v2 < 2 ^ 5) (g1 : Sys2Proof.fld m 16 3 = 0) (g2 : Sys2Proof.fld m 11 5 = 0) : Sys2Proof.fld word 16 3 = v1 := by
  subst h; exact (below _ _ 11 5 16 3 (by decide) b2 ((above _ _ 16 11 5 (by decide)).trans ((above _ _ 21 11 5 (by decide)).trans (g2)))).trans (here _ _ 16 3 b1 ((above _ _ 21 16 3 (by decide)).trans (g1)))
theorem bits11w5_of_21w3_16w3_11w5 (m v0 v1 v2 word : Nat) (h : m + v0 * 2 ^ 21 + v1 * 2 ^ 16 + v2 * 2 ^ 11 = word) (b2 : v2 < 2 ^ 5) (g2 : Sys2Proof.fld m 11 5 = 0) : Sys2Proof.fld word 11 5 = v2 := by
  subst h; exact here _ _ 11 5 b2 ((above _ _ 16 11 5 (by decide)).trans ((above _ _ 21 11 5 (by decide)).trans (g2)))
theorem bits26w6_of_21w5_16w3 (m v0 v1 word : Nat) (h : m + v0 * 2 ^ 21 + v1 * 2 ^ 16 = word) (b0 : v0 < 2 ^ 5) (b1 : v1 < 2 ^ 3) (g0 : Sys2Proof.fld m 21 5 = 0) (g1 : Sys2Proof.fld m 16 3 = 0) : Sys2Proof.fld word 26 6 = Sys2Proof.fld m 26 6 := by
  subst h; exact (below _ _ 16 3 26 6 (by decide) b1 ((above _ _ 21 16 3 (by decide)).trans (g1))).trans ((below _ _ 21 5 26 6 (by decide) b0 (g0)).trans (rfl))
theorem bits19w2_of_21w5_16w3 (m v0 v1 word : Nat) (h : m + v0 * 2 ^ 21 + v1 * 2 ^ 16 = word) (b1 : v1 < 2 ^ 3) (g1 : Sys2Proof.fld m 16 3 = 0) : Sys2Proof.fld word 19 2 = Sys2Proof.fld m 19 2 := by
  subst h; exact (below _ _ 16 3 19 2 (by decide) b1 ((above _ _ 21 16 3 (by decide)).trans (g1))).trans ((above _ _ 21 19 2 (by decide)).trans (rfl))
theorem bits4w7_of_21w5_16w3 (m v0 v1 word : Nat) (h : m + v0 * 2 ^ 21 + v1 * 2 ^ 16 = word) : Sys2Proof.fld word 4 7 = Sys2Proof.fld m 4 7 := by
  subst h; exact (above _ _ 16 4 7 (by decide)).trans ((above _ _ 21 4 7 (by decide)).trans (rfl))
theorem bits0w4_of_21w5_16w3 (m v0 v1 word : Nat) (h : m + v0 * 2 ^ 21 + v1 * 2 ^ 16 = word) : Sys2Proof.fld word 0 4 = Sys2Proof.fld m 0 4 := by
  subst h; exact (above _ _ 16 0 4 (by decide)).trans ((above _ _ 21 0 4 (by decide)).trans (rfl))
theorem bits11w5_of_21w5_16w3 (m v0 v1 word : Nat) (h : m + v0 * 2 ^ 21 + v1 * 2 ^ 16 = word) : Sys2Proof.fld word 11 5 = Sys2Proof.fld m 11 5 := by
  subst h; exact (above _ _ 16 11 5 (by decide)).trans ((above _ _ 21 11 5 (by decide)).trans (rfl))
theorem bits21w5_of_21w5_16w3 (m v0 v1 word : Nat) (h : m + v0 * 2 ^ 21 + v1 * 2 ^ 16 = word) (b0 : v0 < 2 ^ 5) (b1 : v1 < 2 ^ 3) (g0 : Sys2Proof.fld m 21 5 = 0) (g1 : Sys2Proof.fld m 16 3 = 0) : Sys2Proof.fld word 21 5 = v0 := by
  subst h; exact (below _ _ 16 3 21 5 (by decide) b1 ((above _ _ 21 16 3 (by decide)).trans (g1))).trans (here _ _ 21 5 b0 (g0))
theorem bits16w3_of_21w5_16w3 (m v0 v1 word : Nat) (h : m + v0 * 2 ^ 21 + v1 * 2 ^ 16 = word) (b1 : v1 < 2 ^ 3) (g1 : Sys2Proof.fld m 16 3 = 0) : Sys2Proof.fld word 16 3 = v1 := by
  subst h; exact here _ _ 16 3 b1 ((above _ _ 21 16 3 (by decide)).trans (g1))
theorem bits26w6_of_21w3_16w5 (m v0 v1 word : Nat) (h : m + v0 * 2 ^ 21 + v1 * 2 ^ 16 = word) (b0 : v0 < 2 ^ 3) (b1 : v1 < 2 ^ 5) (g0 : Sys2Proof.fld m 21 3 = 0) (g1 : Sys2Proof.fld m 16 5 = 0) : Sys2Proof.fld word 26 6 = Sys2Proof.fld m 26 6 := by
  subst h; exact (below _ _ 16 5 26 6 (by decide) b1 ((above _ _ 21 16 5 (by decide)).trans (g1))).trans ((below _ _ 21 3 26 6 (by decide) b0 (g0)).trans (rfl))
theorem bits24w2_of_21w3_16w5 (m v0 v1 word : Nat) (h : m + v0 * 2 ^ 21 + v1 * 2 ^ 16 = word) (b0 : v0 < 2 ^ 3) (b1 : v1 < 2 ^ 5) (g0 : Sys2Proof.fld m 21 3 = 0) (g1 : Sys2Proof.fld m 16 5 = 0) : Sys2Proof.fld word 24 2 = Sys2Proof.fld m 24 2 := by
  subst h; exact (below _ _ 16 5 24 2 (by decide) b1 ((above _ _ 21 16 5 (by decide)).trans (g1))).trans ((below _ _ 21 3 24 2 (by decide) b0 (g0)).trans (rfl))
theorem bits4w7_of_21w3_16w5 (m v0 v1 word : Nat) (h : m + v0 * 2 ^ 21 + v1 * 2 ^ 16 = word) : Sys2Proof.fld word 4 7 = Sys2Proof.fld m 4 7 := by
  subst h; exact (above _ _ 16 4 7 (by decide)).trans ((above _ _ 21 4 7 (by decide)).trans (rfl))
theorem bits0w4_of_21w3_16w5 (m v0 v1 word : Nat) (h : m + v0 * 2 ^ 21 + v1 * 2 ^ 16 = word) : Sys2Proof.fld word 0 4 = Sys2Proof.fld m 0 4 := by
  subst h; exact (above _ _ 16 0 4 (by decide)).trans ((above _ _ 21 0 4 (by decide)).trans (rfl))
theorem bits11w5_of_21w3_16w5 (m v0 v1 word : Nat) (h : m + v0 * 2 ^ 21 + v1 * 2 ^ 16 = word) : Sys2Proof.fld word 11 5 = Sys2Proof.fld m 11 5 := by
  subst h; exact (above _ _ 16 11 5 (by decide)).trans ((above _ _ 21 11 5 (by decide)).trans (rfl))
theorem bits21w3_of_21w3_16w5 (m v0 v1 word : Nat) (h : m + v0 * 2 ^ 21 + v1 * 2 ^ 16 = word) (b0 : v0 < 2 ^ 3) (b1 : v1 < 2 ^ 5) (g0 : Sys2Proof.fld m 21 3 = 0) (g1 : Sys2Proof.fld m 16 5 = 0) : Sys2Proof.fld word 21 3 = v0 := by
  subst h; exact (below _ _ 16 5 21 3 (by decide) b1 ((above _ _ 21 16 5 (by decide)).trans (g1))).trans (here _ _ 21 3 b0 (g0))
theorem bits16w5_of_21w3_16w5 (m v0 v1 word : Nat) (h : m + v0 * 2 ^ 21 + v1 * 2 ^ 16 = word) (b1 : v1 < 2 ^ 5) (g1 : Sys2Proof.fld m 16 5 = 0) : Sys2Proof.fld word 16 5 = v1 := by
  subst h; exact here _ _ 16 5 b1 ((above _ _ 21 16 5 (by decide)).trans (g1))
theorem bits26w6_of_21w5_16w5_8w3_7w1_6w1_4w2_0w2 (m v0 v1 v2 v3 v4 v5 v6 word : Nat) (h : m + v0 * 2 ^ 21 + v1 * 2 ^ 16 + v2 * 2 ^ 8 + v3 * 2 ^ 7 + v4 * 2 ^ 6 + v5 * 2 ^ 4 + v6 * 2 ^ 0 = word) (b0 : v0 < 2 ^ 5) (b1 : v1 < 2 ^ 5) (b2 : v2 < 2 ^ 3) (b3 : v3 < 2 ^ 1) (b4 : v4 < 2 ^ 1) (b5 : v5 < 2 ^ 2) (b6 : v6 < 2 ^ 2) (g0 : Sys2Proof.fld m 21 5 = 0) (g1 : Sys2Proof.fld m 16 5 = 0) (g2 : Sys2Proof.fld m 8 3 = 0) (g3 : Sys2Proof.fld m 7 1 = 0) (g4 : Sys2Proof.fld m 6 1 = 0) (g5 : Sys2Proof.fld m 4 2 = 0) (g6 : Sys2Proof.fld m 0 2 = 0) : Sys2Proof.fld word 26 6 = Sys2Proof.fld m 26 6 := by
  subst h; exact (below _ _ 0 2 26 6 (by decide) b6 ((above _ _ 4 0 2 (by decide)).trans ((above _ _ 6 0 2 (by decide)).trans ((above _ _ 7 0 2 (by decide)).trans ((above _ _ 8 0 2 (by decide)).trans ((above _ _ 16 0 2 (by decide)).trans ((above _ _ 21 0 2 (by decide)).trans (g6)))))))).trans ((below _ _ 4 2 26 6 (by decide) b5 ((above _ _ 6 4 2 (by decide)).trans ((above _ _ 7 4 2 (by decide)).trans ((above _ _ 8 4 2 (by decide)).trans ((above _ _ 16 4 2 (by decide)).trans ((above _ _ 21 4 2 (by decide)).trans (g5))))))).trans ((below _ _ 6 1 26 6 (by decide) b4 ((above _ _ 7 6 1 (by decide)).trans ((above _ _ 8 6 1 (by decide)).trans ((above _ _ 16 6 1 (by decide)).trans ((above _ _ 21 6 1 (by decide)).trans (g4)))))).trans ((below _ _ 7 1 26 6 (by decide) b3 ((above _ _ 8 7 1 (by decide)).trans ((above _ _ 16 7 1 (by decide)).trans ((above _ _ 21 7 1 (by decide)).trans (g3))))).trans ((below _ _ 8 3 26 6 (by decide) b2 ((above _ _ 16 8 3 (by decide)).trans ((above _ _ 21 8 3 (by decide)).trans (g2)))).trans ((below _ _ 16 5 26 6 (by decide) b1 ((above _ _ 21 16 5 (by decide)).trans (g1))).trans ((below _ _ 21 5 26 6 (by decide) b0 (g0)).trans (rfl)))))))
theorem bits2w2_of_21w5_16w5_8w3_7w1_6w1_4w2_0w2 (m v0 v1 v2 v3 v4 v5 v6 word : Nat) (h : m + v0 * 2 ^ 21 + v1 * 2 ^ 16 + v2 * 2 ^ 8 + v3 * 2 ^ 7 + v4 * 2 ^ 6 + v5 * 2 ^ 4 + v6 * 2 ^ 0 = word) (b6 : v6 < 2 ^ 2) (g6 : Sys2Proof.fld m 0 2 = 0) : Sys2Proof.fld word 2 2 = Sys2Proof.fld m 2 2 := by
  subst h; exact (below _ _ 0 2 2 2 (by decide) b6 ((above _ _ 4 0 2 (by decide)).trans ((above _ _ 6 0 2 (by decide)).trans ((above _ _ 7 0 2 (by decide)).trans ((above _ _ 8 0 2 (by decide)).trans ((above _ _ 16 0 2 (by decide)).trans ((above _ _ 21 0 2 (by decide)).trans (g6)))))))).trans ((above _ _ 4 2 2 (by decide)).trans ((above _ _ 6 2 2 (by decide)).trans ((above _ _ 7 2 2 (by decide)).trans ((above _ _ 8 2 2 (by decide)).trans ((above _ _ 16 2 2 (by decide)).trans ((above _ _ 21 2 2 (by decide)).trans (rfl)))))))
theorem bits11w5_of_21w5_16w5_8w3_7w1_6w1_4w2_0w2 (m v0 v1 v2 v3 v4 v5 v6 word : Nat) (h : m + v0 * 2 ^ 21 + v1 * 2 ^ 16 + v2 * 2 ^ 8 + v3 * 2 ^ 7 + v4 * 2 ^ 6 + v5 * 2 ^ 4 + v6 * 2 ^ 0 = word) (b2 : v2 < 2 ^ 3) (b3 : v3 < 2 ^ 1) (b4 : v4 < 2 ^ 1) (b5 : v5 < 2 ^ 2) (b6 : v6 < 2 ^ 2) (g2 : Sys2Proof.fld m 8 3 = 0) (g3 : Sys2Proof.fld m 7 1 = 0) (g4 : Sys2Proof.fld m 6 1 = 0) (g5 : Sys2Proof.fld m 4 2 = 0) (g6 : Sys2Proof.fld m 0 2 = 0) : Sys2Proof.fld word 11 5 = Sys2Proof.fld m 11 5 := by
  subst h; exact (below _ _ 0 2 11 5 (by decide) b6 ((above _ _ 4 0 2 (by decide)).trans ((above _ _ 6 0 2 (by decide)).trans ((above _ _ 7 0 2 (by decide)).trans ((above _ _ 8 0 2 (by decide)).trans ((above _ _ 16 0 2 (by decide)).trans ((above _ _ 21 0 2 (by decide)).trans (g6)))))))).trans ((below _ _ 4 2 11 5 (by decide) b5 ((above _ _ 6 4 2 (by decide)).trans ((above _ _ 7 4 2 (by decide)).trans ((above _ _ 8 4 2 (by decide)).trans ((above _ _ 16 4 2 (by decide)).trans ((above _ _ 21 4 2 (by decide)).trans (g5))))))).trans ((below _ _ 6 1 11 5 (by decide) b4 ((above _ _ 7 6 1 (by decide)).trans ((above _ _ 8 6 1 (by decide)).trans ((above _ _ 16 6 1 (by decide)).trans ((above _ _ 21 6 1 (by decide)).trans (g4)))))).trans ((below _ _ 7 1 11 5 (by decide) b3 ((above _ _ 8 7 1 (by decide)).trans ((above _ _ 16 7 1 (by decide)).trans ((above _ _ 21 7 1 (by decide)).trans (g3))))).trans ((below _ _ 8 3 11 5 (by decide) b2 ((above _ _ 16 8 3 (by decide)).trans ((above _ _ 21 8 3 (by decide)).trans (g2)))).trans ((above _ _ 16 11 5 (by decide)).trans ((above _ _ 21 11 5 (by decide)).trans (rfl)))))))
theorem bits21w5_of_21w5_16w5_8w3_7w1_6w1_4w2_0w2 (m v0 v1 v2 v3 v4 v5 v6 word : Nat) (h : m + v0 * 2 ^ 21 + v1 * 2 ^ 16 + v2 * 2 ^ 8 + v3 * 2 ^ 7 + v4 * 2 ^ 6 + v5 * 2 ^ 4 + v6 * 2 ^ 0 = word) (b0 : v0 < 2 ^ 5) (b1 : v1 < 2 ^ 5) (b2 : v2 < 2 ^ 3) (b3 : v3 < 2 ^ 1) (b4 : v4 < 2 ^ 1) (b5 : v5 < 2 ^ 2) (b6 : v6 < 2 ^ 2) (g0 : Sys2Proof.fld m 21 5 = 0) (g1 : Sys2Proof.fld m 16 5 = 0) (g2 : Sys2Proof.fld m 8 3 = 0) (g3 : Sys2Proof.fld m 7 1 = 0) (g4 : Sys2Proof.fld m 6 1 = 0) (g5 : Sys2Proof.fld m 4 2 = 0) (g6 : Sys2Proof.fld m 0 2 = 0) : Sys2Proof.fld word 21 5 = v0 := by
  subst h; exact (below _ _ 0 2 21 5 (by decide) b6 ((above _ _ 4 0 2 (by decide)).trans ((above _ _ 6 0 2 (by decide)).trans ((above _ _ 7 0 2 (by decide)).trans ((above _ _ 8 0 2 (by decide)).trans ((above _ _ 16 0 2 (by decide)).trans ((above _ _ 21 0 2 (by decide)).trans (g6)))))))).trans ((below _ _ 4 2 21 5 (by decide) b5 ((above _ _ 6 4 2 (by decide)).trans ((above _ _ 7 4 2 (by decide)).trans ((above _ _ 8 4 2 (by decide)).trans ((above _ _ 16 4 2 (by decide)).trans ((above _ _ 21 4 2 (by decide)).trans (g5))))))).trans ((below _ _ 6 1 21 5 (by decide) b4 ((above _ _ 7 6 1 (by decide)).trans ((above _ _ 8 6 1 (by decide)).trans ((above _ _ 16 6 1 (by decide)).trans ((above _ _ 21 6 1 (by decide)).trans (g4)))))).trans ((below _ _ 7 1 21 5 (by decide) b3 ((above _ _ 8 7 1 (by decide)).trans ((above _ _ 16 7 1 (by decide)).trans ((above _ _ 21 7 1 (by decide)).trans (g3))))).trans ((below _ _ 8 3 21 5 (by decide) b2 ((above _ _ 16 8 3 (by decide)).trans ((above _ _ 21 8 3 (by decide)).trans (g2)))).trans ((below _ _ 16 5 21 5 (by decide) b1 ((above _ _ 21 16 5 (by decide)).trans (g1))).trans (here _ _ 21 5 b0 (g0)))))))
theorem bits16w5_of_21w5_16w5_8w3_7w1_6w1_4w2_0w2 (m v0 v1 v2 v3 v4 v5 v6 word : Nat) (h : m + v0 * 2 ^ 21 + v1 * 2 ^ 16 + v2 * 2 ^ 8 + v3 * 2 ^ 7 + v4 * 2 ^ 6 + v5 * 2 ^ 4 + v6 * 2 ^ 0 = word) (b1 : v1 < 2 ^ 5) (b2 : v2 < 2 ^ 3) (b3 : v3 < 2 ^ 1) (b4 : v4 < 2 ^ 1) (b5 : v5 < 2 ^ 2) (b6 : v6 < 2 ^ 2) (g1 : Sys2Proof.fld m 16 5 = 0) (g2 : Sys2Proof.fld m 8 3 = 0) (g3 : Sys2Proof.fld m 7 1 = 0) (g4 : Sys2Proof.fld m 6 1 = 0) (g5 : Sys2Proof.fld m 4 2 = 0) (g6 : Sys2Proof.fld m 0 2 = 0) : Sys2Proof.fld word 16 5 = v1 := by
  subst h; exact (below _ _ 0 2 16 5 (by decide) b6 ((above _ _ 4 0 2 (by decide)).trans ((above _ _ 6 0 2 (by decide)).trans ((above _ _ 7 0 2 (by decide)).trans ((above _ _ 8 0 2 (by decide)).trans ((above _ _ 16 0 2 (by decide)).trans ((above _ _ 21 0 2 (by decide)).trans (g6)))))))).trans ((below _ _ 4 2 16 5 (by decide) b5 ((above _ _ 6 4 2 (by decide)).trans ((above _ _ 7 4 2 (by decide)).trans ((above _ _ 8 4 2 (by decide)).trans ((above _ _ 16 4 2 (by decide)).trans ((above _ _ 21 4 2 (by decide)).trans (g5))))))).trans ((below _ _ 6 1 16 5 (by decide) b4 ((above _ _ 7 6 1 (by decide)).trans ((above _ _ 8 6 1 (by decide)).trans ((above _ _ 16 6 1 (by decide)).trans ((above _ _ 21 6 1 (by decide)).trans (g4)))))).trans ((below _ _ 7 1 16 5 (by decide) b3 ((above _ _ 8 7 1 (by decide)).trans ((above _ _ 16 7 1 (by decide)).trans ((above _ _ 21 7 1 (by decide)).trans (g3))))).trans ((below _ _ 8 3 16 5 (by decide) b2 ((above _ _ 16 8 3 (by decide)).trans ((above _ _ 21 8 3 (by decide)).trans (g2)))).trans (here _ _ 16 5 b1 ((above _ _ 21 16 5 (by decide)).trans (g1)))))))
theorem bits8w3_of_21w5_16w5_8w3_7w1_6w1_4w2_0w2 (m v0 v1 v2 v3 v4 v5 v6 word : Nat) (h : m + v0 * 2 ^ 21 + v1 * 2 ^ 16 + v2 * 2 ^ 8 + v3 * 2 ^ 7 + v4 * 2 ^ 6 + v5 * 2 ^ 4 + v6 * 2 ^ 0 = word) (b2 : v2 < 2 ^ 3) (b3 : v3 < 2 ^ 1) (b4 : v4 < 2 ^ 1) (b5 : v5 < 2 ^ 2) (b6 : v6 < 2 ^ 2) (g2 : Sys2Proof.fld m 8 3 = 0) (g3 : Sys2Proof.fld m 7 1 = 0) (g4 : Sys2Proof.fld m 6 1 = 0) (g5 : Sys2Proof.fld m 4 2 = 0) (g6 : Sys2Proof.fld m 0 2 = 0) : Sys2Proof.fld word 8 3 = v2 := by
  subst h; exact (below _ _ 0 2 8 3 (by decide) b6 ((above _ _ 4 0 2 (by decide)).trans ((above _ _ 6 0 2 (by decide)).trans ((above _ _ 7 0 2 (by decide)).trans ((above _ _ 8 0 2 (by decide)).trans ((above _ _ 16 0 2 (by decide)).trans ((above _ _ 21 0 2 (by decide)).trans (g6)))))))).trans ((below _ _ 4 2 8 3 (by decide) b5 ((above _ _ 6 4 2 (by decide)).trans ((above _ _ 7 4 2 (by decide)).trans ((above _ _ 8 4 2 (by decide)).trans ((above _ _ 16 4 2 (by decide)).trans ((above _ _ 21 4 2 (by decide)).trans (g5))))))).trans ((below _ _ 6 1 8 3 (by decide) b4 ((above _ _ 7 6 1 (by decide)).trans ((above _ _ 8 6 1 (by decide)).trans ((above _ _ 16 6 1 (by decide)).trans ((above _ _ 21 6 1 (by decide)).trans (g4)))))).trans ((below _ _ 7 1 8 3 (by decide) b3 ((above _ _ 8 7 1 (by decide)).trans ((above _ _ 16 7 1 (by decide)).trans ((above _ _ 21 7 1 (by decide)).trans (g3))))).trans (here _ _ 8 3 b2 ((above _ _ 16 8 3 (by decide)).trans ((above _ _ 21 8 3 (by decide)).trans (g2)))))))
theorem bits7w1_of_21w5_16w5_8w3_7w1_6w1_4w2_0w2 (m v0 v1 v2 v3 v4 v5 v6 word : Nat) (h : m + v0 * 2 ^ 21 + v1 * 2 ^ 16 + v2 * 2 ^ 8 + v3 * 2 ^ 7 + v4 * 2 ^ 6 + v5 * 2 ^ 4 + v6 * 2 ^ 0 = word) (b3 : v3 < 2 ^ 1) (b4 : v4 < 2 ^ 1) (b5 : v5 < 2 ^ 2) (b6 : v6 < 2 ^ 2) (g3 : Sys2Proof.fld m 7 1 = 0) (g4 : Sys2Proof.fld m 6 1 = 0) (g5 : Sys2Proof.fld m 4 2 = 0) (g6 : Sys2Proof.fld m 0 2 = 0) : Sys2Proof.fld word 7 1 = v3 := by
  subst h; exact (below _ _ 0 2 7 1 (by decide) b6 ((above _ _ 4 0 2 (by decide)).trans ((above _ _ 6 0 2 (by decide)).trans ((above _ _ 7 0 2 (by decide)).trans ((above _ _ 8 0 2 (by decide)).trans ((above _ _ 16 0 2 (by decide)).trans ((above _ _ 21 0 2 (by decide)).trans (g6)))))))).trans ((below _ _ 4 2 7 1 (by decide) b5 ((above _ _ 6 4 2 (by decide)).trans ((above _ _ 7 4 2 (by decide)).trans ((above _ _ 8 4 2 (by decide)).trans ((above _ _ 16 4 2 (by decide)).trans ((above _ _ 21 4 2 (by decide)).trans (g5))))))).trans ((below _ _ 6 1 7 1 (by decide) b4 ((above _ _ 7 6 1 (by decide)).trans ((above _ _ 8 6 1 (by decide)).trans ((above _ _ 16 6 1 (by decide)).trans ((above _ _ 21 6 1 (by decide)).trans (g4)))))).trans (here _ _ 7 1 b3 ((above _ _ 8 7 1 (by decide)).trans ((above _ _ 16 7 1 (by decide)).trans ((above _ _ 21 7 1 (by decide)).trans (g3)))))))
theorem bits6w1_of_21w5_16w5_8w3_7w1_6w1_4w2_0w2 (m v0 v1 v2 v3 v4 v5 v6 word : Nat) (h : m + v0 * 2 ^ 21 + v1 * 2 ^ 16 + v2 * 2 ^ 8 + v3 * 2 ^ 7 + v4 * 2 ^ 6 + v5 * 2 ^ 4 + v6 * 2 ^ 0 = word) (b4 : v4 < 2 ^ 1) (b5 : v5 < 2 ^ 2) (b6 : v6 < 2 ^ 2) (g4 : Sys2Proof.fld m 6 1 = 0) (g5 : Sys2Proof.fld m 4 2 = 0) (g6 : Sys2Proof.fld m 0 2 = 0) : Sys2Proof.fld word 6 1 = v4 := by
  subst h; exact (below _ _ 0 2 6 1 (by decide) b6 ((above _ _ 4 0 2 (by decide)).trans ((above _ _ 6 0 2 (by decide)).trans ((above _ _ 7 0 2 (by decide)).trans ((above _ _ 8 0 2 (by decide)).trans ((above _ _ 16 0 2 (by decide)).trans ((above _ _ 21 0 2 (by decide)).trans (g6)))))))).trans ((below _ _ 4 2 6 1 (by decide) b5 ((above _ _ 6 4 2 (by decide)).trans ((above _ _ 7 4 2 (by decide)).trans ((above _ _ 8 4 2 (by decide)).trans ((above _ _ 16 4 2 (by decide)).trans ((above _ _ 21 4 2 (by decide)).trans (g5))))))).trans (here _ _ 6 1 b4 ((above _ _ 7 6 1 (by decide)).trans ((above _ _ 8 6 1 (by decide)).trans ((above _ _ 16 6 1 (by decide)).trans ((above _ _ 21 6 1 (by decide)).trans (g4)))))))
theorem bits4w2_of_21w5_16w5_8w3_7w1_6w1_4w2_0w2 (m v0 v1 v2 v3 v4 v5 v6 word : Nat) (h : m + v0 * 2 ^ 21 + v1 * 2 ^ 16 + v2 * 2 ^ 8 + v3 * 2 ^ 7 + v4 * 2 ^ 6 + v5 * 2 ^ 4 + v6 * 2 ^ 0 = word) (b5 : v5 < 2 ^ 2) (b6 : v6 < 2 ^ 2) (g5 : Sys2Proof.fld m 4 2 = 0) (g6 : Sys2Proof.fld m 0 2 = 0) : Sys2Proof.fld word 4 2 = v5 := by
  subst h; exact (below _ _ 0 2 4 2 (by decide) b6 ((above _ _ 4 0 2 (by decide)).trans ((above _ _ 6 0 2 (by decide)).trans ((above _ _ 7 0 2 (by decide)).trans ((above _ _ 8 0 2 (by decide)).trans ((above _ _ 16 0 2 (by decide)).trans ((above _ _ 21 0 2 (by decide)).trans (g6)))))))).trans (here _ _ 4 2 b5 ((above _ _ 6 4 2 (by decide)).trans ((above _ _ 7 4 2 (by decide)).trans ((above _ _ 8 4 2 (by decide)).trans ((above _ _ 16 4 2 (by decide)).trans ((above _ _ 21 4 2 (by decide)).trans (g5)))))))
theorem bits0w2_of_21w5_16w5_8w3_7w1_6w1_4w2_0w2 (m v0 v1 v2 v3 v4 v5 v6 word : Nat) (h : m + v0 * 2 ^ 21 + v1 * 2 ^ 16 + v2 * 2 ^ 8 + v3 * 2 ^ 7 + v4 * 2 ^ 6 + v5 * 2 ^ 4 + v6 * 2 ^ 0 = word) (b6 : v6 < 2 ^ 2) (g6 : Sys2Proof.fld m 0 2 = 0) : Sys2Proof.fld word 0 2 = v6 := by
  subst h; exact here _ _ 0 2 b6 ((above _ _ 4 0 2 (by decide)).trans ((above _ _ 6 0 2 (by decide)).trans ((above _ _ 7 0 2 (by decide)).trans ((above _ _ 8 0 2 (by decide)).trans ((above _ _ 16 0 2 (by decide)).trans ((above _ _ 21 0 2 (by decide)).trans (g6)))))))
theorem bits26w6_of_21w5_16w5_11w5_8w3_7w1_6w1_4w2_0w2 (m v0 v1 v2 v3 v4 v5 v6 v7 word : Nat) (h : m + v0 * 2 ^ 21 + v1 * 2 ^ 16 + v2 * 2 ^ 11 + v3 * 2 ^ 8 + v4 * 2 ^ 7 + v5 * 2 ^ 6 + v6 * 2 ^ 4 + v7 * 2 ^ 0 = word) (b0 : v0 < 2 ^ 5) (b1 : v1 < 2 ^ 5) (b2 : v2 < 2 ^ 5) (b3 : v3 < 2 ^ 3) (b4 : v4 < 2 ^ 1) (b5 : v5 < 2 ^ 1) (b6 : v6 < 2 ^ 2) (b7 : v7 < 2 ^ 2) (g0 : Sys2Proof.fld m 21 5 = 0) (g1 : Sys2Proof.fld m 16 5 = 0) (g2 : Sys2Proof.fld m 11 5 = 0) (g3 : Sys2Proof.fld m 8 3 = 0) (g4 : Sys2Proof.fld m 7 1 = 0) (g5 : Sys2Proof.fld m 6 1 = 0) (g6 : Sys2Proof.fld m 4 2 = 0) (g7 : Sys2Proof.fld m 0 2 = 0) : Sys2Proof.fld word 26 6 = Sys2Proof.fld m 26 6 := by
  subst h; exact (below _ _ 0 2 26 6 (by decide) b7 ((above _ _ 4 0 2 (by decide)).trans ((above _ _ 6 0 2 (by decide)).trans ((above _ _ 7 0 2 (by decide)).trans ((above _ _ 8 0 2 (by decide)).trans ((above _ _ 11 0 2 (by decide)).trans ((above _ _ 16 0 2 (by decide)).trans ((above _ _ 21 0 2 (by decide)).trans (g7))))))))).trans ((below _ _ 4 2 26 6 (by decide) b6 ((above _ _ 6 4 2 (by decide)).trans ((above _ _ 7 4 2 (by decide)).trans ((above _ _ 8 4 2 (by decide)).trans ((above _ _ 11 4 2 (by decide)).trans ((above _ _ 16 4 2 (by decide)).trans ((above _ _ 21 4 2 (by decide)).trans (g6)))))))).trans ((below _ _ 6 1 26 6 (by decide) b5 ((above _ _ 7 6 1 (by decide)).trans ((above _ _ 8 6 1 (by decide)).trans ((above _ _ 11 6 1 (by decide)).trans ((above _ _ 16 6 1 (by decide)).trans ((above _ _ 21 6 1 (by decide)).trans (g5))))))).trans ((below _ _ 7 1 26 6 (by decide) b4 ((above _ _ 8 7 1 (by decide)).trans ((above _ _ 11 7 1 (by decide)).trans ((above _ _ 16 7 1 (by decide)).trans ((above _ _ 21 7 1 (by decide)).trans (g4)))))).trans ((below _ _ 8 3 26 6 (by decide) b3 ((above _ _ 11 8 3 (by decide)).trans ((above _ _ 16 8 3 (by decide)).trans ((above _ _ 21 8 3 (by decide)).trans (g3))))).trans ((below _ _ 11 5 26 6 (by decide) b2 ((above _ _ 16 11 5 (by decide)).trans ((above _ _ 21 11 5 (by decide)).trans (g2)))).trans ((below _ _ 16 5 26 6 (by decide) b1 ((above _ _ 21 16 5 (by decide)).trans (g1))).trans ((below _ _ 21 5 26 6 (by decide) b0 (g0)).trans (rfl))))))))
theorem bits2w2_of_21w5_16w5_11w5_8w3_7w1_6w1_4w2_0w2 (m v0 v1 v2 v3 v4 v5 v6 v7 word : Nat) (h : m + v0 * 2 ^ 21 + v1 * 2 ^ 16 + v2 * 2 ^ 11 + v3 * 2 ^ 8 + v4 * 2 ^ 7 + v5 * 2 ^ 6 + v6 * 2 ^ 4 + v7 * 2 ^ 0 = word) (b7 : v7 < 2 ^ 2) (g7 : Sys2Proof.fld m 0 2 = 0) : Sys2Proof.fld word 2 2 = Sys2Proof.fld m 2 2 := by
  subst h; exact (below _ _ 0 2 2 2 (by decide) b7 ((above _ _ 4 0 2 (by decide)).trans ((above _ _ 6 0 2 (by decide)).trans ((above _ _ 7 0 2 (by decide)).trans ((above _ _ 8 0 2 (by decide)).trans ((above _ _ 11 0 2 (by decide)).trans ((above _ _ 16 0 2 (by decide)).trans ((above _ _ 21 0 2 (by decide)).trans (g7))))))))).trans ((above _ _ 4 2 2 (by decide)).trans ((above _ _ 6 2 2 (by decide)).trans ((above _ _ 7 2 2 (by decide)).trans ((above _ _ 8 2 2 (by decide)).trans ((above _ _ 11 2 2 (by decide)).trans ((above _ _ 16 2 2 (by decide)).trans ((above _ _ 21 2 2 (by decide)).trans (rfl))))))))
theorem bits21w5_of_21w5_16w5_11w5_8w3_7w1_6w1_4w2_0w2 (m v0 v1 v2 v3 v4 v5 v6 v7 word : Nat) (h : m + v0 * 2 ^ 21 + v1 * 2 ^ 16 + v2 * 2 ^ 11 + v3 * 2 ^ 8 + v4 * 2 ^ 7 + v5 * 2 ^ 6 + v6 * 2 ^ 4 + v7 * 2 ^ 0 = word) (b0 : v0 < 2 ^ 5) (b1 : v1 < 2 ^ 5) (b2 : v2 < 2 ^ 5) (b3 : v3 < 2 ^ 3) (b4 : v4 < 2 ^ 1) (b5 : v5 < 2 ^ 1) (b6 : v6 < 2 ^ 2) (b7 : v7 < 2 ^ 2) (g0 : Sys2Proof.fld m 21 5 = 0) (g1 : Sys2Proof.fld m 16 5 = 0) (g2 : Sys2Proof.fld m 11 5 = 0) (g3 : Sys2Proof.fld m 8 3 = 0) (g4 : Sys2Proof.fld m 7 1 = 0) (g5 : Sys2Proof.fld m 6 1 = 0) (g6 : Sys2Proof.fld m 4 2 = 0) (g7 : Sys2Proof.fld m 0 2 = 0) : Sys2Proof.fld word 21 5 = v0 := by
  subst h; exact (below _ _ 0 2 21 5 (by decide) b7 ((above _ _ 4 0 2 (by decide)).trans ((above _ _ 6 0 2 (by decide)).trans ((above _ _ 7 0 2 (by decide)).trans ((above _ _ 8 0 2 (by decide)).trans ((above _ _ 11 0 2 (by decide)).trans ((above _ _ 16 0 2 (by decide)).trans ((above _ _ 21 0 2 (by decide)).trans (g7))))))))).trans ((below _ _ 4 2 21 5 (by decide) b6 ((above _ _ 6 4 2 (by decide)).trans ((above _ _ 7 4 2 (by decide)).trans ((above _ _ 8 4 2 (by decide)).trans ((above _ _ 11 4 2 (by decide)).trans ((above _ _ 16 4 2 (by decide)).trans ((above _ _ 21 4 2 (by decide)).trans (g6)))))))).trans ((below _ _ 6 1 21 5 (by decide) b5 ((above _ _ 7 6 1 (by decide)).trans ((above _ _ 8 6 1 (by decide)).trans ((above _ _ 11 6 1 (by decide)).trans ((above _ _ 16 6 1 (by decide)).trans ((above _ _ 21 6 1 (by decide)).trans (g5))))))).trans ((below _ _ 7 1 21 5 (by decide) b4 ((above _ _ 8 7 1 (by decide)).trans ((above _ _ 11 7 1 (by decide)).trans ((above _ _ 16 7 1 (by decide)).trans ((above _ _ 21 7 1 (by decide)).trans (g4)))))).trans ((below _ _ 8 3 21 5 (by decide) b3 ((above _ _ 11 8 3 (by decide)).trans ((above _ _ 16 8 3 (by decide)).trans ((above _ _ 21 8 3 (by decide)).trans (g3))))).trans ((below _ _ 11 5 21 5 (by decide) b2 ((above _ _ 16 11 5 (by decide)).trans ((above _ _ 21 11 5 (by decide)).trans (g2)))).trans ((below _ _ 16 5 21 5 (by decide) b1 ((above _ _ 21 16 5 (by decide)).trans (g1))).trans (here _ _ 21 5 b0 (g0))))))))
theorem bits16w5_of_21w5_16w5_11w5_8w3_7w1_6w1_4w2_0w2 (m v0 v1 v2 v3 v4 v5 v6 v7 word : Nat) (h : m + v0 * 2 ^ 21 + v1 * 2 ^ 16 + v2 * 2 ^ 11 + v3 * 2 ^ 8 + v4 * 2 ^ 7 + v5 * 2 ^ 6 + v6 * 2 ^ 4 + v7 * 2 ^ 0 = word) (b1 : v1 < 2 ^ 5) (b2 : v2 < 2 ^ 5) (b3 : v3 < 2 ^ 3) (b4 : v4 < 2 ^ 1) (b5 : v5 < 2 ^ 1) (b6 : v6 < 2 ^ 2) (b7 : v7 < 2 ^ 2) (g1 : Sys2Proof.fld m 16 5 = 0) (g2 : Sys2Proof.fld m 11 5 = 0) (g3 : Sys2Proof.fld m 8 3 = 0) (g4 : Sys2Proof.fld m 7 1 = 0) (g5 : Sys2Proof.fld m 6 1 = 0) (g6 : Sys2Proof.fld m 4 2 = 0) (g7 : Sys2Proof.fld m 0 2 = 0) : Sys2Proof.fld word 16 5 = v1 := by
  subst h; exact (below _ _ 0 2 16 5 (by decide) b7 ((above _ _ 4 0 2 (by decide)).trans ((above _ _ 6 0 2 (by decide)).trans ((above _ _ 7 0 2 (by decide)).trans ((above _ _ 8 0 2 (by decide)).trans ((above _ _ 11 0 2 (by decide)).trans ((above _ _ 16 0 2 (by decide)).trans ((above _ _ 21 0 2 (by decide)).trans (g7))))))))).trans ((below _ _ 4 2 16 5 (by decide) b6 ((above _ _ 6 4 2 (by decide)).trans ((above _ _ 7 4 2 (by decide)).trans ((above _ _ 8 4 2 (by decide)).trans ((above _ _ 11 4 2 (by decide)).trans ((above _ _ 16 4 2 (by decide)).trans ((above _ _ 21 4 2 (by decide)).trans (g6)))))))).trans ((below _ _ 6 1 16 5 (by decide) b5 ((above _ _ 7 6 1 (by decide)).trans ((above _ _ 8 6 1 (by decide)).trans ((above _ _ 11 6 1 (by decide)).trans ((above _ _ 16 6 1 (by decide)).trans ((above _ _ 21 6 1 (by decide)).trans (g5))))))).trans ((below _ _ 7 1 16 5 (by decide) b4 ((above _ _ 8 7 1 (by decide)).trans ((above _ _ 11 7 1 (by decide)).trans ((above _ _ 16 7 1 (by decide)).trans ((above _ _ 21 7 1 (by decide)).trans (g4)))))).trans ((below _ _ 8 3 16 5 (by decide) b3 ((above _ _ 11 8 3 (by decide)).trans ((above _ _ 16 8 3 (by decide)).trans ((above _ _ 21 8 3 (by decide)).trans (g3))))).trans ((below _ _ 11 5 16 5 (by decide) b2 ((above _ _ 16 11 5 (by decide)).trans ((above _ _ 21 11 5 (by decide)).trans (g2)))).trans (here _ _ 16 5 b1 ((above _ _ 21 16 5 (by decide)).trans (g1))))))))
theorem bits11w5_of_21w5_16w5_11w5_8w3_7w1_6w1_4w2_0w2 (m v0 v1 v2 v3 v4 v5 v6 v7 word : Nat) (h : m + v0 * 2 ^ 21 + v1 * 2 ^ 16 + v2 * 2 ^ 11 + v3 * 2 ^ 8 + v4 * 2 ^ 7 + v5 * 2 ^ 6 + v6 * 2 ^ 4 + v7 * 2 ^ 0 = word) (b2 : v2 < 2 ^ 5) (b3 : v3 < 2 ^ 3) (b4 : v4 < 2 ^ 1) (b5 : v5 < 2 ^ 1) (b6 : v6 < 2 ^ 2) (b7 : v7 < 2 ^ 2) (g2 : Sys2Proof.fld m 11 5 = 0) (g3 : Sys2Proof.fld m 8 3 = 0) (g4 : Sys2Proof.fld m 7 1 = 0) (g5 : Sys2Proof.fld m 6 1 = 0) (g6 : Sys2Proof.fld m 4 2 = 0) (g7 : Sys2Proof.fld m 0 2 = 0) : Sys2Proof.fld word 11 5 = v2 := by
  subst h; exact (below _ _ 0 2 11 5 (by decide) b7 ((above _ _ 4 0 2 (by decide)).trans ((above _ _ 6 0 2 (by decide)).trans ((above _ _ 7 0 2 (by decide)).trans ((above _ _ 8 0 2 (by decide)).trans ((above _ _ 11 0 2 (by decide)).trans ((above _ _ 16 0 2 (by decide)).trans ((above _ _ 21 0 2 (by decide)).trans (g7))))))))).trans ((below _ _ 4 2 11 5 (by decide) b6 ((above _ _ 6 4 2 (by decide)).trans ((above _ _ 7 4 2 (by decide)).trans ((above _ _ 8 4 2 (by decide)).trans ((above _ _ 11 4 2 (by decide)).trans ((above _ _ 16 4 2 (by decide)).trans ((above _ _ 21 4 2 (by decide)).trans (g6)))))))).trans ((below _ _ 6 1 11 5 (by decide) b5 ((above _ _ 7 6 1 (by decide)).trans ((above _ _ 8 6 1 (by decide)).trans ((above _ _ 11 6 1 (by decide)).trans ((above _ _ 16 6 1 (by decide)).trans ((above _ _ 21 6 1 (by decide)).trans (g5))))))).trans ((below _ _ 7 1 11 5 (by decide) b4 ((above _ _ 8 7 1 (by decide)).trans ((above _ _ 11 7 1 (by decide)).trans ((above _ _ 16 7 1 (by decide)).trans ((above _ _ 21 7 1 (by decide)).trans (g4)))))).trans ((below _ _ 8 3 11 5 (by decide) b3 ((above _ _ 11 8 3 (by decide)).trans ((above _ _ 16 8 3 (by decide)).trans ((above _ _ 21 8 3 (by decide)).trans (g3))))).trans (here _ _ 11 5 b2 ((above _ _ 16 11 5 (by decide)).trans ((above _ _ 21 11 5 (by decide)).trans (g2))))))))
theorem bits8w3_of_21w5_16w5_11w5_8w3_7w1_6w1_4w2_0w2 (m v0 v1 v2 v3 v4 v5 v6 v7 word : Nat) (h : m + v0 * 2 ^ 21 + v1 * 2 ^ 16 + v2 * 2 ^ 11 + v3 * 2 ^ 8 + v4 * 2 ^ 7 + v5 * 2 ^ 6 + v6 * 2 ^ 4 + v7 * 2 ^ 0 = word) (b3 : v3 < 2 ^ 3) (b4 : v4 < 2 ^ 1) (b5 : v5 < 2 ^ 1) (b6 : v6 < 2 ^ 2) (b7 : v7 < 2 ^ 2) (g3 : Sys2Proof.fld m 8 3 = 0) (g4 : Sys2Proof.fld m 7 1 = 0) (g5 : Sys2Proof.fld m 6 1 = 0) (g6 : Sys2Proof.fld m 4 2 = 0) (g7 : Sys2Proof.fld m 0 2 = 0) : Sys2Proof.fld word 8 3 = v3 := by
  subst h; exact (below _ _ 0 2 8 3 (by decide) b7 ((above _ _ 4 0 2 (by decide)).trans ((above _ _ 6 0 2 (by decide)).trans ((above _ _ 7 0 2 (by decide)).trans ((above _ _ 8 0 2 (by decide)).trans ((above _ _ 11 0 2 (by decide)).trans ((above _ _ 16 0 2 (by decide)).trans ((above _ _ 21 0 2 (by decide)).trans (g7))))))))).trans ((below _ _ 4 2 8 3 (by decide) b6 ((above _ _ 6 4 2 (by decide)).trans ((above _ _ 7 4 2 (by decide)).trans ((above _ _ 8 4 2 (by decide)).trans ((above _ _ 11 4 2 (by decide)).trans ((above _ _ 16 4 2 (by decide)).trans ((above _ _ 21 4 2 (by decide)).trans (g6)))))))).trans ((below _ _ 6 1 8 3 (by decide) b5 ((above _ _ 7 6 1 (by decide)).trans ((above _ _ 8 6 1 (by decide)).trans ((above _ _ 11 6 1 (by decide)).trans ((above _ _ 16 6 1 (by decide)).trans ((above _ _ 21 6 1 (by decide)).trans (g5))))))).trans ((below _ _ 7 1 8 3 (by decide) b4 ((above _ _ 8 7 1 (by decide)).trans ((above _ _ 11 7 1 (by decide)).trans ((above _ _ 16 7 1 (by decide)).trans ((above _ _ 21 7 1 (by decide)).trans (g4)))))).trans (here _ _ 8 3 b3 ((above _ _ 11 8 3 (by decide)).trans ((above _ _ 16 8 3 (by decide)).trans ((above _ _ 21 8 3 (by decide)).trans (g3))))))))
theorem bits7w1_of_21w5_16w5_11w5_8w3_7w1_6w1_4w2_0w2 (m v0 v1 v2 v3 v4 v5 v6 v7 word : Nat) (h : m + v0 * 2 ^ 21 + v1 * 2 ^ 16 + v2 * 2 ^ 11 + v3 * 2 ^ 8 + v4 * 2 ^ 7 + v5 * 2 ^ 6 + v6 * 2 ^ 4 + v7 * 2 ^ 0 = word) (b4 : v4 < 2 ^ 1) (b5 : v5 < 2 ^ 1) (b6 : v6 < 2 ^ 2) (b7 : v7 < 2 ^ 2) (g4 : Sys2Proof.fld m 7 1 = 0) (g5 : Sys2Proof.fld m 6 1 = 0) (g6 : Sys2Proof.fld m 4 2 = 0) (g7 : Sys2Proof.fld m 0 2 = 0) : Sys2Proof.fld word 7 1 = v4 := by
  subst h; exact (below _ _ 0 2 7 1 (by decide) b7 ((above _ _ 4 0 2 (by decide)).trans ((above _ _ 6 0 2 (by decide)).trans ((above _ _ 7 0 2 (by decide)).trans ((above _ _ 8 0 2 (by decide)).trans ((above _ _ 11 0 2 (by decide)).trans ((above _ _ 16 0 2 (by decide)).trans ((above _ _ 21 0 2 (by decide)).trans (g7))))))))).trans ((below _ _ 4 2 7 1 (by decide) b6 ((above _ _ 6 4 2 (by decide)).trans ((above _ _ 7 4 2 (by decide)).trans ((above _ _ 8 4 2 (by decide)).trans ((above _ _ 11 4 2 (by decide)).trans ((above _ _ 16 4 2 (by decide)).trans ((above _ _ 21 4 2 (by decide)).trans (g6)))))))).trans ((below _ _ 6 1 7 1 (by decide) b5 ((above _ _ 7 6 1 (by decide)).trans ((above _ _ 8 6 1 (by decide)).trans ((above _ _ 11 6 1 (by decide)).trans ((above _ _ 16 6 1 (by decide)).trans ((above _ _ 21 6 1 (by decide)).trans (g5))))))).trans (here _ _ 7 1 b4 ((above _ _ 8 7 1 (by decide)).trans ((above _ _ 11 7 1 (by decide)).trans ((above _ _ 16 7 1 (by decide)).trans ((above _ _ 21 7 1 (by decide)).trans (g4))))))))
theorem bits6w1_of_21w5_16w5_11w5_8w3_7w1_6w1_4w2_0w2 (m v0 v1 v2 v3 v4 v5 v6 v7 word : Nat) (h : m + v0 * 2 ^ 21 + v1 * 2 ^ 16 + v2 * 2 ^ 11 + v3 * 2 ^ 8 + v4 * 2 ^ 7 + v5 * 2 ^ 6 + v6 * 2 ^ 4 + v7 * 2 ^ 0 = word) (b5 : v5 < 2 ^ 1) (b6 : v6 < 2 ^ 2) (b7 : v7 < 2 ^ 2) (g5 : Sys2Proof.fld m 6 1 = 0) (g6 : Sys2Proof.fld m 4 2 = 0) (g7 : Sys2Proof.fld m 0 2 = 0) : Sys2Proof.fld word 6 1 = v5 := by
  subst h; exact (below _ _ 0 2 6 1 (by decide) b7 ((above _ _ 4 0 2 (by decide)).trans ((above _ _ 6 0 2 (by decide)).trans ((above _ _ 7 0 2 (by decide)).trans ((above _ _ 8 0 2 (by decide)).trans ((above _ _ 11 0 2 (by decide)).trans ((above _ _ 16 0 2 (by decide)).trans ((above _ _ 21 0 2 (by decide)).trans (g7))))))))).trans ((below _ _ 4 2 6 1 (by decide) b6 ((above _ _ 6 4 2 (by decide)).trans ((above _ _ 7 4 2 (by decide)).trans ((above _ _ 8 4 2 (by decide)).trans ((above _ _ 11 4 2 (by decide)).trans ((above _ _ 16 4 2 (by decide)).trans ((above _ _ 21 4 2 (by decide)).trans (g6)))))))).trans (here _ _ 6 1 b5 ((above _ _ 7 6 1 (by decide)).trans ((above _ _ 8 6 1 (by decide)).trans ((above _ _ 11 6 1 (by decide)).trans ((above _ _ 16 6 1 (by decide)).trans ((above _ _ 21 6 1 (by decide)).trans (g5))))))))
theorem bits4w2_of_21w5_16w5_11w5_8w3_7w1_6w1_4w2_0w2 (m v0 v1 v2 v3 v4 v5 v6 v7 word : Nat) (h : m + v0 * 2 ^ 21 + v1 * 2 ^ 16 + v2 * 2 ^ 11 + v3 * 2 ^ 8 + v4 * 2 ^ 7 + v5 * 2 ^ 6 + v6 * 2 ^ 4 + v7 * 2 ^ 0 = word) (b6 : v6 < 2 ^ 2) (b7 : v7 < 2 ^ 2) (g6 : Sys2Proof.fld m 4 2 = 0) (g7 : Sys2Proof.fld m 0 2 = 0) : Sys2Proof.fld word 4 2 = v6 := by
  subst h; exact (below _ _ 0 2 4 2 (by decide) b7 ((above _ _ 4 0 2 (by decide)).trans ((above _ _ 6 0 2 (by decide)).trans ((above _ _ 7 0 2 (by decide)).trans ((above _ _ 8 0 2 (by decide)).trans ((above _ _ 11 0 2 (by decide)).trans ((above _ _ 16 0 2 (by decide)).trans ((above _ _ 21 0 2 (by decide)).trans (g7))))))))).trans (here _ _ 4 2 b6 ((above _ _ 6 4 2 (by decide)).trans ((above _ _ 7 4 2 (by decide)).trans ((above _ _ 8 4 2 (by decide)).trans ((above _ _ 11 4 2 (by decide)).trans ((above _ _ 16 4 2 (by decide)).trans ((above _ _ 21 4 2 (by decide)).trans (g6))))))))
theorem bits0w2_of_21w5_16w5_11w5_8w3_7w1_6w1_4w2_0w2 (m v0 v1 v2 v3 v4 v5 v6 v7 word : Nat) (h : m + v0 * 2 ^ 21 + v1 * 2 ^ 16 + v2 * 2 ^ 11 + v3 * 2 ^ 8 + v4 * 2 ^ 7 + v5 * 2 ^ 6 + v6 * 2 ^ 4 + v7 * 2 ^ 0 = word) (b7 : v7 < 2 ^ 2) (g7 : Sys2Proof.fld m 0 2 = 0) : Sys2Proof.fld word 0 2 = v7 := by
  subst h; exact here _ _ 0 2 b7 ((above _ _ 4 0 2 (by decide)).trans ((above _ _ 6 0 2 (by decide)).trans ((above _ _ 7 0 2 (by decide)).trans ((above _ _ 8 0 2 (by decide)).trans ((above _ _ 11 0 2 (by decide)).trans ((above _ _ 16 0 2 (by decide)).trans ((above _ _ 21 0 2 (by decide)).trans (g7))))))))
theorem bits26w6_of_21w5_16w5_11w5_8w3_4w2_0w1 (m v0 v1 v2 v3 v4 v5 word : Nat) (h : m + v0 * 2 ^ 21 + v1 * 2 ^ 16 + v2 * 2 ^ 11 + v3 * 2 ^ 8 + v4 * 2 ^ 4 + v5 * 2 ^ 0 = word) (b0 : v0 < 2 ^ 5) (b1 : v1 < 2 ^ 5) (b2 : v2 < 2 ^ 5) (b3 : v3 < 2 ^ 3) (b4 : v4 < 2 ^ 2) (b5 : v5 < 2 ^ 1) (g0 : Sys2Proof.fld m 21 5 = 0) (g1 : Sys2Proof.fld m 16 5 = 0) (g2 : Sys2Proof.fld m 11 5 = 0) (g3 : Sys2Proof.fld m 8 3 = 0) (g4 : Sys2Proof.fld m 4 2 = 0) (g5 : Sys2Proof.fld m 0 1 = 0) : Sys2Proof.fld word 26 6 = Sys2Proof.fld m 26 6 := by
  subst h; exact (below _ _ 0 1 26 6 (by decide) b5 ((above _ _ 4 0 1 (by decide)).trans ((above _ _ 8 0 1 (by decide)).trans ((above _ _ 11 0 1 (by decide)).trans ((above _ _ 16 0 1 (by decide)).trans ((above _ _ 21 0 1 (by decide)).trans (g5))))))).trans ((below _ _ 4 2 26 6 (by decide) b4 ((above _ _ 8 4 2 (by decide)).trans ((above _ _ 11 4 2 (by decide)).trans ((above _ _ 16 4 2 (by decide)).trans ((above _ _ 21 4 2 (by decide)).trans (g4)))))).trans ((below _ _ 8 3 26 6 (by decide) b3 ((above _ _ 11 8 3 (by decide)).trans ((above _ _ 16 8 3 (by decide)).trans ((above _ _ 21 8 3 (by decide)).trans (g3))))).trans ((below _ _ 11 5 26 6 (by decide) b2 ((above _ _ 16 11 5 (by decide)).trans ((above _ _ 21 11 5 (by decide)).trans (g2)))).trans ((below _ _ 16 5 26 6 (by decide) b1 ((above _ _ 21 16 5 (by decide)).trans (g1))).trans ((below _ _ 21 5 26 6 (by decide) b0 (g0)).trans (rfl))))))
theorem bits2w2_of_21w5_16w5_11w5_8w3_4w2_0w1 (m v0 v1 v2 v3 v4 v5 word : Nat) (h : m + v0 * 2 ^ 21 + v1 * 2 ^ 16 + v2 * 2 ^ 11 + v3 * 2 ^ 8 + v4 * 2 ^ 4 + v5 * 2 ^ 0 = word) (b5 : v5 < 2 ^ 1) (g5 : Sys2Proof.fld m 0 1 = 0) : Sys2Proof.fld word 2 2 = Sys2Proof.fld m 2 2 := by
  subst h; exact (below _ _ 0 1 2 2 (by decide) b5 ((above _ _ 4 0 1 (by decide)).trans ((above _ _ 8 0 1 (by decide)).trans ((above _ _ 11 0 1 (by decide)).trans ((above _ _ 16 0 1 (by decide)).trans ((above _ _ 21 0 1 (by decide)).trans (g5))))))).trans ((above _ _ 4 2 2 (by decide)).trans ((above _ _ 8 2 2 (by decide)).trans ((above _ _ 11 2 2 (by decide)).trans ((above _ _ 16 2 2 (by decide)).trans ((above _ _ 21 2 2 (by decide)).trans (rfl))))))
theorem bits6w2_of_21w5_16w5_11w5_8w3_4w2_0w1 (m v0 v1 v2 v3 v4 v5 word : Nat) (h : m + v0 * 2 ^ 21 + v1 * 2 ^ 16 + v2 * 2 ^ 11 + v3 * 2 ^ 8 + v4 * 2 ^ 4 + v5 * 2 ^ 0 = word) (b4 : v4 < 2 ^ 2) (b5 : v5 < 2 ^ 1) (g4 : Sys2Proof.fld m 4 2 = 0) (g5 : Sys2Proof.fld m 0 1 = 0) : Sys2Proof.fld word 6 2 = Sys2Proof.fld m 6 2 := by
  subst h; exact (below _ _ 0 1 6 2 (by decide) b5 ((above _ _ 4 0 1 (by decide)).trans ((above _ _ 8 0 1 (by decide)).trans ((above _ _ 11 0 1 (by decide)).trans ((above _ _ 16 0 1 (by decide)).trans ((above _ _ 21 0 1 (by decide)).trans (g5))))))).trans ((below _ _ 4 2 6 2 (by decide) b4 ((above _ _ 8 4 2 (by decide)).trans ((above _ _ 11 4 2 (by decide)).trans ((above _ _ 16 4 2 (by decide)).trans ((above _ _ 21 4 2 (by decide)).trans (g4)))))).trans ((above _ _ 8 6 2 (by decide)).trans ((above _ _ 11 6 2 (by decide)).trans ((above _ _ 16 6 2 (by decide)).trans ((above _ _ 21 6 2 (by decide)).trans (rfl))))))
theorem bits1w1_of_21w5_16w5_11w5_8w3_4w2_0w1 (m v0 v1 v2 v3 v4 v5 word : Nat) (h : m + v0 * 2 ^ 21 + v1 * 2 ^ 16 + v2 * 2 ^ 11 + v3 * 2 ^ 8 + v4 * 2 ^ 4 + v5 * 2 ^ 0 = word) (b5 : v5 < 2 ^ 1) (g5 : Sys2Proof.fld m 0 1 = 0) : Sys2Proof.fld word 1 1 = Sys2Proof.fld m 1 1 := by
  subst h; exact (below _ _ 0 1 1 1 (by decide) b5 ((above _ _ 4 0 1 (by decide)).trans ((above _ _ 8 0 1 (by decide)).trans ((above _ _ 11 0 1 (by decide)).trans ((above _ _ 16 0 1 (by decide)).trans ((above _ _ 21 0 1 (by decide)).trans (g5))))))).trans ((above _ _ 4 1 1 (by decide)).trans ((above _ _ 8 1 1 (by decide)).trans ((above _ _ 11 1 1 (by decide)).trans ((above _ _ 16 1 1 (by decide)).trans ((above _ _ 21 1 1 (by decide)).trans (rfl))))))
theorem bits21w5_of_21w5_16w5_11w5_8w3_4w2_0w1 (m v0 v1 v2 v3 v4 v5 word : Nat) (h : m + v0 * 2 ^ 21 + v1 * 2 ^ 16 + v2 * 2 ^ 11 + v3 * 2 ^ 8 + v4 * 2 ^ 4 + v5 * 2 ^ 0 = word) (b0 : v0 < 2 ^ 5) (b1 : v1 < 2 ^ 5) (b2 : v2 < 2 ^ 5) (b3 : v3 < 2 ^ 3) (b4 : v4 < 2 ^ 2) (b5 : v5 < 2 ^ 1) (g0 : Sys2Proof.fld m 21 5 = 0) (g1 : Sys2Proof.fld m 16 5 = 0) (g2 : Sys2Proof.fld m 11 5 = 0) (g3 : Sys2Proof.fld m 8 3 = 0) (g4 : Sys2Proof.fld m 4 2 = 0) (g5 : Sys2Proof.fld m 0 1 = 0) : Sys2Proof.fld word 21 5 = v0 := by
  subst h; exact (below _ _ 0 1 21 5 (by decide) b5 ((above _ _ 4 0 1 (by decide)).trans ((above _ _ 8 0 1 (by decide)).trans ((above _ _ 11 0 1 (by decide)).trans ((above _ _ 16 0 1 (by decide)).trans ((above _ _ 21 0 1 (by decide)).trans (g5))))))).trans ((below _ _ 4 2 21 5 (by decide) b4 ((above _ _ 8 4 2 (by decide)).trans ((above _ _ 11 4 2 (by decide)).trans ((above _ _ 16 4 2 (by decide)).trans ((above _ _ 21 4 2 (by decide)).trans (g4)))))).trans ((below _ _ 8 3 21 5 (by decide) b3 ((above _ _ 11 8 3 (by decide)).trans ((above _ _ 16 8 3 (by decide)).trans ((above _ _ 21 8 3 (by decide)).trans (g3))))).trans ((below _ _ 11 5 21 5 (by decide) b2 ((above _ _ 16 11 5 (by decide)).trans ((above _ _ 21 11 5 (by decide)).trans (g2)))).trans ((below _ _ 16 5 21 5 (by decide) b1 ((above _ _ 21 16 5 (by decide)).trans (g1))).trans (here _ _ 21 5 b0 (g0))))))
theorem bits16w5_of_21w5_16w5_11w5_8w3_4w2_0w1 (m v0 v1 v2 v3 v4 v5 word : Nat) (h : m + v0 * 2 ^ 21 + v1 * 2 ^ 16 + v2 * 2 ^ 11 + v3 * 2 ^ 8 + v4 * 2 ^ 4 + v5 * 2 ^ 0 = word) (b1 : v1 < 2 ^ 5) (b2 : v2 < 2 ^ 5) (b3 : v3 < 2 ^ 3) (b4 : v4 < 2 ^ 2) (b5 : v5 < 2 ^ 1) (g1 : Sys2Proof.fld m 16 5 = 0) (g2 : Sys2Proof.fld m 11 5 = 0) (g3 : Sys2Proof.fld m 8 3 = 0) (g4 : Sys2Proof.fld m 4 2 = 0) (g5 : Sys2Proof.fld m 0 1 = 0) : Sys2Proof.fld word 16 5 = v1 := by
  subst h; exact (below _ _ 0 1 16 5 (by decide) b5 ((above _ _ 4 0 1 (by decide)).trans ((above _ _ 8 0 1 (by decide)).trans ((above _ _ 11 0 1 (by decide)).trans ((above _ _ 16 0 1 (by decide)).trans ((above _ _ 21 0 1 (by decide)).trans (g5))))))).trans ((below _ _ 4 2 16 5 (by decide) b4 ((above _ _ 8 4 2 (by decide)).trans ((above _ _ 11 4 2 (by decide)).trans ((above _ _ 16 4 2 (by decide)).trans ((above _ _ 21 4 2 (by decide)).trans (g4)))))).trans ((below _ _ 8 3 16 5 (by decide) b3 ((above _ _ 11 8 3 (by decide)).trans ((above _ _ 16 8 3 (by decide)).trans ((above _ _ 21 8 3 (by decide)).trans (g3))))).trans ((below _ _ 11 5 16 5 (by decide) b2 ((above _ _ 16 11 5 (by decide)).trans ((above _ _ 21 11 5 (by decide)).trans (g2)))).trans (here _ _ 16 5 b1 ((above _ _ 21 16 5 (by decide)).trans (g1))))))
theorem bits11w5_of_21w5_16w5_11w5_8w3_4w2_0w1 (m v0 v1 v2 v3 v4 v5 word : Nat) (h : m + v0 * 2 ^ 21 + v1 * 2 ^ 16 + v2 * 2 ^ 11 + v3 * 2 ^ 8 + v4 * 2 ^ 4 + v5 * 2 ^ 0 = word) (b2 : v2 < 2 ^ 5) (b3 : v3 < 2 ^ 3) (b4 : v4 < 2 ^ 2) (b5 : v5 < 2 ^ 1) (g2 : Sys2Proof.fld m 11 5 = 0) (g3 : Sys2Proof.fld m 8 3 = 0) (g4 : Sys2Proof.fld m 4 2 = 0) (g5 : Sys2Proof.fld m 0 1 = 0) : Sys2Proof.fld word 11 5 = v2 := by
  subst h; exact (below _ _ 0 1 11 5 (by decide) b5 ((above _ _ 4 0 1 (by decide)).trans ((above _ _ 8 0 1 (by decide)).trans ((above _ _ 11 0 1 (by decide)).trans ((above _ _ 16 0 1 (by decide)).trans ((above _ _ 21 0 1 (by decide)).trans (g5))))))).trans ((below _ _ 4 2 11 5 (by decide) b4 ((above _ _ 8 4 2 (by decide)).trans ((above _ _ 11 4 2 (by decide)).trans ((above _ _ 16 4 2 (by decide)).trans ((above _ _ 21 4 2 (by decide)).trans (g4)))))).trans ((below _ _ 8 3 11 5 (by decide) b3 ((above _ _ 11 8 3 (by decide)).trans ((above _ _ 16 8 3 (by decide)).trans ((above _ _ 21 8 3 (by decide)).trans (g3))))).trans (here _ _ 11 5 b2 ((above _ _ 16 11 5 (by decide)).trans ((above _ _ 21 11 5 (by decide)).trans (g2))))))
theorem bits8w3_of_21w5_16w5_11w5_8w3_4w2_0w1 (m v0 v1 v2 v3 v4 v5 word : Nat) (h : m + v0 * 2 ^ 21 + v1 * 2 ^ 16 + v2 * 2 ^ 11 + v3 * 2 ^ 8 + v4 * 2 ^ 4 + v5 * 2 ^ 0 = word) (b3 : v3 < 2 ^ 3) (b4 : v4 < 2 ^ 2) (b5 : v5 < 2 ^ 1) (g3 : Sys2Proof.fld m 8 3 = 0) (g4 : Sys2Proof.fld m 4 2 = 0) (g5 : Sys2Proof.fld m 0 1 = 0) : Sys2Proof.fld word 8 3 = v3 := by
  subst h; exact (below _ _ 0 1 8 3 (by decide) b5 ((above _ _ 4 0 1 (by decide)).trans ((above _ _ 8 0 1 (by decide)).trans ((above _ _ 11 0 1 (by decide)).trans ((above _ _ 16 0 1 (by decide)).trans ((above _ _ 21 0 1 (by decide)).trans (g5))))))).trans ((below _ _ 4 2 8 3 (by decide) b4 ((above _ _ 8 4 2 (by decide)).trans ((above _ _ 11 4 2 (by decide)).trans ((above _ _ 16 4 2 (by decide)).trans ((above _ _ 21 4 2 (by decide)).trans (g4)))))).trans (here _ _ 8 3 b3 ((above _ _ 11 8 3 (by decide)).trans ((above _ _ 16 8 3 (by decide)).trans ((above _ _ 21 8 3 (by decide)).trans (g3))))))
theorem bits4w2_of_21w5_16w5_11w5_8w3_4w2_0w1 (m v0 v1 v2 v3 v4 v5 word : Nat) (h : m + v0 * 2 ^ 21 + v1 * 2 ^ 16 + v2 * 2 ^ 11 + v3 * 2 ^ 8 + v4 * 2 ^ 4 + v5 * 2 ^ 0 = word) (b4 : v4 < 2 ^ 2) (b5 : v5 < 2 ^ 1) (g4 : Sys2Proof.fld m 4 2 = 0) (g5 : Sys2Proof.fld m 0 1 = 0) : Sys2Proof.fld word 4 2 = v4 := by
  subst h; exact (below _ _ 0 1 4 2 (by decide) b5 ((above _ _ 4 0 1 (by decide)).trans ((above _ _ 8 0 1 (by decide)).trans ((above _ _ 11 0 1 (by decide)).trans ((above _ _ 16 0 1 (by decide)).trans ((above _ _ 21 0 1 (by decide)).trans (g5))))))).trans (here _ _ 4 2 b4 ((above _ _ 8 4 2 (by decide)).trans ((above _ _ 11 4 2 (by decide)).trans ((above _ _ 16 4 2 (by decide)).trans ((above _ _ 21 4 2 (by decide)).trans (g4))))))
theorem bits0w1_of_21w5_16w5_11w5_8w3_4w2_0w1 (m v0 v1 v2 v3 v4 v5 word : Nat) (h : m + v0 * 2 ^ 21 + v1 * 2 ^ 16 + v2 * 2 ^ 11 + v3 * 2 ^ 8 + v4 * 2 ^ 4 + v5 * 2 ^ 0 = word) (b5 : v5 < 2 ^ 1) (g5 : Sys2Proof.fld m 0 1 = 0) : Sys2Proof.fld word 0 1 = v5 := by
  subst h; exact here _ _ 0 1 b5 ((above _ _ 4 0 1 (by decide)).trans ((above _ _ 8 0 1 (by decide)).trans ((above _ _ 11 0 1 (by decide)).trans ((above _ _ 16 0 1 (by decide)).trans ((above _ _ 21 0 1 (by decide)).trans (g5))))))
theorem bits26w6_of_21w5_16w5_11w5_8w3_4w2 (m v0 v1 v2 v3 v4 word : Nat) (h : m + v0 * 2 ^ 21 + v1 * 2 ^ 16 + v2 * 2 ^ 11 + v3 * 2 ^ 8 + v4 * 2 ^ 4 = word) (b0 : v0 < 2 ^ 5) (b1 : v1 < 2 ^ 5) (b2 : v2 < 2 ^ 5) (b3 : v3 < 2 ^ 3) (b4 : v4 < 2 ^ 2) (g0 : Sys2Proof.fld m 21 5 = 0) (g1 : Sys2Proof.fld m 16 5 = 0) (g2 : Sys2Proof.fld m 11 5 = 0) (g3 : Sys2Proof.fld m 8 3 = 0) (g4 : Sys2Proof.fld m 4 2 = 0) : Sys2Proof.fld word 26 6 = Sys2Proof.fld m 26 6 := by
  subst h; exact (below _ _ 4 2 26 6 (by decide) b4 ((above _ _ 8 4 2 (by decide)).trans ((above _ _ 11 4 2 (by decide)).trans ((above _ _ 16 4 2 (by decide)).trans ((above _ _ 21 4 2 (by decide)).trans (g4)))))).trans ((below _ _ 8 3 26 6 (by decide) b3 ((above _ _ 11 8 3 (by decide)).trans ((above _ _ 16 8 3 (by decide)).trans ((above _ _ 21 8 3 (by decide)).trans (g3))))).trans ((below _ _ 11 5 26 6 (by decide) b2 ((above _ _ 16 11 5 (by decide)).trans ((above _ _ 21 11 5 (by decide)).trans (g2)))).trans ((below _ _ 16 5 26 6 (by decide) b1 ((above _ _ 21 16 5 (by decide)).trans (g1))).trans ((below _ _ 21 5 26 6 (by decide) b0 (g0)).trans (rfl)))))
theorem bits2w2_of_21w5_16w5_11w5_8w3_4w2 (m v0 v1 v2 v3 v4 word : Nat) (h : m + v0 * 2 ^ 21 + v1 * 2 ^ 16 + v2 * 2 ^ 11 + v3 * 2 ^ 8 + v4 * 2 ^ 4 = word) : Sys2Proof.fld word 2 2 = Sys2Proof.fld m 2 2 := by
  subst h; exact (above _ _ 4 2 2 (by decide)).trans ((above _ _ 8 2 2 (by decide)).trans ((above _ _ 11 2 2 (by decide)).trans ((above _ _ 16 2 2 (by decide)).trans ((above _ _ 21 2 2 (by decide)).trans (rfl)))))
theorem bits6w2_of_21w5_16w5_11w5_8w3_4w2 (m v0 v1 v2 v3 v4 word : Nat) (h : m + v0 * 2 ^ 21 + v1 * 2 ^ 16 + v2 * 2 ^ 11 + v3 * 2 ^ 8 + v4 * 2 ^ 4 = word) (b4 : v4 < 2 ^ 2) (g4 : Sys2Proof.fld m 4 2 = 0) : Sys2Proof.fld word 6 2 = Sys2Proof.fld m 6 2 := by
  subst h; exact (below _ _ 4 2 6 2 (by decide) b4 ((above _ _ 8 4 2 (by decide)).trans ((above _ _ 11 4 2 (by decide)).trans ((above _ _ 16 4 2 (by decide)).trans ((above _ _ 21 4 2 (by decide)).trans (g4)))))).trans ((above _ _ 8 6 2 (by decide)).trans ((above _ _ 11 6 2 (by decide)).trans ((above _ _ 16 6 2 (by decide)).trans ((above _ _ 21 6 2 (by decide)).trans (rfl)))))
theorem bits0w2_of_21w5_16w5_11w5_8w3_4w2 (m v0 v1 v2 v3 v4 word : Nat) (h : m + v0 * 2 ^ 21 + v1 * 2 ^ 16 + v2 * 2 ^ 11 + v3 * 2 ^ 8 + v4 * 2 ^ 4 = word) : Sys2Proof.fld word 0 2 = Sys2Proof.fld m 0 2 := by
  subst h; exact (above _ _ 4 0 2 (by decide)).trans ((above _ _ 8 0 2 (by decide)).trans ((above _ _ 11 0 2 (by decide)).trans ((above _ _ 16 0 2 (by decide)).trans ((above _ _ 21 0 2 (by decide)).trans (rfl)))))
theorem bits21w5_of_21w5_16w5_11w5_8w3_4w2 (m v0 v1 v2 v3 v4 word : Nat) (h : m + v0 * 2 ^ 21 + v1 * 2 ^ 16 + v2 * 2 ^ 11 + v3 * 2 ^ 8 + v4 * 2 ^ 4 = word) (b0 : v0 < 2 ^ 5) (b1 : v1 < 2 ^ 5) (b2 : v2 < 2 ^ 5) (b3 : v3 < 2 ^ 3) (b4 : v4 < 2 ^ 2) (g0 : Sys2Proof.fld m 21 5 = 0) (g1 : Sys2Proof.fld m 16 5 = 0) (g2 : Sys2Proof.fld m 11 5 = 0) (g3 : Sys2Proof.fld m 8 3 = 0) (g4 : Sys2Proof.fld m 4 2 = 0) : Sys2Proof.fld word 21 5 = v0 := by
  subst h; exact (below _ _ 4 2 21 5 (by decide) b4 ((above _ _ 8 4 2 (by decide)).trans ((above _ _ 11 4 2 (by decide)).trans ((above _ _ 16 4 2 (by decide)).trans ((above _ _ 21 4 2 (by decide)).trans (g4)))))).trans ((below _ _ 8 3 21 5 (by decide) b3 ((above _ _ 11 8 3 (by decide)).trans ((above _ _ 16 8 3 (by decide)).trans ((above _ _ 21 8 3 (by decide)).trans (g3))))).trans ((below _ _ 11 5 21 5 (by decide) b2 ((above _ _ 16 11 5 (by decide)).trans ((above _ _ 21 11 5 (by decide)).trans (g2)))).trans ((below _ _ 16 5 21 5 (by decide) b1 ((above _ _ 21 16 5 (by decide)).trans (g1))).trans (here _ _ 21 5 b0 (g0)))))
theorem bits16w5_of_21w5_16w5_11w5_8w3_4w2 (m v0 v1 v2 v3 v4 word : Nat) (h : m + v0 * 2 ^ 21 + v1 * 2 ^ 16 + v2 * 2 ^ 11 + v3 * 2 ^ 8 + v4 * 2 ^ 4 = word) (b1 : v1 < 2 ^ 5) (b2 : v2 < 2 ^ 5) (b3 : v3 < 2 ^ 3) (b4 : v4 < 2 ^ 2) (g1 : Sys2Proof.fld m 16 5 = 0) (g2 : Sys2Proof.fld m 11 5 = 0) (g3 : Sys2Proof.fld m 8 3 = 0) (g4 : Sys2Proof.fld m 4 2 = 0) : Sys2Proof.fld word 16 5 = v1 := by
  subst h; exact (below _ _ 4 2 16 5 (by decide) b4 ((above _ _ 8 4 2 (by decide)).trans ((above _ _ 11 4 2 (by decide)).trans ((above _ _ 16 4 2 (by decide)).trans ((above _ _ 21 4 2 (by decide)).trans (g4)))))).trans ((below _ _ 8 3 16 5 (by decide) b3 ((above _ _ 11 8 3 (by decide)).trans ((above _ _ 16 8 3 (by decide)).trans ((above _ _ 21 8 3 (by decide)).trans (g3))))).trans ((below _ _ 11 5 16 5 (by decide) b2 ((above _ _ 16 11 5 (by decide)).trans ((above _ _ 21 11 5 (by decide)).trans (g2)))).trans (here _ _ 16 5 b1 ((above _ _ 21 16 5 (by decide)).trans (g1)))))
theorem bits11w5_of_21w5_16w5_11w5_8w3_4w2 (m v0 v1 v2 v3 v4 word : Nat) (h : m + v0 * 2 ^ 21 + v1 * 2 ^ 16 + v2 * 2 ^ 11 + v3 * 2 ^ 8 + v4 * 2 ^ 4 = word) (b2 : v2 < 2 ^ 5) (b3 : v3 < 2 ^ 3) (b4 : v4 < 2 ^ 2) (g2 : Sys2Proof.fld m 11 5 = 0) (g3 : Sys2Proof.fld m 8 3 = 0) (g4 : Sys2Proof.fld m 4 2 = 0) : Sys2Proof.fld word 11 5 = v2 := by
  subst h; exact (below _ _ 4 2 11 5 (by decide) b4 ((above _ _ 8 4 2 (by decide)).trans ((above _ _ 11 4 2 (by decide)).trans ((above _ _ 16 4 2 (by decide)).trans ((above _ _ 21 4 2 (by decide)).trans (g4)))))).trans ((below _ _ 8 3 11 5 (by decide) b3 ((above _ _ 11 8 3 (by decide)).trans ((above _ _ 16 8 3 (by decide)).trans ((above _ _ 21 8 3 (by decide)).trans (g3))))).trans (here _ _ 11 5 b2 ((above _ _ 16 11 5 (by decide)).trans ((above _ _ 21 11 5 (by decide)).trans (g2)))))
theorem bits8w3_of_21w5_16w5_11w5_8w3_4w2 (m v0 v1 v2 v3 v4 word : Nat) (h : m + v0 * 2 ^ 21 + v1 * 2 ^ 16 + v2 * 2 ^ 11 + v3 * 2 ^ 8 + v4 * 2 ^ 4 = word) (b3 : v3 < 2 ^ 3) (b4 : v4 < 2 ^ 2) (g3 : Sys2Proof.fld m 8 3 = 0) (g4 : Sys2Proof.fld m 4 2 = 0) : Sys2Proof.fld word 8 3 = v3 := by
  subst h; exact (below _ _ 4 2 8 3 (by decide) b4 ((above _ _ 8 4 2 (by decide)).trans ((above _ _ 11 4 2 (by decide)).trans ((above _ _ 16 4 2 (by decide)).trans ((above _ _ 21 4 2 (by decide)).trans (g4)))))).trans (here _ _ 8 3 b3 ((above _ _ 11 8 3 (by decide)).trans ((above _ _ 16 8 3 (by decide)).trans ((above _ _ 21 8 3 (by decide)).trans (g3)))))
theorem bits4w2_of_21w5_16w5_11w5_8w3_4w2 (m v0 v1 v2 v3 v4 word : Nat) (h : m + v0 * 2 ^ 21 + v1 * 2 ^ 16 + v2 * 2 ^ 11 + v3 * 2 ^ 8 + v4 * 2 ^ 4 = word) (b4 : v4 < 2 ^ 2) (g4 : Sys2Proof.fld m 4 2 = 0) : Sys2Proof.fld word 4 2 = v4 := by
  subst h; exact here _ _ 4 2 b4 ((above _ _ 8 4 2 (by decide)).trans ((above _ _ 11 4 2 (by decide)).trans ((above _ _ 16 4 2 (by decide)).trans ((above _ _ 21 4 2 (by decide)).trans (g4)))))
theorem bits26w6_of_21w5_16w5_11w5_8w3_4w2_1w1 (m v0 v1 v2 v3 v4 v5 word : Nat) (h : m + v0 * 2 ^ 21 + v1 * 2 ^ 16 + v2 * 2 ^ 11 + v3 * 2 ^ 8 + v4 * 2 ^ 4 + v5 * 2 ^ 1 = word) (b0 : v0 < 2 ^ 5) (b1 : v1 < 2 ^ 5) (b2 : v2 < 2 ^ 5) (b3 : v3 < 2 ^ 3) (b4 : v4 < 2 ^ 2) (b5 : v5 < 2 ^ 1) (g0 : Sys2Proof.fld m 21 5 = 0) (g1 : Sys2Proof.fld m 16 5 = 0) (g2 : Sys2Proof.fld m 11 5 = 0) (g3 : Sys2Proof.fld m 8 3 = 0) (g4 : Sys2Proof.fld m 4 2 = 0) (g5 : Sys2Proof.fld m 1 1 = 0) : Sys2Proof.fld word 26 6 = Sys2Proof.fld m 26 6 := by
  subst h; exact (below _ _ 1 1 26 6 (by decide) b5 ((above _ _ 4 1 1 (by decide)).trans ((above _ _ 8 1 1 (by decide)).trans ((above _ _ 11 1 1 (by decide)).trans ((above _ _ 16 1 1 (by decide)).trans ((above _ _ 21 1 1 (by decide)).trans (g5))))))).trans ((below _ _ 4 2 26 6 (by decide) b4 ((above _ _ 8 4 2 (by decide)).trans ((above _ _ 11 4 2 (by decide)).trans ((above _ _ 16 4 2 (by decide)).trans ((above _ _ 21 4 2 (by decide)).trans (g4)))))).trans ((below _ _ 8 3 26 6 (by decide) b3 ((above _ _ 11 8 3 (by decide)).trans ((above _ _ 16 8 3 (by decide)).trans ((above _ _ 21 8 3 (by decide)).trans (g3))))).trans ((below _ _ 11 5 26 6 (by decide) b2 ((above _ _ 16 11 5 (by decide)).trans ((above _ _ 21 11 5 (by decide)).trans (g2)))).trans ((below _ _ 16 5 26 6 (by decide) b1 ((above _ _ 21 16 5 (by decide)).trans (g1))).trans ((below _ _ 21 5 26 6 (by decide) b0 (g0)).trans (rfl))))))
theorem bits2w2_of_21w5_16w5_11w5_8w3_4w2_1w1 (m v0 v1 v2 v3 v4 v5 word : Nat) (h : m + v0 * 2 ^ 21 + v1 * 2 ^ 16 + v2 * 2 ^ 11 + v3 * 2 ^ 8 + v4 * 2 ^ 4 + v5 * 2 ^ 1 = word) (b5 : v5 < 2 ^ 1) (g5 : Sys2Proof.fld m 1 1 = 0) : Sys2Proof.fld word 2 2 = Sys2Proof.fld m 2 2 := by
  subst h; exact (below _ _ 1 1 2 2 (by decide) b5 ((above _ _ 4 1 1 (by decide)).trans ((above _ _ 8 1 1 (by decide)).trans ((above _ _ 11 1 1 (by decide)).trans ((above _ _ 16 1 1 (by decide)).trans ((above _ _ 21 1 1 (by decide)).trans (g5))))))).trans ((above _ _ 4 2 2 (by decide)).trans ((above _ _ 8 2 2 (by decide)).trans ((above _ _ 11 2 2 (by decide)).trans ((above _ _ 16 2 2 (by decide)).trans ((above _ _ 21 2 2 (by decide)).trans (rfl))))))
theorem bits6w2_of_21w5_16w5_11w5_8w3_4w2_1w1 (m v0 v1 v2 v3 v4 v5 word : Nat) (h : m + v0 * 2 ^ 21 + v1 * 2 ^ 16 + v2 * 2 ^ 11 + v3 * 2 ^ 8 + v4 * 2 ^ 4 + v5 * 2 ^ 1 = word) (b4 : v4 < 2 ^ 2) (b5 : v5 < 2 ^ 1) (g4 : Sys2Proof.fld m 4 2 = 0) (g5 : Sys2Proof.fld m 1 1 = 0) : Sys2Proof.fld word 6 2 = Sys2Proof.fld m 6 2 := by
  subst h; exact (below _ _ 1 1 6 2 (by decide) b5 ((above _ _ 4 1 1 (by decide)).trans ((above _ _ 8 1 1 (by decide)).trans ((above _ _ 11 1 1 (by decide)).trans ((above _ _ 16 1 1 (by decide)).trans ((above _ _ 21 1 1 (by decide)).trans (g5))))))).trans ((below _ _ 4 2 6 2 (by decide) b4 ((above _ _ 8 4 2 (by decide)).trans ((above _ _ 11 4 2 (by decide)).trans ((above _ _ 16 4 2 (by decide)).trans ((above _ _ 21 4 2 (by decide)).trans (g4)))))).trans ((above _ _ 8 6 2 (by decide)).trans ((above _ _ 11 6 2 (by decide)).trans ((above _ _ 16 6 2 (by decide)).trans ((above _ _ 21 6 2 (by decide)).trans (rfl))))))
theorem bits0w1_of_21w5_16w5_11w5_8w3_4w2_1w1 (m v0 v1 v2 v3 v4 v5 word : Nat) (h : m + v0 * 2 ^ 21 + v1 * 2 ^ 16 + v2 * 2 ^ 11 + v3 * 2 ^ 8 + v4 * 2 ^ 4 + v5 * 2 ^ 1 = word) : Sys2Proof.fld word 0 1 = Sys2Proof.fld m 0 1 := by
  subst h; exact (above _ _ 1 0 1 (by decide)).trans ((above _ _ 4 0 1 (by decide)).trans ((above _ _ 8 0 1 (by decide)).trans ((above _ _ 11 0 1 (by decide)).trans ((above _ _ 16 0 1 (by decide)).trans ((above _ _ 21 0 1 (by decide)).trans (rfl))))))
theorem bits21w5_of_21w5_16w5_11w5_8w3_4w2_1w1 (m v0 v1 v2 v3 v4 v5 word : Nat) (h : m + v0 * 2 ^ 21 + v1 * 2 ^ 16 + v2 * 2 ^ 11 + v3 * 2 ^ 8 + v4 * 2 ^ 4 + v5 * 2 ^ 1 = word) (b0 : v0 < 2 ^ 5) (b1 : v1 < 2 ^ 5) (b2 : v2 < 2 ^ 5) (b3 : v3 < 2 ^ 3) (b4 : v4 < 2 ^ 2) (b5 : v5 < 2 ^ 1) (g0 : Sys2Proof.fld m 21 5 = 0) (g1 : Sys2Proof.fld m 16 5 = 0) (g2 : Sys2Proof.fld m 11 5 = 0) (g3 : Sys2Proof.fld m 8 3 = 0) (g4 : Sys2Proof.fld m 4 2 = 0) (g5 : Sys2Proof.fld m 1 1 = 0) : Sys2Proof.fld word 21 5 = v0 := by
  subst h; exact (below _ _ 1 1 21 5 (by decide) b5 ((above _ _ 4 1 1 (by decide)).trans ((above _ _ 8 1 1 (by decide)).trans ((above _ _ 11 1 1 (by decide)).trans ((above _ _ 16 1 1 (by decide)).trans ((above _ _ 21 1 1 (by decide)).trans (g5))))))).trans ((below _ _ 4 2 21 5 (by decide) b4 ((above _ _ 8 4 2 (by decide)).trans ((above _ _ 11 4 2 (by decide)).trans ((above _ _ 16 4 2 (by decide)).trans ((above _ _ 21 4 2 (by decide)).trans (g4)))))).trans ((below _ _ 8 3 21 5 (by decide) b3 ((above _ _ 11 8 3 (by decide)).trans ((above _ _ 16 8 3 (by decide)).trans ((above _ _ 21 8 3 (by decide)).trans (g3))))).trans ((below _ _ 11 5 21 5 (by decide) b2 ((above _ _ 16 11 5 (by decide)).trans ((above _ _ 21 11 5 (by decide)).trans (g2)))).trans ((below _ _ 16 5 21 5 (by decide) b1 ((above _ _ 21 16 5 (by decide)).trans (g1))).trans (here _ _ 21 5 b0 (g0))))))
theorem bits16w5_of_21w5_16w5_11w5_8w3_4w2_1w1 (m v0 v1 v2 v3 v4 v5 word : Nat) (h : m + v0 * 2 ^ 21 + v1 * 2 ^ 16 + v2 * 2 ^ 11 + v3 * 2 ^ 8 + v4 * 2 ^ 4 + v5 * 2 ^ 1 = word) (b1 : v1 < 2 ^ 5) (b2 : v2 < 2 ^ 5) (b3 : v3 < 2 ^ 3) (b4 : v4 < 2 ^ 2) (b5 : v5 < 2 ^ 1) (g1 : Sys2Proof.fld m 16 5 = 0) (g2 : Sys2Proof.fld m 11 5 = 0) (g3 : Sys2Proof.fld m 8 3 = 0) (g4 : Sys2Proof.fld m 4 2 = 0) (g5 : Sys2Proof.fld m 1 1 = 0) : Sys2Proof.fld word 16 5 = v1 := by
  subst h; exact (below _ _ 1 1 16 5 (by decide) b5 ((above _ _ 4 1 1 (by decide)).trans ((above _ _ 8 1 1 (by decide)).trans ((above _ _ 11 1 1 (by decide)).trans ((above _ _ 16 1 1 (by decide)).trans ((above _ _ 21 1 1 (by decide)).trans (g5))))))).trans ((below _ _ 4 2 16 5 (by decide) b4 ((above _ _ 8 4 2 (by decide)).trans ((above _ _ 11 4 2 (by decide)).trans ((above _ _ 16 4 2 (by decide)).trans ((above _ _ 21 4 2 (by decide)).trans (g4)))))).trans ((below _ _ 8 3 16 5 (by decide) b3 ((above _ _ 11 8 3 (by decide)).trans ((above _ _ 16 8 3 (by decide)).trans ((above _ _ 21 8 3 (by decide)).trans (g3))))).trans ((below _ _ 11 5 16 5 (by decide) b2 ((above _ _ 16 11 5 (by decide)).trans ((above _ _ 21 11 5 (by decide)).trans (g2)))).trans (here _ _ 16 5 b1 ((above _ _ 21 16 5 (by decide)).trans (g1))))))
theorem bits11w5_of_21w5_16w5_11w5_8w3_4w2_1w1 (m v0 v1 v2 v3 v4 v5 word : Nat) (h : m + v0 * 2 ^ 21 + v1 * 2 ^ 16 + v2 * 2 ^ 11 + v3 * 2 ^ 8 + v4 * 2 ^ 4 + v5 * 2 ^ 1 = word) (b2 : v2 < 2 ^ 5) (b3 : v3 < 2 ^ 3) (b4 : v4 < 2 ^ 2) (b5 : v5 < 2 ^ 1) (g2 : Sys2Proof.fld m 11 5 = 0) (g3 : Sys2Proof.fld m 8 3 = 0) (g4 : Sys2Proof.fld m 4 2 = 0) (g5 : Sys2Proof.fld m 1 1 = 0) : Sys2Proof.fld word 11 5 = v2 := by
  subst h; exact (below _ _ 1 1 11 5 (by decide) b5 ((above _ _ 4 1 1 (by decide)).trans ((above _ _ 8 1 1 (by decide)).trans ((above _ _ 11 1 1 (by decide)).trans ((above _ _ 16 1 1 (by decide)).trans ((above _ _ 21 1 1 (by decide)).trans (g5))))))).trans ((below _ _ 4 2 11 5 (by decide) b4 ((above _ _ 8 4 2 (by decide)).trans ((above _ _ 11 4 2 (by decide)).trans ((above _ _ 16 4 2 (by decide)).trans ((above _ _ 21 4 2 (by decide)).trans (g4)))))).trans ((below _ _ 8 3 11 5 (by decide) b3 ((above _ _ 11 8 3 (by decide)).trans ((above _ _ 16 8 3 (by decide)).trans ((above _ _ 21 8 3 (by decide)).trans (g3))))).trans (here _ _ 11 5 b2 ((above _ _ 16 11 5 (by decide)).trans ((above _ _ 21 11 5 (by decide)).trans (g2))))))
theorem bits8w3_of_21w5_16w5_11w5_8w3_4w2_1w1 (m v0 v1 v2 v3 v4 v5 word : Nat) (h : m + v0 * 2 ^ 21 + v1 * 2 ^ 16 + v2 * 2 ^ 11 + v3 * 2 ^ 8 + v4 * 2 ^ 4 + v5 * 2 ^ 1 = word) (b3 : v3 < 2 ^ 3) (b4 : v4 < 2 ^ 2) (b5 : v5 < 2 ^ 1) (g3 : Sys2Proof.fld m 8 3 = 0) (g4 : Sys2Proof.fld m 4 2 = 0) (g5 : Sys2Proof.fld m 1 1 = 0) : Sys2Proof.fld word 8 3 = v3 := by
  subst h; exact (below _ _ 1 1 8 3 (by decide) b5 ((above _ _ 4 1 1 (by decide)).trans ((above _ _ 8 1 1 (by decide)).trans ((above _ _ 11 1 1 (by decide)).trans ((above _ _ 16 1 1 (by decide)).trans ((above _ _ 21 1 1 (by decide)).trans (g5))))))).trans ((below _ _ 4 2 8 3 (by decide) b4 ((above _ _ 8 4 2 (by decide)).trans ((above _ _ 11 4 2 (by decide)).trans ((above _ _ 16 4 2 (by decide)).trans ((above _ _ 21 4 2 (by decide)).trans (g4)))))).trans (here _ _ 8 3 b3 ((above _ _ 11 8 3 (by decide)).trans ((above _ _ 16 8 3 (by decide)).trans ((above _ _ 21 8 3 (by decide)).trans (g3))))))
theorem bits4w2_of_21w5_16w5_11w5_8w3_4w2_1w1 (m v0 v1 v2 v3 v4 v5 word : Nat) (h : m + v0 * 2 ^ 21 + v1 * 2 ^ 16 + v2 * 2 ^ 11 + v3 * 2 ^ 8 + v4 * 2 ^ 4 + v5 * 2 ^ 1 = word) (b4 : v4 < 2 ^ 2) (b5 : v5 < 2 ^ 1) (g4 : Sys2Proof.fld m 4 2 = 0) (g5 : Sys2Proof.fld m 1 1 = 0) : Sys2Proof.fld word 4 2 = v4 := by
  subst h; exact (below _ _ 1 1 4 2 (by decide) b5 ((above _ _ 4 1 1 (by decide)).trans ((above _ _ 8 1 1 (by decide)).trans ((above _ _ 11 1 1 (by decide)).trans ((above _ _ 16 1 1 (by decide)).trans ((above _ _ 21 1 1 (by decide)).trans (g5))))))).trans (here _ _ 4 2 b4 ((above _ _ 8 4 2 (by decide)).trans ((above _ _ 11 4 2 (by decide)).trans ((above _ _ 16 4 2 (by decide)).trans ((above _ _ 21 4 2 (by decide)).trans (g4))))))
theorem bits1w1_of_21w5_16w5_11w5_8w3_4w2_1w1 (m v0 v1 v2 v3 v4 v5 word : Nat) (h : m + v0 * 2 ^ 21 + v1 * 2 ^ 16 + v2 * 2 ^ 11 + v3 * 2 ^ 8 + v4 * 2 ^ 4 + v5 * 2 ^ 1 = word) (b5 : v5 < 2 ^ 1) (g5 : Sys2Proof.fld m 1 1 = 0) : Sys2Proof.fld word 1 1 = v5 := by
  subst h; exact here _ _ 1 1 b5 ((above _ _ 4 1 1 (by decide)).trans ((above _ _ 8 1 1 (by decide)).trans ((above _ _ 11 1 1 (by decide)).trans ((above _ _ 16 1 1 (by decide)).trans ((above _ _ 21 1 1 (by decide)).trans (g5))))))
theorem bits0w8_of_21w5_16w5_8w3 (m v0 v1 v2 word : Nat) (h : m + v0 * 2 ^ 21 + v1 * 2 ^ 16 + v2 * 2 ^ 8 = word) : Sys2Proof.fld word 0 8 = Sys2Proof.fld m 0 8 := by
  subst h; exact (above _ _ 8 0 8 (by decide)).trans ((above _ _ 16 0 8 (by decide)).trans ((above _ _ 21 0 8 (by decide)).trans (rfl)))
theorem bits26w6_of_8w3 (m v0 word : Nat) (h : m + v0 * 2 ^ 8 = word) (b0 : v0 < 2 ^ 3) (g0 : Sys2Proof.fld m 8 3 = 0) : Sys2Proof.fld word 26 6 = Sys2Proof.fld m 26 6 := by
  subst h; exact (below _ _ 8 3 26 6 (by decide) b0 (g0)).trans (rfl)
theorem bits11w5_of_8w3 (m v0 word : Nat) (h : m + v0 * 2 ^ 8 = word) (b0 : v0 < 2 ^ 3) (g0 : Sys2Proof.fld m 8 3 = 0) : Sys2Proof.fld word 11 5 = Sys2Proof.fld m 11 5 := by
  subst h; exact (below _ _ 8 3 11 5 (by decide) b0 (g0)).trans (rfl)
theorem bits16w10_of_8w3 (m v0 word : Nat) (h : m + v0 * 2 ^ 8 = word) (b0 : v0 < 2 ^ 3) (g0 : Sys2Proof.fld m 8 3 = 0) : Sys2Proof.fld word 16 10 = Sys2Proof.fld m 16 10 := by
  subst h; exact (below _ _ 8 3 16 10 (by decide) b0 (g0)).trans (rfl)
theorem bits0w8_of_8w3 (m v0 word : Nat) (h : m + v0 * 2 ^ 8 = word) : Sys2Proof.fld word 0 8 = Sys2Proof.fld m 0 8 := by
  subst h; exact (above _ _ 8 0 8 (by decide)).trans (rfl)
theorem bits8w3_of_8w3 (m v0 word : Nat) (h : m + v0 * 2 ^ 8 = word) (b0 : v0 < 2 ^ 3) (g0 : Sys2Proof.fld m 8 3 = 0) : Sys2Proof.fld word 8 3 = v0 := by
  subst h; exact here _ _ 8 3 b0 (g0)
theorem bits0w9_of_21w5_16w5_9w2 (m v0 v1 v2 word : Nat) (h : m + v0 * 2 ^ 21 + v1 * 2 ^ 16 + v2 * 2 ^ 9 = word) : Sys2Proof.fld word 0 9 = Sys2Proof.fld m 0 9 := by
  subst h; exact (above _ _ 9 0 9 (by decide)).trans ((above _ _ 16 0 9 (by decide)).trans ((above _ _ 21 0 9 (by decide)).trans (rfl)))
theorem bits26w6_of_16w5_9w2 (m v0 v1 word : Nat) (h : m + v0 * 2 ^ 16 + v1 * 2 ^ 9 = word) (b0 : v0 < 2 ^ 5) (b1 : v1 < 2 ^ 2) (g0 : Sys2Proof.fld m 16 5 = 0) (g1 : Sys2Proof.fld m 9 2 = 0) : Sys2Proof.fld word 26 6 = Sys2Proof.fld m 26 6 := by
  subst h; exact (below _ _ 9 2 26 6 (by decide) b1 ((above _ _ 16 9 2 (by decide)).trans (g1))).trans ((below _ _ 16 5 26 6 (by decide) b0 (g0)).trans (rfl))
theorem bits11w5_of_16w5_9w2 (m v0 v1 word : Nat) (h : m + v0 * 2 ^ 16 + v1 * 2 ^ 9 = word) (b1 : v1 < 2 ^ 2) (g1 : Sys2Proof.fld m 9 2 = 0) : Sys2Proof.fld word 11 5 = Sys2Proof.fld m 11 5 := by
  subst h; exact (below _ _ 9 2 11 5 (by decide) b1 ((above _ _ 16 9 2 (by decide)).trans (g1))).trans ((above _ _ 16 11 5 (by decide)).trans (rfl))
theorem bits21w5_of_16w5_9w2 (m v0 v1 word : Nat) (h : m + v0 * 2 ^ 16 + v1 * 2 ^ 9 = word) (b0 : v0 < 2 ^ 5) (b1 : v1 < 2 ^ 2) (g0 : Sys2Proof.fld m 16 5 = 0) (g1 : Sys2Proof.fld m 9 2 = 0) : Sys2Proof.fld word 21 5 = Sys2Proof.fld m 21 5 := by
  subst h; exact (below _ _ 9 2 21 5 (by decide) b1 ((above _ _ 16 9 2 (by decide)).trans (g1))).trans ((below _ _ 16 5 21 5 (by decide) b0 (g0)).trans (rfl))
theorem bits0w9_of_16w5_9w2 (m v0 v1 word : Nat) (h : m + v0 * 2 ^ 16 + v1 * 2 ^ 9 = word) : Sys2Proof.fld word 0 9 = Sys2Proof.fld m 0 9 := by
  subst h; exact (above _ _ 9 0 9 (by decide)).trans ((above _ _ 16 0 9 (by decide)).trans (rfl))
theorem bits16w5_of_16w5_9w2 (m v0 v1 word : Nat) (h : m + v0 * 2 ^ 16 + v1 * 2 ^ 9 = word) (b0 : v0 < 2 ^ 5) (b1 : v1 < 2 ^ 2) (g0 : Sys2Proof.fld m 16 5 = 0) (g1 : Sys2Proof.fld m 9 2 = 0) : Sys2Proof.fld word 16 5 = v0 := by
  subst h; exact (below _ _ 9 2 16 5 (by decide) b1 ((above _ _ 16 9 2 (by decide)).trans (g1))).trans (here _ _ 16 5 b0 (g0))
theorem bits9w2_of_16w5_9w2 (m v0 v1 word : Nat) (h : m + v0 * 2 ^ 16 + v1 * 2 ^ 9 = word) (b1 : v1 < 2 ^ 2) (g1 : Sys2Proof.fld m 9 2 = 0) : Sys2Proof.fld word 9 2 = v1 := by
  subst h; exact here _ _ 9 2 b1 ((above _ _ 16 9 2 (by decide)).trans (g1))
theorem bits26w6_of_21w5_16w5_12w4_4w4_1w3 (m v0 v1 v2 v3 v4 word : Nat) (h : m + v0 * 2 ^ 21 + v1 * 2 ^ 16 + v2 * 2 ^ 12 + v3 * 2 ^ 4 + v4 * 2 ^ 1 = word) (b0 : v0 < 2 ^ 5) (b1 : v1 < 2 ^ 5) (b2 : v2 < 2 ^ 4) (b3 : v3 < 2 ^ 4) (b4 : v4 < 2 ^ 3) (g0 : Sys2Proof.fld m 21 5 = 0) (g1 : Sys2Proof.fld m 16 5 = 0) (g2 : Sys2Proof.fld m 12 4 = 0) (g3 : Sys2Proof.fld m 4 4 = 0) (g4 : Sys2Proof.fld m 1 3 = 0) : Sys2Proof.fld word 26 6 = Sys2Proof.fld m 26 6 := by
  subst h; exact (below _ _ 1 3 26 6 (by decide) b4 ((above _ _ 4 1 3 (by decide)).trans ((above _ _ 12 1 3 (by decide)).trans ((above _ _ 16 1 3 (by decide)).trans ((above _ _ 21 1 3 (by decide)).trans (g4)))))).trans ((below _ _ 4 4 26 6 (by decide) b3 ((above _ _ 12 4 4 (by decide)).trans ((above _ _ 16 4 4 (by decide)).trans ((above _ _ 21 4 4 (by decide)).trans (g3))))).trans ((below _ _ 12 4 26 6 (by decide) b2 ((above _ _ 16 12 4 (by decide)).trans ((above _ _ 21 12 4 (by decide)).trans (g2)))).trans ((below _ _ 16 5 26 6 (by decide) b1 ((above _ _ 21 16 5 (by decide)).trans (g1))).trans ((below _ _ 21 5 26 6 (by decide) b0 (g0)).trans (rfl)))))
theorem bits8w3_of_21w5_16w5_12w4_4w4_1w3 (m v0 v1 v2 v3 v4 word : Nat) (h : m + v0 * 2 ^ 21 + v1 * 2 ^ 16 + v2 * 2 ^ 12 + v3 * 2 ^ 4 + v4 * 2 ^ 1 = word) (b3 : v3 < 2 ^ 4) (b4 : v4 < 2 ^ 3) (g3 : Sys2Proof.fld m 4 4 = 0) (g4 : Sys2Proof.fld m 1 3 = 0) : Sys2Proof.fld word 8 3 = Sys2Proof.fld m 8 3 := by
  subst h; exact (below _ _ 1 3 8 3 (by decide) b4 ((above _ _ 4 1 3 (by decide)).trans ((above _ _ 12 1 3 (by decide)).trans ((above _ _ 16 1 3 (by decide)).trans ((above _ _ 21 1 3 (by decide)).trans (g4)))))).trans ((below _ _ 4 4 8 3 (by decide) b3 ((above _ _ 12 4 4 (by decide)).trans ((above _ _ 16 4 4 (by decide)).trans ((above _ _ 21 4 4 (by decide)).trans (g3))))).trans ((above _ _ 12 8 3 (by decide)).trans ((above _ _ 16 8 3 (by decide)).trans ((above _ _ 21 8 3 (by decide)).trans (rfl)))))
theorem bits0w1_of_21w5_16w5_12w4_4w4_1w3 (m v0 v1 v2 v3 v4 word : Nat) (h : m + v0 * 2 ^ 21 + v1 * 2 ^ 16 + v2 * 2 ^ 12 + v3 * 2 ^ 4 + v4 * 2 ^ 1 = word) : Sys2Proof.fld word 0 1 = Sys2Proof.fld m 0 1 := by
  subst h; exact (above _ _ 1 0 1 (by decide)).trans ((above _ _ 4 0 1 (by decide)).trans ((above _ _ 12 0 1 (by decide)).trans ((above _ _ 16 0 1 (by decide)).trans ((above _ _ 21 0 1 (by decide)).trans (rfl)))))
theorem bits11w1_of_21w5_16w5_12w4_4w4_1w3 (m v0 v1 v2 v3 v4 word : Nat) (h : m + v0 * 2 ^ 21 + v1 * 2 ^ 16 + v2 * 2 ^ 12 + v3 * 2 ^ 4 + v4 * 2 ^ 1 = word) (b3 : v3 < 2 ^ 4) (b4 : v4 < 2 ^ 3) (g3 : Sys2Proof.fld m 4 4 = 0) (g4 : Sys2Proof.fld m 1 3 = 0) : Sys2Proof.fld word 11 1 = Sys2Proof.fld m 11 1 := by
  subst h; exact (below _ _ 1 3 11 1 (by decide) b4 ((above _ _ 4 1 3 (by decide)).trans ((above _ _ 12 1 3 (by decide)).trans ((above _ _ 16 1 3 (by decide)).trans ((above _ _ 21 1 3 (by decide)).trans (g4)))))).trans ((below _ _ 4 4 11 1 (by decide) b3 ((above _ _ 12 4 4 (by decide)).trans ((above _ _ 16 4 4 (by decide)).trans ((above _ _ 21 4 4 (by decide)).trans (g3))))).trans ((above _ _ 12 11 1 (by decide)).trans ((above _ _ 16 11 1 (by decide)).trans ((above _ _ 21 11 1 (by decide)).trans (rfl)))))
theorem bits21w5_of_21w5_16w5_12w4_4w4_1w3 (m v0 v1 v2 v3 v4 word : Nat) (h : m + v0 * 2 ^ 21 + v1 * 2 ^ 16 + v2 * 2 ^ 12 + v3 * 2 ^ 4 + v4 * 2 ^ 1 = word) (b0 : v0 < 2 ^ 5) (b1 : v1 < 2 ^ 5) (b2 : v2 < 2 ^ 4) (b3 : v3 < 2 ^ 4) (b4 : v4 < 2 ^ 3) (g0 : Sys2Proof.fld m 21 5 = 0) (g1 : Sys2Proof.fld m 16 5 = 0) (g2 : Sys2Proof.fld m 12 4 = 0) (g3 : Sys2Proof.fld m 4 4 = 0) (g4 : Sys2Proof.fld m 1 3 = 0) : Sys2Proof.fld word 21 5 = v0 := by
  subst h; exact (below _ _ 1 3 21 5 (by decide) b4 ((above _ _ 4 1 3 (by decide)).trans ((above _ _ 12 1 3 (by decide)).trans ((above _ _ 16 1 3 (by decide)).trans ((above _ _ 21 1 3 (by decide)).trans (g4)))))).trans ((below _ _ 4 4 21 5 (by decide) b3 ((above _ _ 12 4 4 (by decide)).trans ((above _ _ 16 4 4 (by decide)).trans ((above _ _ 21 4 4 (by decide)).trans (g3))))).trans ((below _ _ 12 4 21 5 (by decide) b2 ((above _ _ 16 12 4 (by decide)).trans ((above _ _ 21 12 4 (by decide)).trans (g2)))).trans ((below _ _ 16 5 21 5 (by decide) b1 ((above _ _ 21 16 5 (by decide)).trans (g1))).trans (here _ _ 21 5 b0 (g0)))))
theorem bits16w5_of_21w5_16w5_12w4_4w4_1w3 (m v0 v1 v2 v3 v4 word : Nat) (h : m + v0 * 2 ^ 21 + v1 * 2 ^ 16 + v2 * 2 ^ 12 + v3 * 2 ^ 4 + v4 * 2 ^ 1 = word) (b1 : v1 < 2 ^ 5) (b2 : v2 < 2 ^ 4) (b3 : v3 < 2 ^ 4) (b4 : v4 < 2 ^ 3) (g1 : Sys2Proof.fld m 16 5 = 0) (g2 : Sys2Proof.fld m 12 4 = 0) (g3 : Sys2Proof.fld m 4 4 = 0) (g4 : Sys2Proof.fld m 1 3 = 0) : Sys2Proof.fld word 16 5 = v1 := by
  subst h; exact (below _ _ 1 3 16 5 (by decide) b4 ((above _ _ 4 1 3 (by decide)).trans ((above _ _ 12 1 3 (by decide)).trans ((above _ _ 16 1 3 (by decide)).trans ((above _ _ 21 1 3 (by decide)).trans (g4)))))).trans ((below _ _ 4 4 16 5 (by decide) b3 ((above _ _ 12 4 4 (by decide)).trans ((above _ _ 16 4 4 (by decide)).trans ((above _ _ 21 4 4 (by decide)).trans (g3))))).trans ((below _ _ 12 4 16 5 (by decide) b2 ((above _ _ 16 12 4 (by decide)).trans ((above _ _ 21 12 4 (by decide)).trans (g2)))).trans (here _ _ 16 5 b1 ((above _ _ 21 16 5 (by decide)).trans (g1)))))
theorem bits12w4_of_21w5_16w5_12w4_4w4_1w3 (m v0 v1 v2 v3 v4 word : Nat) (h : m + v0 * 2 ^ 21 + v1 * 2 ^ 16 + v2 * 2 ^ 12 + v3 * 2 ^ 4 + v4 * 2 ^ 1 = word) (b2 : v2 < 2 ^ 4) (b3 : v3 < 2 ^ 4) (b4 : v4 < 2 ^ 3) (g2 : Sys2Proof.fld m 12 4 = 0) (g3 : Sys2Proof.fld m 4 4 = 0) (g4 : Sys2Proof.fld m 1 3 = 0) : Sys2Proof.fld word 12 4 = v2 := by
  subst h; exact (below _ _ 1 3 12 4 (by decide) b4 ((above _ _ 4 1 3 (by decide)).trans ((above _ _ 12 1 3 (by decide)).trans ((above _ _ 16 1 3 (by decide)).trans ((above _ _ 21 1 3 (by decide)).trans (g4)))))).trans ((below _ _ 4 4 12 4 (by decide) b3 ((above _ _ 12 4 4 (by decide)).trans ((above _ _ 16 4 4 (by decide)).trans ((above _ _ 21 4 4 (by decide)).trans (g3))))).trans (here _ _ 12 4 b2 ((above _ _ 16 12 4 (by decide)).trans ((above _ _ 21 12 4 (by decide)).trans (g2)))))
theorem bits4w4_of_21w5_16w5_12w4_4w4_1w3 (m v0 v1 v2 v3 v4 word : Nat) (h : m + v0 * 2 ^ 21 + v1 * 2 ^ 16 + v2 * 2 ^ 12 + v3 * 2 ^ 4 + v4 * 2 ^ 1 = word) (b3 : v3 < 2 ^ 4) (b4 : v4 < 2 ^ 3) (g3 : Sys2Proof.fld m 4 4 = 0) (g4 : Sys2Proof.fld m 1 3 = 0) : Sys2Proof.fld word 4 4 = v3 := by
  subst h; exact (below _ _ 1 3 4 4 (by decide) b4 ((above _ _ 4 1 3 (by decide)).trans ((above _ _ 12 1 3 (by decide)).trans ((above _ _ 16 1 3 (by decide)).trans ((above _ _ 21 1 3 (by decide)).trans (g4)))))).trans (here _ _ 4 4 b3 ((above _ _ 12 4 4 (by decide)).trans ((above _ _ 16 4 4 (by decide)).trans ((above _ _ 21 4 4 (by decide)).trans (g3)))))
theorem bits1w3_of_21w5_16w5_12w4_4w4_1w3 (m v0 v1 v2 v3 v4 word : Nat) (h : m + v0 * 2 ^ 21 + v1 * 2 ^ 16 + v2 * 2 ^ 12 + v3 * 2 ^ 4 + v4 * 2 ^ 1 = word) (b4 : v4 < 2 ^ 3) (g4 : Sys2Proof.fld m 1 3 = 0) : Sys2Proof.fld word 1 3 = v4 := by
  subst h; exact here _ _ 1 3 b4 ((above _ _ 4 1 3 (by decide)).trans ((above _ _ 12 1 3 (by decide)).trans ((above _ _ 16 1 3 (by decide)).trans ((above _ _ 21 1 3 (by decide)).trans (g4)))))
theorem bits0w8_of_21w3_16w3_11w3 (m v0 v1 v2 word : Nat) (h : m + v0 * 2 ^ 21 + v1 * 2 ^ 16 + v2 * 2 ^ 11 = word) : Sys2Proof.fld word 0 8 = Sys2Proof.fld m 0 8 := by
  subst h; exact (above _ _ 11 0 8 (by decide)).trans ((above _ _ 16 0 8 (by decide)).trans ((above _ _ 21 0 8 (by decide)).trans (rfl)))
theorem bits8w3_of_21w3_16w3_11w3 (m v0 v1 v2 word : Nat) (h : m + v0 * 2 ^ 21 + v1 * 2 ^ 16 + v2 * 2 ^ 11 = word) : Sys2Proof.fld word 8 3 = Sys2Proof.fld m 8 3 := by
  subst h; exact (above _ _ 11 8 3 (by decide)).trans ((above _ _ 16 8 3 (by decide)).trans ((above _ _ 21 8 3 (by decide)).trans (rfl)))
theorem bits0w8_of_21w3_16w5 (m v0 v1 word : Nat) (h : m + v0 * 2 ^ 21 + v1 * 2 ^ 16 = word) : Sys2Proof.fld word 0 8 = Sys2Proof.fld m 0 8 := by
  subst h; exact (above _ _ 16 0 8 (by decide)).trans ((above _ _ 21 0 8 (by decide)).trans (rfl))
theorem bits8w8_of_21w3_16w5 (m v0 v1 word : Nat) (h : m + v0 * 2 ^ 21 + v1 * 2 ^ 16 = word) : Sys2Proof.fld word 8 8 = Sys2Proof.fld m 8 8 := by
  subst h; exact (above _ _ 16 8 8 (by decide)).trans ((above _ _ 21 8 8 (by decide)).trans (rfl))
theorem bits0w11_of_21w3_16w5 (m v0 v1 word : Nat) (h : m + v0 * 2 ^ 21 + v1 * 2 ^ 16 = word) : Sys2Proof.fld word 0 11 = Sys2Proof.fld m 0 11 := by
  subst h; exact (above _ _ 16 0 11 (by decide)).trans ((above _ _ 21 0 11 (by decide)).trans (rfl))
theorem bits26w6_of_21w3 (m v0 word : Nat) (h : m + v0 * 2 ^ 21 = word) (b0 : v0 < 2 ^ 3) (g0 : Sys2Proof.fld m 21 3 = 0) : Sys2Proof.fld word 26 6 = Sys2Proof.fld m 26 6 := by
  subst h; exact (below _ _ 21 3 26 6 (by decide) b0 (g0)).trans (rfl)
theorem bits11w5_of_21w3 (m v0 word : Nat) (h : m + v0 * 2 ^ 21 = word) : Sys2Proof.fld word 11 5 = Sys2Proof.fld m 11 5 := by
  subst h; exact (above _ _ 21 11 5 (by decide)).trans (rfl)
theorem bits24w2_of_21w3 (m v0 word : Nat) (h : m + v0 * 2 ^ 21 = word) (b0 : v0 < 2 ^ 3) (g0 : Sys2Proof.fld m 21 3 = 0) : Sys2Proof.fld word 24 2 = Sys2Proof.fld m 24 2 := by
  subst h; exact (below _ _ 21 3 24 2 (by decide) b0 (g0)).trans (rfl)
theorem bits16w5_of_21w3 (m v0 word : Nat) (h : m + v0 * 2 ^ 21 = word) : Sys2Proof.fld word 16 5 = Sys2Proof.fld m 16 5 := by
  subst h; exact (above _ _ 21 16 5 (by decide)).trans (rfl)
theorem bits0w11_of_21w3 (m v0 word : Nat) (h : m + v0 * 2 ^ 21 = word) : Sys2Proof.fld word 0 11 = Sys2Proof.fld m 0 11 := by
  subst h; exact (above _ _ 21 0 11 (by decide)).trans (rfl)
theorem bits21w3_of_21w3 (m v0 word : Nat) (h : m + v0 * 2 ^ 21 = word) (b0 : v0 < 2 ^ 3) (g0 : Sys2Proof.fld m 21 3 = 0) : Sys2Proof.fld word 21 3 = v0 := by
  subst h; exact here _ _ 21 3 b0 (g0)
theorem bits26w6_of_21w3_16w5_11w5_8w3_0w3 (m v0 v1 v2 v3 v4 word : Nat) (h : m + v0 * 2 ^ 21 + v1 * 2 ^ 16 + v2 * 2 ^ 11 + v3 * 2 ^ 8 + v4 * 2 ^ 0 = word) (b0 : v0 < 2 ^ 3) (b1 : v1 < 2 ^ 5) (b2 : v2 < 2 ^ 5) (b3 : v3 < 2 ^ 3) (b4 : v4 < 2 ^ 3) (g0 : Sys2Proof.fld m 21 3 = 0) (g1 : Sys2Proof.fld m 16 5 = 0) (g2 : Sys2Proof.fld m 11 5 = 0) (g3 : Sys2Proof.fld m 8 3 = 0) (g4 : Sys2Proof.fld m 0 3 = 0) : Sys2Proof.fld word 26 6 = Sys2Proof.fld m 26 6 := by
  subst h; exact (below _ _ 0 3 26 6 (by decide) b4 ((above _ _ 8 0 3 (by decide)).trans ((above _ _ 11 0 3 (by decide)).trans ((above _ _ 16 0 3 (by decide)).trans ((above _ _ 21 0 3 (by decide)).trans (g4)))))).trans ((below _ _ 8 3 26 6 (by decide) b3 ((above _ _ 11 8 3 (by decide)).trans ((above _ _ 16 8 3 (by decide)).trans ((above _ _ 21 8 3 (by decide)).trans (g3))))).trans ((below _ _ 11 5 26 6 (by decide) b2 ((above _ _ 16 11 5 (by decide)).trans ((above _ _ 21 11 5 (by decide)).trans (g2)))).trans ((below _ _ 16 5 26 6 (by decide) b1 ((above _ _ 21 16 5 (by decide)).trans (g1))).trans ((below _ _ 21 3 26 6 (by decide) b0 (g0)).trans (rfl)))))
theorem bits24w2_of_21w3_16w5_11w5_8w3_0w3 (m v0 v1 v2 v3 v4 word : Nat) (h : m + v0 * 2 ^ 21 + v1 * 2 ^ 16 + v2 * 2 ^ 11 + v3 * 2 ^ 8 + v4 * 2 ^ 0 = word) (b0 : v0 < 2 ^ 3) (b1 : v1 < 2 ^ 5) (b2 : v2 < 2 ^ 5) (b3 : v3 < 2 ^ 3) (b4 : v4 < 2 ^ 3) (g0 : Sys2Proof.fld m 21 3 = 0) (g1 : Sys2Proof.fld m 16 5 = 0) (g2 : Sys2Proof.fld m 11 5 = 0) (g3 : Sys2Proof.fld m 8 3 = 0) (g4 : Sys2Proof.fld m 0 3 = 0) : Sys2Proof.fld word 24 2 = Sys2Proof.fld m 24 2 := by
  subst h; exact (below _ _ 0 3 24 2 (by decide) b4 ((above _ _ 8 0 3 (by decide)).trans ((above _ _ 11 0 3 (by decide)).trans ((above _ _ 16 0 3 (by decide)).trans ((above _ _ 21 0 3 (by decide)).trans (g4)))))).trans ((below _ _ 8 3 24 2 (by decide) b3 ((above _ _ 11 8 3 (by decide)).trans ((above _ _ 16 8 3 (by decide)).trans ((above _ _ 21 8 3 (by decide)).trans (g3))))).trans ((below _ _ 11 5 24 2 (by decide) b2 ((above _ _ 16 11 5 (by decide)).trans ((above _ _ 21 11 5 (by decide)).trans (g2)))).trans ((below _ _ 16 5 24 2 (by decide) b1 ((above _ _ 21 16 5 (by decide)).trans (g1))).trans ((below _ _ 21 3 24 2 (by decide) b0 (g0)).trans (rfl)))))
theorem bits0w4_of_21w3_16w5_11w5_8w3_0w3 (m v0 v1 v2 v3 v4 word : Nat) (h : m + v0 * 2 ^ 21 + v1 * 2 ^ 16 + v2 * 2 ^ 11 + v3 * 2 ^ 8 + v4 * 2 ^ 0 = word) (b4 : v4 < 2 ^ 3) (g4 : Sys2Proof.fld m 0 3 = 0) : Sys2Proof.fld word 0 4 = Sys2Proof.fld m 0 4 + v4 * 2 ^ 0 := by
  subst h; exact (inside _ _ 0 3 0 4 (by decide) (by decide) b4 ((above _ _ 8 0 3 (by decide)).trans ((above _ _ 11 0 3 (by decide)).trans ((above _ _ 16 0 3 (by decide)).trans ((above _ _ 21 0 3 (by decide)).trans (g4)))))).trans (congrArg (· + v4 * 2 ^ 0) ((above _ _ 8 0 4 (by decide)).trans ((above _ _ 11 0 4 (by decide)).trans ((above _ _ 16 0 4 (by decide)).trans ((above _ _ 21 0 4 (by decide)).trans (rfl))))))
theorem bits4w1_of_21w3_16w5_11w5_8w3_0w3 (m v0 v1 v2 v3 v4 word : Nat) (h : m + v0 * 2 ^ 21 + v1 * 2 ^ 16 + v2 * 2 ^ 11 + v3 * 2 ^ 8 + v4 * 2 ^ 0 = word) (b4 : v4 < 2 ^ 3) (g4 : Sys2Proof.fld m 0 3 = 0) : Sys2Proof.fld word 4 1 = Sys2Proof.fld m 4 1 := by
  subst h; exact (below _ _ 0 3 4 1 (by decide) b4 ((above _ _ 8 0 3 (by decide)).trans ((above _ _ 11 0 3 (by decide)).trans ((above _ _ 16 0 3 (by decide)).trans ((above _ _ 21 0 3 (by decide)).trans (g4)))))).trans ((above _ _ 8 4 1 (by decide)).trans ((above _ _ 11 4 1 (by decide)).trans ((above _ _ 16 4 1 (by decide)).trans ((above _ _ 21 4 1 (by decide)).trans (rfl)))))
theorem bits5w3_of_21w3_16w5_11w5_8w3_0w3 (m v0 v1 v2 v3 v4 word : Nat) (h : m + v0 * 2 ^ 21 + v1 * 2 ^ 16 + v2 * 2 ^ 11 + v3 * 2 ^ 8 + v4 * 2 ^ 0 = word) (b4 : v4 < 2 ^ 3) (g4 : Sys2Proof.fld m 0 3 = 0) : Sys2Proof.fld word 5 3 = Sys2Proof.fld m 5 3 := by
  subst h; exact (below _ _ 0 3 5 3 (by decide) b4 ((above _ _ 8 0 3 (by decide)).trans ((above _ _ 11 0 3 (by decide)).trans ((above _ _ 16 0 3 (by decide)).trans ((above _ _ 21 0 3 (by decide)).trans (g4)))))).trans ((above _ _ 8 5 3 (by decide)).trans ((above _ _ 11 5 3 (by decide)).trans ((above _ _ 16 5 3 (by decide)).trans ((above _ _ 21 5 3 (by decide)).trans (rfl)))))
theorem bits21w3_of_21w3_16w5_11w5_8w3_0w3 (m v0 v1 v2 v3 v4 word : Nat) (h : m + v0 * 2 ^ 21 + v1 * 2 ^ 16 + v2 * 2 ^ 11 + v3 * 2 ^ 8 + v4 * 2 ^ 0 = word) (b0 : v0 < 2 ^ 3) (b1 : v1 < 2 ^ 5) (b2 : v2 < 2 ^ 5) (b3 : v3 < 2 ^ 3) (b4 : v4 < 2 ^ 3) (g0 : Sys2Proof.fld m 21 3 = 0) (g1 : Sys2Proof.fld m 16 5 = 0) (g2 : Sys2Proof.fld m 11 5 = 0) (g3 : Sys2Proof.fld m 8 3 = 0) (g4 : Sys2Proof.fld m 0 3 = 0) : Sys2Proof.fld word 21 3 = v0 := by
  subst h; exact (below _ _ 0 3 21 3 (by decide) b4 ((above _ _ 8 0 3 (by decide)).trans ((above _ _ 11 0 3 (by decide)).trans ((above _ _ 16 0 3 (by decide)).trans ((above _ _ 21 0 3 (by decide)).trans (g4)))))).trans ((below _ _ 8 3 21 3 (by decide) b3 ((above _ _ 11 8 3 (by decide)).trans ((above _ _ 16 8 3 (by decide)).trans ((above _ _ 21 8 3 (by decide)).trans (g3))))).trans ((below _ _ 11 5 21 3 (by decide) b2 ((above _ _ 16 11 5 (by decide)).trans ((above _ _ 21 11 5 (by decide)).trans (g2)))).trans ((below _ _ 16 5 21 3 (by decide) b1 ((above _ _ 21 16 5 (by decide)).trans (g1))).trans (here _ _ 21 3 b0 (g0)))))
theorem bits16w5_of_21w3_16w5_11w5_8w3_0w3 (m v0 v1 v2 v3 v4 word : Nat) (h : m + v0 * 2 ^ 21 + v1 * 2 ^ 16 + v2 * 2 ^ 11 + v3 * 2 ^ 8 + v4 * 2 ^ 0 = word) (b1 : v1 < 2 ^ 5) (b2 : v2 < 2 ^ 5) (b3 : v3 < 2 ^ 3) (b4 : v4 < 2 ^ 3) (g1 : Sys2Proof.fld m 16 5 = 0) (g2 : Sys2Proof.fld m 11 5 = 0) (g3 : Sys2Proof.fld m 8 3 = 0) (g4 : Sys2Proof.fld m 0 3 = 0) : Sys2Proof.fld word 16 5 = v1 := by
  subst h; exact (below _ _ 0 3 16 5 (by decide) b4 ((above _ _ 8 0 3 (by decide)).trans ((above _ _ 11 0 3 (by decide)).trans ((above _ _ 16 0 3 (by decide)).trans ((above _ _ 21 0 3 (by decide)).trans (g4)))))).trans ((below _ _ 8 3 16 5 (by decide) b3 ((above _ _ 11 8 3 (by decide)).trans ((above _ _ 16 8 3 (by decide)).trans ((above _ _ 21 8 3 (by decide)).trans (g3))))).trans ((below _ _ 11 5 16 5 (by decide) b2 ((above _ _ 16 11 5 (by decide)).trans ((above _ _ 21 11 5 (by decide)).trans (g2)))).trans (here _ _ 16 5 b1 ((above _ _ 21 16 5 (by decide)).trans (g1)))))
theorem bits11w5_of_21w3_16w5_11w5_8w3_0w3 (m v0 v1 v2 v3 v4 word : Nat) (h : m + v0 * 2 ^ 21 + v1 * 2 ^ 16 + v2 * 2 ^ 11 + v3 * 2 ^ 8 + v4 * 2 ^ 0 = word) (b2 : v2 < 2 ^ 5) (b3 : v3 < 2 ^ 3) (b4 : v4 < 2 ^ 3) (g2 : Sys2Proof.fld m 11 5 = 0) (g3 : Sys2Proof.fld m 8 3 = 0) (g4 : Sys2Proof.fld m 0 3 = 0) : Sys2Proof.fld word 11 5 = v2 := by
  subst h; exact (below _ _ 0 3 11 5 (by decide) b4 ((above _ _ 8 0 3 (by decide)).trans ((above _ _ 11 0 3 (by decide)).trans ((above _ _ 16 0 3 (by decide)).trans ((above _ _ 21 0 3 (by decide)).trans (g4)))))).trans ((below _ _ 8 3 11 5 (by decide) b3 ((above _ _ 11 8 3 (by decide)).trans ((above _ _ 16 8 3 (by decide)).trans ((above _ _ 21 8 3 (by decide)).trans (g3))))).trans (here _ _ 11 5 b2 ((above _ _ 16 11 5 (by decide)).trans ((above _ _ 21 11 5 (by decide)).trans (g2)))))
theorem bits8w3_of_21w3_16w5_11w5_8w3_0w3 (m v0 v1 v2 v3 v4 word : Nat) (h : m + v0 * 2 ^ 21 + v1 * 2 ^ 16 + v2 * 2 ^ 11 + v3 * 2 ^ 8 + v4 * 2 ^ 0 = word) (b3 : v3 < 2 ^ 3) (b4 : v4 < 2 ^ 3) (g3 : Sys2Proof.fld m 8 3 = 0) (g4 : Sys2Proof.fld m 0 3 = 0) : Sys2Proof.fld word 8 3 = v3 := by
  subst h; exact (below _ _ 0 3 8 3 (by decide) b4 ((above _ _ 8 0 3 (by decide)).trans ((above _ _ 11 0 3 (by decide)).trans ((above _ _ 16 0 3 (by decide)).trans ((above _ _ 21 0 3 (by decide)).trans (g4)))))).trans (here _ _ 8 3 b3 ((above _ _ 11 8 3 (by decide)).trans ((above _ _ 16 8 3 (by decide)).trans ((above _ _ 21 8 3 (by decide)).trans (g3)))))
theorem bits26w6_of_21w3_16w5_11w5_0w2 (m v0 v1 v2 v3 word : Nat) (h : m + v0 * 2 ^ 21 + v1 * 2 ^ 16 + v2 * 2 ^ 11 + v3 * 2 ^ 0 = word) (b0 : v0 < 2 ^ 3) (b1 : v1 < 2 ^ 5) (b2 : v2 < 2 ^ 5) (b3 : v3 < 2 ^ 2) (g0 : Sys2Proof.fld m 21 3 = 0) (g1 : Sys2Proof.fld m 16 5 = 0) (g2 : Sys2Proof.fld m 11 5 = 0) (g3 : Sys2Proof.fld m 0 2 = 0) : Sys2Proof.fld word 26 6 = Sys2Proof.fld m 26 6 := by
  subst h; exact (below _ _ 0 2 26 6 (by decide) b3 ((above _ _ 11 0 2 (by decide)).trans ((above _ _ 16 0 2 (by decide)).trans ((above _ _ 21 0 2 (by decide)).trans (g3))))).trans ((below _ _ 11 5 26 6 (by decide) b2 ((above _ _ 16 11 5 (by decide)).trans ((above _ _ 21 11 5 (by decide)).trans (g2)))).trans ((below _ _ 16 5 26 6 (by decide) b1 ((above _ _ 21 16 5 (by decide)).trans (g1))).trans ((below _ _ 21 3 26 6 (by decide) b0 (g0)).trans (rfl))))
theorem bits24w2_of_21w3_16w5_11w5_0w2 (m v0 v1 v2 v3 word : Nat) (h : m + v0 * 2 ^ 21 + v1 * 2 ^ 16 + v2 * 2 ^ 11 + v3 * 2 ^ 0 = word) (b0 : v0 < 2 ^ 3) (b1 : v1 < 2 ^ 5) (b2 : v2 < 2 ^ 5) (b3 : v3 < 2 ^ 2) (g0 : Sys2Proof.fld m 21 3 = 0) (g1 : Sys2Proof.fld m 16 5 = 0) (g2 : Sys2Proof.fld m 11 5 = 0) (g3 : Sys2Proof.fld m 0 2 = 0) : Sys2Proof.fld word 24 2 = Sys2Proof.fld m 24 2 := by
  subst h; exact (below _ _ 0 2 24 2 (by decide) b3 ((above _ _ 11 0 2 (by decide)).trans ((above _ _ 16 0 2 (by decide)).trans ((above _ _ 21 0 2 (by decide)).trans (g3))))).trans ((below _ _ 11 5 24 2 (by decide) b2 ((above _ _ 16 11 5 (by decide)).trans ((above _ _ 21 11 5 (by decide)).trans (g2)))).trans ((below _ _ 16 5 24 2 (by decide) b1 ((above _ _ 21 16 5 (by decide)).trans (g1))).trans ((below _ _ 21 3 24 2 (by decide) b0 (g0)).trans (rfl))))
theorem bits2w1_of_21w3_16w5_11w5_0w2 (m v0 v1 v2 v3 word : Nat) (h : m + v0 * 2 ^ 21 + v1 * 2 ^ 16 + v2 * 2 ^ 11 + v3 * 2 ^ 0 = word) (b3 : v3 < 2 ^ 2) (g3 : Sys2Proof.fld m 0 2 = 0) : Sys2Proof.fld word 2 1 = Sys2Proof.fld m 2 1 := by
  subst h; exact (below _ _ 0 2 2 1 (by decide) b3 ((above _ _ 11 0 2 (by decide)).trans ((above _ _ 16 0 2 (by decide)).trans ((above _ _ 21 0 2 (by decide)).trans (g3))))).trans ((above _ _ 11 2 1 (by decide)).trans ((above _ _ 16 2 1 (by decide)).trans ((above _ _ 21 2 1 (by decide)).trans (rfl))))
theorem bits3w8_of_21w3_16w5_11w5_0w2 (m v0 v1 v2 v3 word : Nat) (h : m + v0 * 2 ^ 21 + v1 * 2 ^ 16 + v2 * 2 ^ 11 + v3 * 2 ^ 0 = word) (b3 : v3 < 2 ^ 2) (g3 : Sys2Proof.fld m 0 2 = 0) : Sys2Proof.fld word 3 8 = Sys2Proof.fld m 3 8 := by
  subst h; exact (below _ _ 0 2 3 8 (by decide) b3 ((above _ _ 11 0 2 (by decide)).trans ((above _ _ 16 0 2 (by decide)).trans ((above _ _ 21 0 2 (by decide)).trans (g3))))).trans ((above _ _ 11 3 8 (by decide)).trans ((above _ _ 16 3 8 (by decide)).trans ((above _ _ 21 3 8 (by decide)).trans (rfl))))
theorem bits21w3_of_21w3_16w5_11w5_0w2 (m v0 v1 v2 v3 word : Nat) (h : m + v0 * 2 ^ 21 + v1 * 2 ^ 16 + v2 * 2 ^ 11 + v3 * 2 ^ 0 = word) (b0 : v0 < 2 ^ 3) (b1 : v1 < 2 ^ 5) (b2 : v2 < 2 ^ 5) (b3 : v3 < 2 ^ 2) (g0 : Sys2Proof.fld m 21 3 = 0) (g1 : Sys2Proof.fld m 16 5 = 0) (g2 : Sys2Proof.fld m 11 5 = 0) (g3 : Sys2Proof.fld m 0 2 = 0) : Sys2Proof.fld word 21 3 = v0 := by
  subst h; exact (below _ _ 0 2 21 3 (by decide) b3 ((above _ _ 11 0 2 (by decide)).trans ((above _ _ 16 0 2 (by decide)).trans ((above _ _ 21 0 2 (by decide)).trans (g3))))).trans ((below _ _ 11 5 21 3 (by decide) b2 ((above _ _ 16 11 5 (by decide)).trans ((above _ _ 21 11 5 (by decide)).trans (g2)))).trans ((below _ _ 16 5 21 3 (by decide) b1 ((above _ _ 21 16 5 (by decide)).trans (g1))).trans (here _ _ 21 3 b0 (g0))))
theorem bits16w5_of_21w3_16w5_11w5_0w2 (m v0 v1 v2 v3 word : Nat) (h : m + v0 * 2 ^ 21 + v1 * 2 ^ 16 + v2 * 2 ^ 11 + v3 * 2 ^ 0 = word) (b1 : v1 < 2 ^ 5) (b2 : v2 < 2 ^ 5) (b3 : v3 < 2 ^ 2) (g1 : Sys2Proof.fld m 16 5 = 0) (g2 : Sys2Proof.fld m 11 5 = 0) (g3 : Sys2Proof.fld m 0 2 = 0) : Sys2Proof.fld word 16 5 = v1 := by
  subst h; exact (below _ _ 0 2 16 5 (by decide) b3 ((above _ _ 11 0 2 (by decide)).trans ((above _ _ 16 0 2 (by decide)).trans ((above _ _ 21 0 2 (by decide)).trans (g3))))).trans ((below _ _ 11 5 16 5 (by decide) b2 ((above _ _ 16 11 5 (by decide)).trans ((above _ _ 21 11 5 (by decide)).trans (g2)))).trans (here _ _ 16 5 b1 ((above _ _ 21 16 5 (by decide)).trans (g1))))
theorem bits11w5_of_21w3_16w5_11w5_0w2 (m v0 v1 v2 v3 word : Nat) (h : m + v0 * 2 ^ 21 + v1 * 2 ^ 16 + v2 * 2 ^ 11 + v3 * 2 ^ 0 = word) (b2 : v2 < 2 ^ 5) (b3 : v3 < 2 ^ 2) (g2 : Sys2Proof.fld m 11 5 = 0) (g3 : Sys2Proof.fld m 0 2 = 0) : Sys2Proof.fld word 11 5 = v2 := by
  subst h; exact (below _ _ 0 2 11 5 (by decide) b3 ((above _ _ 11 0 2 (by decide)).trans ((above _ _ 16 0 2 (by decide)).trans ((above _ _ 21 0 2 (by decide)).trans (g3))))).trans (here _ _ 11 5 b2 ((above _ _ 16 11 5 (by decide)).trans ((above _ _ 21 11 5 (by decide)).trans (g2))))
theorem bits0w2_of_21w3_16w5_11w5_0w2 (m v0 v1 v2 v3 word : Nat) (h : m + v0 * 2 ^ 21 + v1 * 2 ^ 16 + v2 * 2 ^ 11 + v3 * 2 ^ 0 = word) (b3 : v3 < 2 ^ 2) (g3 : Sys2Proof.fld m 0 2 = 0) : Sys2Proof.fld word 0 2 = v3 := by
  subst h; exact here _ _ 0 2 b3 ((above _ _ 11 0 2 (by decide)).trans ((above _ _ 16 0 2 (by decide)).trans ((above _ _ 21 0 2 (by decide)).trans (g3))))
theorem bits26w6_of_21w5_16w3_11w5_8w3 (m v0 v1 v2 v3 word : Nat) (h : m + v0 * 2 ^ 21 + v1 * 2 ^ 16 + v2 * 2 ^ 11 + v3 * 2 ^ 8 = word) (b0 : v0 < 2 ^ 5) (b1 : v1 < 2 ^ 3) (b2 : v2 < 2 ^ 5) (b3 : v3 < 2 ^ 3) (g0 : Sys2Proof.fld m 21 5 = 0) (g1 : Sys2Proof.fld m 16 3 = 0) (g2 : Sys2Proof.fld m 11 5 = 0) (g3 : Sys2Proof.fld m 8 3 = 0) : Sys2Proof.fld word 26 6 = Sys2Proof.fld m 26 6 := by
  subst h; exact (below _ _ 8 3 26 6 (by decide) b3 ((above _ _ 11 8 3 (by decide)).trans ((above _ _ 16 8 3 (by decide)).trans ((above _ _ 21 8 3 (by decide)).trans (g3))))).trans ((below _ _ 11 5 26 6 (by decide) b2 ((above _ _ 16 11 5 (by decide)).trans ((above _ _ 21 11 5 (by decide)).trans (g2)))).trans ((below _ _ 16 3 26 6 (by decide) b1 ((above _ _ 21 16 3 (by decide)).trans (g1))).trans ((below _ _ 21 5 26 6 (by decide) b0 (g0)).trans (rfl))))
theorem bits0w8_of_21w5_16w3_11w5_8w3 (m v0 v1 v2 v3 word : Nat) (h : m + v0 * 2 ^ 21 + v1 * 2 ^ 16 + v2 * 2 ^ 11 + v3 * 2 ^ 8 = word) : Sys2Proof.fld word 0 8 = Sys2Proof.fld m 0 8 := by
  subst h; exact (above _ _ 8 0 8 (by decide)).trans ((above _ _ 11 0 8 (by decide)).trans ((above _ _ 16 0 8 (by decide)).trans ((above _ _ 21 0 8 (by decide)).trans (rfl))))
theorem bits19w2_of_21w5_16w3_11w5_8w3 (m v0 v1 v2 v3 word : Nat) (h : m + v0 * 2 ^ 21 + v1 * 2 ^ 16 + v2 * 2 ^ 11 + v3 * 2 ^ 8 = word) (b1 : v1 < 2 ^ 3) (b2 : v2 < 2 ^ 5) (b3 : v3 < 2 ^ 3) (g1 : Sys2Proof.fld m 16 3 = 0) (g2 : Sys2Proof.fld m 11 5 = 0) (g3 : Sys2Proof.fld m 8 3 = 0) : Sys2Proof.fld word 19 2 = Sys2Proof.fld m 19 2 := by
  subst h; exact (below _ _ 8 3 19 2 (by decide) b3 ((above _ _ 11 8 3 (by decide)).trans ((above _ _ 16 8 3 (by decide)).trans ((above _ _ 21 8 3 (by decide)).trans (g3))))).trans ((below _ _ 11 5 19 2 (by decide) b2 ((above _ _ 16 11 5 (by decide)).trans ((above _ _ 21 11 5 (by decide)).trans (g2)))).trans ((below _ _ 16 3 19 2 (by decide) b1 ((above _ _ 21 16 3 (by decide)).trans (g1))).trans ((above _ _ 21 19 2 (by decide)).trans (rfl))))
theorem bits21w5_of_21w5_16w3_11w5_8w3 (m v0 v1 v2 v3 word : Nat) (h : m + v0 * 2 ^ 21 + v1 * 2 ^ 16 + v2 * 2 ^ 11 + v3 * 2 ^ 8 = word) (b0 : v0 < 2 ^ 5) (b1 : v1 < 2 ^ 3) (b2 : v2 < 2 ^ 5) (b3 : v3 < 2 ^ 3) (g0 : Sys2Proof.fld m 21 5 = 0) (g1 : Sys2Proof.fld m 16 3 = 0) (g2 : Sys2Proof.fld m 11 5 = 0) (g3 : Sys2Proof.fld m 8 3 = 0) : Sys2Proof.fld word 21 5 = v0 := by
  subst h; exact (below _ _ 8 3 21 5 (by decide) b3 ((above _ _ 11 8 3 (by decide)).trans ((above _ _ 16 8 3 (by decide)).trans ((above _ _ 21 8 3 (by decide)).trans (g3))))).trans ((below _ _ 11 5 21 5 (by decide) b2 ((above _ _ 16 11 5 (by decide)).trans ((above _ _ 21 11 5 (by decide)).trans (g2)))).trans ((below _ _ 16 3 21 5 (by decide) b1 ((above _ _ 21 16 3 (by decide)).trans (g1))).trans (here _ _ 21 5 b0 (g0))))
theorem bits16w3_of_21w5_16w3_11w5_8w3 (m v0 v1 v2 v3 word : Nat) (h : m + v0 * 2 ^ 21 + v1 * 2 ^ 16 + v2 * 2 ^ 11 + v3 * 2 ^ 8 = word) (b1 : v1 < 2 ^ 3) (b2 : v2 < 2 ^ 5) (b3 : v3 < 2 ^ 3) (g1 : Sys2Proof.fld m 16 3 = 0) (g2 : Sys2Proof.fld m 11 5 = 0) (g3 : Sys2Proof.fld m 8 3 = 0) : Sys2Proof.fld word 16 3 = v1 := by
  subst h; exact (below _ _ 8 3 16 3 (by decide) b3 ((above _ _ 11 8 3 (by decide)).trans ((above _ _ 16 8 3 (by decide)).trans ((above _ _ 21 8 3 (by decide)).trans (g3))))).trans ((below _ _ 11 5 16 3 (by decide) b2 ((above _ _ 16 11 5 (by decide)).trans ((above _ _ 21 11 5 (by decide)).trans (g2)))).trans (here _ _ 16 3 b1 ((above _ _ 21 16 3 (by decide)).trans (g1))))
theorem bits11w5_of_21w5_16w3_11w5_8w3 (m v0 v1 v2 v3 word : Nat) (h : m + v0 * 2 ^ 21 + v1 * 2 ^ 16 + v2 * 2 ^ 11 + v3 * 2 ^ 8 = word) (b2 : v2 < 2 ^ 5) (b3 : v3 < 2 ^ 3) (g2 : Sys2Proof.fld m 11 5 = 0) (g3 : Sys2Proof.fld m 8 3 = 0) : Sys2Proof.fld word 11 5 = v2 := by
  subst h; exact (below _ _ 8 3 11 5 (by decide) b3 ((above _ _ 11 8 3 (by decide)).trans ((above _ _ 16 8 3 (by decide)).trans ((above _ _ 21 8 3 (by decide)).trans (g3))))).trans (here _ _ 11 5 b2 ((above _ _ 16 11 5 (by decide)).trans ((above _ _ 21 11 5 (by decide)).trans (g2))))
theorem bits8w3_of_21w5_16w3_11w5_8w3 (m v0 v1 v2 v3 word : Nat) (h : m + v0 * 2 ^ 21 + v1 * 2 ^ 16 + v2 * 2 ^ 11 + v3 * 2 ^ 8 = word) (b3 : v3 < 2 ^ 3) (g3 : Sys2Proof.fld m 8 3 = 0) : Sys2Proof.fld word 8 3 = v3 := by
  subst h; exact here _ _ 8 3 b3 ((above _ _ 11 8 3 (by decide)).trans ((above _ _ 16 8 3 (by decide)).trans ((above _ _ 21 8 3 (by decide)).trans (g3))))
theorem bits26w6_of_21w3_16w5_11w5 (m v0 v1 v2 word : Nat) (h : m + v0 * 2 ^ 21 + v1 * 2 ^ 16 + v2 * 2 ^ 11 = word) (b0 : v0 < 2 ^ 3) (b1 : v1 < 2 ^ 5) (b2 : v2 < 2 ^ 5) (g0 : Sys2Proof.fld m 21 3 = 0) (g1 : Sys2Proof.fld m 16 5 = 0) (g2 : Sys2Proof.fld m 11 5 = 0) : Sys2Proof.fld word 26 6 = Sys2Proof.fld m 26 6 := by
  subst h; exact (below _ _ 11 5 26 6 (by decide) b2 ((above _ _ 16 11 5 (by decide)).trans ((above _ _ 21 11 5 (by decide)).trans (g2)))).trans ((below _ _ 16 5 26 6 (by decide) b1 ((above _ _ 21 16 5 (by decide)).trans (g1))).trans ((below _ _ 21 3 26 6 (by decide) b0 (g0)).trans (rfl)))
theorem bits0w8_of_21w3_16w5_11w5 (m v0 v1 v2 word : Nat) (h : m + v0 * 2 ^ 21 + v1 * 2 ^ 16 + v2 * 2 ^ 11 = word) : Sys2Proof.fld word 0 8 = Sys2Proof.fld m 0 8 := by
  subst h; exact (above _ _ 11 0 8 (by decide)).trans ((above _ _ 16 0 8 (by decide)).trans ((above _ _ 21 0 8 (by decide)).trans (rfl)))
theorem bits24w2_of_21w3_16w5_11w5 (m v0 v1 v2 word : Nat) (h : m + v0 * 2 ^ 21 + v1 * 2 ^ 16 + v2 * 2 ^ 11 = word) (b0 : v0 < 2 ^ 3) (b1 : v1 < 2 ^ 5) (b2 : v2 < 2 ^ 5) (g0 : Sys2Proof.fld m 21 3 = 0) (g1 : Sys2Proof.fld m 16 5 = 0) (g2 : Sys2Proof.fld m 11 5 = 0) : Sys2Proof.fld word 24 2 = Sys2Proof.fld m 24 2 := by
  subst h; exact (below _ _ 11 5 24 2 (by decide) b2 ((above _ _ 16 11 5 (by decide)).trans ((above _ _ 21 11 5 (by decide)).trans (g2)))).trans ((below _ _ 16 5 24 2 (by decide) b1 ((above _ _ 21 16 5 (by decide)).trans (g1))).trans ((below _ _ 21 3 24 2 (by decide) b0 (g0)).trans (rfl)))
theorem bits8w3_of_21w3_16w5_11w5 (m v0 v1 v2 word : Nat) (h : m + v0 * 2 ^ 21 + v1 * 2 ^ 16 + v2 * 2 ^ 11 = word) : Sys2Proof.fld word 8 3 = Sys2Proof.fld m 8 3 := by
  subst h; exact (above _ _ 11 8 3 (by decide)).trans ((above _ _ 16 8 3 (by decide)).trans ((above _ _ 21 8 3 (by decide)).trans (rfl)))
theorem bits21w3_of_21w3_16w5_11w5 (m v0 v1 v2 word : Nat) (h : m + v0 * 2 ^ 21 + v1 * 2 ^ 16 + v2 * 2 ^ 11 = word) (b0 : v0 < 2 ^ 3) (b1 : v1 < 2 ^ 5) (b2 : v2 < 2 ^ 5) (g0 : Sys2Proof.fld m 21 3 = 0) (g1 : Sys2Proof.fld m 16 5 = 0) (g2 : Sys2Proof.fld m 11 5 = 0) : Sys2Proof.fld word 21 3 = v0 := by
  subst h; exact (below _ _ 11 5 21 3 (by decide) b2 ((above _ _ 16 11 5 (by decide)).trans ((above _ _ 21 11 5 (by decide)).trans (g2)))).trans ((below _ _ 16 5 21 3 (by decide) b1 ((above _ _ 21 16 5 (by decide)).trans (g1))).trans (here _ _ 21 3 b0 (g0)))
theorem bits16w5_of_21w3_16w5_11w5 (m v0 v1 v2 word : Nat) (h : m + v0 * 2 ^ 21 + v1 * 2 ^ 16 + v2 * 2 ^ 11 = word) (b1 : v1 < 2 ^ 5) (b2 : v2 < 2 ^ 5) (g1 : Sys2Proof.fld m 16 5 = 0) (g2 : Sys2Proof.fld m 11 5 = 0) : Sys2Proof.fld word 16 5 = v1 := by
  subst h; exact (below _ _ 11 5 16 5 (by decide) b2 ((above _ _ 16 11 5 (by decide)).trans ((above _ _ 21 11 5 (by decide)).trans (g2)))).trans (here _ _ 16 5 b1 ((above _ _ 21 16 5 (by decide)).trans (g1)))
theorem bits11w5_of_21w3_16w5_11w5 (m v0 v1 v2 word : Nat) (h : m + v0 * 2 ^ 21 + v1 * 2 ^ 16 + v2 * 2 ^ 11 = word) (b2 : v2 < 2 ^ 5) (g2 : Sys2Proof.fld m 11 5 = 0) : Sys2Proof.fld word 11 5 = v2 := by
  subst h; exact here _ _ 11 5 b2 ((above _ _ 16 11 5 (by decide)).trans ((above _ _ 21 11 5 (by decide)).trans (g2)))

end Sys2Proof.Laws.Field
end

