-- ==== Sys2Proof/Laws/Flags.lean ====
section
/-! SUPPORT. The accumulated flags: what a merge and a write can do to them. -/

namespace Sys2Proof.Machine

/-! ### Updates of a field (R290) -/

@[simp] theorem csrUpdate_write (old v : Word) : csrUpdate 1 old v = v := rfl
@[simp] theorem csrUpdate_set (old v : Word) : csrUpdate 2 old v = old ||| v := rfl
@[simp] theorem csrUpdate_clear (old v : Word) : csrUpdate 3 old v = old &&& ~~~v := rfl

/-- Setting and clearing with no bits leaves a register as it is. -/
theorem csrUpdate_zero (fn : Nat) (old : Word) (h : fn ≠ 1) : csrUpdate fn old 0 = old := by
  unfold csrUpdate
  simp only [h, if_false]
  split
  · exact BitVec.or_zero
  · exact (congrArg (old &&& ·) (by decide : ~~~(0 : Word) = BitVec.allOnes 64)).trans BitVec.and_allOnes

/-! ### Indices (R219) -/

@[simp] theorem lowerIndex_none (w : Word) : lowerIndex w none = w := rfl

/-- A recorded index never rises. -/
theorem lowerIndex_le (w : Word) (i : Option Nat) : (lowerIndex w i).toNat ≤ w.toNat := by
  cases i with
  | none => exact Nat.le_refl _
  | some i =>
    show (if i < w.toNat then BitVec.ofNat 64 i else w).toNat ≤ w.toNat
    by_cases h : i < w.toNat
    · rw [if_pos h, BitVec.toNat_ofNat]
      exact Nat.le_trans (Nat.mod_le _ _) (Nat.le_of_lt h)
    · rw [if_neg h]

/-- A recorded index is at most the element that raised the flag. -/
theorem lowerIndex_le_elem (w : Word) (i : Nat) : (lowerIndex w (some i)).toNat ≤ i := by
  show (if i < w.toNat then BitVec.ofNat 64 i else w).toNat ≤ i
  by_cases h : i < w.toNat
  · rw [if_pos h, BitVec.toNat_ofNat]; exact Nat.mod_le _ _
  · rw [if_neg h]; exact Nat.le_of_not_lt h

@[simp] theorem lowerOf_none_left (a : Option Nat) : lowerOf none a = a := rfl
@[simp] theorem lowerOf_none_right (a : Option Nat) : lowerOf a none = a := by cases a <;> rfl

theorem lowerOf_comm (a b : Option Nat) : lowerOf a b = lowerOf b a := by
  cases a <;> cases b <;> simp [lowerOf, Nat.min_comm]

theorem lowerOf_assoc (a b c : Option Nat) : lowerOf (lowerOf a b) c = lowerOf a (lowerOf b c) := by
  cases a <;> cases b <;> cases c <;> simp [lowerOf, Nat.min_assoc]

/-! ### Flags of an instruction -/

@[simp] theorem Flags.add_zero (f : Flags) (i : Nat) : f.add i 0 = f := by simp [Flags.add]

/-- Flags accumulate: none that was raised is lost. -/
theorem Flags.add_bits (f : Flags) (i : Nat) (b : BitVec 5) : (f.add i b).bits = f.bits ||| b := by
  unfold Flags.add
  split
  · rename_i h; simp [h]
  · rfl

@[simp] theorem Flags.join_bits (f g : Flags) : (f.join g).bits = f.bits ||| g.bits := rfl

theorem Flags.join_comm (f g : Flags) : f.join g = g.join f := by
  unfold Flags.join
  congr 1
  · exact BitVec.or_comm _ _
  · ext c hc; simp [lowerOf_comm]

theorem Flags.join_assoc (f g k : Flags) : (f.join g).join k = f.join (g.join k) := by
  unfold Flags.join
  congr 1
  · exact BitVec.or_assoc _ _ _
  · ext c hc; simp [lowerOf_assoc]

/-! ### What a merge changes -/

@[simp] theorem Hart.mergeFlags_fstat (h : Hart) (f : Flags) : (h.mergeFlags f).fstat = h.fstat ||| f.bits := rfl
@[simp] theorem Hart.mergeFlags_r (h : Hart) (f : Flags) : (h.mergeFlags f).r = h.r := rfl
@[simp] theorem Hart.mergeFlags_ckpt (h : Hart) (f : Flags) : (h.mergeFlags f).ckpt = h.ckpt := rfl
@[simp] theorem Hart.mergeFlags_strip (h : Hart) (f : Flags) : (h.mergeFlags f).strip = h.strip := rfl
@[simp] theorem State.mergeFlags_dev (s : State) (f : Flags) : (s.mergeFlags f).dev = s.dev := rfl
@[simp] theorem State.mergeFlags_r (s : State) (f : Flags) : (s.mergeFlags f).hart.r = s.hart.r := rfl

/-- A merge changes FSTAT and the FIDX registers, and nothing else of the hart (R219). -/
theorem Hart.mergeFlags_eq (h : Hart) (f : Flags) :
    h.mergeFlags f = { h with fstat := (h.mergeFlags f).fstat, fidx := (h.mergeFlags f).fidx } := rfl

/-- No flag of FSTAT is lost by a merge. -/
theorem Hart.mergeFlags_keeps (h : Hart) (f : Flags) : (h.mergeFlags f).fstat &&& h.fstat = h.fstat := by
  ext i hi
  simp only [Hart.mergeFlags_fstat, BitVec.getElem_and, BitVec.getElem_or]
  cases h.fstat[i] <;> simp

@[simp] theorem Hart.writeFstat_r (h : Hart) (fn : Nat) (v : Word) : (h.writeFstat fn v).r = h.r := rfl
@[simp] theorem Hart.writeFstat_fidx (h : Hart) (fn : Nat) (v : Word) : (h.writeFstat fn v).fidx = h.fidx := rfl
@[simp] theorem Hart.writeFidx_r (h : Hart) (i fn : Nat) (v : Word) : (h.writeFidx i fn v).r = h.r := rfl
@[simp] theorem Hart.writeFidx_fstat (h : Hart) (i fn : Nat) (v : Word) : (h.writeFidx i fn v).fstat = h.fstat := rfl
@[simp] theorem Hart.writeReuseHit_r (h : Hart) (fn : Nat) (v : Word) : (h.writeReuseHit fn v).r = h.r := rfl
@[simp] theorem Hart.writeReuseHit_fstat (h : Hart) (fn : Nat) (v : Word) : (h.writeReuseHit fn v).fstat = h.fstat := rfl

end Sys2Proof.Machine
end

