-- ==== Sys2Proof/Laws/Groups.lean ====
section
/-! SUPPORT. Fields of numbers, byte order, lists by key, elements of register groups and masks: what is read after a write. -/

namespace Sys2Proof.Machine

/-! ### Fields -/

theorem field_lt (v lo n : Nat) : field v lo n < 2 ^ n := Nat.mod_lt _ (Nat.two_pow_pos n)

/-- Bit `i` of a field. -/
theorem field_testBit (v lo n i : Nat) : (field v lo n).testBit i = (decide (i < n) && v.testBit (lo + i)) := by
  simp [field, Nat.testBit_mod_two_pow, Nat.testBit_div_two_pow, Nat.add_comm lo i]

/-- A number is known by its bits, and a field of it replaced gives the new value's bits there. -/
theorem setField_testBit (x lo n v i : Nat) : (setField x lo n v).testBit i =
    if i < lo then x.testBit i else if i < lo + n then v.testBit (i - lo) else x.testBit i := by
  have h1 : x % 2 ^ lo < 2 ^ lo := Nat.mod_lt _ (Nat.two_pow_pos lo)
  have h2 : v % 2 ^ n < 2 ^ n := Nat.mod_lt _ (Nat.two_pow_pos n)
  have hb : v % 2 ^ n * 2 ^ lo + x % 2 ^ lo < 2 ^ (lo + n) := by
    have : (v % 2 ^ n + 1) * 2 ^ lo ≤ 2 ^ n * 2 ^ lo := Nat.mul_le_mul_right _ h2
    rw [Nat.pow_add, Nat.mul_comm (2 ^ lo)]
    rw [Nat.add_mul] at this
    omega
  have e : setField x lo n v = 2 ^ (lo + n) * (x / 2 ^ (lo + n)) + (2 ^ lo * (v % 2 ^ n) + x % 2 ^ lo) := by
    unfold setField; ring
  rw [e, Nat.testBit_two_pow_mul_add _ (by rw [Nat.mul_comm]; exact hb)]
  rw [Nat.testBit_two_pow_mul_add _ h1]
  by_cases a : i < lo
  · have : i < lo + n := by omega
    simp [a, this, Nat.testBit_mod_two_pow]
  · by_cases b : i < lo + n
    · have : i - lo < n := by omega
      simp [a, b, this, Nat.testBit_mod_two_pow]
    · simp only [a, b, if_false, Nat.testBit_div_two_pow]
      congr 1; omega

/-- A field reads what was put there. -/
theorem field_setField (x lo n v : Nat) : field (setField x lo n v) lo n = v % 2 ^ n := by
  apply Nat.eq_of_testBit_eq
  intro i
  rw [field_testBit, setField_testBit, Nat.testBit_mod_two_pow]
  by_cases h : i < n
  · have a : ¬ lo + i < lo := by omega
    have b : lo + i < lo + n := by omega
    have c : lo + i - lo = i := by omega
    simp [h, c]
  · simp [h]

/-- A field apart from the one put reads as before. -/
theorem field_setField_apart (x lo n v lo' n' : Nat) (h : lo' + n' ≤ lo ∨ lo + n ≤ lo') :
    field (setField x lo n v) lo' n' = field x lo' n' := by
  apply Nat.eq_of_testBit_eq
  intro i
  rw [field_testBit, field_testBit, setField_testBit]
  by_cases hi : i < n'
  · rcases h with h | h
    · have a : lo' + i < lo := by omega
      simp [a]
    · have a : ¬ lo' + i < lo := by omega
      have b : ¬ lo' + i < lo + n := by omega
      simp [a, b]
  · simp [hi]

/-! ### Elements of a group (R91) -/

/-- An element reads what was put there. -/
theorem Group.elem_put (g : Group) (w i v : Nat) : (g.put w i v).elem w i = v % 2 ^ w := field_setField _ _ _ _

/-- Another element reads as before. -/
theorem Group.elem_put_ne (g : Group) (w i j v : Nat) (h : i ≠ j) : (g.put w i v).elem w j = g.elem w j := by
  unfold Group.elem Group.put
  dsimp only
  apply field_setField_apart
  rcases Nat.lt_or_gt_of_ne h with h | h
  · right
    have := Nat.mul_le_mul_right w h
    rw [Nat.succ_mul] at this; omega
  · left
    have := Nat.mul_le_mul_right w h
    rw [Nat.succ_mul] at this; omega

@[simp] theorem Group.put_mortar (g : Group) (w i v : Nat) : (g.put w i v).mortar = g.mortar := rfl
@[simp] theorem Group.put_fail (g : Group) (w i v : Nat) : (g.put w i v).fail = g.fail := rfl
@[simp] theorem Group.setScale_bits (g : Group) (b : Nat) (m : Byte) : (g.setScale b m).bits = g.bits := rfl
@[simp] theorem Group.seal_bits (g : Group) (k : Nat) (z : Bool) : (g.seal k z).bits = g.bits := rfl

/-- A mortar byte reads what was set. -/
theorem Group.scale_setScale (g : Group) (b : Nat) (m : Byte) : (g.setScale b m).scale b = m := by
  have h := field_setField g.mortar (8 * b) 8 m.toNat
  unfold Group.scale Group.setScale
  dsimp only
  apply BitVec.eq_of_toNat_eq
  rw [BitVec.toNat_ofNat]
  unfold field at h
  rw [h]
  exact Nat.mod_eq_of_lt m.isLt

/-! ### Byte order (R252, R280) -/

@[simp] theorem leBytes_length : ∀ (n v : Nat), (leBytes n v).length = n
  | 0, _ => rfl
  | n + 1, v => by simp [leBytes, leBytes_length n]

/-- A value comes back from its bytes. -/
theorem ofLe_leBytes : ∀ (n v : Nat), ofLe (leBytes n v) = v % 256 ^ n
  | 0, v => by simp [leBytes, ofLe, Nat.mod_one]
  | n + 1, v => by
    rw [leBytes, ofLe, ofLe_leBytes n, BitVec.toNat_ofNat]
    show v % 256 + 256 * (v / 256 % 256 ^ n) = v % 256 ^ (n + 1)
    rw [Nat.pow_succ, Nat.mul_comm (256 ^ n) 256, Nat.mod_mul]

theorem ofLe_lt : ∀ (l : List Byte), ofLe l < 256 ^ l.length
  | [] => by simp [ofLe]
  | b :: rest => by
    have h := ofLe_lt rest
    have hb := b.isLt
    rw [ofLe, List.length_cons, Nat.pow_succ]
    omega

/-- Bytes come back from their value. -/
theorem leBytes_ofLe : ∀ (l : List Byte), leBytes l.length (ofLe l) = l
  | [] => rfl
  | b :: rest => by
    rw [List.length_cons, leBytes, ofLe]
    have hb := b.isLt
    congr 1
    · apply BitVec.eq_of_toNat_eq
      rw [BitVec.toNat_ofNat]; omega
    · have : (b.toNat + 256 * ofLe rest) / 256 = ofLe rest := by omega
      rw [this]
      exact leBytes_ofLe rest

@[simp] theorem padTo_length (n : Nat) (l : List Byte) : (padTo n l).length = n := by
  simp [padTo, zeros]; omega

/-! ### Lists by key -/

theorem lookupKey_insertKey {α : Type} (k : Nat) (a : α) : ∀ l, lookupKey k (insertKey k a l) = some a
  | [] => by simp [insertKey, lookupKey]
  | (k', b) :: rest => by
    unfold insertKey
    split
    · simp [lookupKey]
    · split
      · simp [lookupKey]
      · rename_i h
        simp only [lookupKey, h, if_false]
        exact lookupKey_insertKey k a rest

theorem lookupKey_insertKey_ne {α : Type} (k j : Nat) (a : α) (h : j ≠ k) : ∀ l, lookupKey j (insertKey k a l) = lookupKey j l
  | [] => by simp [insertKey, lookupKey, h]
  | (k', b) :: rest => by
    unfold insertKey
    split
    · simp [lookupKey, h]
    · split
      · rename_i e
        simp [lookupKey, h, ← e]
      · simp only [lookupKey]
        split
        · rfl
        · exact lookupKey_insertKey_ne k j a h rest

@[simp] theorem Device.brick_setBrick (d : Device) (b : Nat) (x : Brick) : (d.setBrick b x).brick b = x := by
  simp [Device.brick, Device.setBrick, lookupKey_insertKey]

theorem Device.brick_setBrick_ne (d : Device) (b c : Nat) (x : Brick) (h : c ≠ b) : (d.setBrick b x).brick c = d.brick c := by
  simp [Device.brick, Device.setBrick, lookupKey_insertKey_ne b c x h]

@[simp] theorem Device.queue_setQueue (d : Device) (q : Nat) (x : Queue) : (d.setQueue q x).queue q = x := by
  simp [Device.queue, Device.setQueue, lookupKey_insertKey]

theorem Device.queue_setQueue_ne (d : Device) (q r : Nat) (x : Queue) (h : r ≠ q) : (d.setQueue q x).queue r = d.queue r := by
  simp [Device.queue, Device.setQueue, lookupKey_insertKey_ne q r x h]

@[simp] theorem Device.tenant_setTenant (d : Device) (v : Nat) (x : Tenant) : (d.setTenant v x).tenant v = x := by
  simp [Device.tenant, Device.setTenant, lookupKey_insertKey]

theorem Device.tenant_setTenant_ne (d : Device) (v u : Nat) (x : Tenant) (h : u ≠ v) : (d.setTenant v x).tenant u = d.tenant u := by
  simp [Device.tenant, Device.setTenant, lookupKey_insertKey_ne v u x h]

@[simp] theorem Device.course_setCourse (d : Device) (c : Nat) (x : Course) : (d.setCourse c x).course c = x := by
  simp [Device.course, Device.setCourse, lookupKey_insertKey]

theorem Device.course_setCourse_ne (d : Device) (c e : Nat) (x : Course) (h : e ≠ c) : (d.setCourse c x).course e = d.course e := by
  simp [Device.course, Device.setCourse, lookupKey_insertKey_ne c e x h]

/-! ### Masks (R302, R321) -/

@[simp] theorem State.selected_zero (s : State) : s.selected 0 = 2 ^ 8192 - 1 := rfl

theorem State.selected_pos (s : State) (k : Nat) (h : k ≠ 0) : s.selected k = s.mask k := by simp [State.selected, h]

/-- Below 8,192 bits, an unmasked instruction selects every element. -/
theorem State.selected_zero_testBit (s : State) (i : Nat) (h : i < 8192) : (s.selected 0).testBit i = true := by
  rw [State.selected_zero, Nat.testBit_two_pow_sub_one]
  exact decide_eq_true h

theorem State.bumpMask_k (s : State) (k : Nat) : (s.bumpMask k).hart.r.k = s.hart.r.k := by
  unfold State.bumpMask
  dsimp only
  split <;> rfl

/-- A write of bits 0 to `vl − 1` of a mask gives them the value's bits, and the others stay (R321). -/
theorem State.mask_setMask (s : State) (k vl v i : Nat) (hk : k < 8) (hi : i < 8192) :
    ((s.setMask k vl v).mask k).testBit i = if i < vl then v.testBit i else (s.mask k).testBit i := by
  have e : (s.setMask k vl v).mask k = (s.mask k / 2 ^ vl * 2 ^ vl + v % 2 ^ vl) % 2 ^ 8192 := by
    simp [State.setMask, State.mask, State.mapRegs, Vector.getD, hk, State.bumpMask_k]
  rw [e, Nat.testBit_mod_two_pow, decide_eq_true hi, Bool.true_and, Nat.mul_comm,
    Nat.testBit_two_pow_mul_add _ (Nat.mod_lt _ (Nat.two_pow_pos vl))]
  split
  · rename_i h; simp [Nat.testBit_mod_two_pow, h]
  · rename_i h
    rw [Nat.testBit_div_two_pow]; congr 1; omega

/-- Another mask stays. -/
theorem State.mask_setMask_ne (s : State) (k j vl v : Nat) (h : k ≠ j) : (s.setMask k vl v).mask j = s.mask j := by
  simp [State.setMask, State.mask, State.mapRegs, Vector.getD, State.bumpMask_k, h]

/-! ### Registers of a group (R91, R92) -/

@[simp] theorem Regs.setGroup_x (r : Regs) (nl v n : Nat) (g : Group) : (r.setGroup nl v n g).x = r.x := by
  unfold Regs.setGroup
  dsimp only
  generalize List.range n = l
  induction l generalizing r with
  | nil => rfl
  | cons a rest ih => rw [List.foldl_cons, ih]

/-- Writing a group leaves every register that is not of the group. -/
theorem Regs.setGroup_v_out (r : Regs) (nl v n u : Nat) (g : Group) (h : u < v ∨ v + n ≤ u) :
    (r.setGroup nl v n g).v.getD u 0 = r.v.getD u 0 := by
  unfold Regs.setGroup
  dsimp only
  have run : ∀ (l : List Nat) (r : Regs), (∀ j ∈ l, v + j ≠ u) →
      ((l.foldl (fun (r : Regs) j =>
        { r with
          v := r.v.setIfInBounds (v + j) (BitVec.ofNat 8192 (field g.bits (256 * nl * j) (256 * nl)))
          mortar := r.mortar.setIfInBounds (v + j) (BitVec.ofNat 256 (field g.mortar (8 * nl * j) (8 * nl)))
          vfail := r.vfail.setIfInBounds (v + j) (BitVec.ofNat 128 (field g.fail (4 * nl * j) (4 * nl))) }) r).v.getD u 0) =
        r.v.getD u 0 := by
    intro l
    induction l with
    | nil => intro r _; rfl
    | cons a rest ih =>
      intro r hl
      rw [List.foldl_cons, ih _ (fun j hj => hl j (List.mem_cons_of_mem _ hj))]
      have := hl a (List.mem_cons_self ..)
      simp [Vector.getD, this]
  exact run _ r (fun j hj => by have := List.mem_range.mp hj; omega)

end Sys2Proof.Machine
end

