-- ==== Sys2Proof/Laws/Ops.lean ====
section
/-! SUPPORT. The shared operations: what reading and writing a register gives, what the end of a strip leaves, what an instruction that
settles leaves, and what waiting changes. -/

namespace Sys2Proof.Machine

/-! ### Registers (R276) -/

/-- Another register reads as before. -/
theorem State.x_setX_ne (s : State) (n m : Nat) (v : Word) (h : n ≠ m) : (s.setX n v).x m = s.x m := by
  unfold State.x State.setX
  split
  · rfl
  · split
    · rfl
    · simp [State.mapRegs, Vector.getD, h]

theorem State.f_setF (s : State) (n : Nat) (v : Word) (h : n < 32) : (s.setF n v).f n = v := by
  simp [State.f, State.setF, State.mapRegs, Vector.getD, h]

theorem State.f_setF_ne (s : State) (n m : Nat) (v : Word) (h : n ≠ m) : (s.setF n v).f m = s.f m := by
  simp [State.f, State.setF, State.mapRegs, Vector.getD, h]

@[simp] theorem State.f_setX (s : State) (n m : Nat) (v : Word) : (s.setX n v).f m = s.f m := by
  unfold State.setX; split <;> rfl
@[simp] theorem State.x_setF (s : State) (n m : Nat) (v : Word) : (s.setF n v).x m = s.x m := rfl
@[simp] theorem State.x_setPc (s : State) (m : Nat) (v : Word) : (s.setPc v).x m = s.x m := rfl
@[simp] theorem State.f_setPc (s : State) (m : Nat) (v : Word) : (s.setPc v).f m = s.f m := rfl
@[simp] theorem State.pc_setPc (s : State) (v : Word) : (s.setPc v).pc = v := rfl
@[simp] theorem State.pc_setX (s : State) (n : Nat) (v : Word) : (s.setX n v).pc = s.pc := by
  unfold State.setX; split <;> rfl
@[simp] theorem State.pc_setF (s : State) (n : Nat) (v : Word) : (s.setF n v).pc = s.pc := rfl
@[simp] theorem State.pc_advance (s : State) : s.advance.pc = s.pc + 4 := rfl
@[simp] theorem State.pc_retire (s : State) : s.retire.pc = s.pc + 4 := rfl
@[simp] theorem State.x_advance (s : State) (m : Nat) : s.advance.x m = s.x m := rfl
@[simp] theorem State.x_retire (s : State) (m : Nat) : s.retire.x m = s.x m := rfl
@[simp] theorem State.f_advance (s : State) (m : Nat) : s.advance.f m = s.f m := rfl
@[simp] theorem State.f_retire (s : State) (m : Nat) : s.retire.f m = s.f m := rfl

/-! ### Changing a hart by its number -/

theorem State.mapUid_regs (s : State) (u : Nat) (f : Hart → Hart) (h : ∀ x, (f x).r = x.r) : (s.mapUid u f).hart.r = s.hart.r := by
  unfold State.mapUid
  dsimp only
  split
  · rfl
  · split
    · exact h _
    · rfl

@[simp] theorem State.mapUid_mem (s : State) (u : Nat) (f : Hart → Hart) : (s.mapUid u f).dev.mem = s.dev.mem := rfl
@[simp] theorem State.mapUid_bricks (s : State) (u : Nat) (f : Hart → Hart) : (s.mapUid u f).dev.bricks = s.dev.bricks := rfl

/-! ### Sending -/

@[simp] theorem Device.setPort_mem (d : Device) (p : Nat) (x : Port) : (d.setPort p x).mem = d.mem := rfl
@[simp] theorem Device.setPort_bricks (d : Device) (p : Nat) (x : Port) : (d.setPort p x).bricks = d.bricks := rfl
@[simp] theorem Device.pump_mem (d : Device) (p : Nat) : (d.pump p).mem = d.mem := rfl
@[simp] theorem Device.pump_bricks (d : Device) (p : Nat) : (d.pump p).bricks = d.bricks := rfl
@[simp] theorem Device.transmit_mem (d : Device) (p : Nat) (f : Flit) : (d.transmit p f).mem = d.mem := rfl
@[simp] theorem Device.transmit_bricks (d : Device) (p : Nat) (f : Flit) : (d.transmit p f).bricks = d.bricks := rfl

/-- Sending a message changes ports and the wire, and no memory. -/
theorem Device.send_mem (d : Device) (f : Flit) : (d.send f).2.mem = d.mem := by
  unfold Device.send; split <;> rfl
theorem Device.send_bricks (d : Device) (f : Flit) : (d.send f).2.bricks = d.bricks := by
  unfold Device.send; split <;> rfl

/-! ### Waiting -/

theorem State.request_regs (s : State) (o : Outstanding) : (s.request o).hart.r = s.hart.r := by
  unfold State.request
  split
  · rfl
  · split
    · rfl
    · dsimp only
      split
      · rfl
      · exact State.mapUid_regs _ _ _ (fun _ => rfl)

theorem State.request_mem (s : State) (o : Outstanding) : (s.request o).dev.mem = s.dev.mem := by
  unfold State.request
  split
  · rfl
  · split
    · rfl
    · dsimp only
      split <;> rfl

theorem State.request_bricks (s : State) (o : Outstanding) : (s.request o).dev.bricks = s.dev.bricks := by
  unfold State.request
  split
  · rfl
  · split
    · rfl
    · dsimp only
      split <;> rfl

/-- A hart that asks other nodes and waits keeps its registers, its program counter among them, and no memory changes. -/
theorem State.askFor_keeps (s : State) (w : Wait) (runs : List (Nat × Nat)) :
    (s.askFor w runs).hart.r = s.hart.r ∧ (s.askFor w runs).dev.mem = s.dev.mem ∧
      (s.askFor w runs).dev.bricks = s.dev.bricks := by
  have run : ∀ (l : List (Nat × Nat)) (t : State) (g : State → Nat × Nat → Outstanding),
      (l.foldl (fun t r => t.request (g t r)) t).hart.r = t.hart.r ∧
      (l.foldl (fun t r => t.request (g t r)) t).dev.mem = t.dev.mem ∧
      (l.foldl (fun t r => t.request (g t r)) t).dev.bricks = t.dev.bricks := by
    intro l
    induction l with
    | nil => intro t g; exact ⟨rfl, rfl, rfl⟩
    | cons a rest ih =>
      intro t g
      obtain ⟨h1, h2, h3⟩ := ih (t.request (g t a)) g
      rw [List.foldl_cons]
      exact ⟨h1.trans (State.request_regs _ _), h2.trans (State.request_mem _ _), h3.trans (State.request_bricks _ _)⟩
  obtain ⟨h1, h2, h3⟩ := run runs (s.mapHart (fun h => { h with wait := w }))
    (fun s r => { owner := .hart s.hart.uid, kind := 0, pa := r.1, len := r.2, launch := s.hart.launch })
  exact ⟨h1, h2, h3⟩

theorem State.waitFor_keeps (s : State) (w : Wait) (need : List (Nat × Nat)) :
    (s.waitFor w need).hart.r = s.hart.r ∧ (s.waitFor w need).dev.mem = s.dev.mem ∧
      (s.waitFor w need).dev.bricks = s.dev.bricks := s.askFor_keeps w (needRuns need)

@[simp] theorem State.waitFor_pc (s : State) (w : Wait) (need : List (Nat × Nat)) : (s.waitFor w need).pc = s.pc :=
  congrArg Regs.pc (s.waitFor_keeps w need).1

/-- A wait that needs nothing of another node only marks the hart. -/
@[simp] theorem State.waitFor_nil (s : State) (w : Wait) : s.waitFor w [] = s.mapHart (fun h => { h with wait := w }) := rfl

/-! ### The end of an instruction -/

@[simp] theorem State.settle_ok (s t : State) : s.settle (.ok t) = t := rfl
@[simp] theorem State.settle_trap (s : State) (t : Trap) : s.settle (.error (.trap t)) = s.takeTrap t := rfl
@[simp] theorem State.settle_wait (s : State) (w : Wait) (need : List (Nat × Nat)) :
    s.settle (.error (.wait w need)) = s.waitFor w need := rfl
@[simp] theorem State.settle_hold (s : State) (need : List (Nat × Nat)) (got : List Landed) :
    s.settle (.error (.hold need got)) = (s.askFor .memory need).mapHart (fun h => { h with landed := h.landed ++ got }) := rfl

/-- An instruction settles in one of four ways. -/
theorem State.settle_cases (s : State) (r : Except Stop State) :
    (∃ t, r = .ok t ∧ s.settle r = t) ∨ (∃ t, r = .error (.trap t) ∧ s.settle r = s.takeTrap t) ∨
    (∃ w need, r = .error (.wait w need) ∧ s.settle r = s.waitFor w need) ∨
    (∃ need got, r = .error (.hold need got) ∧
      s.settle r = (s.askFor .memory need).mapHart (fun h => { h with landed := h.landed ++ got })) := by
  match r with
  | .ok t => exact .inl ⟨t, rfl, rfl⟩
  | .error (.trap t) => exact .inr (.inl ⟨t, rfl, rfl⟩)
  | .error (.wait w need) => exact .inr (.inr (.inl ⟨w, need, rfl, rfl⟩))
  | .error (.hold need got) => exact .inr (.inr (.inr ⟨need, got, rfl, rfl⟩))

@[simp] theorem done_eq (s : State) : done s = .next s := rfl

@[simp] theorem require_true (e : Stop) : require true e = .ok () := rfl
@[simp] theorem require_false (e : Stop) : require false e = .error e := rfl

theorem require_ok {c : Bool} {e : Stop} (h : require c e = .ok ()) : c = true := by
  cases c
  · cases h
  · rfl

/-! ### The end of a strip (R187, R232) -/

/-- Buffers that have been read leave, and streams go back to the start of a buffer: nothing else of a hart changes. -/
theorem Hart.dropUsed_eq (h : Hart) : ∃ b t, h.dropUsed = { h with buffers := b, r := { h.r with streams := t } } := by
  have run : ∀ (l : List Nat) (h : Hart), ∃ b t, (l.foldl (fun (h : Hart) n => match h.r.streams.getD n none with
      | some st =>
        if st.desc.mode = 2 ∧ st.pos ≠ 0 then
          { h with
            buffers := (List.range st.pos).foldl (fun l _ => removeFirst (fun b => b.1 == n) l) h.buffers
            r := { h.r with streams := h.r.streams.setIfInBounds n (some { st with pos := 0 }) } }
        else h
      | none => h) h) = { h with buffers := b, r := { h.r with streams := t } } := by
    intro l
    induction l with
    | nil => intro h; exact ⟨h.buffers, h.r.streams, rfl⟩
    | cons n rest ih =>
      intro h
      rw [List.foldl_cons]
      split
      · split
        · obtain ⟨b, t, e⟩ := ih _
          exact ⟨b, t, e.trans rfl⟩
        · exact ih h
      · exact ih h
  exact run (List.range 8) h

/-- The end of a strip: the open strip is empty, the checkpoint has the registers as they are and the program counter given, and the
strip that ended waits to close when it holds a store or a command. Streams and landed buffers aside, no register changes. -/
theorem State.endStrip_eq (s : State) (pc : Word) : ∃ b t,
    (s.endStrip pc).hart =
      { s.hart with
        buffers := b
        r := { s.hart.r with streams := t }
        ended := if s.hart.strip.stores.isEmpty && s.hart.strip.cmds.isEmpty then s.hart.ended
          else s.hart.ended ++ [{ strip := { s.hart.strip with serial := s.hart.serial }, ckpt := s.hart.ckpt, freed := s.hart.freed }]
        strip := {}
        freed := []
        timeout := false
        unbound := []
        arrivals := s.hart.arrivals.map (·.closed s.hart.serial)
        serial := s.hart.serial + 1
        ckpt := { s.hart.r with streams := t, pc := pc } } := by
  obtain ⟨b, t, e⟩ := Hart.dropUsed_eq s.hart
  refine ⟨b, t, ?_⟩
  simp only [State.endStrip, State.dropOrdinary, State.mapHart, State.mapBrick, e]

@[simp] theorem State.endStrip_strip (s : State) (pc : Word) : (s.endStrip pc).hart.strip = {} := by
  obtain ⟨_, _, h⟩ := s.endStrip_eq pc; rw [h]
@[simp] theorem State.endStrip_serial (s : State) (pc : Word) : (s.endStrip pc).hart.serial = s.hart.serial + 1 := by
  obtain ⟨_, _, h⟩ := s.endStrip_eq pc; rw [h]
@[simp] theorem State.endStrip_pc (s : State) (pc : Word) : (s.endStrip pc).pc = s.pc := by
  obtain ⟨_, _, h⟩ := s.endStrip_eq pc; simp only [State.pc, h]
@[simp] theorem State.endStrip_ckpt_pc (s : State) (pc : Word) : (s.endStrip pc).hart.ckpt.pc = pc := by
  obtain ⟨_, _, h⟩ := s.endStrip_eq pc; simp only [h]
@[simp] theorem State.endStrip_x (s : State) (pc : Word) (n : Nat) : (s.endStrip pc).x n = s.x n := by
  obtain ⟨_, _, h⟩ := s.endStrip_eq pc; simp only [State.x, h]
@[simp] theorem State.endStrip_f (s : State) (pc : Word) (n : Nat) : (s.endStrip pc).f n = s.f n := by
  obtain ⟨_, _, h⟩ := s.endStrip_eq pc; simp only [State.f, h]
@[simp] theorem State.endStrip_v (s : State) (pc : Word) : (s.endStrip pc).hart.r.v = s.hart.r.v := by
  obtain ⟨_, _, h⟩ := s.endStrip_eq pc; rw [h]
@[simp] theorem State.endStrip_k (s : State) (pc : Word) : (s.endStrip pc).hart.r.k = s.hart.r.k := by
  obtain ⟨_, _, h⟩ := s.endStrip_eq pc; rw [h]
@[simp] theorem State.endStrip_fstat (s : State) (pc : Word) : (s.endStrip pc).hart.fstat = s.hart.fstat := by
  obtain ⟨_, _, h⟩ := s.endStrip_eq pc; rw [h]
@[simp] theorem State.endStrip_mem (s : State) (pc : Word) : (s.endStrip pc).dev.mem = s.dev.mem := rfl

/-- No store of a hart is lost at the end of a strip: the stores of all its strips stand as before. -/
theorem State.endStrip_stores (s : State) (pc : Word) :
    (s.endStrip pc).hart.ended.flatMap (·.strip.stores) ++ (s.endStrip pc).hart.strip.stores =
      s.hart.ended.flatMap (·.strip.stores) ++ s.hart.strip.stores := by
  obtain ⟨_, _, h⟩ := s.endStrip_eq pc
  rw [h]
  dsimp only
  split
  · rename_i he
    simp only [Bool.and_eq_true, List.isEmpty_iff] at he
    rw [he.1]
  · simp [List.flatMap_append]

/-! ### Room in the strip store buffer (R188) -/

/-- Making room ends the strip or leaves the state as it is. -/
theorem State.makeRoom_cases (s : State) (n : Nat) :
    (n ≤ s.freeEntries ∧ s.makeRoom n = s) ∨ (s.freeEntries < n ∧ s.makeRoom n = s.splitAndDrain) := by
  unfold State.makeRoom
  split
  · exact .inr ⟨‹_›, rfl⟩
  · exact .inl ⟨Nat.le_of_not_lt ‹_›, rfl⟩

/-- A store goes on only when the entries it counts are free, or as a direct store when all earlier ones have performed. -/
theorem State.roomFor_ok {s : State} {n : Nat} (h : s.roomFor n = .ok ()) :
    if 256 < n then s.allPerformed = true else n ≤ s.freeEntries := by
  have h := require_ok h
  split <;> simp_all

end Sys2Proof.Machine
end

