-- ==== Sys2Proof/Laws/PerInstr.lean ====
section
/-! SUPPORT. Decoding gives back what encoding wrote, instruction by instruction: no bit of an encoding is dropped. -/

set_option Elab.async false

namespace Sys2Proof.Laws.RoundTrip
open Sys2Proof

/-- A well-formed instruction is what its word decodes to. A step of the device has no word. -/
def Statement (i : Instr) : Prop := i.wf = true → ∀ w, encode i = some w → decodeWord w = .ok i

/-! ### Codes of small types -/

theorem widthCode (x : Width) : Width.ofCode x.code = x := by cases x <;> rfl
theorem hintCode (x : Hint) : Hint.ofCode x.code = x := by cases x <;> rfl
theorem formatCode (x : FpFmt) : FpFmt.ofCode x.code = x := by cases x <;> rfl
theorem widthCode_lt (x : Width) : x.code < 4 := by cases x <;> decide
theorem hintCode_lt (x : Hint) : x.code < 4 := by cases x <;> decide
theorem formatCode_lt (x : FpFmt) : x.code < 4 := by cases x <;> decide
theorem flagBit_lt (b : Bool) : b.toNat < 2 := by cases b <;> decide
theorem flagBit (b : Bool) : (b.toNat == 1) = b := by cases b <;> rfl
theorem wordBits {n : Nat} (v : BitVec n) : BitVec.ofNat n v.toNat = v := by simp
theorem noWord {P : Prop} {w : Nat} (e : (none : Option Nat) = some w) : P := by cases e

/-! ### Majors -/

theorem major01 (w : Nat) (h : Sys2Proof.fld w 26 6 = 0x01) : decodeWord w = decodeMajor01 w := by
  unfold decodeWord; rw [h]; rfl
theorem major02 (w : Nat) (h : Sys2Proof.fld w 26 6 = 0x02) : decodeWord w = decodeMajor02 w := by
  unfold decodeWord; rw [h]; rfl
theorem major03 (w : Nat) (h : Sys2Proof.fld w 26 6 = 0x03) : decodeWord w = decodeMajor03 w := by
  unfold decodeWord; rw [h]; rfl
theorem major04 (w : Nat) (h : Sys2Proof.fld w 26 6 = 0x04) : decodeWord w = decodeMajor04 w := by
  unfold decodeWord; rw [h]; rfl
theorem major05 (w : Nat) (h : Sys2Proof.fld w 26 6 = 0x05) : decodeWord w = decodeMajor05 w := by
  unfold decodeWord; rw [h]; rfl
theorem major06 (w : Nat) (h : Sys2Proof.fld w 26 6 = 0x06) : decodeWord w = decodeMajor06 w := by
  unfold decodeWord; rw [h]; rfl
theorem major07 (w : Nat) (h : Sys2Proof.fld w 26 6 = 0x07) : decodeWord w = decodeMajor07 w := by
  unfold decodeWord; rw [h]; rfl
theorem major08 (w : Nat) (h : Sys2Proof.fld w 26 6 = 0x08) : decodeWord w = decodeMajor08 w := by
  unfold decodeWord; rw [h]; rfl
theorem major09 (w : Nat) (h : Sys2Proof.fld w 26 6 = 0x09) : decodeWord w = decodeMajor09 w := by
  unfold decodeWord; rw [h]; rfl
theorem major0A (w : Nat) (h : Sys2Proof.fld w 26 6 = 0x0a) : decodeWord w = decodeMajor0A w := by
  unfold decodeWord; rw [h]; rfl
theorem major10 (w : Nat) (h : Sys2Proof.fld w 26 6 = 0x10) : decodeWord w = decodeMajor10 w := by
  unfold decodeWord; rw [h]; rfl
theorem major11 (w : Nat) (h : Sys2Proof.fld w 26 6 = 0x11) : decodeWord w = decodeMajor11 w := by
  unfold decodeWord; rw [h]; rfl
theorem major12 (w : Nat) (h : Sys2Proof.fld w 26 6 = 0x12) : decodeWord w = decodeMajor12 w := by
  unfold decodeWord; rw [h]; rfl
theorem major14 (w : Nat) (h : Sys2Proof.fld w 26 6 = 0x14) : decodeWord w = decodeMajor14 w := by
  unfold decodeWord; rw [h]; rfl
theorem major15 (w : Nat) (h : Sys2Proof.fld w 26 6 = 0x15) : decodeWord w = decodeMajor15 w := by
  unfold decodeWord; rw [h]; rfl
theorem major16 (w : Nat) (h : Sys2Proof.fld w 26 6 = 0x16) : decodeWord w = decodeMajor16 w := by
  unfold decodeWord; rw [h]; rfl
theorem major17 (w : Nat) (h : Sys2Proof.fld w 26 6 = 0x17) : decodeWord w = decodeMajor17 w := by
  unfold decodeWord; rw [h]; rfl
theorem major18 (w : Nat) (h : Sys2Proof.fld w 26 6 = 0x18) : decodeWord w = decodeMajor18 w := by
  unfold decodeWord; rw [h]; rfl
theorem major19 (w : Nat) (h : Sys2Proof.fld w 26 6 = 0x19) : decodeWord w = decodeMajor19 w := by
  unfold decodeWord; rw [h]; rfl
theorem major1A (w : Nat) (h : Sys2Proof.fld w 26 6 = 0x1a) : decodeWord w = decodeMajor1A w := by
  unfold decodeWord; rw [h]; rfl
theorem major1B (w : Nat) (h : Sys2Proof.fld w 26 6 = 0x1b) : decodeWord w = decodeMajor1B w := by
  unfold decodeWord; rw [h]; rfl
theorem major1C (w : Nat) (h : Sys2Proof.fld w 26 6 = 0x1c) : decodeWord w = decodeMajor1C w := by
  unfold decodeWord; rw [h]; rfl
theorem major1D (w : Nat) (h : Sys2Proof.fld w 26 6 = 0x1d) : decodeWord w = decodeMajor1D w := by
  unfold decodeWord; rw [h]; rfl
theorem major1E (w : Nat) (h : Sys2Proof.fld w 26 6 = 0x1e) : decodeWord w = decodeMajor1E w := by
  unfold decodeWord; rw [h]; rfl
theorem major1F (w : Nat) (h : Sys2Proof.fld w 26 6 = 0x1f) : decodeWord w = decodeMajor1F w := by
  unfold decodeWord; rw [h]; rfl
theorem major20 (w : Nat) (h : Sys2Proof.fld w 26 6 = 0x20) : decodeWord w = decodeMajor20 w := by
  unfold decodeWord; rw [h]; rfl
theorem major21 (w : Nat) (h : Sys2Proof.fld w 26 6 = 0x21) : decodeWord w = decodeMajor21 w := by
  unfold decodeWord; rw [h]; rfl
theorem major22 (w : Nat) (h : Sys2Proof.fld w 26 6 = 0x22) : decodeWord w = decodeMajor22 w := by
  unfold decodeWord; rw [h]; rfl
theorem major23 (w : Nat) (h : Sys2Proof.fld w 26 6 = 0x23) : decodeWord w = decodeMajor23 w := by
  unfold decodeWord; rw [h]; rfl
theorem major24 (w : Nat) (h : Sys2Proof.fld w 26 6 = 0x24) : decodeWord w = decodeMajor24 w := by
  unfold decodeWord; rw [h]; rfl
theorem major25 (w : Nat) (h : Sys2Proof.fld w 26 6 = 0x25) : decodeWord w = decodeMajor25 w := by
  unfold decodeWord; rw [h]; rfl
theorem major26 (w : Nat) (h : Sys2Proof.fld w 26 6 = 0x26) : decodeWord w = decodeMajor26 w := by
  unfold decodeWord; rw [h]; rfl
theorem major27 (w : Nat) (h : Sys2Proof.fld w 26 6 = 0x27) : decodeWord w = decodeMajor27 w := by
  unfold decodeWord; rw [h]; rfl
theorem major28 (w : Nat) (h : Sys2Proof.fld w 26 6 = 0x28) : decodeWord w = decodeMajor28 w := by
  unfold decodeWord; rw [h]; rfl
theorem major29 (w : Nat) (h : Sys2Proof.fld w 26 6 = 0x29) : decodeWord w = decodeMajor29 w := by
  unfold decodeWord; rw [h]; rfl
theorem major2A (w : Nat) (h : Sys2Proof.fld w 26 6 = 0x2a) : decodeWord w = decodeMajor2A w := by
  unfold decodeWord; rw [h]; rfl
theorem major2B (w : Nat) (h : Sys2Proof.fld w 26 6 = 0x2b) : decodeWord w = decodeMajor2B w := by
  unfold decodeWord; rw [h]; rfl
theorem major2C (w : Nat) (h : Sys2Proof.fld w 26 6 = 0x2c) : decodeWord w = decodeMajor2C w := by
  unfold decodeWord; rw [h]; rfl
theorem major2D (w : Nat) (h : Sys2Proof.fld w 26 6 = 0x2d) : decodeWord w = decodeMajor2D w := by
  unfold decodeWord; rw [h]; rfl
theorem major2E (w : Nat) (h : Sys2Proof.fld w 26 6 = 0x2e) : decodeWord w = decodeMajor2E w := by
  unfold decodeWord; rw [h]; rfl
theorem major2F (w : Nat) (h : Sys2Proof.fld w 26 6 = 0x2f) : decodeWord w = decodeMajor2F w := by
  unfold decodeWord; rw [h]; rfl
theorem major30 (w : Nat) (h : Sys2Proof.fld w 26 6 = 0x30) : decodeWord w = decodeMajor30 w := by
  unfold decodeWord; rw [h]; rfl
theorem major31 (w : Nat) (h : Sys2Proof.fld w 26 6 = 0x31) : decodeWord w = decodeMajor31 w := by
  unfold decodeWord; rw [h]; rfl
theorem major32 (w : Nat) (h : Sys2Proof.fld w 26 6 = 0x32) : decodeWord w = decodeMajor32 w := by
  unfold decodeWord; rw [h]; rfl
theorem major34 (w : Nat) (h : Sys2Proof.fld w 26 6 = 0x34) : decodeWord w = decodeMajor34 w := by
  unfold decodeWord; rw [h]; rfl
theorem major35 (w : Nat) (h : Sys2Proof.fld w 26 6 = 0x35) : decodeWord w = decodeMajor35 w := by
  unfold decodeWord; rw [h]; rfl
theorem major36 (w : Nat) (h : Sys2Proof.fld w 26 6 = 0x36) : decodeWord w = decodeMajor36 w := by
  unfold decodeWord; rw [h]; rfl
theorem major37 (w : Nat) (h : Sys2Proof.fld w 26 6 = 0x37) : decodeWord w = decodeMajor37 w := by
  unfold decodeWord; rw [h]; rfl
theorem major38 (w : Nat) (h : Sys2Proof.fld w 26 6 = 0x38) : decodeWord w = decodeMajor38 w := by
  unfold decodeWord; rw [h]; rfl
theorem major39 (w : Nat) (h : Sys2Proof.fld w 26 6 = 0x39) : decodeWord w = decodeMajor39 w := by
  unfold decodeWord; rw [h]; rfl
theorem major3A (w : Nat) (h : Sys2Proof.fld w 26 6 = 0x3a) : decodeWord w = decodeMajor3A w := by
  unfold decodeWord; rw [h]; rfl
theorem major3B (w : Nat) (h : Sys2Proof.fld w 26 6 = 0x3b) : decodeWord w = decodeMajor3B w := by
  unfold decodeWord; rw [h]; rfl
theorem major3C (w : Nat) (h : Sys2Proof.fld w 26 6 = 0x3c) : decodeWord w = decodeMajor3C w := by
  unfold decodeWord; rw [h]; rfl

/-! ### Instructions -/

theorem readRequest (p : Nat) (f : Flit) : Statement (.readRequest p f) := fun _ _ e => noWord e
theorem readResponse (p : Nat) (f : Flit) : Statement (.readResponse p f) := fun _ _ e => noWord e
theorem readStatus (p : Nat) (f : Flit) : Statement (.readStatus p f) := fun _ _ e => noWord e
theorem write (p : Nat) (f : Flit) : Statement (.write p f) := fun _ _ e => noWord e
theorem writeAcknowledgement (p : Nat) (f : Flit) : Statement (.writeAcknowledgement p f) := fun _ _ e => noWord e
theorem atomicRequest (p : Nat) (f : Flit) : Statement (.atomicRequest p f) := fun _ _ e => noWord e
theorem atomicResponse (p : Nat) (f : Flit) : Statement (.atomicResponse p f) := fun _ _ e => noWord e
theorem linkControl (p : Nat) (f : Flit) : Statement (.linkControl p f) := fun _ _ e => noWord e
theorem flitDiscard (p : Nat) (f : Flit) : Statement (.flitDiscard p f) := fun _ _ e => noWord e
theorem flitCrcFailure (p : Nat) : Statement (.flitCrcFailure p) := fun _ _ e => noWord e
theorem replayTimeout (p : Nat) : Statement (.replayTimeout p) := fun _ _ e => noWord e
theorem portDown (p : Nat) : Statement (.portDown p) := fun _ _ e => noWord e
theorem linkControlKeepalive (p : Nat) : Statement (.linkControlKeepalive p) := fun _ _ e => noWord e
theorem portTrainingDone (p : Nat) : Statement (.portTrainingDone p) := fun _ _ e => noWord e
theorem portTrainingFailed (p : Nat) : Statement (.portTrainingFailed p) := fun _ _ e => noWord e
theorem portFail (p : Nat) : Statement (.portFail p) := fun _ _ e => noWord e
theorem scheduledSlotStart (p : Nat) (slot : Nat) : Statement (.scheduledSlotStart p slot) := fun _ _ e => noWord e
theorem systemBarrierArrival (p : Nat) (f : Flit) : Statement (.systemBarrierArrival p f) := fun _ _ e => noWord e
theorem systemBarrierRelease (p : Nat) (f : Flit) : Statement (.systemBarrierRelease p f) := fun _ _ e => noWord e
theorem gangReady (p : Nat) (f : Flit) : Statement (.gangReady p f) := fun _ _ e => noWord e
theorem gangGo (p : Nat) (f : Flit) : Statement (.gangGo p f) := fun _ _ e => noWord e
theorem withdrawRequest (p : Nat) (f : Flit) : Statement (.withdrawRequest p f) := fun _ _ e => noWord e
theorem withdraw (p : Nat) (f : Flit) : Statement (.withdraw p f) := fun _ _ e => noWord e
theorem tokenProgress (p : Nat) (f : Flit) : Statement (.tokenProgress p f) := fun _ _ e => noWord e
theorem preemptionRelay (p : Nat) (f : Flit) : Statement (.preemptionRelay p f) := fun _ _ e => noWord e
theorem gangFailed (p : Nat) (f : Flit) : Statement (.gangFailed p f) := fun _ _ e => noWord e
theorem throttleNotice (p : Nat) (f : Flit) : Statement (.throttleNotice p f) := fun _ _ e => noWord e
theorem gmcManagementRead (p : Nat) (f : Flit) : Statement (.gmcManagementRead p f) := fun _ _ e => noWord e
theorem gmcManagementWrite (p : Nat) (f : Flit) : Statement (.gmcManagementWrite p f) := fun _ _ e => noWord e
theorem gmcWriteThold (p : Nat) (f : Flit) : Statement (.gmcWriteThold p f) := fun _ _ e => noWord e
theorem gmcWriteGrandmaster (p : Nat) (f : Flit) : Statement (.gmcWriteGrandmaster p f) := fun _ _ e => noWord e
theorem gmcWriteMinSecurity (p : Nat) (f : Flit) : Statement (.gmcWriteMinSecurity p f) := fun _ _ e => noWord e
theorem gmcRestartTraining (p : Nat) (f : Flit) : Statement (.gmcRestartTraining p f) := fun _ _ e => noWord e
theorem attestationRequest (p : Nat) (f : Flit) : Statement (.attestationRequest p f) := fun _ _ e => noWord e
theorem sync (p : Nat) (f : Flit) : Statement (.sync p f) := fun _ _ e => noWord e
theorem followUp (p : Nat) (f : Flit) : Statement (.followUp p f) := fun _ _ e => noWord e
theorem pdelayReq (p : Nat) (f : Flit) : Statement (.pdelayReq p f) := fun _ _ e => noWord e
theorem pdelayResp (p : Nat) (f : Flit) : Statement (.pdelayResp p f) := fun _ _ e => noWord e
theorem pdelayRespFollowUp (p : Nat) (f : Flit) : Statement (.pdelayRespFollowUp p f) := fun _ _ e => noWord e
theorem announce (p : Nat) (f : Flit) : Statement (.announce p f) := fun _ _ e => noWord e
theorem syncInterval (p : Nat) : Statement (.syncInterval p) := fun _ _ e => noWord e
theorem pdelayInterval (p : Nat) : Statement (.pdelayInterval p) := fun _ _ e => noWord e
theorem announceInterval (p : Nat) : Statement (.announceInterval p) := fun _ _ e => noWord e
theorem timeLockGained : Statement (.timeLockGained) := fun _ _ e => noWord e
theorem timeLockLost : Statement (.timeLockLost) := fun _ _ e => noWord e
theorem thermalWarning : Statement (.thermalWarning) := fun _ _ e => noWord e
theorem thermalLimit : Statement (.thermalLimit) := fun _ _ e => noWord e
theorem thermalRecovery : Statement (.thermalRecovery) := fun _ _ e => noWord e
theorem throttleHoldStart : Statement (.throttleHoldStart) := fun _ _ e => noWord e
theorem throttleHoldEnd : Statement (.throttleHoldEnd) := fun _ _ e => noWord e
theorem reset : Statement (.reset) := fun _ _ e => noWord e
theorem unitStart : Statement (.unitStart) := fun _ _ e => noWord e
theorem unitReady (u : UnitId) : Statement (.unitReady u) := fun _ _ e => noWord e
theorem unitSelfTestFail (u : UnitId) : Statement (.unitSelfTestFail u) := fun _ _ e => noWord e
theorem patrolScrub (g : Nat) : Statement (.patrolScrub g) := fun _ _ e => noWord e
theorem windowRegisterWrite (p : Nat) (f : Flit) : Statement (.windowRegisterWrite p f) := fun _ _ e => noWord e
theorem queueEnable (p : Nat) (f : Flit) : Statement (.queueEnable p f) := fun _ _ e => noWord e
theorem queueDisable (p : Nat) (f : Flit) : Statement (.queueDisable p f) := fun _ _ e => noWord e
theorem qtailWrite (p : Nat) (f : Flit) : Statement (.qtailWrite p f) := fun _ _ e => noWord e
theorem sigpushSet (p : Nat) (f : Flit) : Statement (.sigpushSet p f) := fun _ _ e => noWord e
theorem sigpushAdd (p : Nat) (f : Flit) : Statement (.sigpushAdd p f) := fun _ _ e => noWord e
theorem signalApply (q : Nat) : Statement (.signalApply q) := fun _ _ e => noWord e
theorem ctxentWrite (p : Nat) (f : Flit) : Statement (.ctxentWrite p f) := fun _ _ e => noWord e
theorem evcfgWrite (p : Nat) (f : Flit) : Statement (.evcfgWrite p f) := fun _ _ e => noWord e
theorem evconsWrite (p : Nat) (f : Flit) : Statement (.evconsWrite p f) := fun _ _ e => noWord e
theorem schedHold (p : Nat) (f : Flit) : Statement (.schedHold p f) := fun _ _ e => noWord e
theorem schedRelease (p : Nat) (f : Flit) : Statement (.schedRelease p f) := fun _ _ e => noWord e
theorem schedFlush (p : Nat) (f : Flit) : Statement (.schedFlush p f) := fun _ _ e => noWord e
theorem tlbinvAll (p : Nat) (f : Flit) : Statement (.tlbinvAll p f) := fun _ _ e => noWord e
theorem tlbinvPage (p : Nat) (f : Flit) : Statement (.tlbinvPage p f) := fun _ _ e => noWord e
theorem shootdownComplete : Statement (.shootdownComplete) := fun _ _ e => noWord e
theorem recordRead (q : Nat) : Statement (.recordRead q) := fun _ _ e => noWord e
theorem startatReached (q : Nat) (n : Nat) : Statement (.startatReached q n) := fun _ _ e => noWord e
theorem schedulerChoice : Statement (.schedulerChoice) := fun _ _ e => noWord e
theorem gangGoEffective (q : Nat) (n : Nat) : Statement (.gangGoEffective q n) := fun _ _ e => noWord e
theorem hartSave (b : Nat) (n : Nat) : Statement (.hartSave b n) := fun _ _ e => noWord e
theorem launchComplete (q : Nat) (n : Nat) : Statement (.launchComplete q n) := fun _ _ e => noWord e
theorem retentionEnter (b : Nat) (lg : Nat) : Statement (.retentionEnter b lg) := fun _ _ e => noWord e
theorem laneGroupRetire (b : Nat) (lg : Nat) : Statement (.laneGroupRetire b lg) := fun _ _ e => noWord e
theorem stripClose (b : Nat) (n : Nat) : Statement (.stripClose b n) := fun _ _ e => noWord e
theorem storeBufferTimeout (b : Nat) (n : Nat) : Statement (.storeBufferTimeout b n) := fun _ _ e => noWord e
theorem tileClaimServed (b : Nat) (n : Nat) : Statement (.tileClaimServed b n) := fun _ _ e => noWord e
theorem smcastStart (b : Nat) (n : Nat) : Statement (.smcastStart b n) := fun _ _ e => noWord e
theorem vectorInstructionComplete (b : Nat) (n : Nat) : Statement (.vectorInstructionComplete b n) := fun _ _ e => noWord e
theorem nameCompareDone (b : Nat) (n : Nat) : Statement (.nameCompareDone b n) := fun _ _ e => noWord e
theorem walkComplete (b : Nat) (ctx : Nat) (vmid : Nat) (va : Nat) : Statement (.walkComplete b ctx vmid va) := fun _ _ e => noWord e
theorem probePassDone (b : Nat) (n : Nat) : Statement (.probePassDone b n) := fun _ _ e => noWord e
theorem changeoverEnd (b : Nat) : Statement (.changeoverEnd b) := fun _ _ e => noWord e
theorem autoGearDrop (b : Nat) (n : Nat) : Statement (.autoGearDrop b n) := fun _ _ e => noWord e
theorem gearLeadReached (b : Nat) (n : Nat) : Statement (.gearLeadReached b n) := fun _ _ e => noWord e
theorem waittTargetReached (b : Nat) (n : Nat) : Statement (.waittTargetReached b n) := fun _ _ e => noWord e
theorem barrierRelease (q : Nat) (n : Nat) (bar : Nat) : Statement (.barrierRelease q n bar) := fun _ _ e => noWord e
theorem energyInterval : Statement (.energyInterval) := fun _ _ e => noWord e
theorem streamFetch (b : Nat) (n : Nat) (sn : Nat) : Statement (.streamFetch b n sn) := fun _ _ e => noWord e
theorem streamFetchComplete (b : Nat) (n : Nat) (sn : Nat) : Statement (.streamFetchComplete b n sn) := fun _ _ e => noWord e
theorem copyComplete (course : Nat) (i : Nat) : Statement (.copyComplete course i) := fun _ _ e => noWord e
theorem mcastLand (course : Nat) (i : Nat) : Statement (.mcastLand course i) := fun _ _ e => noWord e
theorem mergeOpenCommand (course : Nat) (i : Nat) : Statement (.mergeOpenCommand course i) := fun _ _ e => noWord e
theorem mergeEntryArrival (course : Nat) (i : Nat) : Statement (.mergeEntryArrival course i) := fun _ _ e => noWord e
theorem mergeFinCommand (course : Nat) (i : Nat) : Statement (.mergeFinCommand course i) := fun _ _ e => noWord e
theorem mergeStatCommand (course : Nat) (i : Nat) : Statement (.mergeStatCommand course i) := fun _ _ e => noWord e
theorem idleTimeout (b : Nat) (n : Nat) : Statement (.idleTimeout b n) := fun _ _ e => noWord e
theorem csrWriteFstat (b : Nat) (n : Nat) : Statement (.csrWriteFstat b n) := fun _ _ e => noWord e
theorem csrWriteFidx (b : Nat) (n : Nat) : Statement (.csrWriteFidx b n) := fun _ _ e => noWord e
theorem csrWriteReusehit (b : Nat) (n : Nat) : Statement (.csrWriteReusehit b n) := fun _ _ e => noWord e
theorem add (d : Nat) (a : Nat) (b : Nat) : Statement (.add d a b) := by
  intro hwf word hw
  replace hwf : (d < 32 && a < 32 && b < 32 : Bool) = true := hwf
  simp only [Bool.and_eq_true, decide_eq_true_eq] at hwf
  have b_d : d < 32 := hwf.1.1
  have b_a : a < 32 := hwf.1.2
  have b_b : b < 32 := hwf.2
  replace hw : 0x4000000 + d * 2 ^ 21 + a * 2 ^ 16 + b * 2 ^ 11 = word := Option.some.inj hw
  have f26_6 : Sys2Proof.fld word 26 6 = 1 := Sys2Proof.Laws.Field.bits26w6_of_21w5_16w5_11w5 0x4000000 d a b word hw b_d b_a b_b rfl rfl rfl
  have f0_11 : Sys2Proof.fld word 0 11 = 0 := Sys2Proof.Laws.Field.bits0w11_of_21w5_16w5_11w5 0x4000000 d a b word hw
  have f21_5 : Sys2Proof.fld word 21 5 = d := Sys2Proof.Laws.Field.bits21w5_of_21w5_16w5_11w5 0x4000000 d a b word hw b_d b_a b_b rfl rfl rfl
  have f16_5 : Sys2Proof.fld word 16 5 = a := Sys2Proof.Laws.Field.bits16w5_of_21w5_16w5_11w5 0x4000000 d a b word hw b_a b_b rfl rfl
  have f11_5 : Sys2Proof.fld word 11 5 = b := Sys2Proof.Laws.Field.bits11w5_of_21w5_16w5_11w5 0x4000000 d a b word hw b_b rfl
  rw [major01 word f26_6]
  unfold decodeMajor01
  rw [f0_11, f21_5, f16_5, f11_5]; try rfl
theorem sub (d : Nat) (a : Nat) (b : Nat) : Statement (.sub d a b) := by
  intro hwf word hw
  replace hwf : (d < 32 && a < 32 && b < 32 : Bool) = true := hwf
  simp only [Bool.and_eq_true, decide_eq_true_eq] at hwf
  have b_d : d < 32 := hwf.1.1
  have b_a : a < 32 := hwf.1.2
  have b_b : b < 32 := hwf.2
  replace hw : 0x4000001 + d * 2 ^ 21 + a * 2 ^ 16 + b * 2 ^ 11 = word := Option.some.inj hw
  have f26_6 : Sys2Proof.fld word 26 6 = 1 := Sys2Proof.Laws.Field.bits26w6_of_21w5_16w5_11w5 0x4000001 d a b word hw b_d b_a b_b rfl rfl rfl
  have f0_11 : Sys2Proof.fld word 0 11 = 1 := Sys2Proof.Laws.Field.bits0w11_of_21w5_16w5_11w5 0x4000001 d a b word hw
  have f21_5 : Sys2Proof.fld word 21 5 = d := Sys2Proof.Laws.Field.bits21w5_of_21w5_16w5_11w5 0x4000001 d a b word hw b_d b_a b_b rfl rfl rfl
  have f16_5 : Sys2Proof.fld word 16 5 = a := Sys2Proof.Laws.Field.bits16w5_of_21w5_16w5_11w5 0x4000001 d a b word hw b_a b_b rfl rfl
  have f11_5 : Sys2Proof.fld word 11 5 = b := Sys2Proof.Laws.Field.bits11w5_of_21w5_16w5_11w5 0x4000001 d a b word hw b_b rfl
  rw [major01 word f26_6]
  unfold decodeMajor01
  rw [f0_11, f21_5, f16_5, f11_5]; try rfl
theorem and (d : Nat) (a : Nat) (b : Nat) : Statement (.and d a b) := by
  intro hwf word hw
  replace hwf : (d < 32 && a < 32 && b < 32 : Bool) = true := hwf
  simp only [Bool.and_eq_true, decide_eq_true_eq] at hwf
  have b_d : d < 32 := hwf.1.1
  have b_a : a < 32 := hwf.1.2
  have b_b : b < 32 := hwf.2
  replace hw : 0x4000002 + d * 2 ^ 21 + a * 2 ^ 16 + b * 2 ^ 11 = word := Option.some.inj hw
  have f26_6 : Sys2Proof.fld word 26 6 = 1 := Sys2Proof.Laws.Field.bits26w6_of_21w5_16w5_11w5 0x4000002 d a b word hw b_d b_a b_b rfl rfl rfl
  have f0_11 : Sys2Proof.fld word 0 11 = 2 := Sys2Proof.Laws.Field.bits0w11_of_21w5_16w5_11w5 0x4000002 d a b word hw
  have f21_5 : Sys2Proof.fld word 21 5 = d := Sys2Proof.Laws.Field.bits21w5_of_21w5_16w5_11w5 0x4000002 d a b word hw b_d b_a b_b rfl rfl rfl
  have f16_5 : Sys2Proof.fld word 16 5 = a := Sys2Proof.Laws.Field.bits16w5_of_21w5_16w5_11w5 0x4000002 d a b word hw b_a b_b rfl rfl
  have f11_5 : Sys2Proof.fld word 11 5 = b := Sys2Proof.Laws.Field.bits11w5_of_21w5_16w5_11w5 0x4000002 d a b word hw b_b rfl
  rw [major01 word f26_6]
  unfold decodeMajor01
  rw [f0_11, f21_5, f16_5, f11_5]; try rfl
theorem or (d : Nat) (a : Nat) (b : Nat) : Statement (.or d a b) := by
  intro hwf word hw
  replace hwf : (d < 32 && a < 32 && b < 32 : Bool) = true := hwf
  simp only [Bool.and_eq_true, decide_eq_true_eq] at hwf
  have b_d : d < 32 := hwf.1.1
  have b_a : a < 32 := hwf.1.2
  have b_b : b < 32 := hwf.2
  replace hw : 0x4000003 + d * 2 ^ 21 + a * 2 ^ 16 + b * 2 ^ 11 = word := Option.some.inj hw
  have f26_6 : Sys2Proof.fld word 26 6 = 1 := Sys2Proof.Laws.Field.bits26w6_of_21w5_16w5_11w5 0x4000003 d a b word hw b_d b_a b_b rfl rfl rfl
  have f0_11 : Sys2Proof.fld word 0 11 = 3 := Sys2Proof.Laws.Field.bits0w11_of_21w5_16w5_11w5 0x4000003 d a b word hw
  have f21_5 : Sys2Proof.fld word 21 5 = d := Sys2Proof.Laws.Field.bits21w5_of_21w5_16w5_11w5 0x4000003 d a b word hw b_d b_a b_b rfl rfl rfl
  have f16_5 : Sys2Proof.fld word 16 5 = a := Sys2Proof.Laws.Field.bits16w5_of_21w5_16w5_11w5 0x4000003 d a b word hw b_a b_b rfl rfl
  have f11_5 : Sys2Proof.fld word 11 5 = b := Sys2Proof.Laws.Field.bits11w5_of_21w5_16w5_11w5 0x4000003 d a b word hw b_b rfl
  rw [major01 word f26_6]
  unfold decodeMajor01
  rw [f0_11, f21_5, f16_5, f11_5]; try rfl
theorem xor (d : Nat) (a : Nat) (b : Nat) : Statement (.xor d a b) := by
  intro hwf word hw
  replace hwf : (d < 32 && a < 32 && b < 32 : Bool) = true := hwf
  simp only [Bool.and_eq_true, decide_eq_true_eq] at hwf
  have b_d : d < 32 := hwf.1.1
  have b_a : a < 32 := hwf.1.2
  have b_b : b < 32 := hwf.2
  replace hw : 0x4000004 + d * 2 ^ 21 + a * 2 ^ 16 + b * 2 ^ 11 = word := Option.some.inj hw
  have f26_6 : Sys2Proof.fld word 26 6 = 1 := Sys2Proof.Laws.Field.bits26w6_of_21w5_16w5_11w5 0x4000004 d a b word hw b_d b_a b_b rfl rfl rfl
  have f0_11 : Sys2Proof.fld word 0 11 = 4 := Sys2Proof.Laws.Field.bits0w11_of_21w5_16w5_11w5 0x4000004 d a b word hw
  have f21_5 : Sys2Proof.fld word 21 5 = d := Sys2Proof.Laws.Field.bits21w5_of_21w5_16w5_11w5 0x4000004 d a b word hw b_d b_a b_b rfl rfl rfl
  have f16_5 : Sys2Proof.fld word 16 5 = a := Sys2Proof.Laws.Field.bits16w5_of_21w5_16w5_11w5 0x4000004 d a b word hw b_a b_b rfl rfl
  have f11_5 : Sys2Proof.fld word 11 5 = b := Sys2Proof.Laws.Field.bits11w5_of_21w5_16w5_11w5 0x4000004 d a b word hw b_b rfl
  rw [major01 word f26_6]
  unfold decodeMajor01
  rw [f0_11, f21_5, f16_5, f11_5]; try rfl
theorem sll (d : Nat) (a : Nat) (b : Nat) : Statement (.sll d a b) := by
  intro hwf word hw
  replace hwf : (d < 32 && a < 32 && b < 32 : Bool) = true := hwf
  simp only [Bool.and_eq_true, decide_eq_true_eq] at hwf
  have b_d : d < 32 := hwf.1.1
  have b_a : a < 32 := hwf.1.2
  have b_b : b < 32 := hwf.2
  replace hw : 0x4000005 + d * 2 ^ 21 + a * 2 ^ 16 + b * 2 ^ 11 = word := Option.some.inj hw
  have f26_6 : Sys2Proof.fld word 26 6 = 1 := Sys2Proof.Laws.Field.bits26w6_of_21w5_16w5_11w5 0x4000005 d a b word hw b_d b_a b_b rfl rfl rfl
  have f0_11 : Sys2Proof.fld word 0 11 = 5 := Sys2Proof.Laws.Field.bits0w11_of_21w5_16w5_11w5 0x4000005 d a b word hw
  have f21_5 : Sys2Proof.fld word 21 5 = d := Sys2Proof.Laws.Field.bits21w5_of_21w5_16w5_11w5 0x4000005 d a b word hw b_d b_a b_b rfl rfl rfl
  have f16_5 : Sys2Proof.fld word 16 5 = a := Sys2Proof.Laws.Field.bits16w5_of_21w5_16w5_11w5 0x4000005 d a b word hw b_a b_b rfl rfl
  have f11_5 : Sys2Proof.fld word 11 5 = b := Sys2Proof.Laws.Field.bits11w5_of_21w5_16w5_11w5 0x4000005 d a b word hw b_b rfl
  rw [major01 word f26_6]
  unfold decodeMajor01
  rw [f0_11, f21_5, f16_5, f11_5]; try rfl
theorem srl (d : Nat) (a : Nat) (b : Nat) : Statement (.srl d a b) := by
  intro hwf word hw
  replace hwf : (d < 32 && a < 32 && b < 32 : Bool) = true := hwf
  simp only [Bool.and_eq_true, decide_eq_true_eq] at hwf
  have b_d : d < 32 := hwf.1.1
  have b_a : a < 32 := hwf.1.2
  have b_b : b < 32 := hwf.2
  replace hw : 0x4000006 + d * 2 ^ 21 + a * 2 ^ 16 + b * 2 ^ 11 = word := Option.some.inj hw
  have f26_6 : Sys2Proof.fld word 26 6 = 1 := Sys2Proof.Laws.Field.bits26w6_of_21w5_16w5_11w5 0x4000006 d a b word hw b_d b_a b_b rfl rfl rfl
  have f0_11 : Sys2Proof.fld word 0 11 = 6 := Sys2Proof.Laws.Field.bits0w11_of_21w5_16w5_11w5 0x4000006 d a b word hw
  have f21_5 : Sys2Proof.fld word 21 5 = d := Sys2Proof.Laws.Field.bits21w5_of_21w5_16w5_11w5 0x4000006 d a b word hw b_d b_a b_b rfl rfl rfl
  have f16_5 : Sys2Proof.fld word 16 5 = a := Sys2Proof.Laws.Field.bits16w5_of_21w5_16w5_11w5 0x4000006 d a b word hw b_a b_b rfl rfl
  have f11_5 : Sys2Proof.fld word 11 5 = b := Sys2Proof.Laws.Field.bits11w5_of_21w5_16w5_11w5 0x4000006 d a b word hw b_b rfl
  rw [major01 word f26_6]
  unfold decodeMajor01
  rw [f0_11, f21_5, f16_5, f11_5]; try rfl
theorem sra (d : Nat) (a : Nat) (b : Nat) : Statement (.sra d a b) := by
  intro hwf word hw
  replace hwf : (d < 32 && a < 32 && b < 32 : Bool) = true := hwf
  simp only [Bool.and_eq_true, decide_eq_true_eq] at hwf
  have b_d : d < 32 := hwf.1.1
  have b_a : a < 32 := hwf.1.2
  have b_b : b < 32 := hwf.2
  replace hw : 0x4000007 + d * 2 ^ 21 + a * 2 ^ 16 + b * 2 ^ 11 = word := Option.some.inj hw
  have f26_6 : Sys2Proof.fld word 26 6 = 1 := Sys2Proof.Laws.Field.bits26w6_of_21w5_16w5_11w5 0x4000007 d a b word hw b_d b_a b_b rfl rfl rfl
  have f0_11 : Sys2Proof.fld word 0 11 = 7 := Sys2Proof.Laws.Field.bits0w11_of_21w5_16w5_11w5 0x4000007 d a b word hw
  have f21_5 : Sys2Proof.fld word 21 5 = d := Sys2Proof.Laws.Field.bits21w5_of_21w5_16w5_11w5 0x4000007 d a b word hw b_d b_a b_b rfl rfl rfl
  have f16_5 : Sys2Proof.fld word 16 5 = a := Sys2Proof.Laws.Field.bits16w5_of_21w5_16w5_11w5 0x4000007 d a b word hw b_a b_b rfl rfl
  have f11_5 : Sys2Proof.fld word 11 5 = b := Sys2Proof.Laws.Field.bits11w5_of_21w5_16w5_11w5 0x4000007 d a b word hw b_b rfl
  rw [major01 word f26_6]
  unfold decodeMajor01
  rw [f0_11, f21_5, f16_5, f11_5]; try rfl
theorem slt (d : Nat) (a : Nat) (b : Nat) : Statement (.slt d a b) := by
  intro hwf word hw
  replace hwf : (d < 32 && a < 32 && b < 32 : Bool) = true := hwf
  simp only [Bool.and_eq_true, decide_eq_true_eq] at hwf
  have b_d : d < 32 := hwf.1.1
  have b_a : a < 32 := hwf.1.2
  have b_b : b < 32 := hwf.2
  replace hw : 0x4000008 + d * 2 ^ 21 + a * 2 ^ 16 + b * 2 ^ 11 = word := Option.some.inj hw
  have f26_6 : Sys2Proof.fld word 26 6 = 1 := Sys2Proof.Laws.Field.bits26w6_of_21w5_16w5_11w5 0x4000008 d a b word hw b_d b_a b_b rfl rfl rfl
  have f0_11 : Sys2Proof.fld word 0 11 = 8 := Sys2Proof.Laws.Field.bits0w11_of_21w5_16w5_11w5 0x4000008 d a b word hw
  have f21_5 : Sys2Proof.fld word 21 5 = d := Sys2Proof.Laws.Field.bits21w5_of_21w5_16w5_11w5 0x4000008 d a b word hw b_d b_a b_b rfl rfl rfl
  have f16_5 : Sys2Proof.fld word 16 5 = a := Sys2Proof.Laws.Field.bits16w5_of_21w5_16w5_11w5 0x4000008 d a b word hw b_a b_b rfl rfl
  have f11_5 : Sys2Proof.fld word 11 5 = b := Sys2Proof.Laws.Field.bits11w5_of_21w5_16w5_11w5 0x4000008 d a b word hw b_b rfl
  rw [major01 word f26_6]
  unfold decodeMajor01
  rw [f0_11, f21_5, f16_5, f11_5]; try rfl
theorem sltn (d : Nat) (a : Nat) (b : Nat) : Statement (.sltn d a b) := by
  intro hwf word hw
  replace hwf : (d < 32 && a < 32 && b < 32 : Bool) = true := hwf
  simp only [Bool.and_eq_true, decide_eq_true_eq] at hwf
  have b_d : d < 32 := hwf.1.1
  have b_a : a < 32 := hwf.1.2
  have b_b : b < 32 := hwf.2
  replace hw : 0x4000009 + d * 2 ^ 21 + a * 2 ^ 16 + b * 2 ^ 11 = word := Option.some.inj hw
  have f26_6 : Sys2Proof.fld word 26 6 = 1 := Sys2Proof.Laws.Field.bits26w6_of_21w5_16w5_11w5 0x4000009 d a b word hw b_d b_a b_b rfl rfl rfl
  have f0_11 : Sys2Proof.fld word 0 11 = 9 := Sys2Proof.Laws.Field.bits0w11_of_21w5_16w5_11w5 0x4000009 d a b word hw
  have f21_5 : Sys2Proof.fld word 21 5 = d := Sys2Proof.Laws.Field.bits21w5_of_21w5_16w5_11w5 0x4000009 d a b word hw b_d b_a b_b rfl rfl rfl
  have f16_5 : Sys2Proof.fld word 16 5 = a := Sys2Proof.Laws.Field.bits16w5_of_21w5_16w5_11w5 0x4000009 d a b word hw b_a b_b rfl rfl
  have f11_5 : Sys2Proof.fld word 11 5 = b := Sys2Proof.Laws.Field.bits11w5_of_21w5_16w5_11w5 0x4000009 d a b word hw b_b rfl
  rw [major01 word f26_6]
  unfold decodeMajor01
  rw [f0_11, f21_5, f16_5, f11_5]; try rfl
theorem mul (d : Nat) (a : Nat) (b : Nat) : Statement (.mul d a b) := by
  intro hwf word hw
  replace hwf : (d < 32 && a < 32 && b < 32 : Bool) = true := hwf
  simp only [Bool.and_eq_true, decide_eq_true_eq] at hwf
  have b_d : d < 32 := hwf.1.1
  have b_a : a < 32 := hwf.1.2
  have b_b : b < 32 := hwf.2
  replace hw : 0x400000a + d * 2 ^ 21 + a * 2 ^ 16 + b * 2 ^ 11 = word := Option.some.inj hw
  have f26_6 : Sys2Proof.fld word 26 6 = 1 := Sys2Proof.Laws.Field.bits26w6_of_21w5_16w5_11w5 0x400000a d a b word hw b_d b_a b_b rfl rfl rfl
  have f0_11 : Sys2Proof.fld word 0 11 = 10 := Sys2Proof.Laws.Field.bits0w11_of_21w5_16w5_11w5 0x400000a d a b word hw
  have f21_5 : Sys2Proof.fld word 21 5 = d := Sys2Proof.Laws.Field.bits21w5_of_21w5_16w5_11w5 0x400000a d a b word hw b_d b_a b_b rfl rfl rfl
  have f16_5 : Sys2Proof.fld word 16 5 = a := Sys2Proof.Laws.Field.bits16w5_of_21w5_16w5_11w5 0x400000a d a b word hw b_a b_b rfl rfl
  have f11_5 : Sys2Proof.fld word 11 5 = b := Sys2Proof.Laws.Field.bits11w5_of_21w5_16w5_11w5 0x400000a d a b word hw b_b rfl
  rw [major01 word f26_6]
  unfold decodeMajor01
  rw [f0_11, f21_5, f16_5, f11_5]; try rfl
theorem mulh (d : Nat) (a : Nat) (b : Nat) : Statement (.mulh d a b) := by
  intro hwf word hw
  replace hwf : (d < 32 && a < 32 && b < 32 : Bool) = true := hwf
  simp only [Bool.and_eq_true, decide_eq_true_eq] at hwf
  have b_d : d < 32 := hwf.1.1
  have b_a : a < 32 := hwf.1.2
  have b_b : b < 32 := hwf.2
  replace hw : 0x400000b + d * 2 ^ 21 + a * 2 ^ 16 + b * 2 ^ 11 = word := Option.some.inj hw
  have f26_6 : Sys2Proof.fld word 26 6 = 1 := Sys2Proof.Laws.Field.bits26w6_of_21w5_16w5_11w5 0x400000b d a b word hw b_d b_a b_b rfl rfl rfl
  have f0_11 : Sys2Proof.fld word 0 11 = 11 := Sys2Proof.Laws.Field.bits0w11_of_21w5_16w5_11w5 0x400000b d a b word hw
  have f21_5 : Sys2Proof.fld word 21 5 = d := Sys2Proof.Laws.Field.bits21w5_of_21w5_16w5_11w5 0x400000b d a b word hw b_d b_a b_b rfl rfl rfl
  have f16_5 : Sys2Proof.fld word 16 5 = a := Sys2Proof.Laws.Field.bits16w5_of_21w5_16w5_11w5 0x400000b d a b word hw b_a b_b rfl rfl
  have f11_5 : Sys2Proof.fld word 11 5 = b := Sys2Proof.Laws.Field.bits11w5_of_21w5_16w5_11w5 0x400000b d a b word hw b_b rfl
  rw [major01 word f26_6]
  unfold decodeMajor01
  rw [f0_11, f21_5, f16_5, f11_5]; try rfl
theorem mulhn (d : Nat) (a : Nat) (b : Nat) : Statement (.mulhn d a b) := by
  intro hwf word hw
  replace hwf : (d < 32 && a < 32 && b < 32 : Bool) = true := hwf
  simp only [Bool.and_eq_true, decide_eq_true_eq] at hwf
  have b_d : d < 32 := hwf.1.1
  have b_a : a < 32 := hwf.1.2
  have b_b : b < 32 := hwf.2
  replace hw : 0x400000c + d * 2 ^ 21 + a * 2 ^ 16 + b * 2 ^ 11 = word := Option.some.inj hw
  have f26_6 : Sys2Proof.fld word 26 6 = 1 := Sys2Proof.Laws.Field.bits26w6_of_21w5_16w5_11w5 0x400000c d a b word hw b_d b_a b_b rfl rfl rfl
  have f0_11 : Sys2Proof.fld word 0 11 = 12 := Sys2Proof.Laws.Field.bits0w11_of_21w5_16w5_11w5 0x400000c d a b word hw
  have f21_5 : Sys2Proof.fld word 21 5 = d := Sys2Proof.Laws.Field.bits21w5_of_21w5_16w5_11w5 0x400000c d a b word hw b_d b_a b_b rfl rfl rfl
  have f16_5 : Sys2Proof.fld word 16 5 = a := Sys2Proof.Laws.Field.bits16w5_of_21w5_16w5_11w5 0x400000c d a b word hw b_a b_b rfl rfl
  have f11_5 : Sys2Proof.fld word 11 5 = b := Sys2Proof.Laws.Field.bits11w5_of_21w5_16w5_11w5 0x400000c d a b word hw b_b rfl
  rw [major01 word f26_6]
  unfold decodeMajor01
  rw [f0_11, f21_5, f16_5, f11_5]; try rfl
theorem div (d : Nat) (a : Nat) (b : Nat) : Statement (.div d a b) := by
  intro hwf word hw
  replace hwf : (d < 32 && a < 32 && b < 32 : Bool) = true := hwf
  simp only [Bool.and_eq_true, decide_eq_true_eq] at hwf
  have b_d : d < 32 := hwf.1.1
  have b_a : a < 32 := hwf.1.2
  have b_b : b < 32 := hwf.2
  replace hw : 0x400000d + d * 2 ^ 21 + a * 2 ^ 16 + b * 2 ^ 11 = word := Option.some.inj hw
  have f26_6 : Sys2Proof.fld word 26 6 = 1 := Sys2Proof.Laws.Field.bits26w6_of_21w5_16w5_11w5 0x400000d d a b word hw b_d b_a b_b rfl rfl rfl
  have f0_11 : Sys2Proof.fld word 0 11 = 13 := Sys2Proof.Laws.Field.bits0w11_of_21w5_16w5_11w5 0x400000d d a b word hw
  have f21_5 : Sys2Proof.fld word 21 5 = d := Sys2Proof.Laws.Field.bits21w5_of_21w5_16w5_11w5 0x400000d d a b word hw b_d b_a b_b rfl rfl rfl
  have f16_5 : Sys2Proof.fld word 16 5 = a := Sys2Proof.Laws.Field.bits16w5_of_21w5_16w5_11w5 0x400000d d a b word hw b_a b_b rfl rfl
  have f11_5 : Sys2Proof.fld word 11 5 = b := Sys2Proof.Laws.Field.bits11w5_of_21w5_16w5_11w5 0x400000d d a b word hw b_b rfl
  rw [major01 word f26_6]
  unfold decodeMajor01
  rw [f0_11, f21_5, f16_5, f11_5]; try rfl
theorem divn (d : Nat) (a : Nat) (b : Nat) : Statement (.divn d a b) := by
  intro hwf word hw
  replace hwf : (d < 32 && a < 32 && b < 32 : Bool) = true := hwf
  simp only [Bool.and_eq_true, decide_eq_true_eq] at hwf
  have b_d : d < 32 := hwf.1.1
  have b_a : a < 32 := hwf.1.2
  have b_b : b < 32 := hwf.2
  replace hw : 0x400000e + d * 2 ^ 21 + a * 2 ^ 16 + b * 2 ^ 11 = word := Option.some.inj hw
  have f26_6 : Sys2Proof.fld word 26 6 = 1 := Sys2Proof.Laws.Field.bits26w6_of_21w5_16w5_11w5 0x400000e d a b word hw b_d b_a b_b rfl rfl rfl
  have f0_11 : Sys2Proof.fld word 0 11 = 14 := Sys2Proof.Laws.Field.bits0w11_of_21w5_16w5_11w5 0x400000e d a b word hw
  have f21_5 : Sys2Proof.fld word 21 5 = d := Sys2Proof.Laws.Field.bits21w5_of_21w5_16w5_11w5 0x400000e d a b word hw b_d b_a b_b rfl rfl rfl
  have f16_5 : Sys2Proof.fld word 16 5 = a := Sys2Proof.Laws.Field.bits16w5_of_21w5_16w5_11w5 0x400000e d a b word hw b_a b_b rfl rfl
  have f11_5 : Sys2Proof.fld word 11 5 = b := Sys2Proof.Laws.Field.bits11w5_of_21w5_16w5_11w5 0x400000e d a b word hw b_b rfl
  rw [major01 word f26_6]
  unfold decodeMajor01
  rw [f0_11, f21_5, f16_5, f11_5]; try rfl
theorem rem (d : Nat) (a : Nat) (b : Nat) : Statement (.rem d a b) := by
  intro hwf word hw
  replace hwf : (d < 32 && a < 32 && b < 32 : Bool) = true := hwf
  simp only [Bool.and_eq_true, decide_eq_true_eq] at hwf
  have b_d : d < 32 := hwf.1.1
  have b_a : a < 32 := hwf.1.2
  have b_b : b < 32 := hwf.2
  replace hw : 0x400000f + d * 2 ^ 21 + a * 2 ^ 16 + b * 2 ^ 11 = word := Option.some.inj hw
  have f26_6 : Sys2Proof.fld word 26 6 = 1 := Sys2Proof.Laws.Field.bits26w6_of_21w5_16w5_11w5 0x400000f d a b word hw b_d b_a b_b rfl rfl rfl
  have f0_11 : Sys2Proof.fld word 0 11 = 15 := Sys2Proof.Laws.Field.bits0w11_of_21w5_16w5_11w5 0x400000f d a b word hw
  have f21_5 : Sys2Proof.fld word 21 5 = d := Sys2Proof.Laws.Field.bits21w5_of_21w5_16w5_11w5 0x400000f d a b word hw b_d b_a b_b rfl rfl rfl
  have f16_5 : Sys2Proof.fld word 16 5 = a := Sys2Proof.Laws.Field.bits16w5_of_21w5_16w5_11w5 0x400000f d a b word hw b_a b_b rfl rfl
  have f11_5 : Sys2Proof.fld word 11 5 = b := Sys2Proof.Laws.Field.bits11w5_of_21w5_16w5_11w5 0x400000f d a b word hw b_b rfl
  rw [major01 word f26_6]
  unfold decodeMajor01
  rw [f0_11, f21_5, f16_5, f11_5]; try rfl
theorem remn (d : Nat) (a : Nat) (b : Nat) : Statement (.remn d a b) := by
  intro hwf word hw
  replace hwf : (d < 32 && a < 32 && b < 32 : Bool) = true := hwf
  simp only [Bool.and_eq_true, decide_eq_true_eq] at hwf
  have b_d : d < 32 := hwf.1.1
  have b_a : a < 32 := hwf.1.2
  have b_b : b < 32 := hwf.2
  replace hw : 0x4000010 + d * 2 ^ 21 + a * 2 ^ 16 + b * 2 ^ 11 = word := Option.some.inj hw
  have f26_6 : Sys2Proof.fld word 26 6 = 1 := Sys2Proof.Laws.Field.bits26w6_of_21w5_16w5_11w5 0x4000010 d a b word hw b_d b_a b_b rfl rfl rfl
  have f0_11 : Sys2Proof.fld word 0 11 = 16 := Sys2Proof.Laws.Field.bits0w11_of_21w5_16w5_11w5 0x4000010 d a b word hw
  have f21_5 : Sys2Proof.fld word 21 5 = d := Sys2Proof.Laws.Field.bits21w5_of_21w5_16w5_11w5 0x4000010 d a b word hw b_d b_a b_b rfl rfl rfl
  have f16_5 : Sys2Proof.fld word 16 5 = a := Sys2Proof.Laws.Field.bits16w5_of_21w5_16w5_11w5 0x4000010 d a b word hw b_a b_b rfl rfl
  have f11_5 : Sys2Proof.fld word 11 5 = b := Sys2Proof.Laws.Field.bits11w5_of_21w5_16w5_11w5 0x4000010 d a b word hw b_b rfl
  rw [major01 word f26_6]
  unfold decodeMajor01
  rw [f0_11, f21_5, f16_5, f11_5]; try rfl
theorem min (d : Nat) (a : Nat) (b : Nat) : Statement (.min d a b) := by
  intro hwf word hw
  replace hwf : (d < 32 && a < 32 && b < 32 : Bool) = true := hwf
  simp only [Bool.and_eq_true, decide_eq_true_eq] at hwf
  have b_d : d < 32 := hwf.1.1
  have b_a : a < 32 := hwf.1.2
  have b_b : b < 32 := hwf.2
  replace hw : 0x4000011 + d * 2 ^ 21 + a * 2 ^ 16 + b * 2 ^ 11 = word := Option.some.inj hw
  have f26_6 : Sys2Proof.fld word 26 6 = 1 := Sys2Proof.Laws.Field.bits26w6_of_21w5_16w5_11w5 0x4000011 d a b word hw b_d b_a b_b rfl rfl rfl
  have f0_11 : Sys2Proof.fld word 0 11 = 17 := Sys2Proof.Laws.Field.bits0w11_of_21w5_16w5_11w5 0x4000011 d a b word hw
  have f21_5 : Sys2Proof.fld word 21 5 = d := Sys2Proof.Laws.Field.bits21w5_of_21w5_16w5_11w5 0x4000011 d a b word hw b_d b_a b_b rfl rfl rfl
  have f16_5 : Sys2Proof.fld word 16 5 = a := Sys2Proof.Laws.Field.bits16w5_of_21w5_16w5_11w5 0x4000011 d a b word hw b_a b_b rfl rfl
  have f11_5 : Sys2Proof.fld word 11 5 = b := Sys2Proof.Laws.Field.bits11w5_of_21w5_16w5_11w5 0x4000011 d a b word hw b_b rfl
  rw [major01 word f26_6]
  unfold decodeMajor01
  rw [f0_11, f21_5, f16_5, f11_5]; try rfl
theorem minn (d : Nat) (a : Nat) (b : Nat) : Statement (.minn d a b) := by
  intro hwf word hw
  replace hwf : (d < 32 && a < 32 && b < 32 : Bool) = true := hwf
  simp only [Bool.and_eq_true, decide_eq_true_eq] at hwf
  have b_d : d < 32 := hwf.1.1
  have b_a : a < 32 := hwf.1.2
  have b_b : b < 32 := hwf.2
  replace hw : 0x4000012 + d * 2 ^ 21 + a * 2 ^ 16 + b * 2 ^ 11 = word := Option.some.inj hw
  have f26_6 : Sys2Proof.fld word 26 6 = 1 := Sys2Proof.Laws.Field.bits26w6_of_21w5_16w5_11w5 0x4000012 d a b word hw b_d b_a b_b rfl rfl rfl
  have f0_11 : Sys2Proof.fld word 0 11 = 18 := Sys2Proof.Laws.Field.bits0w11_of_21w5_16w5_11w5 0x4000012 d a b word hw
  have f21_5 : Sys2Proof.fld word 21 5 = d := Sys2Proof.Laws.Field.bits21w5_of_21w5_16w5_11w5 0x4000012 d a b word hw b_d b_a b_b rfl rfl rfl
  have f16_5 : Sys2Proof.fld word 16 5 = a := Sys2Proof.Laws.Field.bits16w5_of_21w5_16w5_11w5 0x4000012 d a b word hw b_a b_b rfl rfl
  have f11_5 : Sys2Proof.fld word 11 5 = b := Sys2Proof.Laws.Field.bits11w5_of_21w5_16w5_11w5 0x4000012 d a b word hw b_b rfl
  rw [major01 word f26_6]
  unfold decodeMajor01
  rw [f0_11, f21_5, f16_5, f11_5]; try rfl
theorem max (d : Nat) (a : Nat) (b : Nat) : Statement (.max d a b) := by
  intro hwf word hw
  replace hwf : (d < 32 && a < 32 && b < 32 : Bool) = true := hwf
  simp only [Bool.and_eq_true, decide_eq_true_eq] at hwf
  have b_d : d < 32 := hwf.1.1
  have b_a : a < 32 := hwf.1.2
  have b_b : b < 32 := hwf.2
  replace hw : 0x4000013 + d * 2 ^ 21 + a * 2 ^ 16 + b * 2 ^ 11 = word := Option.some.inj hw
  have f26_6 : Sys2Proof.fld word 26 6 = 1 := Sys2Proof.Laws.Field.bits26w6_of_21w5_16w5_11w5 0x4000013 d a b word hw b_d b_a b_b rfl rfl rfl
  have f0_11 : Sys2Proof.fld word 0 11 = 19 := Sys2Proof.Laws.Field.bits0w11_of_21w5_16w5_11w5 0x4000013 d a b word hw
  have f21_5 : Sys2Proof.fld word 21 5 = d := Sys2Proof.Laws.Field.bits21w5_of_21w5_16w5_11w5 0x4000013 d a b word hw b_d b_a b_b rfl rfl rfl
  have f16_5 : Sys2Proof.fld word 16 5 = a := Sys2Proof.Laws.Field.bits16w5_of_21w5_16w5_11w5 0x4000013 d a b word hw b_a b_b rfl rfl
  have f11_5 : Sys2Proof.fld word 11 5 = b := Sys2Proof.Laws.Field.bits11w5_of_21w5_16w5_11w5 0x4000013 d a b word hw b_b rfl
  rw [major01 word f26_6]
  unfold decodeMajor01
  rw [f0_11, f21_5, f16_5, f11_5]; try rfl
theorem maxn (d : Nat) (a : Nat) (b : Nat) : Statement (.maxn d a b) := by
  intro hwf word hw
  replace hwf : (d < 32 && a < 32 && b < 32 : Bool) = true := hwf
  simp only [Bool.and_eq_true, decide_eq_true_eq] at hwf
  have b_d : d < 32 := hwf.1.1
  have b_a : a < 32 := hwf.1.2
  have b_b : b < 32 := hwf.2
  replace hw : 0x4000014 + d * 2 ^ 21 + a * 2 ^ 16 + b * 2 ^ 11 = word := Option.some.inj hw
  have f26_6 : Sys2Proof.fld word 26 6 = 1 := Sys2Proof.Laws.Field.bits26w6_of_21w5_16w5_11w5 0x4000014 d a b word hw b_d b_a b_b rfl rfl rfl
  have f0_11 : Sys2Proof.fld word 0 11 = 20 := Sys2Proof.Laws.Field.bits0w11_of_21w5_16w5_11w5 0x4000014 d a b word hw
  have f21_5 : Sys2Proof.fld word 21 5 = d := Sys2Proof.Laws.Field.bits21w5_of_21w5_16w5_11w5 0x4000014 d a b word hw b_d b_a b_b rfl rfl rfl
  have f16_5 : Sys2Proof.fld word 16 5 = a := Sys2Proof.Laws.Field.bits16w5_of_21w5_16w5_11w5 0x4000014 d a b word hw b_a b_b rfl rfl
  have f11_5 : Sys2Proof.fld word 11 5 = b := Sys2Proof.Laws.Field.bits11w5_of_21w5_16w5_11w5 0x4000014 d a b word hw b_b rfl
  rw [major01 word f26_6]
  unfold decodeMajor01
  rw [f0_11, f21_5, f16_5, f11_5]; try rfl
theorem clz (d : Nat) (a : Nat) : Statement (.clz d a) := by
  intro hwf word hw
  replace hwf : (d < 32 && a < 32 : Bool) = true := hwf
  simp only [Bool.and_eq_true, decide_eq_true_eq] at hwf
  have b_d : d < 32 := hwf.1
  have b_a : a < 32 := hwf.2
  replace hw : 0x4000015 + d * 2 ^ 21 + a * 2 ^ 16 = word := Option.some.inj hw
  have f26_6 : Sys2Proof.fld word 26 6 = 1 := Sys2Proof.Laws.Field.bits26w6_of_21w5_16w5 0x4000015 d a word hw b_d b_a rfl rfl
  have f0_11 : Sys2Proof.fld word 0 11 = 21 := Sys2Proof.Laws.Field.bits0w11_of_21w5_16w5 0x4000015 d a word hw
  have f11_5 : Sys2Proof.fld word 11 5 = 0 := Sys2Proof.Laws.Field.bits11w5_of_21w5_16w5 0x4000015 d a word hw
  have f21_5 : Sys2Proof.fld word 21 5 = d := Sys2Proof.Laws.Field.bits21w5_of_21w5_16w5 0x4000015 d a word hw b_d b_a rfl rfl
  have f16_5 : Sys2Proof.fld word 16 5 = a := Sys2Proof.Laws.Field.bits16w5_of_21w5_16w5 0x4000015 d a word hw b_a rfl
  rw [major01 word f26_6]
  unfold decodeMajor01
  rw [f0_11, f11_5, f21_5, f16_5]; try rfl
theorem ctz (d : Nat) (a : Nat) : Statement (.ctz d a) := by
  intro hwf word hw
  replace hwf : (d < 32 && a < 32 : Bool) = true := hwf
  simp only [Bool.and_eq_true, decide_eq_true_eq] at hwf
  have b_d : d < 32 := hwf.1
  have b_a : a < 32 := hwf.2
  replace hw : 0x4000016 + d * 2 ^ 21 + a * 2 ^ 16 = word := Option.some.inj hw
  have f26_6 : Sys2Proof.fld word 26 6 = 1 := Sys2Proof.Laws.Field.bits26w6_of_21w5_16w5 0x4000016 d a word hw b_d b_a rfl rfl
  have f0_11 : Sys2Proof.fld word 0 11 = 22 := Sys2Proof.Laws.Field.bits0w11_of_21w5_16w5 0x4000016 d a word hw
  have f11_5 : Sys2Proof.fld word 11 5 = 0 := Sys2Proof.Laws.Field.bits11w5_of_21w5_16w5 0x4000016 d a word hw
  have f21_5 : Sys2Proof.fld word 21 5 = d := Sys2Proof.Laws.Field.bits21w5_of_21w5_16w5 0x4000016 d a word hw b_d b_a rfl rfl
  have f16_5 : Sys2Proof.fld word 16 5 = a := Sys2Proof.Laws.Field.bits16w5_of_21w5_16w5 0x4000016 d a word hw b_a rfl
  rw [major01 word f26_6]
  unfold decodeMajor01
  rw [f0_11, f11_5, f21_5, f16_5]; try rfl
theorem popc (d : Nat) (a : Nat) : Statement (.popc d a) := by
  intro hwf word hw
  replace hwf : (d < 32 && a < 32 : Bool) = true := hwf
  simp only [Bool.and_eq_true, decide_eq_true_eq] at hwf
  have b_d : d < 32 := hwf.1
  have b_a : a < 32 := hwf.2
  replace hw : 0x4000017 + d * 2 ^ 21 + a * 2 ^ 16 = word := Option.some.inj hw
  have f26_6 : Sys2Proof.fld word 26 6 = 1 := Sys2Proof.Laws.Field.bits26w6_of_21w5_16w5 0x4000017 d a word hw b_d b_a rfl rfl
  have f0_11 : Sys2Proof.fld word 0 11 = 23 := Sys2Proof.Laws.Field.bits0w11_of_21w5_16w5 0x4000017 d a word hw
  have f11_5 : Sys2Proof.fld word 11 5 = 0 := Sys2Proof.Laws.Field.bits11w5_of_21w5_16w5 0x4000017 d a word hw
  have f21_5 : Sys2Proof.fld word 21 5 = d := Sys2Proof.Laws.Field.bits21w5_of_21w5_16w5 0x4000017 d a word hw b_d b_a rfl rfl
  have f16_5 : Sys2Proof.fld word 16 5 = a := Sys2Proof.Laws.Field.bits16w5_of_21w5_16w5 0x4000017 d a word hw b_a rfl
  rw [major01 word f26_6]
  unfold decodeMajor01
  rw [f0_11, f11_5, f21_5, f16_5]; try rfl
theorem addi (d : Nat) (a : Nat) (i : BitVec 16) : Statement (.addi d a i) := by
  intro hwf word hw
  replace hwf : (d < 32 && a < 32 : Bool) = true := hwf
  simp only [Bool.and_eq_true, decide_eq_true_eq] at hwf
  have b_d : d < 32 := hwf.1
  have b_a : a < 32 := hwf.2
  replace hw : 0x8000000 + d * 2 ^ 21 + a * 2 ^ 16 + i.toNat * 2 ^ 0 = word := Option.some.inj hw
  have f26_6 : Sys2Proof.fld word 26 6 = 2 := Sys2Proof.Laws.Field.bits26w6_of_21w5_16w5_0w16 0x8000000 d a i.toNat word hw b_d b_a i.isLt rfl rfl rfl
  have f21_5 : Sys2Proof.fld word 21 5 = d := Sys2Proof.Laws.Field.bits21w5_of_21w5_16w5_0w16 0x8000000 d a i.toNat word hw b_d b_a i.isLt rfl rfl rfl
  have f16_5 : Sys2Proof.fld word 16 5 = a := Sys2Proof.Laws.Field.bits16w5_of_21w5_16w5_0w16 0x8000000 d a i.toNat word hw b_a i.isLt rfl rfl
  have f0_16 : Sys2Proof.fld word 0 16 = i.toNat := Sys2Proof.Laws.Field.bits0w16_of_21w5_16w5_0w16 0x8000000 d a i.toNat word hw i.isLt rfl
  rw [major02 word f26_6]
  unfold decodeMajor02
  rw [f21_5, f16_5, f0_16, wordBits i]; try rfl
theorem andi (d : Nat) (a : Nat) (i : BitVec 16) : Statement (.andi d a i) := by
  intro hwf word hw
  replace hwf : (d < 32 && a < 32 : Bool) = true := hwf
  simp only [Bool.and_eq_true, decide_eq_true_eq] at hwf
  have b_d : d < 32 := hwf.1
  have b_a : a < 32 := hwf.2
  replace hw : 0xc000000 + d * 2 ^ 21 + a * 2 ^ 16 + i.toNat * 2 ^ 0 = word := Option.some.inj hw
  have f26_6 : Sys2Proof.fld word 26 6 = 3 := Sys2Proof.Laws.Field.bits26w6_of_21w5_16w5_0w16 0xc000000 d a i.toNat word hw b_d b_a i.isLt rfl rfl rfl
  have f21_5 : Sys2Proof.fld word 21 5 = d := Sys2Proof.Laws.Field.bits21w5_of_21w5_16w5_0w16 0xc000000 d a i.toNat word hw b_d b_a i.isLt rfl rfl rfl
  have f16_5 : Sys2Proof.fld word 16 5 = a := Sys2Proof.Laws.Field.bits16w5_of_21w5_16w5_0w16 0xc000000 d a i.toNat word hw b_a i.isLt rfl rfl
  have f0_16 : Sys2Proof.fld word 0 16 = i.toNat := Sys2Proof.Laws.Field.bits0w16_of_21w5_16w5_0w16 0xc000000 d a i.toNat word hw i.isLt rfl
  rw [major03 word f26_6]
  unfold decodeMajor03
  rw [f21_5, f16_5, f0_16, wordBits i]; try rfl
theorem ori (d : Nat) (a : Nat) (i : BitVec 16) : Statement (.ori d a i) := by
  intro hwf word hw
  replace hwf : (d < 32 && a < 32 : Bool) = true := hwf
  simp only [Bool.and_eq_true, decide_eq_true_eq] at hwf
  have b_d : d < 32 := hwf.1
  have b_a : a < 32 := hwf.2
  replace hw : 0x10000000 + d * 2 ^ 21 + a * 2 ^ 16 + i.toNat * 2 ^ 0 = word := Option.some.inj hw
  have f26_6 : Sys2Proof.fld word 26 6 = 4 := Sys2Proof.Laws.Field.bits26w6_of_21w5_16w5_0w16 0x10000000 d a i.toNat word hw b_d b_a i.isLt rfl rfl rfl
  have f21_5 : Sys2Proof.fld word 21 5 = d := Sys2Proof.Laws.Field.bits21w5_of_21w5_16w5_0w16 0x10000000 d a i.toNat word hw b_d b_a i.isLt rfl rfl rfl
  have f16_5 : Sys2Proof.fld word 16 5 = a := Sys2Proof.Laws.Field.bits16w5_of_21w5_16w5_0w16 0x10000000 d a i.toNat word hw b_a i.isLt rfl rfl
  have f0_16 : Sys2Proof.fld word 0 16 = i.toNat := Sys2Proof.Laws.Field.bits0w16_of_21w5_16w5_0w16 0x10000000 d a i.toNat word hw i.isLt rfl
  rw [major04 word f26_6]
  unfold decodeMajor04
  rw [f21_5, f16_5, f0_16, wordBits i]; try rfl
theorem xori (d : Nat) (a : Nat) (i : BitVec 16) : Statement (.xori d a i) := by
  intro hwf word hw
  replace hwf : (d < 32 && a < 32 : Bool) = true := hwf
  simp only [Bool.and_eq_true, decide_eq_true_eq] at hwf
  have b_d : d < 32 := hwf.1
  have b_a : a < 32 := hwf.2
  replace hw : 0x14000000 + d * 2 ^ 21 + a * 2 ^ 16 + i.toNat * 2 ^ 0 = word := Option.some.inj hw
  have f26_6 : Sys2Proof.fld word 26 6 = 5 := Sys2Proof.Laws.Field.bits26w6_of_21w5_16w5_0w16 0x14000000 d a i.toNat word hw b_d b_a i.isLt rfl rfl rfl
  have f21_5 : Sys2Proof.fld word 21 5 = d := Sys2Proof.Laws.Field.bits21w5_of_21w5_16w5_0w16 0x14000000 d a i.toNat word hw b_d b_a i.isLt rfl rfl rfl
  have f16_5 : Sys2Proof.fld word 16 5 = a := Sys2Proof.Laws.Field.bits16w5_of_21w5_16w5_0w16 0x14000000 d a i.toNat word hw b_a i.isLt rfl rfl
  have f0_16 : Sys2Proof.fld word 0 16 = i.toNat := Sys2Proof.Laws.Field.bits0w16_of_21w5_16w5_0w16 0x14000000 d a i.toNat word hw i.isLt rfl
  rw [major05 word f26_6]
  unfold decodeMajor05
  rw [f21_5, f16_5, f0_16, wordBits i]; try rfl
theorem slti (d : Nat) (a : Nat) (i : BitVec 16) : Statement (.slti d a i) := by
  intro hwf word hw
  replace hwf : (d < 32 && a < 32 : Bool) = true := hwf
  simp only [Bool.and_eq_true, decide_eq_true_eq] at hwf
  have b_d : d < 32 := hwf.1
  have b_a : a < 32 := hwf.2
  replace hw : 0x18000000 + d * 2 ^ 21 + a * 2 ^ 16 + i.toNat * 2 ^ 0 = word := Option.some.inj hw
  have f26_6 : Sys2Proof.fld word 26 6 = 6 := Sys2Proof.Laws.Field.bits26w6_of_21w5_16w5_0w16 0x18000000 d a i.toNat word hw b_d b_a i.isLt rfl rfl rfl
  have f21_5 : Sys2Proof.fld word 21 5 = d := Sys2Proof.Laws.Field.bits21w5_of_21w5_16w5_0w16 0x18000000 d a i.toNat word hw b_d b_a i.isLt rfl rfl rfl
  have f16_5 : Sys2Proof.fld word 16 5 = a := Sys2Proof.Laws.Field.bits16w5_of_21w5_16w5_0w16 0x18000000 d a i.toNat word hw b_a i.isLt rfl rfl
  have f0_16 : Sys2Proof.fld word 0 16 = i.toNat := Sys2Proof.Laws.Field.bits0w16_of_21w5_16w5_0w16 0x18000000 d a i.toNat word hw i.isLt rfl
  rw [major06 word f26_6]
  unfold decodeMajor06
  rw [f21_5, f16_5, f0_16, wordBits i]; try rfl
theorem sltni (d : Nat) (a : Nat) (i : BitVec 16) : Statement (.sltni d a i) := by
  intro hwf word hw
  replace hwf : (d < 32 && a < 32 : Bool) = true := hwf
  simp only [Bool.and_eq_true, decide_eq_true_eq] at hwf
  have b_d : d < 32 := hwf.1
  have b_a : a < 32 := hwf.2
  replace hw : 0x1c000000 + d * 2 ^ 21 + a * 2 ^ 16 + i.toNat * 2 ^ 0 = word := Option.some.inj hw
  have f26_6 : Sys2Proof.fld word 26 6 = 7 := Sys2Proof.Laws.Field.bits26w6_of_21w5_16w5_0w16 0x1c000000 d a i.toNat word hw b_d b_a i.isLt rfl rfl rfl
  have f21_5 : Sys2Proof.fld word 21 5 = d := Sys2Proof.Laws.Field.bits21w5_of_21w5_16w5_0w16 0x1c000000 d a i.toNat word hw b_d b_a i.isLt rfl rfl rfl
  have f16_5 : Sys2Proof.fld word 16 5 = a := Sys2Proof.Laws.Field.bits16w5_of_21w5_16w5_0w16 0x1c000000 d a i.toNat word hw b_a i.isLt rfl rfl
  have f0_16 : Sys2Proof.fld word 0 16 = i.toNat := Sys2Proof.Laws.Field.bits0w16_of_21w5_16w5_0w16 0x1c000000 d a i.toNat word hw i.isLt rfl
  rw [major07 word f26_6]
  unfold decodeMajor07
  rw [f21_5, f16_5, f0_16, wordBits i]; try rfl
theorem slli (d : Nat) (a : Nat) (sh : BitVec 6) : Statement (.slli d a sh) := by
  intro hwf word hw
  replace hwf : (d < 32 && a < 32 : Bool) = true := hwf
  simp only [Bool.and_eq_true, decide_eq_true_eq] at hwf
  have b_d : d < 32 := hwf.1
  have b_a : a < 32 := hwf.2
  replace hw : 0x20000000 + d * 2 ^ 21 + a * 2 ^ 16 + sh.toNat * 2 ^ 0 = word := Option.some.inj hw
  have f26_6 : Sys2Proof.fld word 26 6 = 8 := Sys2Proof.Laws.Field.bits26w6_of_21w5_16w5_0w6 0x20000000 d a sh.toNat word hw b_d b_a sh.isLt rfl rfl rfl
  have f6_2 : Sys2Proof.fld word 6 2 = 0 := Sys2Proof.Laws.Field.bits6w2_of_21w5_16w5_0w6 0x20000000 d a sh.toNat word hw sh.isLt rfl
  have f8_8 : Sys2Proof.fld word 8 8 = 0 := Sys2Proof.Laws.Field.bits8w8_of_21w5_16w5_0w6 0x20000000 d a sh.toNat word hw sh.isLt rfl
  have f21_5 : Sys2Proof.fld word 21 5 = d := Sys2Proof.Laws.Field.bits21w5_of_21w5_16w5_0w6 0x20000000 d a sh.toNat word hw b_d b_a sh.isLt rfl rfl rfl
  have f16_5 : Sys2Proof.fld word 16 5 = a := Sys2Proof.Laws.Field.bits16w5_of_21w5_16w5_0w6 0x20000000 d a sh.toNat word hw b_a sh.isLt rfl rfl
  have f0_6 : Sys2Proof.fld word 0 6 = sh.toNat := Sys2Proof.Laws.Field.bits0w6_of_21w5_16w5_0w6 0x20000000 d a sh.toNat word hw sh.isLt rfl
  rw [major08 word f26_6]
  unfold decodeMajor08
  rw [f6_2, f8_8, f21_5, f16_5, f0_6, wordBits sh]; try rfl
theorem srli (d : Nat) (a : Nat) (sh : BitVec 6) : Statement (.srli d a sh) := by
  intro hwf word hw
  replace hwf : (d < 32 && a < 32 : Bool) = true := hwf
  simp only [Bool.and_eq_true, decide_eq_true_eq] at hwf
  have b_d : d < 32 := hwf.1
  have b_a : a < 32 := hwf.2
  replace hw : 0x20000040 + d * 2 ^ 21 + a * 2 ^ 16 + sh.toNat * 2 ^ 0 = word := Option.some.inj hw
  have f26_6 : Sys2Proof.fld word 26 6 = 8 := Sys2Proof.Laws.Field.bits26w6_of_21w5_16w5_0w6 0x20000040 d a sh.toNat word hw b_d b_a sh.isLt rfl rfl rfl
  have f6_2 : Sys2Proof.fld word 6 2 = 1 := Sys2Proof.Laws.Field.bits6w2_of_21w5_16w5_0w6 0x20000040 d a sh.toNat word hw sh.isLt rfl
  have f8_8 : Sys2Proof.fld word 8 8 = 0 := Sys2Proof.Laws.Field.bits8w8_of_21w5_16w5_0w6 0x20000040 d a sh.toNat word hw sh.isLt rfl
  have f21_5 : Sys2Proof.fld word 21 5 = d := Sys2Proof.Laws.Field.bits21w5_of_21w5_16w5_0w6 0x20000040 d a sh.toNat word hw b_d b_a sh.isLt rfl rfl rfl
  have f16_5 : Sys2Proof.fld word 16 5 = a := Sys2Proof.Laws.Field.bits16w5_of_21w5_16w5_0w6 0x20000040 d a sh.toNat word hw b_a sh.isLt rfl rfl
  have f0_6 : Sys2Proof.fld word 0 6 = sh.toNat := Sys2Proof.Laws.Field.bits0w6_of_21w5_16w5_0w6 0x20000040 d a sh.toNat word hw sh.isLt rfl
  rw [major08 word f26_6]
  unfold decodeMajor08
  rw [f6_2, f8_8, f21_5, f16_5, f0_6, wordBits sh]; try rfl
theorem srai (d : Nat) (a : Nat) (sh : BitVec 6) : Statement (.srai d a sh) := by
  intro hwf word hw
  replace hwf : (d < 32 && a < 32 : Bool) = true := hwf
  simp only [Bool.and_eq_true, decide_eq_true_eq] at hwf
  have b_d : d < 32 := hwf.1
  have b_a : a < 32 := hwf.2
  replace hw : 0x20000080 + d * 2 ^ 21 + a * 2 ^ 16 + sh.toNat * 2 ^ 0 = word := Option.some.inj hw
  have f26_6 : Sys2Proof.fld word 26 6 = 8 := Sys2Proof.Laws.Field.bits26w6_of_21w5_16w5_0w6 0x20000080 d a sh.toNat word hw b_d b_a sh.isLt rfl rfl rfl
  have f6_2 : Sys2Proof.fld word 6 2 = 2 := Sys2Proof.Laws.Field.bits6w2_of_21w5_16w5_0w6 0x20000080 d a sh.toNat word hw sh.isLt rfl
  have f8_8 : Sys2Proof.fld word 8 8 = 0 := Sys2Proof.Laws.Field.bits8w8_of_21w5_16w5_0w6 0x20000080 d a sh.toNat word hw sh.isLt rfl
  have f21_5 : Sys2Proof.fld word 21 5 = d := Sys2Proof.Laws.Field.bits21w5_of_21w5_16w5_0w6 0x20000080 d a sh.toNat word hw b_d b_a sh.isLt rfl rfl rfl
  have f16_5 : Sys2Proof.fld word 16 5 = a := Sys2Proof.Laws.Field.bits16w5_of_21w5_16w5_0w6 0x20000080 d a sh.toNat word hw b_a sh.isLt rfl rfl
  have f0_6 : Sys2Proof.fld word 0 6 = sh.toNat := Sys2Proof.Laws.Field.bits0w6_of_21w5_16w5_0w6 0x20000080 d a sh.toNat word hw sh.isLt rfl
  rw [major08 word f26_6]
  unfold decodeMajor08
  rw [f6_2, f8_8, f21_5, f16_5, f0_6, wordBits sh]; try rfl
theorem lhi (d : Nat) (i : BitVec 21) : Statement (.lhi d i) := by
  intro hwf word hw
  replace hwf : (d < 32 : Bool) = true := hwf
  simp only [decide_eq_true_eq] at hwf
  have b_d : d < 32 := hwf
  replace hw : 0x24000000 + d * 2 ^ 21 + i.toNat * 2 ^ 0 = word := Option.some.inj hw
  have f26_6 : Sys2Proof.fld word 26 6 = 9 := Sys2Proof.Laws.Field.bits26w6_of_21w5_0w21 0x24000000 d i.toNat word hw b_d i.isLt rfl rfl
  have f21_5 : Sys2Proof.fld word 21 5 = d := Sys2Proof.Laws.Field.bits21w5_of_21w5_0w21 0x24000000 d i.toNat word hw b_d i.isLt rfl rfl
  have f0_21 : Sys2Proof.fld word 0 21 = i.toNat := Sys2Proof.Laws.Field.bits0w21_of_21w5_0w21 0x24000000 d i.toNat word hw i.isLt rfl
  rw [major09 word f26_6]
  unfold decodeMajor09
  rw [f21_5, f0_21, wordBits i]; try rfl
theorem apc (d : Nat) (i : BitVec 21) : Statement (.apc d i) := by
  intro hwf word hw
  replace hwf : (d < 32 : Bool) = true := hwf
  simp only [decide_eq_true_eq] at hwf
  have b_d : d < 32 := hwf
  replace hw : 0x28000000 + d * 2 ^ 21 + i.toNat * 2 ^ 0 = word := Option.some.inj hw
  have f26_6 : Sys2Proof.fld word 26 6 = 10 := Sys2Proof.Laws.Field.bits26w6_of_21w5_0w21 0x28000000 d i.toNat word hw b_d i.isLt rfl rfl
  have f21_5 : Sys2Proof.fld word 21 5 = d := Sys2Proof.Laws.Field.bits21w5_of_21w5_0w21 0x28000000 d i.toNat word hw b_d i.isLt rfl rfl
  have f0_21 : Sys2Proof.fld word 0 21 = i.toNat := Sys2Proof.Laws.Field.bits0w21_of_21w5_0w21 0x28000000 d i.toNat word hw i.isLt rfl
  rw [major0A word f26_6]
  unfold decodeMajor0A
  rw [f21_5, f0_21, wordBits i]; try rfl
theorem ld (d : Nat) (a : Nat) (w : Width) (h : Hint) (off : BitVec 10) : Statement (.ld d a w h off) := by
  intro hwf word hw
  replace hwf : (d < 32 && a < 32 : Bool) = true := hwf
  simp only [Bool.and_eq_true, decide_eq_true_eq] at hwf
  have b_d : d < 32 := hwf.1
  have b_a : a < 32 := hwf.2
  replace hw : 0x40000000 + d * 2 ^ 21 + a * 2 ^ 16 + w.code * 2 ^ 14 + h.code * 2 ^ 12 + off.toNat * 2 ^ 0 = word := Option.some.inj hw
  have f26_6 : Sys2Proof.fld word 26 6 = 16 := Sys2Proof.Laws.Field.bits26w6_of_21w5_16w5_14w2_12w2_0w10 0x40000000 d a w.code h.code off.toNat word hw b_d b_a (widthCode_lt w) (hintCode_lt h) off.isLt rfl rfl rfl rfl rfl
  have f10_2 : Sys2Proof.fld word 10 2 = 0 := Sys2Proof.Laws.Field.bits10w2_of_21w5_16w5_14w2_12w2_0w10 0x40000000 d a w.code h.code off.toNat word hw off.isLt rfl
  have f21_5 : Sys2Proof.fld word 21 5 = d := Sys2Proof.Laws.Field.bits21w5_of_21w5_16w5_14w2_12w2_0w10 0x40000000 d a w.code h.code off.toNat word hw b_d b_a (widthCode_lt w) (hintCode_lt h) off.isLt rfl rfl rfl rfl rfl
  have f16_5 : Sys2Proof.fld word 16 5 = a := Sys2Proof.Laws.Field.bits16w5_of_21w5_16w5_14w2_12w2_0w10 0x40000000 d a w.code h.code off.toNat word hw b_a (widthCode_lt w) (hintCode_lt h) off.isLt rfl rfl rfl rfl
  have f14_2 : Sys2Proof.fld word 14 2 = w.code := Sys2Proof.Laws.Field.bits14w2_of_21w5_16w5_14w2_12w2_0w10 0x40000000 d a w.code h.code off.toNat word hw (widthCode_lt w) (hintCode_lt h) off.isLt rfl rfl rfl
  have f12_2 : Sys2Proof.fld word 12 2 = h.code := Sys2Proof.Laws.Field.bits12w2_of_21w5_16w5_14w2_12w2_0w10 0x40000000 d a w.code h.code off.toNat word hw (hintCode_lt h) off.isLt rfl rfl
  have f0_10 : Sys2Proof.fld word 0 10 = off.toNat := Sys2Proof.Laws.Field.bits0w10_of_21w5_16w5_14w2_12w2_0w10 0x40000000 d a w.code h.code off.toNat word hw off.isLt rfl
  rw [major10 word f26_6]
  unfold decodeMajor10
  rw [f10_2, f21_5, f16_5, f14_2, f12_2, f0_10, widthCode w, hintCode h, wordBits off]; try rfl
theorem ldz (d : Nat) (a : Nat) (w : Width) (h : Hint) (off : BitVec 10) : Statement (.ldz d a w h off) := by
  intro hwf word hw
  replace hwf : (d < 32 && a < 32 : Bool) = true := hwf
  simp only [Bool.and_eq_true, decide_eq_true_eq] at hwf
  have b_d : d < 32 := hwf.1
  have b_a : a < 32 := hwf.2
  replace hw : 0x40000400 + d * 2 ^ 21 + a * 2 ^ 16 + w.code * 2 ^ 14 + h.code * 2 ^ 12 + off.toNat * 2 ^ 0 = word := Option.some.inj hw
  have f26_6 : Sys2Proof.fld word 26 6 = 16 := Sys2Proof.Laws.Field.bits26w6_of_21w5_16w5_14w2_12w2_0w10 0x40000400 d a w.code h.code off.toNat word hw b_d b_a (widthCode_lt w) (hintCode_lt h) off.isLt rfl rfl rfl rfl rfl
  have f10_2 : Sys2Proof.fld word 10 2 = 1 := Sys2Proof.Laws.Field.bits10w2_of_21w5_16w5_14w2_12w2_0w10 0x40000400 d a w.code h.code off.toNat word hw off.isLt rfl
  have f21_5 : Sys2Proof.fld word 21 5 = d := Sys2Proof.Laws.Field.bits21w5_of_21w5_16w5_14w2_12w2_0w10 0x40000400 d a w.code h.code off.toNat word hw b_d b_a (widthCode_lt w) (hintCode_lt h) off.isLt rfl rfl rfl rfl rfl
  have f16_5 : Sys2Proof.fld word 16 5 = a := Sys2Proof.Laws.Field.bits16w5_of_21w5_16w5_14w2_12w2_0w10 0x40000400 d a w.code h.code off.toNat word hw b_a (widthCode_lt w) (hintCode_lt h) off.isLt rfl rfl rfl rfl
  have f14_2 : Sys2Proof.fld word 14 2 = w.code := Sys2Proof.Laws.Field.bits14w2_of_21w5_16w5_14w2_12w2_0w10 0x40000400 d a w.code h.code off.toNat word hw (widthCode_lt w) (hintCode_lt h) off.isLt rfl rfl rfl
  have f12_2 : Sys2Proof.fld word 12 2 = h.code := Sys2Proof.Laws.Field.bits12w2_of_21w5_16w5_14w2_12w2_0w10 0x40000400 d a w.code h.code off.toNat word hw (hintCode_lt h) off.isLt rfl rfl
  have f0_10 : Sys2Proof.fld word 0 10 = off.toNat := Sys2Proof.Laws.Field.bits0w10_of_21w5_16w5_14w2_12w2_0w10 0x40000400 d a w.code h.code off.toNat word hw off.isLt rfl
  rw [major10 word f26_6]
  unfold decodeMajor10
  rw [f10_2, f21_5, f16_5, f14_2, f12_2, f0_10, widthCode w, hintCode h, wordBits off]; try rfl
theorem fld (d : Nat) (a : Nat) (w : Width) (h : Hint) (off : BitVec 10) : Statement (.fld d a w h off) := by
  intro hwf word hw
  replace hwf : (d < 32 && a < 32 : Bool) = true := hwf
  simp only [Bool.and_eq_true, decide_eq_true_eq] at hwf
  have b_d : d < 32 := hwf.1
  have b_a : a < 32 := hwf.2
  replace hw : 0x40000800 + d * 2 ^ 21 + a * 2 ^ 16 + w.code * 2 ^ 14 + h.code * 2 ^ 12 + off.toNat * 2 ^ 0 = word := Option.some.inj hw
  have f26_6 : Sys2Proof.fld word 26 6 = 16 := Sys2Proof.Laws.Field.bits26w6_of_21w5_16w5_14w2_12w2_0w10 0x40000800 d a w.code h.code off.toNat word hw b_d b_a (widthCode_lt w) (hintCode_lt h) off.isLt rfl rfl rfl rfl rfl
  have f10_2 : Sys2Proof.fld word 10 2 = 2 := Sys2Proof.Laws.Field.bits10w2_of_21w5_16w5_14w2_12w2_0w10 0x40000800 d a w.code h.code off.toNat word hw off.isLt rfl
  have f21_5 : Sys2Proof.fld word 21 5 = d := Sys2Proof.Laws.Field.bits21w5_of_21w5_16w5_14w2_12w2_0w10 0x40000800 d a w.code h.code off.toNat word hw b_d b_a (widthCode_lt w) (hintCode_lt h) off.isLt rfl rfl rfl rfl rfl
  have f16_5 : Sys2Proof.fld word 16 5 = a := Sys2Proof.Laws.Field.bits16w5_of_21w5_16w5_14w2_12w2_0w10 0x40000800 d a w.code h.code off.toNat word hw b_a (widthCode_lt w) (hintCode_lt h) off.isLt rfl rfl rfl rfl
  have f14_2 : Sys2Proof.fld word 14 2 = w.code := Sys2Proof.Laws.Field.bits14w2_of_21w5_16w5_14w2_12w2_0w10 0x40000800 d a w.code h.code off.toNat word hw (widthCode_lt w) (hintCode_lt h) off.isLt rfl rfl rfl
  have f12_2 : Sys2Proof.fld word 12 2 = h.code := Sys2Proof.Laws.Field.bits12w2_of_21w5_16w5_14w2_12w2_0w10 0x40000800 d a w.code h.code off.toNat word hw (hintCode_lt h) off.isLt rfl rfl
  have f0_10 : Sys2Proof.fld word 0 10 = off.toNat := Sys2Proof.Laws.Field.bits0w10_of_21w5_16w5_14w2_12w2_0w10 0x40000800 d a w.code h.code off.toNat word hw off.isLt rfl
  rw [major10 word f26_6]
  unfold decodeMajor10
  rw [f10_2, f21_5, f16_5, f14_2, f12_2, f0_10, widthCode w, hintCode h, wordBits off]; try rfl
theorem st (rs : Nat) (a : Nat) (w : Width) (h : Hint) (off : BitVec 10) : Statement (.st rs a w h off) := by
  intro hwf word hw
  replace hwf : (rs < 32 && a < 32 : Bool) = true := hwf
  simp only [Bool.and_eq_true, decide_eq_true_eq] at hwf
  have b_rs : rs < 32 := hwf.1
  have b_a : a < 32 := hwf.2
  replace hw : 0x44000000 + rs * 2 ^ 21 + a * 2 ^ 16 + w.code * 2 ^ 14 + h.code * 2 ^ 12 + off.toNat * 2 ^ 0 = word := Option.some.inj hw
  have f26_6 : Sys2Proof.fld word 26 6 = 17 := Sys2Proof.Laws.Field.bits26w6_of_21w5_16w5_14w2_12w2_0w10 0x44000000 rs a w.code h.code off.toNat word hw b_rs b_a (widthCode_lt w) (hintCode_lt h) off.isLt rfl rfl rfl rfl rfl
  have f10_2 : Sys2Proof.fld word 10 2 = 0 := Sys2Proof.Laws.Field.bits10w2_of_21w5_16w5_14w2_12w2_0w10 0x44000000 rs a w.code h.code off.toNat word hw off.isLt rfl
  have f21_5 : Sys2Proof.fld word 21 5 = rs := Sys2Proof.Laws.Field.bits21w5_of_21w5_16w5_14w2_12w2_0w10 0x44000000 rs a w.code h.code off.toNat word hw b_rs b_a (widthCode_lt w) (hintCode_lt h) off.isLt rfl rfl rfl rfl rfl
  have f16_5 : Sys2Proof.fld word 16 5 = a := Sys2Proof.Laws.Field.bits16w5_of_21w5_16w5_14w2_12w2_0w10 0x44000000 rs a w.code h.code off.toNat word hw b_a (widthCode_lt w) (hintCode_lt h) off.isLt rfl rfl rfl rfl
  have f14_2 : Sys2Proof.fld word 14 2 = w.code := Sys2Proof.Laws.Field.bits14w2_of_21w5_16w5_14w2_12w2_0w10 0x44000000 rs a w.code h.code off.toNat word hw (widthCode_lt w) (hintCode_lt h) off.isLt rfl rfl rfl
  have f12_2 : Sys2Proof.fld word 12 2 = h.code := Sys2Proof.Laws.Field.bits12w2_of_21w5_16w5_14w2_12w2_0w10 0x44000000 rs a w.code h.code off.toNat word hw (hintCode_lt h) off.isLt rfl rfl
  have f0_10 : Sys2Proof.fld word 0 10 = off.toNat := Sys2Proof.Laws.Field.bits0w10_of_21w5_16w5_14w2_12w2_0w10 0x44000000 rs a w.code h.code off.toNat word hw off.isLt rfl
  rw [major11 word f26_6]
  unfold decodeMajor11
  rw [f10_2, f21_5, f16_5, f14_2, f12_2, f0_10, widthCode w, hintCode h, wordBits off]; try rfl
theorem fst (rs : Nat) (a : Nat) (w : Width) (h : Hint) (off : BitVec 10) : Statement (.fst rs a w h off) := by
  intro hwf word hw
  replace hwf : (rs < 32 && a < 32 : Bool) = true := hwf
  simp only [Bool.and_eq_true, decide_eq_true_eq] at hwf
  have b_rs : rs < 32 := hwf.1
  have b_a : a < 32 := hwf.2
  replace hw : 0x44000400 + rs * 2 ^ 21 + a * 2 ^ 16 + w.code * 2 ^ 14 + h.code * 2 ^ 12 + off.toNat * 2 ^ 0 = word := Option.some.inj hw
  have f26_6 : Sys2Proof.fld word 26 6 = 17 := Sys2Proof.Laws.Field.bits26w6_of_21w5_16w5_14w2_12w2_0w10 0x44000400 rs a w.code h.code off.toNat word hw b_rs b_a (widthCode_lt w) (hintCode_lt h) off.isLt rfl rfl rfl rfl rfl
  have f10_2 : Sys2Proof.fld word 10 2 = 1 := Sys2Proof.Laws.Field.bits10w2_of_21w5_16w5_14w2_12w2_0w10 0x44000400 rs a w.code h.code off.toNat word hw off.isLt rfl
  have f21_5 : Sys2Proof.fld word 21 5 = rs := Sys2Proof.Laws.Field.bits21w5_of_21w5_16w5_14w2_12w2_0w10 0x44000400 rs a w.code h.code off.toNat word hw b_rs b_a (widthCode_lt w) (hintCode_lt h) off.isLt rfl rfl rfl rfl rfl
  have f16_5 : Sys2Proof.fld word 16 5 = a := Sys2Proof.Laws.Field.bits16w5_of_21w5_16w5_14w2_12w2_0w10 0x44000400 rs a w.code h.code off.toNat word hw b_a (widthCode_lt w) (hintCode_lt h) off.isLt rfl rfl rfl rfl
  have f14_2 : Sys2Proof.fld word 14 2 = w.code := Sys2Proof.Laws.Field.bits14w2_of_21w5_16w5_14w2_12w2_0w10 0x44000400 rs a w.code h.code off.toNat word hw (widthCode_lt w) (hintCode_lt h) off.isLt rfl rfl rfl
  have f12_2 : Sys2Proof.fld word 12 2 = h.code := Sys2Proof.Laws.Field.bits12w2_of_21w5_16w5_14w2_12w2_0w10 0x44000400 rs a w.code h.code off.toNat word hw (hintCode_lt h) off.isLt rfl rfl
  have f0_10 : Sys2Proof.fld word 0 10 = off.toNat := Sys2Proof.Laws.Field.bits0w10_of_21w5_16w5_14w2_12w2_0w10 0x44000400 rs a w.code h.code off.toNat word hw off.isLt rfl
  rw [major11 word f26_6]
  unfold decodeMajor11
  rw [f10_2, f21_5, f16_5, f14_2, f12_2, f0_10, widthCode w, hintCode h, wordBits off]; try rfl
theorem amoadd (d : Nat) (a : Nat) (b : Nat) (w : Bool) (h : Hint) : Statement (.amoadd d a b w h) := by
  intro hwf word hw
  replace hwf : (d < 32 && a < 32 && b < 32 : Bool) = true := hwf
  simp only [Bool.and_eq_true, decide_eq_true_eq] at hwf
  have b_d : d < 32 := hwf.1.1
  have b_a : a < 32 := hwf.1.2
  have b_b : b < 32 := hwf.2
  replace hw : 0x48000000 + d * 2 ^ 21 + a * 2 ^ 16 + b * 2 ^ 11 + w.toNat * 2 ^ 10 + h.code * 2 ^ 8 = word := Option.some.inj hw
  have f26_6 : Sys2Proof.fld word 26 6 = 18 := Sys2Proof.Laws.Field.bits26w6_of_21w5_16w5_11w5_10w1_8w2 0x48000000 d a b w.toNat h.code word hw b_d b_a b_b (flagBit_lt w) (hintCode_lt h) rfl rfl rfl rfl rfl
  have f0_4 : Sys2Proof.fld word 0 4 = 0 := Sys2Proof.Laws.Field.bits0w4_of_21w5_16w5_11w5_10w1_8w2 0x48000000 d a b w.toNat h.code word hw
  have f4_4 : Sys2Proof.fld word 4 4 = 0 := Sys2Proof.Laws.Field.bits4w4_of_21w5_16w5_11w5_10w1_8w2 0x48000000 d a b w.toNat h.code word hw
  have f21_5 : Sys2Proof.fld word 21 5 = d := Sys2Proof.Laws.Field.bits21w5_of_21w5_16w5_11w5_10w1_8w2 0x48000000 d a b w.toNat h.code word hw b_d b_a b_b (flagBit_lt w) (hintCode_lt h) rfl rfl rfl rfl rfl
  have f16_5 : Sys2Proof.fld word 16 5 = a := Sys2Proof.Laws.Field.bits16w5_of_21w5_16w5_11w5_10w1_8w2 0x48000000 d a b w.toNat h.code word hw b_a b_b (flagBit_lt w) (hintCode_lt h) rfl rfl rfl rfl
  have f11_5 : Sys2Proof.fld word 11 5 = b := Sys2Proof.Laws.Field.bits11w5_of_21w5_16w5_11w5_10w1_8w2 0x48000000 d a b w.toNat h.code word hw b_b (flagBit_lt w) (hintCode_lt h) rfl rfl rfl
  have f10_1 : Sys2Proof.fld word 10 1 = w.toNat := Sys2Proof.Laws.Field.bits10w1_of_21w5_16w5_11w5_10w1_8w2 0x48000000 d a b w.toNat h.code word hw (flagBit_lt w) (hintCode_lt h) rfl rfl
  have f8_2 : Sys2Proof.fld word 8 2 = h.code := Sys2Proof.Laws.Field.bits8w2_of_21w5_16w5_11w5_10w1_8w2 0x48000000 d a b w.toNat h.code word hw (hintCode_lt h) rfl
  rw [major12 word f26_6]
  unfold decodeMajor12
  rw [f0_4, f4_4, f21_5, f16_5, f11_5, f10_1, f8_2, flagBit w, hintCode h]; try rfl
theorem amoswap (d : Nat) (a : Nat) (b : Nat) (w : Bool) (h : Hint) : Statement (.amoswap d a b w h) := by
  intro hwf word hw
  replace hwf : (d < 32 && a < 32 && b < 32 : Bool) = true := hwf
  simp only [Bool.and_eq_true, decide_eq_true_eq] at hwf
  have b_d : d < 32 := hwf.1.1
  have b_a : a < 32 := hwf.1.2
  have b_b : b < 32 := hwf.2
  replace hw : 0x48000001 + d * 2 ^ 21 + a * 2 ^ 16 + b * 2 ^ 11 + w.toNat * 2 ^ 10 + h.code * 2 ^ 8 = word := Option.some.inj hw
  have f26_6 : Sys2Proof.fld word 26 6 = 18 := Sys2Proof.Laws.Field.bits26w6_of_21w5_16w5_11w5_10w1_8w2 0x48000001 d a b w.toNat h.code word hw b_d b_a b_b (flagBit_lt w) (hintCode_lt h) rfl rfl rfl rfl rfl
  have f0_4 : Sys2Proof.fld word 0 4 = 1 := Sys2Proof.Laws.Field.bits0w4_of_21w5_16w5_11w5_10w1_8w2 0x48000001 d a b w.toNat h.code word hw
  have f4_4 : Sys2Proof.fld word 4 4 = 0 := Sys2Proof.Laws.Field.bits4w4_of_21w5_16w5_11w5_10w1_8w2 0x48000001 d a b w.toNat h.code word hw
  have f21_5 : Sys2Proof.fld word 21 5 = d := Sys2Proof.Laws.Field.bits21w5_of_21w5_16w5_11w5_10w1_8w2 0x48000001 d a b w.toNat h.code word hw b_d b_a b_b (flagBit_lt w) (hintCode_lt h) rfl rfl rfl rfl rfl
  have f16_5 : Sys2Proof.fld word 16 5 = a := Sys2Proof.Laws.Field.bits16w5_of_21w5_16w5_11w5_10w1_8w2 0x48000001 d a b w.toNat h.code word hw b_a b_b (flagBit_lt w) (hintCode_lt h) rfl rfl rfl rfl
  have f11_5 : Sys2Proof.fld word 11 5 = b := Sys2Proof.Laws.Field.bits11w5_of_21w5_16w5_11w5_10w1_8w2 0x48000001 d a b w.toNat h.code word hw b_b (flagBit_lt w) (hintCode_lt h) rfl rfl rfl
  have f10_1 : Sys2Proof.fld word 10 1 = w.toNat := Sys2Proof.Laws.Field.bits10w1_of_21w5_16w5_11w5_10w1_8w2 0x48000001 d a b w.toNat h.code word hw (flagBit_lt w) (hintCode_lt h) rfl rfl
  have f8_2 : Sys2Proof.fld word 8 2 = h.code := Sys2Proof.Laws.Field.bits8w2_of_21w5_16w5_11w5_10w1_8w2 0x48000001 d a b w.toNat h.code word hw (hintCode_lt h) rfl
  rw [major12 word f26_6]
  unfold decodeMajor12
  rw [f0_4, f4_4, f21_5, f16_5, f11_5, f10_1, f8_2, flagBit w, hintCode h]; try rfl
theorem amocas (d : Nat) (a : Nat) (b : Nat) (w : Bool) (h : Hint) : Statement (.amocas d a b w h) := by
  intro hwf word hw
  replace hwf : (d < 32 && a < 32 && b < 32 : Bool) = true := hwf
  simp only [Bool.and_eq_true, decide_eq_true_eq] at hwf
  have b_d : d < 32 := hwf.1.1
  have b_a : a < 32 := hwf.1.2
  have b_b : b < 32 := hwf.2
  replace hw : 0x48000002 + d * 2 ^ 21 + a * 2 ^ 16 + b * 2 ^ 11 + w.toNat * 2 ^ 10 + h.code * 2 ^ 8 = word := Option.some.inj hw
  have f26_6 : Sys2Proof.fld word 26 6 = 18 := Sys2Proof.Laws.Field.bits26w6_of_21w5_16w5_11w5_10w1_8w2 0x48000002 d a b w.toNat h.code word hw b_d b_a b_b (flagBit_lt w) (hintCode_lt h) rfl rfl rfl rfl rfl
  have f0_4 : Sys2Proof.fld word 0 4 = 2 := Sys2Proof.Laws.Field.bits0w4_of_21w5_16w5_11w5_10w1_8w2 0x48000002 d a b w.toNat h.code word hw
  have f4_4 : Sys2Proof.fld word 4 4 = 0 := Sys2Proof.Laws.Field.bits4w4_of_21w5_16w5_11w5_10w1_8w2 0x48000002 d a b w.toNat h.code word hw
  have f21_5 : Sys2Proof.fld word 21 5 = d := Sys2Proof.Laws.Field.bits21w5_of_21w5_16w5_11w5_10w1_8w2 0x48000002 d a b w.toNat h.code word hw b_d b_a b_b (flagBit_lt w) (hintCode_lt h) rfl rfl rfl rfl rfl
  have f16_5 : Sys2Proof.fld word 16 5 = a := Sys2Proof.Laws.Field.bits16w5_of_21w5_16w5_11w5_10w1_8w2 0x48000002 d a b w.toNat h.code word hw b_a b_b (flagBit_lt w) (hintCode_lt h) rfl rfl rfl rfl
  have f11_5 : Sys2Proof.fld word 11 5 = b := Sys2Proof.Laws.Field.bits11w5_of_21w5_16w5_11w5_10w1_8w2 0x48000002 d a b w.toNat h.code word hw b_b (flagBit_lt w) (hintCode_lt h) rfl rfl rfl
  have f10_1 : Sys2Proof.fld word 10 1 = w.toNat := Sys2Proof.Laws.Field.bits10w1_of_21w5_16w5_11w5_10w1_8w2 0x48000002 d a b w.toNat h.code word hw (flagBit_lt w) (hintCode_lt h) rfl rfl
  have f8_2 : Sys2Proof.fld word 8 2 = h.code := Sys2Proof.Laws.Field.bits8w2_of_21w5_16w5_11w5_10w1_8w2 0x48000002 d a b w.toNat h.code word hw (hintCode_lt h) rfl
  rw [major12 word f26_6]
  unfold decodeMajor12
  rw [f0_4, f4_4, f21_5, f16_5, f11_5, f10_1, f8_2, flagBit w, hintCode h]; try rfl
theorem amomin (d : Nat) (a : Nat) (b : Nat) (w : Bool) (h : Hint) : Statement (.amomin d a b w h) := by
  intro hwf word hw
  replace hwf : (d < 32 && a < 32 && b < 32 : Bool) = true := hwf
  simp only [Bool.and_eq_true, decide_eq_true_eq] at hwf
  have b_d : d < 32 := hwf.1.1
  have b_a : a < 32 := hwf.1.2
  have b_b : b < 32 := hwf.2
  replace hw : 0x48000003 + d * 2 ^ 21 + a * 2 ^ 16 + b * 2 ^ 11 + w.toNat * 2 ^ 10 + h.code * 2 ^ 8 = word := Option.some.inj hw
  have f26_6 : Sys2Proof.fld word 26 6 = 18 := Sys2Proof.Laws.Field.bits26w6_of_21w5_16w5_11w5_10w1_8w2 0x48000003 d a b w.toNat h.code word hw b_d b_a b_b (flagBit_lt w) (hintCode_lt h) rfl rfl rfl rfl rfl
  have f0_4 : Sys2Proof.fld word 0 4 = 3 := Sys2Proof.Laws.Field.bits0w4_of_21w5_16w5_11w5_10w1_8w2 0x48000003 d a b w.toNat h.code word hw
  have f4_4 : Sys2Proof.fld word 4 4 = 0 := Sys2Proof.Laws.Field.bits4w4_of_21w5_16w5_11w5_10w1_8w2 0x48000003 d a b w.toNat h.code word hw
  have f21_5 : Sys2Proof.fld word 21 5 = d := Sys2Proof.Laws.Field.bits21w5_of_21w5_16w5_11w5_10w1_8w2 0x48000003 d a b w.toNat h.code word hw b_d b_a b_b (flagBit_lt w) (hintCode_lt h) rfl rfl rfl rfl rfl
  have f16_5 : Sys2Proof.fld word 16 5 = a := Sys2Proof.Laws.Field.bits16w5_of_21w5_16w5_11w5_10w1_8w2 0x48000003 d a b w.toNat h.code word hw b_a b_b (flagBit_lt w) (hintCode_lt h) rfl rfl rfl rfl
  have f11_5 : Sys2Proof.fld word 11 5 = b := Sys2Proof.Laws.Field.bits11w5_of_21w5_16w5_11w5_10w1_8w2 0x48000003 d a b w.toNat h.code word hw b_b (flagBit_lt w) (hintCode_lt h) rfl rfl rfl
  have f10_1 : Sys2Proof.fld word 10 1 = w.toNat := Sys2Proof.Laws.Field.bits10w1_of_21w5_16w5_11w5_10w1_8w2 0x48000003 d a b w.toNat h.code word hw (flagBit_lt w) (hintCode_lt h) rfl rfl
  have f8_2 : Sys2Proof.fld word 8 2 = h.code := Sys2Proof.Laws.Field.bits8w2_of_21w5_16w5_11w5_10w1_8w2 0x48000003 d a b w.toNat h.code word hw (hintCode_lt h) rfl
  rw [major12 word f26_6]
  unfold decodeMajor12
  rw [f0_4, f4_4, f21_5, f16_5, f11_5, f10_1, f8_2, flagBit w, hintCode h]; try rfl
theorem amominn (d : Nat) (a : Nat) (b : Nat) (w : Bool) (h : Hint) : Statement (.amominn d a b w h) := by
  intro hwf word hw
  replace hwf : (d < 32 && a < 32 && b < 32 : Bool) = true := hwf
  simp only [Bool.and_eq_true, decide_eq_true_eq] at hwf
  have b_d : d < 32 := hwf.1.1
  have b_a : a < 32 := hwf.1.2
  have b_b : b < 32 := hwf.2
  replace hw : 0x48000004 + d * 2 ^ 21 + a * 2 ^ 16 + b * 2 ^ 11 + w.toNat * 2 ^ 10 + h.code * 2 ^ 8 = word := Option.some.inj hw
  have f26_6 : Sys2Proof.fld word 26 6 = 18 := Sys2Proof.Laws.Field.bits26w6_of_21w5_16w5_11w5_10w1_8w2 0x48000004 d a b w.toNat h.code word hw b_d b_a b_b (flagBit_lt w) (hintCode_lt h) rfl rfl rfl rfl rfl
  have f0_4 : Sys2Proof.fld word 0 4 = 4 := Sys2Proof.Laws.Field.bits0w4_of_21w5_16w5_11w5_10w1_8w2 0x48000004 d a b w.toNat h.code word hw
  have f4_4 : Sys2Proof.fld word 4 4 = 0 := Sys2Proof.Laws.Field.bits4w4_of_21w5_16w5_11w5_10w1_8w2 0x48000004 d a b w.toNat h.code word hw
  have f21_5 : Sys2Proof.fld word 21 5 = d := Sys2Proof.Laws.Field.bits21w5_of_21w5_16w5_11w5_10w1_8w2 0x48000004 d a b w.toNat h.code word hw b_d b_a b_b (flagBit_lt w) (hintCode_lt h) rfl rfl rfl rfl rfl
  have f16_5 : Sys2Proof.fld word 16 5 = a := Sys2Proof.Laws.Field.bits16w5_of_21w5_16w5_11w5_10w1_8w2 0x48000004 d a b w.toNat h.code word hw b_a b_b (flagBit_lt w) (hintCode_lt h) rfl rfl rfl rfl
  have f11_5 : Sys2Proof.fld word 11 5 = b := Sys2Proof.Laws.Field.bits11w5_of_21w5_16w5_11w5_10w1_8w2 0x48000004 d a b w.toNat h.code word hw b_b (flagBit_lt w) (hintCode_lt h) rfl rfl rfl
  have f10_1 : Sys2Proof.fld word 10 1 = w.toNat := Sys2Proof.Laws.Field.bits10w1_of_21w5_16w5_11w5_10w1_8w2 0x48000004 d a b w.toNat h.code word hw (flagBit_lt w) (hintCode_lt h) rfl rfl
  have f8_2 : Sys2Proof.fld word 8 2 = h.code := Sys2Proof.Laws.Field.bits8w2_of_21w5_16w5_11w5_10w1_8w2 0x48000004 d a b w.toNat h.code word hw (hintCode_lt h) rfl
  rw [major12 word f26_6]
  unfold decodeMajor12
  rw [f0_4, f4_4, f21_5, f16_5, f11_5, f10_1, f8_2, flagBit w, hintCode h]; try rfl
theorem amomax (d : Nat) (a : Nat) (b : Nat) (w : Bool) (h : Hint) : Statement (.amomax d a b w h) := by
  intro hwf word hw
  replace hwf : (d < 32 && a < 32 && b < 32 : Bool) = true := hwf
  simp only [Bool.and_eq_true, decide_eq_true_eq] at hwf
  have b_d : d < 32 := hwf.1.1
  have b_a : a < 32 := hwf.1.2
  have b_b : b < 32 := hwf.2
  replace hw : 0x48000005 + d * 2 ^ 21 + a * 2 ^ 16 + b * 2 ^ 11 + w.toNat * 2 ^ 10 + h.code * 2 ^ 8 = word := Option.some.inj hw
  have f26_6 : Sys2Proof.fld word 26 6 = 18 := Sys2Proof.Laws.Field.bits26w6_of_21w5_16w5_11w5_10w1_8w2 0x48000005 d a b w.toNat h.code word hw b_d b_a b_b (flagBit_lt w) (hintCode_lt h) rfl rfl rfl rfl rfl
  have f0_4 : Sys2Proof.fld word 0 4 = 5 := Sys2Proof.Laws.Field.bits0w4_of_21w5_16w5_11w5_10w1_8w2 0x48000005 d a b w.toNat h.code word hw
  have f4_4 : Sys2Proof.fld word 4 4 = 0 := Sys2Proof.Laws.Field.bits4w4_of_21w5_16w5_11w5_10w1_8w2 0x48000005 d a b w.toNat h.code word hw
  have f21_5 : Sys2Proof.fld word 21 5 = d := Sys2Proof.Laws.Field.bits21w5_of_21w5_16w5_11w5_10w1_8w2 0x48000005 d a b w.toNat h.code word hw b_d b_a b_b (flagBit_lt w) (hintCode_lt h) rfl rfl rfl rfl rfl
  have f16_5 : Sys2Proof.fld word 16 5 = a := Sys2Proof.Laws.Field.bits16w5_of_21w5_16w5_11w5_10w1_8w2 0x48000005 d a b w.toNat h.code word hw b_a b_b (flagBit_lt w) (hintCode_lt h) rfl rfl rfl rfl
  have f11_5 : Sys2Proof.fld word 11 5 = b := Sys2Proof.Laws.Field.bits11w5_of_21w5_16w5_11w5_10w1_8w2 0x48000005 d a b w.toNat h.code word hw b_b (flagBit_lt w) (hintCode_lt h) rfl rfl rfl
  have f10_1 : Sys2Proof.fld word 10 1 = w.toNat := Sys2Proof.Laws.Field.bits10w1_of_21w5_16w5_11w5_10w1_8w2 0x48000005 d a b w.toNat h.code word hw (flagBit_lt w) (hintCode_lt h) rfl rfl
  have f8_2 : Sys2Proof.fld word 8 2 = h.code := Sys2Proof.Laws.Field.bits8w2_of_21w5_16w5_11w5_10w1_8w2 0x48000005 d a b w.toNat h.code word hw (hintCode_lt h) rfl
  rw [major12 word f26_6]
  unfold decodeMajor12
  rw [f0_4, f4_4, f21_5, f16_5, f11_5, f10_1, f8_2, flagBit w, hintCode h]; try rfl
theorem amomaxn (d : Nat) (a : Nat) (b : Nat) (w : Bool) (h : Hint) : Statement (.amomaxn d a b w h) := by
  intro hwf word hw
  replace hwf : (d < 32 && a < 32 && b < 32 : Bool) = true := hwf
  simp only [Bool.and_eq_true, decide_eq_true_eq] at hwf
  have b_d : d < 32 := hwf.1.1
  have b_a : a < 32 := hwf.1.2
  have b_b : b < 32 := hwf.2
  replace hw : 0x48000006 + d * 2 ^ 21 + a * 2 ^ 16 + b * 2 ^ 11 + w.toNat * 2 ^ 10 + h.code * 2 ^ 8 = word := Option.some.inj hw
  have f26_6 : Sys2Proof.fld word 26 6 = 18 := Sys2Proof.Laws.Field.bits26w6_of_21w5_16w5_11w5_10w1_8w2 0x48000006 d a b w.toNat h.code word hw b_d b_a b_b (flagBit_lt w) (hintCode_lt h) rfl rfl rfl rfl rfl
  have f0_4 : Sys2Proof.fld word 0 4 = 6 := Sys2Proof.Laws.Field.bits0w4_of_21w5_16w5_11w5_10w1_8w2 0x48000006 d a b w.toNat h.code word hw
  have f4_4 : Sys2Proof.fld word 4 4 = 0 := Sys2Proof.Laws.Field.bits4w4_of_21w5_16w5_11w5_10w1_8w2 0x48000006 d a b w.toNat h.code word hw
  have f21_5 : Sys2Proof.fld word 21 5 = d := Sys2Proof.Laws.Field.bits21w5_of_21w5_16w5_11w5_10w1_8w2 0x48000006 d a b w.toNat h.code word hw b_d b_a b_b (flagBit_lt w) (hintCode_lt h) rfl rfl rfl rfl rfl
  have f16_5 : Sys2Proof.fld word 16 5 = a := Sys2Proof.Laws.Field.bits16w5_of_21w5_16w5_11w5_10w1_8w2 0x48000006 d a b w.toNat h.code word hw b_a b_b (flagBit_lt w) (hintCode_lt h) rfl rfl rfl rfl
  have f11_5 : Sys2Proof.fld word 11 5 = b := Sys2Proof.Laws.Field.bits11w5_of_21w5_16w5_11w5_10w1_8w2 0x48000006 d a b w.toNat h.code word hw b_b (flagBit_lt w) (hintCode_lt h) rfl rfl rfl
  have f10_1 : Sys2Proof.fld word 10 1 = w.toNat := Sys2Proof.Laws.Field.bits10w1_of_21w5_16w5_11w5_10w1_8w2 0x48000006 d a b w.toNat h.code word hw (flagBit_lt w) (hintCode_lt h) rfl rfl
  have f8_2 : Sys2Proof.fld word 8 2 = h.code := Sys2Proof.Laws.Field.bits8w2_of_21w5_16w5_11w5_10w1_8w2 0x48000006 d a b w.toNat h.code word hw (hintCode_lt h) rfl
  rw [major12 word f26_6]
  unfold decodeMajor12
  rw [f0_4, f4_4, f21_5, f16_5, f11_5, f10_1, f8_2, flagBit w, hintCode h]; try rfl
theorem amoand (d : Nat) (a : Nat) (b : Nat) (w : Bool) (h : Hint) : Statement (.amoand d a b w h) := by
  intro hwf word hw
  replace hwf : (d < 32 && a < 32 && b < 32 : Bool) = true := hwf
  simp only [Bool.and_eq_true, decide_eq_true_eq] at hwf
  have b_d : d < 32 := hwf.1.1
  have b_a : a < 32 := hwf.1.2
  have b_b : b < 32 := hwf.2
  replace hw : 0x48000007 + d * 2 ^ 21 + a * 2 ^ 16 + b * 2 ^ 11 + w.toNat * 2 ^ 10 + h.code * 2 ^ 8 = word := Option.some.inj hw
  have f26_6 : Sys2Proof.fld word 26 6 = 18 := Sys2Proof.Laws.Field.bits26w6_of_21w5_16w5_11w5_10w1_8w2 0x48000007 d a b w.toNat h.code word hw b_d b_a b_b (flagBit_lt w) (hintCode_lt h) rfl rfl rfl rfl rfl
  have f0_4 : Sys2Proof.fld word 0 4 = 7 := Sys2Proof.Laws.Field.bits0w4_of_21w5_16w5_11w5_10w1_8w2 0x48000007 d a b w.toNat h.code word hw
  have f4_4 : Sys2Proof.fld word 4 4 = 0 := Sys2Proof.Laws.Field.bits4w4_of_21w5_16w5_11w5_10w1_8w2 0x48000007 d a b w.toNat h.code word hw
  have f21_5 : Sys2Proof.fld word 21 5 = d := Sys2Proof.Laws.Field.bits21w5_of_21w5_16w5_11w5_10w1_8w2 0x48000007 d a b w.toNat h.code word hw b_d b_a b_b (flagBit_lt w) (hintCode_lt h) rfl rfl rfl rfl rfl
  have f16_5 : Sys2Proof.fld word 16 5 = a := Sys2Proof.Laws.Field.bits16w5_of_21w5_16w5_11w5_10w1_8w2 0x48000007 d a b w.toNat h.code word hw b_a b_b (flagBit_lt w) (hintCode_lt h) rfl rfl rfl rfl
  have f11_5 : Sys2Proof.fld word 11 5 = b := Sys2Proof.Laws.Field.bits11w5_of_21w5_16w5_11w5_10w1_8w2 0x48000007 d a b w.toNat h.code word hw b_b (flagBit_lt w) (hintCode_lt h) rfl rfl rfl
  have f10_1 : Sys2Proof.fld word 10 1 = w.toNat := Sys2Proof.Laws.Field.bits10w1_of_21w5_16w5_11w5_10w1_8w2 0x48000007 d a b w.toNat h.code word hw (flagBit_lt w) (hintCode_lt h) rfl rfl
  have f8_2 : Sys2Proof.fld word 8 2 = h.code := Sys2Proof.Laws.Field.bits8w2_of_21w5_16w5_11w5_10w1_8w2 0x48000007 d a b w.toNat h.code word hw (hintCode_lt h) rfl
  rw [major12 word f26_6]
  unfold decodeMajor12
  rw [f0_4, f4_4, f21_5, f16_5, f11_5, f10_1, f8_2, flagBit w, hintCode h]; try rfl
theorem amoor (d : Nat) (a : Nat) (b : Nat) (w : Bool) (h : Hint) : Statement (.amoor d a b w h) := by
  intro hwf word hw
  replace hwf : (d < 32 && a < 32 && b < 32 : Bool) = true := hwf
  simp only [Bool.and_eq_true, decide_eq_true_eq] at hwf
  have b_d : d < 32 := hwf.1.1
  have b_a : a < 32 := hwf.1.2
  have b_b : b < 32 := hwf.2
  replace hw : 0x48000008 + d * 2 ^ 21 + a * 2 ^ 16 + b * 2 ^ 11 + w.toNat * 2 ^ 10 + h.code * 2 ^ 8 = word := Option.some.inj hw
  have f26_6 : Sys2Proof.fld word 26 6 = 18 := Sys2Proof.Laws.Field.bits26w6_of_21w5_16w5_11w5_10w1_8w2 0x48000008 d a b w.toNat h.code word hw b_d b_a b_b (flagBit_lt w) (hintCode_lt h) rfl rfl rfl rfl rfl
  have f0_4 : Sys2Proof.fld word 0 4 = 8 := Sys2Proof.Laws.Field.bits0w4_of_21w5_16w5_11w5_10w1_8w2 0x48000008 d a b w.toNat h.code word hw
  have f4_4 : Sys2Proof.fld word 4 4 = 0 := Sys2Proof.Laws.Field.bits4w4_of_21w5_16w5_11w5_10w1_8w2 0x48000008 d a b w.toNat h.code word hw
  have f21_5 : Sys2Proof.fld word 21 5 = d := Sys2Proof.Laws.Field.bits21w5_of_21w5_16w5_11w5_10w1_8w2 0x48000008 d a b w.toNat h.code word hw b_d b_a b_b (flagBit_lt w) (hintCode_lt h) rfl rfl rfl rfl rfl
  have f16_5 : Sys2Proof.fld word 16 5 = a := Sys2Proof.Laws.Field.bits16w5_of_21w5_16w5_11w5_10w1_8w2 0x48000008 d a b w.toNat h.code word hw b_a b_b (flagBit_lt w) (hintCode_lt h) rfl rfl rfl rfl
  have f11_5 : Sys2Proof.fld word 11 5 = b := Sys2Proof.Laws.Field.bits11w5_of_21w5_16w5_11w5_10w1_8w2 0x48000008 d a b w.toNat h.code word hw b_b (flagBit_lt w) (hintCode_lt h) rfl rfl rfl
  have f10_1 : Sys2Proof.fld word 10 1 = w.toNat := Sys2Proof.Laws.Field.bits10w1_of_21w5_16w5_11w5_10w1_8w2 0x48000008 d a b w.toNat h.code word hw (flagBit_lt w) (hintCode_lt h) rfl rfl
  have f8_2 : Sys2Proof.fld word 8 2 = h.code := Sys2Proof.Laws.Field.bits8w2_of_21w5_16w5_11w5_10w1_8w2 0x48000008 d a b w.toNat h.code word hw (hintCode_lt h) rfl
  rw [major12 word f26_6]
  unfold decodeMajor12
  rw [f0_4, f4_4, f21_5, f16_5, f11_5, f10_1, f8_2, flagBit w, hintCode h]; try rfl
theorem amoxor (d : Nat) (a : Nat) (b : Nat) (w : Bool) (h : Hint) : Statement (.amoxor d a b w h) := by
  intro hwf word hw
  replace hwf : (d < 32 && a < 32 && b < 32 : Bool) = true := hwf
  simp only [Bool.and_eq_true, decide_eq_true_eq] at hwf
  have b_d : d < 32 := hwf.1.1
  have b_a : a < 32 := hwf.1.2
  have b_b : b < 32 := hwf.2
  replace hw : 0x48000009 + d * 2 ^ 21 + a * 2 ^ 16 + b * 2 ^ 11 + w.toNat * 2 ^ 10 + h.code * 2 ^ 8 = word := Option.some.inj hw
  have f26_6 : Sys2Proof.fld word 26 6 = 18 := Sys2Proof.Laws.Field.bits26w6_of_21w5_16w5_11w5_10w1_8w2 0x48000009 d a b w.toNat h.code word hw b_d b_a b_b (flagBit_lt w) (hintCode_lt h) rfl rfl rfl rfl rfl
  have f0_4 : Sys2Proof.fld word 0 4 = 9 := Sys2Proof.Laws.Field.bits0w4_of_21w5_16w5_11w5_10w1_8w2 0x48000009 d a b w.toNat h.code word hw
  have f4_4 : Sys2Proof.fld word 4 4 = 0 := Sys2Proof.Laws.Field.bits4w4_of_21w5_16w5_11w5_10w1_8w2 0x48000009 d a b w.toNat h.code word hw
  have f21_5 : Sys2Proof.fld word 21 5 = d := Sys2Proof.Laws.Field.bits21w5_of_21w5_16w5_11w5_10w1_8w2 0x48000009 d a b w.toNat h.code word hw b_d b_a b_b (flagBit_lt w) (hintCode_lt h) rfl rfl rfl rfl rfl
  have f16_5 : Sys2Proof.fld word 16 5 = a := Sys2Proof.Laws.Field.bits16w5_of_21w5_16w5_11w5_10w1_8w2 0x48000009 d a b w.toNat h.code word hw b_a b_b (flagBit_lt w) (hintCode_lt h) rfl rfl rfl rfl
  have f11_5 : Sys2Proof.fld word 11 5 = b := Sys2Proof.Laws.Field.bits11w5_of_21w5_16w5_11w5_10w1_8w2 0x48000009 d a b w.toNat h.code word hw b_b (flagBit_lt w) (hintCode_lt h) rfl rfl rfl
  have f10_1 : Sys2Proof.fld word 10 1 = w.toNat := Sys2Proof.Laws.Field.bits10w1_of_21w5_16w5_11w5_10w1_8w2 0x48000009 d a b w.toNat h.code word hw (flagBit_lt w) (hintCode_lt h) rfl rfl
  have f8_2 : Sys2Proof.fld word 8 2 = h.code := Sys2Proof.Laws.Field.bits8w2_of_21w5_16w5_11w5_10w1_8w2 0x48000009 d a b w.toNat h.code word hw (hintCode_lt h) rfl
  rw [major12 word f26_6]
  unfold decodeMajor12
  rw [f0_4, f4_4, f21_5, f16_5, f11_5, f10_1, f8_2, flagBit w, hintCode h]; try rfl
theorem jal (d : Nat) (i : BitVec 21) : Statement (.jal d i) := by
  intro hwf word hw
  replace hwf : (d < 32 : Bool) = true := hwf
  simp only [decide_eq_true_eq] at hwf
  have b_d : d < 32 := hwf
  replace hw : 0x50000000 + d * 2 ^ 21 + i.toNat * 2 ^ 0 = word := Option.some.inj hw
  have f26_6 : Sys2Proof.fld word 26 6 = 20 := Sys2Proof.Laws.Field.bits26w6_of_21w5_0w21 0x50000000 d i.toNat word hw b_d i.isLt rfl rfl
  have f21_5 : Sys2Proof.fld word 21 5 = d := Sys2Proof.Laws.Field.bits21w5_of_21w5_0w21 0x50000000 d i.toNat word hw b_d i.isLt rfl rfl
  have f0_21 : Sys2Proof.fld word 0 21 = i.toNat := Sys2Proof.Laws.Field.bits0w21_of_21w5_0w21 0x50000000 d i.toNat word hw i.isLt rfl
  rw [major14 word f26_6]
  unfold decodeMajor14
  rw [f21_5, f0_21, wordBits i]; try rfl
theorem jalr (d : Nat) (a : Nat) (i : BitVec 16) : Statement (.jalr d a i) := by
  intro hwf word hw
  replace hwf : (d < 32 && a < 32 : Bool) = true := hwf
  simp only [Bool.and_eq_true, decide_eq_true_eq] at hwf
  have b_d : d < 32 := hwf.1
  have b_a : a < 32 := hwf.2
  replace hw : 0x54000000 + d * 2 ^ 21 + a * 2 ^ 16 + i.toNat * 2 ^ 0 = word := Option.some.inj hw
  have f26_6 : Sys2Proof.fld word 26 6 = 21 := Sys2Proof.Laws.Field.bits26w6_of_21w5_16w5_0w16 0x54000000 d a i.toNat word hw b_d b_a i.isLt rfl rfl rfl
  have f21_5 : Sys2Proof.fld word 21 5 = d := Sys2Proof.Laws.Field.bits21w5_of_21w5_16w5_0w16 0x54000000 d a i.toNat word hw b_d b_a i.isLt rfl rfl rfl
  have f16_5 : Sys2Proof.fld word 16 5 = a := Sys2Proof.Laws.Field.bits16w5_of_21w5_16w5_0w16 0x54000000 d a i.toNat word hw b_a i.isLt rfl rfl
  have f0_16 : Sys2Proof.fld word 0 16 = i.toNat := Sys2Proof.Laws.Field.bits0w16_of_21w5_16w5_0w16 0x54000000 d a i.toNat word hw i.isLt rfl
  rw [major15 word f26_6]
  unfold decodeMajor15
  rw [f21_5, f16_5, f0_16, wordBits i]; try rfl
theorem beq (a : Nat) (b : Nat) (off : BitVec 13) : Statement (.beq a b off) := by
  intro hwf word hw
  replace hwf : (a < 32 && b < 32 : Bool) = true := hwf
  simp only [Bool.and_eq_true, decide_eq_true_eq] at hwf
  have b_a : a < 32 := hwf.1
  have b_b : b < 32 := hwf.2
  replace hw : 0x58000000 + a * 2 ^ 21 + b * 2 ^ 16 + off.toNat * 2 ^ 0 = word := Option.some.inj hw
  have f26_6 : Sys2Proof.fld word 26 6 = 22 := Sys2Proof.Laws.Field.bits26w6_of_21w5_16w5_0w13 0x58000000 a b off.toNat word hw b_a b_b off.isLt rfl rfl rfl
  have f13_3 : Sys2Proof.fld word 13 3 = 0 := Sys2Proof.Laws.Field.bits13w3_of_21w5_16w5_0w13 0x58000000 a b off.toNat word hw off.isLt rfl
  have f21_5 : Sys2Proof.fld word 21 5 = a := Sys2Proof.Laws.Field.bits21w5_of_21w5_16w5_0w13 0x58000000 a b off.toNat word hw b_a b_b off.isLt rfl rfl rfl
  have f16_5 : Sys2Proof.fld word 16 5 = b := Sys2Proof.Laws.Field.bits16w5_of_21w5_16w5_0w13 0x58000000 a b off.toNat word hw b_b off.isLt rfl rfl
  have f0_13 : Sys2Proof.fld word 0 13 = off.toNat := Sys2Proof.Laws.Field.bits0w13_of_21w5_16w5_0w13 0x58000000 a b off.toNat word hw off.isLt rfl
  rw [major16 word f26_6]
  unfold decodeMajor16
  rw [f13_3, f21_5, f16_5, f0_13, wordBits off]; try rfl
theorem bne (a : Nat) (b : Nat) (off : BitVec 13) : Statement (.bne a b off) := by
  intro hwf word hw
  replace hwf : (a < 32 && b < 32 : Bool) = true := hwf
  simp only [Bool.and_eq_true, decide_eq_true_eq] at hwf
  have b_a : a < 32 := hwf.1
  have b_b : b < 32 := hwf.2
  replace hw : 0x58002000 + a * 2 ^ 21 + b * 2 ^ 16 + off.toNat * 2 ^ 0 = word := Option.some.inj hw
  have f26_6 : Sys2Proof.fld word 26 6 = 22 := Sys2Proof.Laws.Field.bits26w6_of_21w5_16w5_0w13 0x58002000 a b off.toNat word hw b_a b_b off.isLt rfl rfl rfl
  have f13_3 : Sys2Proof.fld word 13 3 = 1 := Sys2Proof.Laws.Field.bits13w3_of_21w5_16w5_0w13 0x58002000 a b off.toNat word hw off.isLt rfl
  have f21_5 : Sys2Proof.fld word 21 5 = a := Sys2Proof.Laws.Field.bits21w5_of_21w5_16w5_0w13 0x58002000 a b off.toNat word hw b_a b_b off.isLt rfl rfl rfl
  have f16_5 : Sys2Proof.fld word 16 5 = b := Sys2Proof.Laws.Field.bits16w5_of_21w5_16w5_0w13 0x58002000 a b off.toNat word hw b_b off.isLt rfl rfl
  have f0_13 : Sys2Proof.fld word 0 13 = off.toNat := Sys2Proof.Laws.Field.bits0w13_of_21w5_16w5_0w13 0x58002000 a b off.toNat word hw off.isLt rfl
  rw [major16 word f26_6]
  unfold decodeMajor16
  rw [f13_3, f21_5, f16_5, f0_13, wordBits off]; try rfl
theorem blt (a : Nat) (b : Nat) (off : BitVec 13) : Statement (.blt a b off) := by
  intro hwf word hw
  replace hwf : (a < 32 && b < 32 : Bool) = true := hwf
  simp only [Bool.and_eq_true, decide_eq_true_eq] at hwf
  have b_a : a < 32 := hwf.1
  have b_b : b < 32 := hwf.2
  replace hw : 0x58004000 + a * 2 ^ 21 + b * 2 ^ 16 + off.toNat * 2 ^ 0 = word := Option.some.inj hw
  have f26_6 : Sys2Proof.fld word 26 6 = 22 := Sys2Proof.Laws.Field.bits26w6_of_21w5_16w5_0w13 0x58004000 a b off.toNat word hw b_a b_b off.isLt rfl rfl rfl
  have f13_3 : Sys2Proof.fld word 13 3 = 2 := Sys2Proof.Laws.Field.bits13w3_of_21w5_16w5_0w13 0x58004000 a b off.toNat word hw off.isLt rfl
  have f21_5 : Sys2Proof.fld word 21 5 = a := Sys2Proof.Laws.Field.bits21w5_of_21w5_16w5_0w13 0x58004000 a b off.toNat word hw b_a b_b off.isLt rfl rfl rfl
  have f16_5 : Sys2Proof.fld word 16 5 = b := Sys2Proof.Laws.Field.bits16w5_of_21w5_16w5_0w13 0x58004000 a b off.toNat word hw b_b off.isLt rfl rfl
  have f0_13 : Sys2Proof.fld word 0 13 = off.toNat := Sys2Proof.Laws.Field.bits0w13_of_21w5_16w5_0w13 0x58004000 a b off.toNat word hw off.isLt rfl
  rw [major16 word f26_6]
  unfold decodeMajor16
  rw [f13_3, f21_5, f16_5, f0_13, wordBits off]; try rfl
theorem bge (a : Nat) (b : Nat) (off : BitVec 13) : Statement (.bge a b off) := by
  intro hwf word hw
  replace hwf : (a < 32 && b < 32 : Bool) = true := hwf
  simp only [Bool.and_eq_true, decide_eq_true_eq] at hwf
  have b_a : a < 32 := hwf.1
  have b_b : b < 32 := hwf.2
  replace hw : 0x58006000 + a * 2 ^ 21 + b * 2 ^ 16 + off.toNat * 2 ^ 0 = word := Option.some.inj hw
  have f26_6 : Sys2Proof.fld word 26 6 = 22 := Sys2Proof.Laws.Field.bits26w6_of_21w5_16w5_0w13 0x58006000 a b off.toNat word hw b_a b_b off.isLt rfl rfl rfl
  have f13_3 : Sys2Proof.fld word 13 3 = 3 := Sys2Proof.Laws.Field.bits13w3_of_21w5_16w5_0w13 0x58006000 a b off.toNat word hw off.isLt rfl
  have f21_5 : Sys2Proof.fld word 21 5 = a := Sys2Proof.Laws.Field.bits21w5_of_21w5_16w5_0w13 0x58006000 a b off.toNat word hw b_a b_b off.isLt rfl rfl rfl
  have f16_5 : Sys2Proof.fld word 16 5 = b := Sys2Proof.Laws.Field.bits16w5_of_21w5_16w5_0w13 0x58006000 a b off.toNat word hw b_b off.isLt rfl rfl
  have f0_13 : Sys2Proof.fld word 0 13 = off.toNat := Sys2Proof.Laws.Field.bits0w13_of_21w5_16w5_0w13 0x58006000 a b off.toNat word hw off.isLt rfl
  rw [major16 word f26_6]
  unfold decodeMajor16
  rw [f13_3, f21_5, f16_5, f0_13, wordBits off]; try rfl
theorem bltn (a : Nat) (b : Nat) (off : BitVec 13) : Statement (.bltn a b off) := by
  intro hwf word hw
  replace hwf : (a < 32 && b < 32 : Bool) = true := hwf
  simp only [Bool.and_eq_true, decide_eq_true_eq] at hwf
  have b_a : a < 32 := hwf.1
  have b_b : b < 32 := hwf.2
  replace hw : 0x58008000 + a * 2 ^ 21 + b * 2 ^ 16 + off.toNat * 2 ^ 0 = word := Option.some.inj hw
  have f26_6 : Sys2Proof.fld word 26 6 = 22 := Sys2Proof.Laws.Field.bits26w6_of_21w5_16w5_0w13 0x58008000 a b off.toNat word hw b_a b_b off.isLt rfl rfl rfl
  have f13_3 : Sys2Proof.fld word 13 3 = 4 := Sys2Proof.Laws.Field.bits13w3_of_21w5_16w5_0w13 0x58008000 a b off.toNat word hw off.isLt rfl
  have f21_5 : Sys2Proof.fld word 21 5 = a := Sys2Proof.Laws.Field.bits21w5_of_21w5_16w5_0w13 0x58008000 a b off.toNat word hw b_a b_b off.isLt rfl rfl rfl
  have f16_5 : Sys2Proof.fld word 16 5 = b := Sys2Proof.Laws.Field.bits16w5_of_21w5_16w5_0w13 0x58008000 a b off.toNat word hw b_b off.isLt rfl rfl
  have f0_13 : Sys2Proof.fld word 0 13 = off.toNat := Sys2Proof.Laws.Field.bits0w13_of_21w5_16w5_0w13 0x58008000 a b off.toNat word hw off.isLt rfl
  rw [major16 word f26_6]
  unfold decodeMajor16
  rw [f13_3, f21_5, f16_5, f0_13, wordBits off]; try rfl
theorem bgen (a : Nat) (b : Nat) (off : BitVec 13) : Statement (.bgen a b off) := by
  intro hwf word hw
  replace hwf : (a < 32 && b < 32 : Bool) = true := hwf
  simp only [Bool.and_eq_true, decide_eq_true_eq] at hwf
  have b_a : a < 32 := hwf.1
  have b_b : b < 32 := hwf.2
  replace hw : 0x5800a000 + a * 2 ^ 21 + b * 2 ^ 16 + off.toNat * 2 ^ 0 = word := Option.some.inj hw
  have f26_6 : Sys2Proof.fld word 26 6 = 22 := Sys2Proof.Laws.Field.bits26w6_of_21w5_16w5_0w13 0x5800a000 a b off.toNat word hw b_a b_b off.isLt rfl rfl rfl
  have f13_3 : Sys2Proof.fld word 13 3 = 5 := Sys2Proof.Laws.Field.bits13w3_of_21w5_16w5_0w13 0x5800a000 a b off.toNat word hw off.isLt rfl
  have f21_5 : Sys2Proof.fld word 21 5 = a := Sys2Proof.Laws.Field.bits21w5_of_21w5_16w5_0w13 0x5800a000 a b off.toNat word hw b_a b_b off.isLt rfl rfl rfl
  have f16_5 : Sys2Proof.fld word 16 5 = b := Sys2Proof.Laws.Field.bits16w5_of_21w5_16w5_0w13 0x5800a000 a b off.toNat word hw b_b off.isLt rfl rfl
  have f0_13 : Sys2Proof.fld word 0 13 = off.toNat := Sys2Proof.Laws.Field.bits0w13_of_21w5_16w5_0w13 0x5800a000 a b off.toNat word hw off.isLt rfl
  rw [major16 word f26_6]
  unfold decodeMajor16
  rw [f13_3, f21_5, f16_5, f0_13, wordBits off]; try rfl
theorem bkany (k : Nat) (off : BitVec 13) : Statement (.bkany k off) := by
  intro hwf word hw
  replace hwf : (k < 8 : Bool) = true := hwf
  simp only [decide_eq_true_eq] at hwf
  have b_k : k < 8 := hwf
  replace hw : 0x5c000000 + k * 2 ^ 21 + off.toNat * 2 ^ 0 = word := Option.some.inj hw
  have f26_6 : Sys2Proof.fld word 26 6 = 23 := Sys2Proof.Laws.Field.bits26w6_of_21w3_0w13 0x5c000000 k off.toNat word hw b_k off.isLt rfl rfl
  have f24_2 : Sys2Proof.fld word 24 2 = 0 := Sys2Proof.Laws.Field.bits24w2_of_21w3_0w13 0x5c000000 k off.toNat word hw b_k off.isLt rfl rfl
  have f13_3 : Sys2Proof.fld word 13 3 = 0 := Sys2Proof.Laws.Field.bits13w3_of_21w3_0w13 0x5c000000 k off.toNat word hw off.isLt rfl
  have f16_5 : Sys2Proof.fld word 16 5 = 0 := Sys2Proof.Laws.Field.bits16w5_of_21w3_0w13 0x5c000000 k off.toNat word hw off.isLt rfl
  have f21_3 : Sys2Proof.fld word 21 3 = k := Sys2Proof.Laws.Field.bits21w3_of_21w3_0w13 0x5c000000 k off.toNat word hw b_k off.isLt rfl rfl
  have f0_13 : Sys2Proof.fld word 0 13 = off.toNat := Sys2Proof.Laws.Field.bits0w13_of_21w3_0w13 0x5c000000 k off.toNat word hw off.isLt rfl
  rw [major17 word f26_6]
  unfold decodeMajor17
  rw [f24_2, f13_3, f16_5, f21_3, f0_13, wordBits off]; try rfl
theorem bknone (k : Nat) (off : BitVec 13) : Statement (.bknone k off) := by
  intro hwf word hw
  replace hwf : (k < 8 : Bool) = true := hwf
  simp only [decide_eq_true_eq] at hwf
  have b_k : k < 8 := hwf
  replace hw : 0x5c002000 + k * 2 ^ 21 + off.toNat * 2 ^ 0 = word := Option.some.inj hw
  have f26_6 : Sys2Proof.fld word 26 6 = 23 := Sys2Proof.Laws.Field.bits26w6_of_21w3_0w13 0x5c002000 k off.toNat word hw b_k off.isLt rfl rfl
  have f24_2 : Sys2Proof.fld word 24 2 = 0 := Sys2Proof.Laws.Field.bits24w2_of_21w3_0w13 0x5c002000 k off.toNat word hw b_k off.isLt rfl rfl
  have f13_3 : Sys2Proof.fld word 13 3 = 1 := Sys2Proof.Laws.Field.bits13w3_of_21w3_0w13 0x5c002000 k off.toNat word hw off.isLt rfl
  have f16_5 : Sys2Proof.fld word 16 5 = 0 := Sys2Proof.Laws.Field.bits16w5_of_21w3_0w13 0x5c002000 k off.toNat word hw off.isLt rfl
  have f21_3 : Sys2Proof.fld word 21 3 = k := Sys2Proof.Laws.Field.bits21w3_of_21w3_0w13 0x5c002000 k off.toNat word hw b_k off.isLt rfl rfl
  have f0_13 : Sys2Proof.fld word 0 13 = off.toNat := Sys2Proof.Laws.Field.bits0w13_of_21w3_0w13 0x5c002000 k off.toNat word hw off.isLt rfl
  rw [major17 word f26_6]
  unfold decodeMajor17
  rw [f24_2, f13_3, f16_5, f21_3, f0_13, wordBits off]; try rfl
theorem fadd (d : Nat) (a : Nat) (b : Nat) (t : FpFmt) : Statement (.fadd d a b t) := by
  intro hwf word hw
  replace hwf : (d < 32 && a < 32 && b < 32 : Bool) = true := hwf
  simp only [Bool.and_eq_true, decide_eq_true_eq] at hwf
  have b_d : d < 32 := hwf.1.1
  have b_a : a < 32 := hwf.1.2
  have b_b : b < 32 := hwf.2
  replace hw : 0x60000000 + d * 2 ^ 21 + a * 2 ^ 16 + b * 2 ^ 11 + t.code * 2 ^ 9 = word := Option.some.inj hw
  have f26_6 : Sys2Proof.fld word 26 6 = 24 := Sys2Proof.Laws.Field.bits26w6_of_21w5_16w5_11w5_9w2 0x60000000 d a b t.code word hw b_d b_a b_b (formatCode_lt t) rfl rfl rfl rfl
  have f0_4 : Sys2Proof.fld word 0 4 = 0 := Sys2Proof.Laws.Field.bits0w4_of_21w5_16w5_11w5_9w2 0x60000000 d a b t.code word hw
  have f4_5 : Sys2Proof.fld word 4 5 = 0 := Sys2Proof.Laws.Field.bits4w5_of_21w5_16w5_11w5_9w2 0x60000000 d a b t.code word hw
  have f21_5 : Sys2Proof.fld word 21 5 = d := Sys2Proof.Laws.Field.bits21w5_of_21w5_16w5_11w5_9w2 0x60000000 d a b t.code word hw b_d b_a b_b (formatCode_lt t) rfl rfl rfl rfl
  have f16_5 : Sys2Proof.fld word 16 5 = a := Sys2Proof.Laws.Field.bits16w5_of_21w5_16w5_11w5_9w2 0x60000000 d a b t.code word hw b_a b_b (formatCode_lt t) rfl rfl rfl
  have f11_5 : Sys2Proof.fld word 11 5 = b := Sys2Proof.Laws.Field.bits11w5_of_21w5_16w5_11w5_9w2 0x60000000 d a b t.code word hw b_b (formatCode_lt t) rfl rfl
  have f9_2 : Sys2Proof.fld word 9 2 = t.code := Sys2Proof.Laws.Field.bits9w2_of_21w5_16w5_11w5_9w2 0x60000000 d a b t.code word hw (formatCode_lt t) rfl
  rw [major18 word f26_6]
  unfold decodeMajor18
  rw [f0_4, f4_5, f21_5, f16_5, f11_5, f9_2, formatCode t]; try rfl
theorem fsub (d : Nat) (a : Nat) (b : Nat) (t : FpFmt) : Statement (.fsub d a b t) := by
  intro hwf word hw
  replace hwf : (d < 32 && a < 32 && b < 32 : Bool) = true := hwf
  simp only [Bool.and_eq_true, decide_eq_true_eq] at hwf
  have b_d : d < 32 := hwf.1.1
  have b_a : a < 32 := hwf.1.2
  have b_b : b < 32 := hwf.2
  replace hw : 0x60000001 + d * 2 ^ 21 + a * 2 ^ 16 + b * 2 ^ 11 + t.code * 2 ^ 9 = word := Option.some.inj hw
  have f26_6 : Sys2Proof.fld word 26 6 = 24 := Sys2Proof.Laws.Field.bits26w6_of_21w5_16w5_11w5_9w2 0x60000001 d a b t.code word hw b_d b_a b_b (formatCode_lt t) rfl rfl rfl rfl
  have f0_4 : Sys2Proof.fld word 0 4 = 1 := Sys2Proof.Laws.Field.bits0w4_of_21w5_16w5_11w5_9w2 0x60000001 d a b t.code word hw
  have f4_5 : Sys2Proof.fld word 4 5 = 0 := Sys2Proof.Laws.Field.bits4w5_of_21w5_16w5_11w5_9w2 0x60000001 d a b t.code word hw
  have f21_5 : Sys2Proof.fld word 21 5 = d := Sys2Proof.Laws.Field.bits21w5_of_21w5_16w5_11w5_9w2 0x60000001 d a b t.code word hw b_d b_a b_b (formatCode_lt t) rfl rfl rfl rfl
  have f16_5 : Sys2Proof.fld word 16 5 = a := Sys2Proof.Laws.Field.bits16w5_of_21w5_16w5_11w5_9w2 0x60000001 d a b t.code word hw b_a b_b (formatCode_lt t) rfl rfl rfl
  have f11_5 : Sys2Proof.fld word 11 5 = b := Sys2Proof.Laws.Field.bits11w5_of_21w5_16w5_11w5_9w2 0x60000001 d a b t.code word hw b_b (formatCode_lt t) rfl rfl
  have f9_2 : Sys2Proof.fld word 9 2 = t.code := Sys2Proof.Laws.Field.bits9w2_of_21w5_16w5_11w5_9w2 0x60000001 d a b t.code word hw (formatCode_lt t) rfl
  rw [major18 word f26_6]
  unfold decodeMajor18
  rw [f0_4, f4_5, f21_5, f16_5, f11_5, f9_2, formatCode t]; try rfl
theorem fmul (d : Nat) (a : Nat) (b : Nat) (t : FpFmt) : Statement (.fmul d a b t) := by
  intro hwf word hw
  replace hwf : (d < 32 && a < 32 && b < 32 : Bool) = true := hwf
  simp only [Bool.and_eq_true, decide_eq_true_eq] at hwf
  have b_d : d < 32 := hwf.1.1
  have b_a : a < 32 := hwf.1.2
  have b_b : b < 32 := hwf.2
  replace hw : 0x60000002 + d * 2 ^ 21 + a * 2 ^ 16 + b * 2 ^ 11 + t.code * 2 ^ 9 = word := Option.some.inj hw
  have f26_6 : Sys2Proof.fld word 26 6 = 24 := Sys2Proof.Laws.Field.bits26w6_of_21w5_16w5_11w5_9w2 0x60000002 d a b t.code word hw b_d b_a b_b (formatCode_lt t) rfl rfl rfl rfl
  have f0_4 : Sys2Proof.fld word 0 4 = 2 := Sys2Proof.Laws.Field.bits0w4_of_21w5_16w5_11w5_9w2 0x60000002 d a b t.code word hw
  have f4_5 : Sys2Proof.fld word 4 5 = 0 := Sys2Proof.Laws.Field.bits4w5_of_21w5_16w5_11w5_9w2 0x60000002 d a b t.code word hw
  have f21_5 : Sys2Proof.fld word 21 5 = d := Sys2Proof.Laws.Field.bits21w5_of_21w5_16w5_11w5_9w2 0x60000002 d a b t.code word hw b_d b_a b_b (formatCode_lt t) rfl rfl rfl rfl
  have f16_5 : Sys2Proof.fld word 16 5 = a := Sys2Proof.Laws.Field.bits16w5_of_21w5_16w5_11w5_9w2 0x60000002 d a b t.code word hw b_a b_b (formatCode_lt t) rfl rfl rfl
  have f11_5 : Sys2Proof.fld word 11 5 = b := Sys2Proof.Laws.Field.bits11w5_of_21w5_16w5_11w5_9w2 0x60000002 d a b t.code word hw b_b (formatCode_lt t) rfl rfl
  have f9_2 : Sys2Proof.fld word 9 2 = t.code := Sys2Proof.Laws.Field.bits9w2_of_21w5_16w5_11w5_9w2 0x60000002 d a b t.code word hw (formatCode_lt t) rfl
  rw [major18 word f26_6]
  unfold decodeMajor18
  rw [f0_4, f4_5, f21_5, f16_5, f11_5, f9_2, formatCode t]; try rfl
theorem fdiv (d : Nat) (a : Nat) (b : Nat) (t : FpFmt) : Statement (.fdiv d a b t) := by
  intro hwf word hw
  replace hwf : (d < 32 && a < 32 && b < 32 : Bool) = true := hwf
  simp only [Bool.and_eq_true, decide_eq_true_eq] at hwf
  have b_d : d < 32 := hwf.1.1
  have b_a : a < 32 := hwf.1.2
  have b_b : b < 32 := hwf.2
  replace hw : 0x60000003 + d * 2 ^ 21 + a * 2 ^ 16 + b * 2 ^ 11 + t.code * 2 ^ 9 = word := Option.some.inj hw
  have f26_6 : Sys2Proof.fld word 26 6 = 24 := Sys2Proof.Laws.Field.bits26w6_of_21w5_16w5_11w5_9w2 0x60000003 d a b t.code word hw b_d b_a b_b (formatCode_lt t) rfl rfl rfl rfl
  have f0_4 : Sys2Proof.fld word 0 4 = 3 := Sys2Proof.Laws.Field.bits0w4_of_21w5_16w5_11w5_9w2 0x60000003 d a b t.code word hw
  have f4_5 : Sys2Proof.fld word 4 5 = 0 := Sys2Proof.Laws.Field.bits4w5_of_21w5_16w5_11w5_9w2 0x60000003 d a b t.code word hw
  have f21_5 : Sys2Proof.fld word 21 5 = d := Sys2Proof.Laws.Field.bits21w5_of_21w5_16w5_11w5_9w2 0x60000003 d a b t.code word hw b_d b_a b_b (formatCode_lt t) rfl rfl rfl rfl
  have f16_5 : Sys2Proof.fld word 16 5 = a := Sys2Proof.Laws.Field.bits16w5_of_21w5_16w5_11w5_9w2 0x60000003 d a b t.code word hw b_a b_b (formatCode_lt t) rfl rfl rfl
  have f11_5 : Sys2Proof.fld word 11 5 = b := Sys2Proof.Laws.Field.bits11w5_of_21w5_16w5_11w5_9w2 0x60000003 d a b t.code word hw b_b (formatCode_lt t) rfl rfl
  have f9_2 : Sys2Proof.fld word 9 2 = t.code := Sys2Proof.Laws.Field.bits9w2_of_21w5_16w5_11w5_9w2 0x60000003 d a b t.code word hw (formatCode_lt t) rfl
  rw [major18 word f26_6]
  unfold decodeMajor18
  rw [f0_4, f4_5, f21_5, f16_5, f11_5, f9_2, formatCode t]; try rfl
theorem fsqrt (d : Nat) (a : Nat) (t : FpFmt) : Statement (.fsqrt d a t) := by
  intro hwf word hw
  replace hwf : (d < 32 && a < 32 : Bool) = true := hwf
  simp only [Bool.and_eq_true, decide_eq_true_eq] at hwf
  have b_d : d < 32 := hwf.1
  have b_a : a < 32 := hwf.2
  replace hw : 0x60000004 + d * 2 ^ 21 + a * 2 ^ 16 + t.code * 2 ^ 9 = word := Option.some.inj hw
  have f26_6 : Sys2Proof.fld word 26 6 = 24 := Sys2Proof.Laws.Field.bits26w6_of_21w5_16w5_9w2 0x60000004 d a t.code word hw b_d b_a (formatCode_lt t) rfl rfl rfl
  have f0_4 : Sys2Proof.fld word 0 4 = 4 := Sys2Proof.Laws.Field.bits0w4_of_21w5_16w5_9w2 0x60000004 d a t.code word hw
  have f11_5 : Sys2Proof.fld word 11 5 = 0 := Sys2Proof.Laws.Field.bits11w5_of_21w5_16w5_9w2 0x60000004 d a t.code word hw (formatCode_lt t) rfl
  have f4_5 : Sys2Proof.fld word 4 5 = 0 := Sys2Proof.Laws.Field.bits4w5_of_21w5_16w5_9w2 0x60000004 d a t.code word hw
  have f21_5 : Sys2Proof.fld word 21 5 = d := Sys2Proof.Laws.Field.bits21w5_of_21w5_16w5_9w2 0x60000004 d a t.code word hw b_d b_a (formatCode_lt t) rfl rfl rfl
  have f16_5 : Sys2Proof.fld word 16 5 = a := Sys2Proof.Laws.Field.bits16w5_of_21w5_16w5_9w2 0x60000004 d a t.code word hw b_a (formatCode_lt t) rfl rfl
  have f9_2 : Sys2Proof.fld word 9 2 = t.code := Sys2Proof.Laws.Field.bits9w2_of_21w5_16w5_9w2 0x60000004 d a t.code word hw (formatCode_lt t) rfl
  rw [major18 word f26_6]
  unfold decodeMajor18
  rw [f0_4, f11_5, f4_5, f21_5, f16_5, f9_2, formatCode t]; try rfl
theorem fmin (d : Nat) (a : Nat) (b : Nat) (t : FpFmt) : Statement (.fmin d a b t) := by
  intro hwf word hw
  replace hwf : (d < 32 && a < 32 && b < 32 : Bool) = true := hwf
  simp only [Bool.and_eq_true, decide_eq_true_eq] at hwf
  have b_d : d < 32 := hwf.1.1
  have b_a : a < 32 := hwf.1.2
  have b_b : b < 32 := hwf.2
  replace hw : 0x60000005 + d * 2 ^ 21 + a * 2 ^ 16 + b * 2 ^ 11 + t.code * 2 ^ 9 = word := Option.some.inj hw
  have f26_6 : Sys2Proof.fld word 26 6 = 24 := Sys2Proof.Laws.Field.bits26w6_of_21w5_16w5_11w5_9w2 0x60000005 d a b t.code word hw b_d b_a b_b (formatCode_lt t) rfl rfl rfl rfl
  have f0_4 : Sys2Proof.fld word 0 4 = 5 := Sys2Proof.Laws.Field.bits0w4_of_21w5_16w5_11w5_9w2 0x60000005 d a b t.code word hw
  have f4_5 : Sys2Proof.fld word 4 5 = 0 := Sys2Proof.Laws.Field.bits4w5_of_21w5_16w5_11w5_9w2 0x60000005 d a b t.code word hw
  have f21_5 : Sys2Proof.fld word 21 5 = d := Sys2Proof.Laws.Field.bits21w5_of_21w5_16w5_11w5_9w2 0x60000005 d a b t.code word hw b_d b_a b_b (formatCode_lt t) rfl rfl rfl rfl
  have f16_5 : Sys2Proof.fld word 16 5 = a := Sys2Proof.Laws.Field.bits16w5_of_21w5_16w5_11w5_9w2 0x60000005 d a b t.code word hw b_a b_b (formatCode_lt t) rfl rfl rfl
  have f11_5 : Sys2Proof.fld word 11 5 = b := Sys2Proof.Laws.Field.bits11w5_of_21w5_16w5_11w5_9w2 0x60000005 d a b t.code word hw b_b (formatCode_lt t) rfl rfl
  have f9_2 : Sys2Proof.fld word 9 2 = t.code := Sys2Proof.Laws.Field.bits9w2_of_21w5_16w5_11w5_9w2 0x60000005 d a b t.code word hw (formatCode_lt t) rfl
  rw [major18 word f26_6]
  unfold decodeMajor18
  rw [f0_4, f4_5, f21_5, f16_5, f11_5, f9_2, formatCode t]; try rfl
theorem fmax (d : Nat) (a : Nat) (b : Nat) (t : FpFmt) : Statement (.fmax d a b t) := by
  intro hwf word hw
  replace hwf : (d < 32 && a < 32 && b < 32 : Bool) = true := hwf
  simp only [Bool.and_eq_true, decide_eq_true_eq] at hwf
  have b_d : d < 32 := hwf.1.1
  have b_a : a < 32 := hwf.1.2
  have b_b : b < 32 := hwf.2
  replace hw : 0x60000006 + d * 2 ^ 21 + a * 2 ^ 16 + b * 2 ^ 11 + t.code * 2 ^ 9 = word := Option.some.inj hw
  have f26_6 : Sys2Proof.fld word 26 6 = 24 := Sys2Proof.Laws.Field.bits26w6_of_21w5_16w5_11w5_9w2 0x60000006 d a b t.code word hw b_d b_a b_b (formatCode_lt t) rfl rfl rfl rfl
  have f0_4 : Sys2Proof.fld word 0 4 = 6 := Sys2Proof.Laws.Field.bits0w4_of_21w5_16w5_11w5_9w2 0x60000006 d a b t.code word hw
  have f4_5 : Sys2Proof.fld word 4 5 = 0 := Sys2Proof.Laws.Field.bits4w5_of_21w5_16w5_11w5_9w2 0x60000006 d a b t.code word hw
  have f21_5 : Sys2Proof.fld word 21 5 = d := Sys2Proof.Laws.Field.bits21w5_of_21w5_16w5_11w5_9w2 0x60000006 d a b t.code word hw b_d b_a b_b (formatCode_lt t) rfl rfl rfl rfl
  have f16_5 : Sys2Proof.fld word 16 5 = a := Sys2Proof.Laws.Field.bits16w5_of_21w5_16w5_11w5_9w2 0x60000006 d a b t.code word hw b_a b_b (formatCode_lt t) rfl rfl rfl
  have f11_5 : Sys2Proof.fld word 11 5 = b := Sys2Proof.Laws.Field.bits11w5_of_21w5_16w5_11w5_9w2 0x60000006 d a b t.code word hw b_b (formatCode_lt t) rfl rfl
  have f9_2 : Sys2Proof.fld word 9 2 = t.code := Sys2Proof.Laws.Field.bits9w2_of_21w5_16w5_11w5_9w2 0x60000006 d a b t.code word hw (formatCode_lt t) rfl
  rw [major18 word f26_6]
  unfold decodeMajor18
  rw [f0_4, f4_5, f21_5, f16_5, f11_5, f9_2, formatCode t]; try rfl
theorem fclass (d : Nat) (a : Nat) (t : FpFmt) : Statement (.fclass d a t) := by
  intro hwf word hw
  replace hwf : (d < 32 && a < 32 : Bool) = true := hwf
  simp only [Bool.and_eq_true, decide_eq_true_eq] at hwf
  have b_d : d < 32 := hwf.1
  have b_a : a < 32 := hwf.2
  replace hw : 0x60000007 + d * 2 ^ 21 + a * 2 ^ 16 + t.code * 2 ^ 9 = word := Option.some.inj hw
  have f26_6 : Sys2Proof.fld word 26 6 = 24 := Sys2Proof.Laws.Field.bits26w6_of_21w5_16w5_9w2 0x60000007 d a t.code word hw b_d b_a (formatCode_lt t) rfl rfl rfl
  have f0_4 : Sys2Proof.fld word 0 4 = 7 := Sys2Proof.Laws.Field.bits0w4_of_21w5_16w5_9w2 0x60000007 d a t.code word hw
  have f11_5 : Sys2Proof.fld word 11 5 = 0 := Sys2Proof.Laws.Field.bits11w5_of_21w5_16w5_9w2 0x60000007 d a t.code word hw (formatCode_lt t) rfl
  have f4_5 : Sys2Proof.fld word 4 5 = 0 := Sys2Proof.Laws.Field.bits4w5_of_21w5_16w5_9w2 0x60000007 d a t.code word hw
  have f21_5 : Sys2Proof.fld word 21 5 = d := Sys2Proof.Laws.Field.bits21w5_of_21w5_16w5_9w2 0x60000007 d a t.code word hw b_d b_a (formatCode_lt t) rfl rfl rfl
  have f16_5 : Sys2Proof.fld word 16 5 = a := Sys2Proof.Laws.Field.bits16w5_of_21w5_16w5_9w2 0x60000007 d a t.code word hw b_a (formatCode_lt t) rfl rfl
  have f9_2 : Sys2Proof.fld word 9 2 = t.code := Sys2Proof.Laws.Field.bits9w2_of_21w5_16w5_9w2 0x60000007 d a t.code word hw (formatCode_lt t) rfl
  rw [major18 word f26_6]
  unfold decodeMajor18
  rw [f0_4, f11_5, f4_5, f21_5, f16_5, f9_2, formatCode t]; try rfl
theorem fmvX (d : Nat) (a : Nat) : Statement (.fmvX d a) := by
  intro hwf word hw
  replace hwf : (d < 32 && a < 32 : Bool) = true := hwf
  simp only [Bool.and_eq_true, decide_eq_true_eq] at hwf
  have b_d : d < 32 := hwf.1
  have b_a : a < 32 := hwf.2
  replace hw : 0x60000008 + d * 2 ^ 21 + a * 2 ^ 16 = word := Option.some.inj hw
  have f26_6 : Sys2Proof.fld word 26 6 = 24 := Sys2Proof.Laws.Field.bits26w6_of_21w5_16w5 0x60000008 d a word hw b_d b_a rfl rfl
  have f0_4 : Sys2Proof.fld word 0 4 = 8 := Sys2Proof.Laws.Field.bits0w4_of_21w5_16w5 0x60000008 d a word hw
  have f4_12 : Sys2Proof.fld word 4 12 = 0 := Sys2Proof.Laws.Field.bits4w12_of_21w5_16w5 0x60000008 d a word hw
  have f21_5 : Sys2Proof.fld word 21 5 = d := Sys2Proof.Laws.Field.bits21w5_of_21w5_16w5 0x60000008 d a word hw b_d b_a rfl rfl
  have f16_5 : Sys2Proof.fld word 16 5 = a := Sys2Proof.Laws.Field.bits16w5_of_21w5_16w5 0x60000008 d a word hw b_a rfl
  rw [major18 word f26_6]
  unfold decodeMajor18
  rw [f0_4, f4_12, f21_5, f16_5]; try rfl
theorem fmvF (d : Nat) (a : Nat) : Statement (.fmvF d a) := by
  intro hwf word hw
  replace hwf : (d < 32 && a < 32 : Bool) = true := hwf
  simp only [Bool.and_eq_true, decide_eq_true_eq] at hwf
  have b_d : d < 32 := hwf.1
  have b_a : a < 32 := hwf.2
  replace hw : 0x60000009 + d * 2 ^ 21 + a * 2 ^ 16 = word := Option.some.inj hw
  have f26_6 : Sys2Proof.fld word 26 6 = 24 := Sys2Proof.Laws.Field.bits26w6_of_21w5_16w5 0x60000009 d a word hw b_d b_a rfl rfl
  have f0_4 : Sys2Proof.fld word 0 4 = 9 := Sys2Proof.Laws.Field.bits0w4_of_21w5_16w5 0x60000009 d a word hw
  have f4_12 : Sys2Proof.fld word 4 12 = 0 := Sys2Proof.Laws.Field.bits4w12_of_21w5_16w5 0x60000009 d a word hw
  have f21_5 : Sys2Proof.fld word 21 5 = d := Sys2Proof.Laws.Field.bits21w5_of_21w5_16w5 0x60000009 d a word hw b_d b_a rfl rfl
  have f16_5 : Sys2Proof.fld word 16 5 = a := Sys2Proof.Laws.Field.bits16w5_of_21w5_16w5 0x60000009 d a word hw b_a rfl
  rw [major18 word f26_6]
  unfold decodeMajor18
  rw [f0_4, f4_12, f21_5, f16_5]; try rfl
theorem fma (d : Nat) (a : Nat) (b : Nat) (c : Nat) (t : FpFmt) : Statement (.fma d a b c t) := by
  intro hwf word hw
  replace hwf : (d < 32 && a < 32 && b < 32 && c < 32 : Bool) = true := hwf
  simp only [Bool.and_eq_true, decide_eq_true_eq] at hwf
  have b_d : d < 32 := hwf.1.1.1
  have b_a : a < 32 := hwf.1.1.2
  have b_b : b < 32 := hwf.1.2
  have b_c : c < 32 := hwf.2
  replace hw : 0x64000000 + d * 2 ^ 21 + a * 2 ^ 16 + b * 2 ^ 11 + c * 2 ^ 6 + t.code * 2 ^ 4 = word := Option.some.inj hw
  have f26_6 : Sys2Proof.fld word 26 6 = 25 := Sys2Proof.Laws.Field.bits26w6_of_21w5_16w5_11w5_6w5_4w2 0x64000000 d a b c t.code word hw b_d b_a b_b b_c (formatCode_lt t) rfl rfl rfl rfl rfl
  have f0_1 : Sys2Proof.fld word 0 1 = 0 := Sys2Proof.Laws.Field.bits0w1_of_21w5_16w5_11w5_6w5_4w2 0x64000000 d a b c t.code word hw
  have f1_3 : Sys2Proof.fld word 1 3 = 0 := Sys2Proof.Laws.Field.bits1w3_of_21w5_16w5_11w5_6w5_4w2 0x64000000 d a b c t.code word hw
  have f21_5 : Sys2Proof.fld word 21 5 = d := Sys2Proof.Laws.Field.bits21w5_of_21w5_16w5_11w5_6w5_4w2 0x64000000 d a b c t.code word hw b_d b_a b_b b_c (formatCode_lt t) rfl rfl rfl rfl rfl
  have f16_5 : Sys2Proof.fld word 16 5 = a := Sys2Proof.Laws.Field.bits16w5_of_21w5_16w5_11w5_6w5_4w2 0x64000000 d a b c t.code word hw b_a b_b b_c (formatCode_lt t) rfl rfl rfl rfl
  have f11_5 : Sys2Proof.fld word 11 5 = b := Sys2Proof.Laws.Field.bits11w5_of_21w5_16w5_11w5_6w5_4w2 0x64000000 d a b c t.code word hw b_b b_c (formatCode_lt t) rfl rfl rfl
  have f6_5 : Sys2Proof.fld word 6 5 = c := Sys2Proof.Laws.Field.bits6w5_of_21w5_16w5_11w5_6w5_4w2 0x64000000 d a b c t.code word hw b_c (formatCode_lt t) rfl rfl
  have f4_2 : Sys2Proof.fld word 4 2 = t.code := Sys2Proof.Laws.Field.bits4w2_of_21w5_16w5_11w5_6w5_4w2 0x64000000 d a b c t.code word hw (formatCode_lt t) rfl
  rw [major19 word f26_6]
  unfold decodeMajor19
  rw [f0_1, f1_3, f21_5, f16_5, f11_5, f6_5, f4_2, formatCode t]; try rfl
theorem fms (d : Nat) (a : Nat) (b : Nat) (c : Nat) (t : FpFmt) : Statement (.fms d a b c t) := by
  intro hwf word hw
  replace hwf : (d < 32 && a < 32 && b < 32 && c < 32 : Bool) = true := hwf
  simp only [Bool.and_eq_true, decide_eq_true_eq] at hwf
  have b_d : d < 32 := hwf.1.1.1
  have b_a : a < 32 := hwf.1.1.2
  have b_b : b < 32 := hwf.1.2
  have b_c : c < 32 := hwf.2
  replace hw : 0x64000001 + d * 2 ^ 21 + a * 2 ^ 16 + b * 2 ^ 11 + c * 2 ^ 6 + t.code * 2 ^ 4 = word := Option.some.inj hw
  have f26_6 : Sys2Proof.fld word 26 6 = 25 := Sys2Proof.Laws.Field.bits26w6_of_21w5_16w5_11w5_6w5_4w2 0x64000001 d a b c t.code word hw b_d b_a b_b b_c (formatCode_lt t) rfl rfl rfl rfl rfl
  have f0_1 : Sys2Proof.fld word 0 1 = 1 := Sys2Proof.Laws.Field.bits0w1_of_21w5_16w5_11w5_6w5_4w2 0x64000001 d a b c t.code word hw
  have f1_3 : Sys2Proof.fld word 1 3 = 0 := Sys2Proof.Laws.Field.bits1w3_of_21w5_16w5_11w5_6w5_4w2 0x64000001 d a b c t.code word hw
  have f21_5 : Sys2Proof.fld word 21 5 = d := Sys2Proof.Laws.Field.bits21w5_of_21w5_16w5_11w5_6w5_4w2 0x64000001 d a b c t.code word hw b_d b_a b_b b_c (formatCode_lt t) rfl rfl rfl rfl rfl
  have f16_5 : Sys2Proof.fld word 16 5 = a := Sys2Proof.Laws.Field.bits16w5_of_21w5_16w5_11w5_6w5_4w2 0x64000001 d a b c t.code word hw b_a b_b b_c (formatCode_lt t) rfl rfl rfl rfl
  have f11_5 : Sys2Proof.fld word 11 5 = b := Sys2Proof.Laws.Field.bits11w5_of_21w5_16w5_11w5_6w5_4w2 0x64000001 d a b c t.code word hw b_b b_c (formatCode_lt t) rfl rfl rfl
  have f6_5 : Sys2Proof.fld word 6 5 = c := Sys2Proof.Laws.Field.bits6w5_of_21w5_16w5_11w5_6w5_4w2 0x64000001 d a b c t.code word hw b_c (formatCode_lt t) rfl rfl
  have f4_2 : Sys2Proof.fld word 4 2 = t.code := Sys2Proof.Laws.Field.bits4w2_of_21w5_16w5_11w5_6w5_4w2 0x64000001 d a b c t.code word hw (formatCode_lt t) rfl
  rw [major19 word f26_6]
  unfold decodeMajor19
  rw [f0_1, f1_3, f21_5, f16_5, f11_5, f6_5, f4_2, formatCode t]; try rfl
theorem fcvt (d : Nat) (a : Nat) (t : Nat) (f : Nat) : Statement (.fcvt d a t f) := by
  intro hwf word hw
  replace hwf : (d < 32 && a < 32 && t < 16 && f < 16 : Bool) = true := hwf
  simp only [Bool.and_eq_true, decide_eq_true_eq] at hwf
  have b_d : d < 32 := hwf.1.1.1
  have b_a : a < 32 := hwf.1.1.2
  have b_t : t < 16 := hwf.1.2
  have b_f : f < 16 := hwf.2
  replace hw : 0x68000000 + d * 2 ^ 21 + a * 2 ^ 16 + t * 2 ^ 7 + f * 2 ^ 3 = word := Option.some.inj hw
  have f26_6 : Sys2Proof.fld word 26 6 = 26 := Sys2Proof.Laws.Field.bits26w6_of_21w5_16w5_7w4_3w4 0x68000000 d a t f word hw b_d b_a b_t b_f rfl rfl rfl rfl
  have f11_5 : Sys2Proof.fld word 11 5 = 0 := Sys2Proof.Laws.Field.bits11w5_of_21w5_16w5_7w4_3w4 0x68000000 d a t f word hw b_t b_f rfl rfl
  have f0_3 : Sys2Proof.fld word 0 3 = 0 := Sys2Proof.Laws.Field.bits0w3_of_21w5_16w5_7w4_3w4 0x68000000 d a t f word hw
  have f21_5 : Sys2Proof.fld word 21 5 = d := Sys2Proof.Laws.Field.bits21w5_of_21w5_16w5_7w4_3w4 0x68000000 d a t f word hw b_d b_a b_t b_f rfl rfl rfl rfl
  have f16_5 : Sys2Proof.fld word 16 5 = a := Sys2Proof.Laws.Field.bits16w5_of_21w5_16w5_7w4_3w4 0x68000000 d a t f word hw b_a b_t b_f rfl rfl rfl
  have f7_4 : Sys2Proof.fld word 7 4 = t := Sys2Proof.Laws.Field.bits7w4_of_21w5_16w5_7w4_3w4 0x68000000 d a t f word hw b_t b_f rfl rfl
  have f3_4 : Sys2Proof.fld word 3 4 = f := Sys2Proof.Laws.Field.bits3w4_of_21w5_16w5_7w4_3w4 0x68000000 d a t f word hw b_f rfl
  rw [major1A word f26_6]
  unfold decodeMajor1A
  rw [f11_5, f0_3, f21_5, f16_5, f7_4, f3_4]; try rfl
theorem fcmpEq (d : Nat) (a : Nat) (b : Nat) (t : FpFmt) : Statement (.fcmpEq d a b t) := by
  intro hwf word hw
  replace hwf : (d < 32 && a < 32 && b < 32 : Bool) = true := hwf
  simp only [Bool.and_eq_true, decide_eq_true_eq] at hwf
  have b_d : d < 32 := hwf.1.1
  have b_a : a < 32 := hwf.1.2
  have b_b : b < 32 := hwf.2
  replace hw : 0x6c000000 + d * 2 ^ 21 + a * 2 ^ 16 + b * 2 ^ 11 + t.code * 2 ^ 9 = word := Option.some.inj hw
  have f26_6 : Sys2Proof.fld word 26 6 = 27 := Sys2Proof.Laws.Field.bits26w6_of_21w5_16w5_11w5_9w2 0x6c000000 d a b t.code word hw b_d b_a b_b (formatCode_lt t) rfl rfl rfl rfl
  have f0_3 : Sys2Proof.fld word 0 3 = 0 := Sys2Proof.Laws.Field.bits0w3_of_21w5_16w5_11w5_9w2 0x6c000000 d a b t.code word hw
  have f3_6 : Sys2Proof.fld word 3 6 = 0 := Sys2Proof.Laws.Field.bits3w6_of_21w5_16w5_11w5_9w2 0x6c000000 d a b t.code word hw
  have f21_5 : Sys2Proof.fld word 21 5 = d := Sys2Proof.Laws.Field.bits21w5_of_21w5_16w5_11w5_9w2 0x6c000000 d a b t.code word hw b_d b_a b_b (formatCode_lt t) rfl rfl rfl rfl
  have f16_5 : Sys2Proof.fld word 16 5 = a := Sys2Proof.Laws.Field.bits16w5_of_21w5_16w5_11w5_9w2 0x6c000000 d a b t.code word hw b_a b_b (formatCode_lt t) rfl rfl rfl
  have f11_5 : Sys2Proof.fld word 11 5 = b := Sys2Proof.Laws.Field.bits11w5_of_21w5_16w5_11w5_9w2 0x6c000000 d a b t.code word hw b_b (formatCode_lt t) rfl rfl
  have f9_2 : Sys2Proof.fld word 9 2 = t.code := Sys2Proof.Laws.Field.bits9w2_of_21w5_16w5_11w5_9w2 0x6c000000 d a b t.code word hw (formatCode_lt t) rfl
  rw [major1B word f26_6]
  unfold decodeMajor1B
  rw [f0_3, f3_6, f21_5, f16_5, f11_5, f9_2, formatCode t]; try rfl
theorem fcmpLt (d : Nat) (a : Nat) (b : Nat) (t : FpFmt) : Statement (.fcmpLt d a b t) := by
  intro hwf word hw
  replace hwf : (d < 32 && a < 32 && b < 32 : Bool) = true := hwf
  simp only [Bool.and_eq_true, decide_eq_true_eq] at hwf
  have b_d : d < 32 := hwf.1.1
  have b_a : a < 32 := hwf.1.2
  have b_b : b < 32 := hwf.2
  replace hw : 0x6c000001 + d * 2 ^ 21 + a * 2 ^ 16 + b * 2 ^ 11 + t.code * 2 ^ 9 = word := Option.some.inj hw
  have f26_6 : Sys2Proof.fld word 26 6 = 27 := Sys2Proof.Laws.Field.bits26w6_of_21w5_16w5_11w5_9w2 0x6c000001 d a b t.code word hw b_d b_a b_b (formatCode_lt t) rfl rfl rfl rfl
  have f0_3 : Sys2Proof.fld word 0 3 = 1 := Sys2Proof.Laws.Field.bits0w3_of_21w5_16w5_11w5_9w2 0x6c000001 d a b t.code word hw
  have f3_6 : Sys2Proof.fld word 3 6 = 0 := Sys2Proof.Laws.Field.bits3w6_of_21w5_16w5_11w5_9w2 0x6c000001 d a b t.code word hw
  have f21_5 : Sys2Proof.fld word 21 5 = d := Sys2Proof.Laws.Field.bits21w5_of_21w5_16w5_11w5_9w2 0x6c000001 d a b t.code word hw b_d b_a b_b (formatCode_lt t) rfl rfl rfl rfl
  have f16_5 : Sys2Proof.fld word 16 5 = a := Sys2Proof.Laws.Field.bits16w5_of_21w5_16w5_11w5_9w2 0x6c000001 d a b t.code word hw b_a b_b (formatCode_lt t) rfl rfl rfl
  have f11_5 : Sys2Proof.fld word 11 5 = b := Sys2Proof.Laws.Field.bits11w5_of_21w5_16w5_11w5_9w2 0x6c000001 d a b t.code word hw b_b (formatCode_lt t) rfl rfl
  have f9_2 : Sys2Proof.fld word 9 2 = t.code := Sys2Proof.Laws.Field.bits9w2_of_21w5_16w5_11w5_9w2 0x6c000001 d a b t.code word hw (formatCode_lt t) rfl
  rw [major1B word f26_6]
  unfold decodeMajor1B
  rw [f0_3, f3_6, f21_5, f16_5, f11_5, f9_2, formatCode t]; try rfl
theorem fcmpLe (d : Nat) (a : Nat) (b : Nat) (t : FpFmt) : Statement (.fcmpLe d a b t) := by
  intro hwf word hw
  replace hwf : (d < 32 && a < 32 && b < 32 : Bool) = true := hwf
  simp only [Bool.and_eq_true, decide_eq_true_eq] at hwf
  have b_d : d < 32 := hwf.1.1
  have b_a : a < 32 := hwf.1.2
  have b_b : b < 32 := hwf.2
  replace hw : 0x6c000002 + d * 2 ^ 21 + a * 2 ^ 16 + b * 2 ^ 11 + t.code * 2 ^ 9 = word := Option.some.inj hw
  have f26_6 : Sys2Proof.fld word 26 6 = 27 := Sys2Proof.Laws.Field.bits26w6_of_21w5_16w5_11w5_9w2 0x6c000002 d a b t.code word hw b_d b_a b_b (formatCode_lt t) rfl rfl rfl rfl
  have f0_3 : Sys2Proof.fld word 0 3 = 2 := Sys2Proof.Laws.Field.bits0w3_of_21w5_16w5_11w5_9w2 0x6c000002 d a b t.code word hw
  have f3_6 : Sys2Proof.fld word 3 6 = 0 := Sys2Proof.Laws.Field.bits3w6_of_21w5_16w5_11w5_9w2 0x6c000002 d a b t.code word hw
  have f21_5 : Sys2Proof.fld word 21 5 = d := Sys2Proof.Laws.Field.bits21w5_of_21w5_16w5_11w5_9w2 0x6c000002 d a b t.code word hw b_d b_a b_b (formatCode_lt t) rfl rfl rfl rfl
  have f16_5 : Sys2Proof.fld word 16 5 = a := Sys2Proof.Laws.Field.bits16w5_of_21w5_16w5_11w5_9w2 0x6c000002 d a b t.code word hw b_a b_b (formatCode_lt t) rfl rfl rfl
  have f11_5 : Sys2Proof.fld word 11 5 = b := Sys2Proof.Laws.Field.bits11w5_of_21w5_16w5_11w5_9w2 0x6c000002 d a b t.code word hw b_b (formatCode_lt t) rfl rfl
  have f9_2 : Sys2Proof.fld word 9 2 = t.code := Sys2Proof.Laws.Field.bits9w2_of_21w5_16w5_11w5_9w2 0x6c000002 d a b t.code word hw (formatCode_lt t) rfl
  rw [major1B word f26_6]
  unfold decodeMajor1B
  rw [f0_3, f3_6, f21_5, f16_5, f11_5, f9_2, formatCode t]; try rfl
theorem fcmpUnord (d : Nat) (a : Nat) (b : Nat) (t : FpFmt) : Statement (.fcmpUnord d a b t) := by
  intro hwf word hw
  replace hwf : (d < 32 && a < 32 && b < 32 : Bool) = true := hwf
  simp only [Bool.and_eq_true, decide_eq_true_eq] at hwf
  have b_d : d < 32 := hwf.1.1
  have b_a : a < 32 := hwf.1.2
  have b_b : b < 32 := hwf.2
  replace hw : 0x6c000003 + d * 2 ^ 21 + a * 2 ^ 16 + b * 2 ^ 11 + t.code * 2 ^ 9 = word := Option.some.inj hw
  have f26_6 : Sys2Proof.fld word 26 6 = 27 := Sys2Proof.Laws.Field.bits26w6_of_21w5_16w5_11w5_9w2 0x6c000003 d a b t.code word hw b_d b_a b_b (formatCode_lt t) rfl rfl rfl rfl
  have f0_3 : Sys2Proof.fld word 0 3 = 3 := Sys2Proof.Laws.Field.bits0w3_of_21w5_16w5_11w5_9w2 0x6c000003 d a b t.code word hw
  have f3_6 : Sys2Proof.fld word 3 6 = 0 := Sys2Proof.Laws.Field.bits3w6_of_21w5_16w5_11w5_9w2 0x6c000003 d a b t.code word hw
  have f21_5 : Sys2Proof.fld word 21 5 = d := Sys2Proof.Laws.Field.bits21w5_of_21w5_16w5_11w5_9w2 0x6c000003 d a b t.code word hw b_d b_a b_b (formatCode_lt t) rfl rfl rfl rfl
  have f16_5 : Sys2Proof.fld word 16 5 = a := Sys2Proof.Laws.Field.bits16w5_of_21w5_16w5_11w5_9w2 0x6c000003 d a b t.code word hw b_a b_b (formatCode_lt t) rfl rfl rfl
  have f11_5 : Sys2Proof.fld word 11 5 = b := Sys2Proof.Laws.Field.bits11w5_of_21w5_16w5_11w5_9w2 0x6c000003 d a b t.code word hw b_b (formatCode_lt t) rfl rfl
  have f9_2 : Sys2Proof.fld word 9 2 = t.code := Sys2Proof.Laws.Field.bits9w2_of_21w5_16w5_11w5_9w2 0x6c000003 d a b t.code word hw (formatCode_lt t) rfl
  rw [major1B word f26_6]
  unfold decodeMajor1B
  rw [f0_3, f3_6, f21_5, f16_5, f11_5, f9_2, formatCode t]; try rfl
theorem csrr (d : Nat) (n : Nat) : Statement (.csrr d n) := by
  intro hwf word hw
  replace hwf : (d < 32 && n < 256 : Bool) = true := hwf
  simp only [Bool.and_eq_true, decide_eq_true_eq] at hwf
  have b_d : d < 32 := hwf.1
  have b_n : n < 256 := hwf.2
  replace hw : 0x70000000 + d * 2 ^ 21 + n * 2 ^ 0 = word := Option.some.inj hw
  have f26_6 : Sys2Proof.fld word 26 6 = 28 := Sys2Proof.Laws.Field.bits26w6_of_21w5_0w8 0x70000000 d n word hw b_d b_n rfl rfl
  have f11_5 : Sys2Proof.fld word 11 5 = 0 := Sys2Proof.Laws.Field.bits11w5_of_21w5_0w8 0x70000000 d n word hw b_n rfl
  have f16_5 : Sys2Proof.fld word 16 5 = 0 := Sys2Proof.Laws.Field.bits16w5_of_21w5_0w8 0x70000000 d n word hw b_n rfl
  have f8_3 : Sys2Proof.fld word 8 3 = 0 := Sys2Proof.Laws.Field.bits8w3_of_21w5_0w8 0x70000000 d n word hw b_n rfl
  have f21_5 : Sys2Proof.fld word 21 5 = d := Sys2Proof.Laws.Field.bits21w5_of_21w5_0w8 0x70000000 d n word hw b_d b_n rfl rfl
  have f0_8 : Sys2Proof.fld word 0 8 = n := Sys2Proof.Laws.Field.bits0w8_of_21w5_0w8 0x70000000 d n word hw b_n rfl
  rw [major1C word f26_6]
  unfold decodeMajor1C
  rw [f11_5, f16_5, f8_3, f21_5, f0_8]; try rfl
theorem csrw (a : Nat) (n : Nat) : Statement (.csrw a n) := by
  intro hwf word hw
  replace hwf : (a < 32 && n < 256 : Bool) = true := hwf
  simp only [Bool.and_eq_true, decide_eq_true_eq] at hwf
  have b_a : a < 32 := hwf.1
  have b_n : n < 256 := hwf.2
  replace hw : 0x70000800 + a * 2 ^ 16 + n * 2 ^ 0 = word := Option.some.inj hw
  have f26_6 : Sys2Proof.fld word 26 6 = 28 := Sys2Proof.Laws.Field.bits26w6_of_16w5_0w8 0x70000800 a n word hw b_a b_n rfl rfl
  have f11_5 : Sys2Proof.fld word 11 5 = 1 := Sys2Proof.Laws.Field.bits11w5_of_16w5_0w8 0x70000800 a n word hw b_n rfl
  have f21_5 : Sys2Proof.fld word 21 5 = 0 := Sys2Proof.Laws.Field.bits21w5_of_16w5_0w8 0x70000800 a n word hw b_a b_n rfl rfl
  have f8_3 : Sys2Proof.fld word 8 3 = 0 := Sys2Proof.Laws.Field.bits8w3_of_16w5_0w8 0x70000800 a n word hw b_n rfl
  have f16_5 : Sys2Proof.fld word 16 5 = a := Sys2Proof.Laws.Field.bits16w5_of_16w5_0w8 0x70000800 a n word hw b_a b_n rfl rfl
  have f0_8 : Sys2Proof.fld word 0 8 = n := Sys2Proof.Laws.Field.bits0w8_of_16w5_0w8 0x70000800 a n word hw b_n rfl
  rw [major1C word f26_6]
  unfold decodeMajor1C
  rw [f11_5, f21_5, f8_3, f16_5, f0_8]; try rfl
theorem csrs (a : Nat) (n : Nat) : Statement (.csrs a n) := by
  intro hwf word hw
  replace hwf : (a < 32 && n < 256 : Bool) = true := hwf
  simp only [Bool.and_eq_true, decide_eq_true_eq] at hwf
  have b_a : a < 32 := hwf.1
  have b_n : n < 256 := hwf.2
  replace hw : 0x70001000 + a * 2 ^ 16 + n * 2 ^ 0 = word := Option.some.inj hw
  have f26_6 : Sys2Proof.fld word 26 6 = 28 := Sys2Proof.Laws.Field.bits26w6_of_16w5_0w8 0x70001000 a n word hw b_a b_n rfl rfl
  have f11_5 : Sys2Proof.fld word 11 5 = 2 := Sys2Proof.Laws.Field.bits11w5_of_16w5_0w8 0x70001000 a n word hw b_n rfl
  have f21_5 : Sys2Proof.fld word 21 5 = 0 := Sys2Proof.Laws.Field.bits21w5_of_16w5_0w8 0x70001000 a n word hw b_a b_n rfl rfl
  have f8_3 : Sys2Proof.fld word 8 3 = 0 := Sys2Proof.Laws.Field.bits8w3_of_16w5_0w8 0x70001000 a n word hw b_n rfl
  have f16_5 : Sys2Proof.fld word 16 5 = a := Sys2Proof.Laws.Field.bits16w5_of_16w5_0w8 0x70001000 a n word hw b_a b_n rfl rfl
  have f0_8 : Sys2Proof.fld word 0 8 = n := Sys2Proof.Laws.Field.bits0w8_of_16w5_0w8 0x70001000 a n word hw b_n rfl
  rw [major1C word f26_6]
  unfold decodeMajor1C
  rw [f11_5, f21_5, f8_3, f16_5, f0_8]; try rfl
theorem csrc (a : Nat) (n : Nat) : Statement (.csrc a n) := by
  intro hwf word hw
  replace hwf : (a < 32 && n < 256 : Bool) = true := hwf
  simp only [Bool.and_eq_true, decide_eq_true_eq] at hwf
  have b_a : a < 32 := hwf.1
  have b_n : n < 256 := hwf.2
  replace hw : 0x70001800 + a * 2 ^ 16 + n * 2 ^ 0 = word := Option.some.inj hw
  have f26_6 : Sys2Proof.fld word 26 6 = 28 := Sys2Proof.Laws.Field.bits26w6_of_16w5_0w8 0x70001800 a n word hw b_a b_n rfl rfl
  have f11_5 : Sys2Proof.fld word 11 5 = 3 := Sys2Proof.Laws.Field.bits11w5_of_16w5_0w8 0x70001800 a n word hw b_n rfl
  have f21_5 : Sys2Proof.fld word 21 5 = 0 := Sys2Proof.Laws.Field.bits21w5_of_16w5_0w8 0x70001800 a n word hw b_a b_n rfl rfl
  have f8_3 : Sys2Proof.fld word 8 3 = 0 := Sys2Proof.Laws.Field.bits8w3_of_16w5_0w8 0x70001800 a n word hw b_n rfl
  have f16_5 : Sys2Proof.fld word 16 5 = a := Sys2Proof.Laws.Field.bits16w5_of_16w5_0w8 0x70001800 a n word hw b_a b_n rfl rfl
  have f0_8 : Sys2Proof.fld word 0 8 = n := Sys2Proof.Laws.Field.bits0w8_of_16w5_0w8 0x70001800 a n word hw b_n rfl
  rw [major1C word f26_6]
  unfold decodeMajor1C
  rw [f11_5, f21_5, f8_3, f16_5, f0_8]; try rfl
theorem setvli (d : Nat) (a : Nat) (v : BitVec 7) : Statement (.setvli d a v) := by
  intro hwf word hw
  replace hwf : (d < 32 && a < 32 : Bool) = true := hwf
  simp only [Bool.and_eq_true, decide_eq_true_eq] at hwf
  have b_d : d < 32 := hwf.1
  have b_a : a < 32 := hwf.2
  replace hw : 0x74000000 + d * 2 ^ 21 + a * 2 ^ 16 + v.toNat * 2 ^ 0 = word := Option.some.inj hw
  have f26_6 : Sys2Proof.fld word 26 6 = 29 := Sys2Proof.Laws.Field.bits26w6_of_21w5_16w5_0w7 0x74000000 d a v.toNat word hw b_d b_a v.isLt rfl rfl rfl
  have f7_9 : Sys2Proof.fld word 7 9 = 0 := Sys2Proof.Laws.Field.bits7w9_of_21w5_16w5_0w7 0x74000000 d a v.toNat word hw v.isLt rfl
  have f21_5 : Sys2Proof.fld word 21 5 = d := Sys2Proof.Laws.Field.bits21w5_of_21w5_16w5_0w7 0x74000000 d a v.toNat word hw b_d b_a v.isLt rfl rfl rfl
  have f16_5 : Sys2Proof.fld word 16 5 = a := Sys2Proof.Laws.Field.bits16w5_of_21w5_16w5_0w7 0x74000000 d a v.toNat word hw b_a v.isLt rfl rfl
  have f0_7 : Sys2Proof.fld word 0 7 = v.toNat := Sys2Proof.Laws.Field.bits0w7_of_21w5_16w5_0w7 0x74000000 d a v.toNat word hw v.isLt rfl
  rw [major1D word f26_6]
  unfold decodeMajor1D
  rw [f7_9, f21_5, f16_5, f0_7, wordBits v]; try rfl
theorem fork (d : Nat) (i : BitVec 16) : Statement (.fork d i) := by
  intro hwf word hw
  replace hwf : (d < 32 : Bool) = true := hwf
  simp only [decide_eq_true_eq] at hwf
  have b_d : d < 32 := hwf
  replace hw : 0x78000000 + d * 2 ^ 21 + i.toNat * 2 ^ 0 = word := Option.some.inj hw
  have f26_6 : Sys2Proof.fld word 26 6 = 30 := Sys2Proof.Laws.Field.bits26w6_of_21w5_0w16 0x78000000 d i.toNat word hw b_d i.isLt rfl rfl
  have f16_5 : Sys2Proof.fld word 16 5 = 0 := Sys2Proof.Laws.Field.bits16w5_of_21w5_0w16 0x78000000 d i.toNat word hw i.isLt rfl
  have f21_5 : Sys2Proof.fld word 21 5 = d := Sys2Proof.Laws.Field.bits21w5_of_21w5_0w16 0x78000000 d i.toNat word hw b_d i.isLt rfl rfl
  have f0_16 : Sys2Proof.fld word 0 16 = i.toNat := Sys2Proof.Laws.Field.bits0w16_of_21w5_0w16 0x78000000 d i.toNat word hw i.isLt rfl
  rw [major1E word f26_6]
  unfold decodeMajor1E
  rw [f16_5, f21_5, f0_16, wordBits i]; try rfl
theorem setvl (d : Nat) (a : Nat) (b : Nat) : Statement (.setvl d a b) := by
  intro hwf word hw
  replace hwf : (d < 32 && a < 32 && b < 32 : Bool) = true := hwf
  simp only [Bool.and_eq_true, decide_eq_true_eq] at hwf
  have b_d : d < 32 := hwf.1.1
  have b_a : a < 32 := hwf.1.2
  have b_b : b < 32 := hwf.2
  replace hw : 0x7c000000 + d * 2 ^ 21 + a * 2 ^ 16 + b * 2 ^ 6 = word := Option.some.inj hw
  have f26_6 : Sys2Proof.fld word 26 6 = 31 := Sys2Proof.Laws.Field.bits26w6_of_21w5_16w5_6w5 0x7c000000 d a b word hw b_d b_a b_b rfl rfl rfl
  have f11_5 : Sys2Proof.fld word 11 5 = 0 := Sys2Proof.Laws.Field.bits11w5_of_21w5_16w5_6w5 0x7c000000 d a b word hw b_b rfl
  have f0_6 : Sys2Proof.fld word 0 6 = 0 := Sys2Proof.Laws.Field.bits0w6_of_21w5_16w5_6w5 0x7c000000 d a b word hw
  have f21_5 : Sys2Proof.fld word 21 5 = d := Sys2Proof.Laws.Field.bits21w5_of_21w5_16w5_6w5 0x7c000000 d a b word hw b_d b_a b_b rfl rfl rfl
  have f16_5 : Sys2Proof.fld word 16 5 = a := Sys2Proof.Laws.Field.bits16w5_of_21w5_16w5_6w5 0x7c000000 d a b word hw b_a b_b rfl rfl
  have f6_5 : Sys2Proof.fld word 6 5 = b := Sys2Proof.Laws.Field.bits6w5_of_21w5_16w5_6w5 0x7c000000 d a b word hw b_b rfl
  rw [major1F word f26_6]
  unfold decodeMajor1F
  rw [f11_5, f0_6, f21_5, f16_5, f6_5]; try rfl
theorem nexti (d : Nat) : Statement (.nexti d) := by
  intro hwf word hw
  replace hwf : (d < 32 : Bool) = true := hwf
  simp only [decide_eq_true_eq] at hwf
  have b_d : d < 32 := hwf
  replace hw : 0x7c000800 + d * 2 ^ 21 = word := Option.some.inj hw
  have f26_6 : Sys2Proof.fld word 26 6 = 31 := Sys2Proof.Laws.Field.bits26w6_of_21w5 0x7c000800 d word hw b_d rfl
  have f11_5 : Sys2Proof.fld word 11 5 = 1 := Sys2Proof.Laws.Field.bits11w5_of_21w5 0x7c000800 d word hw
  have f16_5 : Sys2Proof.fld word 16 5 = 0 := Sys2Proof.Laws.Field.bits16w5_of_21w5 0x7c000800 d word hw
  have f0_11 : Sys2Proof.fld word 0 11 = 0 := Sys2Proof.Laws.Field.bits0w11_of_21w5 0x7c000800 d word hw
  have f21_5 : Sys2Proof.fld word 21 5 = d := Sys2Proof.Laws.Field.bits21w5_of_21w5 0x7c000800 d word hw b_d rfl
  rw [major1F word f26_6]
  unfold decodeMajor1F
  rw [f11_5, f16_5, f0_11, f21_5]; try rfl
theorem join (x : Nat) : Statement (.join x) := by
  intro hwf word hw
  replace hwf : (x < 32 : Bool) = true := hwf
  simp only [decide_eq_true_eq] at hwf
  have b_x : x < 32 := hwf
  replace hw : 0x7c001000 + x * 2 ^ 21 = word := Option.some.inj hw
  have f26_6 : Sys2Proof.fld word 26 6 = 31 := Sys2Proof.Laws.Field.bits26w6_of_21w5 0x7c001000 x word hw b_x rfl
  have f11_5 : Sys2Proof.fld word 11 5 = 2 := Sys2Proof.Laws.Field.bits11w5_of_21w5 0x7c001000 x word hw
  have f16_5 : Sys2Proof.fld word 16 5 = 0 := Sys2Proof.Laws.Field.bits16w5_of_21w5 0x7c001000 x word hw
  have f0_11 : Sys2Proof.fld word 0 11 = 0 := Sys2Proof.Laws.Field.bits0w11_of_21w5 0x7c001000 x word hw
  have f21_5 : Sys2Proof.fld word 21 5 = x := Sys2Proof.Laws.Field.bits21w5_of_21w5 0x7c001000 x word hw b_x rfl
  rw [major1F word f26_6]
  unfold decodeMajor1F
  rw [f11_5, f16_5, f0_11, f21_5]; try rfl
theorem gear (g : Nat) : Statement (.gear g) := by
  intro hwf word hw
  replace hwf : (g < 32 : Bool) = true := hwf
  simp only [decide_eq_true_eq] at hwf
  have b_g : g < 32 := hwf
  replace hw : 0x7c001800 + g * 2 ^ 0 = word := Option.some.inj hw
  have f26_6 : Sys2Proof.fld word 26 6 = 31 := Sys2Proof.Laws.Field.bits26w6_of_0w5 0x7c001800 g word hw b_g rfl
  have f11_5 : Sys2Proof.fld word 11 5 = 3 := Sys2Proof.Laws.Field.bits11w5_of_0w5 0x7c001800 g word hw b_g rfl
  have f16_10 : Sys2Proof.fld word 16 10 = 0 := Sys2Proof.Laws.Field.bits16w10_of_0w5 0x7c001800 g word hw b_g rfl
  have f5_6 : Sys2Proof.fld word 5 6 = 0 := Sys2Proof.Laws.Field.bits5w6_of_0w5 0x7c001800 g word hw b_g rfl
  have f0_5 : Sys2Proof.fld word 0 5 = g := Sys2Proof.Laws.Field.bits0w5_of_0w5 0x7c001800 g word hw b_g rfl
  rw [major1F word f26_6]
  unfold decodeMajor1F
  rw [f11_5, f16_10, f5_6, f0_5]; try rfl
theorem gearauto (g : Nat) : Statement (.gearauto g) := by
  intro hwf word hw
  replace hwf : (g < 32 : Bool) = true := hwf
  simp only [decide_eq_true_eq] at hwf
  have b_g : g < 32 := hwf
  replace hw : 0x7c002000 + g * 2 ^ 0 = word := Option.some.inj hw
  have f26_6 : Sys2Proof.fld word 26 6 = 31 := Sys2Proof.Laws.Field.bits26w6_of_0w5 0x7c002000 g word hw b_g rfl
  have f11_5 : Sys2Proof.fld word 11 5 = 4 := Sys2Proof.Laws.Field.bits11w5_of_0w5 0x7c002000 g word hw b_g rfl
  have f16_10 : Sys2Proof.fld word 16 10 = 0 := Sys2Proof.Laws.Field.bits16w10_of_0w5 0x7c002000 g word hw b_g rfl
  have f5_6 : Sys2Proof.fld word 5 6 = 0 := Sys2Proof.Laws.Field.bits5w6_of_0w5 0x7c002000 g word hw b_g rfl
  have f0_5 : Sys2Proof.fld word 0 5 = g := Sys2Proof.Laws.Field.bits0w5_of_0w5 0x7c002000 g word hw b_g rfl
  rw [major1F word f26_6]
  unfold decodeMajor1F
  rw [f11_5, f16_10, f5_6, f0_5]; try rfl
theorem waitt (a : Nat) : Statement (.waitt a) := by
  intro hwf word hw
  replace hwf : (a < 32 : Bool) = true := hwf
  simp only [decide_eq_true_eq] at hwf
  have b_a : a < 32 := hwf
  replace hw : 0x7c002800 + a * 2 ^ 16 = word := Option.some.inj hw
  have f26_6 : Sys2Proof.fld word 26 6 = 31 := Sys2Proof.Laws.Field.bits26w6_of_16w5 0x7c002800 a word hw b_a rfl
  have f11_5 : Sys2Proof.fld word 11 5 = 5 := Sys2Proof.Laws.Field.bits11w5_of_16w5 0x7c002800 a word hw
  have f21_5 : Sys2Proof.fld word 21 5 = 0 := Sys2Proof.Laws.Field.bits21w5_of_16w5 0x7c002800 a word hw b_a rfl
  have f0_11 : Sys2Proof.fld word 0 11 = 0 := Sys2Proof.Laws.Field.bits0w11_of_16w5 0x7c002800 a word hw
  have f16_5 : Sys2Proof.fld word 16 5 = a := Sys2Proof.Laws.Field.bits16w5_of_16w5 0x7c002800 a word hw b_a rfl
  rw [major1F word f26_6]
  unfold decodeMajor1F
  rw [f11_5, f21_5, f0_11, f16_5]; try rfl
theorem bara (a : Nat) (scope : Nat) : Statement (.bara a scope) := by
  intro hwf word hw
  replace hwf : (a < 32 && scope < 8 : Bool) = true := hwf
  simp only [Bool.and_eq_true, decide_eq_true_eq] at hwf
  have b_a : a < 32 := hwf.1
  have b_scope : scope < 8 := hwf.2
  replace hw : 0x7c003000 + a * 2 ^ 16 + scope * 2 ^ 0 = word := Option.some.inj hw
  have f26_6 : Sys2Proof.fld word 26 6 = 31 := Sys2Proof.Laws.Field.bits26w6_of_16w5_0w3 0x7c003000 a scope word hw b_a b_scope rfl rfl
  have f11_5 : Sys2Proof.fld word 11 5 = 6 := Sys2Proof.Laws.Field.bits11w5_of_16w5_0w3 0x7c003000 a scope word hw b_scope rfl
  have f21_5 : Sys2Proof.fld word 21 5 = 0 := Sys2Proof.Laws.Field.bits21w5_of_16w5_0w3 0x7c003000 a scope word hw b_a b_scope rfl rfl
  have f3_8 : Sys2Proof.fld word 3 8 = 0 := Sys2Proof.Laws.Field.bits3w8_of_16w5_0w3 0x7c003000 a scope word hw b_scope rfl
  have f16_5 : Sys2Proof.fld word 16 5 = a := Sys2Proof.Laws.Field.bits16w5_of_16w5_0w3 0x7c003000 a scope word hw b_a b_scope rfl rfl
  have f0_3 : Sys2Proof.fld word 0 3 = scope := Sys2Proof.Laws.Field.bits0w3_of_16w5_0w3 0x7c003000 a scope word hw b_scope rfl
  rw [major1F word f26_6]
  unfold decodeMajor1F
  rw [f11_5, f21_5, f3_8, f16_5, f0_3]; try rfl
theorem barw (a : Nat) : Statement (.barw a) := by
  intro hwf word hw
  replace hwf : (a < 32 : Bool) = true := hwf
  simp only [decide_eq_true_eq] at hwf
  have b_a : a < 32 := hwf
  replace hw : 0x7c003800 + a * 2 ^ 16 = word := Option.some.inj hw
  have f26_6 : Sys2Proof.fld word 26 6 = 31 := Sys2Proof.Laws.Field.bits26w6_of_16w5 0x7c003800 a word hw b_a rfl
  have f11_5 : Sys2Proof.fld word 11 5 = 7 := Sys2Proof.Laws.Field.bits11w5_of_16w5 0x7c003800 a word hw
  have f21_5 : Sys2Proof.fld word 21 5 = 0 := Sys2Proof.Laws.Field.bits21w5_of_16w5 0x7c003800 a word hw b_a rfl
  have f0_11 : Sys2Proof.fld word 0 11 = 0 := Sys2Proof.Laws.Field.bits0w11_of_16w5 0x7c003800 a word hw
  have f16_5 : Sys2Proof.fld word 16 5 = a := Sys2Proof.Laws.Field.bits16w5_of_16w5 0x7c003800 a word hw b_a rfl
  rw [major1F word f26_6]
  unfold decodeMajor1F
  rw [f11_5, f21_5, f0_11, f16_5]; try rfl
theorem fence (paths : BitVec 6) (scope : Nat) : Statement (.fence paths scope) := by
  intro hwf word hw
  replace hwf : (scope < 8 : Bool) = true := hwf
  simp only [decide_eq_true_eq] at hwf
  have b_scope : scope < 8 := hwf
  replace hw : 0x7c004000 + paths.toNat * 2 ^ 5 + scope * 2 ^ 0 = word := Option.some.inj hw
  have f26_6 : Sys2Proof.fld word 26 6 = 31 := Sys2Proof.Laws.Field.bits26w6_of_5w6_0w3 0x7c004000 paths.toNat scope word hw paths.isLt b_scope rfl rfl
  have f11_5 : Sys2Proof.fld word 11 5 = 8 := Sys2Proof.Laws.Field.bits11w5_of_5w6_0w3 0x7c004000 paths.toNat scope word hw paths.isLt b_scope rfl rfl
  have f16_10 : Sys2Proof.fld word 16 10 = 0 := Sys2Proof.Laws.Field.bits16w10_of_5w6_0w3 0x7c004000 paths.toNat scope word hw paths.isLt b_scope rfl rfl
  have f3_2 : Sys2Proof.fld word 3 2 = 0 := Sys2Proof.Laws.Field.bits3w2_of_5w6_0w3 0x7c004000 paths.toNat scope word hw b_scope rfl
  have f5_6 : Sys2Proof.fld word 5 6 = paths.toNat := Sys2Proof.Laws.Field.bits5w6_of_5w6_0w3 0x7c004000 paths.toNat scope word hw paths.isLt b_scope rfl rfl
  have f0_3 : Sys2Proof.fld word 0 3 = scope := Sys2Proof.Laws.Field.bits0w3_of_5w6_0w3 0x7c004000 paths.toNat scope word hw b_scope rfl
  rw [major1F word f26_6]
  unfold decodeMajor1F
  rw [f11_5, f16_10, f3_2, f5_6, f0_3, wordBits paths]; try rfl
theorem svc (code : BitVec 11) : Statement (.svc code) := by
  intro hwf word hw
  replace hw : 0x7c004800 + code.toNat * 2 ^ 0 = word := Option.some.inj hw
  have f26_6 : Sys2Proof.fld word 26 6 = 31 := Sys2Proof.Laws.Field.bits26w6_of_0w11 0x7c004800 code.toNat word hw code.isLt rfl
  have f11_5 : Sys2Proof.fld word 11 5 = 9 := Sys2Proof.Laws.Field.bits11w5_of_0w11 0x7c004800 code.toNat word hw code.isLt rfl
  have f16_10 : Sys2Proof.fld word 16 10 = 0 := Sys2Proof.Laws.Field.bits16w10_of_0w11 0x7c004800 code.toNat word hw code.isLt rfl
  have f0_11 : Sys2Proof.fld word 0 11 = code.toNat := Sys2Proof.Laws.Field.bits0w11_of_0w11 0x7c004800 code.toNat word hw code.isLt rfl
  rw [major1F word f26_6]
  unfold decodeMajor1F
  rw [f11_5, f16_10, f0_11, wordBits code]; try rfl
theorem eret : Statement (.eret) := by
  intro hwf word hw
  replace hw : 0x7c005000 = word := Option.some.inj hw
  have f26_6 : Sys2Proof.fld word 26 6 = 31 := Sys2Proof.Laws.Field.bits26w6_of_none 0x7c005000 word hw
  have f11_5 : Sys2Proof.fld word 11 5 = 10 := Sys2Proof.Laws.Field.bits11w5_of_none 0x7c005000 word hw
  have f16_10 : Sys2Proof.fld word 16 10 = 0 := Sys2Proof.Laws.Field.bits16w10_of_none 0x7c005000 word hw
  have f0_11 : Sys2Proof.fld word 0 11 = 0 := Sys2Proof.Laws.Field.bits0w11_of_none 0x7c005000 word hw
  rw [major1F word f26_6]
  unfold decodeMajor1F
  rw [f11_5, f16_10, f0_11]; try rfl
theorem idle : Statement (.idle) := by
  intro hwf word hw
  replace hw : 0x7c005800 = word := Option.some.inj hw
  have f26_6 : Sys2Proof.fld word 26 6 = 31 := Sys2Proof.Laws.Field.bits26w6_of_none 0x7c005800 word hw
  have f11_5 : Sys2Proof.fld word 11 5 = 11 := Sys2Proof.Laws.Field.bits11w5_of_none 0x7c005800 word hw
  have f16_10 : Sys2Proof.fld word 16 10 = 0 := Sys2Proof.Laws.Field.bits16w10_of_none 0x7c005800 word hw
  have f0_11 : Sys2Proof.fld word 0 11 = 0 := Sys2Proof.Laws.Field.bits0w11_of_none 0x7c005800 word hw
  rw [major1F word f26_6]
  unfold decodeMajor1F
  rw [f11_5, f16_10, f0_11]; try rfl
theorem exit : Statement (.exit) := by
  intro hwf word hw
  replace hw : 0x7c006000 = word := Option.some.inj hw
  have f26_6 : Sys2Proof.fld word 26 6 = 31 := Sys2Proof.Laws.Field.bits26w6_of_none 0x7c006000 word hw
  have f11_5 : Sys2Proof.fld word 11 5 = 12 := Sys2Proof.Laws.Field.bits11w5_of_none 0x7c006000 word hw
  have f16_10 : Sys2Proof.fld word 16 10 = 0 := Sys2Proof.Laws.Field.bits16w10_of_none 0x7c006000 word hw
  have f0_11 : Sys2Proof.fld word 0 11 = 0 := Sys2Proof.Laws.Field.bits0w11_of_none 0x7c006000 word hw
  rw [major1F word f26_6]
  unfold decodeMajor1F
  rw [f11_5, f16_10, f0_11]; try rfl
theorem vaddVv (d : Nat) (a : Nat) (b : Nat) (k : Nat) : Statement (.vaddVv d a b k) := by
  intro hwf word hw
  replace hwf : (d < 32 && a < 32 && b < 32 && k < 8 : Bool) = true := hwf
  simp only [Bool.and_eq_true, decide_eq_true_eq] at hwf
  have b_d : d < 32 := hwf.1.1.1
  have b_a : a < 32 := hwf.1.1.2
  have b_b : b < 32 := hwf.1.2
  have b_k : k < 8 := hwf.2
  replace hw : 0x80000000 + d * 2 ^ 21 + a * 2 ^ 16 + b * 2 ^ 11 + k * 2 ^ 8 = word := Option.some.inj hw
  have f26_6 : Sys2Proof.fld word 26 6 = 32 := Sys2Proof.Laws.Field.bits26w6_of_21w5_16w5_11w5_8w3 0x80000000 d a b k word hw b_d b_a b_b b_k rfl rfl rfl rfl
  have f0_8 : Sys2Proof.fld word 0 8 = 0 := Sys2Proof.Laws.Field.bits0w8_of_21w5_16w5_11w5_8w3 0x80000000 d a b k word hw
  have f21_5 : Sys2Proof.fld word 21 5 = d := Sys2Proof.Laws.Field.bits21w5_of_21w5_16w5_11w5_8w3 0x80000000 d a b k word hw b_d b_a b_b b_k rfl rfl rfl rfl
  have f16_5 : Sys2Proof.fld word 16 5 = a := Sys2Proof.Laws.Field.bits16w5_of_21w5_16w5_11w5_8w3 0x80000000 d a b k word hw b_a b_b b_k rfl rfl rfl
  have f11_5 : Sys2Proof.fld word 11 5 = b := Sys2Proof.Laws.Field.bits11w5_of_21w5_16w5_11w5_8w3 0x80000000 d a b k word hw b_b b_k rfl rfl
  have f8_3 : Sys2Proof.fld word 8 3 = k := Sys2Proof.Laws.Field.bits8w3_of_21w5_16w5_11w5_8w3 0x80000000 d a b k word hw b_k rfl
  rw [major20 word f26_6]
  unfold decodeMajor20
  rw [f0_8, f21_5, f16_5, f11_5, f8_3]; try rfl
theorem vsubVv (d : Nat) (a : Nat) (b : Nat) (k : Nat) : Statement (.vsubVv d a b k) := by
  intro hwf word hw
  replace hwf : (d < 32 && a < 32 && b < 32 && k < 8 : Bool) = true := hwf
  simp only [Bool.and_eq_true, decide_eq_true_eq] at hwf
  have b_d : d < 32 := hwf.1.1.1
  have b_a : a < 32 := hwf.1.1.2
  have b_b : b < 32 := hwf.1.2
  have b_k : k < 8 := hwf.2
  replace hw : 0x80000001 + d * 2 ^ 21 + a * 2 ^ 16 + b * 2 ^ 11 + k * 2 ^ 8 = word := Option.some.inj hw
  have f26_6 : Sys2Proof.fld word 26 6 = 32 := Sys2Proof.Laws.Field.bits26w6_of_21w5_16w5_11w5_8w3 0x80000001 d a b k word hw b_d b_a b_b b_k rfl rfl rfl rfl
  have f0_8 : Sys2Proof.fld word 0 8 = 1 := Sys2Proof.Laws.Field.bits0w8_of_21w5_16w5_11w5_8w3 0x80000001 d a b k word hw
  have f21_5 : Sys2Proof.fld word 21 5 = d := Sys2Proof.Laws.Field.bits21w5_of_21w5_16w5_11w5_8w3 0x80000001 d a b k word hw b_d b_a b_b b_k rfl rfl rfl rfl
  have f16_5 : Sys2Proof.fld word 16 5 = a := Sys2Proof.Laws.Field.bits16w5_of_21w5_16w5_11w5_8w3 0x80000001 d a b k word hw b_a b_b b_k rfl rfl rfl
  have f11_5 : Sys2Proof.fld word 11 5 = b := Sys2Proof.Laws.Field.bits11w5_of_21w5_16w5_11w5_8w3 0x80000001 d a b k word hw b_b b_k rfl rfl
  have f8_3 : Sys2Proof.fld word 8 3 = k := Sys2Proof.Laws.Field.bits8w3_of_21w5_16w5_11w5_8w3 0x80000001 d a b k word hw b_k rfl
  rw [major20 word f26_6]
  unfold decodeMajor20
  rw [f0_8, f21_5, f16_5, f11_5, f8_3]; try rfl
theorem vmulVv (d : Nat) (a : Nat) (b : Nat) (k : Nat) : Statement (.vmulVv d a b k) := by
  intro hwf word hw
  replace hwf : (d < 32 && a < 32 && b < 32 && k < 8 : Bool) = true := hwf
  simp only [Bool.and_eq_true, decide_eq_true_eq] at hwf
  have b_d : d < 32 := hwf.1.1.1
  have b_a : a < 32 := hwf.1.1.2
  have b_b : b < 32 := hwf.1.2
  have b_k : k < 8 := hwf.2
  replace hw : 0x80000002 + d * 2 ^ 21 + a * 2 ^ 16 + b * 2 ^ 11 + k * 2 ^ 8 = word := Option.some.inj hw
  have f26_6 : Sys2Proof.fld word 26 6 = 32 := Sys2Proof.Laws.Field.bits26w6_of_21w5_16w5_11w5_8w3 0x80000002 d a b k word hw b_d b_a b_b b_k rfl rfl rfl rfl
  have f0_8 : Sys2Proof.fld word 0 8 = 2 := Sys2Proof.Laws.Field.bits0w8_of_21w5_16w5_11w5_8w3 0x80000002 d a b k word hw
  have f21_5 : Sys2Proof.fld word 21 5 = d := Sys2Proof.Laws.Field.bits21w5_of_21w5_16w5_11w5_8w3 0x80000002 d a b k word hw b_d b_a b_b b_k rfl rfl rfl rfl
  have f16_5 : Sys2Proof.fld word 16 5 = a := Sys2Proof.Laws.Field.bits16w5_of_21w5_16w5_11w5_8w3 0x80000002 d a b k word hw b_a b_b b_k rfl rfl rfl
  have f11_5 : Sys2Proof.fld word 11 5 = b := Sys2Proof.Laws.Field.bits11w5_of_21w5_16w5_11w5_8w3 0x80000002 d a b k word hw b_b b_k rfl rfl
  have f8_3 : Sys2Proof.fld word 8 3 = k := Sys2Proof.Laws.Field.bits8w3_of_21w5_16w5_11w5_8w3 0x80000002 d a b k word hw b_k rfl
  rw [major20 word f26_6]
  unfold decodeMajor20
  rw [f0_8, f21_5, f16_5, f11_5, f8_3]; try rfl
theorem vmulhVv (d : Nat) (a : Nat) (b : Nat) (k : Nat) : Statement (.vmulhVv d a b k) := by
  intro hwf word hw
  replace hwf : (d < 32 && a < 32 && b < 32 && k < 8 : Bool) = true := hwf
  simp only [Bool.and_eq_true, decide_eq_true_eq] at hwf
  have b_d : d < 32 := hwf.1.1.1
  have b_a : a < 32 := hwf.1.1.2
  have b_b : b < 32 := hwf.1.2
  have b_k : k < 8 := hwf.2
  replace hw : 0x80000003 + d * 2 ^ 21 + a * 2 ^ 16 + b * 2 ^ 11 + k * 2 ^ 8 = word := Option.some.inj hw
  have f26_6 : Sys2Proof.fld word 26 6 = 32 := Sys2Proof.Laws.Field.bits26w6_of_21w5_16w5_11w5_8w3 0x80000003 d a b k word hw b_d b_a b_b b_k rfl rfl rfl rfl
  have f0_8 : Sys2Proof.fld word 0 8 = 3 := Sys2Proof.Laws.Field.bits0w8_of_21w5_16w5_11w5_8w3 0x80000003 d a b k word hw
  have f21_5 : Sys2Proof.fld word 21 5 = d := Sys2Proof.Laws.Field.bits21w5_of_21w5_16w5_11w5_8w3 0x80000003 d a b k word hw b_d b_a b_b b_k rfl rfl rfl rfl
  have f16_5 : Sys2Proof.fld word 16 5 = a := Sys2Proof.Laws.Field.bits16w5_of_21w5_16w5_11w5_8w3 0x80000003 d a b k word hw b_a b_b b_k rfl rfl rfl
  have f11_5 : Sys2Proof.fld word 11 5 = b := Sys2Proof.Laws.Field.bits11w5_of_21w5_16w5_11w5_8w3 0x80000003 d a b k word hw b_b b_k rfl rfl
  have f8_3 : Sys2Proof.fld word 8 3 = k := Sys2Proof.Laws.Field.bits8w3_of_21w5_16w5_11w5_8w3 0x80000003 d a b k word hw b_k rfl
  rw [major20 word f26_6]
  unfold decodeMajor20
  rw [f0_8, f21_5, f16_5, f11_5, f8_3]; try rfl
theorem vmulhnVv (d : Nat) (a : Nat) (b : Nat) (k : Nat) : Statement (.vmulhnVv d a b k) := by
  intro hwf word hw
  replace hwf : (d < 32 && a < 32 && b < 32 && k < 8 : Bool) = true := hwf
  simp only [Bool.and_eq_true, decide_eq_true_eq] at hwf
  have b_d : d < 32 := hwf.1.1.1
  have b_a : a < 32 := hwf.1.1.2
  have b_b : b < 32 := hwf.1.2
  have b_k : k < 8 := hwf.2
  replace hw : 0x80000004 + d * 2 ^ 21 + a * 2 ^ 16 + b * 2 ^ 11 + k * 2 ^ 8 = word := Option.some.inj hw
  have f26_6 : Sys2Proof.fld word 26 6 = 32 := Sys2Proof.Laws.Field.bits26w6_of_21w5_16w5_11w5_8w3 0x80000004 d a b k word hw b_d b_a b_b b_k rfl rfl rfl rfl
  have f0_8 : Sys2Proof.fld word 0 8 = 4 := Sys2Proof.Laws.Field.bits0w8_of_21w5_16w5_11w5_8w3 0x80000004 d a b k word hw
  have f21_5 : Sys2Proof.fld word 21 5 = d := Sys2Proof.Laws.Field.bits21w5_of_21w5_16w5_11w5_8w3 0x80000004 d a b k word hw b_d b_a b_b b_k rfl rfl rfl rfl
  have f16_5 : Sys2Proof.fld word 16 5 = a := Sys2Proof.Laws.Field.bits16w5_of_21w5_16w5_11w5_8w3 0x80000004 d a b k word hw b_a b_b b_k rfl rfl rfl
  have f11_5 : Sys2Proof.fld word 11 5 = b := Sys2Proof.Laws.Field.bits11w5_of_21w5_16w5_11w5_8w3 0x80000004 d a b k word hw b_b b_k rfl rfl
  have f8_3 : Sys2Proof.fld word 8 3 = k := Sys2Proof.Laws.Field.bits8w3_of_21w5_16w5_11w5_8w3 0x80000004 d a b k word hw b_k rfl
  rw [major20 word f26_6]
  unfold decodeMajor20
  rw [f0_8, f21_5, f16_5, f11_5, f8_3]; try rfl
theorem vdivVv (d : Nat) (a : Nat) (b : Nat) (k : Nat) : Statement (.vdivVv d a b k) := by
  intro hwf word hw
  replace hwf : (d < 32 && a < 32 && b < 32 && k < 8 : Bool) = true := hwf
  simp only [Bool.and_eq_true, decide_eq_true_eq] at hwf
  have b_d : d < 32 := hwf.1.1.1
  have b_a : a < 32 := hwf.1.1.2
  have b_b : b < 32 := hwf.1.2
  have b_k : k < 8 := hwf.2
  replace hw : 0x80000005 + d * 2 ^ 21 + a * 2 ^ 16 + b * 2 ^ 11 + k * 2 ^ 8 = word := Option.some.inj hw
  have f26_6 : Sys2Proof.fld word 26 6 = 32 := Sys2Proof.Laws.Field.bits26w6_of_21w5_16w5_11w5_8w3 0x80000005 d a b k word hw b_d b_a b_b b_k rfl rfl rfl rfl
  have f0_8 : Sys2Proof.fld word 0 8 = 5 := Sys2Proof.Laws.Field.bits0w8_of_21w5_16w5_11w5_8w3 0x80000005 d a b k word hw
  have f21_5 : Sys2Proof.fld word 21 5 = d := Sys2Proof.Laws.Field.bits21w5_of_21w5_16w5_11w5_8w3 0x80000005 d a b k word hw b_d b_a b_b b_k rfl rfl rfl rfl
  have f16_5 : Sys2Proof.fld word 16 5 = a := Sys2Proof.Laws.Field.bits16w5_of_21w5_16w5_11w5_8w3 0x80000005 d a b k word hw b_a b_b b_k rfl rfl rfl
  have f11_5 : Sys2Proof.fld word 11 5 = b := Sys2Proof.Laws.Field.bits11w5_of_21w5_16w5_11w5_8w3 0x80000005 d a b k word hw b_b b_k rfl rfl
  have f8_3 : Sys2Proof.fld word 8 3 = k := Sys2Proof.Laws.Field.bits8w3_of_21w5_16w5_11w5_8w3 0x80000005 d a b k word hw b_k rfl
  rw [major20 word f26_6]
  unfold decodeMajor20
  rw [f0_8, f21_5, f16_5, f11_5, f8_3]; try rfl
theorem vdivnVv (d : Nat) (a : Nat) (b : Nat) (k : Nat) : Statement (.vdivnVv d a b k) := by
  intro hwf word hw
  replace hwf : (d < 32 && a < 32 && b < 32 && k < 8 : Bool) = true := hwf
  simp only [Bool.and_eq_true, decide_eq_true_eq] at hwf
  have b_d : d < 32 := hwf.1.1.1
  have b_a : a < 32 := hwf.1.1.2
  have b_b : b < 32 := hwf.1.2
  have b_k : k < 8 := hwf.2
  replace hw : 0x80000006 + d * 2 ^ 21 + a * 2 ^ 16 + b * 2 ^ 11 + k * 2 ^ 8 = word := Option.some.inj hw
  have f26_6 : Sys2Proof.fld word 26 6 = 32 := Sys2Proof.Laws.Field.bits26w6_of_21w5_16w5_11w5_8w3 0x80000006 d a b k word hw b_d b_a b_b b_k rfl rfl rfl rfl
  have f0_8 : Sys2Proof.fld word 0 8 = 6 := Sys2Proof.Laws.Field.bits0w8_of_21w5_16w5_11w5_8w3 0x80000006 d a b k word hw
  have f21_5 : Sys2Proof.fld word 21 5 = d := Sys2Proof.Laws.Field.bits21w5_of_21w5_16w5_11w5_8w3 0x80000006 d a b k word hw b_d b_a b_b b_k rfl rfl rfl rfl
  have f16_5 : Sys2Proof.fld word 16 5 = a := Sys2Proof.Laws.Field.bits16w5_of_21w5_16w5_11w5_8w3 0x80000006 d a b k word hw b_a b_b b_k rfl rfl rfl
  have f11_5 : Sys2Proof.fld word 11 5 = b := Sys2Proof.Laws.Field.bits11w5_of_21w5_16w5_11w5_8w3 0x80000006 d a b k word hw b_b b_k rfl rfl
  have f8_3 : Sys2Proof.fld word 8 3 = k := Sys2Proof.Laws.Field.bits8w3_of_21w5_16w5_11w5_8w3 0x80000006 d a b k word hw b_k rfl
  rw [major20 word f26_6]
  unfold decodeMajor20
  rw [f0_8, f21_5, f16_5, f11_5, f8_3]; try rfl
theorem vremVv (d : Nat) (a : Nat) (b : Nat) (k : Nat) : Statement (.vremVv d a b k) := by
  intro hwf word hw
  replace hwf : (d < 32 && a < 32 && b < 32 && k < 8 : Bool) = true := hwf
  simp only [Bool.and_eq_true, decide_eq_true_eq] at hwf
  have b_d : d < 32 := hwf.1.1.1
  have b_a : a < 32 := hwf.1.1.2
  have b_b : b < 32 := hwf.1.2
  have b_k : k < 8 := hwf.2
  replace hw : 0x80000007 + d * 2 ^ 21 + a * 2 ^ 16 + b * 2 ^ 11 + k * 2 ^ 8 = word := Option.some.inj hw
  have f26_6 : Sys2Proof.fld word 26 6 = 32 := Sys2Proof.Laws.Field.bits26w6_of_21w5_16w5_11w5_8w3 0x80000007 d a b k word hw b_d b_a b_b b_k rfl rfl rfl rfl
  have f0_8 : Sys2Proof.fld word 0 8 = 7 := Sys2Proof.Laws.Field.bits0w8_of_21w5_16w5_11w5_8w3 0x80000007 d a b k word hw
  have f21_5 : Sys2Proof.fld word 21 5 = d := Sys2Proof.Laws.Field.bits21w5_of_21w5_16w5_11w5_8w3 0x80000007 d a b k word hw b_d b_a b_b b_k rfl rfl rfl rfl
  have f16_5 : Sys2Proof.fld word 16 5 = a := Sys2Proof.Laws.Field.bits16w5_of_21w5_16w5_11w5_8w3 0x80000007 d a b k word hw b_a b_b b_k rfl rfl rfl
  have f11_5 : Sys2Proof.fld word 11 5 = b := Sys2Proof.Laws.Field.bits11w5_of_21w5_16w5_11w5_8w3 0x80000007 d a b k word hw b_b b_k rfl rfl
  have f8_3 : Sys2Proof.fld word 8 3 = k := Sys2Proof.Laws.Field.bits8w3_of_21w5_16w5_11w5_8w3 0x80000007 d a b k word hw b_k rfl
  rw [major20 word f26_6]
  unfold decodeMajor20
  rw [f0_8, f21_5, f16_5, f11_5, f8_3]; try rfl
theorem vremnVv (d : Nat) (a : Nat) (b : Nat) (k : Nat) : Statement (.vremnVv d a b k) := by
  intro hwf word hw
  replace hwf : (d < 32 && a < 32 && b < 32 && k < 8 : Bool) = true := hwf
  simp only [Bool.and_eq_true, decide_eq_true_eq] at hwf
  have b_d : d < 32 := hwf.1.1.1
  have b_a : a < 32 := hwf.1.1.2
  have b_b : b < 32 := hwf.1.2
  have b_k : k < 8 := hwf.2
  replace hw : 0x80000008 + d * 2 ^ 21 + a * 2 ^ 16 + b * 2 ^ 11 + k * 2 ^ 8 = word := Option.some.inj hw
  have f26_6 : Sys2Proof.fld word 26 6 = 32 := Sys2Proof.Laws.Field.bits26w6_of_21w5_16w5_11w5_8w3 0x80000008 d a b k word hw b_d b_a b_b b_k rfl rfl rfl rfl
  have f0_8 : Sys2Proof.fld word 0 8 = 8 := Sys2Proof.Laws.Field.bits0w8_of_21w5_16w5_11w5_8w3 0x80000008 d a b k word hw
  have f21_5 : Sys2Proof.fld word 21 5 = d := Sys2Proof.Laws.Field.bits21w5_of_21w5_16w5_11w5_8w3 0x80000008 d a b k word hw b_d b_a b_b b_k rfl rfl rfl rfl
  have f16_5 : Sys2Proof.fld word 16 5 = a := Sys2Proof.Laws.Field.bits16w5_of_21w5_16w5_11w5_8w3 0x80000008 d a b k word hw b_a b_b b_k rfl rfl rfl
  have f11_5 : Sys2Proof.fld word 11 5 = b := Sys2Proof.Laws.Field.bits11w5_of_21w5_16w5_11w5_8w3 0x80000008 d a b k word hw b_b b_k rfl rfl
  have f8_3 : Sys2Proof.fld word 8 3 = k := Sys2Proof.Laws.Field.bits8w3_of_21w5_16w5_11w5_8w3 0x80000008 d a b k word hw b_k rfl
  rw [major20 word f26_6]
  unfold decodeMajor20
  rw [f0_8, f21_5, f16_5, f11_5, f8_3]; try rfl
theorem vminVv (d : Nat) (a : Nat) (b : Nat) (k : Nat) : Statement (.vminVv d a b k) := by
  intro hwf word hw
  replace hwf : (d < 32 && a < 32 && b < 32 && k < 8 : Bool) = true := hwf
  simp only [Bool.and_eq_true, decide_eq_true_eq] at hwf
  have b_d : d < 32 := hwf.1.1.1
  have b_a : a < 32 := hwf.1.1.2
  have b_b : b < 32 := hwf.1.2
  have b_k : k < 8 := hwf.2
  replace hw : 0x80000009 + d * 2 ^ 21 + a * 2 ^ 16 + b * 2 ^ 11 + k * 2 ^ 8 = word := Option.some.inj hw
  have f26_6 : Sys2Proof.fld word 26 6 = 32 := Sys2Proof.Laws.Field.bits26w6_of_21w5_16w5_11w5_8w3 0x80000009 d a b k word hw b_d b_a b_b b_k rfl rfl rfl rfl
  have f0_8 : Sys2Proof.fld word 0 8 = 9 := Sys2Proof.Laws.Field.bits0w8_of_21w5_16w5_11w5_8w3 0x80000009 d a b k word hw
  have f21_5 : Sys2Proof.fld word 21 5 = d := Sys2Proof.Laws.Field.bits21w5_of_21w5_16w5_11w5_8w3 0x80000009 d a b k word hw b_d b_a b_b b_k rfl rfl rfl rfl
  have f16_5 : Sys2Proof.fld word 16 5 = a := Sys2Proof.Laws.Field.bits16w5_of_21w5_16w5_11w5_8w3 0x80000009 d a b k word hw b_a b_b b_k rfl rfl rfl
  have f11_5 : Sys2Proof.fld word 11 5 = b := Sys2Proof.Laws.Field.bits11w5_of_21w5_16w5_11w5_8w3 0x80000009 d a b k word hw b_b b_k rfl rfl
  have f8_3 : Sys2Proof.fld word 8 3 = k := Sys2Proof.Laws.Field.bits8w3_of_21w5_16w5_11w5_8w3 0x80000009 d a b k word hw b_k rfl
  rw [major20 word f26_6]
  unfold decodeMajor20
  rw [f0_8, f21_5, f16_5, f11_5, f8_3]; try rfl
theorem vminnVv (d : Nat) (a : Nat) (b : Nat) (k : Nat) : Statement (.vminnVv d a b k) := by
  intro hwf word hw
  replace hwf : (d < 32 && a < 32 && b < 32 && k < 8 : Bool) = true := hwf
  simp only [Bool.and_eq_true, decide_eq_true_eq] at hwf
  have b_d : d < 32 := hwf.1.1.1
  have b_a : a < 32 := hwf.1.1.2
  have b_b : b < 32 := hwf.1.2
  have b_k : k < 8 := hwf.2
  replace hw : 0x8000000a + d * 2 ^ 21 + a * 2 ^ 16 + b * 2 ^ 11 + k * 2 ^ 8 = word := Option.some.inj hw
  have f26_6 : Sys2Proof.fld word 26 6 = 32 := Sys2Proof.Laws.Field.bits26w6_of_21w5_16w5_11w5_8w3 0x8000000a d a b k word hw b_d b_a b_b b_k rfl rfl rfl rfl
  have f0_8 : Sys2Proof.fld word 0 8 = 10 := Sys2Proof.Laws.Field.bits0w8_of_21w5_16w5_11w5_8w3 0x8000000a d a b k word hw
  have f21_5 : Sys2Proof.fld word 21 5 = d := Sys2Proof.Laws.Field.bits21w5_of_21w5_16w5_11w5_8w3 0x8000000a d a b k word hw b_d b_a b_b b_k rfl rfl rfl rfl
  have f16_5 : Sys2Proof.fld word 16 5 = a := Sys2Proof.Laws.Field.bits16w5_of_21w5_16w5_11w5_8w3 0x8000000a d a b k word hw b_a b_b b_k rfl rfl rfl
  have f11_5 : Sys2Proof.fld word 11 5 = b := Sys2Proof.Laws.Field.bits11w5_of_21w5_16w5_11w5_8w3 0x8000000a d a b k word hw b_b b_k rfl rfl
  have f8_3 : Sys2Proof.fld word 8 3 = k := Sys2Proof.Laws.Field.bits8w3_of_21w5_16w5_11w5_8w3 0x8000000a d a b k word hw b_k rfl
  rw [major20 word f26_6]
  unfold decodeMajor20
  rw [f0_8, f21_5, f16_5, f11_5, f8_3]; try rfl
theorem vmaxVv (d : Nat) (a : Nat) (b : Nat) (k : Nat) : Statement (.vmaxVv d a b k) := by
  intro hwf word hw
  replace hwf : (d < 32 && a < 32 && b < 32 && k < 8 : Bool) = true := hwf
  simp only [Bool.and_eq_true, decide_eq_true_eq] at hwf
  have b_d : d < 32 := hwf.1.1.1
  have b_a : a < 32 := hwf.1.1.2
  have b_b : b < 32 := hwf.1.2
  have b_k : k < 8 := hwf.2
  replace hw : 0x8000000b + d * 2 ^ 21 + a * 2 ^ 16 + b * 2 ^ 11 + k * 2 ^ 8 = word := Option.some.inj hw
  have f26_6 : Sys2Proof.fld word 26 6 = 32 := Sys2Proof.Laws.Field.bits26w6_of_21w5_16w5_11w5_8w3 0x8000000b d a b k word hw b_d b_a b_b b_k rfl rfl rfl rfl
  have f0_8 : Sys2Proof.fld word 0 8 = 11 := Sys2Proof.Laws.Field.bits0w8_of_21w5_16w5_11w5_8w3 0x8000000b d a b k word hw
  have f21_5 : Sys2Proof.fld word 21 5 = d := Sys2Proof.Laws.Field.bits21w5_of_21w5_16w5_11w5_8w3 0x8000000b d a b k word hw b_d b_a b_b b_k rfl rfl rfl rfl
  have f16_5 : Sys2Proof.fld word 16 5 = a := Sys2Proof.Laws.Field.bits16w5_of_21w5_16w5_11w5_8w3 0x8000000b d a b k word hw b_a b_b b_k rfl rfl rfl
  have f11_5 : Sys2Proof.fld word 11 5 = b := Sys2Proof.Laws.Field.bits11w5_of_21w5_16w5_11w5_8w3 0x8000000b d a b k word hw b_b b_k rfl rfl
  have f8_3 : Sys2Proof.fld word 8 3 = k := Sys2Proof.Laws.Field.bits8w3_of_21w5_16w5_11w5_8w3 0x8000000b d a b k word hw b_k rfl
  rw [major20 word f26_6]
  unfold decodeMajor20
  rw [f0_8, f21_5, f16_5, f11_5, f8_3]; try rfl
theorem vmaxnVv (d : Nat) (a : Nat) (b : Nat) (k : Nat) : Statement (.vmaxnVv d a b k) := by
  intro hwf word hw
  replace hwf : (d < 32 && a < 32 && b < 32 && k < 8 : Bool) = true := hwf
  simp only [Bool.and_eq_true, decide_eq_true_eq] at hwf
  have b_d : d < 32 := hwf.1.1.1
  have b_a : a < 32 := hwf.1.1.2
  have b_b : b < 32 := hwf.1.2
  have b_k : k < 8 := hwf.2
  replace hw : 0x8000000c + d * 2 ^ 21 + a * 2 ^ 16 + b * 2 ^ 11 + k * 2 ^ 8 = word := Option.some.inj hw
  have f26_6 : Sys2Proof.fld word 26 6 = 32 := Sys2Proof.Laws.Field.bits26w6_of_21w5_16w5_11w5_8w3 0x8000000c d a b k word hw b_d b_a b_b b_k rfl rfl rfl rfl
  have f0_8 : Sys2Proof.fld word 0 8 = 12 := Sys2Proof.Laws.Field.bits0w8_of_21w5_16w5_11w5_8w3 0x8000000c d a b k word hw
  have f21_5 : Sys2Proof.fld word 21 5 = d := Sys2Proof.Laws.Field.bits21w5_of_21w5_16w5_11w5_8w3 0x8000000c d a b k word hw b_d b_a b_b b_k rfl rfl rfl rfl
  have f16_5 : Sys2Proof.fld word 16 5 = a := Sys2Proof.Laws.Field.bits16w5_of_21w5_16w5_11w5_8w3 0x8000000c d a b k word hw b_a b_b b_k rfl rfl rfl
  have f11_5 : Sys2Proof.fld word 11 5 = b := Sys2Proof.Laws.Field.bits11w5_of_21w5_16w5_11w5_8w3 0x8000000c d a b k word hw b_b b_k rfl rfl
  have f8_3 : Sys2Proof.fld word 8 3 = k := Sys2Proof.Laws.Field.bits8w3_of_21w5_16w5_11w5_8w3 0x8000000c d a b k word hw b_k rfl
  rw [major20 word f26_6]
  unfold decodeMajor20
  rw [f0_8, f21_5, f16_5, f11_5, f8_3]; try rfl
theorem vandVv (d : Nat) (a : Nat) (b : Nat) (k : Nat) : Statement (.vandVv d a b k) := by
  intro hwf word hw
  replace hwf : (d < 32 && a < 32 && b < 32 && k < 8 : Bool) = true := hwf
  simp only [Bool.and_eq_true, decide_eq_true_eq] at hwf
  have b_d : d < 32 := hwf.1.1.1
  have b_a : a < 32 := hwf.1.1.2
  have b_b : b < 32 := hwf.1.2
  have b_k : k < 8 := hwf.2
  replace hw : 0x8000000d + d * 2 ^ 21 + a * 2 ^ 16 + b * 2 ^ 11 + k * 2 ^ 8 = word := Option.some.inj hw
  have f26_6 : Sys2Proof.fld word 26 6 = 32 := Sys2Proof.Laws.Field.bits26w6_of_21w5_16w5_11w5_8w3 0x8000000d d a b k word hw b_d b_a b_b b_k rfl rfl rfl rfl
  have f0_8 : Sys2Proof.fld word 0 8 = 13 := Sys2Proof.Laws.Field.bits0w8_of_21w5_16w5_11w5_8w3 0x8000000d d a b k word hw
  have f21_5 : Sys2Proof.fld word 21 5 = d := Sys2Proof.Laws.Field.bits21w5_of_21w5_16w5_11w5_8w3 0x8000000d d a b k word hw b_d b_a b_b b_k rfl rfl rfl rfl
  have f16_5 : Sys2Proof.fld word 16 5 = a := Sys2Proof.Laws.Field.bits16w5_of_21w5_16w5_11w5_8w3 0x8000000d d a b k word hw b_a b_b b_k rfl rfl rfl
  have f11_5 : Sys2Proof.fld word 11 5 = b := Sys2Proof.Laws.Field.bits11w5_of_21w5_16w5_11w5_8w3 0x8000000d d a b k word hw b_b b_k rfl rfl
  have f8_3 : Sys2Proof.fld word 8 3 = k := Sys2Proof.Laws.Field.bits8w3_of_21w5_16w5_11w5_8w3 0x8000000d d a b k word hw b_k rfl
  rw [major20 word f26_6]
  unfold decodeMajor20
  rw [f0_8, f21_5, f16_5, f11_5, f8_3]; try rfl
theorem vorVv (d : Nat) (a : Nat) (b : Nat) (k : Nat) : Statement (.vorVv d a b k) := by
  intro hwf word hw
  replace hwf : (d < 32 && a < 32 && b < 32 && k < 8 : Bool) = true := hwf
  simp only [Bool.and_eq_true, decide_eq_true_eq] at hwf
  have b_d : d < 32 := hwf.1.1.1
  have b_a : a < 32 := hwf.1.1.2
  have b_b : b < 32 := hwf.1.2
  have b_k : k < 8 := hwf.2
  replace hw : 0x8000000e + d * 2 ^ 21 + a * 2 ^ 16 + b * 2 ^ 11 + k * 2 ^ 8 = word := Option.some.inj hw
  have f26_6 : Sys2Proof.fld word 26 6 = 32 := Sys2Proof.Laws.Field.bits26w6_of_21w5_16w5_11w5_8w3 0x8000000e d a b k word hw b_d b_a b_b b_k rfl rfl rfl rfl
  have f0_8 : Sys2Proof.fld word 0 8 = 14 := Sys2Proof.Laws.Field.bits0w8_of_21w5_16w5_11w5_8w3 0x8000000e d a b k word hw
  have f21_5 : Sys2Proof.fld word 21 5 = d := Sys2Proof.Laws.Field.bits21w5_of_21w5_16w5_11w5_8w3 0x8000000e d a b k word hw b_d b_a b_b b_k rfl rfl rfl rfl
  have f16_5 : Sys2Proof.fld word 16 5 = a := Sys2Proof.Laws.Field.bits16w5_of_21w5_16w5_11w5_8w3 0x8000000e d a b k word hw b_a b_b b_k rfl rfl rfl
  have f11_5 : Sys2Proof.fld word 11 5 = b := Sys2Proof.Laws.Field.bits11w5_of_21w5_16w5_11w5_8w3 0x8000000e d a b k word hw b_b b_k rfl rfl
  have f8_3 : Sys2Proof.fld word 8 3 = k := Sys2Proof.Laws.Field.bits8w3_of_21w5_16w5_11w5_8w3 0x8000000e d a b k word hw b_k rfl
  rw [major20 word f26_6]
  unfold decodeMajor20
  rw [f0_8, f21_5, f16_5, f11_5, f8_3]; try rfl
theorem vxorVv (d : Nat) (a : Nat) (b : Nat) (k : Nat) : Statement (.vxorVv d a b k) := by
  intro hwf word hw
  replace hwf : (d < 32 && a < 32 && b < 32 && k < 8 : Bool) = true := hwf
  simp only [Bool.and_eq_true, decide_eq_true_eq] at hwf
  have b_d : d < 32 := hwf.1.1.1
  have b_a : a < 32 := hwf.1.1.2
  have b_b : b < 32 := hwf.1.2
  have b_k : k < 8 := hwf.2
  replace hw : 0x8000000f + d * 2 ^ 21 + a * 2 ^ 16 + b * 2 ^ 11 + k * 2 ^ 8 = word := Option.some.inj hw
  have f26_6 : Sys2Proof.fld word 26 6 = 32 := Sys2Proof.Laws.Field.bits26w6_of_21w5_16w5_11w5_8w3 0x8000000f d a b k word hw b_d b_a b_b b_k rfl rfl rfl rfl
  have f0_8 : Sys2Proof.fld word 0 8 = 15 := Sys2Proof.Laws.Field.bits0w8_of_21w5_16w5_11w5_8w3 0x8000000f d a b k word hw
  have f21_5 : Sys2Proof.fld word 21 5 = d := Sys2Proof.Laws.Field.bits21w5_of_21w5_16w5_11w5_8w3 0x8000000f d a b k word hw b_d b_a b_b b_k rfl rfl rfl rfl
  have f16_5 : Sys2Proof.fld word 16 5 = a := Sys2Proof.Laws.Field.bits16w5_of_21w5_16w5_11w5_8w3 0x8000000f d a b k word hw b_a b_b b_k rfl rfl rfl
  have f11_5 : Sys2Proof.fld word 11 5 = b := Sys2Proof.Laws.Field.bits11w5_of_21w5_16w5_11w5_8w3 0x8000000f d a b k word hw b_b b_k rfl rfl
  have f8_3 : Sys2Proof.fld word 8 3 = k := Sys2Proof.Laws.Field.bits8w3_of_21w5_16w5_11w5_8w3 0x8000000f d a b k word hw b_k rfl
  rw [major20 word f26_6]
  unfold decodeMajor20
  rw [f0_8, f21_5, f16_5, f11_5, f8_3]; try rfl
theorem vsllVv (d : Nat) (a : Nat) (b : Nat) (k : Nat) : Statement (.vsllVv d a b k) := by
  intro hwf word hw
  replace hwf : (d < 32 && a < 32 && b < 32 && k < 8 : Bool) = true := hwf
  simp only [Bool.and_eq_true, decide_eq_true_eq] at hwf
  have b_d : d < 32 := hwf.1.1.1
  have b_a : a < 32 := hwf.1.1.2
  have b_b : b < 32 := hwf.1.2
  have b_k : k < 8 := hwf.2
  replace hw : 0x80000010 + d * 2 ^ 21 + a * 2 ^ 16 + b * 2 ^ 11 + k * 2 ^ 8 = word := Option.some.inj hw
  have f26_6 : Sys2Proof.fld word 26 6 = 32 := Sys2Proof.Laws.Field.bits26w6_of_21w5_16w5_11w5_8w3 0x80000010 d a b k word hw b_d b_a b_b b_k rfl rfl rfl rfl
  have f0_8 : Sys2Proof.fld word 0 8 = 16 := Sys2Proof.Laws.Field.bits0w8_of_21w5_16w5_11w5_8w3 0x80000010 d a b k word hw
  have f21_5 : Sys2Proof.fld word 21 5 = d := Sys2Proof.Laws.Field.bits21w5_of_21w5_16w5_11w5_8w3 0x80000010 d a b k word hw b_d b_a b_b b_k rfl rfl rfl rfl
  have f16_5 : Sys2Proof.fld word 16 5 = a := Sys2Proof.Laws.Field.bits16w5_of_21w5_16w5_11w5_8w3 0x80000010 d a b k word hw b_a b_b b_k rfl rfl rfl
  have f11_5 : Sys2Proof.fld word 11 5 = b := Sys2Proof.Laws.Field.bits11w5_of_21w5_16w5_11w5_8w3 0x80000010 d a b k word hw b_b b_k rfl rfl
  have f8_3 : Sys2Proof.fld word 8 3 = k := Sys2Proof.Laws.Field.bits8w3_of_21w5_16w5_11w5_8w3 0x80000010 d a b k word hw b_k rfl
  rw [major20 word f26_6]
  unfold decodeMajor20
  rw [f0_8, f21_5, f16_5, f11_5, f8_3]; try rfl
theorem vsrlVv (d : Nat) (a : Nat) (b : Nat) (k : Nat) : Statement (.vsrlVv d a b k) := by
  intro hwf word hw
  replace hwf : (d < 32 && a < 32 && b < 32 && k < 8 : Bool) = true := hwf
  simp only [Bool.and_eq_true, decide_eq_true_eq] at hwf
  have b_d : d < 32 := hwf.1.1.1
  have b_a : a < 32 := hwf.1.1.2
  have b_b : b < 32 := hwf.1.2
  have b_k : k < 8 := hwf.2
  replace hw : 0x80000011 + d * 2 ^ 21 + a * 2 ^ 16 + b * 2 ^ 11 + k * 2 ^ 8 = word := Option.some.inj hw
  have f26_6 : Sys2Proof.fld word 26 6 = 32 := Sys2Proof.Laws.Field.bits26w6_of_21w5_16w5_11w5_8w3 0x80000011 d a b k word hw b_d b_a b_b b_k rfl rfl rfl rfl
  have f0_8 : Sys2Proof.fld word 0 8 = 17 := Sys2Proof.Laws.Field.bits0w8_of_21w5_16w5_11w5_8w3 0x80000011 d a b k word hw
  have f21_5 : Sys2Proof.fld word 21 5 = d := Sys2Proof.Laws.Field.bits21w5_of_21w5_16w5_11w5_8w3 0x80000011 d a b k word hw b_d b_a b_b b_k rfl rfl rfl rfl
  have f16_5 : Sys2Proof.fld word 16 5 = a := Sys2Proof.Laws.Field.bits16w5_of_21w5_16w5_11w5_8w3 0x80000011 d a b k word hw b_a b_b b_k rfl rfl rfl
  have f11_5 : Sys2Proof.fld word 11 5 = b := Sys2Proof.Laws.Field.bits11w5_of_21w5_16w5_11w5_8w3 0x80000011 d a b k word hw b_b b_k rfl rfl
  have f8_3 : Sys2Proof.fld word 8 3 = k := Sys2Proof.Laws.Field.bits8w3_of_21w5_16w5_11w5_8w3 0x80000011 d a b k word hw b_k rfl
  rw [major20 word f26_6]
  unfold decodeMajor20
  rw [f0_8, f21_5, f16_5, f11_5, f8_3]; try rfl
theorem vsraVv (d : Nat) (a : Nat) (b : Nat) (k : Nat) : Statement (.vsraVv d a b k) := by
  intro hwf word hw
  replace hwf : (d < 32 && a < 32 && b < 32 && k < 8 : Bool) = true := hwf
  simp only [Bool.and_eq_true, decide_eq_true_eq] at hwf
  have b_d : d < 32 := hwf.1.1.1
  have b_a : a < 32 := hwf.1.1.2
  have b_b : b < 32 := hwf.1.2
  have b_k : k < 8 := hwf.2
  replace hw : 0x80000012 + d * 2 ^ 21 + a * 2 ^ 16 + b * 2 ^ 11 + k * 2 ^ 8 = word := Option.some.inj hw
  have f26_6 : Sys2Proof.fld word 26 6 = 32 := Sys2Proof.Laws.Field.bits26w6_of_21w5_16w5_11w5_8w3 0x80000012 d a b k word hw b_d b_a b_b b_k rfl rfl rfl rfl
  have f0_8 : Sys2Proof.fld word 0 8 = 18 := Sys2Proof.Laws.Field.bits0w8_of_21w5_16w5_11w5_8w3 0x80000012 d a b k word hw
  have f21_5 : Sys2Proof.fld word 21 5 = d := Sys2Proof.Laws.Field.bits21w5_of_21w5_16w5_11w5_8w3 0x80000012 d a b k word hw b_d b_a b_b b_k rfl rfl rfl rfl
  have f16_5 : Sys2Proof.fld word 16 5 = a := Sys2Proof.Laws.Field.bits16w5_of_21w5_16w5_11w5_8w3 0x80000012 d a b k word hw b_a b_b b_k rfl rfl rfl
  have f11_5 : Sys2Proof.fld word 11 5 = b := Sys2Proof.Laws.Field.bits11w5_of_21w5_16w5_11w5_8w3 0x80000012 d a b k word hw b_b b_k rfl rfl
  have f8_3 : Sys2Proof.fld word 8 3 = k := Sys2Proof.Laws.Field.bits8w3_of_21w5_16w5_11w5_8w3 0x80000012 d a b k word hw b_k rfl
  rw [major20 word f26_6]
  unfold decodeMajor20
  rw [f0_8, f21_5, f16_5, f11_5, f8_3]; try rfl
theorem vsaddVv (d : Nat) (a : Nat) (b : Nat) (k : Nat) : Statement (.vsaddVv d a b k) := by
  intro hwf word hw
  replace hwf : (d < 32 && a < 32 && b < 32 && k < 8 : Bool) = true := hwf
  simp only [Bool.and_eq_true, decide_eq_true_eq] at hwf
  have b_d : d < 32 := hwf.1.1.1
  have b_a : a < 32 := hwf.1.1.2
  have b_b : b < 32 := hwf.1.2
  have b_k : k < 8 := hwf.2
  replace hw : 0x80000013 + d * 2 ^ 21 + a * 2 ^ 16 + b * 2 ^ 11 + k * 2 ^ 8 = word := Option.some.inj hw
  have f26_6 : Sys2Proof.fld word 26 6 = 32 := Sys2Proof.Laws.Field.bits26w6_of_21w5_16w5_11w5_8w3 0x80000013 d a b k word hw b_d b_a b_b b_k rfl rfl rfl rfl
  have f0_8 : Sys2Proof.fld word 0 8 = 19 := Sys2Proof.Laws.Field.bits0w8_of_21w5_16w5_11w5_8w3 0x80000013 d a b k word hw
  have f21_5 : Sys2Proof.fld word 21 5 = d := Sys2Proof.Laws.Field.bits21w5_of_21w5_16w5_11w5_8w3 0x80000013 d a b k word hw b_d b_a b_b b_k rfl rfl rfl rfl
  have f16_5 : Sys2Proof.fld word 16 5 = a := Sys2Proof.Laws.Field.bits16w5_of_21w5_16w5_11w5_8w3 0x80000013 d a b k word hw b_a b_b b_k rfl rfl rfl
  have f11_5 : Sys2Proof.fld word 11 5 = b := Sys2Proof.Laws.Field.bits11w5_of_21w5_16w5_11w5_8w3 0x80000013 d a b k word hw b_b b_k rfl rfl
  have f8_3 : Sys2Proof.fld word 8 3 = k := Sys2Proof.Laws.Field.bits8w3_of_21w5_16w5_11w5_8w3 0x80000013 d a b k word hw b_k rfl
  rw [major20 word f26_6]
  unfold decodeMajor20
  rw [f0_8, f21_5, f16_5, f11_5, f8_3]; try rfl
theorem vsaddnVv (d : Nat) (a : Nat) (b : Nat) (k : Nat) : Statement (.vsaddnVv d a b k) := by
  intro hwf word hw
  replace hwf : (d < 32 && a < 32 && b < 32 && k < 8 : Bool) = true := hwf
  simp only [Bool.and_eq_true, decide_eq_true_eq] at hwf
  have b_d : d < 32 := hwf.1.1.1
  have b_a : a < 32 := hwf.1.1.2
  have b_b : b < 32 := hwf.1.2
  have b_k : k < 8 := hwf.2
  replace hw : 0x80000014 + d * 2 ^ 21 + a * 2 ^ 16 + b * 2 ^ 11 + k * 2 ^ 8 = word := Option.some.inj hw
  have f26_6 : Sys2Proof.fld word 26 6 = 32 := Sys2Proof.Laws.Field.bits26w6_of_21w5_16w5_11w5_8w3 0x80000014 d a b k word hw b_d b_a b_b b_k rfl rfl rfl rfl
  have f0_8 : Sys2Proof.fld word 0 8 = 20 := Sys2Proof.Laws.Field.bits0w8_of_21w5_16w5_11w5_8w3 0x80000014 d a b k word hw
  have f21_5 : Sys2Proof.fld word 21 5 = d := Sys2Proof.Laws.Field.bits21w5_of_21w5_16w5_11w5_8w3 0x80000014 d a b k word hw b_d b_a b_b b_k rfl rfl rfl rfl
  have f16_5 : Sys2Proof.fld word 16 5 = a := Sys2Proof.Laws.Field.bits16w5_of_21w5_16w5_11w5_8w3 0x80000014 d a b k word hw b_a b_b b_k rfl rfl rfl
  have f11_5 : Sys2Proof.fld word 11 5 = b := Sys2Proof.Laws.Field.bits11w5_of_21w5_16w5_11w5_8w3 0x80000014 d a b k word hw b_b b_k rfl rfl
  have f8_3 : Sys2Proof.fld word 8 3 = k := Sys2Proof.Laws.Field.bits8w3_of_21w5_16w5_11w5_8w3 0x80000014 d a b k word hw b_k rfl
  rw [major20 word f26_6]
  unfold decodeMajor20
  rw [f0_8, f21_5, f16_5, f11_5, f8_3]; try rfl
theorem vssubVv (d : Nat) (a : Nat) (b : Nat) (k : Nat) : Statement (.vssubVv d a b k) := by
  intro hwf word hw
  replace hwf : (d < 32 && a < 32 && b < 32 && k < 8 : Bool) = true := hwf
  simp only [Bool.and_eq_true, decide_eq_true_eq] at hwf
  have b_d : d < 32 := hwf.1.1.1
  have b_a : a < 32 := hwf.1.1.2
  have b_b : b < 32 := hwf.1.2
  have b_k : k < 8 := hwf.2
  replace hw : 0x80000015 + d * 2 ^ 21 + a * 2 ^ 16 + b * 2 ^ 11 + k * 2 ^ 8 = word := Option.some.inj hw
  have f26_6 : Sys2Proof.fld word 26 6 = 32 := Sys2Proof.Laws.Field.bits26w6_of_21w5_16w5_11w5_8w3 0x80000015 d a b k word hw b_d b_a b_b b_k rfl rfl rfl rfl
  have f0_8 : Sys2Proof.fld word 0 8 = 21 := Sys2Proof.Laws.Field.bits0w8_of_21w5_16w5_11w5_8w3 0x80000015 d a b k word hw
  have f21_5 : Sys2Proof.fld word 21 5 = d := Sys2Proof.Laws.Field.bits21w5_of_21w5_16w5_11w5_8w3 0x80000015 d a b k word hw b_d b_a b_b b_k rfl rfl rfl rfl
  have f16_5 : Sys2Proof.fld word 16 5 = a := Sys2Proof.Laws.Field.bits16w5_of_21w5_16w5_11w5_8w3 0x80000015 d a b k word hw b_a b_b b_k rfl rfl rfl
  have f11_5 : Sys2Proof.fld word 11 5 = b := Sys2Proof.Laws.Field.bits11w5_of_21w5_16w5_11w5_8w3 0x80000015 d a b k word hw b_b b_k rfl rfl
  have f8_3 : Sys2Proof.fld word 8 3 = k := Sys2Proof.Laws.Field.bits8w3_of_21w5_16w5_11w5_8w3 0x80000015 d a b k word hw b_k rfl
  rw [major20 word f26_6]
  unfold decodeMajor20
  rw [f0_8, f21_5, f16_5, f11_5, f8_3]; try rfl
theorem vssubnVv (d : Nat) (a : Nat) (b : Nat) (k : Nat) : Statement (.vssubnVv d a b k) := by
  intro hwf word hw
  replace hwf : (d < 32 && a < 32 && b < 32 && k < 8 : Bool) = true := hwf
  simp only [Bool.and_eq_true, decide_eq_true_eq] at hwf
  have b_d : d < 32 := hwf.1.1.1
  have b_a : a < 32 := hwf.1.1.2
  have b_b : b < 32 := hwf.1.2
  have b_k : k < 8 := hwf.2
  replace hw : 0x80000016 + d * 2 ^ 21 + a * 2 ^ 16 + b * 2 ^ 11 + k * 2 ^ 8 = word := Option.some.inj hw
  have f26_6 : Sys2Proof.fld word 26 6 = 32 := Sys2Proof.Laws.Field.bits26w6_of_21w5_16w5_11w5_8w3 0x80000016 d a b k word hw b_d b_a b_b b_k rfl rfl rfl rfl
  have f0_8 : Sys2Proof.fld word 0 8 = 22 := Sys2Proof.Laws.Field.bits0w8_of_21w5_16w5_11w5_8w3 0x80000016 d a b k word hw
  have f21_5 : Sys2Proof.fld word 21 5 = d := Sys2Proof.Laws.Field.bits21w5_of_21w5_16w5_11w5_8w3 0x80000016 d a b k word hw b_d b_a b_b b_k rfl rfl rfl rfl
  have f16_5 : Sys2Proof.fld word 16 5 = a := Sys2Proof.Laws.Field.bits16w5_of_21w5_16w5_11w5_8w3 0x80000016 d a b k word hw b_a b_b b_k rfl rfl rfl
  have f11_5 : Sys2Proof.fld word 11 5 = b := Sys2Proof.Laws.Field.bits11w5_of_21w5_16w5_11w5_8w3 0x80000016 d a b k word hw b_b b_k rfl rfl
  have f8_3 : Sys2Proof.fld word 8 3 = k := Sys2Proof.Laws.Field.bits8w3_of_21w5_16w5_11w5_8w3 0x80000016 d a b k word hw b_k rfl
  rw [major20 word f26_6]
  unfold decodeMajor20
  rw [f0_8, f21_5, f16_5, f11_5, f8_3]; try rfl
theorem vaddVx (d : Nat) (a : Nat) (x : Nat) (k : Nat) : Statement (.vaddVx d a x k) := by
  intro hwf word hw
  replace hwf : (d < 32 && a < 32 && x < 32 && k < 8 : Bool) = true := hwf
  simp only [Bool.and_eq_true, decide_eq_true_eq] at hwf
  have b_d : d < 32 := hwf.1.1.1
  have b_a : a < 32 := hwf.1.1.2
  have b_x : x < 32 := hwf.1.2
  have b_k : k < 8 := hwf.2
  replace hw : 0x84000000 + d * 2 ^ 21 + a * 2 ^ 16 + x * 2 ^ 11 + k * 2 ^ 8 = word := Option.some.inj hw
  have f26_6 : Sys2Proof.fld word 26 6 = 33 := Sys2Proof.Laws.Field.bits26w6_of_21w5_16w5_11w5_8w3 0x84000000 d a x k word hw b_d b_a b_x b_k rfl rfl rfl rfl
  have f0_8 : Sys2Proof.fld word 0 8 = 0 := Sys2Proof.Laws.Field.bits0w8_of_21w5_16w5_11w5_8w3 0x84000000 d a x k word hw
  have f21_5 : Sys2Proof.fld word 21 5 = d := Sys2Proof.Laws.Field.bits21w5_of_21w5_16w5_11w5_8w3 0x84000000 d a x k word hw b_d b_a b_x b_k rfl rfl rfl rfl
  have f16_5 : Sys2Proof.fld word 16 5 = a := Sys2Proof.Laws.Field.bits16w5_of_21w5_16w5_11w5_8w3 0x84000000 d a x k word hw b_a b_x b_k rfl rfl rfl
  have f11_5 : Sys2Proof.fld word 11 5 = x := Sys2Proof.Laws.Field.bits11w5_of_21w5_16w5_11w5_8w3 0x84000000 d a x k word hw b_x b_k rfl rfl
  have f8_3 : Sys2Proof.fld word 8 3 = k := Sys2Proof.Laws.Field.bits8w3_of_21w5_16w5_11w5_8w3 0x84000000 d a x k word hw b_k rfl
  rw [major21 word f26_6]
  unfold decodeMajor21
  rw [f0_8, f21_5, f16_5, f11_5, f8_3]; try rfl
theorem vsubVx (d : Nat) (a : Nat) (x : Nat) (k : Nat) : Statement (.vsubVx d a x k) := by
  intro hwf word hw
  replace hwf : (d < 32 && a < 32 && x < 32 && k < 8 : Bool) = true := hwf
  simp only [Bool.and_eq_true, decide_eq_true_eq] at hwf
  have b_d : d < 32 := hwf.1.1.1
  have b_a : a < 32 := hwf.1.1.2
  have b_x : x < 32 := hwf.1.2
  have b_k : k < 8 := hwf.2
  replace hw : 0x84000001 + d * 2 ^ 21 + a * 2 ^ 16 + x * 2 ^ 11 + k * 2 ^ 8 = word := Option.some.inj hw
  have f26_6 : Sys2Proof.fld word 26 6 = 33 := Sys2Proof.Laws.Field.bits26w6_of_21w5_16w5_11w5_8w3 0x84000001 d a x k word hw b_d b_a b_x b_k rfl rfl rfl rfl
  have f0_8 : Sys2Proof.fld word 0 8 = 1 := Sys2Proof.Laws.Field.bits0w8_of_21w5_16w5_11w5_8w3 0x84000001 d a x k word hw
  have f21_5 : Sys2Proof.fld word 21 5 = d := Sys2Proof.Laws.Field.bits21w5_of_21w5_16w5_11w5_8w3 0x84000001 d a x k word hw b_d b_a b_x b_k rfl rfl rfl rfl
  have f16_5 : Sys2Proof.fld word 16 5 = a := Sys2Proof.Laws.Field.bits16w5_of_21w5_16w5_11w5_8w3 0x84000001 d a x k word hw b_a b_x b_k rfl rfl rfl
  have f11_5 : Sys2Proof.fld word 11 5 = x := Sys2Proof.Laws.Field.bits11w5_of_21w5_16w5_11w5_8w3 0x84000001 d a x k word hw b_x b_k rfl rfl
  have f8_3 : Sys2Proof.fld word 8 3 = k := Sys2Proof.Laws.Field.bits8w3_of_21w5_16w5_11w5_8w3 0x84000001 d a x k word hw b_k rfl
  rw [major21 word f26_6]
  unfold decodeMajor21
  rw [f0_8, f21_5, f16_5, f11_5, f8_3]; try rfl
theorem vmulVx (d : Nat) (a : Nat) (x : Nat) (k : Nat) : Statement (.vmulVx d a x k) := by
  intro hwf word hw
  replace hwf : (d < 32 && a < 32 && x < 32 && k < 8 : Bool) = true := hwf
  simp only [Bool.and_eq_true, decide_eq_true_eq] at hwf
  have b_d : d < 32 := hwf.1.1.1
  have b_a : a < 32 := hwf.1.1.2
  have b_x : x < 32 := hwf.1.2
  have b_k : k < 8 := hwf.2
  replace hw : 0x84000002 + d * 2 ^ 21 + a * 2 ^ 16 + x * 2 ^ 11 + k * 2 ^ 8 = word := Option.some.inj hw
  have f26_6 : Sys2Proof.fld word 26 6 = 33 := Sys2Proof.Laws.Field.bits26w6_of_21w5_16w5_11w5_8w3 0x84000002 d a x k word hw b_d b_a b_x b_k rfl rfl rfl rfl
  have f0_8 : Sys2Proof.fld word 0 8 = 2 := Sys2Proof.Laws.Field.bits0w8_of_21w5_16w5_11w5_8w3 0x84000002 d a x k word hw
  have f21_5 : Sys2Proof.fld word 21 5 = d := Sys2Proof.Laws.Field.bits21w5_of_21w5_16w5_11w5_8w3 0x84000002 d a x k word hw b_d b_a b_x b_k rfl rfl rfl rfl
  have f16_5 : Sys2Proof.fld word 16 5 = a := Sys2Proof.Laws.Field.bits16w5_of_21w5_16w5_11w5_8w3 0x84000002 d a x k word hw b_a b_x b_k rfl rfl rfl
  have f11_5 : Sys2Proof.fld word 11 5 = x := Sys2Proof.Laws.Field.bits11w5_of_21w5_16w5_11w5_8w3 0x84000002 d a x k word hw b_x b_k rfl rfl
  have f8_3 : Sys2Proof.fld word 8 3 = k := Sys2Proof.Laws.Field.bits8w3_of_21w5_16w5_11w5_8w3 0x84000002 d a x k word hw b_k rfl
  rw [major21 word f26_6]
  unfold decodeMajor21
  rw [f0_8, f21_5, f16_5, f11_5, f8_3]; try rfl
theorem vmulhVx (d : Nat) (a : Nat) (x : Nat) (k : Nat) : Statement (.vmulhVx d a x k) := by
  intro hwf word hw
  replace hwf : (d < 32 && a < 32 && x < 32 && k < 8 : Bool) = true := hwf
  simp only [Bool.and_eq_true, decide_eq_true_eq] at hwf
  have b_d : d < 32 := hwf.1.1.1
  have b_a : a < 32 := hwf.1.1.2
  have b_x : x < 32 := hwf.1.2
  have b_k : k < 8 := hwf.2
  replace hw : 0x84000003 + d * 2 ^ 21 + a * 2 ^ 16 + x * 2 ^ 11 + k * 2 ^ 8 = word := Option.some.inj hw
  have f26_6 : Sys2Proof.fld word 26 6 = 33 := Sys2Proof.Laws.Field.bits26w6_of_21w5_16w5_11w5_8w3 0x84000003 d a x k word hw b_d b_a b_x b_k rfl rfl rfl rfl
  have f0_8 : Sys2Proof.fld word 0 8 = 3 := Sys2Proof.Laws.Field.bits0w8_of_21w5_16w5_11w5_8w3 0x84000003 d a x k word hw
  have f21_5 : Sys2Proof.fld word 21 5 = d := Sys2Proof.Laws.Field.bits21w5_of_21w5_16w5_11w5_8w3 0x84000003 d a x k word hw b_d b_a b_x b_k rfl rfl rfl rfl
  have f16_5 : Sys2Proof.fld word 16 5 = a := Sys2Proof.Laws.Field.bits16w5_of_21w5_16w5_11w5_8w3 0x84000003 d a x k word hw b_a b_x b_k rfl rfl rfl
  have f11_5 : Sys2Proof.fld word 11 5 = x := Sys2Proof.Laws.Field.bits11w5_of_21w5_16w5_11w5_8w3 0x84000003 d a x k word hw b_x b_k rfl rfl
  have f8_3 : Sys2Proof.fld word 8 3 = k := Sys2Proof.Laws.Field.bits8w3_of_21w5_16w5_11w5_8w3 0x84000003 d a x k word hw b_k rfl
  rw [major21 word f26_6]
  unfold decodeMajor21
  rw [f0_8, f21_5, f16_5, f11_5, f8_3]; try rfl
theorem vmulhnVx (d : Nat) (a : Nat) (x : Nat) (k : Nat) : Statement (.vmulhnVx d a x k) := by
  intro hwf word hw
  replace hwf : (d < 32 && a < 32 && x < 32 && k < 8 : Bool) = true := hwf
  simp only [Bool.and_eq_true, decide_eq_true_eq] at hwf
  have b_d : d < 32 := hwf.1.1.1
  have b_a : a < 32 := hwf.1.1.2
  have b_x : x < 32 := hwf.1.2
  have b_k : k < 8 := hwf.2
  replace hw : 0x84000004 + d * 2 ^ 21 + a * 2 ^ 16 + x * 2 ^ 11 + k * 2 ^ 8 = word := Option.some.inj hw
  have f26_6 : Sys2Proof.fld word 26 6 = 33 := Sys2Proof.Laws.Field.bits26w6_of_21w5_16w5_11w5_8w3 0x84000004 d a x k word hw b_d b_a b_x b_k rfl rfl rfl rfl
  have f0_8 : Sys2Proof.fld word 0 8 = 4 := Sys2Proof.Laws.Field.bits0w8_of_21w5_16w5_11w5_8w3 0x84000004 d a x k word hw
  have f21_5 : Sys2Proof.fld word 21 5 = d := Sys2Proof.Laws.Field.bits21w5_of_21w5_16w5_11w5_8w3 0x84000004 d a x k word hw b_d b_a b_x b_k rfl rfl rfl rfl
  have f16_5 : Sys2Proof.fld word 16 5 = a := Sys2Proof.Laws.Field.bits16w5_of_21w5_16w5_11w5_8w3 0x84000004 d a x k word hw b_a b_x b_k rfl rfl rfl
  have f11_5 : Sys2Proof.fld word 11 5 = x := Sys2Proof.Laws.Field.bits11w5_of_21w5_16w5_11w5_8w3 0x84000004 d a x k word hw b_x b_k rfl rfl
  have f8_3 : Sys2Proof.fld word 8 3 = k := Sys2Proof.Laws.Field.bits8w3_of_21w5_16w5_11w5_8w3 0x84000004 d a x k word hw b_k rfl
  rw [major21 word f26_6]
  unfold decodeMajor21
  rw [f0_8, f21_5, f16_5, f11_5, f8_3]; try rfl
theorem vdivVx (d : Nat) (a : Nat) (x : Nat) (k : Nat) : Statement (.vdivVx d a x k) := by
  intro hwf word hw
  replace hwf : (d < 32 && a < 32 && x < 32 && k < 8 : Bool) = true := hwf
  simp only [Bool.and_eq_true, decide_eq_true_eq] at hwf
  have b_d : d < 32 := hwf.1.1.1
  have b_a : a < 32 := hwf.1.1.2
  have b_x : x < 32 := hwf.1.2
  have b_k : k < 8 := hwf.2
  replace hw : 0x84000005 + d * 2 ^ 21 + a * 2 ^ 16 + x * 2 ^ 11 + k * 2 ^ 8 = word := Option.some.inj hw
  have f26_6 : Sys2Proof.fld word 26 6 = 33 := Sys2Proof.Laws.Field.bits26w6_of_21w5_16w5_11w5_8w3 0x84000005 d a x k word hw b_d b_a b_x b_k rfl rfl rfl rfl
  have f0_8 : Sys2Proof.fld word 0 8 = 5 := Sys2Proof.Laws.Field.bits0w8_of_21w5_16w5_11w5_8w3 0x84000005 d a x k word hw
  have f21_5 : Sys2Proof.fld word 21 5 = d := Sys2Proof.Laws.Field.bits21w5_of_21w5_16w5_11w5_8w3 0x84000005 d a x k word hw b_d b_a b_x b_k rfl rfl rfl rfl
  have f16_5 : Sys2Proof.fld word 16 5 = a := Sys2Proof.Laws.Field.bits16w5_of_21w5_16w5_11w5_8w3 0x84000005 d a x k word hw b_a b_x b_k rfl rfl rfl
  have f11_5 : Sys2Proof.fld word 11 5 = x := Sys2Proof.Laws.Field.bits11w5_of_21w5_16w5_11w5_8w3 0x84000005 d a x k word hw b_x b_k rfl rfl
  have f8_3 : Sys2Proof.fld word 8 3 = k := Sys2Proof.Laws.Field.bits8w3_of_21w5_16w5_11w5_8w3 0x84000005 d a x k word hw b_k rfl
  rw [major21 word f26_6]
  unfold decodeMajor21
  rw [f0_8, f21_5, f16_5, f11_5, f8_3]; try rfl
theorem vdivnVx (d : Nat) (a : Nat) (x : Nat) (k : Nat) : Statement (.vdivnVx d a x k) := by
  intro hwf word hw
  replace hwf : (d < 32 && a < 32 && x < 32 && k < 8 : Bool) = true := hwf
  simp only [Bool.and_eq_true, decide_eq_true_eq] at hwf
  have b_d : d < 32 := hwf.1.1.1
  have b_a : a < 32 := hwf.1.1.2
  have b_x : x < 32 := hwf.1.2
  have b_k : k < 8 := hwf.2
  replace hw : 0x84000006 + d * 2 ^ 21 + a * 2 ^ 16 + x * 2 ^ 11 + k * 2 ^ 8 = word := Option.some.inj hw
  have f26_6 : Sys2Proof.fld word 26 6 = 33 := Sys2Proof.Laws.Field.bits26w6_of_21w5_16w5_11w5_8w3 0x84000006 d a x k word hw b_d b_a b_x b_k rfl rfl rfl rfl
  have f0_8 : Sys2Proof.fld word 0 8 = 6 := Sys2Proof.Laws.Field.bits0w8_of_21w5_16w5_11w5_8w3 0x84000006 d a x k word hw
  have f21_5 : Sys2Proof.fld word 21 5 = d := Sys2Proof.Laws.Field.bits21w5_of_21w5_16w5_11w5_8w3 0x84000006 d a x k word hw b_d b_a b_x b_k rfl rfl rfl rfl
  have f16_5 : Sys2Proof.fld word 16 5 = a := Sys2Proof.Laws.Field.bits16w5_of_21w5_16w5_11w5_8w3 0x84000006 d a x k word hw b_a b_x b_k rfl rfl rfl
  have f11_5 : Sys2Proof.fld word 11 5 = x := Sys2Proof.Laws.Field.bits11w5_of_21w5_16w5_11w5_8w3 0x84000006 d a x k word hw b_x b_k rfl rfl
  have f8_3 : Sys2Proof.fld word 8 3 = k := Sys2Proof.Laws.Field.bits8w3_of_21w5_16w5_11w5_8w3 0x84000006 d a x k word hw b_k rfl
  rw [major21 word f26_6]
  unfold decodeMajor21
  rw [f0_8, f21_5, f16_5, f11_5, f8_3]; try rfl
theorem vremVx (d : Nat) (a : Nat) (x : Nat) (k : Nat) : Statement (.vremVx d a x k) := by
  intro hwf word hw
  replace hwf : (d < 32 && a < 32 && x < 32 && k < 8 : Bool) = true := hwf
  simp only [Bool.and_eq_true, decide_eq_true_eq] at hwf
  have b_d : d < 32 := hwf.1.1.1
  have b_a : a < 32 := hwf.1.1.2
  have b_x : x < 32 := hwf.1.2
  have b_k : k < 8 := hwf.2
  replace hw : 0x84000007 + d * 2 ^ 21 + a * 2 ^ 16 + x * 2 ^ 11 + k * 2 ^ 8 = word := Option.some.inj hw
  have f26_6 : Sys2Proof.fld word 26 6 = 33 := Sys2Proof.Laws.Field.bits26w6_of_21w5_16w5_11w5_8w3 0x84000007 d a x k word hw b_d b_a b_x b_k rfl rfl rfl rfl
  have f0_8 : Sys2Proof.fld word 0 8 = 7 := Sys2Proof.Laws.Field.bits0w8_of_21w5_16w5_11w5_8w3 0x84000007 d a x k word hw
  have f21_5 : Sys2Proof.fld word 21 5 = d := Sys2Proof.Laws.Field.bits21w5_of_21w5_16w5_11w5_8w3 0x84000007 d a x k word hw b_d b_a b_x b_k rfl rfl rfl rfl
  have f16_5 : Sys2Proof.fld word 16 5 = a := Sys2Proof.Laws.Field.bits16w5_of_21w5_16w5_11w5_8w3 0x84000007 d a x k word hw b_a b_x b_k rfl rfl rfl
  have f11_5 : Sys2Proof.fld word 11 5 = x := Sys2Proof.Laws.Field.bits11w5_of_21w5_16w5_11w5_8w3 0x84000007 d a x k word hw b_x b_k rfl rfl
  have f8_3 : Sys2Proof.fld word 8 3 = k := Sys2Proof.Laws.Field.bits8w3_of_21w5_16w5_11w5_8w3 0x84000007 d a x k word hw b_k rfl
  rw [major21 word f26_6]
  unfold decodeMajor21
  rw [f0_8, f21_5, f16_5, f11_5, f8_3]; try rfl
theorem vremnVx (d : Nat) (a : Nat) (x : Nat) (k : Nat) : Statement (.vremnVx d a x k) := by
  intro hwf word hw
  replace hwf : (d < 32 && a < 32 && x < 32 && k < 8 : Bool) = true := hwf
  simp only [Bool.and_eq_true, decide_eq_true_eq] at hwf
  have b_d : d < 32 := hwf.1.1.1
  have b_a : a < 32 := hwf.1.1.2
  have b_x : x < 32 := hwf.1.2
  have b_k : k < 8 := hwf.2
  replace hw : 0x84000008 + d * 2 ^ 21 + a * 2 ^ 16 + x * 2 ^ 11 + k * 2 ^ 8 = word := Option.some.inj hw
  have f26_6 : Sys2Proof.fld word 26 6 = 33 := Sys2Proof.Laws.Field.bits26w6_of_21w5_16w5_11w5_8w3 0x84000008 d a x k word hw b_d b_a b_x b_k rfl rfl rfl rfl
  have f0_8 : Sys2Proof.fld word 0 8 = 8 := Sys2Proof.Laws.Field.bits0w8_of_21w5_16w5_11w5_8w3 0x84000008 d a x k word hw
  have f21_5 : Sys2Proof.fld word 21 5 = d := Sys2Proof.Laws.Field.bits21w5_of_21w5_16w5_11w5_8w3 0x84000008 d a x k word hw b_d b_a b_x b_k rfl rfl rfl rfl
  have f16_5 : Sys2Proof.fld word 16 5 = a := Sys2Proof.Laws.Field.bits16w5_of_21w5_16w5_11w5_8w3 0x84000008 d a x k word hw b_a b_x b_k rfl rfl rfl
  have f11_5 : Sys2Proof.fld word 11 5 = x := Sys2Proof.Laws.Field.bits11w5_of_21w5_16w5_11w5_8w3 0x84000008 d a x k word hw b_x b_k rfl rfl
  have f8_3 : Sys2Proof.fld word 8 3 = k := Sys2Proof.Laws.Field.bits8w3_of_21w5_16w5_11w5_8w3 0x84000008 d a x k word hw b_k rfl
  rw [major21 word f26_6]
  unfold decodeMajor21
  rw [f0_8, f21_5, f16_5, f11_5, f8_3]; try rfl
theorem vminVx (d : Nat) (a : Nat) (x : Nat) (k : Nat) : Statement (.vminVx d a x k) := by
  intro hwf word hw
  replace hwf : (d < 32 && a < 32 && x < 32 && k < 8 : Bool) = true := hwf
  simp only [Bool.and_eq_true, decide_eq_true_eq] at hwf
  have b_d : d < 32 := hwf.1.1.1
  have b_a : a < 32 := hwf.1.1.2
  have b_x : x < 32 := hwf.1.2
  have b_k : k < 8 := hwf.2
  replace hw : 0x84000009 + d * 2 ^ 21 + a * 2 ^ 16 + x * 2 ^ 11 + k * 2 ^ 8 = word := Option.some.inj hw
  have f26_6 : Sys2Proof.fld word 26 6 = 33 := Sys2Proof.Laws.Field.bits26w6_of_21w5_16w5_11w5_8w3 0x84000009 d a x k word hw b_d b_a b_x b_k rfl rfl rfl rfl
  have f0_8 : Sys2Proof.fld word 0 8 = 9 := Sys2Proof.Laws.Field.bits0w8_of_21w5_16w5_11w5_8w3 0x84000009 d a x k word hw
  have f21_5 : Sys2Proof.fld word 21 5 = d := Sys2Proof.Laws.Field.bits21w5_of_21w5_16w5_11w5_8w3 0x84000009 d a x k word hw b_d b_a b_x b_k rfl rfl rfl rfl
  have f16_5 : Sys2Proof.fld word 16 5 = a := Sys2Proof.Laws.Field.bits16w5_of_21w5_16w5_11w5_8w3 0x84000009 d a x k word hw b_a b_x b_k rfl rfl rfl
  have f11_5 : Sys2Proof.fld word 11 5 = x := Sys2Proof.Laws.Field.bits11w5_of_21w5_16w5_11w5_8w3 0x84000009 d a x k word hw b_x b_k rfl rfl
  have f8_3 : Sys2Proof.fld word 8 3 = k := Sys2Proof.Laws.Field.bits8w3_of_21w5_16w5_11w5_8w3 0x84000009 d a x k word hw b_k rfl
  rw [major21 word f26_6]
  unfold decodeMajor21
  rw [f0_8, f21_5, f16_5, f11_5, f8_3]; try rfl
theorem vminnVx (d : Nat) (a : Nat) (x : Nat) (k : Nat) : Statement (.vminnVx d a x k) := by
  intro hwf word hw
  replace hwf : (d < 32 && a < 32 && x < 32 && k < 8 : Bool) = true := hwf
  simp only [Bool.and_eq_true, decide_eq_true_eq] at hwf
  have b_d : d < 32 := hwf.1.1.1
  have b_a : a < 32 := hwf.1.1.2
  have b_x : x < 32 := hwf.1.2
  have b_k : k < 8 := hwf.2
  replace hw : 0x8400000a + d * 2 ^ 21 + a * 2 ^ 16 + x * 2 ^ 11 + k * 2 ^ 8 = word := Option.some.inj hw
  have f26_6 : Sys2Proof.fld word 26 6 = 33 := Sys2Proof.Laws.Field.bits26w6_of_21w5_16w5_11w5_8w3 0x8400000a d a x k word hw b_d b_a b_x b_k rfl rfl rfl rfl
  have f0_8 : Sys2Proof.fld word 0 8 = 10 := Sys2Proof.Laws.Field.bits0w8_of_21w5_16w5_11w5_8w3 0x8400000a d a x k word hw
  have f21_5 : Sys2Proof.fld word 21 5 = d := Sys2Proof.Laws.Field.bits21w5_of_21w5_16w5_11w5_8w3 0x8400000a d a x k word hw b_d b_a b_x b_k rfl rfl rfl rfl
  have f16_5 : Sys2Proof.fld word 16 5 = a := Sys2Proof.Laws.Field.bits16w5_of_21w5_16w5_11w5_8w3 0x8400000a d a x k word hw b_a b_x b_k rfl rfl rfl
  have f11_5 : Sys2Proof.fld word 11 5 = x := Sys2Proof.Laws.Field.bits11w5_of_21w5_16w5_11w5_8w3 0x8400000a d a x k word hw b_x b_k rfl rfl
  have f8_3 : Sys2Proof.fld word 8 3 = k := Sys2Proof.Laws.Field.bits8w3_of_21w5_16w5_11w5_8w3 0x8400000a d a x k word hw b_k rfl
  rw [major21 word f26_6]
  unfold decodeMajor21
  rw [f0_8, f21_5, f16_5, f11_5, f8_3]; try rfl
theorem vmaxVx (d : Nat) (a : Nat) (x : Nat) (k : Nat) : Statement (.vmaxVx d a x k) := by
  intro hwf word hw
  replace hwf : (d < 32 && a < 32 && x < 32 && k < 8 : Bool) = true := hwf
  simp only [Bool.and_eq_true, decide_eq_true_eq] at hwf
  have b_d : d < 32 := hwf.1.1.1
  have b_a : a < 32 := hwf.1.1.2
  have b_x : x < 32 := hwf.1.2
  have b_k : k < 8 := hwf.2
  replace hw : 0x8400000b + d * 2 ^ 21 + a * 2 ^ 16 + x * 2 ^ 11 + k * 2 ^ 8 = word := Option.some.inj hw
  have f26_6 : Sys2Proof.fld word 26 6 = 33 := Sys2Proof.Laws.Field.bits26w6_of_21w5_16w5_11w5_8w3 0x8400000b d a x k word hw b_d b_a b_x b_k rfl rfl rfl rfl
  have f0_8 : Sys2Proof.fld word 0 8 = 11 := Sys2Proof.Laws.Field.bits0w8_of_21w5_16w5_11w5_8w3 0x8400000b d a x k word hw
  have f21_5 : Sys2Proof.fld word 21 5 = d := Sys2Proof.Laws.Field.bits21w5_of_21w5_16w5_11w5_8w3 0x8400000b d a x k word hw b_d b_a b_x b_k rfl rfl rfl rfl
  have f16_5 : Sys2Proof.fld word 16 5 = a := Sys2Proof.Laws.Field.bits16w5_of_21w5_16w5_11w5_8w3 0x8400000b d a x k word hw b_a b_x b_k rfl rfl rfl
  have f11_5 : Sys2Proof.fld word 11 5 = x := Sys2Proof.Laws.Field.bits11w5_of_21w5_16w5_11w5_8w3 0x8400000b d a x k word hw b_x b_k rfl rfl
  have f8_3 : Sys2Proof.fld word 8 3 = k := Sys2Proof.Laws.Field.bits8w3_of_21w5_16w5_11w5_8w3 0x8400000b d a x k word hw b_k rfl
  rw [major21 word f26_6]
  unfold decodeMajor21
  rw [f0_8, f21_5, f16_5, f11_5, f8_3]; try rfl
theorem vmaxnVx (d : Nat) (a : Nat) (x : Nat) (k : Nat) : Statement (.vmaxnVx d a x k) := by
  intro hwf word hw
  replace hwf : (d < 32 && a < 32 && x < 32 && k < 8 : Bool) = true := hwf
  simp only [Bool.and_eq_true, decide_eq_true_eq] at hwf
  have b_d : d < 32 := hwf.1.1.1
  have b_a : a < 32 := hwf.1.1.2
  have b_x : x < 32 := hwf.1.2
  have b_k : k < 8 := hwf.2
  replace hw : 0x8400000c + d * 2 ^ 21 + a * 2 ^ 16 + x * 2 ^ 11 + k * 2 ^ 8 = word := Option.some.inj hw
  have f26_6 : Sys2Proof.fld word 26 6 = 33 := Sys2Proof.Laws.Field.bits26w6_of_21w5_16w5_11w5_8w3 0x8400000c d a x k word hw b_d b_a b_x b_k rfl rfl rfl rfl
  have f0_8 : Sys2Proof.fld word 0 8 = 12 := Sys2Proof.Laws.Field.bits0w8_of_21w5_16w5_11w5_8w3 0x8400000c d a x k word hw
  have f21_5 : Sys2Proof.fld word 21 5 = d := Sys2Proof.Laws.Field.bits21w5_of_21w5_16w5_11w5_8w3 0x8400000c d a x k word hw b_d b_a b_x b_k rfl rfl rfl rfl
  have f16_5 : Sys2Proof.fld word 16 5 = a := Sys2Proof.Laws.Field.bits16w5_of_21w5_16w5_11w5_8w3 0x8400000c d a x k word hw b_a b_x b_k rfl rfl rfl
  have f11_5 : Sys2Proof.fld word 11 5 = x := Sys2Proof.Laws.Field.bits11w5_of_21w5_16w5_11w5_8w3 0x8400000c d a x k word hw b_x b_k rfl rfl
  have f8_3 : Sys2Proof.fld word 8 3 = k := Sys2Proof.Laws.Field.bits8w3_of_21w5_16w5_11w5_8w3 0x8400000c d a x k word hw b_k rfl
  rw [major21 word f26_6]
  unfold decodeMajor21
  rw [f0_8, f21_5, f16_5, f11_5, f8_3]; try rfl
theorem vandVx (d : Nat) (a : Nat) (x : Nat) (k : Nat) : Statement (.vandVx d a x k) := by
  intro hwf word hw
  replace hwf : (d < 32 && a < 32 && x < 32 && k < 8 : Bool) = true := hwf
  simp only [Bool.and_eq_true, decide_eq_true_eq] at hwf
  have b_d : d < 32 := hwf.1.1.1
  have b_a : a < 32 := hwf.1.1.2
  have b_x : x < 32 := hwf.1.2
  have b_k : k < 8 := hwf.2
  replace hw : 0x8400000d + d * 2 ^ 21 + a * 2 ^ 16 + x * 2 ^ 11 + k * 2 ^ 8 = word := Option.some.inj hw
  have f26_6 : Sys2Proof.fld word 26 6 = 33 := Sys2Proof.Laws.Field.bits26w6_of_21w5_16w5_11w5_8w3 0x8400000d d a x k word hw b_d b_a b_x b_k rfl rfl rfl rfl
  have f0_8 : Sys2Proof.fld word 0 8 = 13 := Sys2Proof.Laws.Field.bits0w8_of_21w5_16w5_11w5_8w3 0x8400000d d a x k word hw
  have f21_5 : Sys2Proof.fld word 21 5 = d := Sys2Proof.Laws.Field.bits21w5_of_21w5_16w5_11w5_8w3 0x8400000d d a x k word hw b_d b_a b_x b_k rfl rfl rfl rfl
  have f16_5 : Sys2Proof.fld word 16 5 = a := Sys2Proof.Laws.Field.bits16w5_of_21w5_16w5_11w5_8w3 0x8400000d d a x k word hw b_a b_x b_k rfl rfl rfl
  have f11_5 : Sys2Proof.fld word 11 5 = x := Sys2Proof.Laws.Field.bits11w5_of_21w5_16w5_11w5_8w3 0x8400000d d a x k word hw b_x b_k rfl rfl
  have f8_3 : Sys2Proof.fld word 8 3 = k := Sys2Proof.Laws.Field.bits8w3_of_21w5_16w5_11w5_8w3 0x8400000d d a x k word hw b_k rfl
  rw [major21 word f26_6]
  unfold decodeMajor21
  rw [f0_8, f21_5, f16_5, f11_5, f8_3]; try rfl
theorem vorVx (d : Nat) (a : Nat) (x : Nat) (k : Nat) : Statement (.vorVx d a x k) := by
  intro hwf word hw
  replace hwf : (d < 32 && a < 32 && x < 32 && k < 8 : Bool) = true := hwf
  simp only [Bool.and_eq_true, decide_eq_true_eq] at hwf
  have b_d : d < 32 := hwf.1.1.1
  have b_a : a < 32 := hwf.1.1.2
  have b_x : x < 32 := hwf.1.2
  have b_k : k < 8 := hwf.2
  replace hw : 0x8400000e + d * 2 ^ 21 + a * 2 ^ 16 + x * 2 ^ 11 + k * 2 ^ 8 = word := Option.some.inj hw
  have f26_6 : Sys2Proof.fld word 26 6 = 33 := Sys2Proof.Laws.Field.bits26w6_of_21w5_16w5_11w5_8w3 0x8400000e d a x k word hw b_d b_a b_x b_k rfl rfl rfl rfl
  have f0_8 : Sys2Proof.fld word 0 8 = 14 := Sys2Proof.Laws.Field.bits0w8_of_21w5_16w5_11w5_8w3 0x8400000e d a x k word hw
  have f21_5 : Sys2Proof.fld word 21 5 = d := Sys2Proof.Laws.Field.bits21w5_of_21w5_16w5_11w5_8w3 0x8400000e d a x k word hw b_d b_a b_x b_k rfl rfl rfl rfl
  have f16_5 : Sys2Proof.fld word 16 5 = a := Sys2Proof.Laws.Field.bits16w5_of_21w5_16w5_11w5_8w3 0x8400000e d a x k word hw b_a b_x b_k rfl rfl rfl
  have f11_5 : Sys2Proof.fld word 11 5 = x := Sys2Proof.Laws.Field.bits11w5_of_21w5_16w5_11w5_8w3 0x8400000e d a x k word hw b_x b_k rfl rfl
  have f8_3 : Sys2Proof.fld word 8 3 = k := Sys2Proof.Laws.Field.bits8w3_of_21w5_16w5_11w5_8w3 0x8400000e d a x k word hw b_k rfl
  rw [major21 word f26_6]
  unfold decodeMajor21
  rw [f0_8, f21_5, f16_5, f11_5, f8_3]; try rfl
theorem vxorVx (d : Nat) (a : Nat) (x : Nat) (k : Nat) : Statement (.vxorVx d a x k) := by
  intro hwf word hw
  replace hwf : (d < 32 && a < 32 && x < 32 && k < 8 : Bool) = true := hwf
  simp only [Bool.and_eq_true, decide_eq_true_eq] at hwf
  have b_d : d < 32 := hwf.1.1.1
  have b_a : a < 32 := hwf.1.1.2
  have b_x : x < 32 := hwf.1.2
  have b_k : k < 8 := hwf.2
  replace hw : 0x8400000f + d * 2 ^ 21 + a * 2 ^ 16 + x * 2 ^ 11 + k * 2 ^ 8 = word := Option.some.inj hw
  have f26_6 : Sys2Proof.fld word 26 6 = 33 := Sys2Proof.Laws.Field.bits26w6_of_21w5_16w5_11w5_8w3 0x8400000f d a x k word hw b_d b_a b_x b_k rfl rfl rfl rfl
  have f0_8 : Sys2Proof.fld word 0 8 = 15 := Sys2Proof.Laws.Field.bits0w8_of_21w5_16w5_11w5_8w3 0x8400000f d a x k word hw
  have f21_5 : Sys2Proof.fld word 21 5 = d := Sys2Proof.Laws.Field.bits21w5_of_21w5_16w5_11w5_8w3 0x8400000f d a x k word hw b_d b_a b_x b_k rfl rfl rfl rfl
  have f16_5 : Sys2Proof.fld word 16 5 = a := Sys2Proof.Laws.Field.bits16w5_of_21w5_16w5_11w5_8w3 0x8400000f d a x k word hw b_a b_x b_k rfl rfl rfl
  have f11_5 : Sys2Proof.fld word 11 5 = x := Sys2Proof.Laws.Field.bits11w5_of_21w5_16w5_11w5_8w3 0x8400000f d a x k word hw b_x b_k rfl rfl
  have f8_3 : Sys2Proof.fld word 8 3 = k := Sys2Proof.Laws.Field.bits8w3_of_21w5_16w5_11w5_8w3 0x8400000f d a x k word hw b_k rfl
  rw [major21 word f26_6]
  unfold decodeMajor21
  rw [f0_8, f21_5, f16_5, f11_5, f8_3]; try rfl
theorem vsllVx (d : Nat) (a : Nat) (x : Nat) (k : Nat) : Statement (.vsllVx d a x k) := by
  intro hwf word hw
  replace hwf : (d < 32 && a < 32 && x < 32 && k < 8 : Bool) = true := hwf
  simp only [Bool.and_eq_true, decide_eq_true_eq] at hwf
  have b_d : d < 32 := hwf.1.1.1
  have b_a : a < 32 := hwf.1.1.2
  have b_x : x < 32 := hwf.1.2
  have b_k : k < 8 := hwf.2
  replace hw : 0x84000010 + d * 2 ^ 21 + a * 2 ^ 16 + x * 2 ^ 11 + k * 2 ^ 8 = word := Option.some.inj hw
  have f26_6 : Sys2Proof.fld word 26 6 = 33 := Sys2Proof.Laws.Field.bits26w6_of_21w5_16w5_11w5_8w3 0x84000010 d a x k word hw b_d b_a b_x b_k rfl rfl rfl rfl
  have f0_8 : Sys2Proof.fld word 0 8 = 16 := Sys2Proof.Laws.Field.bits0w8_of_21w5_16w5_11w5_8w3 0x84000010 d a x k word hw
  have f21_5 : Sys2Proof.fld word 21 5 = d := Sys2Proof.Laws.Field.bits21w5_of_21w5_16w5_11w5_8w3 0x84000010 d a x k word hw b_d b_a b_x b_k rfl rfl rfl rfl
  have f16_5 : Sys2Proof.fld word 16 5 = a := Sys2Proof.Laws.Field.bits16w5_of_21w5_16w5_11w5_8w3 0x84000010 d a x k word hw b_a b_x b_k rfl rfl rfl
  have f11_5 : Sys2Proof.fld word 11 5 = x := Sys2Proof.Laws.Field.bits11w5_of_21w5_16w5_11w5_8w3 0x84000010 d a x k word hw b_x b_k rfl rfl
  have f8_3 : Sys2Proof.fld word 8 3 = k := Sys2Proof.Laws.Field.bits8w3_of_21w5_16w5_11w5_8w3 0x84000010 d a x k word hw b_k rfl
  rw [major21 word f26_6]
  unfold decodeMajor21
  rw [f0_8, f21_5, f16_5, f11_5, f8_3]; try rfl
theorem vsrlVx (d : Nat) (a : Nat) (x : Nat) (k : Nat) : Statement (.vsrlVx d a x k) := by
  intro hwf word hw
  replace hwf : (d < 32 && a < 32 && x < 32 && k < 8 : Bool) = true := hwf
  simp only [Bool.and_eq_true, decide_eq_true_eq] at hwf
  have b_d : d < 32 := hwf.1.1.1
  have b_a : a < 32 := hwf.1.1.2
  have b_x : x < 32 := hwf.1.2
  have b_k : k < 8 := hwf.2
  replace hw : 0x84000011 + d * 2 ^ 21 + a * 2 ^ 16 + x * 2 ^ 11 + k * 2 ^ 8 = word := Option.some.inj hw
  have f26_6 : Sys2Proof.fld word 26 6 = 33 := Sys2Proof.Laws.Field.bits26w6_of_21w5_16w5_11w5_8w3 0x84000011 d a x k word hw b_d b_a b_x b_k rfl rfl rfl rfl
  have f0_8 : Sys2Proof.fld word 0 8 = 17 := Sys2Proof.Laws.Field.bits0w8_of_21w5_16w5_11w5_8w3 0x84000011 d a x k word hw
  have f21_5 : Sys2Proof.fld word 21 5 = d := Sys2Proof.Laws.Field.bits21w5_of_21w5_16w5_11w5_8w3 0x84000011 d a x k word hw b_d b_a b_x b_k rfl rfl rfl rfl
  have f16_5 : Sys2Proof.fld word 16 5 = a := Sys2Proof.Laws.Field.bits16w5_of_21w5_16w5_11w5_8w3 0x84000011 d a x k word hw b_a b_x b_k rfl rfl rfl
  have f11_5 : Sys2Proof.fld word 11 5 = x := Sys2Proof.Laws.Field.bits11w5_of_21w5_16w5_11w5_8w3 0x84000011 d a x k word hw b_x b_k rfl rfl
  have f8_3 : Sys2Proof.fld word 8 3 = k := Sys2Proof.Laws.Field.bits8w3_of_21w5_16w5_11w5_8w3 0x84000011 d a x k word hw b_k rfl
  rw [major21 word f26_6]
  unfold decodeMajor21
  rw [f0_8, f21_5, f16_5, f11_5, f8_3]; try rfl
theorem vsraVx (d : Nat) (a : Nat) (x : Nat) (k : Nat) : Statement (.vsraVx d a x k) := by
  intro hwf word hw
  replace hwf : (d < 32 && a < 32 && x < 32 && k < 8 : Bool) = true := hwf
  simp only [Bool.and_eq_true, decide_eq_true_eq] at hwf
  have b_d : d < 32 := hwf.1.1.1
  have b_a : a < 32 := hwf.1.1.2
  have b_x : x < 32 := hwf.1.2
  have b_k : k < 8 := hwf.2
  replace hw : 0x84000012 + d * 2 ^ 21 + a * 2 ^ 16 + x * 2 ^ 11 + k * 2 ^ 8 = word := Option.some.inj hw
  have f26_6 : Sys2Proof.fld word 26 6 = 33 := Sys2Proof.Laws.Field.bits26w6_of_21w5_16w5_11w5_8w3 0x84000012 d a x k word hw b_d b_a b_x b_k rfl rfl rfl rfl
  have f0_8 : Sys2Proof.fld word 0 8 = 18 := Sys2Proof.Laws.Field.bits0w8_of_21w5_16w5_11w5_8w3 0x84000012 d a x k word hw
  have f21_5 : Sys2Proof.fld word 21 5 = d := Sys2Proof.Laws.Field.bits21w5_of_21w5_16w5_11w5_8w3 0x84000012 d a x k word hw b_d b_a b_x b_k rfl rfl rfl rfl
  have f16_5 : Sys2Proof.fld word 16 5 = a := Sys2Proof.Laws.Field.bits16w5_of_21w5_16w5_11w5_8w3 0x84000012 d a x k word hw b_a b_x b_k rfl rfl rfl
  have f11_5 : Sys2Proof.fld word 11 5 = x := Sys2Proof.Laws.Field.bits11w5_of_21w5_16w5_11w5_8w3 0x84000012 d a x k word hw b_x b_k rfl rfl
  have f8_3 : Sys2Proof.fld word 8 3 = k := Sys2Proof.Laws.Field.bits8w3_of_21w5_16w5_11w5_8w3 0x84000012 d a x k word hw b_k rfl
  rw [major21 word f26_6]
  unfold decodeMajor21
  rw [f0_8, f21_5, f16_5, f11_5, f8_3]; try rfl
theorem vsaddVx (d : Nat) (a : Nat) (x : Nat) (k : Nat) : Statement (.vsaddVx d a x k) := by
  intro hwf word hw
  replace hwf : (d < 32 && a < 32 && x < 32 && k < 8 : Bool) = true := hwf
  simp only [Bool.and_eq_true, decide_eq_true_eq] at hwf
  have b_d : d < 32 := hwf.1.1.1
  have b_a : a < 32 := hwf.1.1.2
  have b_x : x < 32 := hwf.1.2
  have b_k : k < 8 := hwf.2
  replace hw : 0x84000013 + d * 2 ^ 21 + a * 2 ^ 16 + x * 2 ^ 11 + k * 2 ^ 8 = word := Option.some.inj hw
  have f26_6 : Sys2Proof.fld word 26 6 = 33 := Sys2Proof.Laws.Field.bits26w6_of_21w5_16w5_11w5_8w3 0x84000013 d a x k word hw b_d b_a b_x b_k rfl rfl rfl rfl
  have f0_8 : Sys2Proof.fld word 0 8 = 19 := Sys2Proof.Laws.Field.bits0w8_of_21w5_16w5_11w5_8w3 0x84000013 d a x k word hw
  have f21_5 : Sys2Proof.fld word 21 5 = d := Sys2Proof.Laws.Field.bits21w5_of_21w5_16w5_11w5_8w3 0x84000013 d a x k word hw b_d b_a b_x b_k rfl rfl rfl rfl
  have f16_5 : Sys2Proof.fld word 16 5 = a := Sys2Proof.Laws.Field.bits16w5_of_21w5_16w5_11w5_8w3 0x84000013 d a x k word hw b_a b_x b_k rfl rfl rfl
  have f11_5 : Sys2Proof.fld word 11 5 = x := Sys2Proof.Laws.Field.bits11w5_of_21w5_16w5_11w5_8w3 0x84000013 d a x k word hw b_x b_k rfl rfl
  have f8_3 : Sys2Proof.fld word 8 3 = k := Sys2Proof.Laws.Field.bits8w3_of_21w5_16w5_11w5_8w3 0x84000013 d a x k word hw b_k rfl
  rw [major21 word f26_6]
  unfold decodeMajor21
  rw [f0_8, f21_5, f16_5, f11_5, f8_3]; try rfl
theorem vsaddnVx (d : Nat) (a : Nat) (x : Nat) (k : Nat) : Statement (.vsaddnVx d a x k) := by
  intro hwf word hw
  replace hwf : (d < 32 && a < 32 && x < 32 && k < 8 : Bool) = true := hwf
  simp only [Bool.and_eq_true, decide_eq_true_eq] at hwf
  have b_d : d < 32 := hwf.1.1.1
  have b_a : a < 32 := hwf.1.1.2
  have b_x : x < 32 := hwf.1.2
  have b_k : k < 8 := hwf.2
  replace hw : 0x84000014 + d * 2 ^ 21 + a * 2 ^ 16 + x * 2 ^ 11 + k * 2 ^ 8 = word := Option.some.inj hw
  have f26_6 : Sys2Proof.fld word 26 6 = 33 := Sys2Proof.Laws.Field.bits26w6_of_21w5_16w5_11w5_8w3 0x84000014 d a x k word hw b_d b_a b_x b_k rfl rfl rfl rfl
  have f0_8 : Sys2Proof.fld word 0 8 = 20 := Sys2Proof.Laws.Field.bits0w8_of_21w5_16w5_11w5_8w3 0x84000014 d a x k word hw
  have f21_5 : Sys2Proof.fld word 21 5 = d := Sys2Proof.Laws.Field.bits21w5_of_21w5_16w5_11w5_8w3 0x84000014 d a x k word hw b_d b_a b_x b_k rfl rfl rfl rfl
  have f16_5 : Sys2Proof.fld word 16 5 = a := Sys2Proof.Laws.Field.bits16w5_of_21w5_16w5_11w5_8w3 0x84000014 d a x k word hw b_a b_x b_k rfl rfl rfl
  have f11_5 : Sys2Proof.fld word 11 5 = x := Sys2Proof.Laws.Field.bits11w5_of_21w5_16w5_11w5_8w3 0x84000014 d a x k word hw b_x b_k rfl rfl
  have f8_3 : Sys2Proof.fld word 8 3 = k := Sys2Proof.Laws.Field.bits8w3_of_21w5_16w5_11w5_8w3 0x84000014 d a x k word hw b_k rfl
  rw [major21 word f26_6]
  unfold decodeMajor21
  rw [f0_8, f21_5, f16_5, f11_5, f8_3]; try rfl
theorem vssubVx (d : Nat) (a : Nat) (x : Nat) (k : Nat) : Statement (.vssubVx d a x k) := by
  intro hwf word hw
  replace hwf : (d < 32 && a < 32 && x < 32 && k < 8 : Bool) = true := hwf
  simp only [Bool.and_eq_true, decide_eq_true_eq] at hwf
  have b_d : d < 32 := hwf.1.1.1
  have b_a : a < 32 := hwf.1.1.2
  have b_x : x < 32 := hwf.1.2
  have b_k : k < 8 := hwf.2
  replace hw : 0x84000015 + d * 2 ^ 21 + a * 2 ^ 16 + x * 2 ^ 11 + k * 2 ^ 8 = word := Option.some.inj hw
  have f26_6 : Sys2Proof.fld word 26 6 = 33 := Sys2Proof.Laws.Field.bits26w6_of_21w5_16w5_11w5_8w3 0x84000015 d a x k word hw b_d b_a b_x b_k rfl rfl rfl rfl
  have f0_8 : Sys2Proof.fld word 0 8 = 21 := Sys2Proof.Laws.Field.bits0w8_of_21w5_16w5_11w5_8w3 0x84000015 d a x k word hw
  have f21_5 : Sys2Proof.fld word 21 5 = d := Sys2Proof.Laws.Field.bits21w5_of_21w5_16w5_11w5_8w3 0x84000015 d a x k word hw b_d b_a b_x b_k rfl rfl rfl rfl
  have f16_5 : Sys2Proof.fld word 16 5 = a := Sys2Proof.Laws.Field.bits16w5_of_21w5_16w5_11w5_8w3 0x84000015 d a x k word hw b_a b_x b_k rfl rfl rfl
  have f11_5 : Sys2Proof.fld word 11 5 = x := Sys2Proof.Laws.Field.bits11w5_of_21w5_16w5_11w5_8w3 0x84000015 d a x k word hw b_x b_k rfl rfl
  have f8_3 : Sys2Proof.fld word 8 3 = k := Sys2Proof.Laws.Field.bits8w3_of_21w5_16w5_11w5_8w3 0x84000015 d a x k word hw b_k rfl
  rw [major21 word f26_6]
  unfold decodeMajor21
  rw [f0_8, f21_5, f16_5, f11_5, f8_3]; try rfl
theorem vssubnVx (d : Nat) (a : Nat) (x : Nat) (k : Nat) : Statement (.vssubnVx d a x k) := by
  intro hwf word hw
  replace hwf : (d < 32 && a < 32 && x < 32 && k < 8 : Bool) = true := hwf
  simp only [Bool.and_eq_true, decide_eq_true_eq] at hwf
  have b_d : d < 32 := hwf.1.1.1
  have b_a : a < 32 := hwf.1.1.2
  have b_x : x < 32 := hwf.1.2
  have b_k : k < 8 := hwf.2
  replace hw : 0x84000016 + d * 2 ^ 21 + a * 2 ^ 16 + x * 2 ^ 11 + k * 2 ^ 8 = word := Option.some.inj hw
  have f26_6 : Sys2Proof.fld word 26 6 = 33 := Sys2Proof.Laws.Field.bits26w6_of_21w5_16w5_11w5_8w3 0x84000016 d a x k word hw b_d b_a b_x b_k rfl rfl rfl rfl
  have f0_8 : Sys2Proof.fld word 0 8 = 22 := Sys2Proof.Laws.Field.bits0w8_of_21w5_16w5_11w5_8w3 0x84000016 d a x k word hw
  have f21_5 : Sys2Proof.fld word 21 5 = d := Sys2Proof.Laws.Field.bits21w5_of_21w5_16w5_11w5_8w3 0x84000016 d a x k word hw b_d b_a b_x b_k rfl rfl rfl rfl
  have f16_5 : Sys2Proof.fld word 16 5 = a := Sys2Proof.Laws.Field.bits16w5_of_21w5_16w5_11w5_8w3 0x84000016 d a x k word hw b_a b_x b_k rfl rfl rfl
  have f11_5 : Sys2Proof.fld word 11 5 = x := Sys2Proof.Laws.Field.bits11w5_of_21w5_16w5_11w5_8w3 0x84000016 d a x k word hw b_x b_k rfl rfl
  have f8_3 : Sys2Proof.fld word 8 3 = k := Sys2Proof.Laws.Field.bits8w3_of_21w5_16w5_11w5_8w3 0x84000016 d a x k word hw b_k rfl
  rw [major21 word f26_6]
  unfold decodeMajor21
  rw [f0_8, f21_5, f16_5, f11_5, f8_3]; try rfl
theorem vaddVi (d : Nat) (a : Nat) (i : BitVec 5) (k : Nat) : Statement (.vaddVi d a i k) := by
  intro hwf word hw
  replace hwf : (d < 32 && a < 32 && k < 8 : Bool) = true := hwf
  simp only [Bool.and_eq_true, decide_eq_true_eq] at hwf
  have b_d : d < 32 := hwf.1.1
  have b_a : a < 32 := hwf.1.2
  have b_k : k < 8 := hwf.2
  replace hw : 0x88000000 + d * 2 ^ 21 + a * 2 ^ 16 + i.toNat * 2 ^ 11 + k * 2 ^ 8 = word := Option.some.inj hw
  have f26_6 : Sys2Proof.fld word 26 6 = 34 := Sys2Proof.Laws.Field.bits26w6_of_21w5_16w5_11w5_8w3 0x88000000 d a i.toNat k word hw b_d b_a i.isLt b_k rfl rfl rfl rfl
  have f0_8 : Sys2Proof.fld word 0 8 = 0 := Sys2Proof.Laws.Field.bits0w8_of_21w5_16w5_11w5_8w3 0x88000000 d a i.toNat k word hw
  have f21_5 : Sys2Proof.fld word 21 5 = d := Sys2Proof.Laws.Field.bits21w5_of_21w5_16w5_11w5_8w3 0x88000000 d a i.toNat k word hw b_d b_a i.isLt b_k rfl rfl rfl rfl
  have f16_5 : Sys2Proof.fld word 16 5 = a := Sys2Proof.Laws.Field.bits16w5_of_21w5_16w5_11w5_8w3 0x88000000 d a i.toNat k word hw b_a i.isLt b_k rfl rfl rfl
  have f11_5 : Sys2Proof.fld word 11 5 = i.toNat := Sys2Proof.Laws.Field.bits11w5_of_21w5_16w5_11w5_8w3 0x88000000 d a i.toNat k word hw i.isLt b_k rfl rfl
  have f8_3 : Sys2Proof.fld word 8 3 = k := Sys2Proof.Laws.Field.bits8w3_of_21w5_16w5_11w5_8w3 0x88000000 d a i.toNat k word hw b_k rfl
  rw [major22 word f26_6]
  unfold decodeMajor22
  rw [f0_8, f21_5, f16_5, f11_5, f8_3, wordBits i]; try rfl
theorem vsubVi (d : Nat) (a : Nat) (i : BitVec 5) (k : Nat) : Statement (.vsubVi d a i k) := by
  intro hwf word hw
  replace hwf : (d < 32 && a < 32 && k < 8 : Bool) = true := hwf
  simp only [Bool.and_eq_true, decide_eq_true_eq] at hwf
  have b_d : d < 32 := hwf.1.1
  have b_a : a < 32 := hwf.1.2
  have b_k : k < 8 := hwf.2
  replace hw : 0x88000001 + d * 2 ^ 21 + a * 2 ^ 16 + i.toNat * 2 ^ 11 + k * 2 ^ 8 = word := Option.some.inj hw
  have f26_6 : Sys2Proof.fld word 26 6 = 34 := Sys2Proof.Laws.Field.bits26w6_of_21w5_16w5_11w5_8w3 0x88000001 d a i.toNat k word hw b_d b_a i.isLt b_k rfl rfl rfl rfl
  have f0_8 : Sys2Proof.fld word 0 8 = 1 := Sys2Proof.Laws.Field.bits0w8_of_21w5_16w5_11w5_8w3 0x88000001 d a i.toNat k word hw
  have f21_5 : Sys2Proof.fld word 21 5 = d := Sys2Proof.Laws.Field.bits21w5_of_21w5_16w5_11w5_8w3 0x88000001 d a i.toNat k word hw b_d b_a i.isLt b_k rfl rfl rfl rfl
  have f16_5 : Sys2Proof.fld word 16 5 = a := Sys2Proof.Laws.Field.bits16w5_of_21w5_16w5_11w5_8w3 0x88000001 d a i.toNat k word hw b_a i.isLt b_k rfl rfl rfl
  have f11_5 : Sys2Proof.fld word 11 5 = i.toNat := Sys2Proof.Laws.Field.bits11w5_of_21w5_16w5_11w5_8w3 0x88000001 d a i.toNat k word hw i.isLt b_k rfl rfl
  have f8_3 : Sys2Proof.fld word 8 3 = k := Sys2Proof.Laws.Field.bits8w3_of_21w5_16w5_11w5_8w3 0x88000001 d a i.toNat k word hw b_k rfl
  rw [major22 word f26_6]
  unfold decodeMajor22
  rw [f0_8, f21_5, f16_5, f11_5, f8_3, wordBits i]; try rfl
theorem vmulVi (d : Nat) (a : Nat) (i : BitVec 5) (k : Nat) : Statement (.vmulVi d a i k) := by
  intro hwf word hw
  replace hwf : (d < 32 && a < 32 && k < 8 : Bool) = true := hwf
  simp only [Bool.and_eq_true, decide_eq_true_eq] at hwf
  have b_d : d < 32 := hwf.1.1
  have b_a : a < 32 := hwf.1.2
  have b_k : k < 8 := hwf.2
  replace hw : 0x88000002 + d * 2 ^ 21 + a * 2 ^ 16 + i.toNat * 2 ^ 11 + k * 2 ^ 8 = word := Option.some.inj hw
  have f26_6 : Sys2Proof.fld word 26 6 = 34 := Sys2Proof.Laws.Field.bits26w6_of_21w5_16w5_11w5_8w3 0x88000002 d a i.toNat k word hw b_d b_a i.isLt b_k rfl rfl rfl rfl
  have f0_8 : Sys2Proof.fld word 0 8 = 2 := Sys2Proof.Laws.Field.bits0w8_of_21w5_16w5_11w5_8w3 0x88000002 d a i.toNat k word hw
  have f21_5 : Sys2Proof.fld word 21 5 = d := Sys2Proof.Laws.Field.bits21w5_of_21w5_16w5_11w5_8w3 0x88000002 d a i.toNat k word hw b_d b_a i.isLt b_k rfl rfl rfl rfl
  have f16_5 : Sys2Proof.fld word 16 5 = a := Sys2Proof.Laws.Field.bits16w5_of_21w5_16w5_11w5_8w3 0x88000002 d a i.toNat k word hw b_a i.isLt b_k rfl rfl rfl
  have f11_5 : Sys2Proof.fld word 11 5 = i.toNat := Sys2Proof.Laws.Field.bits11w5_of_21w5_16w5_11w5_8w3 0x88000002 d a i.toNat k word hw i.isLt b_k rfl rfl
  have f8_3 : Sys2Proof.fld word 8 3 = k := Sys2Proof.Laws.Field.bits8w3_of_21w5_16w5_11w5_8w3 0x88000002 d a i.toNat k word hw b_k rfl
  rw [major22 word f26_6]
  unfold decodeMajor22
  rw [f0_8, f21_5, f16_5, f11_5, f8_3, wordBits i]; try rfl
theorem vmulhVi (d : Nat) (a : Nat) (i : BitVec 5) (k : Nat) : Statement (.vmulhVi d a i k) := by
  intro hwf word hw
  replace hwf : (d < 32 && a < 32 && k < 8 : Bool) = true := hwf
  simp only [Bool.and_eq_true, decide_eq_true_eq] at hwf
  have b_d : d < 32 := hwf.1.1
  have b_a : a < 32 := hwf.1.2
  have b_k : k < 8 := hwf.2
  replace hw : 0x88000003 + d * 2 ^ 21 + a * 2 ^ 16 + i.toNat * 2 ^ 11 + k * 2 ^ 8 = word := Option.some.inj hw
  have f26_6 : Sys2Proof.fld word 26 6 = 34 := Sys2Proof.Laws.Field.bits26w6_of_21w5_16w5_11w5_8w3 0x88000003 d a i.toNat k word hw b_d b_a i.isLt b_k rfl rfl rfl rfl
  have f0_8 : Sys2Proof.fld word 0 8 = 3 := Sys2Proof.Laws.Field.bits0w8_of_21w5_16w5_11w5_8w3 0x88000003 d a i.toNat k word hw
  have f21_5 : Sys2Proof.fld word 21 5 = d := Sys2Proof.Laws.Field.bits21w5_of_21w5_16w5_11w5_8w3 0x88000003 d a i.toNat k word hw b_d b_a i.isLt b_k rfl rfl rfl rfl
  have f16_5 : Sys2Proof.fld word 16 5 = a := Sys2Proof.Laws.Field.bits16w5_of_21w5_16w5_11w5_8w3 0x88000003 d a i.toNat k word hw b_a i.isLt b_k rfl rfl rfl
  have f11_5 : Sys2Proof.fld word 11 5 = i.toNat := Sys2Proof.Laws.Field.bits11w5_of_21w5_16w5_11w5_8w3 0x88000003 d a i.toNat k word hw i.isLt b_k rfl rfl
  have f8_3 : Sys2Proof.fld word 8 3 = k := Sys2Proof.Laws.Field.bits8w3_of_21w5_16w5_11w5_8w3 0x88000003 d a i.toNat k word hw b_k rfl
  rw [major22 word f26_6]
  unfold decodeMajor22
  rw [f0_8, f21_5, f16_5, f11_5, f8_3, wordBits i]; try rfl
theorem vmulhnVi (d : Nat) (a : Nat) (i : BitVec 5) (k : Nat) : Statement (.vmulhnVi d a i k) := by
  intro hwf word hw
  replace hwf : (d < 32 && a < 32 && k < 8 : Bool) = true := hwf
  simp only [Bool.and_eq_true, decide_eq_true_eq] at hwf
  have b_d : d < 32 := hwf.1.1
  have b_a : a < 32 := hwf.1.2
  have b_k : k < 8 := hwf.2
  replace hw : 0x88000004 + d * 2 ^ 21 + a * 2 ^ 16 + i.toNat * 2 ^ 11 + k * 2 ^ 8 = word := Option.some.inj hw
  have f26_6 : Sys2Proof.fld word 26 6 = 34 := Sys2Proof.Laws.Field.bits26w6_of_21w5_16w5_11w5_8w3 0x88000004 d a i.toNat k word hw b_d b_a i.isLt b_k rfl rfl rfl rfl
  have f0_8 : Sys2Proof.fld word 0 8 = 4 := Sys2Proof.Laws.Field.bits0w8_of_21w5_16w5_11w5_8w3 0x88000004 d a i.toNat k word hw
  have f21_5 : Sys2Proof.fld word 21 5 = d := Sys2Proof.Laws.Field.bits21w5_of_21w5_16w5_11w5_8w3 0x88000004 d a i.toNat k word hw b_d b_a i.isLt b_k rfl rfl rfl rfl
  have f16_5 : Sys2Proof.fld word 16 5 = a := Sys2Proof.Laws.Field.bits16w5_of_21w5_16w5_11w5_8w3 0x88000004 d a i.toNat k word hw b_a i.isLt b_k rfl rfl rfl
  have f11_5 : Sys2Proof.fld word 11 5 = i.toNat := Sys2Proof.Laws.Field.bits11w5_of_21w5_16w5_11w5_8w3 0x88000004 d a i.toNat k word hw i.isLt b_k rfl rfl
  have f8_3 : Sys2Proof.fld word 8 3 = k := Sys2Proof.Laws.Field.bits8w3_of_21w5_16w5_11w5_8w3 0x88000004 d a i.toNat k word hw b_k rfl
  rw [major22 word f26_6]
  unfold decodeMajor22
  rw [f0_8, f21_5, f16_5, f11_5, f8_3, wordBits i]; try rfl
theorem vdivVi (d : Nat) (a : Nat) (i : BitVec 5) (k : Nat) : Statement (.vdivVi d a i k) := by
  intro hwf word hw
  replace hwf : (d < 32 && a < 32 && k < 8 : Bool) = true := hwf
  simp only [Bool.and_eq_true, decide_eq_true_eq] at hwf
  have b_d : d < 32 := hwf.1.1
  have b_a : a < 32 := hwf.1.2
  have b_k : k < 8 := hwf.2
  replace hw : 0x88000005 + d * 2 ^ 21 + a * 2 ^ 16 + i.toNat * 2 ^ 11 + k * 2 ^ 8 = word := Option.some.inj hw
  have f26_6 : Sys2Proof.fld word 26 6 = 34 := Sys2Proof.Laws.Field.bits26w6_of_21w5_16w5_11w5_8w3 0x88000005 d a i.toNat k word hw b_d b_a i.isLt b_k rfl rfl rfl rfl
  have f0_8 : Sys2Proof.fld word 0 8 = 5 := Sys2Proof.Laws.Field.bits0w8_of_21w5_16w5_11w5_8w3 0x88000005 d a i.toNat k word hw
  have f21_5 : Sys2Proof.fld word 21 5 = d := Sys2Proof.Laws.Field.bits21w5_of_21w5_16w5_11w5_8w3 0x88000005 d a i.toNat k word hw b_d b_a i.isLt b_k rfl rfl rfl rfl
  have f16_5 : Sys2Proof.fld word 16 5 = a := Sys2Proof.Laws.Field.bits16w5_of_21w5_16w5_11w5_8w3 0x88000005 d a i.toNat k word hw b_a i.isLt b_k rfl rfl rfl
  have f11_5 : Sys2Proof.fld word 11 5 = i.toNat := Sys2Proof.Laws.Field.bits11w5_of_21w5_16w5_11w5_8w3 0x88000005 d a i.toNat k word hw i.isLt b_k rfl rfl
  have f8_3 : Sys2Proof.fld word 8 3 = k := Sys2Proof.Laws.Field.bits8w3_of_21w5_16w5_11w5_8w3 0x88000005 d a i.toNat k word hw b_k rfl
  rw [major22 word f26_6]
  unfold decodeMajor22
  rw [f0_8, f21_5, f16_5, f11_5, f8_3, wordBits i]; try rfl
theorem vdivnVi (d : Nat) (a : Nat) (i : BitVec 5) (k : Nat) : Statement (.vdivnVi d a i k) := by
  intro hwf word hw
  replace hwf : (d < 32 && a < 32 && k < 8 : Bool) = true := hwf
  simp only [Bool.and_eq_true, decide_eq_true_eq] at hwf
  have b_d : d < 32 := hwf.1.1
  have b_a : a < 32 := hwf.1.2
  have b_k : k < 8 := hwf.2
  replace hw : 0x88000006 + d * 2 ^ 21 + a * 2 ^ 16 + i.toNat * 2 ^ 11 + k * 2 ^ 8 = word := Option.some.inj hw
  have f26_6 : Sys2Proof.fld word 26 6 = 34 := Sys2Proof.Laws.Field.bits26w6_of_21w5_16w5_11w5_8w3 0x88000006 d a i.toNat k word hw b_d b_a i.isLt b_k rfl rfl rfl rfl
  have f0_8 : Sys2Proof.fld word 0 8 = 6 := Sys2Proof.Laws.Field.bits0w8_of_21w5_16w5_11w5_8w3 0x88000006 d a i.toNat k word hw
  have f21_5 : Sys2Proof.fld word 21 5 = d := Sys2Proof.Laws.Field.bits21w5_of_21w5_16w5_11w5_8w3 0x88000006 d a i.toNat k word hw b_d b_a i.isLt b_k rfl rfl rfl rfl
  have f16_5 : Sys2Proof.fld word 16 5 = a := Sys2Proof.Laws.Field.bits16w5_of_21w5_16w5_11w5_8w3 0x88000006 d a i.toNat k word hw b_a i.isLt b_k rfl rfl rfl
  have f11_5 : Sys2Proof.fld word 11 5 = i.toNat := Sys2Proof.Laws.Field.bits11w5_of_21w5_16w5_11w5_8w3 0x88000006 d a i.toNat k word hw i.isLt b_k rfl rfl
  have f8_3 : Sys2Proof.fld word 8 3 = k := Sys2Proof.Laws.Field.bits8w3_of_21w5_16w5_11w5_8w3 0x88000006 d a i.toNat k word hw b_k rfl
  rw [major22 word f26_6]
  unfold decodeMajor22
  rw [f0_8, f21_5, f16_5, f11_5, f8_3, wordBits i]; try rfl
theorem vremVi (d : Nat) (a : Nat) (i : BitVec 5) (k : Nat) : Statement (.vremVi d a i k) := by
  intro hwf word hw
  replace hwf : (d < 32 && a < 32 && k < 8 : Bool) = true := hwf
  simp only [Bool.and_eq_true, decide_eq_true_eq] at hwf
  have b_d : d < 32 := hwf.1.1
  have b_a : a < 32 := hwf.1.2
  have b_k : k < 8 := hwf.2
  replace hw : 0x88000007 + d * 2 ^ 21 + a * 2 ^ 16 + i.toNat * 2 ^ 11 + k * 2 ^ 8 = word := Option.some.inj hw
  have f26_6 : Sys2Proof.fld word 26 6 = 34 := Sys2Proof.Laws.Field.bits26w6_of_21w5_16w5_11w5_8w3 0x88000007 d a i.toNat k word hw b_d b_a i.isLt b_k rfl rfl rfl rfl
  have f0_8 : Sys2Proof.fld word 0 8 = 7 := Sys2Proof.Laws.Field.bits0w8_of_21w5_16w5_11w5_8w3 0x88000007 d a i.toNat k word hw
  have f21_5 : Sys2Proof.fld word 21 5 = d := Sys2Proof.Laws.Field.bits21w5_of_21w5_16w5_11w5_8w3 0x88000007 d a i.toNat k word hw b_d b_a i.isLt b_k rfl rfl rfl rfl
  have f16_5 : Sys2Proof.fld word 16 5 = a := Sys2Proof.Laws.Field.bits16w5_of_21w5_16w5_11w5_8w3 0x88000007 d a i.toNat k word hw b_a i.isLt b_k rfl rfl rfl
  have f11_5 : Sys2Proof.fld word 11 5 = i.toNat := Sys2Proof.Laws.Field.bits11w5_of_21w5_16w5_11w5_8w3 0x88000007 d a i.toNat k word hw i.isLt b_k rfl rfl
  have f8_3 : Sys2Proof.fld word 8 3 = k := Sys2Proof.Laws.Field.bits8w3_of_21w5_16w5_11w5_8w3 0x88000007 d a i.toNat k word hw b_k rfl
  rw [major22 word f26_6]
  unfold decodeMajor22
  rw [f0_8, f21_5, f16_5, f11_5, f8_3, wordBits i]; try rfl
theorem vremnVi (d : Nat) (a : Nat) (i : BitVec 5) (k : Nat) : Statement (.vremnVi d a i k) := by
  intro hwf word hw
  replace hwf : (d < 32 && a < 32 && k < 8 : Bool) = true := hwf
  simp only [Bool.and_eq_true, decide_eq_true_eq] at hwf
  have b_d : d < 32 := hwf.1.1
  have b_a : a < 32 := hwf.1.2
  have b_k : k < 8 := hwf.2
  replace hw : 0x88000008 + d * 2 ^ 21 + a * 2 ^ 16 + i.toNat * 2 ^ 11 + k * 2 ^ 8 = word := Option.some.inj hw
  have f26_6 : Sys2Proof.fld word 26 6 = 34 := Sys2Proof.Laws.Field.bits26w6_of_21w5_16w5_11w5_8w3 0x88000008 d a i.toNat k word hw b_d b_a i.isLt b_k rfl rfl rfl rfl
  have f0_8 : Sys2Proof.fld word 0 8 = 8 := Sys2Proof.Laws.Field.bits0w8_of_21w5_16w5_11w5_8w3 0x88000008 d a i.toNat k word hw
  have f21_5 : Sys2Proof.fld word 21 5 = d := Sys2Proof.Laws.Field.bits21w5_of_21w5_16w5_11w5_8w3 0x88000008 d a i.toNat k word hw b_d b_a i.isLt b_k rfl rfl rfl rfl
  have f16_5 : Sys2Proof.fld word 16 5 = a := Sys2Proof.Laws.Field.bits16w5_of_21w5_16w5_11w5_8w3 0x88000008 d a i.toNat k word hw b_a i.isLt b_k rfl rfl rfl
  have f11_5 : Sys2Proof.fld word 11 5 = i.toNat := Sys2Proof.Laws.Field.bits11w5_of_21w5_16w5_11w5_8w3 0x88000008 d a i.toNat k word hw i.isLt b_k rfl rfl
  have f8_3 : Sys2Proof.fld word 8 3 = k := Sys2Proof.Laws.Field.bits8w3_of_21w5_16w5_11w5_8w3 0x88000008 d a i.toNat k word hw b_k rfl
  rw [major22 word f26_6]
  unfold decodeMajor22
  rw [f0_8, f21_5, f16_5, f11_5, f8_3, wordBits i]; try rfl
theorem vminVi (d : Nat) (a : Nat) (i : BitVec 5) (k : Nat) : Statement (.vminVi d a i k) := by
  intro hwf word hw
  replace hwf : (d < 32 && a < 32 && k < 8 : Bool) = true := hwf
  simp only [Bool.and_eq_true, decide_eq_true_eq] at hwf
  have b_d : d < 32 := hwf.1.1
  have b_a : a < 32 := hwf.1.2
  have b_k : k < 8 := hwf.2
  replace hw : 0x88000009 + d * 2 ^ 21 + a * 2 ^ 16 + i.toNat * 2 ^ 11 + k * 2 ^ 8 = word := Option.some.inj hw
  have f26_6 : Sys2Proof.fld word 26 6 = 34 := Sys2Proof.Laws.Field.bits26w6_of_21w5_16w5_11w5_8w3 0x88000009 d a i.toNat k word hw b_d b_a i.isLt b_k rfl rfl rfl rfl
  have f0_8 : Sys2Proof.fld word 0 8 = 9 := Sys2Proof.Laws.Field.bits0w8_of_21w5_16w5_11w5_8w3 0x88000009 d a i.toNat k word hw
  have f21_5 : Sys2Proof.fld word 21 5 = d := Sys2Proof.Laws.Field.bits21w5_of_21w5_16w5_11w5_8w3 0x88000009 d a i.toNat k word hw b_d b_a i.isLt b_k rfl rfl rfl rfl
  have f16_5 : Sys2Proof.fld word 16 5 = a := Sys2Proof.Laws.Field.bits16w5_of_21w5_16w5_11w5_8w3 0x88000009 d a i.toNat k word hw b_a i.isLt b_k rfl rfl rfl
  have f11_5 : Sys2Proof.fld word 11 5 = i.toNat := Sys2Proof.Laws.Field.bits11w5_of_21w5_16w5_11w5_8w3 0x88000009 d a i.toNat k word hw i.isLt b_k rfl rfl
  have f8_3 : Sys2Proof.fld word 8 3 = k := Sys2Proof.Laws.Field.bits8w3_of_21w5_16w5_11w5_8w3 0x88000009 d a i.toNat k word hw b_k rfl
  rw [major22 word f26_6]
  unfold decodeMajor22
  rw [f0_8, f21_5, f16_5, f11_5, f8_3, wordBits i]; try rfl
theorem vminnVi (d : Nat) (a : Nat) (i : BitVec 5) (k : Nat) : Statement (.vminnVi d a i k) := by
  intro hwf word hw
  replace hwf : (d < 32 && a < 32 && k < 8 : Bool) = true := hwf
  simp only [Bool.and_eq_true, decide_eq_true_eq] at hwf
  have b_d : d < 32 := hwf.1.1
  have b_a : a < 32 := hwf.1.2
  have b_k : k < 8 := hwf.2
  replace hw : 0x8800000a + d * 2 ^ 21 + a * 2 ^ 16 + i.toNat * 2 ^ 11 + k * 2 ^ 8 = word := Option.some.inj hw
  have f26_6 : Sys2Proof.fld word 26 6 = 34 := Sys2Proof.Laws.Field.bits26w6_of_21w5_16w5_11w5_8w3 0x8800000a d a i.toNat k word hw b_d b_a i.isLt b_k rfl rfl rfl rfl
  have f0_8 : Sys2Proof.fld word 0 8 = 10 := Sys2Proof.Laws.Field.bits0w8_of_21w5_16w5_11w5_8w3 0x8800000a d a i.toNat k word hw
  have f21_5 : Sys2Proof.fld word 21 5 = d := Sys2Proof.Laws.Field.bits21w5_of_21w5_16w5_11w5_8w3 0x8800000a d a i.toNat k word hw b_d b_a i.isLt b_k rfl rfl rfl rfl
  have f16_5 : Sys2Proof.fld word 16 5 = a := Sys2Proof.Laws.Field.bits16w5_of_21w5_16w5_11w5_8w3 0x8800000a d a i.toNat k word hw b_a i.isLt b_k rfl rfl rfl
  have f11_5 : Sys2Proof.fld word 11 5 = i.toNat := Sys2Proof.Laws.Field.bits11w5_of_21w5_16w5_11w5_8w3 0x8800000a d a i.toNat k word hw i.isLt b_k rfl rfl
  have f8_3 : Sys2Proof.fld word 8 3 = k := Sys2Proof.Laws.Field.bits8w3_of_21w5_16w5_11w5_8w3 0x8800000a d a i.toNat k word hw b_k rfl
  rw [major22 word f26_6]
  unfold decodeMajor22
  rw [f0_8, f21_5, f16_5, f11_5, f8_3, wordBits i]; try rfl
theorem vmaxVi (d : Nat) (a : Nat) (i : BitVec 5) (k : Nat) : Statement (.vmaxVi d a i k) := by
  intro hwf word hw
  replace hwf : (d < 32 && a < 32 && k < 8 : Bool) = true := hwf
  simp only [Bool.and_eq_true, decide_eq_true_eq] at hwf
  have b_d : d < 32 := hwf.1.1
  have b_a : a < 32 := hwf.1.2
  have b_k : k < 8 := hwf.2
  replace hw : 0x8800000b + d * 2 ^ 21 + a * 2 ^ 16 + i.toNat * 2 ^ 11 + k * 2 ^ 8 = word := Option.some.inj hw
  have f26_6 : Sys2Proof.fld word 26 6 = 34 := Sys2Proof.Laws.Field.bits26w6_of_21w5_16w5_11w5_8w3 0x8800000b d a i.toNat k word hw b_d b_a i.isLt b_k rfl rfl rfl rfl
  have f0_8 : Sys2Proof.fld word 0 8 = 11 := Sys2Proof.Laws.Field.bits0w8_of_21w5_16w5_11w5_8w3 0x8800000b d a i.toNat k word hw
  have f21_5 : Sys2Proof.fld word 21 5 = d := Sys2Proof.Laws.Field.bits21w5_of_21w5_16w5_11w5_8w3 0x8800000b d a i.toNat k word hw b_d b_a i.isLt b_k rfl rfl rfl rfl
  have f16_5 : Sys2Proof.fld word 16 5 = a := Sys2Proof.Laws.Field.bits16w5_of_21w5_16w5_11w5_8w3 0x8800000b d a i.toNat k word hw b_a i.isLt b_k rfl rfl rfl
  have f11_5 : Sys2Proof.fld word 11 5 = i.toNat := Sys2Proof.Laws.Field.bits11w5_of_21w5_16w5_11w5_8w3 0x8800000b d a i.toNat k word hw i.isLt b_k rfl rfl
  have f8_3 : Sys2Proof.fld word 8 3 = k := Sys2Proof.Laws.Field.bits8w3_of_21w5_16w5_11w5_8w3 0x8800000b d a i.toNat k word hw b_k rfl
  rw [major22 word f26_6]
  unfold decodeMajor22
  rw [f0_8, f21_5, f16_5, f11_5, f8_3, wordBits i]; try rfl
theorem vmaxnVi (d : Nat) (a : Nat) (i : BitVec 5) (k : Nat) : Statement (.vmaxnVi d a i k) := by
  intro hwf word hw
  replace hwf : (d < 32 && a < 32 && k < 8 : Bool) = true := hwf
  simp only [Bool.and_eq_true, decide_eq_true_eq] at hwf
  have b_d : d < 32 := hwf.1.1
  have b_a : a < 32 := hwf.1.2
  have b_k : k < 8 := hwf.2
  replace hw : 0x8800000c + d * 2 ^ 21 + a * 2 ^ 16 + i.toNat * 2 ^ 11 + k * 2 ^ 8 = word := Option.some.inj hw
  have f26_6 : Sys2Proof.fld word 26 6 = 34 := Sys2Proof.Laws.Field.bits26w6_of_21w5_16w5_11w5_8w3 0x8800000c d a i.toNat k word hw b_d b_a i.isLt b_k rfl rfl rfl rfl
  have f0_8 : Sys2Proof.fld word 0 8 = 12 := Sys2Proof.Laws.Field.bits0w8_of_21w5_16w5_11w5_8w3 0x8800000c d a i.toNat k word hw
  have f21_5 : Sys2Proof.fld word 21 5 = d := Sys2Proof.Laws.Field.bits21w5_of_21w5_16w5_11w5_8w3 0x8800000c d a i.toNat k word hw b_d b_a i.isLt b_k rfl rfl rfl rfl
  have f16_5 : Sys2Proof.fld word 16 5 = a := Sys2Proof.Laws.Field.bits16w5_of_21w5_16w5_11w5_8w3 0x8800000c d a i.toNat k word hw b_a i.isLt b_k rfl rfl rfl
  have f11_5 : Sys2Proof.fld word 11 5 = i.toNat := Sys2Proof.Laws.Field.bits11w5_of_21w5_16w5_11w5_8w3 0x8800000c d a i.toNat k word hw i.isLt b_k rfl rfl
  have f8_3 : Sys2Proof.fld word 8 3 = k := Sys2Proof.Laws.Field.bits8w3_of_21w5_16w5_11w5_8w3 0x8800000c d a i.toNat k word hw b_k rfl
  rw [major22 word f26_6]
  unfold decodeMajor22
  rw [f0_8, f21_5, f16_5, f11_5, f8_3, wordBits i]; try rfl
theorem vandVi (d : Nat) (a : Nat) (i : BitVec 5) (k : Nat) : Statement (.vandVi d a i k) := by
  intro hwf word hw
  replace hwf : (d < 32 && a < 32 && k < 8 : Bool) = true := hwf
  simp only [Bool.and_eq_true, decide_eq_true_eq] at hwf
  have b_d : d < 32 := hwf.1.1
  have b_a : a < 32 := hwf.1.2
  have b_k : k < 8 := hwf.2
  replace hw : 0x8800000d + d * 2 ^ 21 + a * 2 ^ 16 + i.toNat * 2 ^ 11 + k * 2 ^ 8 = word := Option.some.inj hw
  have f26_6 : Sys2Proof.fld word 26 6 = 34 := Sys2Proof.Laws.Field.bits26w6_of_21w5_16w5_11w5_8w3 0x8800000d d a i.toNat k word hw b_d b_a i.isLt b_k rfl rfl rfl rfl
  have f0_8 : Sys2Proof.fld word 0 8 = 13 := Sys2Proof.Laws.Field.bits0w8_of_21w5_16w5_11w5_8w3 0x8800000d d a i.toNat k word hw
  have f21_5 : Sys2Proof.fld word 21 5 = d := Sys2Proof.Laws.Field.bits21w5_of_21w5_16w5_11w5_8w3 0x8800000d d a i.toNat k word hw b_d b_a i.isLt b_k rfl rfl rfl rfl
  have f16_5 : Sys2Proof.fld word 16 5 = a := Sys2Proof.Laws.Field.bits16w5_of_21w5_16w5_11w5_8w3 0x8800000d d a i.toNat k word hw b_a i.isLt b_k rfl rfl rfl
  have f11_5 : Sys2Proof.fld word 11 5 = i.toNat := Sys2Proof.Laws.Field.bits11w5_of_21w5_16w5_11w5_8w3 0x8800000d d a i.toNat k word hw i.isLt b_k rfl rfl
  have f8_3 : Sys2Proof.fld word 8 3 = k := Sys2Proof.Laws.Field.bits8w3_of_21w5_16w5_11w5_8w3 0x8800000d d a i.toNat k word hw b_k rfl
  rw [major22 word f26_6]
  unfold decodeMajor22
  rw [f0_8, f21_5, f16_5, f11_5, f8_3, wordBits i]; try rfl
theorem vorVi (d : Nat) (a : Nat) (i : BitVec 5) (k : Nat) : Statement (.vorVi d a i k) := by
  intro hwf word hw
  replace hwf : (d < 32 && a < 32 && k < 8 : Bool) = true := hwf
  simp only [Bool.and_eq_true, decide_eq_true_eq] at hwf
  have b_d : d < 32 := hwf.1.1
  have b_a : a < 32 := hwf.1.2
  have b_k : k < 8 := hwf.2
  replace hw : 0x8800000e + d * 2 ^ 21 + a * 2 ^ 16 + i.toNat * 2 ^ 11 + k * 2 ^ 8 = word := Option.some.inj hw
  have f26_6 : Sys2Proof.fld word 26 6 = 34 := Sys2Proof.Laws.Field.bits26w6_of_21w5_16w5_11w5_8w3 0x8800000e d a i.toNat k word hw b_d b_a i.isLt b_k rfl rfl rfl rfl
  have f0_8 : Sys2Proof.fld word 0 8 = 14 := Sys2Proof.Laws.Field.bits0w8_of_21w5_16w5_11w5_8w3 0x8800000e d a i.toNat k word hw
  have f21_5 : Sys2Proof.fld word 21 5 = d := Sys2Proof.Laws.Field.bits21w5_of_21w5_16w5_11w5_8w3 0x8800000e d a i.toNat k word hw b_d b_a i.isLt b_k rfl rfl rfl rfl
  have f16_5 : Sys2Proof.fld word 16 5 = a := Sys2Proof.Laws.Field.bits16w5_of_21w5_16w5_11w5_8w3 0x8800000e d a i.toNat k word hw b_a i.isLt b_k rfl rfl rfl
  have f11_5 : Sys2Proof.fld word 11 5 = i.toNat := Sys2Proof.Laws.Field.bits11w5_of_21w5_16w5_11w5_8w3 0x8800000e d a i.toNat k word hw i.isLt b_k rfl rfl
  have f8_3 : Sys2Proof.fld word 8 3 = k := Sys2Proof.Laws.Field.bits8w3_of_21w5_16w5_11w5_8w3 0x8800000e d a i.toNat k word hw b_k rfl
  rw [major22 word f26_6]
  unfold decodeMajor22
  rw [f0_8, f21_5, f16_5, f11_5, f8_3, wordBits i]; try rfl
theorem vxorVi (d : Nat) (a : Nat) (i : BitVec 5) (k : Nat) : Statement (.vxorVi d a i k) := by
  intro hwf word hw
  replace hwf : (d < 32 && a < 32 && k < 8 : Bool) = true := hwf
  simp only [Bool.and_eq_true, decide_eq_true_eq] at hwf
  have b_d : d < 32 := hwf.1.1
  have b_a : a < 32 := hwf.1.2
  have b_k : k < 8 := hwf.2
  replace hw : 0x8800000f + d * 2 ^ 21 + a * 2 ^ 16 + i.toNat * 2 ^ 11 + k * 2 ^ 8 = word := Option.some.inj hw
  have f26_6 : Sys2Proof.fld word 26 6 = 34 := Sys2Proof.Laws.Field.bits26w6_of_21w5_16w5_11w5_8w3 0x8800000f d a i.toNat k word hw b_d b_a i.isLt b_k rfl rfl rfl rfl
  have f0_8 : Sys2Proof.fld word 0 8 = 15 := Sys2Proof.Laws.Field.bits0w8_of_21w5_16w5_11w5_8w3 0x8800000f d a i.toNat k word hw
  have f21_5 : Sys2Proof.fld word 21 5 = d := Sys2Proof.Laws.Field.bits21w5_of_21w5_16w5_11w5_8w3 0x8800000f d a i.toNat k word hw b_d b_a i.isLt b_k rfl rfl rfl rfl
  have f16_5 : Sys2Proof.fld word 16 5 = a := Sys2Proof.Laws.Field.bits16w5_of_21w5_16w5_11w5_8w3 0x8800000f d a i.toNat k word hw b_a i.isLt b_k rfl rfl rfl
  have f11_5 : Sys2Proof.fld word 11 5 = i.toNat := Sys2Proof.Laws.Field.bits11w5_of_21w5_16w5_11w5_8w3 0x8800000f d a i.toNat k word hw i.isLt b_k rfl rfl
  have f8_3 : Sys2Proof.fld word 8 3 = k := Sys2Proof.Laws.Field.bits8w3_of_21w5_16w5_11w5_8w3 0x8800000f d a i.toNat k word hw b_k rfl
  rw [major22 word f26_6]
  unfold decodeMajor22
  rw [f0_8, f21_5, f16_5, f11_5, f8_3, wordBits i]; try rfl
theorem vsllVi (d : Nat) (a : Nat) (i : BitVec 5) (k : Nat) : Statement (.vsllVi d a i k) := by
  intro hwf word hw
  replace hwf : (d < 32 && a < 32 && k < 8 : Bool) = true := hwf
  simp only [Bool.and_eq_true, decide_eq_true_eq] at hwf
  have b_d : d < 32 := hwf.1.1
  have b_a : a < 32 := hwf.1.2
  have b_k : k < 8 := hwf.2
  replace hw : 0x88000010 + d * 2 ^ 21 + a * 2 ^ 16 + i.toNat * 2 ^ 11 + k * 2 ^ 8 = word := Option.some.inj hw
  have f26_6 : Sys2Proof.fld word 26 6 = 34 := Sys2Proof.Laws.Field.bits26w6_of_21w5_16w5_11w5_8w3 0x88000010 d a i.toNat k word hw b_d b_a i.isLt b_k rfl rfl rfl rfl
  have f0_8 : Sys2Proof.fld word 0 8 = 16 := Sys2Proof.Laws.Field.bits0w8_of_21w5_16w5_11w5_8w3 0x88000010 d a i.toNat k word hw
  have f21_5 : Sys2Proof.fld word 21 5 = d := Sys2Proof.Laws.Field.bits21w5_of_21w5_16w5_11w5_8w3 0x88000010 d a i.toNat k word hw b_d b_a i.isLt b_k rfl rfl rfl rfl
  have f16_5 : Sys2Proof.fld word 16 5 = a := Sys2Proof.Laws.Field.bits16w5_of_21w5_16w5_11w5_8w3 0x88000010 d a i.toNat k word hw b_a i.isLt b_k rfl rfl rfl
  have f11_5 : Sys2Proof.fld word 11 5 = i.toNat := Sys2Proof.Laws.Field.bits11w5_of_21w5_16w5_11w5_8w3 0x88000010 d a i.toNat k word hw i.isLt b_k rfl rfl
  have f8_3 : Sys2Proof.fld word 8 3 = k := Sys2Proof.Laws.Field.bits8w3_of_21w5_16w5_11w5_8w3 0x88000010 d a i.toNat k word hw b_k rfl
  rw [major22 word f26_6]
  unfold decodeMajor22
  rw [f0_8, f21_5, f16_5, f11_5, f8_3, wordBits i]; try rfl
theorem vsrlVi (d : Nat) (a : Nat) (i : BitVec 5) (k : Nat) : Statement (.vsrlVi d a i k) := by
  intro hwf word hw
  replace hwf : (d < 32 && a < 32 && k < 8 : Bool) = true := hwf
  simp only [Bool.and_eq_true, decide_eq_true_eq] at hwf
  have b_d : d < 32 := hwf.1.1
  have b_a : a < 32 := hwf.1.2
  have b_k : k < 8 := hwf.2
  replace hw : 0x88000011 + d * 2 ^ 21 + a * 2 ^ 16 + i.toNat * 2 ^ 11 + k * 2 ^ 8 = word := Option.some.inj hw
  have f26_6 : Sys2Proof.fld word 26 6 = 34 := Sys2Proof.Laws.Field.bits26w6_of_21w5_16w5_11w5_8w3 0x88000011 d a i.toNat k word hw b_d b_a i.isLt b_k rfl rfl rfl rfl
  have f0_8 : Sys2Proof.fld word 0 8 = 17 := Sys2Proof.Laws.Field.bits0w8_of_21w5_16w5_11w5_8w3 0x88000011 d a i.toNat k word hw
  have f21_5 : Sys2Proof.fld word 21 5 = d := Sys2Proof.Laws.Field.bits21w5_of_21w5_16w5_11w5_8w3 0x88000011 d a i.toNat k word hw b_d b_a i.isLt b_k rfl rfl rfl rfl
  have f16_5 : Sys2Proof.fld word 16 5 = a := Sys2Proof.Laws.Field.bits16w5_of_21w5_16w5_11w5_8w3 0x88000011 d a i.toNat k word hw b_a i.isLt b_k rfl rfl rfl
  have f11_5 : Sys2Proof.fld word 11 5 = i.toNat := Sys2Proof.Laws.Field.bits11w5_of_21w5_16w5_11w5_8w3 0x88000011 d a i.toNat k word hw i.isLt b_k rfl rfl
  have f8_3 : Sys2Proof.fld word 8 3 = k := Sys2Proof.Laws.Field.bits8w3_of_21w5_16w5_11w5_8w3 0x88000011 d a i.toNat k word hw b_k rfl
  rw [major22 word f26_6]
  unfold decodeMajor22
  rw [f0_8, f21_5, f16_5, f11_5, f8_3, wordBits i]; try rfl
theorem vsraVi (d : Nat) (a : Nat) (i : BitVec 5) (k : Nat) : Statement (.vsraVi d a i k) := by
  intro hwf word hw
  replace hwf : (d < 32 && a < 32 && k < 8 : Bool) = true := hwf
  simp only [Bool.and_eq_true, decide_eq_true_eq] at hwf
  have b_d : d < 32 := hwf.1.1
  have b_a : a < 32 := hwf.1.2
  have b_k : k < 8 := hwf.2
  replace hw : 0x88000012 + d * 2 ^ 21 + a * 2 ^ 16 + i.toNat * 2 ^ 11 + k * 2 ^ 8 = word := Option.some.inj hw
  have f26_6 : Sys2Proof.fld word 26 6 = 34 := Sys2Proof.Laws.Field.bits26w6_of_21w5_16w5_11w5_8w3 0x88000012 d a i.toNat k word hw b_d b_a i.isLt b_k rfl rfl rfl rfl
  have f0_8 : Sys2Proof.fld word 0 8 = 18 := Sys2Proof.Laws.Field.bits0w8_of_21w5_16w5_11w5_8w3 0x88000012 d a i.toNat k word hw
  have f21_5 : Sys2Proof.fld word 21 5 = d := Sys2Proof.Laws.Field.bits21w5_of_21w5_16w5_11w5_8w3 0x88000012 d a i.toNat k word hw b_d b_a i.isLt b_k rfl rfl rfl rfl
  have f16_5 : Sys2Proof.fld word 16 5 = a := Sys2Proof.Laws.Field.bits16w5_of_21w5_16w5_11w5_8w3 0x88000012 d a i.toNat k word hw b_a i.isLt b_k rfl rfl rfl
  have f11_5 : Sys2Proof.fld word 11 5 = i.toNat := Sys2Proof.Laws.Field.bits11w5_of_21w5_16w5_11w5_8w3 0x88000012 d a i.toNat k word hw i.isLt b_k rfl rfl
  have f8_3 : Sys2Proof.fld word 8 3 = k := Sys2Proof.Laws.Field.bits8w3_of_21w5_16w5_11w5_8w3 0x88000012 d a i.toNat k word hw b_k rfl
  rw [major22 word f26_6]
  unfold decodeMajor22
  rw [f0_8, f21_5, f16_5, f11_5, f8_3, wordBits i]; try rfl
theorem vsaddVi (d : Nat) (a : Nat) (i : BitVec 5) (k : Nat) : Statement (.vsaddVi d a i k) := by
  intro hwf word hw
  replace hwf : (d < 32 && a < 32 && k < 8 : Bool) = true := hwf
  simp only [Bool.and_eq_true, decide_eq_true_eq] at hwf
  have b_d : d < 32 := hwf.1.1
  have b_a : a < 32 := hwf.1.2
  have b_k : k < 8 := hwf.2
  replace hw : 0x88000013 + d * 2 ^ 21 + a * 2 ^ 16 + i.toNat * 2 ^ 11 + k * 2 ^ 8 = word := Option.some.inj hw
  have f26_6 : Sys2Proof.fld word 26 6 = 34 := Sys2Proof.Laws.Field.bits26w6_of_21w5_16w5_11w5_8w3 0x88000013 d a i.toNat k word hw b_d b_a i.isLt b_k rfl rfl rfl rfl
  have f0_8 : Sys2Proof.fld word 0 8 = 19 := Sys2Proof.Laws.Field.bits0w8_of_21w5_16w5_11w5_8w3 0x88000013 d a i.toNat k word hw
  have f21_5 : Sys2Proof.fld word 21 5 = d := Sys2Proof.Laws.Field.bits21w5_of_21w5_16w5_11w5_8w3 0x88000013 d a i.toNat k word hw b_d b_a i.isLt b_k rfl rfl rfl rfl
  have f16_5 : Sys2Proof.fld word 16 5 = a := Sys2Proof.Laws.Field.bits16w5_of_21w5_16w5_11w5_8w3 0x88000013 d a i.toNat k word hw b_a i.isLt b_k rfl rfl rfl
  have f11_5 : Sys2Proof.fld word 11 5 = i.toNat := Sys2Proof.Laws.Field.bits11w5_of_21w5_16w5_11w5_8w3 0x88000013 d a i.toNat k word hw i.isLt b_k rfl rfl
  have f8_3 : Sys2Proof.fld word 8 3 = k := Sys2Proof.Laws.Field.bits8w3_of_21w5_16w5_11w5_8w3 0x88000013 d a i.toNat k word hw b_k rfl
  rw [major22 word f26_6]
  unfold decodeMajor22
  rw [f0_8, f21_5, f16_5, f11_5, f8_3, wordBits i]; try rfl
theorem vsaddnVi (d : Nat) (a : Nat) (i : BitVec 5) (k : Nat) : Statement (.vsaddnVi d a i k) := by
  intro hwf word hw
  replace hwf : (d < 32 && a < 32 && k < 8 : Bool) = true := hwf
  simp only [Bool.and_eq_true, decide_eq_true_eq] at hwf
  have b_d : d < 32 := hwf.1.1
  have b_a : a < 32 := hwf.1.2
  have b_k : k < 8 := hwf.2
  replace hw : 0x88000014 + d * 2 ^ 21 + a * 2 ^ 16 + i.toNat * 2 ^ 11 + k * 2 ^ 8 = word := Option.some.inj hw
  have f26_6 : Sys2Proof.fld word 26 6 = 34 := Sys2Proof.Laws.Field.bits26w6_of_21w5_16w5_11w5_8w3 0x88000014 d a i.toNat k word hw b_d b_a i.isLt b_k rfl rfl rfl rfl
  have f0_8 : Sys2Proof.fld word 0 8 = 20 := Sys2Proof.Laws.Field.bits0w8_of_21w5_16w5_11w5_8w3 0x88000014 d a i.toNat k word hw
  have f21_5 : Sys2Proof.fld word 21 5 = d := Sys2Proof.Laws.Field.bits21w5_of_21w5_16w5_11w5_8w3 0x88000014 d a i.toNat k word hw b_d b_a i.isLt b_k rfl rfl rfl rfl
  have f16_5 : Sys2Proof.fld word 16 5 = a := Sys2Proof.Laws.Field.bits16w5_of_21w5_16w5_11w5_8w3 0x88000014 d a i.toNat k word hw b_a i.isLt b_k rfl rfl rfl
  have f11_5 : Sys2Proof.fld word 11 5 = i.toNat := Sys2Proof.Laws.Field.bits11w5_of_21w5_16w5_11w5_8w3 0x88000014 d a i.toNat k word hw i.isLt b_k rfl rfl
  have f8_3 : Sys2Proof.fld word 8 3 = k := Sys2Proof.Laws.Field.bits8w3_of_21w5_16w5_11w5_8w3 0x88000014 d a i.toNat k word hw b_k rfl
  rw [major22 word f26_6]
  unfold decodeMajor22
  rw [f0_8, f21_5, f16_5, f11_5, f8_3, wordBits i]; try rfl
theorem vssubVi (d : Nat) (a : Nat) (i : BitVec 5) (k : Nat) : Statement (.vssubVi d a i k) := by
  intro hwf word hw
  replace hwf : (d < 32 && a < 32 && k < 8 : Bool) = true := hwf
  simp only [Bool.and_eq_true, decide_eq_true_eq] at hwf
  have b_d : d < 32 := hwf.1.1
  have b_a : a < 32 := hwf.1.2
  have b_k : k < 8 := hwf.2
  replace hw : 0x88000015 + d * 2 ^ 21 + a * 2 ^ 16 + i.toNat * 2 ^ 11 + k * 2 ^ 8 = word := Option.some.inj hw
  have f26_6 : Sys2Proof.fld word 26 6 = 34 := Sys2Proof.Laws.Field.bits26w6_of_21w5_16w5_11w5_8w3 0x88000015 d a i.toNat k word hw b_d b_a i.isLt b_k rfl rfl rfl rfl
  have f0_8 : Sys2Proof.fld word 0 8 = 21 := Sys2Proof.Laws.Field.bits0w8_of_21w5_16w5_11w5_8w3 0x88000015 d a i.toNat k word hw
  have f21_5 : Sys2Proof.fld word 21 5 = d := Sys2Proof.Laws.Field.bits21w5_of_21w5_16w5_11w5_8w3 0x88000015 d a i.toNat k word hw b_d b_a i.isLt b_k rfl rfl rfl rfl
  have f16_5 : Sys2Proof.fld word 16 5 = a := Sys2Proof.Laws.Field.bits16w5_of_21w5_16w5_11w5_8w3 0x88000015 d a i.toNat k word hw b_a i.isLt b_k rfl rfl rfl
  have f11_5 : Sys2Proof.fld word 11 5 = i.toNat := Sys2Proof.Laws.Field.bits11w5_of_21w5_16w5_11w5_8w3 0x88000015 d a i.toNat k word hw i.isLt b_k rfl rfl
  have f8_3 : Sys2Proof.fld word 8 3 = k := Sys2Proof.Laws.Field.bits8w3_of_21w5_16w5_11w5_8w3 0x88000015 d a i.toNat k word hw b_k rfl
  rw [major22 word f26_6]
  unfold decodeMajor22
  rw [f0_8, f21_5, f16_5, f11_5, f8_3, wordBits i]; try rfl
theorem vssubnVi (d : Nat) (a : Nat) (i : BitVec 5) (k : Nat) : Statement (.vssubnVi d a i k) := by
  intro hwf word hw
  replace hwf : (d < 32 && a < 32 && k < 8 : Bool) = true := hwf
  simp only [Bool.and_eq_true, decide_eq_true_eq] at hwf
  have b_d : d < 32 := hwf.1.1
  have b_a : a < 32 := hwf.1.2
  have b_k : k < 8 := hwf.2
  replace hw : 0x88000016 + d * 2 ^ 21 + a * 2 ^ 16 + i.toNat * 2 ^ 11 + k * 2 ^ 8 = word := Option.some.inj hw
  have f26_6 : Sys2Proof.fld word 26 6 = 34 := Sys2Proof.Laws.Field.bits26w6_of_21w5_16w5_11w5_8w3 0x88000016 d a i.toNat k word hw b_d b_a i.isLt b_k rfl rfl rfl rfl
  have f0_8 : Sys2Proof.fld word 0 8 = 22 := Sys2Proof.Laws.Field.bits0w8_of_21w5_16w5_11w5_8w3 0x88000016 d a i.toNat k word hw
  have f21_5 : Sys2Proof.fld word 21 5 = d := Sys2Proof.Laws.Field.bits21w5_of_21w5_16w5_11w5_8w3 0x88000016 d a i.toNat k word hw b_d b_a i.isLt b_k rfl rfl rfl rfl
  have f16_5 : Sys2Proof.fld word 16 5 = a := Sys2Proof.Laws.Field.bits16w5_of_21w5_16w5_11w5_8w3 0x88000016 d a i.toNat k word hw b_a i.isLt b_k rfl rfl rfl
  have f11_5 : Sys2Proof.fld word 11 5 = i.toNat := Sys2Proof.Laws.Field.bits11w5_of_21w5_16w5_11w5_8w3 0x88000016 d a i.toNat k word hw i.isLt b_k rfl rfl
  have f8_3 : Sys2Proof.fld word 8 3 = k := Sys2Proof.Laws.Field.bits8w3_of_21w5_16w5_11w5_8w3 0x88000016 d a i.toNat k word hw b_k rfl
  rw [major22 word f26_6]
  unfold decodeMajor22
  rw [f0_8, f21_5, f16_5, f11_5, f8_3, wordBits i]; try rfl
theorem vfaddVv (d : Nat) (a : Nat) (b : Nat) (k : Nat) (bf : Bool) : Statement (.vfaddVv d a b k bf) := by
  intro hwf word hw
  replace hwf : (d < 32 && a < 32 && b < 32 && k < 8 : Bool) = true := hwf
  simp only [Bool.and_eq_true, decide_eq_true_eq] at hwf
  have b_d : d < 32 := hwf.1.1.1
  have b_a : a < 32 := hwf.1.1.2
  have b_b : b < 32 := hwf.1.2
  have b_k : k < 8 := hwf.2
  replace hw : 0x8c000000 + d * 2 ^ 21 + a * 2 ^ 16 + b * 2 ^ 11 + k * 2 ^ 8 + bf.toNat * 2 ^ 7 = word := Option.some.inj hw
  have f26_6 : Sys2Proof.fld word 26 6 = 35 := Sys2Proof.Laws.Field.bits26w6_of_21w5_16w5_11w5_8w3_7w1 0x8c000000 d a b k bf.toNat word hw b_d b_a b_b b_k (flagBit_lt bf) rfl rfl rfl rfl rfl
  have f0_7 : Sys2Proof.fld word 0 7 = 0 := Sys2Proof.Laws.Field.bits0w7_of_21w5_16w5_11w5_8w3_7w1 0x8c000000 d a b k bf.toNat word hw
  have f21_5 : Sys2Proof.fld word 21 5 = d := Sys2Proof.Laws.Field.bits21w5_of_21w5_16w5_11w5_8w3_7w1 0x8c000000 d a b k bf.toNat word hw b_d b_a b_b b_k (flagBit_lt bf) rfl rfl rfl rfl rfl
  have f16_5 : Sys2Proof.fld word 16 5 = a := Sys2Proof.Laws.Field.bits16w5_of_21w5_16w5_11w5_8w3_7w1 0x8c000000 d a b k bf.toNat word hw b_a b_b b_k (flagBit_lt bf) rfl rfl rfl rfl
  have f11_5 : Sys2Proof.fld word 11 5 = b := Sys2Proof.Laws.Field.bits11w5_of_21w5_16w5_11w5_8w3_7w1 0x8c000000 d a b k bf.toNat word hw b_b b_k (flagBit_lt bf) rfl rfl rfl
  have f8_3 : Sys2Proof.fld word 8 3 = k := Sys2Proof.Laws.Field.bits8w3_of_21w5_16w5_11w5_8w3_7w1 0x8c000000 d a b k bf.toNat word hw b_k (flagBit_lt bf) rfl rfl
  have f7_1 : Sys2Proof.fld word 7 1 = bf.toNat := Sys2Proof.Laws.Field.bits7w1_of_21w5_16w5_11w5_8w3_7w1 0x8c000000 d a b k bf.toNat word hw (flagBit_lt bf) rfl
  rw [major23 word f26_6]
  unfold decodeMajor23
  rw [f0_7, f21_5, f16_5, f11_5, f8_3, f7_1, flagBit bf]; try rfl
theorem vfsubVv (d : Nat) (a : Nat) (b : Nat) (k : Nat) (bf : Bool) : Statement (.vfsubVv d a b k bf) := by
  intro hwf word hw
  replace hwf : (d < 32 && a < 32 && b < 32 && k < 8 : Bool) = true := hwf
  simp only [Bool.and_eq_true, decide_eq_true_eq] at hwf
  have b_d : d < 32 := hwf.1.1.1
  have b_a : a < 32 := hwf.1.1.2
  have b_b : b < 32 := hwf.1.2
  have b_k : k < 8 := hwf.2
  replace hw : 0x8c000001 + d * 2 ^ 21 + a * 2 ^ 16 + b * 2 ^ 11 + k * 2 ^ 8 + bf.toNat * 2 ^ 7 = word := Option.some.inj hw
  have f26_6 : Sys2Proof.fld word 26 6 = 35 := Sys2Proof.Laws.Field.bits26w6_of_21w5_16w5_11w5_8w3_7w1 0x8c000001 d a b k bf.toNat word hw b_d b_a b_b b_k (flagBit_lt bf) rfl rfl rfl rfl rfl
  have f0_7 : Sys2Proof.fld word 0 7 = 1 := Sys2Proof.Laws.Field.bits0w7_of_21w5_16w5_11w5_8w3_7w1 0x8c000001 d a b k bf.toNat word hw
  have f21_5 : Sys2Proof.fld word 21 5 = d := Sys2Proof.Laws.Field.bits21w5_of_21w5_16w5_11w5_8w3_7w1 0x8c000001 d a b k bf.toNat word hw b_d b_a b_b b_k (flagBit_lt bf) rfl rfl rfl rfl rfl
  have f16_5 : Sys2Proof.fld word 16 5 = a := Sys2Proof.Laws.Field.bits16w5_of_21w5_16w5_11w5_8w3_7w1 0x8c000001 d a b k bf.toNat word hw b_a b_b b_k (flagBit_lt bf) rfl rfl rfl rfl
  have f11_5 : Sys2Proof.fld word 11 5 = b := Sys2Proof.Laws.Field.bits11w5_of_21w5_16w5_11w5_8w3_7w1 0x8c000001 d a b k bf.toNat word hw b_b b_k (flagBit_lt bf) rfl rfl rfl
  have f8_3 : Sys2Proof.fld word 8 3 = k := Sys2Proof.Laws.Field.bits8w3_of_21w5_16w5_11w5_8w3_7w1 0x8c000001 d a b k bf.toNat word hw b_k (flagBit_lt bf) rfl rfl
  have f7_1 : Sys2Proof.fld word 7 1 = bf.toNat := Sys2Proof.Laws.Field.bits7w1_of_21w5_16w5_11w5_8w3_7w1 0x8c000001 d a b k bf.toNat word hw (flagBit_lt bf) rfl
  rw [major23 word f26_6]
  unfold decodeMajor23
  rw [f0_7, f21_5, f16_5, f11_5, f8_3, f7_1, flagBit bf]; try rfl
theorem vfmulVv (d : Nat) (a : Nat) (b : Nat) (k : Nat) (bf : Bool) : Statement (.vfmulVv d a b k bf) := by
  intro hwf word hw
  replace hwf : (d < 32 && a < 32 && b < 32 && k < 8 : Bool) = true := hwf
  simp only [Bool.and_eq_true, decide_eq_true_eq] at hwf
  have b_d : d < 32 := hwf.1.1.1
  have b_a : a < 32 := hwf.1.1.2
  have b_b : b < 32 := hwf.1.2
  have b_k : k < 8 := hwf.2
  replace hw : 0x8c000002 + d * 2 ^ 21 + a * 2 ^ 16 + b * 2 ^ 11 + k * 2 ^ 8 + bf.toNat * 2 ^ 7 = word := Option.some.inj hw
  have f26_6 : Sys2Proof.fld word 26 6 = 35 := Sys2Proof.Laws.Field.bits26w6_of_21w5_16w5_11w5_8w3_7w1 0x8c000002 d a b k bf.toNat word hw b_d b_a b_b b_k (flagBit_lt bf) rfl rfl rfl rfl rfl
  have f0_7 : Sys2Proof.fld word 0 7 = 2 := Sys2Proof.Laws.Field.bits0w7_of_21w5_16w5_11w5_8w3_7w1 0x8c000002 d a b k bf.toNat word hw
  have f21_5 : Sys2Proof.fld word 21 5 = d := Sys2Proof.Laws.Field.bits21w5_of_21w5_16w5_11w5_8w3_7w1 0x8c000002 d a b k bf.toNat word hw b_d b_a b_b b_k (flagBit_lt bf) rfl rfl rfl rfl rfl
  have f16_5 : Sys2Proof.fld word 16 5 = a := Sys2Proof.Laws.Field.bits16w5_of_21w5_16w5_11w5_8w3_7w1 0x8c000002 d a b k bf.toNat word hw b_a b_b b_k (flagBit_lt bf) rfl rfl rfl rfl
  have f11_5 : Sys2Proof.fld word 11 5 = b := Sys2Proof.Laws.Field.bits11w5_of_21w5_16w5_11w5_8w3_7w1 0x8c000002 d a b k bf.toNat word hw b_b b_k (flagBit_lt bf) rfl rfl rfl
  have f8_3 : Sys2Proof.fld word 8 3 = k := Sys2Proof.Laws.Field.bits8w3_of_21w5_16w5_11w5_8w3_7w1 0x8c000002 d a b k bf.toNat word hw b_k (flagBit_lt bf) rfl rfl
  have f7_1 : Sys2Proof.fld word 7 1 = bf.toNat := Sys2Proof.Laws.Field.bits7w1_of_21w5_16w5_11w5_8w3_7w1 0x8c000002 d a b k bf.toNat word hw (flagBit_lt bf) rfl
  rw [major23 word f26_6]
  unfold decodeMajor23
  rw [f0_7, f21_5, f16_5, f11_5, f8_3, f7_1, flagBit bf]; try rfl
theorem vfdivVv (d : Nat) (a : Nat) (b : Nat) (k : Nat) (bf : Bool) : Statement (.vfdivVv d a b k bf) := by
  intro hwf word hw
  replace hwf : (d < 32 && a < 32 && b < 32 && k < 8 : Bool) = true := hwf
  simp only [Bool.and_eq_true, decide_eq_true_eq] at hwf
  have b_d : d < 32 := hwf.1.1.1
  have b_a : a < 32 := hwf.1.1.2
  have b_b : b < 32 := hwf.1.2
  have b_k : k < 8 := hwf.2
  replace hw : 0x8c000003 + d * 2 ^ 21 + a * 2 ^ 16 + b * 2 ^ 11 + k * 2 ^ 8 + bf.toNat * 2 ^ 7 = word := Option.some.inj hw
  have f26_6 : Sys2Proof.fld word 26 6 = 35 := Sys2Proof.Laws.Field.bits26w6_of_21w5_16w5_11w5_8w3_7w1 0x8c000003 d a b k bf.toNat word hw b_d b_a b_b b_k (flagBit_lt bf) rfl rfl rfl rfl rfl
  have f0_7 : Sys2Proof.fld word 0 7 = 3 := Sys2Proof.Laws.Field.bits0w7_of_21w5_16w5_11w5_8w3_7w1 0x8c000003 d a b k bf.toNat word hw
  have f21_5 : Sys2Proof.fld word 21 5 = d := Sys2Proof.Laws.Field.bits21w5_of_21w5_16w5_11w5_8w3_7w1 0x8c000003 d a b k bf.toNat word hw b_d b_a b_b b_k (flagBit_lt bf) rfl rfl rfl rfl rfl
  have f16_5 : Sys2Proof.fld word 16 5 = a := Sys2Proof.Laws.Field.bits16w5_of_21w5_16w5_11w5_8w3_7w1 0x8c000003 d a b k bf.toNat word hw b_a b_b b_k (flagBit_lt bf) rfl rfl rfl rfl
  have f11_5 : Sys2Proof.fld word 11 5 = b := Sys2Proof.Laws.Field.bits11w5_of_21w5_16w5_11w5_8w3_7w1 0x8c000003 d a b k bf.toNat word hw b_b b_k (flagBit_lt bf) rfl rfl rfl
  have f8_3 : Sys2Proof.fld word 8 3 = k := Sys2Proof.Laws.Field.bits8w3_of_21w5_16w5_11w5_8w3_7w1 0x8c000003 d a b k bf.toNat word hw b_k (flagBit_lt bf) rfl rfl
  have f7_1 : Sys2Proof.fld word 7 1 = bf.toNat := Sys2Proof.Laws.Field.bits7w1_of_21w5_16w5_11w5_8w3_7w1 0x8c000003 d a b k bf.toNat word hw (flagBit_lt bf) rfl
  rw [major23 word f26_6]
  unfold decodeMajor23
  rw [f0_7, f21_5, f16_5, f11_5, f8_3, f7_1, flagBit bf]; try rfl
theorem vfminVv (d : Nat) (a : Nat) (b : Nat) (k : Nat) (bf : Bool) : Statement (.vfminVv d a b k bf) := by
  intro hwf word hw
  replace hwf : (d < 32 && a < 32 && b < 32 && k < 8 : Bool) = true := hwf
  simp only [Bool.and_eq_true, decide_eq_true_eq] at hwf
  have b_d : d < 32 := hwf.1.1.1
  have b_a : a < 32 := hwf.1.1.2
  have b_b : b < 32 := hwf.1.2
  have b_k : k < 8 := hwf.2
  replace hw : 0x8c000004 + d * 2 ^ 21 + a * 2 ^ 16 + b * 2 ^ 11 + k * 2 ^ 8 + bf.toNat * 2 ^ 7 = word := Option.some.inj hw
  have f26_6 : Sys2Proof.fld word 26 6 = 35 := Sys2Proof.Laws.Field.bits26w6_of_21w5_16w5_11w5_8w3_7w1 0x8c000004 d a b k bf.toNat word hw b_d b_a b_b b_k (flagBit_lt bf) rfl rfl rfl rfl rfl
  have f0_7 : Sys2Proof.fld word 0 7 = 4 := Sys2Proof.Laws.Field.bits0w7_of_21w5_16w5_11w5_8w3_7w1 0x8c000004 d a b k bf.toNat word hw
  have f21_5 : Sys2Proof.fld word 21 5 = d := Sys2Proof.Laws.Field.bits21w5_of_21w5_16w5_11w5_8w3_7w1 0x8c000004 d a b k bf.toNat word hw b_d b_a b_b b_k (flagBit_lt bf) rfl rfl rfl rfl rfl
  have f16_5 : Sys2Proof.fld word 16 5 = a := Sys2Proof.Laws.Field.bits16w5_of_21w5_16w5_11w5_8w3_7w1 0x8c000004 d a b k bf.toNat word hw b_a b_b b_k (flagBit_lt bf) rfl rfl rfl rfl
  have f11_5 : Sys2Proof.fld word 11 5 = b := Sys2Proof.Laws.Field.bits11w5_of_21w5_16w5_11w5_8w3_7w1 0x8c000004 d a b k bf.toNat word hw b_b b_k (flagBit_lt bf) rfl rfl rfl
  have f8_3 : Sys2Proof.fld word 8 3 = k := Sys2Proof.Laws.Field.bits8w3_of_21w5_16w5_11w5_8w3_7w1 0x8c000004 d a b k bf.toNat word hw b_k (flagBit_lt bf) rfl rfl
  have f7_1 : Sys2Proof.fld word 7 1 = bf.toNat := Sys2Proof.Laws.Field.bits7w1_of_21w5_16w5_11w5_8w3_7w1 0x8c000004 d a b k bf.toNat word hw (flagBit_lt bf) rfl
  rw [major23 word f26_6]
  unfold decodeMajor23
  rw [f0_7, f21_5, f16_5, f11_5, f8_3, f7_1, flagBit bf]; try rfl
theorem vfmaxVv (d : Nat) (a : Nat) (b : Nat) (k : Nat) (bf : Bool) : Statement (.vfmaxVv d a b k bf) := by
  intro hwf word hw
  replace hwf : (d < 32 && a < 32 && b < 32 && k < 8 : Bool) = true := hwf
  simp only [Bool.and_eq_true, decide_eq_true_eq] at hwf
  have b_d : d < 32 := hwf.1.1.1
  have b_a : a < 32 := hwf.1.1.2
  have b_b : b < 32 := hwf.1.2
  have b_k : k < 8 := hwf.2
  replace hw : 0x8c000005 + d * 2 ^ 21 + a * 2 ^ 16 + b * 2 ^ 11 + k * 2 ^ 8 + bf.toNat * 2 ^ 7 = word := Option.some.inj hw
  have f26_6 : Sys2Proof.fld word 26 6 = 35 := Sys2Proof.Laws.Field.bits26w6_of_21w5_16w5_11w5_8w3_7w1 0x8c000005 d a b k bf.toNat word hw b_d b_a b_b b_k (flagBit_lt bf) rfl rfl rfl rfl rfl
  have f0_7 : Sys2Proof.fld word 0 7 = 5 := Sys2Proof.Laws.Field.bits0w7_of_21w5_16w5_11w5_8w3_7w1 0x8c000005 d a b k bf.toNat word hw
  have f21_5 : Sys2Proof.fld word 21 5 = d := Sys2Proof.Laws.Field.bits21w5_of_21w5_16w5_11w5_8w3_7w1 0x8c000005 d a b k bf.toNat word hw b_d b_a b_b b_k (flagBit_lt bf) rfl rfl rfl rfl rfl
  have f16_5 : Sys2Proof.fld word 16 5 = a := Sys2Proof.Laws.Field.bits16w5_of_21w5_16w5_11w5_8w3_7w1 0x8c000005 d a b k bf.toNat word hw b_a b_b b_k (flagBit_lt bf) rfl rfl rfl rfl
  have f11_5 : Sys2Proof.fld word 11 5 = b := Sys2Proof.Laws.Field.bits11w5_of_21w5_16w5_11w5_8w3_7w1 0x8c000005 d a b k bf.toNat word hw b_b b_k (flagBit_lt bf) rfl rfl rfl
  have f8_3 : Sys2Proof.fld word 8 3 = k := Sys2Proof.Laws.Field.bits8w3_of_21w5_16w5_11w5_8w3_7w1 0x8c000005 d a b k bf.toNat word hw b_k (flagBit_lt bf) rfl rfl
  have f7_1 : Sys2Proof.fld word 7 1 = bf.toNat := Sys2Proof.Laws.Field.bits7w1_of_21w5_16w5_11w5_8w3_7w1 0x8c000005 d a b k bf.toNat word hw (flagBit_lt bf) rfl
  rw [major23 word f26_6]
  unfold decodeMajor23
  rw [f0_7, f21_5, f16_5, f11_5, f8_3, f7_1, flagBit bf]; try rfl
theorem vfsqrt (d : Nat) (a : Nat) (k : Nat) (bf : Bool) : Statement (.vfsqrt d a k bf) := by
  intro hwf word hw
  replace hwf : (d < 32 && a < 32 && k < 8 : Bool) = true := hwf
  simp only [Bool.and_eq_true, decide_eq_true_eq] at hwf
  have b_d : d < 32 := hwf.1.1
  have b_a : a < 32 := hwf.1.2
  have b_k : k < 8 := hwf.2
  replace hw : 0x8c000006 + d * 2 ^ 21 + a * 2 ^ 16 + k * 2 ^ 8 + bf.toNat * 2 ^ 7 = word := Option.some.inj hw
  have f26_6 : Sys2Proof.fld word 26 6 = 35 := Sys2Proof.Laws.Field.bits26w6_of_21w5_16w5_8w3_7w1 0x8c000006 d a k bf.toNat word hw b_d b_a b_k (flagBit_lt bf) rfl rfl rfl rfl
  have f0_7 : Sys2Proof.fld word 0 7 = 6 := Sys2Proof.Laws.Field.bits0w7_of_21w5_16w5_8w3_7w1 0x8c000006 d a k bf.toNat word hw
  have f11_5 : Sys2Proof.fld word 11 5 = 0 := Sys2Proof.Laws.Field.bits11w5_of_21w5_16w5_8w3_7w1 0x8c000006 d a k bf.toNat word hw b_k (flagBit_lt bf) rfl rfl
  have f21_5 : Sys2Proof.fld word 21 5 = d := Sys2Proof.Laws.Field.bits21w5_of_21w5_16w5_8w3_7w1 0x8c000006 d a k bf.toNat word hw b_d b_a b_k (flagBit_lt bf) rfl rfl rfl rfl
  have f16_5 : Sys2Proof.fld word 16 5 = a := Sys2Proof.Laws.Field.bits16w5_of_21w5_16w5_8w3_7w1 0x8c000006 d a k bf.toNat word hw b_a b_k (flagBit_lt bf) rfl rfl rfl
  have f8_3 : Sys2Proof.fld word 8 3 = k := Sys2Proof.Laws.Field.bits8w3_of_21w5_16w5_8w3_7w1 0x8c000006 d a k bf.toNat word hw b_k (flagBit_lt bf) rfl rfl
  have f7_1 : Sys2Proof.fld word 7 1 = bf.toNat := Sys2Proof.Laws.Field.bits7w1_of_21w5_16w5_8w3_7w1 0x8c000006 d a k bf.toNat word hw (flagBit_lt bf) rfl
  rw [major23 word f26_6]
  unfold decodeMajor23
  rw [f0_7, f11_5, f21_5, f16_5, f8_3, f7_1, flagBit bf]; try rfl
theorem vfaddVf (d : Nat) (a : Nat) (f : Nat) (k : Nat) (bf : Bool) : Statement (.vfaddVf d a f k bf) := by
  intro hwf word hw
  replace hwf : (d < 32 && a < 32 && f < 32 && k < 8 : Bool) = true := hwf
  simp only [Bool.and_eq_true, decide_eq_true_eq] at hwf
  have b_d : d < 32 := hwf.1.1.1
  have b_a : a < 32 := hwf.1.1.2
  have b_f : f < 32 := hwf.1.2
  have b_k : k < 8 := hwf.2
  replace hw : 0x90000000 + d * 2 ^ 21 + a * 2 ^ 16 + f * 2 ^ 11 + k * 2 ^ 8 + bf.toNat * 2 ^ 7 = word := Option.some.inj hw
  have f26_6 : Sys2Proof.fld word 26 6 = 36 := Sys2Proof.Laws.Field.bits26w6_of_21w5_16w5_11w5_8w3_7w1 0x90000000 d a f k bf.toNat word hw b_d b_a b_f b_k (flagBit_lt bf) rfl rfl rfl rfl rfl
  have f0_7 : Sys2Proof.fld word 0 7 = 0 := Sys2Proof.Laws.Field.bits0w7_of_21w5_16w5_11w5_8w3_7w1 0x90000000 d a f k bf.toNat word hw
  have f21_5 : Sys2Proof.fld word 21 5 = d := Sys2Proof.Laws.Field.bits21w5_of_21w5_16w5_11w5_8w3_7w1 0x90000000 d a f k bf.toNat word hw b_d b_a b_f b_k (flagBit_lt bf) rfl rfl rfl rfl rfl
  have f16_5 : Sys2Proof.fld word 16 5 = a := Sys2Proof.Laws.Field.bits16w5_of_21w5_16w5_11w5_8w3_7w1 0x90000000 d a f k bf.toNat word hw b_a b_f b_k (flagBit_lt bf) rfl rfl rfl rfl
  have f11_5 : Sys2Proof.fld word 11 5 = f := Sys2Proof.Laws.Field.bits11w5_of_21w5_16w5_11w5_8w3_7w1 0x90000000 d a f k bf.toNat word hw b_f b_k (flagBit_lt bf) rfl rfl rfl
  have f8_3 : Sys2Proof.fld word 8 3 = k := Sys2Proof.Laws.Field.bits8w3_of_21w5_16w5_11w5_8w3_7w1 0x90000000 d a f k bf.toNat word hw b_k (flagBit_lt bf) rfl rfl
  have f7_1 : Sys2Proof.fld word 7 1 = bf.toNat := Sys2Proof.Laws.Field.bits7w1_of_21w5_16w5_11w5_8w3_7w1 0x90000000 d a f k bf.toNat word hw (flagBit_lt bf) rfl
  rw [major24 word f26_6]
  unfold decodeMajor24
  rw [f0_7, f21_5, f16_5, f11_5, f8_3, f7_1, flagBit bf]; try rfl
theorem vfsubVf (d : Nat) (a : Nat) (f : Nat) (k : Nat) (bf : Bool) : Statement (.vfsubVf d a f k bf) := by
  intro hwf word hw
  replace hwf : (d < 32 && a < 32 && f < 32 && k < 8 : Bool) = true := hwf
  simp only [Bool.and_eq_true, decide_eq_true_eq] at hwf
  have b_d : d < 32 := hwf.1.1.1
  have b_a : a < 32 := hwf.1.1.2
  have b_f : f < 32 := hwf.1.2
  have b_k : k < 8 := hwf.2
  replace hw : 0x90000001 + d * 2 ^ 21 + a * 2 ^ 16 + f * 2 ^ 11 + k * 2 ^ 8 + bf.toNat * 2 ^ 7 = word := Option.some.inj hw
  have f26_6 : Sys2Proof.fld word 26 6 = 36 := Sys2Proof.Laws.Field.bits26w6_of_21w5_16w5_11w5_8w3_7w1 0x90000001 d a f k bf.toNat word hw b_d b_a b_f b_k (flagBit_lt bf) rfl rfl rfl rfl rfl
  have f0_7 : Sys2Proof.fld word 0 7 = 1 := Sys2Proof.Laws.Field.bits0w7_of_21w5_16w5_11w5_8w3_7w1 0x90000001 d a f k bf.toNat word hw
  have f21_5 : Sys2Proof.fld word 21 5 = d := Sys2Proof.Laws.Field.bits21w5_of_21w5_16w5_11w5_8w3_7w1 0x90000001 d a f k bf.toNat word hw b_d b_a b_f b_k (flagBit_lt bf) rfl rfl rfl rfl rfl
  have f16_5 : Sys2Proof.fld word 16 5 = a := Sys2Proof.Laws.Field.bits16w5_of_21w5_16w5_11w5_8w3_7w1 0x90000001 d a f k bf.toNat word hw b_a b_f b_k (flagBit_lt bf) rfl rfl rfl rfl
  have f11_5 : Sys2Proof.fld word 11 5 = f := Sys2Proof.Laws.Field.bits11w5_of_21w5_16w5_11w5_8w3_7w1 0x90000001 d a f k bf.toNat word hw b_f b_k (flagBit_lt bf) rfl rfl rfl
  have f8_3 : Sys2Proof.fld word 8 3 = k := Sys2Proof.Laws.Field.bits8w3_of_21w5_16w5_11w5_8w3_7w1 0x90000001 d a f k bf.toNat word hw b_k (flagBit_lt bf) rfl rfl
  have f7_1 : Sys2Proof.fld word 7 1 = bf.toNat := Sys2Proof.Laws.Field.bits7w1_of_21w5_16w5_11w5_8w3_7w1 0x90000001 d a f k bf.toNat word hw (flagBit_lt bf) rfl
  rw [major24 word f26_6]
  unfold decodeMajor24
  rw [f0_7, f21_5, f16_5, f11_5, f8_3, f7_1, flagBit bf]; try rfl
theorem vfmulVf (d : Nat) (a : Nat) (f : Nat) (k : Nat) (bf : Bool) : Statement (.vfmulVf d a f k bf) := by
  intro hwf word hw
  replace hwf : (d < 32 && a < 32 && f < 32 && k < 8 : Bool) = true := hwf
  simp only [Bool.and_eq_true, decide_eq_true_eq] at hwf
  have b_d : d < 32 := hwf.1.1.1
  have b_a : a < 32 := hwf.1.1.2
  have b_f : f < 32 := hwf.1.2
  have b_k : k < 8 := hwf.2
  replace hw : 0x90000002 + d * 2 ^ 21 + a * 2 ^ 16 + f * 2 ^ 11 + k * 2 ^ 8 + bf.toNat * 2 ^ 7 = word := Option.some.inj hw
  have f26_6 : Sys2Proof.fld word 26 6 = 36 := Sys2Proof.Laws.Field.bits26w6_of_21w5_16w5_11w5_8w3_7w1 0x90000002 d a f k bf.toNat word hw b_d b_a b_f b_k (flagBit_lt bf) rfl rfl rfl rfl rfl
  have f0_7 : Sys2Proof.fld word 0 7 = 2 := Sys2Proof.Laws.Field.bits0w7_of_21w5_16w5_11w5_8w3_7w1 0x90000002 d a f k bf.toNat word hw
  have f21_5 : Sys2Proof.fld word 21 5 = d := Sys2Proof.Laws.Field.bits21w5_of_21w5_16w5_11w5_8w3_7w1 0x90000002 d a f k bf.toNat word hw b_d b_a b_f b_k (flagBit_lt bf) rfl rfl rfl rfl rfl
  have f16_5 : Sys2Proof.fld word 16 5 = a := Sys2Proof.Laws.Field.bits16w5_of_21w5_16w5_11w5_8w3_7w1 0x90000002 d a f k bf.toNat word hw b_a b_f b_k (flagBit_lt bf) rfl rfl rfl rfl
  have f11_5 : Sys2Proof.fld word 11 5 = f := Sys2Proof.Laws.Field.bits11w5_of_21w5_16w5_11w5_8w3_7w1 0x90000002 d a f k bf.toNat word hw b_f b_k (flagBit_lt bf) rfl rfl rfl
  have f8_3 : Sys2Proof.fld word 8 3 = k := Sys2Proof.Laws.Field.bits8w3_of_21w5_16w5_11w5_8w3_7w1 0x90000002 d a f k bf.toNat word hw b_k (flagBit_lt bf) rfl rfl
  have f7_1 : Sys2Proof.fld word 7 1 = bf.toNat := Sys2Proof.Laws.Field.bits7w1_of_21w5_16w5_11w5_8w3_7w1 0x90000002 d a f k bf.toNat word hw (flagBit_lt bf) rfl
  rw [major24 word f26_6]
  unfold decodeMajor24
  rw [f0_7, f21_5, f16_5, f11_5, f8_3, f7_1, flagBit bf]; try rfl
theorem vfdivVf (d : Nat) (a : Nat) (f : Nat) (k : Nat) (bf : Bool) : Statement (.vfdivVf d a f k bf) := by
  intro hwf word hw
  replace hwf : (d < 32 && a < 32 && f < 32 && k < 8 : Bool) = true := hwf
  simp only [Bool.and_eq_true, decide_eq_true_eq] at hwf
  have b_d : d < 32 := hwf.1.1.1
  have b_a : a < 32 := hwf.1.1.2
  have b_f : f < 32 := hwf.1.2
  have b_k : k < 8 := hwf.2
  replace hw : 0x90000003 + d * 2 ^ 21 + a * 2 ^ 16 + f * 2 ^ 11 + k * 2 ^ 8 + bf.toNat * 2 ^ 7 = word := Option.some.inj hw
  have f26_6 : Sys2Proof.fld word 26 6 = 36 := Sys2Proof.Laws.Field.bits26w6_of_21w5_16w5_11w5_8w3_7w1 0x90000003 d a f k bf.toNat word hw b_d b_a b_f b_k (flagBit_lt bf) rfl rfl rfl rfl rfl
  have f0_7 : Sys2Proof.fld word 0 7 = 3 := Sys2Proof.Laws.Field.bits0w7_of_21w5_16w5_11w5_8w3_7w1 0x90000003 d a f k bf.toNat word hw
  have f21_5 : Sys2Proof.fld word 21 5 = d := Sys2Proof.Laws.Field.bits21w5_of_21w5_16w5_11w5_8w3_7w1 0x90000003 d a f k bf.toNat word hw b_d b_a b_f b_k (flagBit_lt bf) rfl rfl rfl rfl rfl
  have f16_5 : Sys2Proof.fld word 16 5 = a := Sys2Proof.Laws.Field.bits16w5_of_21w5_16w5_11w5_8w3_7w1 0x90000003 d a f k bf.toNat word hw b_a b_f b_k (flagBit_lt bf) rfl rfl rfl rfl
  have f11_5 : Sys2Proof.fld word 11 5 = f := Sys2Proof.Laws.Field.bits11w5_of_21w5_16w5_11w5_8w3_7w1 0x90000003 d a f k bf.toNat word hw b_f b_k (flagBit_lt bf) rfl rfl rfl
  have f8_3 : Sys2Proof.fld word 8 3 = k := Sys2Proof.Laws.Field.bits8w3_of_21w5_16w5_11w5_8w3_7w1 0x90000003 d a f k bf.toNat word hw b_k (flagBit_lt bf) rfl rfl
  have f7_1 : Sys2Proof.fld word 7 1 = bf.toNat := Sys2Proof.Laws.Field.bits7w1_of_21w5_16w5_11w5_8w3_7w1 0x90000003 d a f k bf.toNat word hw (flagBit_lt bf) rfl
  rw [major24 word f26_6]
  unfold decodeMajor24
  rw [f0_7, f21_5, f16_5, f11_5, f8_3, f7_1, flagBit bf]; try rfl
theorem vfminVf (d : Nat) (a : Nat) (f : Nat) (k : Nat) (bf : Bool) : Statement (.vfminVf d a f k bf) := by
  intro hwf word hw
  replace hwf : (d < 32 && a < 32 && f < 32 && k < 8 : Bool) = true := hwf
  simp only [Bool.and_eq_true, decide_eq_true_eq] at hwf
  have b_d : d < 32 := hwf.1.1.1
  have b_a : a < 32 := hwf.1.1.2
  have b_f : f < 32 := hwf.1.2
  have b_k : k < 8 := hwf.2
  replace hw : 0x90000004 + d * 2 ^ 21 + a * 2 ^ 16 + f * 2 ^ 11 + k * 2 ^ 8 + bf.toNat * 2 ^ 7 = word := Option.some.inj hw
  have f26_6 : Sys2Proof.fld word 26 6 = 36 := Sys2Proof.Laws.Field.bits26w6_of_21w5_16w5_11w5_8w3_7w1 0x90000004 d a f k bf.toNat word hw b_d b_a b_f b_k (flagBit_lt bf) rfl rfl rfl rfl rfl
  have f0_7 : Sys2Proof.fld word 0 7 = 4 := Sys2Proof.Laws.Field.bits0w7_of_21w5_16w5_11w5_8w3_7w1 0x90000004 d a f k bf.toNat word hw
  have f21_5 : Sys2Proof.fld word 21 5 = d := Sys2Proof.Laws.Field.bits21w5_of_21w5_16w5_11w5_8w3_7w1 0x90000004 d a f k bf.toNat word hw b_d b_a b_f b_k (flagBit_lt bf) rfl rfl rfl rfl rfl
  have f16_5 : Sys2Proof.fld word 16 5 = a := Sys2Proof.Laws.Field.bits16w5_of_21w5_16w5_11w5_8w3_7w1 0x90000004 d a f k bf.toNat word hw b_a b_f b_k (flagBit_lt bf) rfl rfl rfl rfl
  have f11_5 : Sys2Proof.fld word 11 5 = f := Sys2Proof.Laws.Field.bits11w5_of_21w5_16w5_11w5_8w3_7w1 0x90000004 d a f k bf.toNat word hw b_f b_k (flagBit_lt bf) rfl rfl rfl
  have f8_3 : Sys2Proof.fld word 8 3 = k := Sys2Proof.Laws.Field.bits8w3_of_21w5_16w5_11w5_8w3_7w1 0x90000004 d a f k bf.toNat word hw b_k (flagBit_lt bf) rfl rfl
  have f7_1 : Sys2Proof.fld word 7 1 = bf.toNat := Sys2Proof.Laws.Field.bits7w1_of_21w5_16w5_11w5_8w3_7w1 0x90000004 d a f k bf.toNat word hw (flagBit_lt bf) rfl
  rw [major24 word f26_6]
  unfold decodeMajor24
  rw [f0_7, f21_5, f16_5, f11_5, f8_3, f7_1, flagBit bf]; try rfl
theorem vfmaxVf (d : Nat) (a : Nat) (f : Nat) (k : Nat) (bf : Bool) : Statement (.vfmaxVf d a f k bf) := by
  intro hwf word hw
  replace hwf : (d < 32 && a < 32 && f < 32 && k < 8 : Bool) = true := hwf
  simp only [Bool.and_eq_true, decide_eq_true_eq] at hwf
  have b_d : d < 32 := hwf.1.1.1
  have b_a : a < 32 := hwf.1.1.2
  have b_f : f < 32 := hwf.1.2
  have b_k : k < 8 := hwf.2
  replace hw : 0x90000005 + d * 2 ^ 21 + a * 2 ^ 16 + f * 2 ^ 11 + k * 2 ^ 8 + bf.toNat * 2 ^ 7 = word := Option.some.inj hw
  have f26_6 : Sys2Proof.fld word 26 6 = 36 := Sys2Proof.Laws.Field.bits26w6_of_21w5_16w5_11w5_8w3_7w1 0x90000005 d a f k bf.toNat word hw b_d b_a b_f b_k (flagBit_lt bf) rfl rfl rfl rfl rfl
  have f0_7 : Sys2Proof.fld word 0 7 = 5 := Sys2Proof.Laws.Field.bits0w7_of_21w5_16w5_11w5_8w3_7w1 0x90000005 d a f k bf.toNat word hw
  have f21_5 : Sys2Proof.fld word 21 5 = d := Sys2Proof.Laws.Field.bits21w5_of_21w5_16w5_11w5_8w3_7w1 0x90000005 d a f k bf.toNat word hw b_d b_a b_f b_k (flagBit_lt bf) rfl rfl rfl rfl rfl
  have f16_5 : Sys2Proof.fld word 16 5 = a := Sys2Proof.Laws.Field.bits16w5_of_21w5_16w5_11w5_8w3_7w1 0x90000005 d a f k bf.toNat word hw b_a b_f b_k (flagBit_lt bf) rfl rfl rfl rfl
  have f11_5 : Sys2Proof.fld word 11 5 = f := Sys2Proof.Laws.Field.bits11w5_of_21w5_16w5_11w5_8w3_7w1 0x90000005 d a f k bf.toNat word hw b_f b_k (flagBit_lt bf) rfl rfl rfl
  have f8_3 : Sys2Proof.fld word 8 3 = k := Sys2Proof.Laws.Field.bits8w3_of_21w5_16w5_11w5_8w3_7w1 0x90000005 d a f k bf.toNat word hw b_k (flagBit_lt bf) rfl rfl
  have f7_1 : Sys2Proof.fld word 7 1 = bf.toNat := Sys2Proof.Laws.Field.bits7w1_of_21w5_16w5_11w5_8w3_7w1 0x90000005 d a f k bf.toNat word hw (flagBit_lt bf) rfl
  rw [major24 word f26_6]
  unfold decodeMajor24
  rw [f0_7, f21_5, f16_5, f11_5, f8_3, f7_1, flagBit bf]; try rfl
theorem vfcvt (d : Nat) (a : Nat) (t : Nat) (k : Nat) (f : Nat) : Statement (.vfcvt d a t k f) := by
  intro hwf word hw
  replace hwf : (d < 32 && a < 32 && t < 32 && k < 8 && f < 32 : Bool) = true := hwf
  simp only [Bool.and_eq_true, decide_eq_true_eq] at hwf
  have b_d : d < 32 := hwf.1.1.1.1
  have b_a : a < 32 := hwf.1.1.1.2
  have b_t : t < 32 := hwf.1.1.2
  have b_k : k < 8 := hwf.1.2
  have b_f : f < 32 := hwf.2
  replace hw : 0x94000000 + d * 2 ^ 21 + a * 2 ^ 16 + t * 2 ^ 11 + k * 2 ^ 8 + f * 2 ^ 0 = word := Option.some.inj hw
  have f26_6 : Sys2Proof.fld word 26 6 = 37 := Sys2Proof.Laws.Field.bits26w6_of_21w5_16w5_11w5_8w3_0w5 0x94000000 d a t k f word hw b_d b_a b_t b_k b_f rfl rfl rfl rfl rfl
  have f5_3 : Sys2Proof.fld word 5 3 = 0 := Sys2Proof.Laws.Field.bits5w3_of_21w5_16w5_11w5_8w3_0w5 0x94000000 d a t k f word hw b_f rfl
  have f0_5 : Sys2Proof.fld word 0 5 = f := Sys2Proof.Laws.Field.bits0w5_of_21w5_16w5_11w5_8w3_0w5 0x94000000 d a t k f word hw b_f rfl
  have f21_5 : Sys2Proof.fld word 21 5 = d := Sys2Proof.Laws.Field.bits21w5_of_21w5_16w5_11w5_8w3_0w5 0x94000000 d a t k f word hw b_d b_a b_t b_k b_f rfl rfl rfl rfl rfl
  have f16_5 : Sys2Proof.fld word 16 5 = a := Sys2Proof.Laws.Field.bits16w5_of_21w5_16w5_11w5_8w3_0w5 0x94000000 d a t k f word hw b_a b_t b_k b_f rfl rfl rfl rfl
  have f11_5 : Sys2Proof.fld word 11 5 = t := Sys2Proof.Laws.Field.bits11w5_of_21w5_16w5_11w5_8w3_0w5 0x94000000 d a t k f word hw b_t b_k b_f rfl rfl rfl
  have f8_3 : Sys2Proof.fld word 8 3 = k := Sys2Proof.Laws.Field.bits8w3_of_21w5_16w5_11w5_8w3_0w5 0x94000000 d a t k f word hw b_k b_f rfl rfl
  rw [major25 word f26_6]
  unfold decodeMajor25
  rw [f5_3, f0_5, f21_5, f16_5, f11_5, f8_3]; try rfl
theorem vqz (d : Nat) (a : Nat) (t : Nat) (k : Nat) (f : Nat) : Statement (.vqz d a t k f) := by
  intro hwf word hw
  replace hwf : (d < 32 && a < 32 && t < 32 && k < 8 && f < 32 : Bool) = true := hwf
  simp only [Bool.and_eq_true, decide_eq_true_eq] at hwf
  have b_d : d < 32 := hwf.1.1.1.1
  have b_a : a < 32 := hwf.1.1.1.2
  have b_t : t < 32 := hwf.1.1.2
  have b_k : k < 8 := hwf.1.2
  have b_f : f < 32 := hwf.2
  replace hw : 0x94000020 + d * 2 ^ 21 + a * 2 ^ 16 + t * 2 ^ 11 + k * 2 ^ 8 + f * 2 ^ 0 = word := Option.some.inj hw
  have f26_6 : Sys2Proof.fld word 26 6 = 37 := Sys2Proof.Laws.Field.bits26w6_of_21w5_16w5_11w5_8w3_0w5 0x94000020 d a t k f word hw b_d b_a b_t b_k b_f rfl rfl rfl rfl rfl
  have f5_3 : Sys2Proof.fld word 5 3 = 1 := Sys2Proof.Laws.Field.bits5w3_of_21w5_16w5_11w5_8w3_0w5 0x94000020 d a t k f word hw b_f rfl
  have f0_5 : Sys2Proof.fld word 0 5 = f := Sys2Proof.Laws.Field.bits0w5_of_21w5_16w5_11w5_8w3_0w5 0x94000020 d a t k f word hw b_f rfl
  have f21_5 : Sys2Proof.fld word 21 5 = d := Sys2Proof.Laws.Field.bits21w5_of_21w5_16w5_11w5_8w3_0w5 0x94000020 d a t k f word hw b_d b_a b_t b_k b_f rfl rfl rfl rfl rfl
  have f16_5 : Sys2Proof.fld word 16 5 = a := Sys2Proof.Laws.Field.bits16w5_of_21w5_16w5_11w5_8w3_0w5 0x94000020 d a t k f word hw b_a b_t b_k b_f rfl rfl rfl rfl
  have f11_5 : Sys2Proof.fld word 11 5 = t := Sys2Proof.Laws.Field.bits11w5_of_21w5_16w5_11w5_8w3_0w5 0x94000020 d a t k f word hw b_t b_k b_f rfl rfl rfl
  have f8_3 : Sys2Proof.fld word 8 3 = k := Sys2Proof.Laws.Field.bits8w3_of_21w5_16w5_11w5_8w3_0w5 0x94000020 d a t k f word hw b_k b_f rfl rfl
  rw [major25 word f26_6]
  unfold decodeMajor25
  rw [f5_3, f0_5, f21_5, f16_5, f11_5, f8_3]; try rfl
theorem vdq (d : Nat) (a : Nat) (t : Nat) (k : Nat) (f : Nat) : Statement (.vdq d a t k f) := by
  intro hwf word hw
  replace hwf : (d < 32 && a < 32 && t < 32 && k < 8 && f < 32 : Bool) = true := hwf
  simp only [Bool.and_eq_true, decide_eq_true_eq] at hwf
  have b_d : d < 32 := hwf.1.1.1.1
  have b_a : a < 32 := hwf.1.1.1.2
  have b_t : t < 32 := hwf.1.1.2
  have b_k : k < 8 := hwf.1.2
  have b_f : f < 32 := hwf.2
  replace hw : 0x94000040 + d * 2 ^ 21 + a * 2 ^ 16 + t * 2 ^ 11 + k * 2 ^ 8 + f * 2 ^ 0 = word := Option.some.inj hw
  have f26_6 : Sys2Proof.fld word 26 6 = 37 := Sys2Proof.Laws.Field.bits26w6_of_21w5_16w5_11w5_8w3_0w5 0x94000040 d a t k f word hw b_d b_a b_t b_k b_f rfl rfl rfl rfl rfl
  have f5_3 : Sys2Proof.fld word 5 3 = 2 := Sys2Proof.Laws.Field.bits5w3_of_21w5_16w5_11w5_8w3_0w5 0x94000040 d a t k f word hw b_f rfl
  have f0_5 : Sys2Proof.fld word 0 5 = f := Sys2Proof.Laws.Field.bits0w5_of_21w5_16w5_11w5_8w3_0w5 0x94000040 d a t k f word hw b_f rfl
  have f21_5 : Sys2Proof.fld word 21 5 = d := Sys2Proof.Laws.Field.bits21w5_of_21w5_16w5_11w5_8w3_0w5 0x94000040 d a t k f word hw b_d b_a b_t b_k b_f rfl rfl rfl rfl rfl
  have f16_5 : Sys2Proof.fld word 16 5 = a := Sys2Proof.Laws.Field.bits16w5_of_21w5_16w5_11w5_8w3_0w5 0x94000040 d a t k f word hw b_a b_t b_k b_f rfl rfl rfl rfl
  have f11_5 : Sys2Proof.fld word 11 5 = t := Sys2Proof.Laws.Field.bits11w5_of_21w5_16w5_11w5_8w3_0w5 0x94000040 d a t k f word hw b_t b_k b_f rfl rfl rfl
  have f8_3 : Sys2Proof.fld word 8 3 = k := Sys2Proof.Laws.Field.bits8w3_of_21w5_16w5_11w5_8w3_0w5 0x94000040 d a t k f word hw b_k b_f rfl rfl
  rw [major25 word f26_6]
  unfold decodeMajor25
  rw [f5_3, f0_5, f21_5, f16_5, f11_5, f8_3]; try rfl
theorem vfexp (d : Nat) (a : Nat) (k : Nat) : Statement (.vfexp d a k) := by
  intro hwf word hw
  replace hwf : (d < 32 && a < 32 && k < 8 : Bool) = true := hwf
  simp only [Bool.and_eq_true, decide_eq_true_eq] at hwf
  have b_d : d < 32 := hwf.1.1
  have b_a : a < 32 := hwf.1.2
  have b_k : k < 8 := hwf.2
  replace hw : 0x94000060 + d * 2 ^ 21 + a * 2 ^ 16 + k * 2 ^ 8 = word := Option.some.inj hw
  have f26_6 : Sys2Proof.fld word 26 6 = 37 := Sys2Proof.Laws.Field.bits26w6_of_21w5_16w5_8w3 0x94000060 d a k word hw b_d b_a b_k rfl rfl rfl
  have f5_3 : Sys2Proof.fld word 5 3 = 3 := Sys2Proof.Laws.Field.bits5w3_of_21w5_16w5_8w3 0x94000060 d a k word hw
  have f0_5 : Sys2Proof.fld word 0 5 = 0 := Sys2Proof.Laws.Field.bits0w5_of_21w5_16w5_8w3 0x94000060 d a k word hw
  have f11_5 : Sys2Proof.fld word 11 5 = 0 := Sys2Proof.Laws.Field.bits11w5_of_21w5_16w5_8w3 0x94000060 d a k word hw b_k rfl
  have f21_5 : Sys2Proof.fld word 21 5 = d := Sys2Proof.Laws.Field.bits21w5_of_21w5_16w5_8w3 0x94000060 d a k word hw b_d b_a b_k rfl rfl rfl
  have f16_5 : Sys2Proof.fld word 16 5 = a := Sys2Proof.Laws.Field.bits16w5_of_21w5_16w5_8w3 0x94000060 d a k word hw b_a b_k rfl rfl
  have f8_3 : Sys2Proof.fld word 8 3 = k := Sys2Proof.Laws.Field.bits8w3_of_21w5_16w5_8w3 0x94000060 d a k word hw b_k rfl
  rw [major25 word f26_6]
  unfold decodeMajor25
  rw [f5_3, f0_5, f11_5, f21_5, f16_5, f8_3]; try rfl
theorem vflog (d : Nat) (a : Nat) (k : Nat) : Statement (.vflog d a k) := by
  intro hwf word hw
  replace hwf : (d < 32 && a < 32 && k < 8 : Bool) = true := hwf
  simp only [Bool.and_eq_true, decide_eq_true_eq] at hwf
  have b_d : d < 32 := hwf.1.1
  have b_a : a < 32 := hwf.1.2
  have b_k : k < 8 := hwf.2
  replace hw : 0x94000061 + d * 2 ^ 21 + a * 2 ^ 16 + k * 2 ^ 8 = word := Option.some.inj hw
  have f26_6 : Sys2Proof.fld word 26 6 = 37 := Sys2Proof.Laws.Field.bits26w6_of_21w5_16w5_8w3 0x94000061 d a k word hw b_d b_a b_k rfl rfl rfl
  have f5_3 : Sys2Proof.fld word 5 3 = 3 := Sys2Proof.Laws.Field.bits5w3_of_21w5_16w5_8w3 0x94000061 d a k word hw
  have f0_5 : Sys2Proof.fld word 0 5 = 1 := Sys2Proof.Laws.Field.bits0w5_of_21w5_16w5_8w3 0x94000061 d a k word hw
  have f11_5 : Sys2Proof.fld word 11 5 = 0 := Sys2Proof.Laws.Field.bits11w5_of_21w5_16w5_8w3 0x94000061 d a k word hw b_k rfl
  have f21_5 : Sys2Proof.fld word 21 5 = d := Sys2Proof.Laws.Field.bits21w5_of_21w5_16w5_8w3 0x94000061 d a k word hw b_d b_a b_k rfl rfl rfl
  have f16_5 : Sys2Proof.fld word 16 5 = a := Sys2Proof.Laws.Field.bits16w5_of_21w5_16w5_8w3 0x94000061 d a k word hw b_a b_k rfl rfl
  have f8_3 : Sys2Proof.fld word 8 3 = k := Sys2Proof.Laws.Field.bits8w3_of_21w5_16w5_8w3 0x94000061 d a k word hw b_k rfl
  rw [major25 word f26_6]
  unfold decodeMajor25
  rw [f5_3, f0_5, f11_5, f21_5, f16_5, f8_3]; try rfl
theorem vgumbel (d : Nat) (k : Nat) : Statement (.vgumbel d k) := by
  intro hwf word hw
  replace hwf : (d < 32 && k < 8 : Bool) = true := hwf
  simp only [Bool.and_eq_true, decide_eq_true_eq] at hwf
  have b_d : d < 32 := hwf.1
  have b_k : k < 8 := hwf.2
  replace hw : 0x94000062 + d * 2 ^ 21 + k * 2 ^ 8 = word := Option.some.inj hw
  have f26_6 : Sys2Proof.fld word 26 6 = 37 := Sys2Proof.Laws.Field.bits26w6_of_21w5_8w3 0x94000062 d k word hw b_d b_k rfl rfl
  have f5_3 : Sys2Proof.fld word 5 3 = 3 := Sys2Proof.Laws.Field.bits5w3_of_21w5_8w3 0x94000062 d k word hw
  have f0_5 : Sys2Proof.fld word 0 5 = 2 := Sys2Proof.Laws.Field.bits0w5_of_21w5_8w3 0x94000062 d k word hw
  have f11_10 : Sys2Proof.fld word 11 10 = 0 := Sys2Proof.Laws.Field.bits11w10_of_21w5_8w3 0x94000062 d k word hw b_k rfl
  have f21_5 : Sys2Proof.fld word 21 5 = d := Sys2Proof.Laws.Field.bits21w5_of_21w5_8w3 0x94000062 d k word hw b_d b_k rfl rfl
  have f8_3 : Sys2Proof.fld word 8 3 = k := Sys2Proof.Laws.Field.bits8w3_of_21w5_8w3 0x94000062 d k word hw b_k rfl
  rw [major25 word f26_6]
  unfold decodeMajor25
  rw [f5_3, f0_5, f11_10, f21_5, f8_3]; try rfl
theorem vrng (d : Nat) (k : Nat) : Statement (.vrng d k) := by
  intro hwf word hw
  replace hwf : (d < 32 && k < 8 : Bool) = true := hwf
  simp only [Bool.and_eq_true, decide_eq_true_eq] at hwf
  have b_d : d < 32 := hwf.1
  have b_k : k < 8 := hwf.2
  replace hw : 0x94000063 + d * 2 ^ 21 + k * 2 ^ 8 = word := Option.some.inj hw
  have f26_6 : Sys2Proof.fld word 26 6 = 37 := Sys2Proof.Laws.Field.bits26w6_of_21w5_8w3 0x94000063 d k word hw b_d b_k rfl rfl
  have f5_3 : Sys2Proof.fld word 5 3 = 3 := Sys2Proof.Laws.Field.bits5w3_of_21w5_8w3 0x94000063 d k word hw
  have f0_5 : Sys2Proof.fld word 0 5 = 3 := Sys2Proof.Laws.Field.bits0w5_of_21w5_8w3 0x94000063 d k word hw
  have f11_10 : Sys2Proof.fld word 11 10 = 0 := Sys2Proof.Laws.Field.bits11w10_of_21w5_8w3 0x94000063 d k word hw b_k rfl
  have f21_5 : Sys2Proof.fld word 21 5 = d := Sys2Proof.Laws.Field.bits21w5_of_21w5_8w3 0x94000063 d k word hw b_d b_k rfl rfl
  have f8_3 : Sys2Proof.fld word 8 3 = k := Sys2Proof.Laws.Field.bits8w3_of_21w5_8w3 0x94000063 d k word hw b_k rfl
  rw [major25 word f26_6]
  unfold decodeMajor25
  rw [f5_3, f0_5, f11_10, f21_5, f8_3]; try rfl
theorem vrngSeed (rs : Nat) : Statement (.vrngSeed rs) := by
  intro hwf word hw
  replace hwf : (rs < 32 : Bool) = true := hwf
  simp only [decide_eq_true_eq] at hwf
  have b_rs : rs < 32 := hwf
  replace hw : 0x94000064 + rs * 2 ^ 11 = word := Option.some.inj hw
  have f26_6 : Sys2Proof.fld word 26 6 = 37 := Sys2Proof.Laws.Field.bits26w6_of_11w5 0x94000064 rs word hw b_rs rfl
  have f5_3 : Sys2Proof.fld word 5 3 = 3 := Sys2Proof.Laws.Field.bits5w3_of_11w5 0x94000064 rs word hw
  have f0_5 : Sys2Proof.fld word 0 5 = 4 := Sys2Proof.Laws.Field.bits0w5_of_11w5 0x94000064 rs word hw
  have f16_10 : Sys2Proof.fld word 16 10 = 0 := Sys2Proof.Laws.Field.bits16w10_of_11w5 0x94000064 rs word hw b_rs rfl
  have f8_3 : Sys2Proof.fld word 8 3 = 0 := Sys2Proof.Laws.Field.bits8w3_of_11w5 0x94000064 rs word hw
  have f11_5 : Sys2Proof.fld word 11 5 = rs := Sys2Proof.Laws.Field.bits11w5_of_11w5 0x94000064 rs word hw b_rs rfl
  rw [major25 word f26_6]
  unfold decodeMajor25
  rw [f5_3, f0_5, f16_10, f8_3, f11_5]; try rfl
theorem vscl (d : Nat) (a : Nat) (b : Nat) (k : Nat) : Statement (.vscl d a b k) := by
  intro hwf word hw
  replace hwf : (d < 32 && a < 32 && b < 32 && k < 8 : Bool) = true := hwf
  simp only [Bool.and_eq_true, decide_eq_true_eq] at hwf
  have b_d : d < 32 := hwf.1.1.1
  have b_a : a < 32 := hwf.1.1.2
  have b_b : b < 32 := hwf.1.2
  have b_k : k < 8 := hwf.2
  replace hw : 0x94000080 + d * 2 ^ 21 + a * 2 ^ 16 + b * 2 ^ 11 + k * 2 ^ 8 = word := Option.some.inj hw
  have f26_6 : Sys2Proof.fld word 26 6 = 37 := Sys2Proof.Laws.Field.bits26w6_of_21w5_16w5_11w5_8w3 0x94000080 d a b k word hw b_d b_a b_b b_k rfl rfl rfl rfl
  have f5_3 : Sys2Proof.fld word 5 3 = 4 := Sys2Proof.Laws.Field.bits5w3_of_21w5_16w5_11w5_8w3 0x94000080 d a b k word hw
  have f0_5 : Sys2Proof.fld word 0 5 = 0 := Sys2Proof.Laws.Field.bits0w5_of_21w5_16w5_11w5_8w3 0x94000080 d a b k word hw
  have f21_5 : Sys2Proof.fld word 21 5 = d := Sys2Proof.Laws.Field.bits21w5_of_21w5_16w5_11w5_8w3 0x94000080 d a b k word hw b_d b_a b_b b_k rfl rfl rfl rfl
  have f16_5 : Sys2Proof.fld word 16 5 = a := Sys2Proof.Laws.Field.bits16w5_of_21w5_16w5_11w5_8w3 0x94000080 d a b k word hw b_a b_b b_k rfl rfl rfl
  have f11_5 : Sys2Proof.fld word 11 5 = b := Sys2Proof.Laws.Field.bits11w5_of_21w5_16w5_11w5_8w3 0x94000080 d a b k word hw b_b b_k rfl rfl
  have f8_3 : Sys2Proof.fld word 8 3 = k := Sys2Proof.Laws.Field.bits8w3_of_21w5_16w5_11w5_8w3 0x94000080 d a b k word hw b_k rfl
  rw [major25 word f26_6]
  unfold decodeMajor25
  rw [f5_3, f0_5, f21_5, f16_5, f11_5, f8_3]; try rfl
theorem vsclg (d : Nat) (a : Nat) : Statement (.vsclg d a) := by
  intro hwf word hw
  replace hwf : (d < 32 && a < 32 : Bool) = true := hwf
  simp only [Bool.and_eq_true, decide_eq_true_eq] at hwf
  have b_d : d < 32 := hwf.1
  have b_a : a < 32 := hwf.2
  replace hw : 0x94000081 + d * 2 ^ 21 + a * 2 ^ 16 = word := Option.some.inj hw
  have f26_6 : Sys2Proof.fld word 26 6 = 37 := Sys2Proof.Laws.Field.bits26w6_of_21w5_16w5 0x94000081 d a word hw b_d b_a rfl rfl
  have f5_3 : Sys2Proof.fld word 5 3 = 4 := Sys2Proof.Laws.Field.bits5w3_of_21w5_16w5 0x94000081 d a word hw
  have f0_5 : Sys2Proof.fld word 0 5 = 1 := Sys2Proof.Laws.Field.bits0w5_of_21w5_16w5 0x94000081 d a word hw
  have f8_8 : Sys2Proof.fld word 8 8 = 0 := Sys2Proof.Laws.Field.bits8w8_of_21w5_16w5 0x94000081 d a word hw
  have f21_5 : Sys2Proof.fld word 21 5 = d := Sys2Proof.Laws.Field.bits21w5_of_21w5_16w5 0x94000081 d a word hw b_d b_a rfl rfl
  have f16_5 : Sys2Proof.fld word 16 5 = a := Sys2Proof.Laws.Field.bits16w5_of_21w5_16w5 0x94000081 d a word hw b_a rfl
  rw [major25 word f26_6]
  unfold decodeMajor25
  rw [f5_3, f0_5, f8_8, f21_5, f16_5]; try rfl
theorem vfma (d : Nat) (a : Nat) (b : Nat) (k : Nat) (bf : Bool) : Statement (.vfma d a b k bf) := by
  intro hwf word hw
  replace hwf : (d < 32 && a < 32 && b < 32 && k < 8 : Bool) = true := hwf
  simp only [Bool.and_eq_true, decide_eq_true_eq] at hwf
  have b_d : d < 32 := hwf.1.1.1
  have b_a : a < 32 := hwf.1.1.2
  have b_b : b < 32 := hwf.1.2
  have b_k : k < 8 := hwf.2
  replace hw : 0x98000000 + d * 2 ^ 21 + a * 2 ^ 16 + b * 2 ^ 11 + k * 2 ^ 8 + bf.toNat * 2 ^ 7 = word := Option.some.inj hw
  have f26_6 : Sys2Proof.fld word 26 6 = 38 := Sys2Proof.Laws.Field.bits26w6_of_21w5_16w5_11w5_8w3_7w1 0x98000000 d a b k bf.toNat word hw b_d b_a b_b b_k (flagBit_lt bf) rfl rfl rfl rfl rfl
  have f0_7 : Sys2Proof.fld word 0 7 = 0 := Sys2Proof.Laws.Field.bits0w7_of_21w5_16w5_11w5_8w3_7w1 0x98000000 d a b k bf.toNat word hw
  have f4_4 : Sys2Proof.fld word 4 4 = 0 + bf.toNat * 2 ^ 3 := Sys2Proof.Laws.Field.bits4w4_of_21w5_16w5_11w5_8w3_7w1 0x98000000 d a b k bf.toNat word hw (flagBit_lt bf) rfl
  have f1_3 : Sys2Proof.fld word 1 3 = 0 := Sys2Proof.Laws.Field.bits1w3_of_21w5_16w5_11w5_8w3_7w1 0x98000000 d a b k bf.toNat word hw
  have f0_1 : Sys2Proof.fld word 0 1 = 0 := Sys2Proof.Laws.Field.bits0w1_of_21w5_16w5_11w5_8w3_7w1 0x98000000 d a b k bf.toNat word hw
  have f21_5 : Sys2Proof.fld word 21 5 = d := Sys2Proof.Laws.Field.bits21w5_of_21w5_16w5_11w5_8w3_7w1 0x98000000 d a b k bf.toNat word hw b_d b_a b_b b_k (flagBit_lt bf) rfl rfl rfl rfl rfl
  have f16_5 : Sys2Proof.fld word 16 5 = a := Sys2Proof.Laws.Field.bits16w5_of_21w5_16w5_11w5_8w3_7w1 0x98000000 d a b k bf.toNat word hw b_a b_b b_k (flagBit_lt bf) rfl rfl rfl rfl
  have f11_5 : Sys2Proof.fld word 11 5 = b := Sys2Proof.Laws.Field.bits11w5_of_21w5_16w5_11w5_8w3_7w1 0x98000000 d a b k bf.toNat word hw b_b b_k (flagBit_lt bf) rfl rfl rfl
  have f8_3 : Sys2Proof.fld word 8 3 = k := Sys2Proof.Laws.Field.bits8w3_of_21w5_16w5_11w5_8w3_7w1 0x98000000 d a b k bf.toNat word hw b_k (flagBit_lt bf) rfl rfl
  have f7_1 : Sys2Proof.fld word 7 1 = bf.toNat := Sys2Proof.Laws.Field.bits7w1_of_21w5_16w5_11w5_8w3_7w1 0x98000000 d a b k bf.toNat word hw (flagBit_lt bf) rfl
  rw [major26 word f26_6]
  unfold decodeMajor26
  rw [f0_7, f4_4, f1_3, f0_1, f21_5, f16_5, f11_5, f8_3, f7_1, flagBit bf]; try rfl
theorem vfms (d : Nat) (a : Nat) (b : Nat) (k : Nat) (bf : Bool) : Statement (.vfms d a b k bf) := by
  intro hwf word hw
  replace hwf : (d < 32 && a < 32 && b < 32 && k < 8 : Bool) = true := hwf
  simp only [Bool.and_eq_true, decide_eq_true_eq] at hwf
  have b_d : d < 32 := hwf.1.1.1
  have b_a : a < 32 := hwf.1.1.2
  have b_b : b < 32 := hwf.1.2
  have b_k : k < 8 := hwf.2
  replace hw : 0x98000001 + d * 2 ^ 21 + a * 2 ^ 16 + b * 2 ^ 11 + k * 2 ^ 8 + bf.toNat * 2 ^ 7 = word := Option.some.inj hw
  have f26_6 : Sys2Proof.fld word 26 6 = 38 := Sys2Proof.Laws.Field.bits26w6_of_21w5_16w5_11w5_8w3_7w1 0x98000001 d a b k bf.toNat word hw b_d b_a b_b b_k (flagBit_lt bf) rfl rfl rfl rfl rfl
  have f0_7 : Sys2Proof.fld word 0 7 = 1 := Sys2Proof.Laws.Field.bits0w7_of_21w5_16w5_11w5_8w3_7w1 0x98000001 d a b k bf.toNat word hw
  have f4_4 : Sys2Proof.fld word 4 4 = 0 + bf.toNat * 2 ^ 3 := Sys2Proof.Laws.Field.bits4w4_of_21w5_16w5_11w5_8w3_7w1 0x98000001 d a b k bf.toNat word hw (flagBit_lt bf) rfl
  have f1_3 : Sys2Proof.fld word 1 3 = 0 := Sys2Proof.Laws.Field.bits1w3_of_21w5_16w5_11w5_8w3_7w1 0x98000001 d a b k bf.toNat word hw
  have f0_1 : Sys2Proof.fld word 0 1 = 1 := Sys2Proof.Laws.Field.bits0w1_of_21w5_16w5_11w5_8w3_7w1 0x98000001 d a b k bf.toNat word hw
  have f21_5 : Sys2Proof.fld word 21 5 = d := Sys2Proof.Laws.Field.bits21w5_of_21w5_16w5_11w5_8w3_7w1 0x98000001 d a b k bf.toNat word hw b_d b_a b_b b_k (flagBit_lt bf) rfl rfl rfl rfl rfl
  have f16_5 : Sys2Proof.fld word 16 5 = a := Sys2Proof.Laws.Field.bits16w5_of_21w5_16w5_11w5_8w3_7w1 0x98000001 d a b k bf.toNat word hw b_a b_b b_k (flagBit_lt bf) rfl rfl rfl rfl
  have f11_5 : Sys2Proof.fld word 11 5 = b := Sys2Proof.Laws.Field.bits11w5_of_21w5_16w5_11w5_8w3_7w1 0x98000001 d a b k bf.toNat word hw b_b b_k (flagBit_lt bf) rfl rfl rfl
  have f8_3 : Sys2Proof.fld word 8 3 = k := Sys2Proof.Laws.Field.bits8w3_of_21w5_16w5_11w5_8w3_7w1 0x98000001 d a b k bf.toNat word hw b_k (flagBit_lt bf) rfl rfl
  have f7_1 : Sys2Proof.fld word 7 1 = bf.toNat := Sys2Proof.Laws.Field.bits7w1_of_21w5_16w5_11w5_8w3_7w1 0x98000001 d a b k bf.toNat word hw (flagBit_lt bf) rfl
  rw [major26 word f26_6]
  unfold decodeMajor26
  rw [f0_7, f4_4, f1_3, f0_1, f21_5, f16_5, f11_5, f8_3, f7_1, flagBit bf]; try rfl
theorem vdotS (d : Nat) (a : Nat) (b : Nat) (k : Nat) (t : Nat) : Statement (.vdotS d a b k t) := by
  intro hwf word hw
  replace hwf : (d < 32 && a < 32 && b < 32 && k < 8 && t < 6 : Bool) = true := hwf
  simp only [Bool.and_eq_true, decide_eq_true_eq] at hwf
  have b_d : d < 32 := hwf.1.1.1.1
  have b_a : a < 32 := hwf.1.1.1.2
  have b_b : b < 32 := hwf.1.1.2
  have b_k : k < 8 := hwf.1.2
  have b_t : t < 8 := by omega
  replace hw : 0x98000010 + d * 2 ^ 21 + a * 2 ^ 16 + b * 2 ^ 11 + k * 2 ^ 8 + t * 2 ^ 1 = word := Option.some.inj hw
  have f26_6 : Sys2Proof.fld word 26 6 = 38 := Sys2Proof.Laws.Field.bits26w6_of_21w5_16w5_11w5_8w3_1w3 0x98000010 d a b k t word hw b_d b_a b_b b_k b_t rfl rfl rfl rfl rfl
  have f0_7 : Sys2Proof.fld word 0 7 = 16 + t * 2 ^ 1 := Sys2Proof.Laws.Field.bits0w7_of_21w5_16w5_11w5_8w3_1w3 0x98000010 d a b k t word hw b_t rfl
  have f4_4 : Sys2Proof.fld word 4 4 = 1 := Sys2Proof.Laws.Field.bits4w4_of_21w5_16w5_11w5_8w3_1w3 0x98000010 d a b k t word hw b_t rfl
  have f1_3 : Sys2Proof.fld word 1 3 = t := Sys2Proof.Laws.Field.bits1w3_of_21w5_16w5_11w5_8w3_1w3 0x98000010 d a b k t word hw b_t rfl
  have f0_1 : Sys2Proof.fld word 0 1 = 0 := Sys2Proof.Laws.Field.bits0w1_of_21w5_16w5_11w5_8w3_1w3 0x98000010 d a b k t word hw
  have f21_5 : Sys2Proof.fld word 21 5 = d := Sys2Proof.Laws.Field.bits21w5_of_21w5_16w5_11w5_8w3_1w3 0x98000010 d a b k t word hw b_d b_a b_b b_k b_t rfl rfl rfl rfl rfl
  have f16_5 : Sys2Proof.fld word 16 5 = a := Sys2Proof.Laws.Field.bits16w5_of_21w5_16w5_11w5_8w3_1w3 0x98000010 d a b k t word hw b_a b_b b_k b_t rfl rfl rfl rfl
  have f11_5 : Sys2Proof.fld word 11 5 = b := Sys2Proof.Laws.Field.bits11w5_of_21w5_16w5_11w5_8w3_1w3 0x98000010 d a b k t word hw b_b b_k b_t rfl rfl rfl
  have f8_3 : Sys2Proof.fld word 8 3 = k := Sys2Proof.Laws.Field.bits8w3_of_21w5_16w5_11w5_8w3_1w3 0x98000010 d a b k t word hw b_k b_t rfl rfl
  rw [major26 word f26_6]
  unfold decodeMajor26
  rw [f0_7, f4_4, f1_3, f0_1, f21_5, f16_5, f11_5, f8_3]
  obtain _ | _ | _ | _ | _ | _ | t := t <;> first | rfl | omega
theorem vdotG (d : Nat) (a : Nat) (b : Nat) (k : Nat) (t : Nat) : Statement (.vdotG d a b k t) := by
  intro hwf word hw
  replace hwf : (d < 32 && a < 32 && b < 32 && k < 8 && t < 6 : Bool) = true := hwf
  simp only [Bool.and_eq_true, decide_eq_true_eq] at hwf
  have b_d : d < 32 := hwf.1.1.1.1
  have b_a : a < 32 := hwf.1.1.1.2
  have b_b : b < 32 := hwf.1.1.2
  have b_k : k < 8 := hwf.1.2
  have b_t : t < 8 := by omega
  replace hw : 0x98000011 + d * 2 ^ 21 + a * 2 ^ 16 + b * 2 ^ 11 + k * 2 ^ 8 + t * 2 ^ 1 = word := Option.some.inj hw
  have f26_6 : Sys2Proof.fld word 26 6 = 38 := Sys2Proof.Laws.Field.bits26w6_of_21w5_16w5_11w5_8w3_1w3 0x98000011 d a b k t word hw b_d b_a b_b b_k b_t rfl rfl rfl rfl rfl
  have f0_7 : Sys2Proof.fld word 0 7 = 17 + t * 2 ^ 1 := Sys2Proof.Laws.Field.bits0w7_of_21w5_16w5_11w5_8w3_1w3 0x98000011 d a b k t word hw b_t rfl
  have f4_4 : Sys2Proof.fld word 4 4 = 1 := Sys2Proof.Laws.Field.bits4w4_of_21w5_16w5_11w5_8w3_1w3 0x98000011 d a b k t word hw b_t rfl
  have f1_3 : Sys2Proof.fld word 1 3 = t := Sys2Proof.Laws.Field.bits1w3_of_21w5_16w5_11w5_8w3_1w3 0x98000011 d a b k t word hw b_t rfl
  have f0_1 : Sys2Proof.fld word 0 1 = 1 := Sys2Proof.Laws.Field.bits0w1_of_21w5_16w5_11w5_8w3_1w3 0x98000011 d a b k t word hw
  have f21_5 : Sys2Proof.fld word 21 5 = d := Sys2Proof.Laws.Field.bits21w5_of_21w5_16w5_11w5_8w3_1w3 0x98000011 d a b k t word hw b_d b_a b_b b_k b_t rfl rfl rfl rfl rfl
  have f16_5 : Sys2Proof.fld word 16 5 = a := Sys2Proof.Laws.Field.bits16w5_of_21w5_16w5_11w5_8w3_1w3 0x98000011 d a b k t word hw b_a b_b b_k b_t rfl rfl rfl rfl
  have f11_5 : Sys2Proof.fld word 11 5 = b := Sys2Proof.Laws.Field.bits11w5_of_21w5_16w5_11w5_8w3_1w3 0x98000011 d a b k t word hw b_b b_k b_t rfl rfl rfl
  have f8_3 : Sys2Proof.fld word 8 3 = k := Sys2Proof.Laws.Field.bits8w3_of_21w5_16w5_11w5_8w3_1w3 0x98000011 d a b k t word hw b_k b_t rfl rfl
  rw [major26 word f26_6]
  unfold decodeMajor26
  rw [f0_7, f4_4, f1_3, f0_1, f21_5, f16_5, f11_5, f8_3]
  obtain _ | _ | _ | _ | _ | _ | t := t <;> first | rfl | omega
theorem vadc (d : Nat) (a : Nat) (b : Nat) (c : Nat) : Statement (.vadc d a b c) := by
  intro hwf word hw
  replace hwf : (d < 32 && a < 32 && b < 32 && c < 8 : Bool) = true := hwf
  simp only [Bool.and_eq_true, decide_eq_true_eq] at hwf
  have b_d : d < 32 := hwf.1.1.1
  have b_a : a < 32 := hwf.1.1.2
  have b_b : b < 32 := hwf.1.2
  have b_c : c < 8 := hwf.2
  replace hw : 0x9c000000 + d * 2 ^ 21 + a * 2 ^ 16 + b * 2 ^ 11 + c * 2 ^ 8 = word := Option.some.inj hw
  have f26_6 : Sys2Proof.fld word 26 6 = 39 := Sys2Proof.Laws.Field.bits26w6_of_21w5_16w5_11w5_8w3 0x9c000000 d a b c word hw b_d b_a b_b b_c rfl rfl rfl rfl
  have f0_7 : Sys2Proof.fld word 0 7 = 0 := Sys2Proof.Laws.Field.bits0w7_of_21w5_16w5_11w5_8w3 0x9c000000 d a b c word hw
  have f0_8 : Sys2Proof.fld word 0 8 = 0 := Sys2Proof.Laws.Field.bits0w8_of_21w5_16w5_11w5_8w3 0x9c000000 d a b c word hw
  have f21_5 : Sys2Proof.fld word 21 5 = d := Sys2Proof.Laws.Field.bits21w5_of_21w5_16w5_11w5_8w3 0x9c000000 d a b c word hw b_d b_a b_b b_c rfl rfl rfl rfl
  have f16_5 : Sys2Proof.fld word 16 5 = a := Sys2Proof.Laws.Field.bits16w5_of_21w5_16w5_11w5_8w3 0x9c000000 d a b c word hw b_a b_b b_c rfl rfl rfl
  have f11_5 : Sys2Proof.fld word 11 5 = b := Sys2Proof.Laws.Field.bits11w5_of_21w5_16w5_11w5_8w3 0x9c000000 d a b c word hw b_b b_c rfl rfl
  have f8_3 : Sys2Proof.fld word 8 3 = c := Sys2Proof.Laws.Field.bits8w3_of_21w5_16w5_11w5_8w3 0x9c000000 d a b c word hw b_c rfl
  rw [major27 word f26_6]
  unfold decodeMajor27
  rw [f0_7, f0_8, f21_5, f16_5, f11_5, f8_3]; try rfl
theorem vsbc (d : Nat) (a : Nat) (b : Nat) (c : Nat) : Statement (.vsbc d a b c) := by
  intro hwf word hw
  replace hwf : (d < 32 && a < 32 && b < 32 && c < 8 : Bool) = true := hwf
  simp only [Bool.and_eq_true, decide_eq_true_eq] at hwf
  have b_d : d < 32 := hwf.1.1.1
  have b_a : a < 32 := hwf.1.1.2
  have b_b : b < 32 := hwf.1.2
  have b_c : c < 8 := hwf.2
  replace hw : 0x9c000001 + d * 2 ^ 21 + a * 2 ^ 16 + b * 2 ^ 11 + c * 2 ^ 8 = word := Option.some.inj hw
  have f26_6 : Sys2Proof.fld word 26 6 = 39 := Sys2Proof.Laws.Field.bits26w6_of_21w5_16w5_11w5_8w3 0x9c000001 d a b c word hw b_d b_a b_b b_c rfl rfl rfl rfl
  have f0_7 : Sys2Proof.fld word 0 7 = 1 := Sys2Proof.Laws.Field.bits0w7_of_21w5_16w5_11w5_8w3 0x9c000001 d a b c word hw
  have f0_8 : Sys2Proof.fld word 0 8 = 1 := Sys2Proof.Laws.Field.bits0w8_of_21w5_16w5_11w5_8w3 0x9c000001 d a b c word hw
  have f21_5 : Sys2Proof.fld word 21 5 = d := Sys2Proof.Laws.Field.bits21w5_of_21w5_16w5_11w5_8w3 0x9c000001 d a b c word hw b_d b_a b_b b_c rfl rfl rfl rfl
  have f16_5 : Sys2Proof.fld word 16 5 = a := Sys2Proof.Laws.Field.bits16w5_of_21w5_16w5_11w5_8w3 0x9c000001 d a b c word hw b_a b_b b_c rfl rfl rfl
  have f11_5 : Sys2Proof.fld word 11 5 = b := Sys2Proof.Laws.Field.bits11w5_of_21w5_16w5_11w5_8w3 0x9c000001 d a b c word hw b_b b_c rfl rfl
  have f8_3 : Sys2Proof.fld word 8 3 = c := Sys2Proof.Laws.Field.bits8w3_of_21w5_16w5_11w5_8w3 0x9c000001 d a b c word hw b_c rfl
  rw [major27 word f26_6]
  unfold decodeMajor27
  rw [f0_7, f0_8, f21_5, f16_5, f11_5, f8_3]; try rfl
theorem vaddk (d : Nat) (a : Nat) (b : Nat) (c : Nat) : Statement (.vaddk d a b c) := by
  intro hwf word hw
  replace hwf : (d < 8 && a < 32 && b < 32 && c < 8 : Bool) = true := hwf
  simp only [Bool.and_eq_true, decide_eq_true_eq] at hwf
  have b_d : d < 8 := hwf.1.1.1
  have b_a : a < 32 := hwf.1.1.2
  have b_b : b < 32 := hwf.1.2
  have b_c : c < 8 := hwf.2
  replace hw : 0x9c000002 + d * 2 ^ 21 + a * 2 ^ 16 + b * 2 ^ 11 + c * 2 ^ 8 = word := Option.some.inj hw
  have f26_6 : Sys2Proof.fld word 26 6 = 39 := Sys2Proof.Laws.Field.bits26w6_of_21w3_16w5_11w5_8w3 0x9c000002 d a b c word hw b_d b_a b_b b_c rfl rfl rfl rfl
  have f0_7 : Sys2Proof.fld word 0 7 = 2 := Sys2Proof.Laws.Field.bits0w7_of_21w3_16w5_11w5_8w3 0x9c000002 d a b c word hw
  have f0_8 : Sys2Proof.fld word 0 8 = 2 := Sys2Proof.Laws.Field.bits0w8_of_21w3_16w5_11w5_8w3 0x9c000002 d a b c word hw
  have f24_2 : Sys2Proof.fld word 24 2 = 0 := Sys2Proof.Laws.Field.bits24w2_of_21w3_16w5_11w5_8w3 0x9c000002 d a b c word hw b_d b_a b_b b_c rfl rfl rfl rfl
  have f21_3 : Sys2Proof.fld word 21 3 = d := Sys2Proof.Laws.Field.bits21w3_of_21w3_16w5_11w5_8w3 0x9c000002 d a b c word hw b_d b_a b_b b_c rfl rfl rfl rfl
  have f16_5 : Sys2Proof.fld word 16 5 = a := Sys2Proof.Laws.Field.bits16w5_of_21w3_16w5_11w5_8w3 0x9c000002 d a b c word hw b_a b_b b_c rfl rfl rfl
  have f11_5 : Sys2Proof.fld word 11 5 = b := Sys2Proof.Laws.Field.bits11w5_of_21w3_16w5_11w5_8w3 0x9c000002 d a b c word hw b_b b_c rfl rfl
  have f8_3 : Sys2Proof.fld word 8 3 = c := Sys2Proof.Laws.Field.bits8w3_of_21w3_16w5_11w5_8w3 0x9c000002 d a b c word hw b_c rfl
  rw [major27 word f26_6]
  unfold decodeMajor27
  rw [f0_7, f0_8, f24_2, f21_3, f16_5, f11_5, f8_3]; try rfl
theorem vcmpEq (d : Nat) (a : Nat) (b : Nat) (k : Nat) : Statement (.vcmpEq d a b k) := by
  intro hwf word hw
  replace hwf : (d < 8 && a < 32 && b < 32 && k < 8 : Bool) = true := hwf
  simp only [Bool.and_eq_true, decide_eq_true_eq] at hwf
  have b_d : d < 8 := hwf.1.1.1
  have b_a : a < 32 := hwf.1.1.2
  have b_b : b < 32 := hwf.1.2
  have b_k : k < 8 := hwf.2
  replace hw : 0x9c000010 + d * 2 ^ 21 + a * 2 ^ 16 + b * 2 ^ 11 + k * 2 ^ 8 = word := Option.some.inj hw
  have f26_6 : Sys2Proof.fld word 26 6 = 39 := Sys2Proof.Laws.Field.bits26w6_of_21w3_16w5_11w5_8w3 0x9c000010 d a b k word hw b_d b_a b_b b_k rfl rfl rfl rfl
  have f0_7 : Sys2Proof.fld word 0 7 = 16 := Sys2Proof.Laws.Field.bits0w7_of_21w3_16w5_11w5_8w3 0x9c000010 d a b k word hw
  have f0_8 : Sys2Proof.fld word 0 8 = 16 := Sys2Proof.Laws.Field.bits0w8_of_21w3_16w5_11w5_8w3 0x9c000010 d a b k word hw
  have f24_2 : Sys2Proof.fld word 24 2 = 0 := Sys2Proof.Laws.Field.bits24w2_of_21w3_16w5_11w5_8w3 0x9c000010 d a b k word hw b_d b_a b_b b_k rfl rfl rfl rfl
  have f21_3 : Sys2Proof.fld word 21 3 = d := Sys2Proof.Laws.Field.bits21w3_of_21w3_16w5_11w5_8w3 0x9c000010 d a b k word hw b_d b_a b_b b_k rfl rfl rfl rfl
  have f16_5 : Sys2Proof.fld word 16 5 = a := Sys2Proof.Laws.Field.bits16w5_of_21w3_16w5_11w5_8w3 0x9c000010 d a b k word hw b_a b_b b_k rfl rfl rfl
  have f11_5 : Sys2Proof.fld word 11 5 = b := Sys2Proof.Laws.Field.bits11w5_of_21w3_16w5_11w5_8w3 0x9c000010 d a b k word hw b_b b_k rfl rfl
  have f8_3 : Sys2Proof.fld word 8 3 = k := Sys2Proof.Laws.Field.bits8w3_of_21w3_16w5_11w5_8w3 0x9c000010 d a b k word hw b_k rfl
  rw [major27 word f26_6]
  unfold decodeMajor27
  rw [f0_7, f0_8, f24_2, f21_3, f16_5, f11_5, f8_3]; try rfl
theorem vcmpNe (d : Nat) (a : Nat) (b : Nat) (k : Nat) : Statement (.vcmpNe d a b k) := by
  intro hwf word hw
  replace hwf : (d < 8 && a < 32 && b < 32 && k < 8 : Bool) = true := hwf
  simp only [Bool.and_eq_true, decide_eq_true_eq] at hwf
  have b_d : d < 8 := hwf.1.1.1
  have b_a : a < 32 := hwf.1.1.2
  have b_b : b < 32 := hwf.1.2
  have b_k : k < 8 := hwf.2
  replace hw : 0x9c000011 + d * 2 ^ 21 + a * 2 ^ 16 + b * 2 ^ 11 + k * 2 ^ 8 = word := Option.some.inj hw
  have f26_6 : Sys2Proof.fld word 26 6 = 39 := Sys2Proof.Laws.Field.bits26w6_of_21w3_16w5_11w5_8w3 0x9c000011 d a b k word hw b_d b_a b_b b_k rfl rfl rfl rfl
  have f0_7 : Sys2Proof.fld word 0 7 = 17 := Sys2Proof.Laws.Field.bits0w7_of_21w3_16w5_11w5_8w3 0x9c000011 d a b k word hw
  have f0_8 : Sys2Proof.fld word 0 8 = 17 := Sys2Proof.Laws.Field.bits0w8_of_21w3_16w5_11w5_8w3 0x9c000011 d a b k word hw
  have f24_2 : Sys2Proof.fld word 24 2 = 0 := Sys2Proof.Laws.Field.bits24w2_of_21w3_16w5_11w5_8w3 0x9c000011 d a b k word hw b_d b_a b_b b_k rfl rfl rfl rfl
  have f21_3 : Sys2Proof.fld word 21 3 = d := Sys2Proof.Laws.Field.bits21w3_of_21w3_16w5_11w5_8w3 0x9c000011 d a b k word hw b_d b_a b_b b_k rfl rfl rfl rfl
  have f16_5 : Sys2Proof.fld word 16 5 = a := Sys2Proof.Laws.Field.bits16w5_of_21w3_16w5_11w5_8w3 0x9c000011 d a b k word hw b_a b_b b_k rfl rfl rfl
  have f11_5 : Sys2Proof.fld word 11 5 = b := Sys2Proof.Laws.Field.bits11w5_of_21w3_16w5_11w5_8w3 0x9c000011 d a b k word hw b_b b_k rfl rfl
  have f8_3 : Sys2Proof.fld word 8 3 = k := Sys2Proof.Laws.Field.bits8w3_of_21w3_16w5_11w5_8w3 0x9c000011 d a b k word hw b_k rfl
  rw [major27 word f26_6]
  unfold decodeMajor27
  rw [f0_7, f0_8, f24_2, f21_3, f16_5, f11_5, f8_3]; try rfl
theorem vcmpLt (d : Nat) (a : Nat) (b : Nat) (k : Nat) : Statement (.vcmpLt d a b k) := by
  intro hwf word hw
  replace hwf : (d < 8 && a < 32 && b < 32 && k < 8 : Bool) = true := hwf
  simp only [Bool.and_eq_true, decide_eq_true_eq] at hwf
  have b_d : d < 8 := hwf.1.1.1
  have b_a : a < 32 := hwf.1.1.2
  have b_b : b < 32 := hwf.1.2
  have b_k : k < 8 := hwf.2
  replace hw : 0x9c000012 + d * 2 ^ 21 + a * 2 ^ 16 + b * 2 ^ 11 + k * 2 ^ 8 = word := Option.some.inj hw
  have f26_6 : Sys2Proof.fld word 26 6 = 39 := Sys2Proof.Laws.Field.bits26w6_of_21w3_16w5_11w5_8w3 0x9c000012 d a b k word hw b_d b_a b_b b_k rfl rfl rfl rfl
  have f0_7 : Sys2Proof.fld word 0 7 = 18 := Sys2Proof.Laws.Field.bits0w7_of_21w3_16w5_11w5_8w3 0x9c000012 d a b k word hw
  have f0_8 : Sys2Proof.fld word 0 8 = 18 := Sys2Proof.Laws.Field.bits0w8_of_21w3_16w5_11w5_8w3 0x9c000012 d a b k word hw
  have f24_2 : Sys2Proof.fld word 24 2 = 0 := Sys2Proof.Laws.Field.bits24w2_of_21w3_16w5_11w5_8w3 0x9c000012 d a b k word hw b_d b_a b_b b_k rfl rfl rfl rfl
  have f21_3 : Sys2Proof.fld word 21 3 = d := Sys2Proof.Laws.Field.bits21w3_of_21w3_16w5_11w5_8w3 0x9c000012 d a b k word hw b_d b_a b_b b_k rfl rfl rfl rfl
  have f16_5 : Sys2Proof.fld word 16 5 = a := Sys2Proof.Laws.Field.bits16w5_of_21w3_16w5_11w5_8w3 0x9c000012 d a b k word hw b_a b_b b_k rfl rfl rfl
  have f11_5 : Sys2Proof.fld word 11 5 = b := Sys2Proof.Laws.Field.bits11w5_of_21w3_16w5_11w5_8w3 0x9c000012 d a b k word hw b_b b_k rfl rfl
  have f8_3 : Sys2Proof.fld word 8 3 = k := Sys2Proof.Laws.Field.bits8w3_of_21w3_16w5_11w5_8w3 0x9c000012 d a b k word hw b_k rfl
  rw [major27 word f26_6]
  unfold decodeMajor27
  rw [f0_7, f0_8, f24_2, f21_3, f16_5, f11_5, f8_3]; try rfl
theorem vcmpLtn (d : Nat) (a : Nat) (b : Nat) (k : Nat) : Statement (.vcmpLtn d a b k) := by
  intro hwf word hw
  replace hwf : (d < 8 && a < 32 && b < 32 && k < 8 : Bool) = true := hwf
  simp only [Bool.and_eq_true, decide_eq_true_eq] at hwf
  have b_d : d < 8 := hwf.1.1.1
  have b_a : a < 32 := hwf.1.1.2
  have b_b : b < 32 := hwf.1.2
  have b_k : k < 8 := hwf.2
  replace hw : 0x9c000013 + d * 2 ^ 21 + a * 2 ^ 16 + b * 2 ^ 11 + k * 2 ^ 8 = word := Option.some.inj hw
  have f26_6 : Sys2Proof.fld word 26 6 = 39 := Sys2Proof.Laws.Field.bits26w6_of_21w3_16w5_11w5_8w3 0x9c000013 d a b k word hw b_d b_a b_b b_k rfl rfl rfl rfl
  have f0_7 : Sys2Proof.fld word 0 7 = 19 := Sys2Proof.Laws.Field.bits0w7_of_21w3_16w5_11w5_8w3 0x9c000013 d a b k word hw
  have f0_8 : Sys2Proof.fld word 0 8 = 19 := Sys2Proof.Laws.Field.bits0w8_of_21w3_16w5_11w5_8w3 0x9c000013 d a b k word hw
  have f24_2 : Sys2Proof.fld word 24 2 = 0 := Sys2Proof.Laws.Field.bits24w2_of_21w3_16w5_11w5_8w3 0x9c000013 d a b k word hw b_d b_a b_b b_k rfl rfl rfl rfl
  have f21_3 : Sys2Proof.fld word 21 3 = d := Sys2Proof.Laws.Field.bits21w3_of_21w3_16w5_11w5_8w3 0x9c000013 d a b k word hw b_d b_a b_b b_k rfl rfl rfl rfl
  have f16_5 : Sys2Proof.fld word 16 5 = a := Sys2Proof.Laws.Field.bits16w5_of_21w3_16w5_11w5_8w3 0x9c000013 d a b k word hw b_a b_b b_k rfl rfl rfl
  have f11_5 : Sys2Proof.fld word 11 5 = b := Sys2Proof.Laws.Field.bits11w5_of_21w3_16w5_11w5_8w3 0x9c000013 d a b k word hw b_b b_k rfl rfl
  have f8_3 : Sys2Proof.fld word 8 3 = k := Sys2Proof.Laws.Field.bits8w3_of_21w3_16w5_11w5_8w3 0x9c000013 d a b k word hw b_k rfl
  rw [major27 word f26_6]
  unfold decodeMajor27
  rw [f0_7, f0_8, f24_2, f21_3, f16_5, f11_5, f8_3]; try rfl
theorem vcmpLe (d : Nat) (a : Nat) (b : Nat) (k : Nat) : Statement (.vcmpLe d a b k) := by
  intro hwf word hw
  replace hwf : (d < 8 && a < 32 && b < 32 && k < 8 : Bool) = true := hwf
  simp only [Bool.and_eq_true, decide_eq_true_eq] at hwf
  have b_d : d < 8 := hwf.1.1.1
  have b_a : a < 32 := hwf.1.1.2
  have b_b : b < 32 := hwf.1.2
  have b_k : k < 8 := hwf.2
  replace hw : 0x9c000014 + d * 2 ^ 21 + a * 2 ^ 16 + b * 2 ^ 11 + k * 2 ^ 8 = word := Option.some.inj hw
  have f26_6 : Sys2Proof.fld word 26 6 = 39 := Sys2Proof.Laws.Field.bits26w6_of_21w3_16w5_11w5_8w3 0x9c000014 d a b k word hw b_d b_a b_b b_k rfl rfl rfl rfl
  have f0_7 : Sys2Proof.fld word 0 7 = 20 := Sys2Proof.Laws.Field.bits0w7_of_21w3_16w5_11w5_8w3 0x9c000014 d a b k word hw
  have f0_8 : Sys2Proof.fld word 0 8 = 20 := Sys2Proof.Laws.Field.bits0w8_of_21w3_16w5_11w5_8w3 0x9c000014 d a b k word hw
  have f24_2 : Sys2Proof.fld word 24 2 = 0 := Sys2Proof.Laws.Field.bits24w2_of_21w3_16w5_11w5_8w3 0x9c000014 d a b k word hw b_d b_a b_b b_k rfl rfl rfl rfl
  have f21_3 : Sys2Proof.fld word 21 3 = d := Sys2Proof.Laws.Field.bits21w3_of_21w3_16w5_11w5_8w3 0x9c000014 d a b k word hw b_d b_a b_b b_k rfl rfl rfl rfl
  have f16_5 : Sys2Proof.fld word 16 5 = a := Sys2Proof.Laws.Field.bits16w5_of_21w3_16w5_11w5_8w3 0x9c000014 d a b k word hw b_a b_b b_k rfl rfl rfl
  have f11_5 : Sys2Proof.fld word 11 5 = b := Sys2Proof.Laws.Field.bits11w5_of_21w3_16w5_11w5_8w3 0x9c000014 d a b k word hw b_b b_k rfl rfl
  have f8_3 : Sys2Proof.fld word 8 3 = k := Sys2Proof.Laws.Field.bits8w3_of_21w3_16w5_11w5_8w3 0x9c000014 d a b k word hw b_k rfl
  rw [major27 word f26_6]
  unfold decodeMajor27
  rw [f0_7, f0_8, f24_2, f21_3, f16_5, f11_5, f8_3]; try rfl
theorem vcmpLen (d : Nat) (a : Nat) (b : Nat) (k : Nat) : Statement (.vcmpLen d a b k) := by
  intro hwf word hw
  replace hwf : (d < 8 && a < 32 && b < 32 && k < 8 : Bool) = true := hwf
  simp only [Bool.and_eq_true, decide_eq_true_eq] at hwf
  have b_d : d < 8 := hwf.1.1.1
  have b_a : a < 32 := hwf.1.1.2
  have b_b : b < 32 := hwf.1.2
  have b_k : k < 8 := hwf.2
  replace hw : 0x9c000015 + d * 2 ^ 21 + a * 2 ^ 16 + b * 2 ^ 11 + k * 2 ^ 8 = word := Option.some.inj hw
  have f26_6 : Sys2Proof.fld word 26 6 = 39 := Sys2Proof.Laws.Field.bits26w6_of_21w3_16w5_11w5_8w3 0x9c000015 d a b k word hw b_d b_a b_b b_k rfl rfl rfl rfl
  have f0_7 : Sys2Proof.fld word 0 7 = 21 := Sys2Proof.Laws.Field.bits0w7_of_21w3_16w5_11w5_8w3 0x9c000015 d a b k word hw
  have f0_8 : Sys2Proof.fld word 0 8 = 21 := Sys2Proof.Laws.Field.bits0w8_of_21w3_16w5_11w5_8w3 0x9c000015 d a b k word hw
  have f24_2 : Sys2Proof.fld word 24 2 = 0 := Sys2Proof.Laws.Field.bits24w2_of_21w3_16w5_11w5_8w3 0x9c000015 d a b k word hw b_d b_a b_b b_k rfl rfl rfl rfl
  have f21_3 : Sys2Proof.fld word 21 3 = d := Sys2Proof.Laws.Field.bits21w3_of_21w3_16w5_11w5_8w3 0x9c000015 d a b k word hw b_d b_a b_b b_k rfl rfl rfl rfl
  have f16_5 : Sys2Proof.fld word 16 5 = a := Sys2Proof.Laws.Field.bits16w5_of_21w3_16w5_11w5_8w3 0x9c000015 d a b k word hw b_a b_b b_k rfl rfl rfl
  have f11_5 : Sys2Proof.fld word 11 5 = b := Sys2Proof.Laws.Field.bits11w5_of_21w3_16w5_11w5_8w3 0x9c000015 d a b k word hw b_b b_k rfl rfl
  have f8_3 : Sys2Proof.fld word 8 3 = k := Sys2Proof.Laws.Field.bits8w3_of_21w3_16w5_11w5_8w3 0x9c000015 d a b k word hw b_k rfl
  rw [major27 word f26_6]
  unfold decodeMajor27
  rw [f0_7, f0_8, f24_2, f21_3, f16_5, f11_5, f8_3]; try rfl
theorem vcmpFeq (d : Nat) (a : Nat) (b : Nat) (k : Nat) (bf : Bool) : Statement (.vcmpFeq d a b k bf) := by
  intro hwf word hw
  replace hwf : (d < 8 && a < 32 && b < 32 && k < 8 : Bool) = true := hwf
  simp only [Bool.and_eq_true, decide_eq_true_eq] at hwf
  have b_d : d < 8 := hwf.1.1.1
  have b_a : a < 32 := hwf.1.1.2
  have b_b : b < 32 := hwf.1.2
  have b_k : k < 8 := hwf.2
  replace hw : 0x9c000018 + d * 2 ^ 21 + a * 2 ^ 16 + b * 2 ^ 11 + k * 2 ^ 8 + bf.toNat * 2 ^ 7 = word := Option.some.inj hw
  have f26_6 : Sys2Proof.fld word 26 6 = 39 := Sys2Proof.Laws.Field.bits26w6_of_21w3_16w5_11w5_8w3_7w1 0x9c000018 d a b k bf.toNat word hw b_d b_a b_b b_k (flagBit_lt bf) rfl rfl rfl rfl rfl
  have f0_7 : Sys2Proof.fld word 0 7 = 24 := Sys2Proof.Laws.Field.bits0w7_of_21w3_16w5_11w5_8w3_7w1 0x9c000018 d a b k bf.toNat word hw
  have f0_8 : Sys2Proof.fld word 0 8 = 24 + bf.toNat * 2 ^ 7 := Sys2Proof.Laws.Field.bits0w8_of_21w3_16w5_11w5_8w3_7w1 0x9c000018 d a b k bf.toNat word hw (flagBit_lt bf) rfl
  have f24_2 : Sys2Proof.fld word 24 2 = 0 := Sys2Proof.Laws.Field.bits24w2_of_21w3_16w5_11w5_8w3_7w1 0x9c000018 d a b k bf.toNat word hw b_d b_a b_b b_k (flagBit_lt bf) rfl rfl rfl rfl rfl
  have f21_3 : Sys2Proof.fld word 21 3 = d := Sys2Proof.Laws.Field.bits21w3_of_21w3_16w5_11w5_8w3_7w1 0x9c000018 d a b k bf.toNat word hw b_d b_a b_b b_k (flagBit_lt bf) rfl rfl rfl rfl rfl
  have f16_5 : Sys2Proof.fld word 16 5 = a := Sys2Proof.Laws.Field.bits16w5_of_21w3_16w5_11w5_8w3_7w1 0x9c000018 d a b k bf.toNat word hw b_a b_b b_k (flagBit_lt bf) rfl rfl rfl rfl
  have f11_5 : Sys2Proof.fld word 11 5 = b := Sys2Proof.Laws.Field.bits11w5_of_21w3_16w5_11w5_8w3_7w1 0x9c000018 d a b k bf.toNat word hw b_b b_k (flagBit_lt bf) rfl rfl rfl
  have f8_3 : Sys2Proof.fld word 8 3 = k := Sys2Proof.Laws.Field.bits8w3_of_21w3_16w5_11w5_8w3_7w1 0x9c000018 d a b k bf.toNat word hw b_k (flagBit_lt bf) rfl rfl
  have f7_1 : Sys2Proof.fld word 7 1 = bf.toNat := Sys2Proof.Laws.Field.bits7w1_of_21w3_16w5_11w5_8w3_7w1 0x9c000018 d a b k bf.toNat word hw (flagBit_lt bf) rfl
  rw [major27 word f26_6]
  unfold decodeMajor27
  rw [f0_7, f0_8, f24_2, f21_3, f16_5, f11_5, f8_3, f7_1, flagBit bf]; try rfl
theorem vcmpFlt (d : Nat) (a : Nat) (b : Nat) (k : Nat) (bf : Bool) : Statement (.vcmpFlt d a b k bf) := by
  intro hwf word hw
  replace hwf : (d < 8 && a < 32 && b < 32 && k < 8 : Bool) = true := hwf
  simp only [Bool.and_eq_true, decide_eq_true_eq] at hwf
  have b_d : d < 8 := hwf.1.1.1
  have b_a : a < 32 := hwf.1.1.2
  have b_b : b < 32 := hwf.1.2
  have b_k : k < 8 := hwf.2
  replace hw : 0x9c000019 + d * 2 ^ 21 + a * 2 ^ 16 + b * 2 ^ 11 + k * 2 ^ 8 + bf.toNat * 2 ^ 7 = word := Option.some.inj hw
  have f26_6 : Sys2Proof.fld word 26 6 = 39 := Sys2Proof.Laws.Field.bits26w6_of_21w3_16w5_11w5_8w3_7w1 0x9c000019 d a b k bf.toNat word hw b_d b_a b_b b_k (flagBit_lt bf) rfl rfl rfl rfl rfl
  have f0_7 : Sys2Proof.fld word 0 7 = 25 := Sys2Proof.Laws.Field.bits0w7_of_21w3_16w5_11w5_8w3_7w1 0x9c000019 d a b k bf.toNat word hw
  have f0_8 : Sys2Proof.fld word 0 8 = 25 + bf.toNat * 2 ^ 7 := Sys2Proof.Laws.Field.bits0w8_of_21w3_16w5_11w5_8w3_7w1 0x9c000019 d a b k bf.toNat word hw (flagBit_lt bf) rfl
  have f24_2 : Sys2Proof.fld word 24 2 = 0 := Sys2Proof.Laws.Field.bits24w2_of_21w3_16w5_11w5_8w3_7w1 0x9c000019 d a b k bf.toNat word hw b_d b_a b_b b_k (flagBit_lt bf) rfl rfl rfl rfl rfl
  have f21_3 : Sys2Proof.fld word 21 3 = d := Sys2Proof.Laws.Field.bits21w3_of_21w3_16w5_11w5_8w3_7w1 0x9c000019 d a b k bf.toNat word hw b_d b_a b_b b_k (flagBit_lt bf) rfl rfl rfl rfl rfl
  have f16_5 : Sys2Proof.fld word 16 5 = a := Sys2Proof.Laws.Field.bits16w5_of_21w3_16w5_11w5_8w3_7w1 0x9c000019 d a b k bf.toNat word hw b_a b_b b_k (flagBit_lt bf) rfl rfl rfl rfl
  have f11_5 : Sys2Proof.fld word 11 5 = b := Sys2Proof.Laws.Field.bits11w5_of_21w3_16w5_11w5_8w3_7w1 0x9c000019 d a b k bf.toNat word hw b_b b_k (flagBit_lt bf) rfl rfl rfl
  have f8_3 : Sys2Proof.fld word 8 3 = k := Sys2Proof.Laws.Field.bits8w3_of_21w3_16w5_11w5_8w3_7w1 0x9c000019 d a b k bf.toNat word hw b_k (flagBit_lt bf) rfl rfl
  have f7_1 : Sys2Proof.fld word 7 1 = bf.toNat := Sys2Proof.Laws.Field.bits7w1_of_21w3_16w5_11w5_8w3_7w1 0x9c000019 d a b k bf.toNat word hw (flagBit_lt bf) rfl
  rw [major27 word f26_6]
  unfold decodeMajor27
  rw [f0_7, f0_8, f24_2, f21_3, f16_5, f11_5, f8_3, f7_1, flagBit bf]; try rfl
theorem vcmpFle (d : Nat) (a : Nat) (b : Nat) (k : Nat) (bf : Bool) : Statement (.vcmpFle d a b k bf) := by
  intro hwf word hw
  replace hwf : (d < 8 && a < 32 && b < 32 && k < 8 : Bool) = true := hwf
  simp only [Bool.and_eq_true, decide_eq_true_eq] at hwf
  have b_d : d < 8 := hwf.1.1.1
  have b_a : a < 32 := hwf.1.1.2
  have b_b : b < 32 := hwf.1.2
  have b_k : k < 8 := hwf.2
  replace hw : 0x9c00001a + d * 2 ^ 21 + a * 2 ^ 16 + b * 2 ^ 11 + k * 2 ^ 8 + bf.toNat * 2 ^ 7 = word := Option.some.inj hw
  have f26_6 : Sys2Proof.fld word 26 6 = 39 := Sys2Proof.Laws.Field.bits26w6_of_21w3_16w5_11w5_8w3_7w1 0x9c00001a d a b k bf.toNat word hw b_d b_a b_b b_k (flagBit_lt bf) rfl rfl rfl rfl rfl
  have f0_7 : Sys2Proof.fld word 0 7 = 26 := Sys2Proof.Laws.Field.bits0w7_of_21w3_16w5_11w5_8w3_7w1 0x9c00001a d a b k bf.toNat word hw
  have f0_8 : Sys2Proof.fld word 0 8 = 26 + bf.toNat * 2 ^ 7 := Sys2Proof.Laws.Field.bits0w8_of_21w3_16w5_11w5_8w3_7w1 0x9c00001a d a b k bf.toNat word hw (flagBit_lt bf) rfl
  have f24_2 : Sys2Proof.fld word 24 2 = 0 := Sys2Proof.Laws.Field.bits24w2_of_21w3_16w5_11w5_8w3_7w1 0x9c00001a d a b k bf.toNat word hw b_d b_a b_b b_k (flagBit_lt bf) rfl rfl rfl rfl rfl
  have f21_3 : Sys2Proof.fld word 21 3 = d := Sys2Proof.Laws.Field.bits21w3_of_21w3_16w5_11w5_8w3_7w1 0x9c00001a d a b k bf.toNat word hw b_d b_a b_b b_k (flagBit_lt bf) rfl rfl rfl rfl rfl
  have f16_5 : Sys2Proof.fld word 16 5 = a := Sys2Proof.Laws.Field.bits16w5_of_21w3_16w5_11w5_8w3_7w1 0x9c00001a d a b k bf.toNat word hw b_a b_b b_k (flagBit_lt bf) rfl rfl rfl rfl
  have f11_5 : Sys2Proof.fld word 11 5 = b := Sys2Proof.Laws.Field.bits11w5_of_21w3_16w5_11w5_8w3_7w1 0x9c00001a d a b k bf.toNat word hw b_b b_k (flagBit_lt bf) rfl rfl rfl
  have f8_3 : Sys2Proof.fld word 8 3 = k := Sys2Proof.Laws.Field.bits8w3_of_21w3_16w5_11w5_8w3_7w1 0x9c00001a d a b k bf.toNat word hw b_k (flagBit_lt bf) rfl rfl
  have f7_1 : Sys2Proof.fld word 7 1 = bf.toNat := Sys2Proof.Laws.Field.bits7w1_of_21w3_16w5_11w5_8w3_7w1 0x9c00001a d a b k bf.toNat word hw (flagBit_lt bf) rfl
  rw [major27 word f26_6]
  unfold decodeMajor27
  rw [f0_7, f0_8, f24_2, f21_3, f16_5, f11_5, f8_3, f7_1, flagBit bf]; try rfl
theorem vcmpFunord (d : Nat) (a : Nat) (b : Nat) (k : Nat) (bf : Bool) : Statement (.vcmpFunord d a b k bf) := by
  intro hwf word hw
  replace hwf : (d < 8 && a < 32 && b < 32 && k < 8 : Bool) = true := hwf
  simp only [Bool.and_eq_true, decide_eq_true_eq] at hwf
  have b_d : d < 8 := hwf.1.1.1
  have b_a : a < 32 := hwf.1.1.2
  have b_b : b < 32 := hwf.1.2
  have b_k : k < 8 := hwf.2
  replace hw : 0x9c00001b + d * 2 ^ 21 + a * 2 ^ 16 + b * 2 ^ 11 + k * 2 ^ 8 + bf.toNat * 2 ^ 7 = word := Option.some.inj hw
  have f26_6 : Sys2Proof.fld word 26 6 = 39 := Sys2Proof.Laws.Field.bits26w6_of_21w3_16w5_11w5_8w3_7w1 0x9c00001b d a b k bf.toNat word hw b_d b_a b_b b_k (flagBit_lt bf) rfl rfl rfl rfl rfl
  have f0_7 : Sys2Proof.fld word 0 7 = 27 := Sys2Proof.Laws.Field.bits0w7_of_21w3_16w5_11w5_8w3_7w1 0x9c00001b d a b k bf.toNat word hw
  have f0_8 : Sys2Proof.fld word 0 8 = 27 + bf.toNat * 2 ^ 7 := Sys2Proof.Laws.Field.bits0w8_of_21w3_16w5_11w5_8w3_7w1 0x9c00001b d a b k bf.toNat word hw (flagBit_lt bf) rfl
  have f24_2 : Sys2Proof.fld word 24 2 = 0 := Sys2Proof.Laws.Field.bits24w2_of_21w3_16w5_11w5_8w3_7w1 0x9c00001b d a b k bf.toNat word hw b_d b_a b_b b_k (flagBit_lt bf) rfl rfl rfl rfl rfl
  have f21_3 : Sys2Proof.fld word 21 3 = d := Sys2Proof.Laws.Field.bits21w3_of_21w3_16w5_11w5_8w3_7w1 0x9c00001b d a b k bf.toNat word hw b_d b_a b_b b_k (flagBit_lt bf) rfl rfl rfl rfl rfl
  have f16_5 : Sys2Proof.fld word 16 5 = a := Sys2Proof.Laws.Field.bits16w5_of_21w3_16w5_11w5_8w3_7w1 0x9c00001b d a b k bf.toNat word hw b_a b_b b_k (flagBit_lt bf) rfl rfl rfl rfl
  have f11_5 : Sys2Proof.fld word 11 5 = b := Sys2Proof.Laws.Field.bits11w5_of_21w3_16w5_11w5_8w3_7w1 0x9c00001b d a b k bf.toNat word hw b_b b_k (flagBit_lt bf) rfl rfl rfl
  have f8_3 : Sys2Proof.fld word 8 3 = k := Sys2Proof.Laws.Field.bits8w3_of_21w3_16w5_11w5_8w3_7w1 0x9c00001b d a b k bf.toNat word hw b_k (flagBit_lt bf) rfl rfl
  have f7_1 : Sys2Proof.fld word 7 1 = bf.toNat := Sys2Proof.Laws.Field.bits7w1_of_21w3_16w5_11w5_8w3_7w1 0x9c00001b d a b k bf.toNat word hw (flagBit_lt bf) rfl
  rw [major27 word f26_6]
  unfold decodeMajor27
  rw [f0_7, f0_8, f24_2, f21_3, f16_5, f11_5, f8_3, f7_1, flagBit bf]; try rfl
theorem vmerge (d : Nat) (a : Nat) (b : Nat) (c : Nat) : Statement (.vmerge d a b c) := by
  intro hwf word hw
  replace hwf : (d < 32 && a < 32 && b < 32 && c < 8 : Bool) = true := hwf
  simp only [Bool.and_eq_true, decide_eq_true_eq] at hwf
  have b_d : d < 32 := hwf.1.1.1
  have b_a : a < 32 := hwf.1.1.2
  have b_b : b < 32 := hwf.1.2
  have b_c : c < 8 := hwf.2
  replace hw : 0x9c000020 + d * 2 ^ 21 + a * 2 ^ 16 + b * 2 ^ 11 + c * 2 ^ 8 = word := Option.some.inj hw
  have f26_6 : Sys2Proof.fld word 26 6 = 39 := Sys2Proof.Laws.Field.bits26w6_of_21w5_16w5_11w5_8w3 0x9c000020 d a b c word hw b_d b_a b_b b_c rfl rfl rfl rfl
  have f0_7 : Sys2Proof.fld word 0 7 = 32 := Sys2Proof.Laws.Field.bits0w7_of_21w5_16w5_11w5_8w3 0x9c000020 d a b c word hw
  have f0_8 : Sys2Proof.fld word 0 8 = 32 := Sys2Proof.Laws.Field.bits0w8_of_21w5_16w5_11w5_8w3 0x9c000020 d a b c word hw
  have f21_5 : Sys2Proof.fld word 21 5 = d := Sys2Proof.Laws.Field.bits21w5_of_21w5_16w5_11w5_8w3 0x9c000020 d a b c word hw b_d b_a b_b b_c rfl rfl rfl rfl
  have f16_5 : Sys2Proof.fld word 16 5 = a := Sys2Proof.Laws.Field.bits16w5_of_21w5_16w5_11w5_8w3 0x9c000020 d a b c word hw b_a b_b b_c rfl rfl rfl
  have f11_5 : Sys2Proof.fld word 11 5 = b := Sys2Proof.Laws.Field.bits11w5_of_21w5_16w5_11w5_8w3 0x9c000020 d a b c word hw b_b b_c rfl rfl
  have f8_3 : Sys2Proof.fld word 8 3 = c := Sys2Proof.Laws.Field.bits8w3_of_21w5_16w5_11w5_8w3 0x9c000020 d a b c word hw b_c rfl
  rw [major27 word f26_6]
  unfold decodeMajor27
  rw [f0_7, f0_8, f21_5, f16_5, f11_5, f8_3]; try rfl
theorem vmvVv (d : Nat) (a : Nat) : Statement (.vmvVv d a) := by
  intro hwf word hw
  replace hwf : (d < 32 && a < 32 : Bool) = true := hwf
  simp only [Bool.and_eq_true, decide_eq_true_eq] at hwf
  have b_d : d < 32 := hwf.1
  have b_a : a < 32 := hwf.2
  replace hw : 0x9c000021 + d * 2 ^ 21 + a * 2 ^ 16 = word := Option.some.inj hw
  have f26_6 : Sys2Proof.fld word 26 6 = 39 := Sys2Proof.Laws.Field.bits26w6_of_21w5_16w5 0x9c000021 d a word hw b_d b_a rfl rfl
  have f0_7 : Sys2Proof.fld word 0 7 = 33 := Sys2Proof.Laws.Field.bits0w7_of_21w5_16w5 0x9c000021 d a word hw
  have f0_8 : Sys2Proof.fld word 0 8 = 33 := Sys2Proof.Laws.Field.bits0w8_of_21w5_16w5 0x9c000021 d a word hw
  have f8_8 : Sys2Proof.fld word 8 8 = 0 := Sys2Proof.Laws.Field.bits8w8_of_21w5_16w5 0x9c000021 d a word hw
  have f21_5 : Sys2Proof.fld word 21 5 = d := Sys2Proof.Laws.Field.bits21w5_of_21w5_16w5 0x9c000021 d a word hw b_d b_a rfl rfl
  have f16_5 : Sys2Proof.fld word 16 5 = a := Sys2Proof.Laws.Field.bits16w5_of_21w5_16w5 0x9c000021 d a word hw b_a rfl
  rw [major27 word f26_6]
  unfold decodeMajor27
  rw [f0_7, f0_8, f8_8, f21_5, f16_5]; try rfl
theorem vmvVx (d : Nat) (rs : Nat) : Statement (.vmvVx d rs) := by
  intro hwf word hw
  replace hwf : (d < 32 && rs < 32 : Bool) = true := hwf
  simp only [Bool.and_eq_true, decide_eq_true_eq] at hwf
  have b_d : d < 32 := hwf.1
  have b_rs : rs < 32 := hwf.2
  replace hw : 0x9c000022 + d * 2 ^ 21 + rs * 2 ^ 11 = word := Option.some.inj hw
  have f26_6 : Sys2Proof.fld word 26 6 = 39 := Sys2Proof.Laws.Field.bits26w6_of_21w5_11w5 0x9c000022 d rs word hw b_d b_rs rfl rfl
  have f0_7 : Sys2Proof.fld word 0 7 = 34 := Sys2Proof.Laws.Field.bits0w7_of_21w5_11w5 0x9c000022 d rs word hw
  have f0_8 : Sys2Proof.fld word 0 8 = 34 := Sys2Proof.Laws.Field.bits0w8_of_21w5_11w5 0x9c000022 d rs word hw
  have f16_5 : Sys2Proof.fld word 16 5 = 0 := Sys2Proof.Laws.Field.bits16w5_of_21w5_11w5 0x9c000022 d rs word hw b_rs rfl
  have f8_3 : Sys2Proof.fld word 8 3 = 0 := Sys2Proof.Laws.Field.bits8w3_of_21w5_11w5 0x9c000022 d rs word hw
  have f21_5 : Sys2Proof.fld word 21 5 = d := Sys2Proof.Laws.Field.bits21w5_of_21w5_11w5 0x9c000022 d rs word hw b_d b_rs rfl rfl
  have f11_5 : Sys2Proof.fld word 11 5 = rs := Sys2Proof.Laws.Field.bits11w5_of_21w5_11w5 0x9c000022 d rs word hw b_rs rfl
  rw [major27 word f26_6]
  unfold decodeMajor27
  rw [f0_7, f0_8, f16_5, f8_3, f21_5, f11_5]; try rfl
theorem vmvVf (d : Nat) (rs : Nat) : Statement (.vmvVf d rs) := by
  intro hwf word hw
  replace hwf : (d < 32 && rs < 32 : Bool) = true := hwf
  simp only [Bool.and_eq_true, decide_eq_true_eq] at hwf
  have b_d : d < 32 := hwf.1
  have b_rs : rs < 32 := hwf.2
  replace hw : 0x9c000023 + d * 2 ^ 21 + rs * 2 ^ 11 = word := Option.some.inj hw
  have f26_6 : Sys2Proof.fld word 26 6 = 39 := Sys2Proof.Laws.Field.bits26w6_of_21w5_11w5 0x9c000023 d rs word hw b_d b_rs rfl rfl
  have f0_7 : Sys2Proof.fld word 0 7 = 35 := Sys2Proof.Laws.Field.bits0w7_of_21w5_11w5 0x9c000023 d rs word hw
  have f0_8 : Sys2Proof.fld word 0 8 = 35 := Sys2Proof.Laws.Field.bits0w8_of_21w5_11w5 0x9c000023 d rs word hw
  have f16_5 : Sys2Proof.fld word 16 5 = 0 := Sys2Proof.Laws.Field.bits16w5_of_21w5_11w5 0x9c000023 d rs word hw b_rs rfl
  have f8_3 : Sys2Proof.fld word 8 3 = 0 := Sys2Proof.Laws.Field.bits8w3_of_21w5_11w5 0x9c000023 d rs word hw
  have f21_5 : Sys2Proof.fld word 21 5 = d := Sys2Proof.Laws.Field.bits21w5_of_21w5_11w5 0x9c000023 d rs word hw b_d b_rs rfl rfl
  have f11_5 : Sys2Proof.fld word 11 5 = rs := Sys2Proof.Laws.Field.bits11w5_of_21w5_11w5 0x9c000023 d rs word hw b_rs rfl
  rw [major27 word f26_6]
  unfold decodeMajor27
  rw [f0_7, f0_8, f16_5, f8_3, f21_5, f11_5]; try rfl
theorem vmvXv (d : Nat) (a : Nat) : Statement (.vmvXv d a) := by
  intro hwf word hw
  replace hwf : (d < 32 && a < 32 : Bool) = true := hwf
  simp only [Bool.and_eq_true, decide_eq_true_eq] at hwf
  have b_d : d < 32 := hwf.1
  have b_a : a < 32 := hwf.2
  replace hw : 0x9c000024 + d * 2 ^ 21 + a * 2 ^ 16 = word := Option.some.inj hw
  have f26_6 : Sys2Proof.fld word 26 6 = 39 := Sys2Proof.Laws.Field.bits26w6_of_21w5_16w5 0x9c000024 d a word hw b_d b_a rfl rfl
  have f0_7 : Sys2Proof.fld word 0 7 = 36 := Sys2Proof.Laws.Field.bits0w7_of_21w5_16w5 0x9c000024 d a word hw
  have f0_8 : Sys2Proof.fld word 0 8 = 36 := Sys2Proof.Laws.Field.bits0w8_of_21w5_16w5 0x9c000024 d a word hw
  have f8_8 : Sys2Proof.fld word 8 8 = 0 := Sys2Proof.Laws.Field.bits8w8_of_21w5_16w5 0x9c000024 d a word hw
  have f21_5 : Sys2Proof.fld word 21 5 = d := Sys2Proof.Laws.Field.bits21w5_of_21w5_16w5 0x9c000024 d a word hw b_d b_a rfl rfl
  have f16_5 : Sys2Proof.fld word 16 5 = a := Sys2Proof.Laws.Field.bits16w5_of_21w5_16w5 0x9c000024 d a word hw b_a rfl
  rw [major27 word f26_6]
  unfold decodeMajor27
  rw [f0_7, f0_8, f8_8, f21_5, f16_5]; try rfl
theorem vmvFv (d : Nat) (a : Nat) : Statement (.vmvFv d a) := by
  intro hwf word hw
  replace hwf : (d < 32 && a < 32 : Bool) = true := hwf
  simp only [Bool.and_eq_true, decide_eq_true_eq] at hwf
  have b_d : d < 32 := hwf.1
  have b_a : a < 32 := hwf.2
  replace hw : 0x9c000025 + d * 2 ^ 21 + a * 2 ^ 16 = word := Option.some.inj hw
  have f26_6 : Sys2Proof.fld word 26 6 = 39 := Sys2Proof.Laws.Field.bits26w6_of_21w5_16w5 0x9c000025 d a word hw b_d b_a rfl rfl
  have f0_7 : Sys2Proof.fld word 0 7 = 37 := Sys2Proof.Laws.Field.bits0w7_of_21w5_16w5 0x9c000025 d a word hw
  have f0_8 : Sys2Proof.fld word 0 8 = 37 := Sys2Proof.Laws.Field.bits0w8_of_21w5_16w5 0x9c000025 d a word hw
  have f8_8 : Sys2Proof.fld word 8 8 = 0 := Sys2Proof.Laws.Field.bits8w8_of_21w5_16w5 0x9c000025 d a word hw
  have f21_5 : Sys2Proof.fld word 21 5 = d := Sys2Proof.Laws.Field.bits21w5_of_21w5_16w5 0x9c000025 d a word hw b_d b_a rfl rfl
  have f16_5 : Sys2Proof.fld word 16 5 = a := Sys2Proof.Laws.Field.bits16w5_of_21w5_16w5 0x9c000025 d a word hw b_a rfl
  rw [major27 word f26_6]
  unfold decodeMajor27
  rw [f0_7, f0_8, f8_8, f21_5, f16_5]; try rfl
theorem vid (d : Nat) (k : Nat) : Statement (.vid d k) := by
  intro hwf word hw
  replace hwf : (d < 32 && k < 8 : Bool) = true := hwf
  simp only [Bool.and_eq_true, decide_eq_true_eq] at hwf
  have b_d : d < 32 := hwf.1
  have b_k : k < 8 := hwf.2
  replace hw : 0x9c000026 + d * 2 ^ 21 + k * 2 ^ 8 = word := Option.some.inj hw
  have f26_6 : Sys2Proof.fld word 26 6 = 39 := Sys2Proof.Laws.Field.bits26w6_of_21w5_8w3 0x9c000026 d k word hw b_d b_k rfl rfl
  have f0_7 : Sys2Proof.fld word 0 7 = 38 := Sys2Proof.Laws.Field.bits0w7_of_21w5_8w3 0x9c000026 d k word hw
  have f0_8 : Sys2Proof.fld word 0 8 = 38 := Sys2Proof.Laws.Field.bits0w8_of_21w5_8w3 0x9c000026 d k word hw
  have f11_10 : Sys2Proof.fld word 11 10 = 0 := Sys2Proof.Laws.Field.bits11w10_of_21w5_8w3 0x9c000026 d k word hw b_k rfl
  have f21_5 : Sys2Proof.fld word 21 5 = d := Sys2Proof.Laws.Field.bits21w5_of_21w5_8w3 0x9c000026 d k word hw b_d b_k rfl rfl
  have f8_3 : Sys2Proof.fld word 8 3 = k := Sys2Proof.Laws.Field.bits8w3_of_21w5_8w3 0x9c000026 d k word hw b_k rfl
  rw [major27 word f26_6]
  unfold decodeMajor27
  rw [f0_7, f0_8, f11_10, f21_5, f8_3]; try rfl
theorem kand (d : Nat) (a : Nat) (b : Nat) : Statement (.kand d a b) := by
  intro hwf word hw
  replace hwf : (d < 8 && a < 8 && b < 8 : Bool) = true := hwf
  simp only [Bool.and_eq_true, decide_eq_true_eq] at hwf
  have b_d : d < 8 := hwf.1.1
  have b_a : a < 8 := hwf.1.2
  have b_b : b < 8 := hwf.2
  replace hw : 0xa0000000 + d * 2 ^ 21 + a * 2 ^ 16 + b * 2 ^ 11 = word := Option.some.inj hw
  have f26_6 : Sys2Proof.fld word 26 6 = 40 := Sys2Proof.Laws.Field.bits26w6_of_21w3_16w3_11w3 0xa0000000 d a b word hw b_d b_a b_b rfl rfl rfl
  have f24_2 : Sys2Proof.fld word 24 2 = 0 := Sys2Proof.Laws.Field.bits24w2_of_21w3_16w3_11w3 0xa0000000 d a b word hw b_d b_a b_b rfl rfl rfl
  have f19_2 : Sys2Proof.fld word 19 2 = 0 := Sys2Proof.Laws.Field.bits19w2_of_21w3_16w3_11w3 0xa0000000 d a b word hw b_a b_b rfl rfl
  have f14_2 : Sys2Proof.fld word 14 2 = 0 := Sys2Proof.Laws.Field.bits14w2_of_21w3_16w3_11w3 0xa0000000 d a b word hw b_b rfl
  have f4_7 : Sys2Proof.fld word 4 7 = 0 := Sys2Proof.Laws.Field.bits4w7_of_21w3_16w3_11w3 0xa0000000 d a b word hw
  have f0_4 : Sys2Proof.fld word 0 4 = 0 := Sys2Proof.Laws.Field.bits0w4_of_21w3_16w3_11w3 0xa0000000 d a b word hw
  have f21_3 : Sys2Proof.fld word 21 3 = d := Sys2Proof.Laws.Field.bits21w3_of_21w3_16w3_11w3 0xa0000000 d a b word hw b_d b_a b_b rfl rfl rfl
  have f16_3 : Sys2Proof.fld word 16 3 = a := Sys2Proof.Laws.Field.bits16w3_of_21w3_16w3_11w3 0xa0000000 d a b word hw b_a b_b rfl rfl
  have f11_3 : Sys2Proof.fld word 11 3 = b := Sys2Proof.Laws.Field.bits11w3_of_21w3_16w3_11w3 0xa0000000 d a b word hw b_b rfl
  rw [major28 word f26_6]
  unfold decodeMajor28
  rw [f24_2, f19_2, f14_2, f4_7, f0_4, f21_3, f16_3, f11_3]; try rfl
theorem kor (d : Nat) (a : Nat) (b : Nat) : Statement (.kor d a b) := by
  intro hwf word hw
  replace hwf : (d < 8 && a < 8 && b < 8 : Bool) = true := hwf
  simp only [Bool.and_eq_true, decide_eq_true_eq] at hwf
  have b_d : d < 8 := hwf.1.1
  have b_a : a < 8 := hwf.1.2
  have b_b : b < 8 := hwf.2
  replace hw : 0xa0000001 + d * 2 ^ 21 + a * 2 ^ 16 + b * 2 ^ 11 = word := Option.some.inj hw
  have f26_6 : Sys2Proof.fld word 26 6 = 40 := Sys2Proof.Laws.Field.bits26w6_of_21w3_16w3_11w3 0xa0000001 d a b word hw b_d b_a b_b rfl rfl rfl
  have f24_2 : Sys2Proof.fld word 24 2 = 0 := Sys2Proof.Laws.Field.bits24w2_of_21w3_16w3_11w3 0xa0000001 d a b word hw b_d b_a b_b rfl rfl rfl
  have f19_2 : Sys2Proof.fld word 19 2 = 0 := Sys2Proof.Laws.Field.bits19w2_of_21w3_16w3_11w3 0xa0000001 d a b word hw b_a b_b rfl rfl
  have f14_2 : Sys2Proof.fld word 14 2 = 0 := Sys2Proof.Laws.Field.bits14w2_of_21w3_16w3_11w3 0xa0000001 d a b word hw b_b rfl
  have f4_7 : Sys2Proof.fld word 4 7 = 0 := Sys2Proof.Laws.Field.bits4w7_of_21w3_16w3_11w3 0xa0000001 d a b word hw
  have f0_4 : Sys2Proof.fld word 0 4 = 1 := Sys2Proof.Laws.Field.bits0w4_of_21w3_16w3_11w3 0xa0000001 d a b word hw
  have f21_3 : Sys2Proof.fld word 21 3 = d := Sys2Proof.Laws.Field.bits21w3_of_21w3_16w3_11w3 0xa0000001 d a b word hw b_d b_a b_b rfl rfl rfl
  have f16_3 : Sys2Proof.fld word 16 3 = a := Sys2Proof.Laws.Field.bits16w3_of_21w3_16w3_11w3 0xa0000001 d a b word hw b_a b_b rfl rfl
  have f11_3 : Sys2Proof.fld word 11 3 = b := Sys2Proof.Laws.Field.bits11w3_of_21w3_16w3_11w3 0xa0000001 d a b word hw b_b rfl
  rw [major28 word f26_6]
  unfold decodeMajor28
  rw [f24_2, f19_2, f14_2, f4_7, f0_4, f21_3, f16_3, f11_3]; try rfl
theorem kxor (d : Nat) (a : Nat) (b : Nat) : Statement (.kxor d a b) := by
  intro hwf word hw
  replace hwf : (d < 8 && a < 8 && b < 8 : Bool) = true := hwf
  simp only [Bool.and_eq_true, decide_eq_true_eq] at hwf
  have b_d : d < 8 := hwf.1.1
  have b_a : a < 8 := hwf.1.2
  have b_b : b < 8 := hwf.2
  replace hw : 0xa0000002 + d * 2 ^ 21 + a * 2 ^ 16 + b * 2 ^ 11 = word := Option.some.inj hw
  have f26_6 : Sys2Proof.fld word 26 6 = 40 := Sys2Proof.Laws.Field.bits26w6_of_21w3_16w3_11w3 0xa0000002 d a b word hw b_d b_a b_b rfl rfl rfl
  have f24_2 : Sys2Proof.fld word 24 2 = 0 := Sys2Proof.Laws.Field.bits24w2_of_21w3_16w3_11w3 0xa0000002 d a b word hw b_d b_a b_b rfl rfl rfl
  have f19_2 : Sys2Proof.fld word 19 2 = 0 := Sys2Proof.Laws.Field.bits19w2_of_21w3_16w3_11w3 0xa0000002 d a b word hw b_a b_b rfl rfl
  have f14_2 : Sys2Proof.fld word 14 2 = 0 := Sys2Proof.Laws.Field.bits14w2_of_21w3_16w3_11w3 0xa0000002 d a b word hw b_b rfl
  have f4_7 : Sys2Proof.fld word 4 7 = 0 := Sys2Proof.Laws.Field.bits4w7_of_21w3_16w3_11w3 0xa0000002 d a b word hw
  have f0_4 : Sys2Proof.fld word 0 4 = 2 := Sys2Proof.Laws.Field.bits0w4_of_21w3_16w3_11w3 0xa0000002 d a b word hw
  have f21_3 : Sys2Proof.fld word 21 3 = d := Sys2Proof.Laws.Field.bits21w3_of_21w3_16w3_11w3 0xa0000002 d a b word hw b_d b_a b_b rfl rfl rfl
  have f16_3 : Sys2Proof.fld word 16 3 = a := Sys2Proof.Laws.Field.bits16w3_of_21w3_16w3_11w3 0xa0000002 d a b word hw b_a b_b rfl rfl
  have f11_3 : Sys2Proof.fld word 11 3 = b := Sys2Proof.Laws.Field.bits11w3_of_21w3_16w3_11w3 0xa0000002 d a b word hw b_b rfl
  rw [major28 word f26_6]
  unfold decodeMajor28
  rw [f24_2, f19_2, f14_2, f4_7, f0_4, f21_3, f16_3, f11_3]; try rfl
theorem kandn (d : Nat) (a : Nat) (b : Nat) : Statement (.kandn d a b) := by
  intro hwf word hw
  replace hwf : (d < 8 && a < 8 && b < 8 : Bool) = true := hwf
  simp only [Bool.and_eq_true, decide_eq_true_eq] at hwf
  have b_d : d < 8 := hwf.1.1
  have b_a : a < 8 := hwf.1.2
  have b_b : b < 8 := hwf.2
  replace hw : 0xa0000003 + d * 2 ^ 21 + a * 2 ^ 16 + b * 2 ^ 11 = word := Option.some.inj hw
  have f26_6 : Sys2Proof.fld word 26 6 = 40 := Sys2Proof.Laws.Field.bits26w6_of_21w3_16w3_11w3 0xa0000003 d a b word hw b_d b_a b_b rfl rfl rfl
  have f24_2 : Sys2Proof.fld word 24 2 = 0 := Sys2Proof.Laws.Field.bits24w2_of_21w3_16w3_11w3 0xa0000003 d a b word hw b_d b_a b_b rfl rfl rfl
  have f19_2 : Sys2Proof.fld word 19 2 = 0 := Sys2Proof.Laws.Field.bits19w2_of_21w3_16w3_11w3 0xa0000003 d a b word hw b_a b_b rfl rfl
  have f14_2 : Sys2Proof.fld word 14 2 = 0 := Sys2Proof.Laws.Field.bits14w2_of_21w3_16w3_11w3 0xa0000003 d a b word hw b_b rfl
  have f4_7 : Sys2Proof.fld word 4 7 = 0 := Sys2Proof.Laws.Field.bits4w7_of_21w3_16w3_11w3 0xa0000003 d a b word hw
  have f0_4 : Sys2Proof.fld word 0 4 = 3 := Sys2Proof.Laws.Field.bits0w4_of_21w3_16w3_11w3 0xa0000003 d a b word hw
  have f21_3 : Sys2Proof.fld word 21 3 = d := Sys2Proof.Laws.Field.bits21w3_of_21w3_16w3_11w3 0xa0000003 d a b word hw b_d b_a b_b rfl rfl rfl
  have f16_3 : Sys2Proof.fld word 16 3 = a := Sys2Proof.Laws.Field.bits16w3_of_21w3_16w3_11w3 0xa0000003 d a b word hw b_a b_b rfl rfl
  have f11_3 : Sys2Proof.fld word 11 3 = b := Sys2Proof.Laws.Field.bits11w3_of_21w3_16w3_11w3 0xa0000003 d a b word hw b_b rfl
  rw [major28 word f26_6]
  unfold decodeMajor28
  rw [f24_2, f19_2, f14_2, f4_7, f0_4, f21_3, f16_3, f11_3]; try rfl
theorem knot (d : Nat) (a : Nat) : Statement (.knot d a) := by
  intro hwf word hw
  replace hwf : (d < 8 && a < 8 : Bool) = true := hwf
  simp only [Bool.and_eq_true, decide_eq_true_eq] at hwf
  have b_d : d < 8 := hwf.1
  have b_a : a < 8 := hwf.2
  replace hw : 0xa0000004 + d * 2 ^ 21 + a * 2 ^ 16 = word := Option.some.inj hw
  have f26_6 : Sys2Proof.fld word 26 6 = 40 := Sys2Proof.Laws.Field.bits26w6_of_21w3_16w3 0xa0000004 d a word hw b_d b_a rfl rfl
  have f24_2 : Sys2Proof.fld word 24 2 = 0 := Sys2Proof.Laws.Field.bits24w2_of_21w3_16w3 0xa0000004 d a word hw b_d b_a rfl rfl
  have f19_2 : Sys2Proof.fld word 19 2 = 0 := Sys2Proof.Laws.Field.bits19w2_of_21w3_16w3 0xa0000004 d a word hw b_a rfl
  have f14_2 : Sys2Proof.fld word 14 2 = 0 := Sys2Proof.Laws.Field.bits14w2_of_21w3_16w3 0xa0000004 d a word hw
  have f4_7 : Sys2Proof.fld word 4 7 = 0 := Sys2Proof.Laws.Field.bits4w7_of_21w3_16w3 0xa0000004 d a word hw
  have f0_4 : Sys2Proof.fld word 0 4 = 4 := Sys2Proof.Laws.Field.bits0w4_of_21w3_16w3 0xa0000004 d a word hw
  have f11_3 : Sys2Proof.fld word 11 3 = 0 := Sys2Proof.Laws.Field.bits11w3_of_21w3_16w3 0xa0000004 d a word hw
  have f21_3 : Sys2Proof.fld word 21 3 = d := Sys2Proof.Laws.Field.bits21w3_of_21w3_16w3 0xa0000004 d a word hw b_d b_a rfl rfl
  have f16_3 : Sys2Proof.fld word 16 3 = a := Sys2Proof.Laws.Field.bits16w3_of_21w3_16w3 0xa0000004 d a word hw b_a rfl
  rw [major28 word f26_6]
  unfold decodeMajor28
  rw [f24_2, f19_2, f14_2, f4_7, f0_4, f11_3, f21_3, f16_3]; try rfl
theorem kmv (d : Nat) (a : Nat) : Statement (.kmv d a) := by
  intro hwf word hw
  replace hwf : (d < 8 && a < 8 : Bool) = true := hwf
  simp only [Bool.and_eq_true, decide_eq_true_eq] at hwf
  have b_d : d < 8 := hwf.1
  have b_a : a < 8 := hwf.2
  replace hw : 0xa0000005 + d * 2 ^ 21 + a * 2 ^ 16 = word := Option.some.inj hw
  have f26_6 : Sys2Proof.fld word 26 6 = 40 := Sys2Proof.Laws.Field.bits26w6_of_21w3_16w3 0xa0000005 d a word hw b_d b_a rfl rfl
  have f24_2 : Sys2Proof.fld word 24 2 = 0 := Sys2Proof.Laws.Field.bits24w2_of_21w3_16w3 0xa0000005 d a word hw b_d b_a rfl rfl
  have f19_2 : Sys2Proof.fld word 19 2 = 0 := Sys2Proof.Laws.Field.bits19w2_of_21w3_16w3 0xa0000005 d a word hw b_a rfl
  have f14_2 : Sys2Proof.fld word 14 2 = 0 := Sys2Proof.Laws.Field.bits14w2_of_21w3_16w3 0xa0000005 d a word hw
  have f4_7 : Sys2Proof.fld word 4 7 = 0 := Sys2Proof.Laws.Field.bits4w7_of_21w3_16w3 0xa0000005 d a word hw
  have f0_4 : Sys2Proof.fld word 0 4 = 5 := Sys2Proof.Laws.Field.bits0w4_of_21w3_16w3 0xa0000005 d a word hw
  have f11_3 : Sys2Proof.fld word 11 3 = 0 := Sys2Proof.Laws.Field.bits11w3_of_21w3_16w3 0xa0000005 d a word hw
  have f21_3 : Sys2Proof.fld word 21 3 = d := Sys2Proof.Laws.Field.bits21w3_of_21w3_16w3 0xa0000005 d a word hw b_d b_a rfl rfl
  have f16_3 : Sys2Proof.fld word 16 3 = a := Sys2Proof.Laws.Field.bits16w3_of_21w3_16w3 0xa0000005 d a word hw b_a rfl
  rw [major28 word f26_6]
  unfold decodeMajor28
  rw [f24_2, f19_2, f14_2, f4_7, f0_4, f11_3, f21_3, f16_3]; try rfl
theorem kshl (d : Nat) (a : Nat) (b : Nat) : Statement (.kshl d a b) := by
  intro hwf word hw
  replace hwf : (d < 8 && a < 8 && b < 32 : Bool) = true := hwf
  simp only [Bool.and_eq_true, decide_eq_true_eq] at hwf
  have b_d : d < 8 := hwf.1.1
  have b_a : a < 8 := hwf.1.2
  have b_b : b < 32 := hwf.2
  replace hw : 0xa4000000 + d * 2 ^ 21 + a * 2 ^ 16 + b * 2 ^ 11 = word := Option.some.inj hw
  have f26_6 : Sys2Proof.fld word 26 6 = 41 := Sys2Proof.Laws.Field.bits26w6_of_21w3_16w3_11w5 0xa4000000 d a b word hw b_d b_a b_b rfl rfl rfl
  have f24_2 : Sys2Proof.fld word 24 2 = 0 := Sys2Proof.Laws.Field.bits24w2_of_21w3_16w3_11w5 0xa4000000 d a b word hw b_d b_a b_b rfl rfl rfl
  have f19_2 : Sys2Proof.fld word 19 2 = 0 := Sys2Proof.Laws.Field.bits19w2_of_21w3_16w3_11w5 0xa4000000 d a b word hw b_a b_b rfl rfl
  have f4_7 : Sys2Proof.fld word 4 7 = 0 := Sys2Proof.Laws.Field.bits4w7_of_21w3_16w3_11w5 0xa4000000 d a b word hw
  have f0_4 : Sys2Proof.fld word 0 4 = 0 := Sys2Proof.Laws.Field.bits0w4_of_21w3_16w3_11w5 0xa4000000 d a b word hw
  have f21_3 : Sys2Proof.fld word 21 3 = d := Sys2Proof.Laws.Field.bits21w3_of_21w3_16w3_11w5 0xa4000000 d a b word hw b_d b_a b_b rfl rfl rfl
  have f16_3 : Sys2Proof.fld word 16 3 = a := Sys2Proof.Laws.Field.bits16w3_of_21w3_16w3_11w5 0xa4000000 d a b word hw b_a b_b rfl rfl
  have f11_5 : Sys2Proof.fld word 11 5 = b := Sys2Proof.Laws.Field.bits11w5_of_21w3_16w3_11w5 0xa4000000 d a b word hw b_b rfl
  rw [major29 word f26_6]
  unfold decodeMajor29
  rw [f24_2, f19_2, f4_7, f0_4, f21_3, f16_3, f11_5]; try rfl
theorem kshr (d : Nat) (a : Nat) (b : Nat) : Statement (.kshr d a b) := by
  intro hwf word hw
  replace hwf : (d < 8 && a < 8 && b < 32 : Bool) = true := hwf
  simp only [Bool.and_eq_true, decide_eq_true_eq] at hwf
  have b_d : d < 8 := hwf.1.1
  have b_a : a < 8 := hwf.1.2
  have b_b : b < 32 := hwf.2
  replace hw : 0xa4000001 + d * 2 ^ 21 + a * 2 ^ 16 + b * 2 ^ 11 = word := Option.some.inj hw
  have f26_6 : Sys2Proof.fld word 26 6 = 41 := Sys2Proof.Laws.Field.bits26w6_of_21w3_16w3_11w5 0xa4000001 d a b word hw b_d b_a b_b rfl rfl rfl
  have f24_2 : Sys2Proof.fld word 24 2 = 0 := Sys2Proof.Laws.Field.bits24w2_of_21w3_16w3_11w5 0xa4000001 d a b word hw b_d b_a b_b rfl rfl rfl
  have f19_2 : Sys2Proof.fld word 19 2 = 0 := Sys2Proof.Laws.Field.bits19w2_of_21w3_16w3_11w5 0xa4000001 d a b word hw b_a b_b rfl rfl
  have f4_7 : Sys2Proof.fld word 4 7 = 0 := Sys2Proof.Laws.Field.bits4w7_of_21w3_16w3_11w5 0xa4000001 d a b word hw
  have f0_4 : Sys2Proof.fld word 0 4 = 1 := Sys2Proof.Laws.Field.bits0w4_of_21w3_16w3_11w5 0xa4000001 d a b word hw
  have f21_3 : Sys2Proof.fld word 21 3 = d := Sys2Proof.Laws.Field.bits21w3_of_21w3_16w3_11w5 0xa4000001 d a b word hw b_d b_a b_b rfl rfl rfl
  have f16_3 : Sys2Proof.fld word 16 3 = a := Sys2Proof.Laws.Field.bits16w3_of_21w3_16w3_11w5 0xa4000001 d a b word hw b_a b_b rfl rfl
  have f11_5 : Sys2Proof.fld word 11 5 = b := Sys2Proof.Laws.Field.bits11w5_of_21w3_16w3_11w5 0xa4000001 d a b word hw b_b rfl
  rw [major29 word f26_6]
  unfold decodeMajor29
  rw [f24_2, f19_2, f4_7, f0_4, f21_3, f16_3, f11_5]; try rfl
theorem kpop (d : Nat) (a : Nat) : Statement (.kpop d a) := by
  intro hwf word hw
  replace hwf : (d < 32 && a < 8 : Bool) = true := hwf
  simp only [Bool.and_eq_true, decide_eq_true_eq] at hwf
  have b_d : d < 32 := hwf.1
  have b_a : a < 8 := hwf.2
  replace hw : 0xa8000000 + d * 2 ^ 21 + a * 2 ^ 16 = word := Option.some.inj hw
  have f26_6 : Sys2Proof.fld word 26 6 = 42 := Sys2Proof.Laws.Field.bits26w6_of_21w5_16w3 0xa8000000 d a word hw b_d b_a rfl rfl
  have f19_2 : Sys2Proof.fld word 19 2 = 0 := Sys2Proof.Laws.Field.bits19w2_of_21w5_16w3 0xa8000000 d a word hw b_a rfl
  have f4_7 : Sys2Proof.fld word 4 7 = 0 := Sys2Proof.Laws.Field.bits4w7_of_21w5_16w3 0xa8000000 d a word hw
  have f0_4 : Sys2Proof.fld word 0 4 = 0 := Sys2Proof.Laws.Field.bits0w4_of_21w5_16w3 0xa8000000 d a word hw
  have f11_5 : Sys2Proof.fld word 11 5 = 0 := Sys2Proof.Laws.Field.bits11w5_of_21w5_16w3 0xa8000000 d a word hw
  have f21_5 : Sys2Proof.fld word 21 5 = d := Sys2Proof.Laws.Field.bits21w5_of_21w5_16w3 0xa8000000 d a word hw b_d b_a rfl rfl
  have f16_3 : Sys2Proof.fld word 16 3 = a := Sys2Proof.Laws.Field.bits16w3_of_21w5_16w3 0xa8000000 d a word hw b_a rfl
  rw [major2A word f26_6]
  unfold decodeMajor2A
  rw [f19_2, f4_7, f0_4, f11_5, f21_5, f16_3]; try rfl
theorem kfirst (d : Nat) (a : Nat) : Statement (.kfirst d a) := by
  intro hwf word hw
  replace hwf : (d < 32 && a < 8 : Bool) = true := hwf
  simp only [Bool.and_eq_true, decide_eq_true_eq] at hwf
  have b_d : d < 32 := hwf.1
  have b_a : a < 8 := hwf.2
  replace hw : 0xa8000001 + d * 2 ^ 21 + a * 2 ^ 16 = word := Option.some.inj hw
  have f26_6 : Sys2Proof.fld word 26 6 = 42 := Sys2Proof.Laws.Field.bits26w6_of_21w5_16w3 0xa8000001 d a word hw b_d b_a rfl rfl
  have f19_2 : Sys2Proof.fld word 19 2 = 0 := Sys2Proof.Laws.Field.bits19w2_of_21w5_16w3 0xa8000001 d a word hw b_a rfl
  have f4_7 : Sys2Proof.fld word 4 7 = 0 := Sys2Proof.Laws.Field.bits4w7_of_21w5_16w3 0xa8000001 d a word hw
  have f0_4 : Sys2Proof.fld word 0 4 = 1 := Sys2Proof.Laws.Field.bits0w4_of_21w5_16w3 0xa8000001 d a word hw
  have f11_5 : Sys2Proof.fld word 11 5 = 0 := Sys2Proof.Laws.Field.bits11w5_of_21w5_16w3 0xa8000001 d a word hw
  have f21_5 : Sys2Proof.fld word 21 5 = d := Sys2Proof.Laws.Field.bits21w5_of_21w5_16w3 0xa8000001 d a word hw b_d b_a rfl rfl
  have f16_3 : Sys2Proof.fld word 16 3 = a := Sys2Proof.Laws.Field.bits16w3_of_21w5_16w3 0xa8000001 d a word hw b_a rfl
  rw [major2A word f26_6]
  unfold decodeMajor2A
  rw [f19_2, f4_7, f0_4, f11_5, f21_5, f16_3]; try rfl
theorem klast (d : Nat) (a : Nat) : Statement (.klast d a) := by
  intro hwf word hw
  replace hwf : (d < 32 && a < 8 : Bool) = true := hwf
  simp only [Bool.and_eq_true, decide_eq_true_eq] at hwf
  have b_d : d < 32 := hwf.1
  have b_a : a < 8 := hwf.2
  replace hw : 0xa8000002 + d * 2 ^ 21 + a * 2 ^ 16 = word := Option.some.inj hw
  have f26_6 : Sys2Proof.fld word 26 6 = 42 := Sys2Proof.Laws.Field.bits26w6_of_21w5_16w3 0xa8000002 d a word hw b_d b_a rfl rfl
  have f19_2 : Sys2Proof.fld word 19 2 = 0 := Sys2Proof.Laws.Field.bits19w2_of_21w5_16w3 0xa8000002 d a word hw b_a rfl
  have f4_7 : Sys2Proof.fld word 4 7 = 0 := Sys2Proof.Laws.Field.bits4w7_of_21w5_16w3 0xa8000002 d a word hw
  have f0_4 : Sys2Proof.fld word 0 4 = 2 := Sys2Proof.Laws.Field.bits0w4_of_21w5_16w3 0xa8000002 d a word hw
  have f11_5 : Sys2Proof.fld word 11 5 = 0 := Sys2Proof.Laws.Field.bits11w5_of_21w5_16w3 0xa8000002 d a word hw
  have f21_5 : Sys2Proof.fld word 21 5 = d := Sys2Proof.Laws.Field.bits21w5_of_21w5_16w3 0xa8000002 d a word hw b_d b_a rfl rfl
  have f16_3 : Sys2Proof.fld word 16 3 = a := Sys2Proof.Laws.Field.bits16w3_of_21w5_16w3 0xa8000002 d a word hw b_a rfl
  rw [major2A word f26_6]
  unfold decodeMajor2A
  rw [f19_2, f4_7, f0_4, f11_5, f21_5, f16_3]; try rfl
theorem kld (d : Nat) (a : Nat) : Statement (.kld d a) := by
  intro hwf word hw
  replace hwf : (d < 8 && a < 32 : Bool) = true := hwf
  simp only [Bool.and_eq_true, decide_eq_true_eq] at hwf
  have b_d : d < 8 := hwf.1
  have b_a : a < 32 := hwf.2
  replace hw : 0xac000000 + d * 2 ^ 21 + a * 2 ^ 16 = word := Option.some.inj hw
  have f26_6 : Sys2Proof.fld word 26 6 = 43 := Sys2Proof.Laws.Field.bits26w6_of_21w3_16w5 0xac000000 d a word hw b_d b_a rfl rfl
  have f24_2 : Sys2Proof.fld word 24 2 = 0 := Sys2Proof.Laws.Field.bits24w2_of_21w3_16w5 0xac000000 d a word hw b_d b_a rfl rfl
  have f4_7 : Sys2Proof.fld word 4 7 = 0 := Sys2Proof.Laws.Field.bits4w7_of_21w3_16w5 0xac000000 d a word hw
  have f0_4 : Sys2Proof.fld word 0 4 = 0 := Sys2Proof.Laws.Field.bits0w4_of_21w3_16w5 0xac000000 d a word hw
  have f11_5 : Sys2Proof.fld word 11 5 = 0 := Sys2Proof.Laws.Field.bits11w5_of_21w3_16w5 0xac000000 d a word hw
  have f21_3 : Sys2Proof.fld word 21 3 = d := Sys2Proof.Laws.Field.bits21w3_of_21w3_16w5 0xac000000 d a word hw b_d b_a rfl rfl
  have f16_5 : Sys2Proof.fld word 16 5 = a := Sys2Proof.Laws.Field.bits16w5_of_21w3_16w5 0xac000000 d a word hw b_a rfl
  rw [major2B word f26_6]
  unfold decodeMajor2B
  rw [f24_2, f4_7, f0_4, f11_5, f21_3, f16_5]; try rfl
theorem kst (ks : Nat) (a : Nat) : Statement (.kst ks a) := by
  intro hwf word hw
  replace hwf : (ks < 8 && a < 32 : Bool) = true := hwf
  simp only [Bool.and_eq_true, decide_eq_true_eq] at hwf
  have b_ks : ks < 8 := hwf.1
  have b_a : a < 32 := hwf.2
  replace hw : 0xac000001 + ks * 2 ^ 21 + a * 2 ^ 16 = word := Option.some.inj hw
  have f26_6 : Sys2Proof.fld word 26 6 = 43 := Sys2Proof.Laws.Field.bits26w6_of_21w3_16w5 0xac000001 ks a word hw b_ks b_a rfl rfl
  have f24_2 : Sys2Proof.fld word 24 2 = 0 := Sys2Proof.Laws.Field.bits24w2_of_21w3_16w5 0xac000001 ks a word hw b_ks b_a rfl rfl
  have f4_7 : Sys2Proof.fld word 4 7 = 0 := Sys2Proof.Laws.Field.bits4w7_of_21w3_16w5 0xac000001 ks a word hw
  have f0_4 : Sys2Proof.fld word 0 4 = 1 := Sys2Proof.Laws.Field.bits0w4_of_21w3_16w5 0xac000001 ks a word hw
  have f11_5 : Sys2Proof.fld word 11 5 = 0 := Sys2Proof.Laws.Field.bits11w5_of_21w3_16w5 0xac000001 ks a word hw
  have f21_3 : Sys2Proof.fld word 21 3 = ks := Sys2Proof.Laws.Field.bits21w3_of_21w3_16w5 0xac000001 ks a word hw b_ks b_a rfl rfl
  have f16_5 : Sys2Proof.fld word 16 5 = a := Sys2Proof.Laws.Field.bits16w5_of_21w3_16w5 0xac000001 ks a word hw b_a rfl
  rw [major2B word f26_6]
  unfold decodeMajor2B
  rw [f24_2, f4_7, f0_4, f11_5, f21_3, f16_5]; try rfl
theorem vld (d : Nat) (a : Nat) (k : Nat) (eo : Bool) (so : Bool) (w : Width) (h : Hint) : Statement (.vld d a k eo so w h) := by
  intro hwf word hw
  replace hwf : (d < 32 && a < 32 && k < 8 : Bool) = true := hwf
  simp only [Bool.and_eq_true, decide_eq_true_eq] at hwf
  have b_d : d < 32 := hwf.1.1
  have b_a : a < 32 := hwf.1.2
  have b_k : k < 8 := hwf.2
  replace hw : 0xb0000000 + d * 2 ^ 21 + a * 2 ^ 16 + k * 2 ^ 8 + eo.toNat * 2 ^ 7 + so.toNat * 2 ^ 6 + w.code * 2 ^ 4 + h.code * 2 ^ 0 = word := Option.some.inj hw
  have f26_6 : Sys2Proof.fld word 26 6 = 44 := Sys2Proof.Laws.Field.bits26w6_of_21w5_16w5_8w3_7w1_6w1_4w2_0w2 0xb0000000 d a k eo.toNat so.toNat w.code h.code word hw b_d b_a b_k (flagBit_lt eo) (flagBit_lt so) (widthCode_lt w) (hintCode_lt h) rfl rfl rfl rfl rfl rfl rfl
  have f2_2 : Sys2Proof.fld word 2 2 = 0 := Sys2Proof.Laws.Field.bits2w2_of_21w5_16w5_8w3_7w1_6w1_4w2_0w2 0xb0000000 d a k eo.toNat so.toNat w.code h.code word hw (hintCode_lt h) rfl
  have f11_5 : Sys2Proof.fld word 11 5 = 0 := Sys2Proof.Laws.Field.bits11w5_of_21w5_16w5_8w3_7w1_6w1_4w2_0w2 0xb0000000 d a k eo.toNat so.toNat w.code h.code word hw b_k (flagBit_lt eo) (flagBit_lt so) (widthCode_lt w) (hintCode_lt h) rfl rfl rfl rfl rfl
  have f21_5 : Sys2Proof.fld word 21 5 = d := Sys2Proof.Laws.Field.bits21w5_of_21w5_16w5_8w3_7w1_6w1_4w2_0w2 0xb0000000 d a k eo.toNat so.toNat w.code h.code word hw b_d b_a b_k (flagBit_lt eo) (flagBit_lt so) (widthCode_lt w) (hintCode_lt h) rfl rfl rfl rfl rfl rfl rfl
  have f16_5 : Sys2Proof.fld word 16 5 = a := Sys2Proof.Laws.Field.bits16w5_of_21w5_16w5_8w3_7w1_6w1_4w2_0w2 0xb0000000 d a k eo.toNat so.toNat w.code h.code word hw b_a b_k (flagBit_lt eo) (flagBit_lt so) (widthCode_lt w) (hintCode_lt h) rfl rfl rfl rfl rfl rfl
  have f8_3 : Sys2Proof.fld word 8 3 = k := Sys2Proof.Laws.Field.bits8w3_of_21w5_16w5_8w3_7w1_6w1_4w2_0w2 0xb0000000 d a k eo.toNat so.toNat w.code h.code word hw b_k (flagBit_lt eo) (flagBit_lt so) (widthCode_lt w) (hintCode_lt h) rfl rfl rfl rfl rfl
  have f7_1 : Sys2Proof.fld word 7 1 = eo.toNat := Sys2Proof.Laws.Field.bits7w1_of_21w5_16w5_8w3_7w1_6w1_4w2_0w2 0xb0000000 d a k eo.toNat so.toNat w.code h.code word hw (flagBit_lt eo) (flagBit_lt so) (widthCode_lt w) (hintCode_lt h) rfl rfl rfl rfl
  have f6_1 : Sys2Proof.fld word 6 1 = so.toNat := Sys2Proof.Laws.Field.bits6w1_of_21w5_16w5_8w3_7w1_6w1_4w2_0w2 0xb0000000 d a k eo.toNat so.toNat w.code h.code word hw (flagBit_lt so) (widthCode_lt w) (hintCode_lt h) rfl rfl rfl
  have f4_2 : Sys2Proof.fld word 4 2 = w.code := Sys2Proof.Laws.Field.bits4w2_of_21w5_16w5_8w3_7w1_6w1_4w2_0w2 0xb0000000 d a k eo.toNat so.toNat w.code h.code word hw (widthCode_lt w) (hintCode_lt h) rfl rfl
  have f0_2 : Sys2Proof.fld word 0 2 = h.code := Sys2Proof.Laws.Field.bits0w2_of_21w5_16w5_8w3_7w1_6w1_4w2_0w2 0xb0000000 d a k eo.toNat so.toNat w.code h.code word hw (hintCode_lt h) rfl
  rw [major2C word f26_6]
  unfold decodeMajor2C
  rw [f2_2, f11_5, f21_5, f16_5, f8_3, f7_1, f6_1, f4_2, f0_2, flagBit eo, flagBit so, widthCode w, hintCode h]; try rfl
theorem vlds (d : Nat) (a : Nat) (b : Nat) (k : Nat) (eo : Bool) (so : Bool) (w : Width) (h : Hint) : Statement (.vlds d a b k eo so w h) := by
  intro hwf word hw
  replace hwf : (d < 32 && a < 32 && b < 32 && k < 8 : Bool) = true := hwf
  simp only [Bool.and_eq_true, decide_eq_true_eq] at hwf
  have b_d : d < 32 := hwf.1.1.1
  have b_a : a < 32 := hwf.1.1.2
  have b_b : b < 32 := hwf.1.2
  have b_k : k < 8 := hwf.2
  replace hw : 0xb0000004 + d * 2 ^ 21 + a * 2 ^ 16 + b * 2 ^ 11 + k * 2 ^ 8 + eo.toNat * 2 ^ 7 + so.toNat * 2 ^ 6 + w.code * 2 ^ 4 + h.code * 2 ^ 0 = word := Option.some.inj hw
  have f26_6 : Sys2Proof.fld word 26 6 = 44 := Sys2Proof.Laws.Field.bits26w6_of_21w5_16w5_11w5_8w3_7w1_6w1_4w2_0w2 0xb0000004 d a b k eo.toNat so.toNat w.code h.code word hw b_d b_a b_b b_k (flagBit_lt eo) (flagBit_lt so) (widthCode_lt w) (hintCode_lt h) rfl rfl rfl rfl rfl rfl rfl rfl
  have f2_2 : Sys2Proof.fld word 2 2 = 1 := Sys2Proof.Laws.Field.bits2w2_of_21w5_16w5_11w5_8w3_7w1_6w1_4w2_0w2 0xb0000004 d a b k eo.toNat so.toNat w.code h.code word hw (hintCode_lt h) rfl
  have f21_5 : Sys2Proof.fld word 21 5 = d := Sys2Proof.Laws.Field.bits21w5_of_21w5_16w5_11w5_8w3_7w1_6w1_4w2_0w2 0xb0000004 d a b k eo.toNat so.toNat w.code h.code word hw b_d b_a b_b b_k (flagBit_lt eo) (flagBit_lt so) (widthCode_lt w) (hintCode_lt h) rfl rfl rfl rfl rfl rfl rfl rfl
  have f16_5 : Sys2Proof.fld word 16 5 = a := Sys2Proof.Laws.Field.bits16w5_of_21w5_16w5_11w5_8w3_7w1_6w1_4w2_0w2 0xb0000004 d a b k eo.toNat so.toNat w.code h.code word hw b_a b_b b_k (flagBit_lt eo) (flagBit_lt so) (widthCode_lt w) (hintCode_lt h) rfl rfl rfl rfl rfl rfl rfl
  have f11_5 : Sys2Proof.fld word 11 5 = b := Sys2Proof.Laws.Field.bits11w5_of_21w5_16w5_11w5_8w3_7w1_6w1_4w2_0w2 0xb0000004 d a b k eo.toNat so.toNat w.code h.code word hw b_b b_k (flagBit_lt eo) (flagBit_lt so) (widthCode_lt w) (hintCode_lt h) rfl rfl rfl rfl rfl rfl
  have f8_3 : Sys2Proof.fld word 8 3 = k := Sys2Proof.Laws.Field.bits8w3_of_21w5_16w5_11w5_8w3_7w1_6w1_4w2_0w2 0xb0000004 d a b k eo.toNat so.toNat w.code h.code word hw b_k (flagBit_lt eo) (flagBit_lt so) (widthCode_lt w) (hintCode_lt h) rfl rfl rfl rfl rfl
  have f7_1 : Sys2Proof.fld word 7 1 = eo.toNat := Sys2Proof.Laws.Field.bits7w1_of_21w5_16w5_11w5_8w3_7w1_6w1_4w2_0w2 0xb0000004 d a b k eo.toNat so.toNat w.code h.code word hw (flagBit_lt eo) (flagBit_lt so) (widthCode_lt w) (hintCode_lt h) rfl rfl rfl rfl
  have f6_1 : Sys2Proof.fld word 6 1 = so.toNat := Sys2Proof.Laws.Field.bits6w1_of_21w5_16w5_11w5_8w3_7w1_6w1_4w2_0w2 0xb0000004 d a b k eo.toNat so.toNat w.code h.code word hw (flagBit_lt so) (widthCode_lt w) (hintCode_lt h) rfl rfl rfl
  have f4_2 : Sys2Proof.fld word 4 2 = w.code := Sys2Proof.Laws.Field.bits4w2_of_21w5_16w5_11w5_8w3_7w1_6w1_4w2_0w2 0xb0000004 d a b k eo.toNat so.toNat w.code h.code word hw (widthCode_lt w) (hintCode_lt h) rfl rfl
  have f0_2 : Sys2Proof.fld word 0 2 = h.code := Sys2Proof.Laws.Field.bits0w2_of_21w5_16w5_11w5_8w3_7w1_6w1_4w2_0w2 0xb0000004 d a b k eo.toNat so.toNat w.code h.code word hw (hintCode_lt h) rfl
  rw [major2C word f26_6]
  unfold decodeMajor2C
  rw [f2_2, f21_5, f16_5, f11_5, f8_3, f7_1, f6_1, f4_2, f0_2, flagBit eo, flagBit so, widthCode w, hintCode h]; try rfl
theorem vldx (d : Nat) (a : Nat) (b : Nat) (k : Nat) (eo : Bool) (so : Bool) (w : Width) (h : Hint) : Statement (.vldx d a b k eo so w h) := by
  intro hwf word hw
  replace hwf : (d < 32 && a < 32 && b < 32 && k < 8 : Bool) = true := hwf
  simp only [Bool.and_eq_true, decide_eq_true_eq] at hwf
  have b_d : d < 32 := hwf.1.1.1
  have b_a : a < 32 := hwf.1.1.2
  have b_b : b < 32 := hwf.1.2
  have b_k : k < 8 := hwf.2
  replace hw : 0xb0000008 + d * 2 ^ 21 + a * 2 ^ 16 + b * 2 ^ 11 + k * 2 ^ 8 + eo.toNat * 2 ^ 7 + so.toNat * 2 ^ 6 + w.code * 2 ^ 4 + h.code * 2 ^ 0 = word := Option.some.inj hw
  have f26_6 : Sys2Proof.fld word 26 6 = 44 := Sys2Proof.Laws.Field.bits26w6_of_21w5_16w5_11w5_8w3_7w1_6w1_4w2_0w2 0xb0000008 d a b k eo.toNat so.toNat w.code h.code word hw b_d b_a b_b b_k (flagBit_lt eo) (flagBit_lt so) (widthCode_lt w) (hintCode_lt h) rfl rfl rfl rfl rfl rfl rfl rfl
  have f2_2 : Sys2Proof.fld word 2 2 = 2 := Sys2Proof.Laws.Field.bits2w2_of_21w5_16w5_11w5_8w3_7w1_6w1_4w2_0w2 0xb0000008 d a b k eo.toNat so.toNat w.code h.code word hw (hintCode_lt h) rfl
  have f21_5 : Sys2Proof.fld word 21 5 = d := Sys2Proof.Laws.Field.bits21w5_of_21w5_16w5_11w5_8w3_7w1_6w1_4w2_0w2 0xb0000008 d a b k eo.toNat so.toNat w.code h.code word hw b_d b_a b_b b_k (flagBit_lt eo) (flagBit_lt so) (widthCode_lt w) (hintCode_lt h) rfl rfl rfl rfl rfl rfl rfl rfl
  have f16_5 : Sys2Proof.fld word 16 5 = a := Sys2Proof.Laws.Field.bits16w5_of_21w5_16w5_11w5_8w3_7w1_6w1_4w2_0w2 0xb0000008 d a b k eo.toNat so.toNat w.code h.code word hw b_a b_b b_k (flagBit_lt eo) (flagBit_lt so) (widthCode_lt w) (hintCode_lt h) rfl rfl rfl rfl rfl rfl rfl
  have f11_5 : Sys2Proof.fld word 11 5 = b := Sys2Proof.Laws.Field.bits11w5_of_21w5_16w5_11w5_8w3_7w1_6w1_4w2_0w2 0xb0000008 d a b k eo.toNat so.toNat w.code h.code word hw b_b b_k (flagBit_lt eo) (flagBit_lt so) (widthCode_lt w) (hintCode_lt h) rfl rfl rfl rfl rfl rfl
  have f8_3 : Sys2Proof.fld word 8 3 = k := Sys2Proof.Laws.Field.bits8w3_of_21w5_16w5_11w5_8w3_7w1_6w1_4w2_0w2 0xb0000008 d a b k eo.toNat so.toNat w.code h.code word hw b_k (flagBit_lt eo) (flagBit_lt so) (widthCode_lt w) (hintCode_lt h) rfl rfl rfl rfl rfl
  have f7_1 : Sys2Proof.fld word 7 1 = eo.toNat := Sys2Proof.Laws.Field.bits7w1_of_21w5_16w5_11w5_8w3_7w1_6w1_4w2_0w2 0xb0000008 d a b k eo.toNat so.toNat w.code h.code word hw (flagBit_lt eo) (flagBit_lt so) (widthCode_lt w) (hintCode_lt h) rfl rfl rfl rfl
  have f6_1 : Sys2Proof.fld word 6 1 = so.toNat := Sys2Proof.Laws.Field.bits6w1_of_21w5_16w5_11w5_8w3_7w1_6w1_4w2_0w2 0xb0000008 d a b k eo.toNat so.toNat w.code h.code word hw (flagBit_lt so) (widthCode_lt w) (hintCode_lt h) rfl rfl rfl
  have f4_2 : Sys2Proof.fld word 4 2 = w.code := Sys2Proof.Laws.Field.bits4w2_of_21w5_16w5_11w5_8w3_7w1_6w1_4w2_0w2 0xb0000008 d a b k eo.toNat so.toNat w.code h.code word hw (widthCode_lt w) (hintCode_lt h) rfl rfl
  have f0_2 : Sys2Proof.fld word 0 2 = h.code := Sys2Proof.Laws.Field.bits0w2_of_21w5_16w5_11w5_8w3_7w1_6w1_4w2_0w2 0xb0000008 d a b k eo.toNat so.toNat w.code h.code word hw (hintCode_lt h) rfl
  rw [major2C word f26_6]
  unfold decodeMajor2C
  rw [f2_2, f21_5, f16_5, f11_5, f8_3, f7_1, f6_1, f4_2, f0_2, flagBit eo, flagBit so, widthCode w, hintCode h]; try rfl
theorem vldff (d : Nat) (a : Nat) (k : Nat) (eo : Bool) (so : Bool) (w : Width) (h : Hint) : Statement (.vldff d a k eo so w h) := by
  intro hwf word hw
  replace hwf : (d < 32 && a < 32 && k < 8 : Bool) = true := hwf
  simp only [Bool.and_eq_true, decide_eq_true_eq] at hwf
  have b_d : d < 32 := hwf.1.1
  have b_a : a < 32 := hwf.1.2
  have b_k : k < 8 := hwf.2
  replace hw : 0xb000000c + d * 2 ^ 21 + a * 2 ^ 16 + k * 2 ^ 8 + eo.toNat * 2 ^ 7 + so.toNat * 2 ^ 6 + w.code * 2 ^ 4 + h.code * 2 ^ 0 = word := Option.some.inj hw
  have f26_6 : Sys2Proof.fld word 26 6 = 44 := Sys2Proof.Laws.Field.bits26w6_of_21w5_16w5_8w3_7w1_6w1_4w2_0w2 0xb000000c d a k eo.toNat so.toNat w.code h.code word hw b_d b_a b_k (flagBit_lt eo) (flagBit_lt so) (widthCode_lt w) (hintCode_lt h) rfl rfl rfl rfl rfl rfl rfl
  have f2_2 : Sys2Proof.fld word 2 2 = 3 := Sys2Proof.Laws.Field.bits2w2_of_21w5_16w5_8w3_7w1_6w1_4w2_0w2 0xb000000c d a k eo.toNat so.toNat w.code h.code word hw (hintCode_lt h) rfl
  have f11_5 : Sys2Proof.fld word 11 5 = 0 := Sys2Proof.Laws.Field.bits11w5_of_21w5_16w5_8w3_7w1_6w1_4w2_0w2 0xb000000c d a k eo.toNat so.toNat w.code h.code word hw b_k (flagBit_lt eo) (flagBit_lt so) (widthCode_lt w) (hintCode_lt h) rfl rfl rfl rfl rfl
  have f21_5 : Sys2Proof.fld word 21 5 = d := Sys2Proof.Laws.Field.bits21w5_of_21w5_16w5_8w3_7w1_6w1_4w2_0w2 0xb000000c d a k eo.toNat so.toNat w.code h.code word hw b_d b_a b_k (flagBit_lt eo) (flagBit_lt so) (widthCode_lt w) (hintCode_lt h) rfl rfl rfl rfl rfl rfl rfl
  have f16_5 : Sys2Proof.fld word 16 5 = a := Sys2Proof.Laws.Field.bits16w5_of_21w5_16w5_8w3_7w1_6w1_4w2_0w2 0xb000000c d a k eo.toNat so.toNat w.code h.code word hw b_a b_k (flagBit_lt eo) (flagBit_lt so) (widthCode_lt w) (hintCode_lt h) rfl rfl rfl rfl rfl rfl
  have f8_3 : Sys2Proof.fld word 8 3 = k := Sys2Proof.Laws.Field.bits8w3_of_21w5_16w5_8w3_7w1_6w1_4w2_0w2 0xb000000c d a k eo.toNat so.toNat w.code h.code word hw b_k (flagBit_lt eo) (flagBit_lt so) (widthCode_lt w) (hintCode_lt h) rfl rfl rfl rfl rfl
  have f7_1 : Sys2Proof.fld word 7 1 = eo.toNat := Sys2Proof.Laws.Field.bits7w1_of_21w5_16w5_8w3_7w1_6w1_4w2_0w2 0xb000000c d a k eo.toNat so.toNat w.code h.code word hw (flagBit_lt eo) (flagBit_lt so) (widthCode_lt w) (hintCode_lt h) rfl rfl rfl rfl
  have f6_1 : Sys2Proof.fld word 6 1 = so.toNat := Sys2Proof.Laws.Field.bits6w1_of_21w5_16w5_8w3_7w1_6w1_4w2_0w2 0xb000000c d a k eo.toNat so.toNat w.code h.code word hw (flagBit_lt so) (widthCode_lt w) (hintCode_lt h) rfl rfl rfl
  have f4_2 : Sys2Proof.fld word 4 2 = w.code := Sys2Proof.Laws.Field.bits4w2_of_21w5_16w5_8w3_7w1_6w1_4w2_0w2 0xb000000c d a k eo.toNat so.toNat w.code h.code word hw (widthCode_lt w) (hintCode_lt h) rfl rfl
  have f0_2 : Sys2Proof.fld word 0 2 = h.code := Sys2Proof.Laws.Field.bits0w2_of_21w5_16w5_8w3_7w1_6w1_4w2_0w2 0xb000000c d a k eo.toNat so.toNat w.code h.code word hw (hintCode_lt h) rfl
  rw [major2C word f26_6]
  unfold decodeMajor2C
  rw [f2_2, f11_5, f21_5, f16_5, f8_3, f7_1, f6_1, f4_2, f0_2, flagBit eo, flagBit so, widthCode w, hintCode h]; try rfl
theorem vst (vs : Nat) (a : Nat) (k : Nat) (eo : Bool) (so : Bool) (w : Width) (h : Hint) : Statement (.vst vs a k eo so w h) := by
  intro hwf word hw
  replace hwf : (vs < 32 && a < 32 && k < 8 : Bool) = true := hwf
  simp only [Bool.and_eq_true, decide_eq_true_eq] at hwf
  have b_vs : vs < 32 := hwf.1.1
  have b_a : a < 32 := hwf.1.2
  have b_k : k < 8 := hwf.2
  replace hw : 0xb4000000 + vs * 2 ^ 21 + a * 2 ^ 16 + k * 2 ^ 8 + eo.toNat * 2 ^ 7 + so.toNat * 2 ^ 6 + w.code * 2 ^ 4 + h.code * 2 ^ 0 = word := Option.some.inj hw
  have f26_6 : Sys2Proof.fld word 26 6 = 45 := Sys2Proof.Laws.Field.bits26w6_of_21w5_16w5_8w3_7w1_6w1_4w2_0w2 0xb4000000 vs a k eo.toNat so.toNat w.code h.code word hw b_vs b_a b_k (flagBit_lt eo) (flagBit_lt so) (widthCode_lt w) (hintCode_lt h) rfl rfl rfl rfl rfl rfl rfl
  have f2_2 : Sys2Proof.fld word 2 2 = 0 := Sys2Proof.Laws.Field.bits2w2_of_21w5_16w5_8w3_7w1_6w1_4w2_0w2 0xb4000000 vs a k eo.toNat so.toNat w.code h.code word hw (hintCode_lt h) rfl
  have f11_5 : Sys2Proof.fld word 11 5 = 0 := Sys2Proof.Laws.Field.bits11w5_of_21w5_16w5_8w3_7w1_6w1_4w2_0w2 0xb4000000 vs a k eo.toNat so.toNat w.code h.code word hw b_k (flagBit_lt eo) (flagBit_lt so) (widthCode_lt w) (hintCode_lt h) rfl rfl rfl rfl rfl
  have f21_5 : Sys2Proof.fld word 21 5 = vs := Sys2Proof.Laws.Field.bits21w5_of_21w5_16w5_8w3_7w1_6w1_4w2_0w2 0xb4000000 vs a k eo.toNat so.toNat w.code h.code word hw b_vs b_a b_k (flagBit_lt eo) (flagBit_lt so) (widthCode_lt w) (hintCode_lt h) rfl rfl rfl rfl rfl rfl rfl
  have f16_5 : Sys2Proof.fld word 16 5 = a := Sys2Proof.Laws.Field.bits16w5_of_21w5_16w5_8w3_7w1_6w1_4w2_0w2 0xb4000000 vs a k eo.toNat so.toNat w.code h.code word hw b_a b_k (flagBit_lt eo) (flagBit_lt so) (widthCode_lt w) (hintCode_lt h) rfl rfl rfl rfl rfl rfl
  have f8_3 : Sys2Proof.fld word 8 3 = k := Sys2Proof.Laws.Field.bits8w3_of_21w5_16w5_8w3_7w1_6w1_4w2_0w2 0xb4000000 vs a k eo.toNat so.toNat w.code h.code word hw b_k (flagBit_lt eo) (flagBit_lt so) (widthCode_lt w) (hintCode_lt h) rfl rfl rfl rfl rfl
  have f7_1 : Sys2Proof.fld word 7 1 = eo.toNat := Sys2Proof.Laws.Field.bits7w1_of_21w5_16w5_8w3_7w1_6w1_4w2_0w2 0xb4000000 vs a k eo.toNat so.toNat w.code h.code word hw (flagBit_lt eo) (flagBit_lt so) (widthCode_lt w) (hintCode_lt h) rfl rfl rfl rfl
  have f6_1 : Sys2Proof.fld word 6 1 = so.toNat := Sys2Proof.Laws.Field.bits6w1_of_21w5_16w5_8w3_7w1_6w1_4w2_0w2 0xb4000000 vs a k eo.toNat so.toNat w.code h.code word hw (flagBit_lt so) (widthCode_lt w) (hintCode_lt h) rfl rfl rfl
  have f4_2 : Sys2Proof.fld word 4 2 = w.code := Sys2Proof.Laws.Field.bits4w2_of_21w5_16w5_8w3_7w1_6w1_4w2_0w2 0xb4000000 vs a k eo.toNat so.toNat w.code h.code word hw (widthCode_lt w) (hintCode_lt h) rfl rfl
  have f0_2 : Sys2Proof.fld word 0 2 = h.code := Sys2Proof.Laws.Field.bits0w2_of_21w5_16w5_8w3_7w1_6w1_4w2_0w2 0xb4000000 vs a k eo.toNat so.toNat w.code h.code word hw (hintCode_lt h) rfl
  rw [major2D word f26_6]
  unfold decodeMajor2D
  rw [f2_2, f11_5, f21_5, f16_5, f8_3, f7_1, f6_1, f4_2, f0_2, flagBit eo, flagBit so, widthCode w, hintCode h]; try rfl
theorem vsts (vs : Nat) (a : Nat) (b : Nat) (k : Nat) (eo : Bool) (so : Bool) (w : Width) (h : Hint) : Statement (.vsts vs a b k eo so w h) := by
  intro hwf word hw
  replace hwf : (vs < 32 && a < 32 && b < 32 && k < 8 : Bool) = true := hwf
  simp only [Bool.and_eq_true, decide_eq_true_eq] at hwf
  have b_vs : vs < 32 := hwf.1.1.1
  have b_a : a < 32 := hwf.1.1.2
  have b_b : b < 32 := hwf.1.2
  have b_k : k < 8 := hwf.2
  replace hw : 0xb4000004 + vs * 2 ^ 21 + a * 2 ^ 16 + b * 2 ^ 11 + k * 2 ^ 8 + eo.toNat * 2 ^ 7 + so.toNat * 2 ^ 6 + w.code * 2 ^ 4 + h.code * 2 ^ 0 = word := Option.some.inj hw
  have f26_6 : Sys2Proof.fld word 26 6 = 45 := Sys2Proof.Laws.Field.bits26w6_of_21w5_16w5_11w5_8w3_7w1_6w1_4w2_0w2 0xb4000004 vs a b k eo.toNat so.toNat w.code h.code word hw b_vs b_a b_b b_k (flagBit_lt eo) (flagBit_lt so) (widthCode_lt w) (hintCode_lt h) rfl rfl rfl rfl rfl rfl rfl rfl
  have f2_2 : Sys2Proof.fld word 2 2 = 1 := Sys2Proof.Laws.Field.bits2w2_of_21w5_16w5_11w5_8w3_7w1_6w1_4w2_0w2 0xb4000004 vs a b k eo.toNat so.toNat w.code h.code word hw (hintCode_lt h) rfl
  have f21_5 : Sys2Proof.fld word 21 5 = vs := Sys2Proof.Laws.Field.bits21w5_of_21w5_16w5_11w5_8w3_7w1_6w1_4w2_0w2 0xb4000004 vs a b k eo.toNat so.toNat w.code h.code word hw b_vs b_a b_b b_k (flagBit_lt eo) (flagBit_lt so) (widthCode_lt w) (hintCode_lt h) rfl rfl rfl rfl rfl rfl rfl rfl
  have f16_5 : Sys2Proof.fld word 16 5 = a := Sys2Proof.Laws.Field.bits16w5_of_21w5_16w5_11w5_8w3_7w1_6w1_4w2_0w2 0xb4000004 vs a b k eo.toNat so.toNat w.code h.code word hw b_a b_b b_k (flagBit_lt eo) (flagBit_lt so) (widthCode_lt w) (hintCode_lt h) rfl rfl rfl rfl rfl rfl rfl
  have f11_5 : Sys2Proof.fld word 11 5 = b := Sys2Proof.Laws.Field.bits11w5_of_21w5_16w5_11w5_8w3_7w1_6w1_4w2_0w2 0xb4000004 vs a b k eo.toNat so.toNat w.code h.code word hw b_b b_k (flagBit_lt eo) (flagBit_lt so) (widthCode_lt w) (hintCode_lt h) rfl rfl rfl rfl rfl rfl
  have f8_3 : Sys2Proof.fld word 8 3 = k := Sys2Proof.Laws.Field.bits8w3_of_21w5_16w5_11w5_8w3_7w1_6w1_4w2_0w2 0xb4000004 vs a b k eo.toNat so.toNat w.code h.code word hw b_k (flagBit_lt eo) (flagBit_lt so) (widthCode_lt w) (hintCode_lt h) rfl rfl rfl rfl rfl
  have f7_1 : Sys2Proof.fld word 7 1 = eo.toNat := Sys2Proof.Laws.Field.bits7w1_of_21w5_16w5_11w5_8w3_7w1_6w1_4w2_0w2 0xb4000004 vs a b k eo.toNat so.toNat w.code h.code word hw (flagBit_lt eo) (flagBit_lt so) (widthCode_lt w) (hintCode_lt h) rfl rfl rfl rfl
  have f6_1 : Sys2Proof.fld word 6 1 = so.toNat := Sys2Proof.Laws.Field.bits6w1_of_21w5_16w5_11w5_8w3_7w1_6w1_4w2_0w2 0xb4000004 vs a b k eo.toNat so.toNat w.code h.code word hw (flagBit_lt so) (widthCode_lt w) (hintCode_lt h) rfl rfl rfl
  have f4_2 : Sys2Proof.fld word 4 2 = w.code := Sys2Proof.Laws.Field.bits4w2_of_21w5_16w5_11w5_8w3_7w1_6w1_4w2_0w2 0xb4000004 vs a b k eo.toNat so.toNat w.code h.code word hw (widthCode_lt w) (hintCode_lt h) rfl rfl
  have f0_2 : Sys2Proof.fld word 0 2 = h.code := Sys2Proof.Laws.Field.bits0w2_of_21w5_16w5_11w5_8w3_7w1_6w1_4w2_0w2 0xb4000004 vs a b k eo.toNat so.toNat w.code h.code word hw (hintCode_lt h) rfl
  rw [major2D word f26_6]
  unfold decodeMajor2D
  rw [f2_2, f21_5, f16_5, f11_5, f8_3, f7_1, f6_1, f4_2, f0_2, flagBit eo, flagBit so, widthCode w, hintCode h]; try rfl
theorem vstx (vs : Nat) (a : Nat) (b : Nat) (k : Nat) (eo : Bool) (so : Bool) (w : Width) (h : Hint) : Statement (.vstx vs a b k eo so w h) := by
  intro hwf word hw
  replace hwf : (vs < 32 && a < 32 && b < 32 && k < 8 : Bool) = true := hwf
  simp only [Bool.and_eq_true, decide_eq_true_eq] at hwf
  have b_vs : vs < 32 := hwf.1.1.1
  have b_a : a < 32 := hwf.1.1.2
  have b_b : b < 32 := hwf.1.2
  have b_k : k < 8 := hwf.2
  replace hw : 0xb4000008 + vs * 2 ^ 21 + a * 2 ^ 16 + b * 2 ^ 11 + k * 2 ^ 8 + eo.toNat * 2 ^ 7 + so.toNat * 2 ^ 6 + w.code * 2 ^ 4 + h.code * 2 ^ 0 = word := Option.some.inj hw
  have f26_6 : Sys2Proof.fld word 26 6 = 45 := Sys2Proof.Laws.Field.bits26w6_of_21w5_16w5_11w5_8w3_7w1_6w1_4w2_0w2 0xb4000008 vs a b k eo.toNat so.toNat w.code h.code word hw b_vs b_a b_b b_k (flagBit_lt eo) (flagBit_lt so) (widthCode_lt w) (hintCode_lt h) rfl rfl rfl rfl rfl rfl rfl rfl
  have f2_2 : Sys2Proof.fld word 2 2 = 2 := Sys2Proof.Laws.Field.bits2w2_of_21w5_16w5_11w5_8w3_7w1_6w1_4w2_0w2 0xb4000008 vs a b k eo.toNat so.toNat w.code h.code word hw (hintCode_lt h) rfl
  have f21_5 : Sys2Proof.fld word 21 5 = vs := Sys2Proof.Laws.Field.bits21w5_of_21w5_16w5_11w5_8w3_7w1_6w1_4w2_0w2 0xb4000008 vs a b k eo.toNat so.toNat w.code h.code word hw b_vs b_a b_b b_k (flagBit_lt eo) (flagBit_lt so) (widthCode_lt w) (hintCode_lt h) rfl rfl rfl rfl rfl rfl rfl rfl
  have f16_5 : Sys2Proof.fld word 16 5 = a := Sys2Proof.Laws.Field.bits16w5_of_21w5_16w5_11w5_8w3_7w1_6w1_4w2_0w2 0xb4000008 vs a b k eo.toNat so.toNat w.code h.code word hw b_a b_b b_k (flagBit_lt eo) (flagBit_lt so) (widthCode_lt w) (hintCode_lt h) rfl rfl rfl rfl rfl rfl rfl
  have f11_5 : Sys2Proof.fld word 11 5 = b := Sys2Proof.Laws.Field.bits11w5_of_21w5_16w5_11w5_8w3_7w1_6w1_4w2_0w2 0xb4000008 vs a b k eo.toNat so.toNat w.code h.code word hw b_b b_k (flagBit_lt eo) (flagBit_lt so) (widthCode_lt w) (hintCode_lt h) rfl rfl rfl rfl rfl rfl
  have f8_3 : Sys2Proof.fld word 8 3 = k := Sys2Proof.Laws.Field.bits8w3_of_21w5_16w5_11w5_8w3_7w1_6w1_4w2_0w2 0xb4000008 vs a b k eo.toNat so.toNat w.code h.code word hw b_k (flagBit_lt eo) (flagBit_lt so) (widthCode_lt w) (hintCode_lt h) rfl rfl rfl rfl rfl
  have f7_1 : Sys2Proof.fld word 7 1 = eo.toNat := Sys2Proof.Laws.Field.bits7w1_of_21w5_16w5_11w5_8w3_7w1_6w1_4w2_0w2 0xb4000008 vs a b k eo.toNat so.toNat w.code h.code word hw (flagBit_lt eo) (flagBit_lt so) (widthCode_lt w) (hintCode_lt h) rfl rfl rfl rfl
  have f6_1 : Sys2Proof.fld word 6 1 = so.toNat := Sys2Proof.Laws.Field.bits6w1_of_21w5_16w5_11w5_8w3_7w1_6w1_4w2_0w2 0xb4000008 vs a b k eo.toNat so.toNat w.code h.code word hw (flagBit_lt so) (widthCode_lt w) (hintCode_lt h) rfl rfl rfl
  have f4_2 : Sys2Proof.fld word 4 2 = w.code := Sys2Proof.Laws.Field.bits4w2_of_21w5_16w5_11w5_8w3_7w1_6w1_4w2_0w2 0xb4000008 vs a b k eo.toNat so.toNat w.code h.code word hw (widthCode_lt w) (hintCode_lt h) rfl rfl
  have f0_2 : Sys2Proof.fld word 0 2 = h.code := Sys2Proof.Laws.Field.bits0w2_of_21w5_16w5_11w5_8w3_7w1_6w1_4w2_0w2 0xb4000008 vs a b k eo.toNat so.toNat w.code h.code word hw (hintCode_lt h) rfl
  rw [major2D word f26_6]
  unfold decodeMajor2D
  rw [f2_2, f21_5, f16_5, f11_5, f8_3, f7_1, f6_1, f4_2, f0_2, flagBit eo, flagBit so, widthCode w, hintCode h]; try rfl
theorem vstxadd (vs : Nat) (a : Nat) (b : Nat) (k : Nat) (w : Width) (f : Bool) : Statement (.vstxadd vs a b k w f) := by
  intro hwf word hw
  replace hwf : (vs < 32 && a < 32 && b < 32 && k < 8 : Bool) = true := hwf
  simp only [Bool.and_eq_true, decide_eq_true_eq] at hwf
  have b_vs : vs < 32 := hwf.1.1.1
  have b_a : a < 32 := hwf.1.1.2
  have b_b : b < 32 := hwf.1.2
  have b_k : k < 8 := hwf.2
  replace hw : 0xb400000c + vs * 2 ^ 21 + a * 2 ^ 16 + b * 2 ^ 11 + k * 2 ^ 8 + w.code * 2 ^ 4 + f.toNat * 2 ^ 0 = word := Option.some.inj hw
  have f26_6 : Sys2Proof.fld word 26 6 = 45 := Sys2Proof.Laws.Field.bits26w6_of_21w5_16w5_11w5_8w3_4w2_0w1 0xb400000c vs a b k w.code f.toNat word hw b_vs b_a b_b b_k (widthCode_lt w) (flagBit_lt f) rfl rfl rfl rfl rfl rfl
  have f2_2 : Sys2Proof.fld word 2 2 = 3 := Sys2Proof.Laws.Field.bits2w2_of_21w5_16w5_11w5_8w3_4w2_0w1 0xb400000c vs a b k w.code f.toNat word hw (flagBit_lt f) rfl
  have f6_2 : Sys2Proof.fld word 6 2 = 0 := Sys2Proof.Laws.Field.bits6w2_of_21w5_16w5_11w5_8w3_4w2_0w1 0xb400000c vs a b k w.code f.toNat word hw (widthCode_lt w) (flagBit_lt f) rfl rfl
  have f1_1 : Sys2Proof.fld word 1 1 = 0 := Sys2Proof.Laws.Field.bits1w1_of_21w5_16w5_11w5_8w3_4w2_0w1 0xb400000c vs a b k w.code f.toNat word hw (flagBit_lt f) rfl
  have f21_5 : Sys2Proof.fld word 21 5 = vs := Sys2Proof.Laws.Field.bits21w5_of_21w5_16w5_11w5_8w3_4w2_0w1 0xb400000c vs a b k w.code f.toNat word hw b_vs b_a b_b b_k (widthCode_lt w) (flagBit_lt f) rfl rfl rfl rfl rfl rfl
  have f16_5 : Sys2Proof.fld word 16 5 = a := Sys2Proof.Laws.Field.bits16w5_of_21w5_16w5_11w5_8w3_4w2_0w1 0xb400000c vs a b k w.code f.toNat word hw b_a b_b b_k (widthCode_lt w) (flagBit_lt f) rfl rfl rfl rfl rfl
  have f11_5 : Sys2Proof.fld word 11 5 = b := Sys2Proof.Laws.Field.bits11w5_of_21w5_16w5_11w5_8w3_4w2_0w1 0xb400000c vs a b k w.code f.toNat word hw b_b b_k (widthCode_lt w) (flagBit_lt f) rfl rfl rfl rfl
  have f8_3 : Sys2Proof.fld word 8 3 = k := Sys2Proof.Laws.Field.bits8w3_of_21w5_16w5_11w5_8w3_4w2_0w1 0xb400000c vs a b k w.code f.toNat word hw b_k (widthCode_lt w) (flagBit_lt f) rfl rfl rfl
  have f4_2 : Sys2Proof.fld word 4 2 = w.code := Sys2Proof.Laws.Field.bits4w2_of_21w5_16w5_11w5_8w3_4w2_0w1 0xb400000c vs a b k w.code f.toNat word hw (widthCode_lt w) (flagBit_lt f) rfl rfl
  have f0_1 : Sys2Proof.fld word 0 1 = f.toNat := Sys2Proof.Laws.Field.bits0w1_of_21w5_16w5_11w5_8w3_4w2_0w1 0xb400000c vs a b k w.code f.toNat word hw (flagBit_lt f) rfl
  rw [major2D word f26_6]
  unfold decodeMajor2D
  rw [f2_2, f6_2, f1_1, f21_5, f16_5, f11_5, f8_3, f4_2, f0_1, widthCode w, flagBit f]; try rfl
theorem vldseg (d : Nat) (a : Nat) (k : Nat) (f : Bool) (so : Bool) (w : Width) (h : Hint) : Statement (.vldseg d a k f so w h) := by
  intro hwf word hw
  replace hwf : (d < 32 && a < 32 && k < 8 : Bool) = true := hwf
  simp only [Bool.and_eq_true, decide_eq_true_eq] at hwf
  have b_d : d < 32 := hwf.1.1
  have b_a : a < 32 := hwf.1.2
  have b_k : k < 8 := hwf.2
  replace hw : 0xb8000000 + d * 2 ^ 21 + a * 2 ^ 16 + k * 2 ^ 8 + f.toNat * 2 ^ 7 + so.toNat * 2 ^ 6 + w.code * 2 ^ 4 + h.code * 2 ^ 0 = word := Option.some.inj hw
  have f26_6 : Sys2Proof.fld word 26 6 = 46 := Sys2Proof.Laws.Field.bits26w6_of_21w5_16w5_8w3_7w1_6w1_4w2_0w2 0xb8000000 d a k f.toNat so.toNat w.code h.code word hw b_d b_a b_k (flagBit_lt f) (flagBit_lt so) (widthCode_lt w) (hintCode_lt h) rfl rfl rfl rfl rfl rfl rfl
  have f2_2 : Sys2Proof.fld word 2 2 = 0 := Sys2Proof.Laws.Field.bits2w2_of_21w5_16w5_8w3_7w1_6w1_4w2_0w2 0xb8000000 d a k f.toNat so.toNat w.code h.code word hw (hintCode_lt h) rfl
  have f11_5 : Sys2Proof.fld word 11 5 = 0 := Sys2Proof.Laws.Field.bits11w5_of_21w5_16w5_8w3_7w1_6w1_4w2_0w2 0xb8000000 d a k f.toNat so.toNat w.code h.code word hw b_k (flagBit_lt f) (flagBit_lt so) (widthCode_lt w) (hintCode_lt h) rfl rfl rfl rfl rfl
  have f21_5 : Sys2Proof.fld word 21 5 = d := Sys2Proof.Laws.Field.bits21w5_of_21w5_16w5_8w3_7w1_6w1_4w2_0w2 0xb8000000 d a k f.toNat so.toNat w.code h.code word hw b_d b_a b_k (flagBit_lt f) (flagBit_lt so) (widthCode_lt w) (hintCode_lt h) rfl rfl rfl rfl rfl rfl rfl
  have f16_5 : Sys2Proof.fld word 16 5 = a := Sys2Proof.Laws.Field.bits16w5_of_21w5_16w5_8w3_7w1_6w1_4w2_0w2 0xb8000000 d a k f.toNat so.toNat w.code h.code word hw b_a b_k (flagBit_lt f) (flagBit_lt so) (widthCode_lt w) (hintCode_lt h) rfl rfl rfl rfl rfl rfl
  have f8_3 : Sys2Proof.fld word 8 3 = k := Sys2Proof.Laws.Field.bits8w3_of_21w5_16w5_8w3_7w1_6w1_4w2_0w2 0xb8000000 d a k f.toNat so.toNat w.code h.code word hw b_k (flagBit_lt f) (flagBit_lt so) (widthCode_lt w) (hintCode_lt h) rfl rfl rfl rfl rfl
  have f7_1 : Sys2Proof.fld word 7 1 = f.toNat := Sys2Proof.Laws.Field.bits7w1_of_21w5_16w5_8w3_7w1_6w1_4w2_0w2 0xb8000000 d a k f.toNat so.toNat w.code h.code word hw (flagBit_lt f) (flagBit_lt so) (widthCode_lt w) (hintCode_lt h) rfl rfl rfl rfl
  have f6_1 : Sys2Proof.fld word 6 1 = so.toNat := Sys2Proof.Laws.Field.bits6w1_of_21w5_16w5_8w3_7w1_6w1_4w2_0w2 0xb8000000 d a k f.toNat so.toNat w.code h.code word hw (flagBit_lt so) (widthCode_lt w) (hintCode_lt h) rfl rfl rfl
  have f4_2 : Sys2Proof.fld word 4 2 = w.code := Sys2Proof.Laws.Field.bits4w2_of_21w5_16w5_8w3_7w1_6w1_4w2_0w2 0xb8000000 d a k f.toNat so.toNat w.code h.code word hw (widthCode_lt w) (hintCode_lt h) rfl rfl
  have f0_2 : Sys2Proof.fld word 0 2 = h.code := Sys2Proof.Laws.Field.bits0w2_of_21w5_16w5_8w3_7w1_6w1_4w2_0w2 0xb8000000 d a k f.toNat so.toNat w.code h.code word hw (hintCode_lt h) rfl
  rw [major2E word f26_6]
  unfold decodeMajor2E
  rw [f2_2, f11_5, f21_5, f16_5, f8_3, f7_1, f6_1, f4_2, f0_2, flagBit f, flagBit so, widthCode w, hintCode h]; try rfl
theorem vldpl (d : Nat) (a : Nat) (k : Nat) (eo : Bool) (so : Bool) (w : Width) (h : Hint) : Statement (.vldpl d a k eo so w h) := by
  intro hwf word hw
  replace hwf : (d < 32 && a < 32 && k < 8 : Bool) = true := hwf
  simp only [Bool.and_eq_true, decide_eq_true_eq] at hwf
  have b_d : d < 32 := hwf.1.1
  have b_a : a < 32 := hwf.1.2
  have b_k : k < 8 := hwf.2
  replace hw : 0xb8000004 + d * 2 ^ 21 + a * 2 ^ 16 + k * 2 ^ 8 + eo.toNat * 2 ^ 7 + so.toNat * 2 ^ 6 + w.code * 2 ^ 4 + h.code * 2 ^ 0 = word := Option.some.inj hw
  have f26_6 : Sys2Proof.fld word 26 6 = 46 := Sys2Proof.Laws.Field.bits26w6_of_21w5_16w5_8w3_7w1_6w1_4w2_0w2 0xb8000004 d a k eo.toNat so.toNat w.code h.code word hw b_d b_a b_k (flagBit_lt eo) (flagBit_lt so) (widthCode_lt w) (hintCode_lt h) rfl rfl rfl rfl rfl rfl rfl
  have f2_2 : Sys2Proof.fld word 2 2 = 1 := Sys2Proof.Laws.Field.bits2w2_of_21w5_16w5_8w3_7w1_6w1_4w2_0w2 0xb8000004 d a k eo.toNat so.toNat w.code h.code word hw (hintCode_lt h) rfl
  have f11_5 : Sys2Proof.fld word 11 5 = 0 := Sys2Proof.Laws.Field.bits11w5_of_21w5_16w5_8w3_7w1_6w1_4w2_0w2 0xb8000004 d a k eo.toNat so.toNat w.code h.code word hw b_k (flagBit_lt eo) (flagBit_lt so) (widthCode_lt w) (hintCode_lt h) rfl rfl rfl rfl rfl
  have f21_5 : Sys2Proof.fld word 21 5 = d := Sys2Proof.Laws.Field.bits21w5_of_21w5_16w5_8w3_7w1_6w1_4w2_0w2 0xb8000004 d a k eo.toNat so.toNat w.code h.code word hw b_d b_a b_k (flagBit_lt eo) (flagBit_lt so) (widthCode_lt w) (hintCode_lt h) rfl rfl rfl rfl rfl rfl rfl
  have f16_5 : Sys2Proof.fld word 16 5 = a := Sys2Proof.Laws.Field.bits16w5_of_21w5_16w5_8w3_7w1_6w1_4w2_0w2 0xb8000004 d a k eo.toNat so.toNat w.code h.code word hw b_a b_k (flagBit_lt eo) (flagBit_lt so) (widthCode_lt w) (hintCode_lt h) rfl rfl rfl rfl rfl rfl
  have f8_3 : Sys2Proof.fld word 8 3 = k := Sys2Proof.Laws.Field.bits8w3_of_21w5_16w5_8w3_7w1_6w1_4w2_0w2 0xb8000004 d a k eo.toNat so.toNat w.code h.code word hw b_k (flagBit_lt eo) (flagBit_lt so) (widthCode_lt w) (hintCode_lt h) rfl rfl rfl rfl rfl
  have f7_1 : Sys2Proof.fld word 7 1 = eo.toNat := Sys2Proof.Laws.Field.bits7w1_of_21w5_16w5_8w3_7w1_6w1_4w2_0w2 0xb8000004 d a k eo.toNat so.toNat w.code h.code word hw (flagBit_lt eo) (flagBit_lt so) (widthCode_lt w) (hintCode_lt h) rfl rfl rfl rfl
  have f6_1 : Sys2Proof.fld word 6 1 = so.toNat := Sys2Proof.Laws.Field.bits6w1_of_21w5_16w5_8w3_7w1_6w1_4w2_0w2 0xb8000004 d a k eo.toNat so.toNat w.code h.code word hw (flagBit_lt so) (widthCode_lt w) (hintCode_lt h) rfl rfl rfl
  have f4_2 : Sys2Proof.fld word 4 2 = w.code := Sys2Proof.Laws.Field.bits4w2_of_21w5_16w5_8w3_7w1_6w1_4w2_0w2 0xb8000004 d a k eo.toNat so.toNat w.code h.code word hw (widthCode_lt w) (hintCode_lt h) rfl rfl
  have f0_2 : Sys2Proof.fld word 0 2 = h.code := Sys2Proof.Laws.Field.bits0w2_of_21w5_16w5_8w3_7w1_6w1_4w2_0w2 0xb8000004 d a k eo.toNat so.toNat w.code h.code word hw (hintCode_lt h) rfl
  rw [major2E word f26_6]
  unfold decodeMajor2E
  rw [f2_2, f11_5, f21_5, f16_5, f8_3, f7_1, f6_1, f4_2, f0_2, flagBit eo, flagBit so, widthCode w, hintCode h]; try rfl
theorem vstseg (vs : Nat) (a : Nat) (k : Nat) (f : Bool) (so : Bool) (w : Width) (h : Hint) : Statement (.vstseg vs a k f so w h) := by
  intro hwf word hw
  replace hwf : (vs < 32 && a < 32 && k < 8 : Bool) = true := hwf
  simp only [Bool.and_eq_true, decide_eq_true_eq] at hwf
  have b_vs : vs < 32 := hwf.1.1
  have b_a : a < 32 := hwf.1.2
  have b_k : k < 8 := hwf.2
  replace hw : 0xb8000008 + vs * 2 ^ 21 + a * 2 ^ 16 + k * 2 ^ 8 + f.toNat * 2 ^ 7 + so.toNat * 2 ^ 6 + w.code * 2 ^ 4 + h.code * 2 ^ 0 = word := Option.some.inj hw
  have f26_6 : Sys2Proof.fld word 26 6 = 46 := Sys2Proof.Laws.Field.bits26w6_of_21w5_16w5_8w3_7w1_6w1_4w2_0w2 0xb8000008 vs a k f.toNat so.toNat w.code h.code word hw b_vs b_a b_k (flagBit_lt f) (flagBit_lt so) (widthCode_lt w) (hintCode_lt h) rfl rfl rfl rfl rfl rfl rfl
  have f2_2 : Sys2Proof.fld word 2 2 = 2 := Sys2Proof.Laws.Field.bits2w2_of_21w5_16w5_8w3_7w1_6w1_4w2_0w2 0xb8000008 vs a k f.toNat so.toNat w.code h.code word hw (hintCode_lt h) rfl
  have f11_5 : Sys2Proof.fld word 11 5 = 0 := Sys2Proof.Laws.Field.bits11w5_of_21w5_16w5_8w3_7w1_6w1_4w2_0w2 0xb8000008 vs a k f.toNat so.toNat w.code h.code word hw b_k (flagBit_lt f) (flagBit_lt so) (widthCode_lt w) (hintCode_lt h) rfl rfl rfl rfl rfl
  have f21_5 : Sys2Proof.fld word 21 5 = vs := Sys2Proof.Laws.Field.bits21w5_of_21w5_16w5_8w3_7w1_6w1_4w2_0w2 0xb8000008 vs a k f.toNat so.toNat w.code h.code word hw b_vs b_a b_k (flagBit_lt f) (flagBit_lt so) (widthCode_lt w) (hintCode_lt h) rfl rfl rfl rfl rfl rfl rfl
  have f16_5 : Sys2Proof.fld word 16 5 = a := Sys2Proof.Laws.Field.bits16w5_of_21w5_16w5_8w3_7w1_6w1_4w2_0w2 0xb8000008 vs a k f.toNat so.toNat w.code h.code word hw b_a b_k (flagBit_lt f) (flagBit_lt so) (widthCode_lt w) (hintCode_lt h) rfl rfl rfl rfl rfl rfl
  have f8_3 : Sys2Proof.fld word 8 3 = k := Sys2Proof.Laws.Field.bits8w3_of_21w5_16w5_8w3_7w1_6w1_4w2_0w2 0xb8000008 vs a k f.toNat so.toNat w.code h.code word hw b_k (flagBit_lt f) (flagBit_lt so) (widthCode_lt w) (hintCode_lt h) rfl rfl rfl rfl rfl
  have f7_1 : Sys2Proof.fld word 7 1 = f.toNat := Sys2Proof.Laws.Field.bits7w1_of_21w5_16w5_8w3_7w1_6w1_4w2_0w2 0xb8000008 vs a k f.toNat so.toNat w.code h.code word hw (flagBit_lt f) (flagBit_lt so) (widthCode_lt w) (hintCode_lt h) rfl rfl rfl rfl
  have f6_1 : Sys2Proof.fld word 6 1 = so.toNat := Sys2Proof.Laws.Field.bits6w1_of_21w5_16w5_8w3_7w1_6w1_4w2_0w2 0xb8000008 vs a k f.toNat so.toNat w.code h.code word hw (flagBit_lt so) (widthCode_lt w) (hintCode_lt h) rfl rfl rfl
  have f4_2 : Sys2Proof.fld word 4 2 = w.code := Sys2Proof.Laws.Field.bits4w2_of_21w5_16w5_8w3_7w1_6w1_4w2_0w2 0xb8000008 vs a k f.toNat so.toNat w.code h.code word hw (widthCode_lt w) (hintCode_lt h) rfl rfl
  have f0_2 : Sys2Proof.fld word 0 2 = h.code := Sys2Proof.Laws.Field.bits0w2_of_21w5_16w5_8w3_7w1_6w1_4w2_0w2 0xb8000008 vs a k f.toNat so.toNat w.code h.code word hw (hintCode_lt h) rfl
  rw [major2E word f26_6]
  unfold decodeMajor2E
  rw [f2_2, f11_5, f21_5, f16_5, f8_3, f7_1, f6_1, f4_2, f0_2, flagBit f, flagBit so, widthCode w, hintCode h]; try rfl
theorem vstpl (vs : Nat) (a : Nat) (k : Nat) (eo : Bool) (so : Bool) (w : Width) (h : Hint) : Statement (.vstpl vs a k eo so w h) := by
  intro hwf word hw
  replace hwf : (vs < 32 && a < 32 && k < 8 : Bool) = true := hwf
  simp only [Bool.and_eq_true, decide_eq_true_eq] at hwf
  have b_vs : vs < 32 := hwf.1.1
  have b_a : a < 32 := hwf.1.2
  have b_k : k < 8 := hwf.2
  replace hw : 0xb800000c + vs * 2 ^ 21 + a * 2 ^ 16 + k * 2 ^ 8 + eo.toNat * 2 ^ 7 + so.toNat * 2 ^ 6 + w.code * 2 ^ 4 + h.code * 2 ^ 0 = word := Option.some.inj hw
  have f26_6 : Sys2Proof.fld word 26 6 = 46 := Sys2Proof.Laws.Field.bits26w6_of_21w5_16w5_8w3_7w1_6w1_4w2_0w2 0xb800000c vs a k eo.toNat so.toNat w.code h.code word hw b_vs b_a b_k (flagBit_lt eo) (flagBit_lt so) (widthCode_lt w) (hintCode_lt h) rfl rfl rfl rfl rfl rfl rfl
  have f2_2 : Sys2Proof.fld word 2 2 = 3 := Sys2Proof.Laws.Field.bits2w2_of_21w5_16w5_8w3_7w1_6w1_4w2_0w2 0xb800000c vs a k eo.toNat so.toNat w.code h.code word hw (hintCode_lt h) rfl
  have f11_5 : Sys2Proof.fld word 11 5 = 0 := Sys2Proof.Laws.Field.bits11w5_of_21w5_16w5_8w3_7w1_6w1_4w2_0w2 0xb800000c vs a k eo.toNat so.toNat w.code h.code word hw b_k (flagBit_lt eo) (flagBit_lt so) (widthCode_lt w) (hintCode_lt h) rfl rfl rfl rfl rfl
  have f21_5 : Sys2Proof.fld word 21 5 = vs := Sys2Proof.Laws.Field.bits21w5_of_21w5_16w5_8w3_7w1_6w1_4w2_0w2 0xb800000c vs a k eo.toNat so.toNat w.code h.code word hw b_vs b_a b_k (flagBit_lt eo) (flagBit_lt so) (widthCode_lt w) (hintCode_lt h) rfl rfl rfl rfl rfl rfl rfl
  have f16_5 : Sys2Proof.fld word 16 5 = a := Sys2Proof.Laws.Field.bits16w5_of_21w5_16w5_8w3_7w1_6w1_4w2_0w2 0xb800000c vs a k eo.toNat so.toNat w.code h.code word hw b_a b_k (flagBit_lt eo) (flagBit_lt so) (widthCode_lt w) (hintCode_lt h) rfl rfl rfl rfl rfl rfl
  have f8_3 : Sys2Proof.fld word 8 3 = k := Sys2Proof.Laws.Field.bits8w3_of_21w5_16w5_8w3_7w1_6w1_4w2_0w2 0xb800000c vs a k eo.toNat so.toNat w.code h.code word hw b_k (flagBit_lt eo) (flagBit_lt so) (widthCode_lt w) (hintCode_lt h) rfl rfl rfl rfl rfl
  have f7_1 : Sys2Proof.fld word 7 1 = eo.toNat := Sys2Proof.Laws.Field.bits7w1_of_21w5_16w5_8w3_7w1_6w1_4w2_0w2 0xb800000c vs a k eo.toNat so.toNat w.code h.code word hw (flagBit_lt eo) (flagBit_lt so) (widthCode_lt w) (hintCode_lt h) rfl rfl rfl rfl
  have f6_1 : Sys2Proof.fld word 6 1 = so.toNat := Sys2Proof.Laws.Field.bits6w1_of_21w5_16w5_8w3_7w1_6w1_4w2_0w2 0xb800000c vs a k eo.toNat so.toNat w.code h.code word hw (flagBit_lt so) (widthCode_lt w) (hintCode_lt h) rfl rfl rfl
  have f4_2 : Sys2Proof.fld word 4 2 = w.code := Sys2Proof.Laws.Field.bits4w2_of_21w5_16w5_8w3_7w1_6w1_4w2_0w2 0xb800000c vs a k eo.toNat so.toNat w.code h.code word hw (widthCode_lt w) (hintCode_lt h) rfl rfl
  have f0_2 : Sys2Proof.fld word 0 2 = h.code := Sys2Proof.Laws.Field.bits0w2_of_21w5_16w5_8w3_7w1_6w1_4w2_0w2 0xb800000c vs a k eo.toNat so.toNat w.code h.code word hw (hintCode_lt h) rfl
  rw [major2E word f26_6]
  unfold decodeMajor2E
  rw [f2_2, f11_5, f21_5, f16_5, f8_3, f7_1, f6_1, f4_2, f0_2, flagBit eo, flagBit so, widthCode w, hintCode h]; try rfl
theorem vamoadd (d : Nat) (a : Nat) (b : Nat) (k : Nat) (w : Width) : Statement (.vamoadd d a b k w) := by
  intro hwf word hw
  replace hwf : (d < 32 && a < 32 && b < 32 && k < 8 : Bool) = true := hwf
  simp only [Bool.and_eq_true, decide_eq_true_eq] at hwf
  have b_d : d < 32 := hwf.1.1.1
  have b_a : a < 32 := hwf.1.1.2
  have b_b : b < 32 := hwf.1.2
  have b_k : k < 8 := hwf.2
  replace hw : 0xbc000000 + d * 2 ^ 21 + a * 2 ^ 16 + b * 2 ^ 11 + k * 2 ^ 8 + w.code * 2 ^ 4 = word := Option.some.inj hw
  have f26_6 : Sys2Proof.fld word 26 6 = 47 := Sys2Proof.Laws.Field.bits26w6_of_21w5_16w5_11w5_8w3_4w2 0xbc000000 d a b k w.code word hw b_d b_a b_b b_k (widthCode_lt w) rfl rfl rfl rfl rfl
  have f2_2 : Sys2Proof.fld word 2 2 = 0 := Sys2Proof.Laws.Field.bits2w2_of_21w5_16w5_11w5_8w3_4w2 0xbc000000 d a b k w.code word hw
  have f6_2 : Sys2Proof.fld word 6 2 = 0 := Sys2Proof.Laws.Field.bits6w2_of_21w5_16w5_11w5_8w3_4w2 0xbc000000 d a b k w.code word hw (widthCode_lt w) rfl
  have f0_2 : Sys2Proof.fld word 0 2 = 0 := Sys2Proof.Laws.Field.bits0w2_of_21w5_16w5_11w5_8w3_4w2 0xbc000000 d a b k w.code word hw
  have f21_5 : Sys2Proof.fld word 21 5 = d := Sys2Proof.Laws.Field.bits21w5_of_21w5_16w5_11w5_8w3_4w2 0xbc000000 d a b k w.code word hw b_d b_a b_b b_k (widthCode_lt w) rfl rfl rfl rfl rfl
  have f16_5 : Sys2Proof.fld word 16 5 = a := Sys2Proof.Laws.Field.bits16w5_of_21w5_16w5_11w5_8w3_4w2 0xbc000000 d a b k w.code word hw b_a b_b b_k (widthCode_lt w) rfl rfl rfl rfl
  have f11_5 : Sys2Proof.fld word 11 5 = b := Sys2Proof.Laws.Field.bits11w5_of_21w5_16w5_11w5_8w3_4w2 0xbc000000 d a b k w.code word hw b_b b_k (widthCode_lt w) rfl rfl rfl
  have f8_3 : Sys2Proof.fld word 8 3 = k := Sys2Proof.Laws.Field.bits8w3_of_21w5_16w5_11w5_8w3_4w2 0xbc000000 d a b k w.code word hw b_k (widthCode_lt w) rfl rfl
  have f4_2 : Sys2Proof.fld word 4 2 = w.code := Sys2Proof.Laws.Field.bits4w2_of_21w5_16w5_11w5_8w3_4w2 0xbc000000 d a b k w.code word hw (widthCode_lt w) rfl
  rw [major2F word f26_6]
  unfold decodeMajor2F
  rw [f2_2, f6_2, f0_2, f21_5, f16_5, f11_5, f8_3, f4_2, widthCode w]; try rfl
theorem vamomin (d : Nat) (a : Nat) (b : Nat) (k : Nat) (w : Width) (n : Bool) : Statement (.vamomin d a b k w n) := by
  intro hwf word hw
  replace hwf : (d < 32 && a < 32 && b < 32 && k < 8 : Bool) = true := hwf
  simp only [Bool.and_eq_true, decide_eq_true_eq] at hwf
  have b_d : d < 32 := hwf.1.1.1
  have b_a : a < 32 := hwf.1.1.2
  have b_b : b < 32 := hwf.1.2
  have b_k : k < 8 := hwf.2
  replace hw : 0xbc000004 + d * 2 ^ 21 + a * 2 ^ 16 + b * 2 ^ 11 + k * 2 ^ 8 + w.code * 2 ^ 4 + n.toNat * 2 ^ 1 = word := Option.some.inj hw
  have f26_6 : Sys2Proof.fld word 26 6 = 47 := Sys2Proof.Laws.Field.bits26w6_of_21w5_16w5_11w5_8w3_4w2_1w1 0xbc000004 d a b k w.code n.toNat word hw b_d b_a b_b b_k (widthCode_lt w) (flagBit_lt n) rfl rfl rfl rfl rfl rfl
  have f2_2 : Sys2Proof.fld word 2 2 = 1 := Sys2Proof.Laws.Field.bits2w2_of_21w5_16w5_11w5_8w3_4w2_1w1 0xbc000004 d a b k w.code n.toNat word hw (flagBit_lt n) rfl
  have f6_2 : Sys2Proof.fld word 6 2 = 0 := Sys2Proof.Laws.Field.bits6w2_of_21w5_16w5_11w5_8w3_4w2_1w1 0xbc000004 d a b k w.code n.toNat word hw (widthCode_lt w) (flagBit_lt n) rfl rfl
  have f0_1 : Sys2Proof.fld word 0 1 = 0 := Sys2Proof.Laws.Field.bits0w1_of_21w5_16w5_11w5_8w3_4w2_1w1 0xbc000004 d a b k w.code n.toNat word hw
  have f21_5 : Sys2Proof.fld word 21 5 = d := Sys2Proof.Laws.Field.bits21w5_of_21w5_16w5_11w5_8w3_4w2_1w1 0xbc000004 d a b k w.code n.toNat word hw b_d b_a b_b b_k (widthCode_lt w) (flagBit_lt n) rfl rfl rfl rfl rfl rfl
  have f16_5 : Sys2Proof.fld word 16 5 = a := Sys2Proof.Laws.Field.bits16w5_of_21w5_16w5_11w5_8w3_4w2_1w1 0xbc000004 d a b k w.code n.toNat word hw b_a b_b b_k (widthCode_lt w) (flagBit_lt n) rfl rfl rfl rfl rfl
  have f11_5 : Sys2Proof.fld word 11 5 = b := Sys2Proof.Laws.Field.bits11w5_of_21w5_16w5_11w5_8w3_4w2_1w1 0xbc000004 d a b k w.code n.toNat word hw b_b b_k (widthCode_lt w) (flagBit_lt n) rfl rfl rfl rfl
  have f8_3 : Sys2Proof.fld word 8 3 = k := Sys2Proof.Laws.Field.bits8w3_of_21w5_16w5_11w5_8w3_4w2_1w1 0xbc000004 d a b k w.code n.toNat word hw b_k (widthCode_lt w) (flagBit_lt n) rfl rfl rfl
  have f4_2 : Sys2Proof.fld word 4 2 = w.code := Sys2Proof.Laws.Field.bits4w2_of_21w5_16w5_11w5_8w3_4w2_1w1 0xbc000004 d a b k w.code n.toNat word hw (widthCode_lt w) (flagBit_lt n) rfl rfl
  have f1_1 : Sys2Proof.fld word 1 1 = n.toNat := Sys2Proof.Laws.Field.bits1w1_of_21w5_16w5_11w5_8w3_4w2_1w1 0xbc000004 d a b k w.code n.toNat word hw (flagBit_lt n) rfl
  rw [major2F word f26_6]
  unfold decodeMajor2F
  rw [f2_2, f6_2, f0_1, f21_5, f16_5, f11_5, f8_3, f4_2, f1_1, widthCode w, flagBit n]; try rfl
theorem vamomax (d : Nat) (a : Nat) (b : Nat) (k : Nat) (w : Width) (n : Bool) : Statement (.vamomax d a b k w n) := by
  intro hwf word hw
  replace hwf : (d < 32 && a < 32 && b < 32 && k < 8 : Bool) = true := hwf
  simp only [Bool.and_eq_true, decide_eq_true_eq] at hwf
  have b_d : d < 32 := hwf.1.1.1
  have b_a : a < 32 := hwf.1.1.2
  have b_b : b < 32 := hwf.1.2
  have b_k : k < 8 := hwf.2
  replace hw : 0xbc000008 + d * 2 ^ 21 + a * 2 ^ 16 + b * 2 ^ 11 + k * 2 ^ 8 + w.code * 2 ^ 4 + n.toNat * 2 ^ 1 = word := Option.some.inj hw
  have f26_6 : Sys2Proof.fld word 26 6 = 47 := Sys2Proof.Laws.Field.bits26w6_of_21w5_16w5_11w5_8w3_4w2_1w1 0xbc000008 d a b k w.code n.toNat word hw b_d b_a b_b b_k (widthCode_lt w) (flagBit_lt n) rfl rfl rfl rfl rfl rfl
  have f2_2 : Sys2Proof.fld word 2 2 = 2 := Sys2Proof.Laws.Field.bits2w2_of_21w5_16w5_11w5_8w3_4w2_1w1 0xbc000008 d a b k w.code n.toNat word hw (flagBit_lt n) rfl
  have f6_2 : Sys2Proof.fld word 6 2 = 0 := Sys2Proof.Laws.Field.bits6w2_of_21w5_16w5_11w5_8w3_4w2_1w1 0xbc000008 d a b k w.code n.toNat word hw (widthCode_lt w) (flagBit_lt n) rfl rfl
  have f0_1 : Sys2Proof.fld word 0 1 = 0 := Sys2Proof.Laws.Field.bits0w1_of_21w5_16w5_11w5_8w3_4w2_1w1 0xbc000008 d a b k w.code n.toNat word hw
  have f21_5 : Sys2Proof.fld word 21 5 = d := Sys2Proof.Laws.Field.bits21w5_of_21w5_16w5_11w5_8w3_4w2_1w1 0xbc000008 d a b k w.code n.toNat word hw b_d b_a b_b b_k (widthCode_lt w) (flagBit_lt n) rfl rfl rfl rfl rfl rfl
  have f16_5 : Sys2Proof.fld word 16 5 = a := Sys2Proof.Laws.Field.bits16w5_of_21w5_16w5_11w5_8w3_4w2_1w1 0xbc000008 d a b k w.code n.toNat word hw b_a b_b b_k (widthCode_lt w) (flagBit_lt n) rfl rfl rfl rfl rfl
  have f11_5 : Sys2Proof.fld word 11 5 = b := Sys2Proof.Laws.Field.bits11w5_of_21w5_16w5_11w5_8w3_4w2_1w1 0xbc000008 d a b k w.code n.toNat word hw b_b b_k (widthCode_lt w) (flagBit_lt n) rfl rfl rfl rfl
  have f8_3 : Sys2Proof.fld word 8 3 = k := Sys2Proof.Laws.Field.bits8w3_of_21w5_16w5_11w5_8w3_4w2_1w1 0xbc000008 d a b k w.code n.toNat word hw b_k (widthCode_lt w) (flagBit_lt n) rfl rfl rfl
  have f4_2 : Sys2Proof.fld word 4 2 = w.code := Sys2Proof.Laws.Field.bits4w2_of_21w5_16w5_11w5_8w3_4w2_1w1 0xbc000008 d a b k w.code n.toNat word hw (widthCode_lt w) (flagBit_lt n) rfl rfl
  have f1_1 : Sys2Proof.fld word 1 1 = n.toNat := Sys2Proof.Laws.Field.bits1w1_of_21w5_16w5_11w5_8w3_4w2_1w1 0xbc000008 d a b k w.code n.toNat word hw (flagBit_lt n) rfl
  rw [major2F word f26_6]
  unfold decodeMajor2F
  rw [f2_2, f6_2, f0_1, f21_5, f16_5, f11_5, f8_3, f4_2, f1_1, widthCode w, flagBit n]; try rfl
theorem vamoswap (d : Nat) (a : Nat) (b : Nat) (k : Nat) (w : Width) : Statement (.vamoswap d a b k w) := by
  intro hwf word hw
  replace hwf : (d < 32 && a < 32 && b < 32 && k < 8 : Bool) = true := hwf
  simp only [Bool.and_eq_true, decide_eq_true_eq] at hwf
  have b_d : d < 32 := hwf.1.1.1
  have b_a : a < 32 := hwf.1.1.2
  have b_b : b < 32 := hwf.1.2
  have b_k : k < 8 := hwf.2
  replace hw : 0xbc00000c + d * 2 ^ 21 + a * 2 ^ 16 + b * 2 ^ 11 + k * 2 ^ 8 + w.code * 2 ^ 4 = word := Option.some.inj hw
  have f26_6 : Sys2Proof.fld word 26 6 = 47 := Sys2Proof.Laws.Field.bits26w6_of_21w5_16w5_11w5_8w3_4w2 0xbc00000c d a b k w.code word hw b_d b_a b_b b_k (widthCode_lt w) rfl rfl rfl rfl rfl
  have f2_2 : Sys2Proof.fld word 2 2 = 3 := Sys2Proof.Laws.Field.bits2w2_of_21w5_16w5_11w5_8w3_4w2 0xbc00000c d a b k w.code word hw
  have f6_2 : Sys2Proof.fld word 6 2 = 0 := Sys2Proof.Laws.Field.bits6w2_of_21w5_16w5_11w5_8w3_4w2 0xbc00000c d a b k w.code word hw (widthCode_lt w) rfl
  have f0_2 : Sys2Proof.fld word 0 2 = 0 := Sys2Proof.Laws.Field.bits0w2_of_21w5_16w5_11w5_8w3_4w2 0xbc00000c d a b k w.code word hw
  have f21_5 : Sys2Proof.fld word 21 5 = d := Sys2Proof.Laws.Field.bits21w5_of_21w5_16w5_11w5_8w3_4w2 0xbc00000c d a b k w.code word hw b_d b_a b_b b_k (widthCode_lt w) rfl rfl rfl rfl rfl
  have f16_5 : Sys2Proof.fld word 16 5 = a := Sys2Proof.Laws.Field.bits16w5_of_21w5_16w5_11w5_8w3_4w2 0xbc00000c d a b k w.code word hw b_a b_b b_k (widthCode_lt w) rfl rfl rfl rfl
  have f11_5 : Sys2Proof.fld word 11 5 = b := Sys2Proof.Laws.Field.bits11w5_of_21w5_16w5_11w5_8w3_4w2 0xbc00000c d a b k w.code word hw b_b b_k (widthCode_lt w) rfl rfl rfl
  have f8_3 : Sys2Proof.fld word 8 3 = k := Sys2Proof.Laws.Field.bits8w3_of_21w5_16w5_11w5_8w3_4w2 0xbc00000c d a b k w.code word hw b_k (widthCode_lt w) rfl rfl
  have f4_2 : Sys2Proof.fld word 4 2 = w.code := Sys2Proof.Laws.Field.bits4w2_of_21w5_16w5_11w5_8w3_4w2 0xbc00000c d a b k w.code word hw (widthCode_lt w) rfl
  rw [major2F word f26_6]
  unfold decodeMajor2F
  rw [f2_2, f6_2, f0_2, f21_5, f16_5, f11_5, f8_3, f4_2, widthCode w]; try rfl
theorem sbind (d : Nat) (a : Nat) (n : Nat) : Statement (.sbind d a n) := by
  intro hwf word hw
  replace hwf : (d < 32 && a < 32 && n < 8 : Bool) = true := hwf
  simp only [Bool.and_eq_true, decide_eq_true_eq] at hwf
  have b_d : d < 32 := hwf.1.1
  have b_a : a < 32 := hwf.1.2
  have b_n : n < 8 := hwf.2
  replace hw : 0xc0000000 + d * 2 ^ 21 + a * 2 ^ 16 + n * 2 ^ 8 = word := Option.some.inj hw
  have f26_6 : Sys2Proof.fld word 26 6 = 48 := Sys2Proof.Laws.Field.bits26w6_of_21w5_16w5_8w3 0xc0000000 d a n word hw b_d b_a b_n rfl rfl rfl
  have f11_5 : Sys2Proof.fld word 11 5 = 0 := Sys2Proof.Laws.Field.bits11w5_of_21w5_16w5_8w3 0xc0000000 d a n word hw b_n rfl
  have f0_8 : Sys2Proof.fld word 0 8 = 0 := Sys2Proof.Laws.Field.bits0w8_of_21w5_16w5_8w3 0xc0000000 d a n word hw
  have f21_5 : Sys2Proof.fld word 21 5 = d := Sys2Proof.Laws.Field.bits21w5_of_21w5_16w5_8w3 0xc0000000 d a n word hw b_d b_a b_n rfl rfl rfl
  have f16_5 : Sys2Proof.fld word 16 5 = a := Sys2Proof.Laws.Field.bits16w5_of_21w5_16w5_8w3 0xc0000000 d a n word hw b_a b_n rfl rfl
  have f8_3 : Sys2Proof.fld word 8 3 = n := Sys2Proof.Laws.Field.bits8w3_of_21w5_16w5_8w3 0xc0000000 d a n word hw b_n rfl
  rw [major30 word f26_6]
  unfold decodeMajor30
  rw [f11_5, f0_8, f21_5, f16_5, f8_3]; try rfl
theorem sunbind (n : Nat) : Statement (.sunbind n) := by
  intro hwf word hw
  replace hwf : (n < 8 : Bool) = true := hwf
  simp only [decide_eq_true_eq] at hwf
  have b_n : n < 8 := hwf
  replace hw : 0xc0000800 + n * 2 ^ 8 = word := Option.some.inj hw
  have f26_6 : Sys2Proof.fld word 26 6 = 48 := Sys2Proof.Laws.Field.bits26w6_of_8w3 0xc0000800 n word hw b_n rfl
  have f11_5 : Sys2Proof.fld word 11 5 = 1 := Sys2Proof.Laws.Field.bits11w5_of_8w3 0xc0000800 n word hw b_n rfl
  have f16_10 : Sys2Proof.fld word 16 10 = 0 := Sys2Proof.Laws.Field.bits16w10_of_8w3 0xc0000800 n word hw b_n rfl
  have f0_8 : Sys2Proof.fld word 0 8 = 0 := Sys2Proof.Laws.Field.bits0w8_of_8w3 0xc0000800 n word hw
  have f8_3 : Sys2Proof.fld word 8 3 = n := Sys2Proof.Laws.Field.bits8w3_of_8w3 0xc0000800 n word hw b_n rfl
  rw [major30 word f26_6]
  unfold decodeMajor30
  rw [f11_5, f16_10, f0_8, f8_3]; try rfl
theorem sclose (n : Nat) : Statement (.sclose n) := by
  intro hwf word hw
  replace hwf : (n < 8 : Bool) = true := hwf
  simp only [decide_eq_true_eq] at hwf
  have b_n : n < 8 := hwf
  replace hw : 0xc0001000 + n * 2 ^ 8 = word := Option.some.inj hw
  have f26_6 : Sys2Proof.fld word 26 6 = 48 := Sys2Proof.Laws.Field.bits26w6_of_8w3 0xc0001000 n word hw b_n rfl
  have f11_5 : Sys2Proof.fld word 11 5 = 2 := Sys2Proof.Laws.Field.bits11w5_of_8w3 0xc0001000 n word hw b_n rfl
  have f16_10 : Sys2Proof.fld word 16 10 = 0 := Sys2Proof.Laws.Field.bits16w10_of_8w3 0xc0001000 n word hw b_n rfl
  have f0_8 : Sys2Proof.fld word 0 8 = 0 := Sys2Proof.Laws.Field.bits0w8_of_8w3 0xc0001000 n word hw
  have f8_3 : Sys2Proof.fld word 8 3 = n := Sys2Proof.Laws.Field.bits8w3_of_8w3 0xc0001000 n word hw b_n rfl
  rw [major30 word f26_6]
  unfold decodeMajor30
  rw [f11_5, f16_10, f0_8, f8_3]; try rfl
theorem scopy (d : Nat) (a : Nat) (c : Nat) : Statement (.scopy d a c) := by
  intro hwf word hw
  replace hwf : (d < 32 && a < 32 && c < 4 : Bool) = true := hwf
  simp only [Bool.and_eq_true, decide_eq_true_eq] at hwf
  have b_d : d < 32 := hwf.1.1
  have b_a : a < 32 := hwf.1.2
  have b_c : c < 4 := hwf.2
  replace hw : 0xc4000000 + d * 2 ^ 21 + a * 2 ^ 16 + c * 2 ^ 9 = word := Option.some.inj hw
  have f26_6 : Sys2Proof.fld word 26 6 = 49 := Sys2Proof.Laws.Field.bits26w6_of_21w5_16w5_9w2 0xc4000000 d a c word hw b_d b_a b_c rfl rfl rfl
  have f11_5 : Sys2Proof.fld word 11 5 = 0 := Sys2Proof.Laws.Field.bits11w5_of_21w5_16w5_9w2 0xc4000000 d a c word hw b_c rfl
  have f0_9 : Sys2Proof.fld word 0 9 = 0 := Sys2Proof.Laws.Field.bits0w9_of_21w5_16w5_9w2 0xc4000000 d a c word hw
  have f21_5 : Sys2Proof.fld word 21 5 = d := Sys2Proof.Laws.Field.bits21w5_of_21w5_16w5_9w2 0xc4000000 d a c word hw b_d b_a b_c rfl rfl rfl
  have f16_5 : Sys2Proof.fld word 16 5 = a := Sys2Proof.Laws.Field.bits16w5_of_21w5_16w5_9w2 0xc4000000 d a c word hw b_a b_c rfl rfl
  have f9_2 : Sys2Proof.fld word 9 2 = c := Sys2Proof.Laws.Field.bits9w2_of_21w5_16w5_9w2 0xc4000000 d a c word hw b_c rfl
  rw [major31 word f26_6]
  unfold decodeMajor31
  rw [f11_5, f0_9, f21_5, f16_5, f9_2]; try rfl
theorem sxform (d : Nat) (a : Nat) (c : Nat) : Statement (.sxform d a c) := by
  intro hwf word hw
  replace hwf : (d < 32 && a < 32 && c < 4 : Bool) = true := hwf
  simp only [Bool.and_eq_true, decide_eq_true_eq] at hwf
  have b_d : d < 32 := hwf.1.1
  have b_a : a < 32 := hwf.1.2
  have b_c : c < 4 := hwf.2
  replace hw : 0xc4000800 + d * 2 ^ 21 + a * 2 ^ 16 + c * 2 ^ 9 = word := Option.some.inj hw
  have f26_6 : Sys2Proof.fld word 26 6 = 49 := Sys2Proof.Laws.Field.bits26w6_of_21w5_16w5_9w2 0xc4000800 d a c word hw b_d b_a b_c rfl rfl rfl
  have f11_5 : Sys2Proof.fld word 11 5 = 1 := Sys2Proof.Laws.Field.bits11w5_of_21w5_16w5_9w2 0xc4000800 d a c word hw b_c rfl
  have f0_9 : Sys2Proof.fld word 0 9 = 0 := Sys2Proof.Laws.Field.bits0w9_of_21w5_16w5_9w2 0xc4000800 d a c word hw
  have f21_5 : Sys2Proof.fld word 21 5 = d := Sys2Proof.Laws.Field.bits21w5_of_21w5_16w5_9w2 0xc4000800 d a c word hw b_d b_a b_c rfl rfl rfl
  have f16_5 : Sys2Proof.fld word 16 5 = a := Sys2Proof.Laws.Field.bits16w5_of_21w5_16w5_9w2 0xc4000800 d a c word hw b_a b_c rfl rfl
  have f9_2 : Sys2Proof.fld word 9 2 = c := Sys2Proof.Laws.Field.bits9w2_of_21w5_16w5_9w2 0xc4000800 d a c word hw b_c rfl
  rw [major31 word f26_6]
  unfold decodeMajor31
  rw [f11_5, f0_9, f21_5, f16_5, f9_2]; try rfl
theorem smcast (d : Nat) (vs : Nat) (c : Nat) : Statement (.smcast d vs c) := by
  intro hwf word hw
  replace hwf : (d < 32 && vs < 32 && c < 4 : Bool) = true := hwf
  simp only [Bool.and_eq_true, decide_eq_true_eq] at hwf
  have b_d : d < 32 := hwf.1.1
  have b_vs : vs < 32 := hwf.1.2
  have b_c : c < 4 := hwf.2
  replace hw : 0xc4001000 + d * 2 ^ 21 + vs * 2 ^ 16 + c * 2 ^ 9 = word := Option.some.inj hw
  have f26_6 : Sys2Proof.fld word 26 6 = 49 := Sys2Proof.Laws.Field.bits26w6_of_21w5_16w5_9w2 0xc4001000 d vs c word hw b_d b_vs b_c rfl rfl rfl
  have f11_5 : Sys2Proof.fld word 11 5 = 2 := Sys2Proof.Laws.Field.bits11w5_of_21w5_16w5_9w2 0xc4001000 d vs c word hw b_c rfl
  have f0_9 : Sys2Proof.fld word 0 9 = 0 := Sys2Proof.Laws.Field.bits0w9_of_21w5_16w5_9w2 0xc4001000 d vs c word hw
  have f21_5 : Sys2Proof.fld word 21 5 = d := Sys2Proof.Laws.Field.bits21w5_of_21w5_16w5_9w2 0xc4001000 d vs c word hw b_d b_vs b_c rfl rfl rfl
  have f16_5 : Sys2Proof.fld word 16 5 = vs := Sys2Proof.Laws.Field.bits16w5_of_21w5_16w5_9w2 0xc4001000 d vs c word hw b_vs b_c rfl rfl
  have f9_2 : Sys2Proof.fld word 9 2 = c := Sys2Proof.Laws.Field.bits9w2_of_21w5_16w5_9w2 0xc4001000 d vs c word hw b_c rfl
  rw [major31 word f26_6]
  unfold decodeMajor31
  rw [f11_5, f0_9, f21_5, f16_5, f9_2]; try rfl
theorem xwait (a : Nat) (c : Nat) : Statement (.xwait a c) := by
  intro hwf word hw
  replace hwf : (a < 32 && c < 4 : Bool) = true := hwf
  simp only [Bool.and_eq_true, decide_eq_true_eq] at hwf
  have b_a : a < 32 := hwf.1
  have b_c : c < 4 := hwf.2
  replace hw : 0xc4001800 + a * 2 ^ 16 + c * 2 ^ 9 = word := Option.some.inj hw
  have f26_6 : Sys2Proof.fld word 26 6 = 49 := Sys2Proof.Laws.Field.bits26w6_of_16w5_9w2 0xc4001800 a c word hw b_a b_c rfl rfl
  have f11_5 : Sys2Proof.fld word 11 5 = 3 := Sys2Proof.Laws.Field.bits11w5_of_16w5_9w2 0xc4001800 a c word hw b_c rfl
  have f21_5 : Sys2Proof.fld word 21 5 = 0 := Sys2Proof.Laws.Field.bits21w5_of_16w5_9w2 0xc4001800 a c word hw b_a b_c rfl rfl
  have f0_9 : Sys2Proof.fld word 0 9 = 0 := Sys2Proof.Laws.Field.bits0w9_of_16w5_9w2 0xc4001800 a c word hw
  have f16_5 : Sys2Proof.fld word 16 5 = a := Sys2Proof.Laws.Field.bits16w5_of_16w5_9w2 0xc4001800 a c word hw b_a b_c rfl rfl
  have f9_2 : Sys2Proof.fld word 9 2 = c := Sys2Proof.Laws.Field.bits9w2_of_16w5_9w2 0xc4001800 a c word hw b_c rfl
  rw [major31 word f26_6]
  unfold decodeMajor31
  rw [f11_5, f21_5, f0_9, f16_5, f9_2]; try rfl
theorem xpoll (d : Nat) (a : Nat) (c : Nat) : Statement (.xpoll d a c) := by
  intro hwf word hw
  replace hwf : (d < 32 && a < 32 && c < 4 : Bool) = true := hwf
  simp only [Bool.and_eq_true, decide_eq_true_eq] at hwf
  have b_d : d < 32 := hwf.1.1
  have b_a : a < 32 := hwf.1.2
  have b_c : c < 4 := hwf.2
  replace hw : 0xc4002000 + d * 2 ^ 21 + a * 2 ^ 16 + c * 2 ^ 9 = word := Option.some.inj hw
  have f26_6 : Sys2Proof.fld word 26 6 = 49 := Sys2Proof.Laws.Field.bits26w6_of_21w5_16w5_9w2 0xc4002000 d a c word hw b_d b_a b_c rfl rfl rfl
  have f11_5 : Sys2Proof.fld word 11 5 = 4 := Sys2Proof.Laws.Field.bits11w5_of_21w5_16w5_9w2 0xc4002000 d a c word hw b_c rfl
  have f0_9 : Sys2Proof.fld word 0 9 = 0 := Sys2Proof.Laws.Field.bits0w9_of_21w5_16w5_9w2 0xc4002000 d a c word hw
  have f21_5 : Sys2Proof.fld word 21 5 = d := Sys2Proof.Laws.Field.bits21w5_of_21w5_16w5_9w2 0xc4002000 d a c word hw b_d b_a b_c rfl rfl rfl
  have f16_5 : Sys2Proof.fld word 16 5 = a := Sys2Proof.Laws.Field.bits16w5_of_21w5_16w5_9w2 0xc4002000 d a c word hw b_a b_c rfl rfl
  have f9_2 : Sys2Proof.fld word 9 2 = c := Sys2Proof.Laws.Field.bits9w2_of_21w5_16w5_9w2 0xc4002000 d a c word hw b_c rfl
  rw [major31 word f26_6]
  unfold decodeMajor31
  rw [f11_5, f0_9, f21_5, f16_5, f9_2]; try rfl
theorem mgopen (d : Nat) (a : Nat) : Statement (.mgopen d a) := by
  intro hwf word hw
  replace hwf : (d < 32 && a < 32 : Bool) = true := hwf
  simp only [Bool.and_eq_true, decide_eq_true_eq] at hwf
  have b_d : d < 32 := hwf.1
  have b_a : a < 32 := hwf.2
  replace hw : 0xc8000000 + d * 2 ^ 21 + a * 2 ^ 16 = word := Option.some.inj hw
  have f26_6 : Sys2Proof.fld word 26 6 = 50 := Sys2Proof.Laws.Field.bits26w6_of_21w5_16w5 0xc8000000 d a word hw b_d b_a rfl rfl
  have f11_5 : Sys2Proof.fld word 11 5 = 0 := Sys2Proof.Laws.Field.bits11w5_of_21w5_16w5 0xc8000000 d a word hw
  have f0_11 : Sys2Proof.fld word 0 11 = 0 := Sys2Proof.Laws.Field.bits0w11_of_21w5_16w5 0xc8000000 d a word hw
  have f21_5 : Sys2Proof.fld word 21 5 = d := Sys2Proof.Laws.Field.bits21w5_of_21w5_16w5 0xc8000000 d a word hw b_d b_a rfl rfl
  have f16_5 : Sys2Proof.fld word 16 5 = a := Sys2Proof.Laws.Field.bits16w5_of_21w5_16w5 0xc8000000 d a word hw b_a rfl
  rw [major32 word f26_6]
  unfold decodeMajor32
  rw [f11_5, f0_11, f21_5, f16_5]; try rfl
theorem mgpush (a : Nat) (b : Nat) (k : Nat) : Statement (.mgpush a b k) := by
  intro hwf word hw
  replace hwf : (a < 32 && b < 32 && k < 8 : Bool) = true := hwf
  simp only [Bool.and_eq_true, decide_eq_true_eq] at hwf
  have b_a : a < 32 := hwf.1.1
  have b_b : b < 32 := hwf.1.2
  have b_k : k < 8 := hwf.2
  replace hw : 0xc8000800 + a * 2 ^ 21 + b * 2 ^ 16 + k * 2 ^ 8 = word := Option.some.inj hw
  have f26_6 : Sys2Proof.fld word 26 6 = 50 := Sys2Proof.Laws.Field.bits26w6_of_21w5_16w5_8w3 0xc8000800 a b k word hw b_a b_b b_k rfl rfl rfl
  have f11_5 : Sys2Proof.fld word 11 5 = 1 := Sys2Proof.Laws.Field.bits11w5_of_21w5_16w5_8w3 0xc8000800 a b k word hw b_k rfl
  have f0_8 : Sys2Proof.fld word 0 8 = 0 := Sys2Proof.Laws.Field.bits0w8_of_21w5_16w5_8w3 0xc8000800 a b k word hw
  have f21_5 : Sys2Proof.fld word 21 5 = a := Sys2Proof.Laws.Field.bits21w5_of_21w5_16w5_8w3 0xc8000800 a b k word hw b_a b_b b_k rfl rfl rfl
  have f16_5 : Sys2Proof.fld word 16 5 = b := Sys2Proof.Laws.Field.bits16w5_of_21w5_16w5_8w3 0xc8000800 a b k word hw b_b b_k rfl rfl
  have f8_3 : Sys2Proof.fld word 8 3 = k := Sys2Proof.Laws.Field.bits8w3_of_21w5_16w5_8w3 0xc8000800 a b k word hw b_k rfl
  rw [major32 word f26_6]
  unfold decodeMajor32
  rw [f11_5, f0_8, f21_5, f16_5, f8_3]; try rfl
theorem mgfin (d : Nat) (a : Nat) : Statement (.mgfin d a) := by
  intro hwf word hw
  replace hwf : (d < 32 && a < 32 : Bool) = true := hwf
  simp only [Bool.and_eq_true, decide_eq_true_eq] at hwf
  have b_d : d < 32 := hwf.1
  have b_a : a < 32 := hwf.2
  replace hw : 0xc8001000 + d * 2 ^ 21 + a * 2 ^ 16 = word := Option.some.inj hw
  have f26_6 : Sys2Proof.fld word 26 6 = 50 := Sys2Proof.Laws.Field.bits26w6_of_21w5_16w5 0xc8001000 d a word hw b_d b_a rfl rfl
  have f11_5 : Sys2Proof.fld word 11 5 = 2 := Sys2Proof.Laws.Field.bits11w5_of_21w5_16w5 0xc8001000 d a word hw
  have f0_11 : Sys2Proof.fld word 0 11 = 0 := Sys2Proof.Laws.Field.bits0w11_of_21w5_16w5 0xc8001000 d a word hw
  have f21_5 : Sys2Proof.fld word 21 5 = d := Sys2Proof.Laws.Field.bits21w5_of_21w5_16w5 0xc8001000 d a word hw b_d b_a rfl rfl
  have f16_5 : Sys2Proof.fld word 16 5 = a := Sys2Proof.Laws.Field.bits16w5_of_21w5_16w5 0xc8001000 d a word hw b_a rfl
  rw [major32 word f26_6]
  unfold decodeMajor32
  rw [f11_5, f0_11, f21_5, f16_5]; try rfl
theorem mgstat (d : Nat) (a : Nat) : Statement (.mgstat d a) := by
  intro hwf word hw
  replace hwf : (d < 32 && a < 32 : Bool) = true := hwf
  simp only [Bool.and_eq_true, decide_eq_true_eq] at hwf
  have b_d : d < 32 := hwf.1
  have b_a : a < 32 := hwf.2
  replace hw : 0xc8001800 + d * 2 ^ 21 + a * 2 ^ 16 = word := Option.some.inj hw
  have f26_6 : Sys2Proof.fld word 26 6 = 50 := Sys2Proof.Laws.Field.bits26w6_of_21w5_16w5 0xc8001800 d a word hw b_d b_a rfl rfl
  have f11_5 : Sys2Proof.fld word 11 5 = 3 := Sys2Proof.Laws.Field.bits11w5_of_21w5_16w5 0xc8001800 d a word hw
  have f0_11 : Sys2Proof.fld word 0 11 = 0 := Sys2Proof.Laws.Field.bits0w11_of_21w5_16w5 0xc8001800 d a word hw
  have f21_5 : Sys2Proof.fld word 21 5 = d := Sys2Proof.Laws.Field.bits21w5_of_21w5_16w5 0xc8001800 d a word hw b_d b_a rfl rfl
  have f16_5 : Sys2Proof.fld word 16 5 = a := Sys2Proof.Laws.Field.bits16w5_of_21w5_16w5 0xc8001800 d a word hw b_a rfl
  rw [major32 word f26_6]
  unfold decodeMajor32
  rw [f11_5, f0_11, f21_5, f16_5]; try rfl
theorem vpass (d : Nat) (c : Nat) (op : Nat) (start : Nat) (cnt : Nat) : Statement (.vpass d c op start cnt) := by
  intro hwf word hw
  replace hwf : (d < 32 && c < 32 && op < 16 && start < 16 && cnt < 8 : Bool) = true := hwf
  simp only [Bool.and_eq_true, decide_eq_true_eq] at hwf
  have b_d : d < 32 := hwf.1.1.1.1
  have b_c : c < 32 := hwf.1.1.1.2
  have b_op : op < 16 := hwf.1.1.2
  have b_start : start < 16 := hwf.1.2
  have b_cnt : cnt < 8 := hwf.2
  replace hw : 0xd0000000 + d * 2 ^ 21 + c * 2 ^ 16 + op * 2 ^ 12 + start * 2 ^ 4 + cnt * 2 ^ 1 = word := Option.some.inj hw
  have f26_6 : Sys2Proof.fld word 26 6 = 52 := Sys2Proof.Laws.Field.bits26w6_of_21w5_16w5_12w4_4w4_1w3 0xd0000000 d c op start cnt word hw b_d b_c b_op b_start b_cnt rfl rfl rfl rfl rfl
  have f8_3 : Sys2Proof.fld word 8 3 = 0 := Sys2Proof.Laws.Field.bits8w3_of_21w5_16w5_12w4_4w4_1w3 0xd0000000 d c op start cnt word hw b_start b_cnt rfl rfl
  have f0_1 : Sys2Proof.fld word 0 1 = 0 := Sys2Proof.Laws.Field.bits0w1_of_21w5_16w5_12w4_4w4_1w3 0xd0000000 d c op start cnt word hw
  have f11_1 : Sys2Proof.fld word 11 1 = 0 := Sys2Proof.Laws.Field.bits11w1_of_21w5_16w5_12w4_4w4_1w3 0xd0000000 d c op start cnt word hw b_start b_cnt rfl rfl
  have f21_5 : Sys2Proof.fld word 21 5 = d := Sys2Proof.Laws.Field.bits21w5_of_21w5_16w5_12w4_4w4_1w3 0xd0000000 d c op start cnt word hw b_d b_c b_op b_start b_cnt rfl rfl rfl rfl rfl
  have f16_5 : Sys2Proof.fld word 16 5 = c := Sys2Proof.Laws.Field.bits16w5_of_21w5_16w5_12w4_4w4_1w3 0xd0000000 d c op start cnt word hw b_c b_op b_start b_cnt rfl rfl rfl rfl
  have f12_4 : Sys2Proof.fld word 12 4 = op := Sys2Proof.Laws.Field.bits12w4_of_21w5_16w5_12w4_4w4_1w3 0xd0000000 d c op start cnt word hw b_op b_start b_cnt rfl rfl rfl
  have f4_4 : Sys2Proof.fld word 4 4 = start := Sys2Proof.Laws.Field.bits4w4_of_21w5_16w5_12w4_4w4_1w3 0xd0000000 d c op start cnt word hw b_start b_cnt rfl rfl
  have f1_3 : Sys2Proof.fld word 1 3 = cnt := Sys2Proof.Laws.Field.bits1w3_of_21w5_16w5_12w4_4w4_1w3 0xd0000000 d c op start cnt word hw b_cnt rfl
  rw [major34 word f26_6]
  unfold decodeMajor34
  rw [f8_3, f0_1, f11_1, f21_5, f16_5, f12_4, f4_4, f1_3]; try rfl
theorem vpassD (d : Nat) (c : Nat) (op : Nat) (start : Nat) (cnt : Nat) : Statement (.vpassD d c op start cnt) := by
  intro hwf word hw
  replace hwf : (d < 32 && c < 32 && op < 16 && start < 16 && cnt < 8 : Bool) = true := hwf
  simp only [Bool.and_eq_true, decide_eq_true_eq] at hwf
  have b_d : d < 32 := hwf.1.1.1.1
  have b_c : c < 32 := hwf.1.1.1.2
  have b_op : op < 16 := hwf.1.1.2
  have b_start : start < 16 := hwf.1.2
  have b_cnt : cnt < 8 := hwf.2
  replace hw : 0xd0000800 + d * 2 ^ 21 + c * 2 ^ 16 + op * 2 ^ 12 + start * 2 ^ 4 + cnt * 2 ^ 1 = word := Option.some.inj hw
  have f26_6 : Sys2Proof.fld word 26 6 = 52 := Sys2Proof.Laws.Field.bits26w6_of_21w5_16w5_12w4_4w4_1w3 0xd0000800 d c op start cnt word hw b_d b_c b_op b_start b_cnt rfl rfl rfl rfl rfl
  have f8_3 : Sys2Proof.fld word 8 3 = 0 := Sys2Proof.Laws.Field.bits8w3_of_21w5_16w5_12w4_4w4_1w3 0xd0000800 d c op start cnt word hw b_start b_cnt rfl rfl
  have f0_1 : Sys2Proof.fld word 0 1 = 0 := Sys2Proof.Laws.Field.bits0w1_of_21w5_16w5_12w4_4w4_1w3 0xd0000800 d c op start cnt word hw
  have f11_1 : Sys2Proof.fld word 11 1 = 1 := Sys2Proof.Laws.Field.bits11w1_of_21w5_16w5_12w4_4w4_1w3 0xd0000800 d c op start cnt word hw b_start b_cnt rfl rfl
  have f21_5 : Sys2Proof.fld word 21 5 = d := Sys2Proof.Laws.Field.bits21w5_of_21w5_16w5_12w4_4w4_1w3 0xd0000800 d c op start cnt word hw b_d b_c b_op b_start b_cnt rfl rfl rfl rfl rfl
  have f16_5 : Sys2Proof.fld word 16 5 = c := Sys2Proof.Laws.Field.bits16w5_of_21w5_16w5_12w4_4w4_1w3 0xd0000800 d c op start cnt word hw b_c b_op b_start b_cnt rfl rfl rfl rfl
  have f12_4 : Sys2Proof.fld word 12 4 = op := Sys2Proof.Laws.Field.bits12w4_of_21w5_16w5_12w4_4w4_1w3 0xd0000800 d c op start cnt word hw b_op b_start b_cnt rfl rfl rfl
  have f4_4 : Sys2Proof.fld word 4 4 = start := Sys2Proof.Laws.Field.bits4w4_of_21w5_16w5_12w4_4w4_1w3 0xd0000800 d c op start cnt word hw b_start b_cnt rfl rfl
  have f1_3 : Sys2Proof.fld word 1 3 = cnt := Sys2Proof.Laws.Field.bits1w3_of_21w5_16w5_12w4_4w4_1w3 0xd0000800 d c op start cnt word hw b_cnt rfl
  rw [major34 word f26_6]
  unfold decodeMajor34
  rw [f8_3, f0_1, f11_1, f21_5, f16_5, f12_4, f4_4, f1_3]; try rfl
theorem vredS (d : Nat) (a : Nat) (t : Nat) (k : Nat) : Statement (.vredS d a t k) := by
  intro hwf word hw
  replace hwf : (d < 32 && a < 32 && t < 32 && k < 8 : Bool) = true := hwf
  simp only [Bool.and_eq_true, decide_eq_true_eq] at hwf
  have b_d : d < 32 := hwf.1.1.1
  have b_a : a < 32 := hwf.1.1.2
  have b_t : t < 32 := hwf.1.2
  have b_k : k < 8 := hwf.2
  replace hw : 0xd4000000 + d * 2 ^ 21 + a * 2 ^ 16 + t * 2 ^ 11 + k * 2 ^ 8 = word := Option.some.inj hw
  have f26_6 : Sys2Proof.fld word 26 6 = 53 := Sys2Proof.Laws.Field.bits26w6_of_21w5_16w5_11w5_8w3 0xd4000000 d a t k word hw b_d b_a b_t b_k rfl rfl rfl rfl
  have f0_8 : Sys2Proof.fld word 0 8 = 0 := Sys2Proof.Laws.Field.bits0w8_of_21w5_16w5_11w5_8w3 0xd4000000 d a t k word hw
  have f21_5 : Sys2Proof.fld word 21 5 = d := Sys2Proof.Laws.Field.bits21w5_of_21w5_16w5_11w5_8w3 0xd4000000 d a t k word hw b_d b_a b_t b_k rfl rfl rfl rfl
  have f16_5 : Sys2Proof.fld word 16 5 = a := Sys2Proof.Laws.Field.bits16w5_of_21w5_16w5_11w5_8w3 0xd4000000 d a t k word hw b_a b_t b_k rfl rfl rfl
  have f11_5 : Sys2Proof.fld word 11 5 = t := Sys2Proof.Laws.Field.bits11w5_of_21w5_16w5_11w5_8w3 0xd4000000 d a t k word hw b_t b_k rfl rfl
  have f8_3 : Sys2Proof.fld word 8 3 = k := Sys2Proof.Laws.Field.bits8w3_of_21w5_16w5_11w5_8w3 0xd4000000 d a t k word hw b_k rfl
  rw [major35 word f26_6]
  unfold decodeMajor35
  rw [f0_8, f21_5, f16_5, f11_5, f8_3]; try rfl
theorem vredG (d : Nat) (a : Nat) (t : Nat) (k : Nat) : Statement (.vredG d a t k) := by
  intro hwf word hw
  replace hwf : (d < 32 && a < 32 && t < 32 && k < 8 : Bool) = true := hwf
  simp only [Bool.and_eq_true, decide_eq_true_eq] at hwf
  have b_d : d < 32 := hwf.1.1.1
  have b_a : a < 32 := hwf.1.1.2
  have b_t : t < 32 := hwf.1.2
  have b_k : k < 8 := hwf.2
  replace hw : 0xd4000001 + d * 2 ^ 21 + a * 2 ^ 16 + t * 2 ^ 11 + k * 2 ^ 8 = word := Option.some.inj hw
  have f26_6 : Sys2Proof.fld word 26 6 = 53 := Sys2Proof.Laws.Field.bits26w6_of_21w5_16w5_11w5_8w3 0xd4000001 d a t k word hw b_d b_a b_t b_k rfl rfl rfl rfl
  have f0_8 : Sys2Proof.fld word 0 8 = 1 := Sys2Proof.Laws.Field.bits0w8_of_21w5_16w5_11w5_8w3 0xd4000001 d a t k word hw
  have f21_5 : Sys2Proof.fld word 21 5 = d := Sys2Proof.Laws.Field.bits21w5_of_21w5_16w5_11w5_8w3 0xd4000001 d a t k word hw b_d b_a b_t b_k rfl rfl rfl rfl
  have f16_5 : Sys2Proof.fld word 16 5 = a := Sys2Proof.Laws.Field.bits16w5_of_21w5_16w5_11w5_8w3 0xd4000001 d a t k word hw b_a b_t b_k rfl rfl rfl
  have f11_5 : Sys2Proof.fld word 11 5 = t := Sys2Proof.Laws.Field.bits11w5_of_21w5_16w5_11w5_8w3 0xd4000001 d a t k word hw b_t b_k rfl rfl
  have f8_3 : Sys2Proof.fld word 8 3 = k := Sys2Proof.Laws.Field.bits8w3_of_21w5_16w5_11w5_8w3 0xd4000001 d a t k word hw b_k rfl
  rw [major35 word f26_6]
  unfold decodeMajor35
  rw [f0_8, f21_5, f16_5, f11_5, f8_3]; try rfl
theorem vredOp (d : Nat) (a : Nat) (op : Nat) (k : Nat) : Statement (.vredOp d a op k) := by
  intro hwf word hw
  replace hwf : (d < 32 && a < 32 && op < 32 && k < 8 : Bool) = true := hwf
  simp only [Bool.and_eq_true, decide_eq_true_eq] at hwf
  have b_d : d < 32 := hwf.1.1.1
  have b_a : a < 32 := hwf.1.1.2
  have b_op : op < 32 := hwf.1.2
  have b_k : k < 8 := hwf.2
  replace hw : 0xd4000002 + d * 2 ^ 21 + a * 2 ^ 16 + op * 2 ^ 11 + k * 2 ^ 8 = word := Option.some.inj hw
  have f26_6 : Sys2Proof.fld word 26 6 = 53 := Sys2Proof.Laws.Field.bits26w6_of_21w5_16w5_11w5_8w3 0xd4000002 d a op k word hw b_d b_a b_op b_k rfl rfl rfl rfl
  have f0_8 : Sys2Proof.fld word 0 8 = 2 := Sys2Proof.Laws.Field.bits0w8_of_21w5_16w5_11w5_8w3 0xd4000002 d a op k word hw
  have f21_5 : Sys2Proof.fld word 21 5 = d := Sys2Proof.Laws.Field.bits21w5_of_21w5_16w5_11w5_8w3 0xd4000002 d a op k word hw b_d b_a b_op b_k rfl rfl rfl rfl
  have f16_5 : Sys2Proof.fld word 16 5 = a := Sys2Proof.Laws.Field.bits16w5_of_21w5_16w5_11w5_8w3 0xd4000002 d a op k word hw b_a b_op b_k rfl rfl rfl
  have f11_5 : Sys2Proof.fld word 11 5 = op := Sys2Proof.Laws.Field.bits11w5_of_21w5_16w5_11w5_8w3 0xd4000002 d a op k word hw b_op b_k rfl rfl
  have f8_3 : Sys2Proof.fld word 8 3 = k := Sys2Proof.Laws.Field.bits8w3_of_21w5_16w5_11w5_8w3 0xd4000002 d a op k word hw b_k rfl
  rw [major35 word f26_6]
  unfold decodeMajor35
  rw [f0_8, f21_5, f16_5, f11_5, f8_3]; try rfl
theorem vscanS (d : Nat) (a : Nat) (t : Nat) (k : Nat) : Statement (.vscanS d a t k) := by
  intro hwf word hw
  replace hwf : (d < 32 && a < 32 && t < 32 && k < 8 : Bool) = true := hwf
  simp only [Bool.and_eq_true, decide_eq_true_eq] at hwf
  have b_d : d < 32 := hwf.1.1.1
  have b_a : a < 32 := hwf.1.1.2
  have b_t : t < 32 := hwf.1.2
  have b_k : k < 8 := hwf.2
  replace hw : 0xd4000003 + d * 2 ^ 21 + a * 2 ^ 16 + t * 2 ^ 11 + k * 2 ^ 8 = word := Option.some.inj hw
  have f26_6 : Sys2Proof.fld word 26 6 = 53 := Sys2Proof.Laws.Field.bits26w6_of_21w5_16w5_11w5_8w3 0xd4000003 d a t k word hw b_d b_a b_t b_k rfl rfl rfl rfl
  have f0_8 : Sys2Proof.fld word 0 8 = 3 := Sys2Proof.Laws.Field.bits0w8_of_21w5_16w5_11w5_8w3 0xd4000003 d a t k word hw
  have f21_5 : Sys2Proof.fld word 21 5 = d := Sys2Proof.Laws.Field.bits21w5_of_21w5_16w5_11w5_8w3 0xd4000003 d a t k word hw b_d b_a b_t b_k rfl rfl rfl rfl
  have f16_5 : Sys2Proof.fld word 16 5 = a := Sys2Proof.Laws.Field.bits16w5_of_21w5_16w5_11w5_8w3 0xd4000003 d a t k word hw b_a b_t b_k rfl rfl rfl
  have f11_5 : Sys2Proof.fld word 11 5 = t := Sys2Proof.Laws.Field.bits11w5_of_21w5_16w5_11w5_8w3 0xd4000003 d a t k word hw b_t b_k rfl rfl
  have f8_3 : Sys2Proof.fld word 8 3 = k := Sys2Proof.Laws.Field.bits8w3_of_21w5_16w5_11w5_8w3 0xd4000003 d a t k word hw b_k rfl
  rw [major35 word f26_6]
  unfold decodeMajor35
  rw [f0_8, f21_5, f16_5, f11_5, f8_3]; try rfl
theorem vscanG (d : Nat) (a : Nat) (t : Nat) (k : Nat) : Statement (.vscanG d a t k) := by
  intro hwf word hw
  replace hwf : (d < 32 && a < 32 && t < 32 && k < 8 : Bool) = true := hwf
  simp only [Bool.and_eq_true, decide_eq_true_eq] at hwf
  have b_d : d < 32 := hwf.1.1.1
  have b_a : a < 32 := hwf.1.1.2
  have b_t : t < 32 := hwf.1.2
  have b_k : k < 8 := hwf.2
  replace hw : 0xd4000004 + d * 2 ^ 21 + a * 2 ^ 16 + t * 2 ^ 11 + k * 2 ^ 8 = word := Option.some.inj hw
  have f26_6 : Sys2Proof.fld word 26 6 = 53 := Sys2Proof.Laws.Field.bits26w6_of_21w5_16w5_11w5_8w3 0xd4000004 d a t k word hw b_d b_a b_t b_k rfl rfl rfl rfl
  have f0_8 : Sys2Proof.fld word 0 8 = 4 := Sys2Proof.Laws.Field.bits0w8_of_21w5_16w5_11w5_8w3 0xd4000004 d a t k word hw
  have f21_5 : Sys2Proof.fld word 21 5 = d := Sys2Proof.Laws.Field.bits21w5_of_21w5_16w5_11w5_8w3 0xd4000004 d a t k word hw b_d b_a b_t b_k rfl rfl rfl rfl
  have f16_5 : Sys2Proof.fld word 16 5 = a := Sys2Proof.Laws.Field.bits16w5_of_21w5_16w5_11w5_8w3 0xd4000004 d a t k word hw b_a b_t b_k rfl rfl rfl
  have f11_5 : Sys2Proof.fld word 11 5 = t := Sys2Proof.Laws.Field.bits11w5_of_21w5_16w5_11w5_8w3 0xd4000004 d a t k word hw b_t b_k rfl rfl
  have f8_3 : Sys2Proof.fld word 8 3 = k := Sys2Proof.Laws.Field.bits8w3_of_21w5_16w5_11w5_8w3 0xd4000004 d a t k word hw b_k rfl
  rw [major35 word f26_6]
  unfold decodeMajor35
  rw [f0_8, f21_5, f16_5, f11_5, f8_3]; try rfl
theorem vscanOp (d : Nat) (a : Nat) (op : Nat) (k : Nat) : Statement (.vscanOp d a op k) := by
  intro hwf word hw
  replace hwf : (d < 32 && a < 32 && op < 32 && k < 8 : Bool) = true := hwf
  simp only [Bool.and_eq_true, decide_eq_true_eq] at hwf
  have b_d : d < 32 := hwf.1.1.1
  have b_a : a < 32 := hwf.1.1.2
  have b_op : op < 32 := hwf.1.2
  have b_k : k < 8 := hwf.2
  replace hw : 0xd4000005 + d * 2 ^ 21 + a * 2 ^ 16 + op * 2 ^ 11 + k * 2 ^ 8 = word := Option.some.inj hw
  have f26_6 : Sys2Proof.fld word 26 6 = 53 := Sys2Proof.Laws.Field.bits26w6_of_21w5_16w5_11w5_8w3 0xd4000005 d a op k word hw b_d b_a b_op b_k rfl rfl rfl rfl
  have f0_8 : Sys2Proof.fld word 0 8 = 5 := Sys2Proof.Laws.Field.bits0w8_of_21w5_16w5_11w5_8w3 0xd4000005 d a op k word hw
  have f21_5 : Sys2Proof.fld word 21 5 = d := Sys2Proof.Laws.Field.bits21w5_of_21w5_16w5_11w5_8w3 0xd4000005 d a op k word hw b_d b_a b_op b_k rfl rfl rfl rfl
  have f16_5 : Sys2Proof.fld word 16 5 = a := Sys2Proof.Laws.Field.bits16w5_of_21w5_16w5_11w5_8w3 0xd4000005 d a op k word hw b_a b_op b_k rfl rfl rfl
  have f11_5 : Sys2Proof.fld word 11 5 = op := Sys2Proof.Laws.Field.bits11w5_of_21w5_16w5_11w5_8w3 0xd4000005 d a op k word hw b_op b_k rfl rfl
  have f8_3 : Sys2Proof.fld word 8 3 = k := Sys2Proof.Laws.Field.bits8w3_of_21w5_16w5_11w5_8w3 0xd4000005 d a op k word hw b_k rfl
  rw [major35 word f26_6]
  unfold decodeMajor35
  rw [f0_8, f21_5, f16_5, f11_5, f8_3]; try rfl
theorem vcompress (d : Nat) (a : Nat) (c : Nat) : Statement (.vcompress d a c) := by
  intro hwf word hw
  replace hwf : (d < 32 && a < 32 && c < 8 : Bool) = true := hwf
  simp only [Bool.and_eq_true, decide_eq_true_eq] at hwf
  have b_d : d < 32 := hwf.1.1
  have b_a : a < 32 := hwf.1.2
  have b_c : c < 8 := hwf.2
  replace hw : 0xd4000006 + d * 2 ^ 21 + a * 2 ^ 16 + c * 2 ^ 8 = word := Option.some.inj hw
  have f26_6 : Sys2Proof.fld word 26 6 = 53 := Sys2Proof.Laws.Field.bits26w6_of_21w5_16w5_8w3 0xd4000006 d a c word hw b_d b_a b_c rfl rfl rfl
  have f0_8 : Sys2Proof.fld word 0 8 = 6 := Sys2Proof.Laws.Field.bits0w8_of_21w5_16w5_8w3 0xd4000006 d a c word hw
  have f11_5 : Sys2Proof.fld word 11 5 = 0 := Sys2Proof.Laws.Field.bits11w5_of_21w5_16w5_8w3 0xd4000006 d a c word hw b_c rfl
  have f21_5 : Sys2Proof.fld word 21 5 = d := Sys2Proof.Laws.Field.bits21w5_of_21w5_16w5_8w3 0xd4000006 d a c word hw b_d b_a b_c rfl rfl rfl
  have f16_5 : Sys2Proof.fld word 16 5 = a := Sys2Proof.Laws.Field.bits16w5_of_21w5_16w5_8w3 0xd4000006 d a c word hw b_a b_c rfl rfl
  have f8_3 : Sys2Proof.fld word 8 3 = c := Sys2Proof.Laws.Field.bits8w3_of_21w5_16w5_8w3 0xd4000006 d a c word hw b_c rfl
  rw [major35 word f26_6]
  unfold decodeMajor35
  rw [f0_8, f11_5, f21_5, f16_5, f8_3]; try rfl
theorem vmaxi (d : Nat) (a : Nat) (f : Nat) (c : Nat) : Statement (.vmaxi d a f c) := by
  intro hwf word hw
  replace hwf : (d < 32 && a < 32 && f < 32 && c < 8 : Bool) = true := hwf
  simp only [Bool.and_eq_true, decide_eq_true_eq] at hwf
  have b_d : d < 32 := hwf.1.1.1
  have b_a : a < 32 := hwf.1.1.2
  have b_f : f < 32 := hwf.1.2
  have b_c : c < 8 := hwf.2
  replace hw : 0xd4000007 + d * 2 ^ 21 + a * 2 ^ 16 + f * 2 ^ 11 + c * 2 ^ 8 = word := Option.some.inj hw
  have f26_6 : Sys2Proof.fld word 26 6 = 53 := Sys2Proof.Laws.Field.bits26w6_of_21w5_16w5_11w5_8w3 0xd4000007 d a f c word hw b_d b_a b_f b_c rfl rfl rfl rfl
  have f0_8 : Sys2Proof.fld word 0 8 = 7 := Sys2Proof.Laws.Field.bits0w8_of_21w5_16w5_11w5_8w3 0xd4000007 d a f c word hw
  have f21_5 : Sys2Proof.fld word 21 5 = d := Sys2Proof.Laws.Field.bits21w5_of_21w5_16w5_11w5_8w3 0xd4000007 d a f c word hw b_d b_a b_f b_c rfl rfl rfl rfl
  have f16_5 : Sys2Proof.fld word 16 5 = a := Sys2Proof.Laws.Field.bits16w5_of_21w5_16w5_11w5_8w3 0xd4000007 d a f c word hw b_a b_f b_c rfl rfl rfl
  have f11_5 : Sys2Proof.fld word 11 5 = f := Sys2Proof.Laws.Field.bits11w5_of_21w5_16w5_11w5_8w3 0xd4000007 d a f c word hw b_f b_c rfl rfl
  have f8_3 : Sys2Proof.fld word 8 3 = c := Sys2Proof.Laws.Field.bits8w3_of_21w5_16w5_11w5_8w3 0xd4000007 d a f c word hw b_c rfl
  rw [major35 word f26_6]
  unfold decodeMajor35
  rw [f0_8, f21_5, f16_5, f11_5, f8_3]; try rfl
theorem vmaxiBf16 (d : Nat) (a : Nat) (f : Nat) (c : Nat) : Statement (.vmaxiBf16 d a f c) := by
  intro hwf word hw
  replace hwf : (d < 32 && a < 32 && f < 32 && c < 8 : Bool) = true := hwf
  simp only [Bool.and_eq_true, decide_eq_true_eq] at hwf
  have b_d : d < 32 := hwf.1.1.1
  have b_a : a < 32 := hwf.1.1.2
  have b_f : f < 32 := hwf.1.2
  have b_c : c < 8 := hwf.2
  replace hw : 0xd4000087 + d * 2 ^ 21 + a * 2 ^ 16 + f * 2 ^ 11 + c * 2 ^ 8 = word := Option.some.inj hw
  have f26_6 : Sys2Proof.fld word 26 6 = 53 := Sys2Proof.Laws.Field.bits26w6_of_21w5_16w5_11w5_8w3 0xd4000087 d a f c word hw b_d b_a b_f b_c rfl rfl rfl rfl
  have f0_8 : Sys2Proof.fld word 0 8 = 135 := Sys2Proof.Laws.Field.bits0w8_of_21w5_16w5_11w5_8w3 0xd4000087 d a f c word hw
  have f21_5 : Sys2Proof.fld word 21 5 = d := Sys2Proof.Laws.Field.bits21w5_of_21w5_16w5_11w5_8w3 0xd4000087 d a f c word hw b_d b_a b_f b_c rfl rfl rfl rfl
  have f16_5 : Sys2Proof.fld word 16 5 = a := Sys2Proof.Laws.Field.bits16w5_of_21w5_16w5_11w5_8w3 0xd4000087 d a f c word hw b_a b_f b_c rfl rfl rfl
  have f11_5 : Sys2Proof.fld word 11 5 = f := Sys2Proof.Laws.Field.bits11w5_of_21w5_16w5_11w5_8w3 0xd4000087 d a f c word hw b_f b_c rfl rfl
  have f8_3 : Sys2Proof.fld word 8 3 = c := Sys2Proof.Laws.Field.bits8w3_of_21w5_16w5_11w5_8w3 0xd4000087 d a f c word hw b_c rfl
  rw [major35 word f26_6]
  unfold decodeMajor35
  rw [f0_8, f21_5, f16_5, f11_5, f8_3]; try rfl
theorem vsort (d : Nat) (a : Nat) (k : Nat) : Statement (.vsort d a k) := by
  intro hwf word hw
  replace hwf : (d < 32 && a < 32 && k < 8 : Bool) = true := hwf
  simp only [Bool.and_eq_true, decide_eq_true_eq] at hwf
  have b_d : d < 32 := hwf.1.1
  have b_a : a < 32 := hwf.1.2
  have b_k : k < 8 := hwf.2
  replace hw : 0xd4000008 + d * 2 ^ 21 + a * 2 ^ 16 + k * 2 ^ 8 = word := Option.some.inj hw
  have f26_6 : Sys2Proof.fld word 26 6 = 53 := Sys2Proof.Laws.Field.bits26w6_of_21w5_16w5_8w3 0xd4000008 d a k word hw b_d b_a b_k rfl rfl rfl
  have f0_8 : Sys2Proof.fld word 0 8 = 8 := Sys2Proof.Laws.Field.bits0w8_of_21w5_16w5_8w3 0xd4000008 d a k word hw
  have f11_5 : Sys2Proof.fld word 11 5 = 0 := Sys2Proof.Laws.Field.bits11w5_of_21w5_16w5_8w3 0xd4000008 d a k word hw b_k rfl
  have f21_5 : Sys2Proof.fld word 21 5 = d := Sys2Proof.Laws.Field.bits21w5_of_21w5_16w5_8w3 0xd4000008 d a k word hw b_d b_a b_k rfl rfl rfl
  have f16_5 : Sys2Proof.fld word 16 5 = a := Sys2Proof.Laws.Field.bits16w5_of_21w5_16w5_8w3 0xd4000008 d a k word hw b_a b_k rfl rfl
  have f8_3 : Sys2Proof.fld word 8 3 = k := Sys2Proof.Laws.Field.bits8w3_of_21w5_16w5_8w3 0xd4000008 d a k word hw b_k rfl
  rw [major35 word f26_6]
  unfold decodeMajor35
  rw [f0_8, f11_5, f21_5, f16_5, f8_3]; try rfl
theorem vsortD (d : Nat) (a : Nat) (k : Nat) : Statement (.vsortD d a k) := by
  intro hwf word hw
  replace hwf : (d < 32 && a < 32 && k < 8 : Bool) = true := hwf
  simp only [Bool.and_eq_true, decide_eq_true_eq] at hwf
  have b_d : d < 32 := hwf.1.1
  have b_a : a < 32 := hwf.1.2
  have b_k : k < 8 := hwf.2
  replace hw : 0xd4000009 + d * 2 ^ 21 + a * 2 ^ 16 + k * 2 ^ 8 = word := Option.some.inj hw
  have f26_6 : Sys2Proof.fld word 26 6 = 53 := Sys2Proof.Laws.Field.bits26w6_of_21w5_16w5_8w3 0xd4000009 d a k word hw b_d b_a b_k rfl rfl rfl
  have f0_8 : Sys2Proof.fld word 0 8 = 9 := Sys2Proof.Laws.Field.bits0w8_of_21w5_16w5_8w3 0xd4000009 d a k word hw
  have f11_5 : Sys2Proof.fld word 11 5 = 0 := Sys2Proof.Laws.Field.bits11w5_of_21w5_16w5_8w3 0xd4000009 d a k word hw b_k rfl
  have f21_5 : Sys2Proof.fld word 21 5 = d := Sys2Proof.Laws.Field.bits21w5_of_21w5_16w5_8w3 0xd4000009 d a k word hw b_d b_a b_k rfl rfl rfl
  have f16_5 : Sys2Proof.fld word 16 5 = a := Sys2Proof.Laws.Field.bits16w5_of_21w5_16w5_8w3 0xd4000009 d a k word hw b_a b_k rfl rfl
  have f8_3 : Sys2Proof.fld word 8 3 = k := Sys2Proof.Laws.Field.bits8w3_of_21w5_16w5_8w3 0xd4000009 d a k word hw b_k rfl
  rw [major35 word f26_6]
  unfold decodeMajor35
  rw [f0_8, f11_5, f21_5, f16_5, f8_3]; try rfl
theorem vroute (d : Nat) (a : Nat) : Statement (.vroute d a) := by
  intro hwf word hw
  replace hwf : (d < 32 && a < 32 : Bool) = true := hwf
  simp only [Bool.and_eq_true, decide_eq_true_eq] at hwf
  have b_d : d < 32 := hwf.1
  have b_a : a < 32 := hwf.2
  replace hw : 0xd400000a + d * 2 ^ 21 + a * 2 ^ 16 = word := Option.some.inj hw
  have f26_6 : Sys2Proof.fld word 26 6 = 53 := Sys2Proof.Laws.Field.bits26w6_of_21w5_16w5 0xd400000a d a word hw b_d b_a rfl rfl
  have f0_8 : Sys2Proof.fld word 0 8 = 10 := Sys2Proof.Laws.Field.bits0w8_of_21w5_16w5 0xd400000a d a word hw
  have f8_8 : Sys2Proof.fld word 8 8 = 0 := Sys2Proof.Laws.Field.bits8w8_of_21w5_16w5 0xd400000a d a word hw
  have f21_5 : Sys2Proof.fld word 21 5 = d := Sys2Proof.Laws.Field.bits21w5_of_21w5_16w5 0xd400000a d a word hw b_d b_a rfl rfl
  have f16_5 : Sys2Proof.fld word 16 5 = a := Sys2Proof.Laws.Field.bits16w5_of_21w5_16w5 0xd400000a d a word hw b_a rfl
  rw [major35 word f26_6]
  unfold decodeMajor35
  rw [f0_8, f8_8, f21_5, f16_5]; try rfl
theorem spadd (d : Nat) (a : Nat) (b : Nat) : Statement (.spadd d a b) := by
  intro hwf word hw
  replace hwf : (d < 8 && a < 8 && b < 8 : Bool) = true := hwf
  simp only [Bool.and_eq_true, decide_eq_true_eq] at hwf
  have b_d : d < 8 := hwf.1.1
  have b_a : a < 8 := hwf.1.2
  have b_b : b < 8 := hwf.2
  replace hw : 0xd8000000 + d * 2 ^ 21 + a * 2 ^ 16 + b * 2 ^ 11 = word := Option.some.inj hw
  have f26_6 : Sys2Proof.fld word 26 6 = 54 := Sys2Proof.Laws.Field.bits26w6_of_21w3_16w3_11w3 0xd8000000 d a b word hw b_d b_a b_b rfl rfl rfl
  have f24_2 : Sys2Proof.fld word 24 2 = 0 := Sys2Proof.Laws.Field.bits24w2_of_21w3_16w3_11w3 0xd8000000 d a b word hw b_d b_a b_b rfl rfl rfl
  have f0_8 : Sys2Proof.fld word 0 8 = 0 := Sys2Proof.Laws.Field.bits0w8_of_21w3_16w3_11w3 0xd8000000 d a b word hw
  have f19_2 : Sys2Proof.fld word 19 2 = 0 := Sys2Proof.Laws.Field.bits19w2_of_21w3_16w3_11w3 0xd8000000 d a b word hw b_a b_b rfl rfl
  have f14_2 : Sys2Proof.fld word 14 2 = 0 := Sys2Proof.Laws.Field.bits14w2_of_21w3_16w3_11w3 0xd8000000 d a b word hw b_b rfl
  have f8_3 : Sys2Proof.fld word 8 3 = 0 := Sys2Proof.Laws.Field.bits8w3_of_21w3_16w3_11w3 0xd8000000 d a b word hw
  have f21_3 : Sys2Proof.fld word 21 3 = d := Sys2Proof.Laws.Field.bits21w3_of_21w3_16w3_11w3 0xd8000000 d a b word hw b_d b_a b_b rfl rfl rfl
  have f16_3 : Sys2Proof.fld word 16 3 = a := Sys2Proof.Laws.Field.bits16w3_of_21w3_16w3_11w3 0xd8000000 d a b word hw b_a b_b rfl rfl
  have f11_3 : Sys2Proof.fld word 11 3 = b := Sys2Proof.Laws.Field.bits11w3_of_21w3_16w3_11w3 0xd8000000 d a b word hw b_b rfl
  rw [major36 word f26_6]
  unfold decodeMajor36
  rw [f24_2, f0_8, f19_2, f14_2, f8_3, f21_3, f16_3, f11_3]; try rfl
theorem spmul (d : Nat) (a : Nat) (b : Nat) : Statement (.spmul d a b) := by
  intro hwf word hw
  replace hwf : (d < 8 && a < 8 && b < 8 : Bool) = true := hwf
  simp only [Bool.and_eq_true, decide_eq_true_eq] at hwf
  have b_d : d < 8 := hwf.1.1
  have b_a : a < 8 := hwf.1.2
  have b_b : b < 8 := hwf.2
  replace hw : 0xd8000001 + d * 2 ^ 21 + a * 2 ^ 16 + b * 2 ^ 11 = word := Option.some.inj hw
  have f26_6 : Sys2Proof.fld word 26 6 = 54 := Sys2Proof.Laws.Field.bits26w6_of_21w3_16w3_11w3 0xd8000001 d a b word hw b_d b_a b_b rfl rfl rfl
  have f24_2 : Sys2Proof.fld word 24 2 = 0 := Sys2Proof.Laws.Field.bits24w2_of_21w3_16w3_11w3 0xd8000001 d a b word hw b_d b_a b_b rfl rfl rfl
  have f0_8 : Sys2Proof.fld word 0 8 = 1 := Sys2Proof.Laws.Field.bits0w8_of_21w3_16w3_11w3 0xd8000001 d a b word hw
  have f19_2 : Sys2Proof.fld word 19 2 = 0 := Sys2Proof.Laws.Field.bits19w2_of_21w3_16w3_11w3 0xd8000001 d a b word hw b_a b_b rfl rfl
  have f14_2 : Sys2Proof.fld word 14 2 = 0 := Sys2Proof.Laws.Field.bits14w2_of_21w3_16w3_11w3 0xd8000001 d a b word hw b_b rfl
  have f8_3 : Sys2Proof.fld word 8 3 = 0 := Sys2Proof.Laws.Field.bits8w3_of_21w3_16w3_11w3 0xd8000001 d a b word hw
  have f21_3 : Sys2Proof.fld word 21 3 = d := Sys2Proof.Laws.Field.bits21w3_of_21w3_16w3_11w3 0xd8000001 d a b word hw b_d b_a b_b rfl rfl rfl
  have f16_3 : Sys2Proof.fld word 16 3 = a := Sys2Proof.Laws.Field.bits16w3_of_21w3_16w3_11w3 0xd8000001 d a b word hw b_a b_b rfl rfl
  have f11_3 : Sys2Proof.fld word 11 3 = b := Sys2Proof.Laws.Field.bits11w3_of_21w3_16w3_11w3 0xd8000001 d a b word hw b_b rfl
  rw [major36 word f26_6]
  unfold decodeMajor36
  rw [f24_2, f0_8, f19_2, f14_2, f8_3, f21_3, f16_3, f11_3]; try rfl
theorem splen (d : Nat) (a : Nat) : Statement (.splen d a) := by
  intro hwf word hw
  replace hwf : (d < 8 && a < 32 : Bool) = true := hwf
  simp only [Bool.and_eq_true, decide_eq_true_eq] at hwf
  have b_d : d < 8 := hwf.1
  have b_a : a < 32 := hwf.2
  replace hw : 0xd8000002 + d * 2 ^ 21 + a * 2 ^ 16 = word := Option.some.inj hw
  have f26_6 : Sys2Proof.fld word 26 6 = 54 := Sys2Proof.Laws.Field.bits26w6_of_21w3_16w5 0xd8000002 d a word hw b_d b_a rfl rfl
  have f24_2 : Sys2Proof.fld word 24 2 = 0 := Sys2Proof.Laws.Field.bits24w2_of_21w3_16w5 0xd8000002 d a word hw b_d b_a rfl rfl
  have f0_8 : Sys2Proof.fld word 0 8 = 2 := Sys2Proof.Laws.Field.bits0w8_of_21w3_16w5 0xd8000002 d a word hw
  have f8_8 : Sys2Proof.fld word 8 8 = 0 := Sys2Proof.Laws.Field.bits8w8_of_21w3_16w5 0xd8000002 d a word hw
  have f21_3 : Sys2Proof.fld word 21 3 = d := Sys2Proof.Laws.Field.bits21w3_of_21w3_16w5 0xd8000002 d a word hw b_d b_a rfl rfl
  have f16_5 : Sys2Proof.fld word 16 5 = a := Sys2Proof.Laws.Field.bits16w5_of_21w3_16w5 0xd8000002 d a word hw b_a rfl
  rw [major36 word f26_6]
  unfold decodeMajor36
  rw [f24_2, f0_8, f8_8, f21_3, f16_5]; try rfl
theorem opld (n : Nat) (a : Nat) : Statement (.opld n a) := by
  intro hwf word hw
  replace hwf : (n < 8 && a < 32 : Bool) = true := hwf
  simp only [Bool.and_eq_true, decide_eq_true_eq] at hwf
  have b_n : n < 8 := hwf.1
  have b_a : a < 32 := hwf.2
  replace hw : 0xdc000000 + n * 2 ^ 21 + a * 2 ^ 16 = word := Option.some.inj hw
  have f26_6 : Sys2Proof.fld word 26 6 = 55 := Sys2Proof.Laws.Field.bits26w6_of_21w3_16w5 0xdc000000 n a word hw b_n b_a rfl rfl
  have f11_5 : Sys2Proof.fld word 11 5 = 0 := Sys2Proof.Laws.Field.bits11w5_of_21w3_16w5 0xdc000000 n a word hw
  have f24_2 : Sys2Proof.fld word 24 2 = 0 := Sys2Proof.Laws.Field.bits24w2_of_21w3_16w5 0xdc000000 n a word hw b_n b_a rfl rfl
  have f0_11 : Sys2Proof.fld word 0 11 = 0 := Sys2Proof.Laws.Field.bits0w11_of_21w3_16w5 0xdc000000 n a word hw
  have f21_3 : Sys2Proof.fld word 21 3 = n := Sys2Proof.Laws.Field.bits21w3_of_21w3_16w5 0xdc000000 n a word hw b_n b_a rfl rfl
  have f16_5 : Sys2Proof.fld word 16 5 = a := Sys2Proof.Laws.Field.bits16w5_of_21w3_16w5 0xdc000000 n a word hw b_a rfl
  rw [major37 word f26_6]
  unfold decodeMajor37
  rw [f11_5, f24_2, f0_11, f21_3, f16_5]; try rfl
theorem opclr (n : Nat) : Statement (.opclr n) := by
  intro hwf word hw
  replace hwf : (n < 8 : Bool) = true := hwf
  simp only [decide_eq_true_eq] at hwf
  have b_n : n < 8 := hwf
  replace hw : 0xdc000800 + n * 2 ^ 21 = word := Option.some.inj hw
  have f26_6 : Sys2Proof.fld word 26 6 = 55 := Sys2Proof.Laws.Field.bits26w6_of_21w3 0xdc000800 n word hw b_n rfl
  have f11_5 : Sys2Proof.fld word 11 5 = 1 := Sys2Proof.Laws.Field.bits11w5_of_21w3 0xdc000800 n word hw
  have f24_2 : Sys2Proof.fld word 24 2 = 0 := Sys2Proof.Laws.Field.bits24w2_of_21w3 0xdc000800 n word hw b_n rfl
  have f16_5 : Sys2Proof.fld word 16 5 = 0 := Sys2Proof.Laws.Field.bits16w5_of_21w3 0xdc000800 n word hw
  have f0_11 : Sys2Proof.fld word 0 11 = 0 := Sys2Proof.Laws.Field.bits0w11_of_21w3 0xdc000800 n word hw
  have f21_3 : Sys2Proof.fld word 21 3 = n := Sys2Proof.Laws.Field.bits21w3_of_21w3 0xdc000800 n word hw b_n rfl
  rw [major37 word f26_6]
  unfold decodeMajor37
  rw [f11_5, f24_2, f16_5, f0_11, f21_3]; try rfl
theorem topaS (t : Nat) (a : Nat) (b : Nat) (k : Nat) (y : Nat) : Statement (.topaS t a b k y) := by
  intro hwf word hw
  replace hwf : (t < 8 && a < 32 && b < 32 && k < 8 && y < 6 : Bool) = true := hwf
  simp only [Bool.and_eq_true, decide_eq_true_eq] at hwf
  have b_t : t < 8 := hwf.1.1.1.1
  have b_a : a < 32 := hwf.1.1.1.2
  have b_b : b < 32 := hwf.1.1.2
  have b_k : k < 8 := hwf.1.2
  have b_y : y < 8 := by omega
  replace hw : 0xe0000000 + t * 2 ^ 21 + a * 2 ^ 16 + b * 2 ^ 11 + k * 2 ^ 8 + y * 2 ^ 0 = word := Option.some.inj hw
  have f26_6 : Sys2Proof.fld word 26 6 = 56 := Sys2Proof.Laws.Field.bits26w6_of_21w3_16w5_11w5_8w3_0w3 0xe0000000 t a b k y word hw b_t b_a b_b b_k b_y rfl rfl rfl rfl rfl
  have f24_2 : Sys2Proof.fld word 24 2 = 0 := Sys2Proof.Laws.Field.bits24w2_of_21w3_16w5_11w5_8w3_0w3 0xe0000000 t a b k y word hw b_t b_a b_b b_k b_y rfl rfl rfl rfl rfl
  have f0_4 : Sys2Proof.fld word 0 4 = 0 + y * 2 ^ 0 := Sys2Proof.Laws.Field.bits0w4_of_21w3_16w5_11w5_8w3_0w3 0xe0000000 t a b k y word hw b_y rfl
  have f4_1 : Sys2Proof.fld word 4 1 = 0 := Sys2Proof.Laws.Field.bits4w1_of_21w3_16w5_11w5_8w3_0w3 0xe0000000 t a b k y word hw b_y rfl
  have f5_3 : Sys2Proof.fld word 5 3 = 0 := Sys2Proof.Laws.Field.bits5w3_of_21w3_16w5_11w5_8w3_0w3 0xe0000000 t a b k y word hw b_y rfl
  have f21_3 : Sys2Proof.fld word 21 3 = t := Sys2Proof.Laws.Field.bits21w3_of_21w3_16w5_11w5_8w3_0w3 0xe0000000 t a b k y word hw b_t b_a b_b b_k b_y rfl rfl rfl rfl rfl
  have f16_5 : Sys2Proof.fld word 16 5 = a := Sys2Proof.Laws.Field.bits16w5_of_21w3_16w5_11w5_8w3_0w3 0xe0000000 t a b k y word hw b_a b_b b_k b_y rfl rfl rfl rfl
  have f11_5 : Sys2Proof.fld word 11 5 = b := Sys2Proof.Laws.Field.bits11w5_of_21w3_16w5_11w5_8w3_0w3 0xe0000000 t a b k y word hw b_b b_k b_y rfl rfl rfl
  have f8_3 : Sys2Proof.fld word 8 3 = k := Sys2Proof.Laws.Field.bits8w3_of_21w3_16w5_11w5_8w3_0w3 0xe0000000 t a b k y word hw b_k b_y rfl rfl
  rw [major38 word f26_6]
  unfold decodeMajor38
  rw [f24_2, f0_4, f4_1, f5_3, f21_3, f16_5, f11_5, f8_3]
  obtain _ | _ | _ | _ | _ | _ | y := y <;> first | rfl | omega
theorem topaG (t : Nat) (a : Nat) (b : Nat) (k : Nat) (y : Nat) : Statement (.topaG t a b k y) := by
  intro hwf word hw
  replace hwf : (t < 8 && a < 32 && b < 32 && k < 8 && y < 6 : Bool) = true := hwf
  simp only [Bool.and_eq_true, decide_eq_true_eq] at hwf
  have b_t : t < 8 := hwf.1.1.1.1
  have b_a : a < 32 := hwf.1.1.1.2
  have b_b : b < 32 := hwf.1.1.2
  have b_k : k < 8 := hwf.1.2
  have b_y : y < 8 := by omega
  replace hw : 0xe0000010 + t * 2 ^ 21 + a * 2 ^ 16 + b * 2 ^ 11 + k * 2 ^ 8 + y * 2 ^ 0 = word := Option.some.inj hw
  have f26_6 : Sys2Proof.fld word 26 6 = 56 := Sys2Proof.Laws.Field.bits26w6_of_21w3_16w5_11w5_8w3_0w3 0xe0000010 t a b k y word hw b_t b_a b_b b_k b_y rfl rfl rfl rfl rfl
  have f24_2 : Sys2Proof.fld word 24 2 = 0 := Sys2Proof.Laws.Field.bits24w2_of_21w3_16w5_11w5_8w3_0w3 0xe0000010 t a b k y word hw b_t b_a b_b b_k b_y rfl rfl rfl rfl rfl
  have f0_4 : Sys2Proof.fld word 0 4 = 0 + y * 2 ^ 0 := Sys2Proof.Laws.Field.bits0w4_of_21w3_16w5_11w5_8w3_0w3 0xe0000010 t a b k y word hw b_y rfl
  have f4_1 : Sys2Proof.fld word 4 1 = 1 := Sys2Proof.Laws.Field.bits4w1_of_21w3_16w5_11w5_8w3_0w3 0xe0000010 t a b k y word hw b_y rfl
  have f5_3 : Sys2Proof.fld word 5 3 = 0 := Sys2Proof.Laws.Field.bits5w3_of_21w3_16w5_11w5_8w3_0w3 0xe0000010 t a b k y word hw b_y rfl
  have f21_3 : Sys2Proof.fld word 21 3 = t := Sys2Proof.Laws.Field.bits21w3_of_21w3_16w5_11w5_8w3_0w3 0xe0000010 t a b k y word hw b_t b_a b_b b_k b_y rfl rfl rfl rfl rfl
  have f16_5 : Sys2Proof.fld word 16 5 = a := Sys2Proof.Laws.Field.bits16w5_of_21w3_16w5_11w5_8w3_0w3 0xe0000010 t a b k y word hw b_a b_b b_k b_y rfl rfl rfl rfl
  have f11_5 : Sys2Proof.fld word 11 5 = b := Sys2Proof.Laws.Field.bits11w5_of_21w3_16w5_11w5_8w3_0w3 0xe0000010 t a b k y word hw b_b b_k b_y rfl rfl rfl
  have f8_3 : Sys2Proof.fld word 8 3 = k := Sys2Proof.Laws.Field.bits8w3_of_21w3_16w5_11w5_8w3_0w3 0xe0000010 t a b k y word hw b_k b_y rfl rfl
  rw [major38 word f26_6]
  unfold decodeMajor38
  rw [f24_2, f0_4, f4_1, f5_3, f21_3, f16_5, f11_5, f8_3]
  obtain _ | _ | _ | _ | _ | _ | y := y <;> first | rfl | omega
theorem tileon (n : Nat) : Statement (.tileon n) := by
  intro hwf word hw
  replace hwf : (n < 2048 : Bool) = true := hwf
  simp only [decide_eq_true_eq] at hwf
  have b_n : n < 2048 := hwf
  replace hw : 0xe4000000 + n * 2 ^ 0 = word := Option.some.inj hw
  have f26_6 : Sys2Proof.fld word 26 6 = 57 := Sys2Proof.Laws.Field.bits26w6_of_0w11 0xe4000000 n word hw b_n rfl
  have f11_5 : Sys2Proof.fld word 11 5 = 0 := Sys2Proof.Laws.Field.bits11w5_of_0w11 0xe4000000 n word hw b_n rfl
  have f16_10 : Sys2Proof.fld word 16 10 = 0 := Sys2Proof.Laws.Field.bits16w10_of_0w11 0xe4000000 n word hw b_n rfl
  have f0_11 : Sys2Proof.fld word 0 11 = n := Sys2Proof.Laws.Field.bits0w11_of_0w11 0xe4000000 n word hw b_n rfl
  rw [major39 word f26_6]
  unfold decodeMajor39
  rw [f11_5, f16_10, f0_11]; try rfl
theorem tileoff : Statement (.tileoff) := by
  intro hwf word hw
  replace hw : 0xe4000800 = word := Option.some.inj hw
  have f26_6 : Sys2Proof.fld word 26 6 = 57 := Sys2Proof.Laws.Field.bits26w6_of_none 0xe4000800 word hw
  have f11_5 : Sys2Proof.fld word 11 5 = 1 := Sys2Proof.Laws.Field.bits11w5_of_none 0xe4000800 word hw
  have f16_10 : Sys2Proof.fld word 16 10 = 0 := Sys2Proof.Laws.Field.bits16w10_of_none 0xe4000800 word hw
  have f0_11 : Sys2Proof.fld word 0 11 = 0 := Sys2Proof.Laws.Field.bits0w11_of_none 0xe4000800 word hw
  rw [major39 word f26_6]
  unfold decodeMajor39
  rw [f11_5, f16_10, f0_11]; try rfl
theorem tzero (t : Nat) : Statement (.tzero t) := by
  intro hwf word hw
  replace hwf : (t < 8 : Bool) = true := hwf
  simp only [decide_eq_true_eq] at hwf
  have b_t : t < 8 := hwf
  replace hw : 0xe4001000 + t * 2 ^ 21 = word := Option.some.inj hw
  have f26_6 : Sys2Proof.fld word 26 6 = 57 := Sys2Proof.Laws.Field.bits26w6_of_21w3 0xe4001000 t word hw b_t rfl
  have f11_5 : Sys2Proof.fld word 11 5 = 2 := Sys2Proof.Laws.Field.bits11w5_of_21w3 0xe4001000 t word hw
  have f24_2 : Sys2Proof.fld word 24 2 = 0 := Sys2Proof.Laws.Field.bits24w2_of_21w3 0xe4001000 t word hw b_t rfl
  have f16_5 : Sys2Proof.fld word 16 5 = 0 := Sys2Proof.Laws.Field.bits16w5_of_21w3 0xe4001000 t word hw
  have f0_11 : Sys2Proof.fld word 0 11 = 0 := Sys2Proof.Laws.Field.bits0w11_of_21w3 0xe4001000 t word hw
  have f21_3 : Sys2Proof.fld word 21 3 = t := Sys2Proof.Laws.Field.bits21w3_of_21w3 0xe4001000 t word hw b_t rfl
  rw [major39 word f26_6]
  unfold decodeMajor39
  rw [f11_5, f24_2, f16_5, f0_11, f21_3]; try rfl
theorem tld (t : Nat) (a : Nat) (b : Nat) (h : Hint) : Statement (.tld t a b h) := by
  intro hwf word hw
  replace hwf : (t < 8 && a < 32 && b < 32 : Bool) = true := hwf
  simp only [Bool.and_eq_true, decide_eq_true_eq] at hwf
  have b_t : t < 8 := hwf.1.1
  have b_a : a < 32 := hwf.1.2
  have b_b : b < 32 := hwf.2
  replace hw : 0xe8000000 + t * 2 ^ 21 + a * 2 ^ 16 + b * 2 ^ 11 + h.code * 2 ^ 0 = word := Option.some.inj hw
  have f26_6 : Sys2Proof.fld word 26 6 = 58 := Sys2Proof.Laws.Field.bits26w6_of_21w3_16w5_11w5_0w2 0xe8000000 t a b h.code word hw b_t b_a b_b (hintCode_lt h) rfl rfl rfl rfl
  have f24_2 : Sys2Proof.fld word 24 2 = 0 := Sys2Proof.Laws.Field.bits24w2_of_21w3_16w5_11w5_0w2 0xe8000000 t a b h.code word hw b_t b_a b_b (hintCode_lt h) rfl rfl rfl rfl
  have f2_1 : Sys2Proof.fld word 2 1 = 0 := Sys2Proof.Laws.Field.bits2w1_of_21w3_16w5_11w5_0w2 0xe8000000 t a b h.code word hw (hintCode_lt h) rfl
  have f3_8 : Sys2Proof.fld word 3 8 = 0 := Sys2Proof.Laws.Field.bits3w8_of_21w3_16w5_11w5_0w2 0xe8000000 t a b h.code word hw (hintCode_lt h) rfl
  have f21_3 : Sys2Proof.fld word 21 3 = t := Sys2Proof.Laws.Field.bits21w3_of_21w3_16w5_11w5_0w2 0xe8000000 t a b h.code word hw b_t b_a b_b (hintCode_lt h) rfl rfl rfl rfl
  have f16_5 : Sys2Proof.fld word 16 5 = a := Sys2Proof.Laws.Field.bits16w5_of_21w3_16w5_11w5_0w2 0xe8000000 t a b h.code word hw b_a b_b (hintCode_lt h) rfl rfl rfl
  have f11_5 : Sys2Proof.fld word 11 5 = b := Sys2Proof.Laws.Field.bits11w5_of_21w3_16w5_11w5_0w2 0xe8000000 t a b h.code word hw b_b (hintCode_lt h) rfl rfl
  have f0_2 : Sys2Proof.fld word 0 2 = h.code := Sys2Proof.Laws.Field.bits0w2_of_21w3_16w5_11w5_0w2 0xe8000000 t a b h.code word hw (hintCode_lt h) rfl
  rw [major3A word f26_6]
  unfold decodeMajor3A
  rw [f24_2, f2_1, f3_8, f21_3, f16_5, f11_5, f0_2, hintCode h]; try rfl
theorem tst (t : Nat) (a : Nat) (b : Nat) (h : Hint) : Statement (.tst t a b h) := by
  intro hwf word hw
  replace hwf : (t < 8 && a < 32 && b < 32 : Bool) = true := hwf
  simp only [Bool.and_eq_true, decide_eq_true_eq] at hwf
  have b_t : t < 8 := hwf.1.1
  have b_a : a < 32 := hwf.1.2
  have b_b : b < 32 := hwf.2
  replace hw : 0xe8000004 + t * 2 ^ 21 + a * 2 ^ 16 + b * 2 ^ 11 + h.code * 2 ^ 0 = word := Option.some.inj hw
  have f26_6 : Sys2Proof.fld word 26 6 = 58 := Sys2Proof.Laws.Field.bits26w6_of_21w3_16w5_11w5_0w2 0xe8000004 t a b h.code word hw b_t b_a b_b (hintCode_lt h) rfl rfl rfl rfl
  have f24_2 : Sys2Proof.fld word 24 2 = 0 := Sys2Proof.Laws.Field.bits24w2_of_21w3_16w5_11w5_0w2 0xe8000004 t a b h.code word hw b_t b_a b_b (hintCode_lt h) rfl rfl rfl rfl
  have f2_1 : Sys2Proof.fld word 2 1 = 1 := Sys2Proof.Laws.Field.bits2w1_of_21w3_16w5_11w5_0w2 0xe8000004 t a b h.code word hw (hintCode_lt h) rfl
  have f3_8 : Sys2Proof.fld word 3 8 = 0 := Sys2Proof.Laws.Field.bits3w8_of_21w3_16w5_11w5_0w2 0xe8000004 t a b h.code word hw (hintCode_lt h) rfl
  have f21_3 : Sys2Proof.fld word 21 3 = t := Sys2Proof.Laws.Field.bits21w3_of_21w3_16w5_11w5_0w2 0xe8000004 t a b h.code word hw b_t b_a b_b (hintCode_lt h) rfl rfl rfl rfl
  have f16_5 : Sys2Proof.fld word 16 5 = a := Sys2Proof.Laws.Field.bits16w5_of_21w3_16w5_11w5_0w2 0xe8000004 t a b h.code word hw b_a b_b (hintCode_lt h) rfl rfl rfl
  have f11_5 : Sys2Proof.fld word 11 5 = b := Sys2Proof.Laws.Field.bits11w5_of_21w3_16w5_11w5_0w2 0xe8000004 t a b h.code word hw b_b (hintCode_lt h) rfl rfl
  have f0_2 : Sys2Proof.fld word 0 2 = h.code := Sys2Proof.Laws.Field.bits0w2_of_21w3_16w5_11w5_0w2 0xe8000004 t a b h.code word hw (hintCode_lt h) rfl
  rw [major3A word f26_6]
  unfold decodeMajor3A
  rw [f24_2, f2_1, f3_8, f21_3, f16_5, f11_5, f0_2, hintCode h]; try rfl
theorem tmvr (d : Nat) (t : Nat) (a : Nat) (k : Nat) : Statement (.tmvr d t a k) := by
  intro hwf word hw
  replace hwf : (d < 32 && t < 8 && a < 32 && k < 8 : Bool) = true := hwf
  simp only [Bool.and_eq_true, decide_eq_true_eq] at hwf
  have b_d : d < 32 := hwf.1.1.1
  have b_t : t < 8 := hwf.1.1.2
  have b_a : a < 32 := hwf.1.2
  have b_k : k < 8 := hwf.2
  replace hw : 0xec000000 + d * 2 ^ 21 + t * 2 ^ 16 + a * 2 ^ 11 + k * 2 ^ 8 = word := Option.some.inj hw
  have f26_6 : Sys2Proof.fld word 26 6 = 59 := Sys2Proof.Laws.Field.bits26w6_of_21w5_16w3_11w5_8w3 0xec000000 d t a k word hw b_d b_t b_a b_k rfl rfl rfl rfl
  have f0_8 : Sys2Proof.fld word 0 8 = 0 := Sys2Proof.Laws.Field.bits0w8_of_21w5_16w3_11w5_8w3 0xec000000 d t a k word hw
  have f19_2 : Sys2Proof.fld word 19 2 = 0 := Sys2Proof.Laws.Field.bits19w2_of_21w5_16w3_11w5_8w3 0xec000000 d t a k word hw b_t b_a b_k rfl rfl rfl
  have f21_5 : Sys2Proof.fld word 21 5 = d := Sys2Proof.Laws.Field.bits21w5_of_21w5_16w3_11w5_8w3 0xec000000 d t a k word hw b_d b_t b_a b_k rfl rfl rfl rfl
  have f16_3 : Sys2Proof.fld word 16 3 = t := Sys2Proof.Laws.Field.bits16w3_of_21w5_16w3_11w5_8w3 0xec000000 d t a k word hw b_t b_a b_k rfl rfl rfl
  have f11_5 : Sys2Proof.fld word 11 5 = a := Sys2Proof.Laws.Field.bits11w5_of_21w5_16w3_11w5_8w3 0xec000000 d t a k word hw b_a b_k rfl rfl
  have f8_3 : Sys2Proof.fld word 8 3 = k := Sys2Proof.Laws.Field.bits8w3_of_21w5_16w3_11w5_8w3 0xec000000 d t a k word hw b_k rfl
  rw [major3B word f26_6]
  unfold decodeMajor3B
  rw [f0_8, f19_2, f21_5, f16_3, f11_5, f8_3]; try rfl
theorem tmvc (d : Nat) (t : Nat) (a : Nat) (k : Nat) : Statement (.tmvc d t a k) := by
  intro hwf word hw
  replace hwf : (d < 32 && t < 8 && a < 32 && k < 8 : Bool) = true := hwf
  simp only [Bool.and_eq_true, decide_eq_true_eq] at hwf
  have b_d : d < 32 := hwf.1.1.1
  have b_t : t < 8 := hwf.1.1.2
  have b_a : a < 32 := hwf.1.2
  have b_k : k < 8 := hwf.2
  replace hw : 0xec000001 + d * 2 ^ 21 + t * 2 ^ 16 + a * 2 ^ 11 + k * 2 ^ 8 = word := Option.some.inj hw
  have f26_6 : Sys2Proof.fld word 26 6 = 59 := Sys2Proof.Laws.Field.bits26w6_of_21w5_16w3_11w5_8w3 0xec000001 d t a k word hw b_d b_t b_a b_k rfl rfl rfl rfl
  have f0_8 : Sys2Proof.fld word 0 8 = 1 := Sys2Proof.Laws.Field.bits0w8_of_21w5_16w3_11w5_8w3 0xec000001 d t a k word hw
  have f19_2 : Sys2Proof.fld word 19 2 = 0 := Sys2Proof.Laws.Field.bits19w2_of_21w5_16w3_11w5_8w3 0xec000001 d t a k word hw b_t b_a b_k rfl rfl rfl
  have f21_5 : Sys2Proof.fld word 21 5 = d := Sys2Proof.Laws.Field.bits21w5_of_21w5_16w3_11w5_8w3 0xec000001 d t a k word hw b_d b_t b_a b_k rfl rfl rfl rfl
  have f16_3 : Sys2Proof.fld word 16 3 = t := Sys2Proof.Laws.Field.bits16w3_of_21w5_16w3_11w5_8w3 0xec000001 d t a k word hw b_t b_a b_k rfl rfl rfl
  have f11_5 : Sys2Proof.fld word 11 5 = a := Sys2Proof.Laws.Field.bits11w5_of_21w5_16w3_11w5_8w3 0xec000001 d t a k word hw b_a b_k rfl rfl
  have f8_3 : Sys2Proof.fld word 8 3 = k := Sys2Proof.Laws.Field.bits8w3_of_21w5_16w3_11w5_8w3 0xec000001 d t a k word hw b_k rfl
  rw [major3B word f26_6]
  unfold decodeMajor3B
  rw [f0_8, f19_2, f21_5, f16_3, f11_5, f8_3]; try rfl
theorem tvmr (t : Nat) (vs : Nat) (a : Nat) : Statement (.tvmr t vs a) := by
  intro hwf word hw
  replace hwf : (t < 8 && vs < 32 && a < 32 : Bool) = true := hwf
  simp only [Bool.and_eq_true, decide_eq_true_eq] at hwf
  have b_t : t < 8 := hwf.1.1
  have b_vs : vs < 32 := hwf.1.2
  have b_a : a < 32 := hwf.2
  replace hw : 0xec000002 + t * 2 ^ 21 + vs * 2 ^ 16 + a * 2 ^ 11 = word := Option.some.inj hw
  have f26_6 : Sys2Proof.fld word 26 6 = 59 := Sys2Proof.Laws.Field.bits26w6_of_21w3_16w5_11w5 0xec000002 t vs a word hw b_t b_vs b_a rfl rfl rfl
  have f0_8 : Sys2Proof.fld word 0 8 = 2 := Sys2Proof.Laws.Field.bits0w8_of_21w3_16w5_11w5 0xec000002 t vs a word hw
  have f24_2 : Sys2Proof.fld word 24 2 = 0 := Sys2Proof.Laws.Field.bits24w2_of_21w3_16w5_11w5 0xec000002 t vs a word hw b_t b_vs b_a rfl rfl rfl
  have f8_3 : Sys2Proof.fld word 8 3 = 0 := Sys2Proof.Laws.Field.bits8w3_of_21w3_16w5_11w5 0xec000002 t vs a word hw
  have f21_3 : Sys2Proof.fld word 21 3 = t := Sys2Proof.Laws.Field.bits21w3_of_21w3_16w5_11w5 0xec000002 t vs a word hw b_t b_vs b_a rfl rfl rfl
  have f16_5 : Sys2Proof.fld word 16 5 = vs := Sys2Proof.Laws.Field.bits16w5_of_21w3_16w5_11w5 0xec000002 t vs a word hw b_vs b_a rfl rfl
  have f11_5 : Sys2Proof.fld word 11 5 = a := Sys2Proof.Laws.Field.bits11w5_of_21w3_16w5_11w5 0xec000002 t vs a word hw b_a rfl
  rw [major3B word f26_6]
  unfold decodeMajor3B
  rw [f0_8, f24_2, f8_3, f21_3, f16_5, f11_5]; try rfl
theorem tvmc (t : Nat) (vs : Nat) (a : Nat) : Statement (.tvmc t vs a) := by
  intro hwf word hw
  replace hwf : (t < 8 && vs < 32 && a < 32 : Bool) = true := hwf
  simp only [Bool.and_eq_true, decide_eq_true_eq] at hwf
  have b_t : t < 8 := hwf.1.1
  have b_vs : vs < 32 := hwf.1.2
  have b_a : a < 32 := hwf.2
  replace hw : 0xec000003 + t * 2 ^ 21 + vs * 2 ^ 16 + a * 2 ^ 11 = word := Option.some.inj hw
  have f26_6 : Sys2Proof.fld word 26 6 = 59 := Sys2Proof.Laws.Field.bits26w6_of_21w3_16w5_11w5 0xec000003 t vs a word hw b_t b_vs b_a rfl rfl rfl
  have f0_8 : Sys2Proof.fld word 0 8 = 3 := Sys2Proof.Laws.Field.bits0w8_of_21w3_16w5_11w5 0xec000003 t vs a word hw
  have f24_2 : Sys2Proof.fld word 24 2 = 0 := Sys2Proof.Laws.Field.bits24w2_of_21w3_16w5_11w5 0xec000003 t vs a word hw b_t b_vs b_a rfl rfl rfl
  have f8_3 : Sys2Proof.fld word 8 3 = 0 := Sys2Proof.Laws.Field.bits8w3_of_21w3_16w5_11w5 0xec000003 t vs a word hw
  have f21_3 : Sys2Proof.fld word 21 3 = t := Sys2Proof.Laws.Field.bits21w3_of_21w3_16w5_11w5 0xec000003 t vs a word hw b_t b_vs b_a rfl rfl rfl
  have f16_5 : Sys2Proof.fld word 16 5 = vs := Sys2Proof.Laws.Field.bits16w5_of_21w3_16w5_11w5 0xec000003 t vs a word hw b_vs b_a rfl rfl
  have f11_5 : Sys2Proof.fld word 11 5 = a := Sys2Proof.Laws.Field.bits11w5_of_21w3_16w5_11w5 0xec000003 t vs a word hw b_a rfl
  rw [major3B word f26_6]
  unfold decodeMajor3B
  rw [f0_8, f24_2, f8_3, f21_3, f16_5, f11_5]; try rfl
theorem illegalInstruction (reserved : Bool) (w : BitVec 32) : Statement (.illegalInstruction reserved w) := fun _ _ e => noWord e
theorem instructionFetchFault : Statement (.instructionFetchFault) := fun _ _ e => noWord e
theorem idleEarlyEnd (b : Nat) (n : Nat) : Statement (.idleEarlyEnd b n) := fun _ _ e => noWord e
theorem flushComplete : Statement (.flushComplete) := fun _ _ e => noWord e
theorem restoreComplete (b : Nat) (n : Nat) : Statement (.restoreComplete b n) := fun _ _ e => noWord e
theorem nop : Statement .nop := by
  intro _ word hw
  replace hw : 0xf0000000 = word := Option.some.inj hw
  subst hw; rfl
theorem hpf (a : Nat) (h : Hint) (off : BitVec 12) : Statement (.hpf a h off) := by
  intro hwf word hw
  replace hwf : (a < 32 : Bool) = true := hwf
  replace hw : 0xf0200000 + a * 2 ^ 16 + h.code * 2 ^ 12 + off.toNat * 2 ^ 0 = word := Option.some.inj hw
  have b_h := hintCode_lt h
  have b_off := off.isLt
  have ha : a < 32 := by simpa using hwf
  have f26_6 : Sys2Proof.fld word 26 6 = 60 := by unfold Sys2Proof.fld; omega
  have ne : ¬ word = 0xF0000000 := by omega
  have f21_5 : Sys2Proof.fld word 21 5 = 1 := by unfold Sys2Proof.fld; omega
  have f14_2 : Sys2Proof.fld word 14 2 = 0 := by unfold Sys2Proof.fld; omega
  have f16_5 : Sys2Proof.fld word 16 5 = a := by unfold Sys2Proof.fld; omega
  have f12_2 : Sys2Proof.fld word 12 2 = h.code := by unfold Sys2Proof.fld; omega
  have f0_12 : Sys2Proof.fld word 0 12 = off.toNat := by unfold Sys2Proof.fld; omega
  rw [major3C word f26_6]
  simp [decodeMajor3C, ne, f21_5, f14_2, f16_5, f12_2, f0_12, hintCode, BitVec.ofNat_toNat, BitVec.setWidth_eq]
theorem hintNoOp (w : BitVec 32) : Statement (.hintNoOp w) := by
  intro hwf word hw
  replace hwf : hintWord w.toNat = true := hwf
  replace hw : w.toNat = word := Option.some.inj hw
  subst hw
  simp only [hintWord, Bool.and_eq_true, beq_iff_eq, bne_iff_ne, Bool.not_eq_true', Bool.and_eq_false_iff,
    beq_eq_false_iff_ne] at hwf
  have b_w := w.isLt
  have f26_6 : Sys2Proof.fld w.toNat 26 6 = 60 := by unfold Sys2Proof.fld; omega
  have other : ¬ (Sys2Proof.fld w.toNat 21 5 = 1 ∧ Sys2Proof.fld w.toNat 14 2 = 0) := by unfold Sys2Proof.fld; omega
  rw [major3C _ f26_6]
  simp only [decodeMajor3C, hwf.1.2, other, if_false, BitVec.ofNat_toNat, BitVec.setWidth_eq]

end Sys2Proof.Laws.RoundTrip
end

