-- ==== Sys2Proof/Tests/Slice0.lean ====
section
/-! SUPPORT. Tests: ill-formed terms that the checks refuse, words written out from the encodings of the specification, states that meet the
hypotheses of the statements, and single steps with results worked out from the specification by hand. -/

set_option Elab.async false

namespace Sys2Proof.Tests
open Sys2Proof Sys2Proof.Machine Sys2Proof.Claims

/-! ### Well-formedness -/

/-- A well-formed flit. -/
def flit0 : Flit := { payload := zeros 224 }

theorem test_wf_accepts : ∀ i ∈ ([
    .readRequest 31 flit0, .flitCrcFailure 31, .scheduledSlotStart 31 127, .patrolScrub 4294967295, .signalApply 4095,
     .startatReached 4095 4294967295, .hartSave 1023 3, .retentionEnter 1023 3, .walkComplete 1023 4095 63 72057594037927935,
     .changeoverEnd 1023, .barrierRelease 4095 4294967295 65535, .streamFetch 1023 3 7, .copyComplete 63 0, .add 31 31 31, .clz 31 31,
     .lhi 31 0, .st 31 31 .b1 .normal 0, .beq 31 31 0, .bkany 7 0, .fma 31 31 31 31 .fp64, .fcvt 31 31 15 15, .csrr 31 255, .csrw 31 255,
     .join 31, .gear 31, .waitt 31, .bara 31 7, .fence 0 7, .vaddVv 31 31 31 7, .vaddVx 31 31 31 7, .vaddVi 31 31 0 7,
     .vfaddVf 31 31 31 7 false, .vfcvt 31 31 31 7 31, .vgumbel 31 7, .vrngSeed 31, .vdotS 31 31 31 7 5, .vadc 31 31 31 7, .vaddk 7 31 31 7,
     .vcmpEq 7 31 31 7, .vmvVx 31 31, .kand 7 7 7, .knot 7 7, .kshl 7 7 31, .kpop 31 7, .kld 7 31, .kst 7 31,
     .vst 31 31 7 false false .b1 .normal, .vsts 31 31 31 7 false false .b1 .normal, .sbind 31 31 7, .sunbind 7, .scopy 31 31 3,
     .smcast 31 31 3, .xwait 31 3, .mgpush 31 31 7, .vpass 31 31 15 15 7, .vredS 31 31 31 7, .vredOp 31 31 31 7, .vcompress 31 31 7,
     .vmaxi 31 31 31 7, .opld 7 31, .topaS 7 31 31 7 5, .tileon 2047, .tzero 7, .tld 7 31 31 .normal, .tmvr 31 7 31 7, .tvmr 7 31 31,
     .hintNoOp 0xF0400000#32] : List Instr), i.wf = true := by decide +kernel

theorem test_wf_refuses_1 : ∀ i ∈ ([
    .readRequest 32 flit0, .flitCrcFailure 32, .scheduledSlotStart 32 0, .scheduledSlotStart 0 128, .patrolScrub 4294967296,
     .signalApply 4096, .startatReached 4096 0, .startatReached 0 4294967296, .hartSave 1024 0, .hartSave 0 4, .retentionEnter 1024 0,
     .retentionEnter 0 4, .walkComplete 1024 0 0 0, .walkComplete 0 4096 0 0, .walkComplete 0 0 64 0, .walkComplete 0 0 0 72057594037927936,
     .changeoverEnd 1024, .barrierRelease 4096 0 0, .barrierRelease 0 4294967296 0, .barrierRelease 0 0 65536, .streamFetch 1024 0 0,
     .streamFetch 0 4 0, .streamFetch 0 0 8, .copyComplete 64 0, .add 32 0 0, .add 0 32 0, .add 0 0 32, .clz 32 0, .clz 0 32, .lhi 32 0,
     .st 32 0 .b1 .normal 0, .st 0 32 .b1 .normal 0, .beq 32 0 0, .beq 0 32 0, .bkany 8 0, .fma 32 0 0 0 .fp64, .fma 0 32 0 0 .fp64,
     .fma 0 0 32 0 .fp64, .fma 0 0 0 32 .fp64, .fcvt 32 0 0 0, .fcvt 0 32 0 0, .fcvt 0 0 16 0, .fcvt 0 0 0 16, .csrr 32 0, .csrr 0 256,
     .csrw 32 0, .csrw 0 256, .join 32, .gear 32, .waitt 32, .bara 32 0, .bara 0 8, .fence 0 8, .vaddVv 32 0 0 0, .vaddVv 0 32 0 0,
     .vaddVv 0 0 32 0, .vaddVv 0 0 0 8, .vaddVx 32 0 0 0, .vaddVx 0 32 0 0, .vaddVx 0 0 32 0] : List Instr), i.wf = false := by decide +kernel

theorem test_wf_refuses_2 : ∀ i ∈ ([
    .vaddVx 0 0 0 8, .vaddVi 32 0 0 0, .vaddVi 0 32 0 0, .vaddVi 0 0 0 8, .vfaddVf 32 0 0 0 false, .vfaddVf 0 32 0 0 false,
     .vfaddVf 0 0 32 0 false, .vfaddVf 0 0 0 8 false, .vfcvt 32 0 0 0 0, .vfcvt 0 32 0 0 0, .vfcvt 0 0 32 0 0, .vfcvt 0 0 0 8 0,
     .vfcvt 0 0 0 0 32, .vgumbel 32 0, .vgumbel 0 8, .vrngSeed 32, .vdotS 32 0 0 0 0, .vdotS 0 32 0 0 0, .vdotS 0 0 32 0 0, .vdotS 0 0 0 8 0,
     .vdotS 0 0 0 0 6, .vadc 32 0 0 0, .vadc 0 32 0 0, .vadc 0 0 32 0, .vadc 0 0 0 8, .vaddk 8 0 0 0, .vaddk 0 32 0 0, .vaddk 0 0 32 0,
     .vaddk 0 0 0 8, .vcmpEq 8 0 0 0, .vcmpEq 0 32 0 0, .vcmpEq 0 0 32 0, .vcmpEq 0 0 0 8, .vmvVx 32 0, .vmvVx 0 32, .kand 8 0 0, .kand 0 8 0,
     .kand 0 0 8, .knot 8 0, .knot 0 8, .kshl 8 0 0, .kshl 0 8 0, .kshl 0 0 32, .kpop 32 0, .kpop 0 8, .kld 8 0, .kld 0 32, .kst 8 0,
     .kst 0 32, .vst 32 0 0 false false .b1 .normal, .vst 0 32 0 false false .b1 .normal, .vst 0 0 8 false false .b1 .normal,
     .vsts 32 0 0 0 false false .b1 .normal, .vsts 0 32 0 0 false false .b1 .normal, .vsts 0 0 32 0 false false .b1 .normal,
     .vsts 0 0 0 8 false false .b1 .normal, .sbind 32 0 0, .sbind 0 32 0, .sbind 0 0 8, .sunbind 8] : List Instr), i.wf = false := by decide +kernel

theorem test_wf_refuses_3 : ∀ i ∈ ([
    .scopy 32 0 0, .scopy 0 32 0, .scopy 0 0 4, .smcast 32 0 0, .smcast 0 32 0, .smcast 0 0 4, .xwait 32 0, .xwait 0 4, .mgpush 32 0 0,
     .mgpush 0 32 0, .mgpush 0 0 8, .vpass 32 0 0 0 0, .vpass 0 32 0 0 0, .vpass 0 0 16 0 0, .vpass 0 0 0 16 0, .vpass 0 0 0 0 8,
     .vredS 32 0 0 0, .vredS 0 32 0 0, .vredS 0 0 32 0, .vredS 0 0 0 8, .vredOp 32 0 0 0, .vredOp 0 32 0 0, .vredOp 0 0 32 0, .vredOp 0 0 0 8,
     .vcompress 32 0 0, .vcompress 0 32 0, .vcompress 0 0 8, .vmaxi 32 0 0 0, .vmaxi 0 32 0 0, .vmaxi 0 0 32 0, .vmaxi 0 0 0 8, .opld 8 0,
     .opld 0 32, .topaS 8 0 0 0 0, .topaS 0 32 0 0 0, .topaS 0 0 32 0 0, .topaS 0 0 0 8 0, .topaS 0 0 0 0 6, .tileon 2048, .tzero 8,
     .tld 8 0 0 .normal, .tld 0 32 0 .normal, .tld 0 0 32 .normal, .tmvr 32 0 0 0, .tmvr 0 8 0 0, .tmvr 0 0 32 0, .tmvr 0 0 0 8, .tvmr 8 0 0,
     .tvmr 0 32 0, .tvmr 0 0 32, .hintNoOp 0xF0000000#32, .hintNoOp 0xF0200000#32, .hintNoOp 0x00000000#32] : List Instr), i.wf = false := by decide +kernel

theorem test_wf_flits : ∀ f ∈ ([{ flit0 with cls := 4 }, { flit0 with kind := 64 }, { flit0 with dst := 4096 }, { flit0 with src := 4096 },
    { flit0 with vmid := 64 }, { flit0 with ctx := 4096 }, { flit0 with pa := 2 ^ 52 }, { flit0 with len := 224 }, { flit0 with seq := 256 },
    { flit0 with reserved := 64 }, { flit0 with payload := zeros 223 }, { flit0 with ackseq := 256 }, { flit0 with credits := [0, 0, 0] },
    { flit0 with credits := [0, 0, 0, 65536] }] : List Flit), (Instr.readRequest 0 f).wf = false := by decide +kernel

theorem test_wf_units : ∀ u ∈ ([.course 64, .brick 1024, .chan 128, .port 32] : List UnitId),
    (Instr.unitReady u).wf = false ∧ (Instr.unitSelfTestFail u).wf = false := by decide +kernel

/-! ### Words written out from the encodings of the specification -/

/-- A word decodes to an instruction, and the instruction's word is that word. -/
def Is (w : Nat) (i : Instr) : Prop := decodeWord w = .ok i ∧ encode i = some w

theorem test_words_integer : Is 0x04A63800 (.add 5 6 7) ∧ Is 0x08A6FFFC (.addi 5 6 0xFFFC#16) ∧ Is 0x10A56789 (.ori 5 5 0x6789#16) ∧
    Is 0x20A60083 (.srai 5 6 3#6) ∧ Is 0x24A12345 (.lhi 5 0x12345#21) := by
  refine ⟨?_, ?_, ?_, ?_, ?_⟩ <;> exact ⟨rfl, rfl⟩
theorem test_words_scalar_memory : Is 0x40A6C002 (.ld 5 6 .b8 .normal 2#10) ∧ Is 0x44A683FE (.st 5 6 .b4 .normal 0x3FE#10) ∧
    Is 0x48A63C00 (.amoadd 5 6 7 true .normal) ∧ Is 0x48A63802 (.amocas 5 6 7 false .normal) := by
  refine ⟨?_, ?_, ?_, ?_⟩ <;> exact ⟨rfl, rfl⟩
theorem test_words_control : Is 0x50200010 (.jal 1 16#21) ∧ Is 0x54010000 (.jalr 0 1 0#16) ∧ Is 0x58A60003 (.beq 5 6 3#13) ∧
    Is 0x5C400005 (.bkany 2 5#13) := by
  refine ⟨?_, ?_, ?_, ?_⟩ <;> exact ⟨rfl, rfl⟩
theorem test_words_fp : Is 0x60221A00 (.fadd 1 2 3 .fp32) ∧ Is 0x64221900 (.fma 1 2 3 4 .fp64) ∧ Is 0x6CA11201 (.fcmpLt 5 1 2 .fp32) := by
  refine ⟨?_, ?_, ?_⟩ <;> exact ⟨rfl, rfl⟩
theorem test_words_system : Is 0x70A00005 (.csrr 5 5) ∧ Is 0x70060804 (.csrw 6 4) ∧ Is 0x7CA601C0 (.setvl 5 6 7) ∧
    Is 0x7CA00800 (.nexti 5) ∧ Is 0x78A00014 (.fork 5 20#16) ∧ Is 0x7C001801 (.gear 1) ∧ Is 0x7C062800 (.waitt 6) ∧
    Is 0x7C063002 (.bara 6 2) ∧ Is 0x7C004064 (.fence 0b000011#6 4) := by
  refine ⟨?_, ?_, ?_, ?_, ?_, ?_, ?_, ?_, ?_⟩ <;> exact ⟨rfl, rfl⟩
theorem test_words_transfers : Is 0xC4E50200 (.scopy 7 5 1) ∧ Is 0xC4E50A00 (.sxform 7 5 1) ∧ Is 0xC4E31400 (.smcast 7 3 2) ∧
    Is 0xC4071A00 (.xwait 7 1) ∧ Is 0xC5072200 (.xpoll 8 7 1) ∧ Is 0xC1050200 (.sbind 8 5 2) ∧ Is 0xC0000A00 (.sunbind 2) ∧
    Is 0xC0001200 (.sclose 2) := by
  refine ⟨?_, ?_, ?_, ?_, ?_, ?_, ?_, ?_⟩ <;> exact ⟨rfl, rfl⟩
theorem test_words_merge : Is 0xC8A60000 (.mgopen 5 6) ∧ Is 0xC9090900 (.mgpush 8 9 1) ∧ Is 0xC8A61000 (.mgfin 5 6) ∧
    Is 0xC8A61800 (.mgstat 5 6) := by
  refine ⟨?_, ?_, ?_, ?_⟩ <;> exact ⟨rfl, rfl⟩
theorem test_words_bond : Is 0xDC450000 (.opld 2 5) ∧ Is 0xDC400800 (.opclr 2) ∧ Is 0xD441000A (.vroute 2 1) ∧
    Is 0xD102C002 (.vpass 8 2 12 0 1) ∧ Is 0xD4820800 (.vredS 4 2 1 0) ∧ Is 0xD4A23107 (.vmaxi 5 2 6 1) ∧ Is 0xD8050002 (.splen 0 5) ∧
    Is 0xD8221800 (.spadd 1 2 3) := by
  refine ⟨?_, ?_, ?_, ?_, ?_, ?_, ?_, ?_⟩ <;> exact ⟨rfl, rfl⟩
theorem test_words_tiles : Is 0xE0011201 (.topaS 0 1 2 2 1) ∧ Is 0xEC602800 (.tmvr 3 0 5 0) ∧ Is 0xF0000000 .nop := by
  refine ⟨?_, ?_, ?_⟩ <;> exact ⟨rfl, rfl⟩

/-- Words of no instruction: an unassigned major, a reserved field that is not zero, and a code beyond the table of R306 (R270). -/
theorem test_words_refused : decodeWord 0 = .error .illegal ∧ decodeWord 0x04A63815 = .error .reserved ∧
    decodeWord 0x80000017 = .error .illegal := by
  refine ⟨?_, ?_, ?_⟩ <;> rfl

/-! ### States that meet the hypotheses of the statements -/

/-- Scalar registers: x1 to x7 as given. -/
def xregs (l : List Nat) : Vector Word 32 := Vector.ofFn (fun i => BitVec.ofNat 64 (l.getD i 0))

/-- A hart that runs alone on brick 0, with four lane groups. -/
def hart0 (r : Regs) : Hart :=
  { run := .running, uid := 1, brick := 0, num := 0, bound := 15, next := 15, lgn := 4, ctx := 1, vmid := 1, queue := 1, seq := 1, r := r, ckpt := r }

/-- The translation of virtual page 0 to the first 64 KiB of this device's memory. -/
def page0 : TlbEntry := { brick := 0, ctx := 1, vmid := 1, va := 0, pa := 0, bits := 16, x := true, w := true }

/-- A launch with one hart. -/
def launch0 : Launch := { queue := 1, seq := 1, record := { ctx := 1, vmid := 1 } }

/-- The state of such a hart. -/
def st (r : Regs) : State := { hart := hart0 r, dev := { tlb := [page0], launches := [launch0], uids := 2 } }

/-- SEW 64, 32, 16 and 8, VL as given, x1 to x3 as given. -/
def v64 (vl : Nat) (xs : List Nat) : State := st { x := xregs (0 :: xs), vl := BitVec.ofNat 14 vl, vtype := { sew := 3 } }
def v32 (vl : Nat) (xs : List Nat) : State := st { x := xregs (0 :: xs), vl := BitVec.ofNat 14 vl, vtype := { sew := 2 } }
def v16 (vl : Nat) (xs : List Nat) : State := st { x := xregs (0 :: xs), vl := BitVec.ofNat 14 vl, vtype := { sew := 1 } }
def v8 (vl : Nat) (xs : List Nat) : State := st { x := xregs (0 :: xs), vl := BitVec.ofNat 14 vl, vtype := { sew := 0 } }

/-- Memory from address 0. -/
def State.holding (s : State) (l : List Nat) : State :=
  { s with dev := { s.dev with mem := Memory.writeBytes [] 0 (l.map (BitVec.ofNat 8)) } }

/-- All that a vector instruction needs, but for registers in range. -/
theorem ready_of (s : State) (regs : List Nat) (h1 : s.hart.bound ≠ 0) (h2 : s.hart.r.vtype.vill = false)
    (h3 : vlen s ≤ 256 * groups s.hart.bound * gOf s / 2 ^ s.hart.r.vtype.sew.toNat)
    (h4 : s.hart.resume = none ∧ s.hart.budget = none ∧ s.hart.inflight = []) (hp : s.hasParts 8 = true)
    (h5 : s.hart.r.streams = Vector.replicate 8 none)
    (h6 : s.hart.r.vfail = Vector.replicate 32 0 ∧ s.hart.r.kfail = Vector.replicate 8 0 ∧ s.hart.r.tfail = Vector.replicate 8 0)
    (h7 : ∀ v ∈ regs, v < 32 ∧ v % gOf s = 0) (h8 : s.brick.reuse = []) : VReady s regs := ⟨h1, h2, h3, h4, hp, h5, h6, h7, h8⟩

theorem ready64 : VReady (v64 128 []) [0, 1, 31] := ready_of _ _ (by decide +kernel) rfl (by decide +kernel) ⟨rfl, rfl, rfl⟩ (by decide +kernel) rfl ⟨rfl, rfl, rfl⟩ (by decide +kernel) rfl
theorem ready32 : VReady (v32 256 []) [0, 1, 31] := ready_of _ _ (by decide +kernel) rfl (by decide +kernel) ⟨rfl, rfl, rfl⟩ (by decide +kernel) rfl ⟨rfl, rfl, rfl⟩ (by decide +kernel) rfl
theorem ready16 : VReady (v16 512 []) [0, 1, 31] := ready_of _ _ (by decide +kernel) rfl (by decide +kernel) ⟨rfl, rfl, rfl⟩ (by decide +kernel) rfl ⟨rfl, rfl, rfl⟩ (by decide +kernel) rfl
theorem ready8 : VReady (v8 1024 []) [0, 1, 31] := ready_of _ _ (by decide +kernel) rfl (by decide +kernel) ⟨rfl, rfl, rfl⟩ (by decide +kernel) rfl ⟨rfl, rfl, rfl⟩ (by decide +kernel) rfl

/-- ScalarLoads, ScalarStores, LoadReturnsStoredBytes: an access of eight bytes on the page, and one on the last bytes of the local-memory
window. -/
theorem witness_scalar_bytes : ScalarBytes (State.holding (v64 1 [8]) [1, 2, 3, 4, 5, 6, 7, 8, 9]) 8 1 [9] :=
  ⟨by decide, _, _, _, rfl, by decide +kernel⟩
theorem witness_places : (v64 1 [8]).places (ea (v64 1 [8]) 1 .b8 0) 8 .write = .ok ((List.range 8).map (fun i => .phys (8 + i)), false, v64 1 [8]) ∧
    entryCount (ea (v64 1 [8]) 1 .b8 0) 8 ≤ (v64 1 [8]).freeEntries := by decide +kernel

theorem witness_ScalarAccessTraps :
    (let s := v64 1 [0xFFFFFFFFE7FFFF, 0xFFFFFFFFFFFFF9, 2 ^ 56, 2 ^ 64 - 8]
     let va := fun a => ea s a .b8 0
     (va 1 < 0xFFFFFFFFE80000 ∧ 0xFFFFFFFFE80000 < va 1 + 8) ∧ (va 2 < 2 ^ 56 ∧ 2 ^ 56 < va 2 + 8) ∧
     (2 ^ 56 ≤ va 3 ∧ va 3 + 8 ≤ 2 ^ 64) ∧ (2 ^ 56 ≤ va 4 ∧ va 4 + 8 ≤ 2 ^ 64) ∧
     ∀ a ∈ [1, 2, 3, 4], entryCount (va a) 8 ≤ s.freeEntries) := by decide +kernel
theorem witness_LoadReturnsStoredBytes : ∃ ps hs u hs' u', (v64 1 [65528]).places (ea (v64 1 [65528]) 1 .b8 0) 8 .write = .ok (ps, hs, u) ∧
    ps.Nodup ∧ u.places (ea (v64 1 [65528]) 1 .b8 0) 8 .read = .ok (ps, hs', u') ∧ (∀ st ∈ (v64 1 [65528]).hart.strip.stores, st.soft = false) ∧
    entryCount (ea (v64 1 [65528]) 1 .b8 0) 8 ≤ (v64 1 [65528]).freeEntries :=
  ⟨_, _, _, _, _, rfl, by decide +kernel, rfl, by decide, by decide +kernel⟩
theorem witness_ScalarAtomics_memory :
    let s := v64 1 [65528]
    (s.x 1).toNat % 8 = 0 ∧ ∃ pa ps hs v, s.splitAndDrain.places (s.x 1).toNat 8 .write = .ok (.phys pa :: ps, hs, v) ∧
      s.splitAndDrain.dev.own pa = true ∧ s.splitAndDrain.allPerformed = true ∧ s.splitAndDrain.groupHolds (.phys pa :: ps) = false ∧
      s.splitAndDrain.dev.populated (offsetOf pa) = true ∧ s.splitAndDrain.dev.poisoned (offsetOf pa) = false :=
  ⟨by decide +kernel, _, _, _, _, rfl, by decide +kernel, by decide +kernel, by decide +kernel, by decide +kernel, by decide +kernel⟩
/-- A store of the hart has not been acknowledged by another node. -/
def unanswered (s : State) : State := s.mapDev (fun d => { d with outstanding := [{ owner := .hart s.hart.uid, kind := 2, pa := 5 * 2 ^ 40, len := 8 }] })
theorem witness_ScalarAtomics_waits : ∃ ps hs v, (unanswered (v64 1 [8])).splitAndDrain.places 8 8 .write = .ok (ps, hs, v) ∧
    (unanswered (v64 1 [8])).splitAndDrain.allPerformed = false := ⟨_, _, _, rfl, by decide +kernel⟩
theorem witness_ScalarAtomics_local :
    let s := v64 1 [0xFFFFFFFFFFFFF8]
    (s.x 1).toNat % 8 = 0 ∧ ∃ off ps hs v, s.splitAndDrain.places (s.x 1).toNat 8 .write = .ok (.loc off :: ps, hs, v) ∧
      s.splitAndDrain.allPerformed = true ∧ s.splitAndDrain.groupHolds (.loc off :: ps) = false ∧
      s.splitAndDrain.brick.locpoison.contains (off / 64) = false :=
  ⟨by decide +kernel, _, _, _, _, rfl, by decide +kernel, by decide +kernel, by decide +kernel⟩
/-- A state whose first granule is poisoned. -/
def poisoned0 : State := (v64 1 [0, 4]).mapDev (fun d => { d with poison := [0] })
theorem witness_ScalarAtomicsNotPerformed : (poisoned0.x 2).toNat % 8 ≠ 0 ∧ (poisoned0.x 1).toNat % 8 = 0 ∧
    ∃ pa ps hs v, poisoned0.splitAndDrain.places (poisoned0.x 1).toNat 8 .write = .ok (.phys pa :: ps, hs, v) ∧
      poisoned0.splitAndDrain.dev.own pa = true ∧ poisoned0.splitAndDrain.allPerformed = true ∧
      poisoned0.splitAndDrain.groupHolds (.phys pa :: ps) = false ∧ poisoned0.splitAndDrain.dev.populated (offsetOf pa) = true ∧
      poisoned0.splitAndDrain.dev.poisoned (offsetOf pa) = true :=
  ⟨by decide +kernel, by decide +kernel, _, _, _, _, rfl, by decide +kernel, by decide +kernel, by decide +kernel, by decide +kernel, by decide +kernel⟩
theorem witness_ControlTransfer : ((v64 1 [4, 6]).x 1 + (0#16).signExtend 64) &&& 3 = 0 ∧ ((v64 1 [4, 6]).x 2 + (0#16).signExtend 64) &&& 3 ≠ 0 ∧
    ((st { pc := 2 ^ 56 }).pc &&& 3 = 0 ∧ 2 ^ 56 ≤ (st { pc := 2 ^ 56 }).pc.toNat ∧ (st { pc := 2 ^ 56 }).pc.toNat + 4 ≤ 2 ^ 64) ∧
    ((st { pc := 0xFFFFFFFFFFFFFFFC }).pc &&& 3 = 0 ∧ 2 ^ 56 ≤ (st { pc := 0xFFFFFFFFFFFFFFFC }).pc.toNat ∧ (st { pc := 0xFFFFFFFFFFFFFFFC }).pc.toNat + 4 ≤ 2 ^ 64) := by decide +kernel
/-- Mask 1 holds bit 3 alone. -/
def masked (s : State) : State := s.mapRegs (fun r => { r with k := r.k.set 1 8 })
theorem witness_MaskBranches : ((masked (v64 4 [])).hart.bound ≠ 0 ∧ (masked (v64 4 [])).hart.r.vtype.vill = false ∧
      (masked (v64 4 [])).hart.r.kfail.getD 1 0 = 0 ∧ SomeBit (masked (v64 4 [])) 1) ∧
    ((masked (v64 3 [])).hart.bound ≠ 0 ∧ (masked (v64 3 [])).hart.r.vtype.vill = false ∧ (masked (v64 3 [])).hart.r.kfail.getD 1 0 = 0 ∧
      ¬ SomeBit (masked (v64 3 [])) 1) ∧
    ((v64 4 []).mapHart (fun h => { h with bound := 0 })).hart.bound = 0 ∧
    ((v64 4 []).mapRegs (fun r => { r with vtype := { vill := true } })).hart.r.vtype.vill = true := by
  refine ⟨⟨by decide +kernel, rfl, by decide +kernel, 3, by decide +kernel, by decide +kernel⟩, ⟨by decide +kernel, rfl, by decide +kernel, ?_⟩, rfl, rfl⟩
  have h : ∀ i, i < 3 → ((masked (v64 3 [])).hart.r.k.getD 1 0).getLsbD i = false := by decide +kernel
  rintro ⟨i, hi, hb⟩
  have := h i hi
  simp_all

/-- 1.5 and 2.0 as FP32 numbers, a quiet and a signalling NaN. -/
theorem witness_FpResultsAreRoundedOnce : (4 : Nat) ≤ 4 ∧ 0x3FC00000 < 2 ^ fpWidth .fp32 ∧ 0x40000000 < 2 ^ fpWidth .fp32 ∧ 0xC0A00000 < 2 ^ fpWidth .fp32 ∧
    (expField .fp32 0x3FC00000 ≠ 2 ^ expBits .fp32 - 1 ∧ expField .fp32 0x40000000 ≠ 2 ^ expBits .fp32 - 1 ∧ expField .fp32 0xC0A00000 ≠ 2 ^ expBits .fp32 - 1) ∧
    let x := number .fp32 0x3FC00000
    let y := number .fp32 0x40000000
    let z := number .fp32 0xC0A00000
    x + y ≠ 0 ∧ x - y ≠ 0 ∧ x * y ≠ 0 ∧ x ≠ 0 ∧ y ≠ 0 ∧ x * y + z ≠ 0 ∧ x * y - z ≠ 0 := by decide +kernel
theorem witness_RoundingIsCorrect : ∀ rm ∈ [0, 1, 2, 3, 4], rm ≤ 4 ∧ (roundMag .fp32 rm false 1 3).2 &&& 4 = 0 ∧ (roundMag .fp32 rm true 1 (2 ^ 150)).2 &&& 4 = 0 := by
  decide +kernel
/-- f1 is 1.0, f2 a quiet NaN, f3 a signalling one, in FP32. -/
def floats : State := st { f := Vector.ofFn (fun i => BitVec.ofNat 64 ([0, 0x3F800000, 0x7FC00000, 0x7F800001].getD i 0)) }
theorem witness_FpClassMovesCompares : expField .fp32 (low floats .fp32 0) ≠ 255 ∧ expField .fp32 (low floats .fp32 1) ≠ 255 ∧
    (expField .fp32 (low floats .fp32 2) = 255 ∧ fracField .fp32 (low floats .fp32 2) ≠ 0) ∧
    (expField .fp32 (low floats .fp32 3) = 255 ∧ fracField .fp32 (low floats .fp32 3) ≠ 0) := by decide +kernel
theorem witness_FpConversions : (8 ≤ 8 ∨ 8 ≤ 0 ∨ (4 ≤ 8 ∧ 4 ≤ 0)) ∧ (8 ≤ 0 ∨ 8 ≤ 15 ∨ (4 ≤ 0 ∧ 4 ≤ 15)) ∧ (8 ≤ 4 ∨ 8 ≤ 7 ∨ (4 ≤ 4 ∧ 4 ≤ 7)) := by decide
theorem witness_CsrReads : 0x06 ∉ (csrValues (v64 1 [])).map (·.1) ∧ 0x2C ∉ (csrValues (v64 1 [])).map (·.1) ∧ 255 ∉ (csrValues (v64 1 [])).map (·.1) := by
  decide +kernel
theorem witness_CsrWrites : (v64 1 []).hart.inflight = [] ∧ (v64 1 []).hart.pendCsr = [] := ⟨rfl, rfl⟩
/-- A hart with a report held and one behind it. -/
def reported : State := (v64 1 [2 ^ 45]).mapHart (fun h => { h with aerr := { held := some 5, queue := [6] } })
theorem witness_WriteOneClears : reported.hart.aerr.held = some 5 ∧ (reported.x 1).getLsbD 45 = true ∧ reported.hart.aerr.lost = 0 ∧
    reported.hart.aerr.queue = [6] := by decide +kernel
theorem witness_LateCsrWrites : ((v64 1 []).mapHart (fun h => { h with inflight := [{ word := 0, pc := 0 }] })).hart.inflight ≠ [] ∧
    (v64 1 []).hart.run = .running ∧ (v64 1 []).hart.inflight = [] ∧
    ∀ w ∈ [CsrWrite.fstat 1 3, .fidx 4 1 3, .reuseHit 1 3],
      ((v64 1 []).mapHart (fun h => { h with pendCsr := [w] })).hart.pendCsr = w :: [] := by decide +kernel
theorem witness_SetVectorLength : (v64 1 []).hart.next = (v64 1 []).hart.bound ∧ ∀ p, (v64 1 []).hart.fork ≠ .child p false :=
  ⟨rfl, fun _ h => by cases h⟩
/-- A parent on brick 0 with its child, before the split; and the child's view. -/
def parentHart : Hart := { hart0 {} with fork := .parent 1 false, next := 3 }
def childHart : Hart := { hart0 {} with num := 1, uid := 2, fork := .child 0 false, bound := 0, next := 12 }
def forked : State := { hart := parentHart, dev := { parked := [childHart] } }
def forkedChild : State := { hart := childHart, dev := { parked := [parentHart] } }
theorem witness_SplitAtSetvl : (forked.hart.run = .running ∧ forked.hart.fork = .parent 1 false ∧ forked.hart.next ≠ forked.hart.bound ∧
      forked.hart.strip.stores = [] ∧ forked.hart.strip.cmds = [] ∧ forked.hart.ended = [] ∧ 1 ≠ forked.hart.num) ∧
    forkedChild.hart.fork = .child 0 false ∧ forkedChild.hartAt forkedChild.hart.brick 0 = some parentHart ∧
    parentHart.fork = .parent 1 false := by decide +kernel
/-- Levels 1 and 3 are temporal, of extents 2 and 3. -/
def looped (i j : Nat) : State := ((v64 1 []).mapHart (fun h => { h with levels := (h.levels.set 1 { extent := 2, place := 1 }).set 3 { extent := 3, place := 1 } })).mapRegs
  (fun r => { r with lidx := (r.lidx.set 1 (BitVec.ofNat 32 i)).set 3 (BitVec.ofNat 32 j) })
theorem canStep_iff (s : State) (l : Nat) : CanStep s l ↔ l < 4 ∧ (s.hart.levels.getD l {}).place = 1 ∧
    (s.hart.r.lidx.getD l 0).toNat + 1 < (s.hart.levels.getD l {}).extent := Iff.rfl
theorem witness_NextLoopIndex : (∀ l, ¬ CanStep (v64 1 []) l) ∧ (∀ l, ¬ CanStep (looped 1 2) l) ∧
    (CanStep (looped 0 2) 1 ∧ (∀ m, 1 < m → ¬ CanStep (looped 0 2) m) ∧ ((looped 0 2).hart.levels.getD 3 {}).place = 1 ∧
      ∀ m, 3 < m → m < 4 → ((looped 0 2).hart.levels.getD m {}).place ≠ 1) ∧
    (CanStep (looped 0 1) 3 ∧ ∀ m, 3 < m → ¬ CanStep (looped 0 1) m) := by
  have a : ∀ l, l < 4 → ¬ ((v64 1 []).hart.levels.getD l {}).place = 1 := by decide +kernel
  have b : ∀ l, l < 4 → ¬ (((looped 1 2).hart.levels.getD l {}).place = 1 ∧
    ((looped 1 2).hart.r.lidx.getD l 0).toNat + 1 < ((looped 1 2).hart.levels.getD l {}).extent) := by decide +kernel
  have c : ∀ l, l < 4 → 1 < l → ¬ (((looped 0 2).hart.levels.getD l {}).place = 1 ∧
    ((looped 0 2).hart.r.lidx.getD l 0).toNat + 1 < ((looped 0 2).hart.levels.getD l {}).extent) := by decide +kernel
  refine ⟨fun l h => a l h.1 h.2.1, fun l h => b l h.1 h.2, ⟨⟨by decide, by decide +kernel, by decide +kernel⟩, fun m hm h => c m h.1 hm h.2, by decide +kernel, fun m _ _ => by omega⟩,
    ⟨by decide, by decide +kernel, by decide +kernel⟩, fun m hm h => by have := h.1; omega⟩

/-- A brick whose four harts all run. -/
def crowded : State := { hart := hart0 {}, dev := { parked := [1, 2, 3].map (fun n => { hart0 {} with num := n, uid := n + 1 }) } }
theorem witness_ForkStartsAChild : ((v64 1 []).hartAt 0 1).isNone = true ∧ ((v64 1 []).hartAt 0 0).isNone = false ∧
    groups (v64 1 []).hart.bound = 4 ∧ (v64 1 []).hart.fork = .none ∧ (v64 1 []).hart.next = (v64 1 []).hart.bound ∧
    groups (((v64 1 []).mapHart (fun h => { h with bound := 7 })).hart.bound) = 3 ∧ forked.hart.fork ≠ .none ∧ forked.hart.next ≠ forked.hart.bound ∧
    (∀ n, n < 4 → (crowded.hartAt 0 n).isNone = false) := by decide +kernel
/-- A parent after the split, one whose child has ended, and a child whose parent waits. -/
def splitParent : State := (v64 1 []).mapHart (fun h => { h with fork := .parent 1 true, bound := 3, next := 3 })
def endedParent : State := (v64 1 []).mapHart (fun h => { h with fork := .ended 7 true 12 {}, bound := 3, next := 3 })
def joiningChild : State :=
  { hart := { childHart with fork := .child 0 true, bound := 12 }, dev := { parked := [{ parentHart with fork := .parent 1 true, bound := 3 }] } }
theorem witness_JoinEndsAFork : (v64 1 []).hart.fork = .none ∧ forked.hart.fork = .parent 1 false ∧ splitParent.hart.fork = .parent 1 true ∧
    (endedParent.hart.fork = .ended 7 true 12 {} ∧ (12 : BitVec 4) ≠ 0 ∧ endedParent.hart.bound ||| 12 = 15) ∧
    (joiningChild.hart.run = .running ∧ joiningChild.hart.bound ≠ 0 ∧ joiningChild.hart.fork = .child 0 true ∧ 0 ≠ joiningChild.hart.num ∧
      joiningChild.splitAndDrain.commandsDone = true ∧ joiningChild.splitAndDrain.hart.ended = [] ∧
      joiningChild.splitAndDrain.dev.parked.find? (fun h => h.brick == joiningChild.hart.brick && h.num == 0) =
        some { parentHart with fork := .parent 1 true, bound := 3 }) := by decide +kernel
theorem witness_GearRequests : (0 < 2 ∧ 1 < 2 ∧ (v64 1 []).hart.run = .running) ∧ 2 ≤ 2 := by decide
/-- A hart in a timed wait for time 50,000, at a time given; the last has been dropped by auto gear. -/
def timed (now : Nat) (drop : Bool) : State := ((v64 1 [50000]).mapHart (fun h => { h with wait := .waitt 50000, gears := { auto := true, drop := drop } })).mapDev
  (fun d => { d with time := { dtime := BitVec.ofNat 64 now } })
theorem witness_TimedWaits :
    (¬ (timed 50000 false).hart.gears.drop ∧ ((timed 50000 false).x 1).toNat ≤ (timed 50000 false).dev.time.dtime.toNat) ∧
    (timed 49999 false).dev.time.dtime.toNat < ((timed 49999 false).x 1).toNat ∧ (timed 50000 true).hart.wait = .waitt 50000 ∧
    ((timed 49799 false).hart.gears.auto = true ∧ (timed 49799 false).hart.gears.drop = false ∧
      (timed 49799 false).dev.time.dtime.toNat + (timed 49799 false).hart.gears.lead.toNat < 50000) ∧
    ((timed 49800 true).hart.gears.drop = true ∧ 50000 ≤ (timed 49800 true).dev.time.dtime.toNat + (timed 49800 true).hart.gears.lead.toNat) := by
  decide +kernel
theorem witness_IdleAndItsEnds : ((v64 1 []).mapHart (fun h => { h with wait := .idle 0 [] 0 })).hart.wait = .idle 0 [] 0 ∧
    0 + 1000000 ≤ ((v64 1 []).mapDev (fun d => { d with time := { dtime := 1000000 } })).dev.time.dtime.toNat := by decide +kernel
/-- A hart with an arrival at barrier 15 of device scope, in phase 0 or in a phase that has been released. -/
def arrived (phase : Nat) : State := ((v64 1 [15, 16]).mapHart (fun h => { h with arrivals := [{ bar := 15, scope := 4, phase := 0, strip := 0 }] })).mapDev
  (fun d => { d with barriers := [{ queue := 1, seq := 1, num := 15, scope := 4, inst := 0, phase := phase }] })
theorem witness_BarrierArrival_traps : 16 ≤ ((arrived 1).x 2).toNat ∧ (∀ l ∈ (arrived 1).hart.levels.toList, l.place ≠ 5) ∧
    forkedChild.hart.fork = .child 0 false := by decide +kernel
theorem witness_BarrierArrival : ((arrived 1).x 1).toNat < 16 ∧ (arrived 1).hart.fork = .none ∧
    (arrived 1).dev.launch (arrived 1).hart.launch = some launch0 ∧ ∀ x ∈ (arrived 1).hart.arrivals, x.bar = ((arrived 1).x 1).toNat → x.scope = 4 →
      x.again = false ∧ x.phase < ((arrived 1).dev.barrier launch0 ((arrived 1).x 1).toNat 4 (arrived 1).hart.index).phase := by decide +kernel
theorem witness_BarrierWait : 16 ≤ ((arrived 1).x 2).toNat ∧ (((arrived 1).x 1).toNat < 16 ∧ (arrived 1).hart.gears.drop = false) ∧
    (∀ x ∈ (v64 1 [0]).hart.arrivals, x.bar ≠ 0) ∧
    (∀ q ∈ [0, 1], (arrived q).hart.arrivals = [] ++ [{ bar := 15, scope := 4, phase := 0, strip := 0 }] ∧
      ({ bar := 15, scope := 4, phase := 0, strip := 0 } : Arrival).again = false ∧
      (arrived q).dev.launch (arrived q).hart.launch = some launch0) ∧
    0 < ((arrived 1).dev.barrier launch0 15 4 0).phase ∧ ((arrived 0).dev.barrier launch0 15 4 0).phase ≤ 0 := by decide +kernel
/-- A hart with a command of channel 0 that is not done; and one with a report of a store. -/
def owing : State := (v64 1 []).mapRegs (fun r => { r with issued := r.issued.set 0 1 })
def told : State := (v64 1 []).mapHart (fun h => { h with aerr := { held := some (BitVec.ofNat 64 (0x02 * 2 ^ 56)) } })
theorem witness_Fences : ((v64 1 []).splitAndDrain.hart.aerr.all = [] ∧ (v64 1 []).splitAndDrain.fenceMet 63 5 = true) ∧
    (owing.splitAndDrain.hart.aerr.all = [] ∧ owing.splitAndDrain.fenceMet 8 2 = false) ∧
    told.splitAndDrain.hart.aerr.all = [] ++ BitVec.ofNat 64 (0x02 * 2 ^ 56) :: [] ∧ fenceTakes 63 (BitVec.ofNat 64 (0x02 * 2 ^ 56)) = true := by
  decide +kernel

/-- A kernel at 0x200, whose descriptor at 0x1C0 names a handler at 0x400 and frames at 0x1000 for every cause of R227. -/
def descriptor : List Byte := leBytes 8 0x400 ++ leBytes 8 0x1000 ++ leBytes 4 0x7033E ++ zeros 44
def handled : State :=
  ((v64 1 []).mapDev (fun d => { d with mem := Memory.writeBytes [] 0x1C0 descriptor })).mapHart (fun h => { h with kernel := 0x200 })
theorem names_handled (cause : Nat) (h : cause ∈ [1, 5, 8, 9, 16]) : Names descriptor cause 0x400 0x1000 :=
  ⟨by decide +kernel, by decide +kernel, by decide, by decide, by decide +kernel, by decide,
    ⟨0x7033E#32, by decide +kernel, by decide +kernel, by revert cause; decide +kernel⟩, by decide +kernel⟩
/-- A hart of the fixture that enters its handler, when nothing of its is awaited and its descriptor can be read. -/
theorem enters_of (s v : State) (cause : Nat) (h : cause ∈ [1, 5, 8, 9, 16]) (h1 : s.hart.aerr.inh = false) (h2 : s.hart.landed = [])
    (h3 : s.directPending = false) (h4 : s.hart.brick = 0 ∧ s.hart.num = 0 ∧ s.dev.node = 0)
    (h5 : s.loadScalar (s.hart.kernel - 64).toNat 64 = .ok (descriptor, s))
    (h6 : s.places 0x1000 256 .write = .ok ((List.range 256).map (fun i => .phys (0x1000 + i)), false, v)) (h7 : MemoryCanonical s) :
    Enters s cause 0x400 0x1000 ((List.range 256).map (fun i => .phys (0x1000 + i))) :=
  ⟨h1, h2, h3, ⟨descriptor, s, false, v, h5, names_handled cause h, by rw [h4.1, h4.2.1]; exact h6⟩,
    by
      intro p hp; simp only [List.mem_map] at hp; obtain ⟨i, hi, rfl⟩ := hp
      refine ⟨_, rfl, ?_⟩
      unfold Device.own
      rw [h4.2.2]
      have := List.mem_range.mp hi
      revert i; decide +kernel,
    by decide +kernel, h7⟩
theorem canonical_handled : MemoryCanonical handled := ⟨by decide +kernel, by decide +kernel⟩
theorem witness_TrapEntry (cause : Nat) (h : cause ∈ [1, 5, 16]) :
    Enters handled cause 0x400 0x1000 ((List.range 256).map (fun i => .phys (0x1000 + i))) :=
  enters_of handled handled cause (by fin_cases h <;> decide) rfl rfl rfl ⟨rfl, rfl, rfl⟩ (by decide +kernel) (by decide +kernel) canonical_handled

/-- The program counter on a page without a translation or a page table. -/
def lost : State := handled.mapRegs (fun r => { r with pc := 0x10000 })
set_option maxRecDepth 20000 in
theorem witness_TrapRestartsStrip : (∃ tr, lost.fetch = .error (.trap tr) ∧ tr.cause = 8 ∧ restarts tr.cause = true) ∧
    Enters lost.unfetched.restart 8 0x400 0x1000 ((List.range 256).map (fun i => .phys (0x1000 + i))) :=
  ⟨⟨_, rfl, rfl, by decide⟩, enters_of _ _ 8 (by decide) rfl rfl rfl ⟨rfl, rfl, rfl⟩ rfl rfl ⟨by decide +kernel, by decide +kernel⟩⟩
/-- A hart in its handler, with a frame at address 0. -/
def inHandler : State := (State.holding (v64 1 []) (List.range 88)).mapHart (fun h => { h with aerr := { inh := true } })
theorem witness_ReturnFromTrap : (v64 1 []).hart.aerr.inh = false ∧ inHandler.hart.aerr.inh = true ∧
    (∃ p, inHandler.loadScalar (((inHandler.x 30).toNat + 16) % 2 ^ 64) 8 = .ok (p, inHandler)) ∧
    ScalarBytes inHandler (((inHandler.x 30).toNat + 48) % 2 ^ 64) 16 ((List.range 16).map (fun i => BitVec.ofNat 8 (48 + i))) :=
  ⟨rfl, rfl, ⟨_, rfl⟩, by decide, _, _, _, rfl, by decide +kernel⟩
theorem witness_EndOfHart : forked.hart.fork = .parent 1 false ∧ forkedChild.hart.fork = .child 0 false ∧ (v64 1 []).hart.fork = .none ∧
    ((handled.mapHart (fun h => { h with aerr := { inh := true } })).hart.aerr.inh = true ∧
      ∃ l u, (handled.mapHart (fun h => { h with aerr := { inh := true } })).loadScalar (handled.hart.kernel - 64).toNat 64 = .ok (l, u)) :=
  ⟨rfl, rfl, rfl, rfl, _, _, rfl⟩

/-- The SEW limits of the FP forms: those that have a format, and those that have none. -/
theorem witness_FpSew : FpSew (v64 128 []) false ∧ FpSew (v16 512 []) true ∧ ¬ FpSew (v8 1024 []) false ∧ ¬ FpSew (v32 256 []) true := by
  refine ⟨⟨by decide, by decide⟩, ⟨by decide, by decide⟩, fun h => h.1 rfl, fun h => absurd (h.2 rfl) (by decide)⟩
theorem witness_MaskInstructions : VReady (v64 128 []) [] ∧ (∀ e, e < 3 → kbit (masked (v64 3 [])) 1 e = false) ∧
    (kbit (masked (v64 4 [])) 1 3 = true ∧ ∀ e, e < 3 → kbit (masked (v64 4 [])) 1 e = false) :=
  ⟨ready_of _ _ (by decide +kernel) rfl (by decide +kernel) ⟨rfl, rfl, rfl⟩ (by decide +kernel) rfl ⟨rfl, rfl, rfl⟩ (by decide +kernel) rfl, by decide +kernel, by decide +kernel⟩
theorem witness_VectorConversions : sew (v64 128 []) = max (fpWidth .fp32) (fpWidth .fp64) ∧ sew (v16 512 []) = max (8 * 2 ^ (0 : Fin 4).val) (fpWidth .bf16) ∧
    sew (v64 128 []) = max (8 * 2 ^ (3 : Fin 4).val) (fpWidth .fp16) := by decide +kernel
theorem blocks_of (s : State) (h : vlen s % 32 = 0) : WholeBlocks s 0 32 :=
  ⟨h, fun e f he hf => by
    have : f < vlen s := by omega
    simp [Active, he, this]⟩
theorem witness_NarrowFormats : sew (v32 64 []) = fpWidth .fp32 ∧ WholeBlocks (v32 64 []) 0 32 ∧ ¬ WholeBlocks (v32 63 []) 0 32 ∧
    sew (v8 64 []) = 8 ∧ WholeBlocks (v8 64 []) 0 32 :=
  ⟨by decide +kernel, blocks_of _ (by decide +kernel), fun h => absurd h.1 (by decide +kernel), by decide +kernel, blocks_of _ (by decide +kernel)⟩
theorem witness_DotProducts : ∀ m ∈ dotTypes.map (fun m => m.2.1), m ∈ [sew (v64 0 []), sew (v32 256 []), sew (v16 512 []), sew (v8 1024 [])] := by decide +kernel

theorem sees_of (u : State) (r : List (Access × List Place)) (mem : Nat → List Byte)
    (h : ∀ x ∈ r, x.2.map (u.see u.hart.earlierStores) = (mem x.1.va).map Seen.byte) (hl : u.hart.landed = []) : Sees u r mem :=
  ⟨h, by rw [hl]; simp⟩

/-- VectorLoads: two elements on the page; and one beyond it. -/
theorem witness_VectorLoads : (∃ r u, Reached (v64 2 [65520]) .read ((v64 2 [65520]).hart.lane 64) (perElement (v64 2 [65520]) 0 8 (unitAt (v64 2 [65520]) 1)) r u ∧
      Sees u r (fun _ => List.replicate 8 0)) ∧ sew (v64 2 [65520]) = 8 * Width.b8.bytes ∧ sew (v64 2 []) ≠ 8 * Width.b4.bytes ∧
    (∃ tr, (v64 2 [65528]).reach .read ((v64 2 [65528]).hart.lane 64) (perElement (v64 2 [65528]) 0 8 (unitAt (v64 2 [65528]) 1)) = .error (.trap tr)) :=
  ⟨⟨_, _, ⟨_, rfl⟩, sees_of _ _ _ (by decide +kernel) rfl⟩, by decide +kernel, by decide +kernel, _, rfl⟩
theorem witness_FaultFirstLoads : let s := v64 2 [65528]
    (s.dev.latent = [] ∧ sew s = 8 * Width.b8.bytes ∧ 1 ≤ vlen s) ∧
    (∃ ps hs, s.places (unitAt s 1 0) 8 .read = .ok (ps, hs, s) ∧ ps.map (s.see s.hart.earlierStores) = (List.replicate 8 0).map Seen.byte) ∧
    (0 < 1 ∧ Active s 0 1 ∧ ∃ tr, s.access (unitAt s 1 1) 8 .read (some 1) (s.hart.lane 64 1) = .error (.trap tr)) ∧
    (∃ tr, (v64 2 [65536]).access (unitAt (v64 2 [65536]) 1 0) 8 .read (some 0) ((v64 2 []).hart.lane 64 0) = .error (.trap tr)) :=
  ⟨⟨rfl, by decide +kernel, by decide +kernel⟩, ⟨_, _, rfl, by decide +kernel⟩, ⟨by decide, ⟨by decide +kernel, .inl rfl⟩, _, rfl⟩, _, rfl⟩
/-- VectorStores: 129 bytes at indices of their own, which no buffer can hold; two elements that it can hold. -/
def scattered : State := (v8 129 [0x100]).mapRegs (fun r => { r with v := r.v.set 1 (BitVec.ofNat 8192 ((List.range 129).foldl (fun n e => n + e * 2 ^ (8 * e)) 0)) })
theorem witness_VectorStores : VReady (v64 2 [65520]) [0, 1] ∧ VReady (v64 2 [65520]).splitAndDrain [0, 1] ∧
    (∃ r u, Reached (v64 2 [65520]) .write ((v64 2 [65520]).hart.lane 64) (perElement (v64 2 [65520]) 0 8 (unitAt (v64 2 [65520]) 1)) r u ∧
      stridedCount ((v64 2 [65520]).x 1).toNat 8 8 2 ≤ (v64 2 [65520]).freeEntries) :=
  ⟨ready_of _ _ (by decide +kernel) rfl (by decide +kernel) ⟨rfl, rfl, rfl⟩ (by decide +kernel) rfl ⟨rfl, rfl, rfl⟩ (by decide +kernel) rfl,
    ready_of _ _ (by decide +kernel) rfl (by decide +kernel) ⟨rfl, rfl, rfl⟩ (by decide +kernel) rfl ⟨rfl, rfl, rfl⟩ (by decide +kernel) rfl,
    _, _, ⟨_, rfl⟩, by decide +kernel⟩
/-- Nothing is on its way, and memory holds nothing. -/
theorem quiet_of (s : State) (h1 : s.hart.ended = []) (h2 : s.dev.onWay s.hart.uid = []) (h3 : ∀ l ∈ s.dev.launches, l.failures = [])
    (h4 : Memory.wf s.dev.mem = true) (h5 : ∀ b ∈ s.dev.bricks, Memory.wf b.2.locmem = true) : Quiet s := ⟨h1, h2, h3, h4, h5⟩
theorem witness_VectorStores_waits : VReady (unanswered scattered) [0, 1] ∧ 256 < 2 * vlen (unanswered scattered) ∧
    (unanswered scattered).splitAndDrain.allPerformed = false :=
  ⟨ready_of _ _ (by decide +kernel) rfl (by decide +kernel) ⟨rfl, rfl, rfl⟩ (by decide +kernel) rfl ⟨rfl, rfl, rfl⟩ (by decide +kernel) (by decide +kernel),
    by decide +kernel, by decide +kernel⟩
theorem witness_VectorStores_quiet : Quiet scattered.splitAndDrain := quiet_of _ rfl rfl (by decide +kernel) rfl (by decide +kernel)
theorem witness_VectorStores_direct : VReady scattered [0, 1] ∧ VReady scattered.splitAndDrain [0, 1] ∧ 256 < 2 * vlen scattered ∧ sew scattered = 8 ∧
    ∃ r u, Reached scattered.splitAndDrain .write (scattered.hart.lane 8) (perElement scattered 0 1 (indexedAt scattered 1 1)) r u ∧
      (∀ x ∈ r, ∀ p ∈ x.2, ∃ pa, p = .phys pa ∧ u.dev.own pa = true) ∧ ((bytesAt r (fun _ => [0])).map (·.1)).Nodup := by
  have h : (scattered.splitAndDrain.reach .write (scattered.hart.lane 8) (perElement scattered 0 1 (indexedAt scattered 1 1))) =
      .ok ((perElement scattered 0 1 (indexedAt scattered 1 1)).map (fun a => (a, [.phys a.va])), false, scattered.splitAndDrain) := by decide +kernel
  refine ⟨ready_of _ _ (by decide +kernel) rfl (by decide +kernel) ⟨rfl, rfl, rfl⟩ (by decide +kernel) rfl ⟨rfl, rfl, rfl⟩ (by decide +kernel) (by decide +kernel),
    ready_of _ _ (by decide +kernel) rfl (by decide +kernel) ⟨rfl, rfl, rfl⟩ (by decide +kernel) rfl ⟨rfl, rfl, rfl⟩ (by decide +kernel) (by decide +kernel), by decide +kernel, by decide +kernel,
    _, _, ⟨_, h⟩, ?_, by decide +kernel⟩
  have own : ∀ a ∈ perElement scattered 0 1 (indexedAt scattered 1 1), scattered.splitAndDrain.dev.own a.va = true := by decide +kernel
  intro x hx p hp
  obtain ⟨a, ha, rfl⟩ := List.mem_map.mp hx
  exact ⟨a.va, by simpa using hp, own a ha⟩

/-- VectorInteger, VectorFloat, CarriesAndCompares, MergesAndMoves, FunctionsAndGenerators and CompressAndSort ask for a hart that can run a vector
instruction, at each SEW with VL at its largest; VectorFloat and CarriesAndCompares for a SEW with the format and for one without;
VectorInteger, besides, for a word of major 0x20 with a code that is none. -/
theorem witness_vector_forms : (VReady (v64 128 []) [0, 1, 31] ∧ VReady (v32 256 []) [0, 1, 31] ∧ VReady (v16 512 []) [0, 1, 31] ∧ VReady (v8 1024 []) [0, 1, 31]) ∧
    (FpSew (v16 512 []) true ∧ ¬ FpSew (v8 1024 []) false) ∧ (0x80000017 : Nat) / 2 ^ 26 = 0x20 ∧ 0x17 ≤ 0x80000017 % 256 :=
  ⟨⟨ready64, ready32, ready16, ready8⟩, ⟨witness_FpSew.2.1, witness_FpSew.2.2.1⟩, by decide⟩

/-- SegmentAndPlaneLoads, SegmentAndPlaneStores: two segments and a whole plane block on the page. -/
theorem witness_SegmentAndPlaneLoads :
    (WholeBlocks (v8 64 [0x100]) 0 32 ∧ ((v8 64 [0x100]).x 1).toNat % 4 = 0 ∧ ((v8 64 [0x102]).x 1).toNat % 4 ≠ 0 ∧
      ∃ r u, Reached (v8 64 [0x100]) .read ((v8 64 [0x100]).hart.lane 8) (segmentPieces (v8 64 [0x100]) 0 1) r u ∧ Sees u r (fun _ => zeros 36)) ∧
    (WholeBlocks (v8 256 [0x100]) 0 32 ∧ vlen (v8 256 [0x100]) % 256 = 0 ∧ vlen (v8 64 []) % 256 ≠ 0 ∧
      ∃ r u, Reached (v8 256 [0x100]) .read ((v8 256 [0x100]).hart.lane 8) (planePieces (v8 256 [0x100]) 0 1) r u ∧ Sees u r (fun _ => [0])) := by
  have h : (v8 256 [0x100]).reach .read ((v8 256 [0x100]).hart.lane 8) (planePieces (v8 256 [0x100]) 0 1) =
      .ok ((planePieces (v8 256 [0x100]) 0 1).map (fun a => (a, [.phys a.va])), false, v8 256 [0x100]) := by decide +kernel
  refine ⟨⟨blocks_of _ (by decide +kernel), by decide +kernel, by decide +kernel, _, _, ⟨_, rfl⟩, sees_of _ _ _ (by decide +kernel) rfl⟩,
    blocks_of _ (by decide +kernel), by decide +kernel, by decide +kernel, _, _, ⟨_, h⟩, sees_of _ _ _ (by decide +kernel) rfl⟩
theorem witness_SegmentAndPlaneStores : VReady (v8 256 [0x100]) [0, 1] ∧ VReady (v8 256 [0x100]).splitAndDrain [0, 1] ∧
    ((v8 256 [0x100]).x 1).toNat + vlen (v8 256 [0x100]) + vlen (v8 256 [0x100]) / 32 ≤ 2 ^ 64 :=
  ⟨ready_of _ _ (by decide +kernel) rfl (by decide +kernel) ⟨rfl, rfl, rfl⟩ (by decide +kernel) rfl ⟨rfl, rfl, rfl⟩ (by decide +kernel) rfl,
    ready_of _ _ (by decide +kernel) rfl (by decide +kernel) ⟨rfl, rfl, rfl⟩ (by decide +kernel) rfl ⟨rfl, rfl, rfl⟩ (by decide +kernel) rfl, by decide +kernel⟩
/-- ScatterAdd, VectorAtomics: three elements of 64 bits, the last two at one address; and one that is misaligned. -/
def updates : State := (v64 3 [0xFFF0 - 8]).mapRegs (fun r => { r with v := r.v.set 1 (BitVec.ofNat 8192 (8 * 2 ^ 64 + 8 * 2 ^ 128)) })
def crooked : State := (v64 3 [0x100]).mapRegs (fun r => { r with v := r.v.set 1 (BitVec.ofNat 8192 (4 * 2 ^ 64)) })
theorem witness_ScatterAdd : let u := updates.splitAndDrain
    VReady u [0, 1] ∧ 4 ≤ Width.b8.bytes ∧ sew u = 8 * Width.b8.bytes ∧ (∀ e, Active u 0 e → indexedAt u 1 1 e % 8 = 0) ∧
    ∃ r v, Reached u .write (u.hart.lane 64) (perElement u 0 8 (indexedAt u 1 1)) r v := by
  have r : updates.splitAndDrain.reach .write (updates.splitAndDrain.hart.lane 64) (perElement updates.splitAndDrain 0 8 (indexedAt updates.splitAndDrain 1 1)) =
      .ok ((perElement updates.splitAndDrain 0 8 (indexedAt updates.splitAndDrain 1 1)).map
        (fun a => (a, (List.range 8).map (fun i => .phys (a.va + i)))), false, updates.splitAndDrain) := by decide +kernel
  refine ⟨ready_of _ _ (by decide +kernel) rfl (by decide +kernel) ⟨rfl, rfl, rfl⟩ (by decide +kernel) rfl ⟨rfl, rfl, rfl⟩ (by decide +kernel) rfl, by decide, by decide +kernel, ?_, _, _, _, r⟩
  have h : ∀ e, e < 3 → indexedAt updates.splitAndDrain 1 1 e % 8 = 0 := by decide +kernel
  exact fun e he => h e he.1
theorem witness_VectorAtomics : let u := updates.splitAndDrain
    (∃ r v, Reached u .write (u.hart.lane 64) (perElement u 0 8 (indexedAt u 1 1)) r v ∧
      ∀ x ∈ r, ∃ pa ps, x.2 = .phys pa :: ps ∧ [0xFFE8, 0xFFF0, 0xFFF0].getD x.1.elem 0 = offsetOf pa ∧ u.dev.own pa = true ∧
        u.dev.populated (offsetOf pa) = true ∧ u.dev.poisoned (offsetOf pa) = false) ∧
    u.allPerformed = true ∧ u.groupHolds [.phys 0xFFE8, .phys 0xFFF0] = false ∧
    (∃ e, Active crooked.splitAndDrain 0 e ∧ indexedAt crooked.splitAndDrain 1 1 e % 8 ≠ 0) := by
  have h : updates.splitAndDrain.reach .write (updates.splitAndDrain.hart.lane 64) (perElement updates.splitAndDrain 0 8 (indexedAt updates.splitAndDrain 1 1)) =
      .ok ((perElement updates.splitAndDrain 0 8 (indexedAt updates.splitAndDrain 1 1)).map
        (fun a => (a, (List.range 8).map (fun i => .phys (a.va + i)))), false, updates.splitAndDrain) := by decide +kernel
  have own : ∀ a ∈ perElement updates.splitAndDrain 0 8 (indexedAt updates.splitAndDrain 1 1), [0xFFE8, 0xFFF0, 0xFFF0].getD a.elem 0 = offsetOf a.va ∧
      updates.splitAndDrain.dev.own a.va = true ∧ updates.splitAndDrain.dev.populated (offsetOf a.va) = true ∧ updates.splitAndDrain.dev.poisoned (offsetOf a.va) = false := by decide +kernel
  refine ⟨⟨_, _, ⟨_, h⟩, fun x hx => ?_⟩, by decide +kernel, by decide +kernel, 1, ⟨by decide +kernel, .inl rfl⟩, by decide +kernel⟩
  obtain ⟨a, ha, rfl⟩ := List.mem_map.mp hx
  exact ⟨a.va, _, rfl, own a ha⟩
theorem witness_MaskLoadsAndStores : let s := v64 9 [0xFFFE]
    let l := (List.range ((vlen s + 7) / 8)).map (fun b => { elem := 8 * b, va := ((s.x 1).toNat + b) % 2 ^ 64, n := 1 : Access })
    (∃ r u, Reached s .read (s.hart.lane 64) l r u ∧ Sees u r (fun _ => [0])) ∧ (∃ r u, Reached s .write (s.hart.lane 64) l r u) ∧
    entryCount (s.x 1).toNat ((vlen s + 7) / 8) ≤ s.freeEntries :=
  ⟨⟨_, _, ⟨_, rfl⟩, sees_of _ _ _ (by decide +kernel) rfl⟩, ⟨_, _, _, rfl⟩, by decide +kernel⟩

/-! Streams and commands: descriptors and blocks in memory at address 0. -/

/-- The least stream of mode 0, 64-bit elements; and one of mode 2 from hart 1 of the brick. -/
def streamBytes (mode sender win : Nat) : List Byte := leBytes 8 0x1000 ++ leBytes 4 1 ++ leBytes 4 1 ++ leBytes 4 1 ++ leBytes 1 3 ++ leBytes 1 mode ++ leBytes 1 win ++
  leBytes 1 sender ++ zeros 40
def withBlock (s : State) (l : List Byte) : State := s.mapDev (fun d => { d with mem := Memory.writeBytes [] 0 l })
/-- The hart that sends, on the same brick. -/
def sender0 : Hart := { hart0 {} with num := 1, uid := 2 }
def binding (mode sender win : Nat) : State := (withBlock (v64 1 [0, 4]) (streamBytes mode sender win)).mapDev (fun d => { d with parked := [sender0] })
def slotless : State := (binding 0 0 0).mapDev (fun d => { d with parked := [{ hart0 {} with num := 1, uid := 2, streamRes := 16 }] })
theorem witness_StreamBinding_legal : ∀ s ∈ [binding 0 0 0, binding 2 16 16, slotless],
    s.hart.bound ≠ 0 ∧ s.hart.r.vtype.vill = false ∧ s.hart.r.streams.getD 7 none = none ∧ s.streamOf 0 = none ∧ (s.x 1).toNat % 64 = 0 := by decide +kernel
theorem witness_StreamBinding_bytes : ScalarBytes (binding 0 0 0) 0 64 (streamBytes 0 0 0) ∧ ScalarBytes (binding 2 16 16) 0 64 (streamBytes 2 16 16) ∧
    ScalarBytes (binding 0 0 1) 0 64 (streamBytes 0 0 1) ∧ ScalarBytes slotless 0 64 (streamBytes 0 0 0) :=
  ⟨⟨by decide, _, _, _, rfl, by decide +kernel⟩, ⟨by decide, _, _, _, rfl, by decide +kernel⟩, ⟨by decide, _, _, _, rfl, by decide +kernel⟩,
    ⟨by decide, _, _, _, rfl, by decide +kernel⟩⟩
theorem witness_StreamBinding : (StreamLegal (streamBytes 0 0 0) ∧ StreamLegal (streamBytes 2 16 16) ∧ ¬ StreamLegal (streamBytes 0 0 1)) ∧
    part (streamBytes 0 0 0) 20 1 = (binding 0 0 0).hart.r.vtype.sew.toNat ∧ ((binding 2 16 16).senderOf (part (streamBytes 2 16 16) 23 1)).isSome = true ∧
    (binding 0 0 0).canClaim (·.streamRes) Hart.boundStreams 1 = true ∧ slotless.canClaim (·.streamRes) Hart.boundStreams 1 = false := by
  simp only [StreamLegal]; decide +kernel
/-- Stream 7 is bound in mode 1 or 2. -/
def bound7 (mode : Nat) : State := (v64 1 []).mapRegs (fun r => { r with streams := r.streams.set 7 (some
  { desc := { va := 0, base := 0, cnt0 := 1, cnt1 := 1, cnt2 := 1, ew := 3, mode := mode, win := 0, sender := 0, str0 := 0, str1 := 0, str2 := 0, wstr := 0 }
    reg := 8, pos := 0 }) })
theorem witness_StreamUnbinding_member : let s := (bound7 2).mapDev (fun d => { d with groups := [{ sender := 2, receiver := 1, stream := 7, permits := 4 }] })
    ∃ g, s.memberOf 7 = some g := ⟨_, rfl⟩
theorem witness_StreamUnbinding : (v64 1 []).hart.r.streams.getD 7 none = none ∧
    (∃ st, (bound7 2).hart.r.streams.getD 7 none = some st ∧ st.desc.mode = 2) ∧ (∃ st, (bound7 1).hart.r.streams.getD 7 none = some st ∧ st.desc.mode ≠ 2) :=
  ⟨by decide +kernel, ⟨_, rfl, rfl⟩, ⟨_, rfl, by decide⟩⟩
/-- Channel 0: 3 issued, 2 done; x1 to x3 are 2, 3 and 4. -/
def awaiting : State := ((v64 1 [2, 3, 4]).mapRegs (fun r => { r with issued := r.issued.set 0 3 })).mapHart (fun h => { h with done := h.done.set 0 2 })
def reporting : State := awaiting.mapHart (fun h => { h with aerr := { held := some (BitVec.ofNat 64 (2 ^ 56)) } })
theorem witness_TransferWaits : let issued := fun (s : State) (a : Nat) => (s.x a).toNat < 2 ^ 32 ∧
      ((s.x a).setWidth 32 = (0 : BitVec 32) ∨ (s.hart.r.issued.getD 0 0 - (s.x a).setWidth 32).toNat < 2 ^ 31)
    let complete := fun (s : State) (a : Nat) => (s.x a).setWidth 32 = (0 : BitVec 32) ∨ (s.hart.done.getD 0 0 - (s.x a).setWidth 32).toNat < 2 ^ 31
    (issued awaiting 1 ∧ complete awaiting 1) ∧ (issued awaiting 2 ∧ ¬ complete awaiting 2) ∧ ¬ issued awaiting 3 ∧ awaiting.hart.aerr.all = [] ∧
    (issued reporting 1 ∧ reporting.hart.aerr.all = [] ++ BitVec.ofNat 64 (2 ^ 56) :: [] ∧ reportSource (BitVec.ofNat 64 (2 ^ 56)) = 0x01 ∧
      reportChan (BitVec.ofNat 64 (2 ^ 56)) = 0) := by decide +kernel

/-! Command blocks at address 0. -/

def copyBlock (len : Nat) : List Byte := leBytes 8 0x1000 ++ leBytes 8 0x2000 ++ leBytes 8 len ++ leBytes 8 32
def rearrange (cols : Nat) : List Byte := leBytes 8 0x1000 ++ leBytes 8 0x2000 ++ leBytes 8 32 ++ leBytes 1 0 ++ leBytes 1 3 ++ leBytes 2 0 ++ leBytes 4 65535 ++
  leBytes 4 cols ++ zeros 28
def narrowing (n : Nat) : List Byte := leBytes 8 0x1000 ++ leBytes 8 0x2000 ++ leBytes 8 32 ++ leBytes 1 2 ++ zeros 15 ++ leBytes 8 n ++ zeros 16
/-- Channel 0 holds 64 commands. -/
def full : State := (v64 1 [0, 4]).mapRegs (fun r => { r with issued := r.issued.set 0 64 })
theorem witness_CopyCommands : (v64 1 [0, 4]).hart.bound ≠ 0 ∧ (v64 1 []).hart.r.vtype.vill = false ∧ ((v64 1 [0, 4]).x 1).toNat % 64 = 0 ∧
    ((v64 1 [0, 4]).x 2).toNat % 32 ≠ 0 ∧ (v64 1 []).hart.openCommands 0 < 64 ∧ 64 ≤ full.hart.openCommands 0 := by decide +kernel
theorem witness_CopyCommands_copies : CopyLegal (copyBlock (2 ^ 30)) ∧ CopyLegal (copyBlock 1) ∧ ¬ CopyLegal (copyBlock 0) ∧ ¬ CopyLegal (copyBlock (2 ^ 30 + 1)) := by
  simp only [CopyLegal]; decide +kernel
theorem witness_CopyCommands_transforms : XformLegal (rearrange 2048) ∧ ¬ XformLegal (rearrange 2049) ∧ XformLegal (narrowing 1908874240) ∧
    ¬ XformLegal (narrowing (1908874240 + 512)) := by
  refine ⟨?_, ?_, ?_, ?_⟩ <;> simp only [XformLegal] <;> decide +kernel
theorem witness_CopyCommands_read :
    ScalarBytes (withBlock (v64 1 [0]) (copyBlock 1)) 0 32 (copyBlock 1) ∧ ScalarBytes (withBlock full (copyBlock 1)) 0 32 (copyBlock 1) ∧
    ScalarBytes (withBlock (v64 1 [0]) (copyBlock 0)) 0 32 (copyBlock 0) ∧ ScalarBytes (withBlock (v64 1 [0]) (rearrange 1)) 0 64 (rearrange 1) :=
  ⟨⟨by decide, _, _, _, rfl, by decide +kernel⟩, ⟨by decide, _, _, _, rfl, by decide +kernel⟩, ⟨by decide, _, _, _, rfl, by decide +kernel⟩,
    by decide, _, _, _, rfl, by decide +kernel⟩
/-- A sender with one receiver, with permits as given. -/
def sending (permits : Nat) : State := (v64 128 []).mapDev (fun d => { d with groups := [{ sender := 1, receiver := 2, stream := 7, permits := permits }] })
theorem witness_MulticastCommand : (VReady (sending 4) [31] ∧ gOf (sending 4) = 1) ∧
    ((∃ g ∈ (sending 0).dev.groups, (g.sender = (sending 0).hart.uid ∧ g.gone = false) ∧ g.permits = 0) ∧
      ∀ g ∈ (sending 1).dev.groups, g.sender = (sending 1).hart.uid ∧ g.gone = false → 0 < g.permits) ∧
    ((sending 0).mapHart (fun h => { h with iword := 0xC4E31400#32 })).hart.iword = BitVec.ofNat 32 (0x31 * 2 ^ 26 + 7 * 2 ^ 21 + 3 * 2 ^ 16 + 2 * 2 ^ 11 + 2 * 2 ^ 9) ∧
    (sending 1).hart.openCommands 3 < 64 ∧ 64 ≤ full.hart.openCommands 0 ∧ gOf full = 1 ∧ gOf ((v64 1 []).mapRegs (fun r => { r with vtype := { sew := 3, gm := 3 } })) ≠ 1 :=
  ⟨⟨ready_of _ _ (by decide +kernel) rfl (by decide +kernel) ⟨rfl, rfl, rfl⟩ (by decide +kernel) rfl ⟨rfl, rfl, rfl⟩ (by decide +kernel) rfl, by decide +kernel⟩,
    ⟨⟨_, List.mem_singleton.mpr rfl, ⟨rfl, rfl⟩, rfl⟩, by decide +kernel⟩, rfl, by decide +kernel, by decide +kernel, by decide +kernel, by decide +kernel⟩
/-- The blocks of the three merge commands; with a byte that must be zero set, none is legal. -/
def mergeBlocks (z : Nat) : List (List Byte) :=
  [leBytes 8 32 ++ [3, 1] ++ zeros 6 ++ leBytes 8 64 ++ leBytes 8 128 ++ leBytes 4 1048576 ++ leBytes 4 (2 ^ 31) ++ zeros 4 ++ leBytes 1 z ++ zeros 19,
   leBytes 8 32 ++ [3, 0] ++ zeros 6 ++ leBytes 8 4 ++ leBytes 8 8 ++ leBytes 8 12 ++ leBytes 4 (2 ^ 31) ++ leBytes 1 z ++ zeros 19,
   leBytes 8 32 ++ [3, 0] ++ zeros 6 ++ leBytes 8 64 ++ zeros 20 ++ leBytes 1 z ++ zeros 19]
theorem witness_MergeCommands_blocks : (∀ l ∈ mergeBlocks 0, MergeCommon l) ∧ (∀ l ∈ mergeBlocks 1, ¬ MergeCommon l) ∧
    ∀ q, q < 3 → (mergeForms.map (·.2.1)).getD q (fun _ => False) ((mergeBlocks 0).getD q []) := by
  refine ⟨by simp only [MergeCommon]; decide +kernel, by simp only [MergeCommon]; decide +kernel, fun q hq => ?_⟩
  have : q = 0 ∨ q = 1 ∨ q = 2 := by omega
  rcases this with rfl | rfl | rfl <;> simp only [mergeForms, List.map, List.getD_cons_zero, List.getD_cons_succ] <;> decide +kernel
theorem witness_MergeCommands : (let s := withBlock (v64 1 [0, 4]) ((mergeBlocks 0).getD 0 [])
      (s.x 1).toNat % 64 = 0 ∧ (s.x 2).toNat % 64 ≠ 0 ∧ s.hart.openCommands 3 < 64 ∧ ScalarBytes s 0 64 ((mergeBlocks 0).getD 0 [])) ∧
    ScalarBytes (withBlock (v64 1 [0]) ((mergeBlocks 1).getD 0 [])) 0 64 ((mergeBlocks 1).getD 0 []) ∧ VReady (v64 128 []) [0, 31] ∧ sew (v32 256 []) ≠ 64 :=
  ⟨⟨by decide +kernel, by decide +kernel, by decide +kernel, by decide, _, _, _, rfl, by decide +kernel⟩, ⟨by decide, _, _, _, rfl, by decide +kernel⟩,
    ready_of _ _ (by decide +kernel) rfl (by decide +kernel) ⟨rfl, rfl, rfl⟩ (by decide +kernel) rfl ⟨rfl, rfl, rfl⟩ (by decide +kernel) rfl, by decide +kernel⟩

/-! The bond network and sparse registers. -/

/-- Operator slot 0 holds a descriptor of the type given, without micro-ops. -/
def slotted (type : Nat) (s : State) : State := s.mapRegs (fun r => { r with ops := r.ops.set 0 (BitVec.ofNat 256 (256 * type + 1)) })
theorem witness_BondPasses : ((v64 128 []).hart.r.passst = {} ∧ ¬ Blockwise (v64 128 []) 8 ∧ ¬ Blockwise (slotted 11 (v64 128 [])) 0) ∧
    (PassInRange false 0 12 ∧ PassInRange true 12 12 ∧ ¬ PassInRange false 1 12 ∧ ¬ PassInRange true 11 12) ∧
    (OpFits (v64 128 []) 12 64 ∧ OpFits (slotted 11 (v64 128 [])) 0 64 ∧ ¬ OpFits (v8 1024 []) 9 8 ∧ ¬ OpFits (v64 128 []) 0 64 ∧ ¬ OpFits (v64 128 []) 13 64) := by
  simp only [Blockwise, PassInRange, OpFits]
  and_intros <;> decide +kernel
theorem witness_BlockPasses : let s := slotted 5 (v8 1024 [])
    (s.hart.r.passst = {} ∧ Blockwise s 0 ∧ s.slots 0 ≠ 0) ∧ (PassInRange false 5 7 ∧ sew s = 8 ∧ vlen s % 32 = 0 ∧ ∀ t ∈ passStages false 5 7, 5 ≤ t) ∧
    ¬ (∀ t ∈ passStages true 12 8, 5 ≤ t) := by
  simp only [Blockwise, PassInRange]; decide +kernel
theorem witness_SumsAndScans : (∀ y ∈ [FpFmt.fp64, .fp32, .fp16, .bf16], fpWidth y ∈ [sew (v64 128 []), sew (v32 256 []), sew (v16 512 [])]) ∧
    (∀ j : Fin 4, 8 * 2 ^ j.val ∈ [sew (v8 1024 []), sew (v16 512 []), sew (v32 256 []), sew (v64 128 [])]) ∧
    (∃ e, Active (v64 128 []) 0 e) ∧ ¬ (∃ e, Active (v64 0 []) 0 e) ∧
    ((∀ y : FpFmt, y.code = 4 → fpWidth y ≠ 8) ∧ ∀ (sg : Bool) (j : Fin 4), intCode sg j = 4 → 8 * 2 ^ j.val ≠ 8) :=
  ⟨by decide +kernel, by decide +kernel, ⟨0, by decide +kernel, .inl rfl⟩, fun ⟨e, h, _⟩ => absurd h (by have : vlen (v64 0 []) = 0 := (by decide +kernel); omega),
    fun y h => by cases y <;> simp [FpFmt.code] at h, by decide⟩
theorem witness_OperatorTrees : OpFits (v64 128 []) 12 64 ∧ ¬ OpFits (v8 1024 []) 10 8 ∧ OpFits (slotted 11 (v64 128 [])) 0 64 := by
  simp only [OpFits]; decide +kernel
/-- FP32 elements 1, NaN, 2 and 2 with a mask of them all; and a NaN alone. -/
def ranked (mask : Nat) : State := (v32 4 []).mapRegs (fun r => { r with
  v := r.v.set 1 (BitVec.ofNat 8192 (0x3F800000 + 0x7FC00000 * 2 ^ 32 + 0x40000000 * 2 ^ 64 + 0x40000000 * 2 ^ 96)), k := r.k.set 1 (BitVec.ofNat 8192 mask) })
theorem witness_LargestElement : let s := ranked 15
    let counts := fun (s : State) e => e < vlen s ∧ kbit s 1 e = true ∧ (decodeFp .fp32 (el s 32 1 e)).isNan = false
    (FpSew s false ∧ counts s 2 ∧ ∀ e, e < 4 → counts s e → place 32 (el s 32 1 e) ≤ place 32 (el s 32 1 2) ∧ (e < 2 → place 32 (el s 32 1 e) < place 32 (el s 32 1 2))) ∧
    (∀ e, e < 4 → ¬ counts (ranked 2) e) ∧ ¬ FpSew (v8 4 []) false := by
  simp only [FpSew]; decide +kernel
/-- Targets 1 and 0 of 64 bits, and 0 twice. -/
def routed (v : Nat) : State := (v64 2 []).mapRegs (fun r => { r with v := r.v.set 1 (BitVec.ofNat 8192 v) })
theorem witness_Routes : ((sew (routed 1) = 32 ∨ sew (routed 1) = 64) ∧ (∃ m, 1 ≤ m ∧ vlen (routed 1) = 2 ^ m) ∧
      ∀ p, p < vlen (routed 1) → p ∈ (List.range (vlen (routed 1))).map (el (routed 1) 64 1)) ∧
    ¬ (∀ p, p < vlen (routed 0) → p ∈ (List.range (vlen (routed 0))).map (el (routed 0) 64 1)) ∧ vlen (v64 128 []) = 2 ^ 7 :=
  ⟨⟨.inr rfl, ⟨1, by decide, by decide +kernel⟩, by decide +kernel⟩, by decide +kernel, by decide +kernel⟩
theorem witness_OperatorSlots : OpDesc.legal (value (leBytes 32 0x0B01)) = true ∧ OpDesc.legal (value (leBytes 32 0x0B02)) = false ∧
    ((withBlock (v64 1 [0, 4]) (leBytes 32 0x0B01)).x 1).toNat % 32 = 0 ∧ ((withBlock (v64 1 [0, 4]) []).x 2).toNat % 32 ≠ 0 ∧
    ScalarBytes (withBlock (v64 1 [0, 4]) (leBytes 32 0x0B01)) 0 32 (leBytes 32 0x0B01) ∧
    ScalarBytes (withBlock (v64 1 [0, 4]) (leBytes 32 0x0B02)) 0 32 (leBytes 32 0x0B02) :=
  ⟨by decide +kernel, by decide +kernel, by decide +kernel, by decide +kernel, ⟨by decide, _, _, _, rfl, by decide +kernel⟩, by decide, _, _, _, rfl, by decide +kernel⟩
/-- Sparse register 0 has the coordinates 1 and 3 and register 1 the coordinate 3; VL as given. -/
def sparse (vl : Nat) : State := (v64 vl [512, 513]).mapRegs (fun r => { r with
  v := (r.v.set 16 (BitVec.ofNat 8192 (1 + 3 * 2 ^ 64))).set 18 (BitVec.ofNat 8192 (3 + 3 * 2 ^ 64)), slen := (r.slen.set 0 2).set 1 1 })
theorem witness_SparseRegisters_splen : (sparse 2).hart.bound ≠ 0 ∧
    ¬ 256 * groups (sparse 2).hart.bound * gOf (sparse 2) / 2 ^ (sparse 2).hart.r.vtype.sew.toNat < (((sparse 2).mapRegs (fun r => { r with vtype := { sew := 1 } })).x 1).toNat - 384 ∧
    256 * groups (sparse 2).hart.bound * gOf (sparse 2) / 2 ^ (sparse 2).hart.r.vtype.sew.toNat < ((sparse 2).x 2).toNat := by decide +kernel
theorem witness_SparseRegisters : VReady (sparse 2) [] ∧ (gOf (sparse 2) = 1 ∧ sew (sparse 2) ≠ 8 ∧ entries (sparse 2) 0 ≤ vlen (sparse 2) ∧
      entries (sparse 2) 1 ≤ vlen (sparse 2) ∧ Ascending (sparse 2) 0 ∧ Ascending (sparse 2) 1) ∧
    (∀ c, c ∈ [1, 3] ↔ HasCoord (sparse 2) 0 c ∨ HasCoord (sparse 2) 1 c) ∧ ¬ entries (sparse 1) 0 ≤ vlen (sparse 1) := by
  have h : entries (sparse 2) 0 = 2 ∧ entries (sparse 2) 1 = 1 ∧ coord (sparse 2) 0 0 = 1 ∧ coord (sparse 2) 0 1 = 3 ∧ coord (sparse 2) 1 0 = 3 := by decide +kernel
  refine ⟨ready_of _ _ (by decide +kernel) rfl (by decide +kernel) ⟨rfl, rfl, rfl⟩ (by decide +kernel) rfl ⟨rfl, rfl, rfl⟩ (by decide +kernel) rfl,
    ⟨by decide +kernel, by decide +kernel, by decide +kernel, by decide +kernel, fun i j hij hj => ?_, fun i j hij hj => ?_⟩, fun c => ?_, by decide +kernel⟩
  · obtain rfl : i = 0 := by omega
    obtain rfl : j = 1 := by omega
    omega
  · omega
  · constructor
    · intro hc
      rcases List.mem_pair.mp hc with rfl | rfl
      · exact .inl ⟨0, by omega, h.2.2.1⟩
      · exact .inr ⟨0, by omega, h.2.2.2.2⟩
    · rintro (⟨i, hi, e⟩ | ⟨i, hi, e⟩)
      · have : i = 0 ∨ i = 1 := by omega
        rcases this with rfl | rfl <;> simp_all
      · obtain rfl : i = 0 := by omega
        simp_all

/-! Tiles. -/

/-- Tiles on as the bits say; x1 to x3 as given; SEW, VL. -/
def tiled (ten : BitVec 8) (sew : BitVec 2) (vl : Nat) (xs : List Nat) : State :=
  st { x := xregs (0 :: xs), vl := BitVec.ofNat 14 vl, vtype := { sew := sew }, ten := ten, ncl := 2 }
/-- Another hart of the brick has reserved every tile. -/
def tileless : State := (v64 1 []).mapDev (fun d => { d with parked := [{ hart0 {} with num := 1, uid := 2, tileRes := 16 }] })
theorem witness_TileClaims : ((v64 1 []).mapHart (fun h => { h with bound := 0 })).hart.bound = 0 ∧
    ((v64 1 []).hart.bound ≠ 0 ∧ (v64 1 []).hart.r.ncl = 0 ∧ (tiled 3 3 0 []).hart.r.ncl ≠ 0) ∧
    (tileless.hart.r.ncl = 0 ∧ tileless.canClaim (·.tileRes) Hart.claims 1 = false ∧ (v64 1 []).canClaim (·.tileRes) Hart.claims 8 = true) ∧
    TileOn (tiled 3 3 0 []) False 1 ∧ ¬ TileOn (tiled 3 3 0 []) False 2 := by
  simp only [TileOn]; decide +kernel
theorem witness_TileLoadsAndStores : let s := tiled 3 3 0 [0xFC00, 64]
    (s.hart.bound ≠ 0 ∧ TileOn s False 1 ∧ ¬ TileOn s False 7 ∧ tileNeed s 1 2 ≤ s.freeEntries ∧ s.hart.r.tfail = Vector.replicate 8 0) ∧
    (∃ r u, Reached s .read noLane (tilePieces s 1 2) r u ∧ Sees u r (fun _ => zeros 4)) ∧ ∃ r u, Reached s .write noLane (tilePieces s 1 2) r u := by
  have r : (tiled 3 3 0 [0xFC00, 64]).reach .read noLane (tilePieces (tiled 3 3 0 [0xFC00, 64]) 1 2) =
      .ok ((tilePieces (tiled 3 3 0 [0xFC00, 64]) 1 2).map (fun a => (a, (List.range 4).map (fun i => .phys (a.va + i)))), false, tiled 3 3 0 [0xFC00, 64]) := by
    decide +kernel
  have w : (tiled 3 3 0 [0xFC00, 64]).reach .write noLane (tilePieces (tiled 3 3 0 [0xFC00, 64]) 1 2) =
      .ok ((tilePieces (tiled 3 3 0 [0xFC00, 64]) 1 2).map (fun a => (a, (List.range 4).map (fun i => .phys (a.va + i)))), false, tiled 3 3 0 [0xFC00, 64]) := by
    decide +kernel
  refine ⟨by simp only [TileOn]; decide +kernel, ⟨_, _, ⟨_, r⟩, sees_of _ _ _ (by decide +kernel) rfl⟩, _, _, _, w⟩
theorem witness_OuterProducts : (∀ m ∈ outerTypes.map (fun m => (m.1, m.2.1, m.2.2.2.1)), (tiled 3 (BitVec.ofNat 2 (m.2.1.log2 - 3)) 128 []).hart.r.ten = 3 ∧
      sew (tiled 3 (BitVec.ofNat 2 (m.2.1.log2 - 3)) 128 []) = m.2.1 ∧ 128 * m.2.2 % 16 = 0) ∧
    VReady (tiled 3 3 128 []) [0, 31] ∧ VReady (tiled 3 0 1024 []) [0, 31] ∧
    (TileOn (tiled 3 3 128 []) True 0 ∧ TileOn (tiled 3 3 128 []) True 1 ∧ ¬ TileOn (tiled 5 3 128 []) True 0 ∧ ¬ TileOn (tiled 3 3 0 []) False 2) ∧
    (LineOn (tiled 3 3 0 []) 0 15 ∧ ¬ LineOn (tiled 3 3 0 []) 1 31) ∧ vlen (tiled 3 3 127 []) % 16 ≠ 0 :=
  ⟨by decide +kernel, ready_of _ _ (by decide +kernel) rfl (by decide +kernel) ⟨rfl, rfl, rfl⟩ (by decide +kernel) rfl ⟨rfl, rfl, rfl⟩ (by decide +kernel) rfl,
    ready_of _ _ (by decide +kernel) rfl (by decide +kernel) ⟨rfl, rfl, rfl⟩ (by decide +kernel) rfl ⟨rfl, rfl, rfl⟩ (by decide +kernel) rfl,
    by simp only [TileOn]; decide +kernel, by simp only [LineOn]; decide +kernel, by decide +kernel⟩
theorem witness_SliceMoves : (VReady (tiled 3 2 256 [0]) [31] ∧ TileOn (tiled 3 2 256 [0]) (32 = 64) 1) ∧ (TileOn (tiled 3 3 16 [15]) (64 = 64) 0) ∧
    (((tiled 3 3 16 [15]).x 1).toNat < 16 ∧ ((tiled 3 3 16 [15]).x 1).toNat + (vlen (tiled 3 3 16 [15]) + 15) / 16 ≤ 16) ∧
    ¬ ((tiled 3 3 17 [15]).x 1).toNat + (vlen (tiled 3 3 17 [15]) + 15) / 16 ≤ 16 ∧ ¬ ((tiled 3 3 0 [16]).x 1).toNat < 16 :=
  ⟨⟨ready_of _ _ (by decide +kernel) rfl (by decide +kernel) ⟨rfl, rfl, rfl⟩ (by decide +kernel) rfl ⟨rfl, rfl, rfl⟩ (by decide +kernel) rfl, by simp only [TileOn]; decide +kernel⟩,
    by simp only [TileOn]; decide +kernel, by decide +kernel, by decide +kernel, by decide +kernel⟩

/-! Links: port 0 is up and its neighbour is node 5. -/

def linked (q : Port) : State := (v64 1 []).mapDev (fun d => { d with ports := d.ports.set 0 q, cabling := [(0, 5)], tlb := [] })
def up : State := linked { ready := true }
theorem comes_of (s : State) (f : Flit) (hr : (s.dev.port 0).ready = true) (hs : (s.dev.port 0).ackIn = 255) (h : f.seq = 0)
    (h1 : s.dev.released = []) (h2 : s.dev.deferred = []) (h3 : s.dev.groupsHeld = []) : Comes s 0 f :=
  ⟨by decide, hr, by rw [h, hs], by rw [h1]; simp, .inr ⟨by rw [h2]; simp, by rw [h3]; simp⟩⟩
theorem comes_up (f : Flit) (h : f.seq = 0) : Comes up 0 f := comes_of _ f (by decide +kernel) (by decide +kernel) h rfl rfl rfl
/-- The second case of Takes and Serves: a flit that waited comes back. -/
theorem witness_Returns (f : Flit) : Returns (up.mapDev (fun d => { d with released := [(0, f)] })) 0 f :=
  ⟨List.mem_singleton.mpr rfl, (comes_up { f with seq := 0 } rfl).2.2.2.2⟩
theorem witness_PortSequencing : PortUp up 0 ∧ (up.dev.port 0).queue = [] ∧ (({ seq := 0 } : Flit).seq = ((up.dev.port 0).ackIn + 1) % 256 ∧
    ({ seq := 1 } : Flit).seq ≠ ((up.dev.port 0).ackIn + 1) % 256) ∧ (up.dev.port 31).ready = false ∧ up.dev.released = [] ∧ Free up {} :=
  ⟨⟨by decide, by decide +kernel, by decide +kernel, by decide +kernel⟩, by decide +kernel, by decide +kernel, by decide +kernel, rfl, (comes_up {} rfl).2.2.2.2⟩
/-- An unacknowledged flit, resent as often as said; and a port in training. -/
def resending (n : Nat) : State := linked { ready := true, replay := [{}], seq := 1, resends := n }
theorem witness_PortLife : (∀ n ∈ [0, 7, 8], ((resending n).dev.port 0).ready = true ∧ ((resending n).dev.port 0).replay ≠ [] ∧ ((resending n).dev.port 0).resends = n ∧
      (resending n).hart.run ≠ .free ∧ (resending n).dev.slotQueue = [] ∧ (∀ k ∈ (resending n).dev.launches, k.failures = []) ∧ (resending n).dev.outstanding = []) ∧
    (∀ n ∈ [0, 3, 4, 5], ((linked { training := true, fails := n }).dev.port 0).training = true ∧ ((linked { training := true, fails := n }).dev.port 0).ready = false ∧
      ((linked { training := true, fails := n }).dev.port 0).fails = n) := by
  decide +kernel
/-- A message of launch (1, 1) waits for slot 3 of port 0; the hart may have a store on its way to the same node, and the slot may have begun. -/
def message : SlotMsg := { port := 0, uid := 1, strip := 2, so := false, launch := (1, 1), flits := [(8, { pa := 5 * 2 ^ 40 + 8, dst := 5 })] }
def slotting (q : List SlotMsg) (o : List Outstanding) (runs : List (Nat × Nat)) : State := up.mapDev (fun d => { d with
  slots := [(0, 3, (1, 1))], slotQueue := q, outstanding := o, slotRuns := runs, time := { counting := true, dtime := 16384 * 2 + 128 * 3 + 127 } })
def ahead (strip off : Nat) : Outstanding := { owner := .hart 1, kind := 2, pa := 5 * 2 ^ 40 + off, len := 1, strip := strip }
theorem witness_ScheduledSlots : (∀ q ∈ [[], [message]], ∀ o ∈ [[], [ahead 1 0], [ahead 2 8]], ∀ r ∈ [[], [(3, 1)], [(3, 2)]], let s := slotting q o r
      s.dev.slots.find? (fun x => x.1 == 0 && x.2.1 == 3) = some (0, 3, (1, 1)) ∧ s.dev.time.counting = true ∧ s.dev.time.dtime.toNat % 16384 / 128 = 3 ∧
      (lookupKey (128 * 0 + 3) s.dev.slotRuns ≠ some (s.dev.time.dtime.toNat / 16384) ↔ r ≠ [(3, 2)]) ∧
      s.dev.slotQueue.find? (fun y => y.launch == (1, 1) && decide (y.since ≤ 16384 * (s.dev.time.dtime.toNat / 16384) + 128 * 3) && s.dev.carriesTo 0 y) = q.head?) ∧
    (∀ o ∈ [ahead 1 0, ahead 2 8], o.owner = .hart message.uid ∧ o.kind = 2 ∧ o.cls = 0 ∧ nodeOf o.pa % 4096 = message.node ∧
      (o.strip < message.strip ∨ o.strip = message.strip ∧ ∃ x ∈ message.flits, x.2.pa < o.pa + o.len ∧ o.pa ≤ x.2.pa + x.2.len)) := by decide +kernel
/-- Requests: a read of n bytes at an address, a write of one byte, an atomic. -/
def asks (a n : Nat) : Flit := { kind := 0, src := 5, pa := a, len := 3, payload := leBytes 4 n ++ zeros 220 }
def atomicOf (op n last : Nat) : Flit := { kind := 4, src := 5, pa := 8, len := 23, payload := [BitVec.ofNat 8 op, BitVec.ofNat 8 n, BitVec.ofNat 8 last] ++ zeros 221 }
theorem witness_ReadsForOtherNodes : Comes up 0 (asks 0xF000 4096) ∧
    (∀ a ∈ [0xF000, 2 ^ 38 - 4096], flitAt (asks a 4096) 0 4 = 4096 ∧ a % 4096 + 4096 ≤ 4096 ∧ up.dev.own a = true ∧ offsetOf a + 4096 ≤ Config.commandBase ∧
      offsetOf a + 4096 ≤ up.dev.gddr) ∧ (∀ i, (up.dev.poisoned i) = false) ∧
    (let a := up.dev.gddr; up.dev.own a = true ∧ offsetOf a % 64 + 64 ≤ 64 ∧ up.dev.gddr ≤ offsetOf a ∧ offsetOf a + 64 ≤ Config.commandBase) ∧
    (poisoned0.dev.poisoned 0 = true ∧ offsetOf 0 < poisoned0.dev.gddr) ∧ up.dev.own (5 * 2 ^ 40) = false ∧ 4096 < flitAt (asks 0 4097) 0 4 :=
  ⟨comes_up _ rfl, by decide +kernel, fun i => rfl, by decide +kernel, by decide +kernel, by decide +kernel, by decide +kernel⟩
/-- Node 5 holds the address 8, and a flit of its own waits. -/
def grouped : State := up.mapDev (fun d => { d with groupsHeld := [(5, 8)], deferred := [(0, { src := 6 })] })
theorem witness_WritesForOtherNodes : Comes up 0 (asks 0xF000 4096) ∧ MemoryCanonical up ∧ (asks 0 1).len < 224 ∧ (asks 0 1).payload.length = 224 ∧
    (up.dev.own 0xF000 = true ∧ offsetOf 0xF000 + 3 < up.dev.gddr) ∧ up.dev.own (5 * 2 ^ 40) = false ∧
    (∀ op ∈ List.range 11, ∀ n ∈ [32, 64], ∀ l ∈ [0, 1, 2, 3], let f := atomicOf op (n / 8) l
      flitAt f 0 1 = op ∧ flitAt f 1 1 = n / 8 ∧ flitAt f 2 1 = l ∧ up.dev.own f.pa = true ∧ f.pa % (n / 8) = 0 ∧ offsetOf f.pa < up.dev.gddr ∧ up.dev.poisoned 8 = false ∧
        (f.src, f.pa) ∈ grouped.dev.groupsHeld ∧ (f.src, f.pa) ∉ up.dev.groupsHeld) ∧
    poisoned0.dev.poisoned 8 = true ∧ (grouped.dev.released = [] ∧ ∃ x ∈ grouped.dev.deferred, x.2.src = ({ src := 6 } : Flit).src ∧ x.2.cls = 0) :=
  ⟨comes_up _ rfl, ⟨by decide +kernel, by decide +kernel⟩, by decide +kernel, by decide +kernel, by decide +kernel, by decide +kernel, by decide +kernel, by decide +kernel,
    rfl, _, List.mem_singleton.mpr rfl, rfl, rfl⟩
/-- The hart awaits an answer of a kind from node 5. -/
def awaits (kind source : Nat) : Outstanding := { owner := .hart 1, kind := kind, pa := 5 * 2 ^ 40, len := 8, source := source, launch := (1, 1) }
def answering (kind source : Nat) : State := up.mapDev (fun d => { d with outstanding := [awaits kind source] })
theorem witness_AnswersFromOtherNodes : Comes (answering 0 0) 0 { pa := 5 * 2 ^ 40, kind := 1, len := 3, payload := zeros 224 } ∧
    (∀ kind ∈ [0, 2, 4], ∀ source ∈ [0, 1, 4, 5], Oldest (answering kind source).dev.outstanding (fun x => x.kind = kind ∧ x.cls = 0 ∧ x.pa = 5 * 2 ^ 40) [] (awaits kind source) []) ∧
    3 < (awaits 0 0).len ∧ up.hart.run ≠ .free ∧ (∀ l ∈ up.dev.launches, l.failures = []) ∧ up.hart.aerr.held = none ∧ up.dev.launch (1, 1) = some launch0 ∧
    launch0.failures = [] ∧ launch0.reported = [] ∧ up.dev.saved = [] ∧ up.hart.ended = [] ∧ up.dev.closing = [] := by
  refine ⟨comes_of _ _ (by decide +kernel) (by decide +kernel) rfl rfl rfl rfl, ?_, by decide +kernel⟩
  simp only [Oldest]; decide +kernel

/-! Management, time, heat, start-up. -/

/-- A management message: operation, register, and the length of a read or of a write with its value. -/
def manages (op a n : Nat) : Flit := { cls := 2, kind := 0x12, src := 5, payload := leBytes 1 op ++ zeros 3 ++ leBytes 4 a ++ zeros 4 ++ leBytes 4 n ++ zeros 208 }
def managing (a n v : Nat) : Flit := { cls := 2, kind := 0x12, src := 5, payload := leBytes 1 2 ++ zeros 3 ++ leBytes 4 a ++ leBytes 2 n ++ zeros 6 ++ leBytes 4 v ++ zeros 204 }
theorem witness_ManagementReads : Comes up 0 (manages 1 0x138 4) ∧ (manages 1 0x138 4).payload.length = 224 ∧ up.dev.gmc.group.length = 130 ∧
    (∀ a ∈ [0, 0x130, 0x134, 0x138, 0x300, 0xFFF], ∀ n ∈ [0, 1, 4, 65536, 65537], flitAt (manages 1 a n) 0 1 = 1 ∧ flitAt (manages 1 a n) 4 4 = a ∧ flitAt (manages 1 a n) 12 4 = n) ∧
    ∀ k ∈ [15, 16, 64, 65], flitAt (managing 0 k 0) 8 2 = k ∧ flitAt (managing 0 k 0) 4 4 = 0 :=
  ⟨comes_up _ rfl, by decide +kernel⟩
def recovering : State := up.mapDev (fun d => { d with gmc := { d.gmc with recovery := true } })
theorem witness_ManagementWrites : Comes up 0 (managing 0x200 4 100) ∧ Comes recovering 0 (managing 0x200 4 100) ∧
    (managing 0x200 4 100).payload.length = 224 ∧ up.dev.gmc.recovery = false ∧ recovering.dev.gmc.recovery = true ∧
    (∀ a ∈ [0x200, 0x210, 0x220, 0x230, 0x1000], ∀ n ∈ [1, 2, 4], ∀ v ∈ [64, 65, 99, 100, 10000, 10001],
      flitAt (managing a n v) 4 4 = a ∧ flitAt (managing a n v) 8 2 = n ∧ flitAt (managing a n v) 16 4 = v) ∧ ((up.dev.port 0).broken = false ∧ ((linked { broken := true }).dev.port 0).broken = true) ∧
    (∀ v ∈ [64, 65], value ((up.dev.gmc.group.take 0 ++ ((managing 0x1000 2 v).payload.drop 16).take 2 ++ up.dev.gmc.group.drop 2).take 2) = v) :=
  ⟨comes_up _ rfl, comes_of _ _ (by decide +kernel) (by decide +kernel) rfl rfl rfl rfl, by decide +kernel⟩
def withTime (t : TimeFn) : State := up.mapDev (fun d => { d with time := t })
theorem witness_PrecisionTime : Comes up 0 { kind := 0x20 } ∧ Returns (up.mapDev (fun d => { d with released := [(0, { kind := 0x20 })] })) 0 { kind := 0x20 } ∧
    ((withTime { acting := true }).dev.time.acting = true ∧ ((withTime { acting := true }).dev.port 0).ready = true ∧ (withTime {}).dev.time.acting = false ∧
      ((withTime {}).dev.port 31).ready = false) ∧
    ((withTime { counting := true, inRange := 16 }).dev.time.counting = true ∧ 16 ≤ (withTime { counting := true, inRange := 16 }).dev.time.inRange ∧
      (withTime { counting := true, inRange := 15 }).dev.time.inRange < 16) ∧
    (∀ t ∈ [({ locked := true, missed := 8 } : TimeFn), { locked := true, outside := true }], (withTime t).dev.time.locked = true ∧ (8 ≤ t.missed ∨ t.outside = true)) ∧
    ((withTime { locked := true, missed := 7 }).dev.time.missed < 8 ∧ (withTime { locked := true, missed := 7 }).dev.time.outside = false) :=
  ⟨comes_up _ rfl, witness_Returns _, by decide +kernel⟩
/-- Heat at a time; a notice of a hold of 100 µs from 5,000 ns on. -/
def heated (th : Thermal) (now : Nat) : State := (withTime { dtime := BitVec.ofNat 64 now }).mapDev (fun d => { d with thermal := th })
def notice (us : Nat) : Flit := { cls := 2, kind := 0x11, src := 5, payload := zeros 8 ++ leBytes 8 5000 ++ leBytes 4 us ++ zeros 204 }
theorem witness_ThrottleHolds : up.hart.run = .running ∧ Comes up 0 (notice 100) ∧
    (∀ us ∈ [99, 100, 10000, 10001], flitAt (notice us) 16 4 = us ∧ flitAt (notice us) 8 8 = 5000) ∧
    (let s := heated { pending := [(5000, 105000), (5001, 105001)] } 5000
     s.dev.thermal.pending = [] ++ (5000, 105000) :: [(5001, 105001)] ∧ 5000 ≤ s.dev.time.dtime.toNat ∧ (∀ x ∈ [] ++ [(5001, 105001)], s.dev.time.dtime.toNat < x.1) ∧
       s.dev.time.dtime.toNat < 105000 ∧ s.dev.thermal.hold = none) ∧
    (∀ now ∈ [105000, 104999], ∀ w ∈ [true, false], (heated { hold := some 105000, warm := w, mine := true } now).dev.time.dtime.toNat = now) :=
  ⟨rfl, comes_up _ rfl, by decide +kernel⟩
def changing : State := up.mapDev (fun d => { d with bricks := [(0, { change := some true })] })
theorem witness_ChangeoversAndEnergy : up.hart.run = .running ∧ changing.brick.change = some true ∧ up.brick.change = none ∧ up.dev.parked = [] ∧ up.dev.saved = [] := by
  decide +kernel
/-- So many units have been started; in recovery mode, in which courses are and bricks are not, or not. -/
def starting (k : Nat) (rec : Bool) : State := up.mapDev (fun d => { d with
  ports := d.ports.set 31 { training := true, fails := 4 }, gmc := { d.gmc with verified := !rec, recovery := rec, startedUnits := k } })
theorem witness_BringUp : (∀ k ∈ [0, 288, 1183, 1184], (starting k false).dev.gmc.verified = true ∧ (starting k false).dev.gmc.startedUnits = k) ∧
    (let passedOver := fun j => (starting 1 true).dev.gmc.recovery = true ∧ j % 296 < 272 ∧ j % 296 % 17 ≠ 0
     ¬ passedOver 17 ∧ (∀ j, j < 17 → 1 ≤ j → passedOver j) ∧ ¬ passedOver 0) ∧
    (296 * (63 / 16) + 17 * (63 % 16) < 1184 ∧ 296 * (1023 / 256) + 17 * (1023 / 16 % 16) + 1 + 1023 % 16 < 1184 ∧ 296 * (127 / 32) + 272 + 127 % 32 / 2 < 1184 ∧
      296 * (31 / 8) + 288 + 31 % 8 < 1184) ∧
    (let s := starting 1184 false
     (s.dev.gmc.readyCourse.getLsbD 63 = false ∧ s.dev.gmc.failCourse.getLsbD 63 = false ∧ s.dev.gmc.readyBrick.getLsbD 1023 = false ∧
      s.dev.gmc.failBrick.getLsbD 1023 = false ∧ s.dev.gmc.readyChan.getLsbD 127 = false ∧ s.dev.gmc.failChan.getLsbD 127 = false ∧ s.dev.gmc.recovery = false) ∧
      (s.dev.port 31).ready = false ∧ (s.dev.port 31).fail = false ∧ (s.dev.port 31).training = true ∧ (s.dev.port 31).fails < 5) ∧
    (up.dev.gmc.verified = false ∧ up.dev.gmc.recovery = false) := by decide +kernel
def bad0 : State := up.mapDev (fun d => { d with latent := [(0, false), (1, true)] })
theorem witness_StorageErrors : 64 * (2 ^ 32 - 1) < up.dev.gddr ∧ (0, false) ∈ bad0.dev.latent ∧
    (0, false) ∉ up.dev.latent ∧ up.dev.gmc.log.length < 1024 ∧ up.brick.retired.getLsbD 3 = false ∧ up.hart.run = .running ∧ up.dev.parked = [] ∧
    ∀ h ∈ up.harts, h.brick = 0 → h.bound.getLsbD 3 = true → h.inflight = [] := by decide +kernel

/-! The host's windows: device memory from the command base on is the windows', 4 GiB each. -/

/-- A write of eight bytes to a register of a window. -/
def puts (v r w : Nat) : Flit := { kind := 2, src := 5, vmid := v, pa := Config.commandBase + v * 2 ^ 32 + r, len := 7, payload := leBytes 8 w ++ zeros 216 }
theorem puts_of (v r w : Nat) (h : (v < 64 ∧ r < 2 ^ 32) ∧ up.dev.own (puts v r w).pa = true ∧ offsetOf (puts v r w).pa = Config.commandBase + v * 2 ^ 32 + r ∧
    (puts v r w).payload.length = 224 ∧ BitVec.ofNat 64 w = BitVec.ofNat 64 (part (puts v r w).payload 0 8)) : PutsWord up (puts v r w) v r (BitVec.ofNat 64 w) :=
  ⟨⟨h.1, h.2.1, h.2.2.1, rfl, .inr rfl, h.2.2.2.1⟩, rfl, h.2.2.2.2⟩
/-- Queue 0 as given. -/
def queued (k : Queue) : State := up.mapDev (fun d => { d with queues := [(0, k)] })
theorem witness_WindowRegisters : Comes up 0 (puts 0 0 5) ∧ PutsWord up (puts 0 0x38 10) 0 0x38 10 ∧ PutsWord up (puts 63 0 5) 63 0 5 ∧
    ((up.dev.queue 4095).vmid = 0 ∧ (up.dev.queue 0).en = (2 ^ 62 : Word).getLsbD 63) ∧
    (∀ op ∈ [1, 2, 3], (0x0007 : Word).toNat / 2 ^ 12 % 16 ≠ op) ∧
    (∀ r ∈ [0x1000, 0xFFF8, 0x50000000, 0xFFFFFFF8], up.dev.own (puts 1 r 0).pa = true ∧ offsetOf (puts 1 r 0).pa = Config.commandBase + 1 * 2 ^ 32 + r ∧
      (0x1000 ≤ r ∧ r < 0x10000 ∧ 1 ≠ 0 ∨ 0x50000000 ≤ r)) :=
  ⟨comes_up _ rfl, puts_of 0 0x38 10 (by decide +kernel), puts_of 63 0 5 (by decide +kernel), by decide +kernel⟩
theorem witness_QueuesContextsAndEvents : PutsWord up (puts 0 (configAt 0) (2 ^ 63)) 0 (configAt 0) (BitVec.ofNat 64 (2 ^ 63)) ∧
    (((2 : Nat) ^ 63 / 2 ^ 52 % 16 ≤ 10) ∧ RingHere up (up.dev.queue 0).base ∧ RingHere up (up.dev.queue 0).cmpl ∧ ∀ l ∈ up.dev.launches, l.queue ≠ 0) ∧
    ((queued { en := true }).dev.queue 0).en = true ∧ (BitVec.ofNat 64 (2 ^ 62)).getLsbD 63 = false ∧
    (63 < 2 ^ 6 ∧ (0 + 2 ^ 6 - 0) % 2 ^ 6 ≤ (63 + 2 ^ 6 - 0) % 2 ^ 6 ∧ ¬ 64 < 2 ^ 6) ∧ (up.dev.tenant 0).even = false ∧
    (∀ l ∈ up.dev.launches, l.record.ctx ≠ 2) ∧ (∃ l ∈ up.dev.launches, l.record.ctx = 1) ∧ (up.dev.tenant 0).owes = false := by
  refine ⟨puts_of 0 (configAt 0) (2 ^ 63) (by decide +kernel), ?_, by decide +kernel⟩
  simp only [RingHere]; decide +kernel
/-- Tenant 0's events go to a ring at 0x10000; so many have been produced, and an event may have been dropped. -/
def evented (n : Nat) (owes : Bool) : State := (queued { en := true }).mapDev (fun d => { d with
  tenants := [(0, { evbase := 0x10000, even := true, evprod := BitVec.ofNat 64 n, owes := owes })] })
theorem witness_EventRing : (∀ n ∈ [0, 255, 256], let s := evented n false
      MemoryCanonical s ∧ (s.dev.queue 0).en = true ∧ 2 ^ ((s.dev.queue 0).qsz + 6) ≤ (64 : Word).toNat % 2 ^ 16 ∧ (s.dev.tenant 0).even = true ∧ (s.dev.tenant 0).owes = false) ∧
    ((evented 255 false).dev.tenant 0).evprod - ((evented 255 false).dev.tenant 0).evcons ≠ BitVec.ofNat 64 (2 ^ 8) ∧
    ((evented 256 true).dev.tenant 0).evprod - ((evented 256 true).dev.tenant 0).evcons = BitVec.ofNat 64 (2 ^ 8) ∧
    (let k := (evented 256 true).dev.tenant 0
     k.owes = true ∧ (k.evcons ≤ 1 ∧ (1 : Word) ≤ k.evprod ∧ k.evprod - 1 ≠ BitVec.ofNat 64 (2 ^ 8)) ∧
       k.evprod - k.evcons ≠ BitVec.ofNat 64 (2 ^ ((2 ^ 63 + 1 : Word).toNat % 16 + 8))) ∧
    ∀ i ∈ [0, 255, 256], up.dev.own ((base52 0x10000).toNat + 16 * i) = true ∧ offsetOf ((base52 0x10000).toNat + 16 * i) + 16 ≤ up.dev.gddr := by
  simp only [MemoryCanonical]; decide +kernel
/-- A signal push of 16 bytes to queue 0. -/
def pushes (op o : Nat) : Flit := { kind := 2, src := 5, pa := Config.commandBase + pageAt 0 + 0x40 + o, len := 15, payload := leBytes 1 op ++ zeros 1 ++ leBytes 2 1023 ++ zeros 4 ++ leBytes 8 5 ++ zeros 208 }
theorem witness_SignalLane : (∀ o ∈ [0, 15], (up.dev.own (pushes 1 o).pa = true ∧ offsetOf (pushes 1 o).pa = Config.commandBase + 0 * 2 ^ 32 + (pageAt 0 + 0x40 + o))) ∧
    (∀ op ∈ [1, 2, 3], part (pushes op 0).payload 0 1 = op ∧ part (pushes op 0).payload 1 1 = 0 ∧ part (pushes op 0).payload 2 2 = 1023 ∧ part (pushes op 0).payload 4 4 = 0) ∧
    ((up.dev.queue 0).lane.length < 2 ∧ (up.dev.queue 0).held = [] ∧ (up.dev.tenant 0).even = false) ∧
    ((queued { lane := [{ add := true, sig := 1, value := 2 }, { add := false, sig := 1, value := 2 }] }).dev.queue 0).lane =
      { add := true, sig := 1, value := 2 } :: [{ add := false, sig := 1, value := 2 }] ∧
    ((queued { held := [(0, pushes 1 0)] }).dev.queue 0).held = (0, pushes 1 0) :: [] ∧ sigEntry (pushes 1 0) = some { add := false, sig := 1023, value := 5 } := by decide +kernel
/-- A device whose hart's brick holds the page at 0, and one that is busy with a shootdown. -/
def shot (busy : Bool) : State := up.mapDev (fun d => { d with tlb := [page0], sched := { d.sched with invBusy := busy, inv := 1 } })
/-- Context 1 has a table at 0x10000, whose table at 0x20000 maps the first GiB to itself. -/
def mapped : State := up.mapDev (fun d => { d with
  ctxents := [(1, { valid := true, vmid := 1, root := 0x10000 })], mem := Memory.writeBytes (Memory.writeBytes [] 0x10000 (leBytes 8 0x20001)) 0x20000 (leBytes 8 0xF) })
theorem witness_Shootdowns_walk : (∃ h ∈ mapped.harts, h.brick = 0 ∧ h.ctx = 1 ∧ h.vmid = 1) ∧ mapped.dev.tlbFind 0 1 1 0x12345 = none ∧ ∃ e, mapped.dev.walk 1 0x12345 = .ok e :=
  ⟨⟨mapped.hart, by decide +kernel⟩, by decide +kernel, _, rfl⟩
theorem witness_Shootdowns : PutsWord up (puts 0 0x60 0x10001) 0 0x60 (BitVec.ofNat 64 0x10001) ∧ PutsWord up (puts 0 0x60 0xC001) 0 0x60 (BitVec.ofNat 64 0xC001) ∧
    ((BitVec.ofNat 64 0x10001).getLsbD 16 = true ∧ (BitVec.ofNat 64 0xC001).toNat / 2 ^ 14 % 4 = 3 ∧ (BitVec.ofNat 64 0xC001).getLsbD 16 = false) ∧
    ((shot false).dev.sched.invBusy = false ∧ (shot true).dev.sched.invBusy = true) ∧
    ((shot false).hart.run = .running ∧ (shot false).hart.ctx = 1 ∧ (shot false).hart.ended = [] ∧ page0 ∈ (shot false).dev.tlb ∧ page0.ctx = 1 ∧ page0.brick = (shot false).hart.brick) ∧
    ((shot true).translatedBefore 1 = false ∧ ((shot true).mapDev (fun d => { d with outstanding := [awaits 0 0] })).translatedBefore 1 = true) ∧ OwnPlace (shot false) :=
  ⟨puts_of 0 0x60 0x10001 (by decide +kernel), puts_of 0 0x60 0xC001 (by decide +kernel), by decide +kernel, by decide +kernel, by decide +kernel, by decide +kernel,
    fun h hh => absurd hh List.not_mem_nil⟩

/-! The scheduler, gangs and barriers. -/

/-- A device with slots in its save pool at 0x100000. -/
def pooled (slots : Nat) (c : SchedRegs) : State := up.mapDev (fun d => { d with sched := { c with savePool := 0x100000, saveSlots := slots } })
theorem witness_SchedulerCommands : (∀ w ∈ [0x1001, 0x2001, 0x3001, 0x1000], PutsWord up (puts 0 0x40 w) 0 0x40 (BitVec.ofNat 64 w)) ∧
    ((pooled 0 {}).dev.sched.busy = false ∧ (pooled 0 { busy := true }).dev.sched.busy = true ∧ (pooled 0 {}).hart.run = .running ∧ (pooled 0 {}).dev.parked = [] ∧
      (pooled 0 {}).hart.ctx = 1 ∧ (∀ l ∈ (pooled 0 {}).dev.launches, l.record.ctx = 1 → l.record.gang = false) ∧ (pooled 0 {}).dev.sched.heldCtx = [] ∧ (pooled 0 {}).hart.fork = .none) ∧
    ((pooled 0 {}).dev.sched.saveSlots = (pooled 0 {}).dev.saved.length ∧ (pooled 1 {}).dev.saved.length < (pooled 1 {}).dev.sched.saveSlots) ∧
    (pooled 1 { busy := true, cmd := 0x3001 }).dev.sched.cmd.toNat / 2 ^ 12 % 16 = 3 ∧
    (let s := (pooled 1 { busy := true, cmd := 0x3001 }).mapDev (fun d => { d with saved := [{ slot := 0, hart := hart0 {} }] })
     s.dev.saved = [{ slot := 0, hart := hart0 {} }] ∧ (hart0 {}).ctx = s.dev.sched.cmd.toNat % 2 ^ 12 ∧ s.dev.slotAt 0 = some 0x100000 ∧ Memory.wf s.dev.mem = true ∧ s.dev.bricks = []) := by
  refine ⟨fun w h => ?_, by decide +kernel⟩
  simp only [List.mem_cons, List.not_mem_nil, or_false] at h
  rcases h with rfl | rfl | rfl | rfl <;> exact puts_of 0 0x40 _ (by decide +kernel)
/-- A launch record of context 1 with one hart, with its flags and its weight as given. -/
def recordBytes (flags weight : Nat) : List Byte :=
  [1, 1] ++ leBytes 2 flags ++ leBytes 4 9 ++ leBytes 8 0x200 ++ zeros 8 ++ leBytes 2 1 ++ [1, BitVec.ofNat 8 weight] ++ zeros 4 ++ leBytes 4 1 ++ leBytes 4 1 ++ leBytes 4 1 ++ leBytes 4 1 ++ zeros 80
/-- Queue 0 of tenant v has that record at address 0; brick 0 is ready. -/
def submitted (v flags weight done : Nat) : State := (withBlock up (recordBytes flags weight)).mapDev (fun d => { d with
  queues := [(0, { en := true, vmid := v, tail := 1, reads := 8 + done, done := 1 })], ctxents := [(1, { valid := true, vmid := 1 })]
  gmc := { d.gmc with schedRunning := true, readyBrick := 1, readyCourse := 1 } })
theorem witness_LaunchRecords_bytes : FieldsLegal (recordBytes 63 1) ∧ ¬ FieldsLegal (recordBytes 64 1) ∧ ¬ FieldsLegal (recordBytes 63 0) := by
  simp only [FieldsLegal]
  refine ⟨?_, fun h => ?_, fun h => ?_⟩
  · and_intros <;> decide +kernel
  · exact absurd h.2.2.1 (by decide +kernel)
  · exact absurd h.2.2.2.2.2.2.2.2.1 (by decide +kernel)
theorem witness_LaunchRecords : (∀ v ∈ [1, 2], ∀ f ∈ [0, 1], ∀ w ∈ [0, 1],
      let s := submitted v f w 0
      let k := s.dev.queue 0
      let l := Memory.readBytes s.dev.mem (offsetOf k.base + 128 * k.head) 128
      l = recordBytes f w ∧ (s.dev.gmc.schedRunning = true ∧ k.en = true ∧ k.head ≠ k.tail ∧ k.reads + 1 ≤ k.done + 8) ∧ (s.dev.tenant k.vmid).even = false) ∧
    (let l := recordBytes 1 1
     (∀ i, i < 4 → part l (48 + i) 1 = 0) ∧ part l 112 8 = 0 ∧ part l 56 4 = 0 ∧ (BitVec.ofNat 16 (part l 2 2)).getLsbD 3 = false ∧ (BitVec.ofNat 16 (part l 2 2)).getLsbD 5 = false ∧
     part l 26 1 = 1 ∧ part l 24 2 = 1) ∧
    ((submitted 1 1 1 0).dev.ctxent 1).valid = true ∧ ((submitted 1 1 1 0).dev.ctxent 1).vmid = 1 ∧
    ((submitted 1 1 1 0).dev.gmc.readyBrick.getLsbD 0 = true ∧ (submitted 1 1 1 0).dev.gmc.readyCourse.getLsbD (0 / 16) = true ∧ ((submitted 1 1 1 0).dev.brick 0).retired = 0) ∧
    ¬ ((submitted 1 1 1 1).dev.queue 0).reads + 1 ≤ ((submitted 1 1 1 1).dev.queue 0).done + 8 := by decide +kernel
/-- One launch whose one hart has ended; the hart in focus is another's. -/
def ending (startat now : Nat) : State := (withTime { dtime := BitVec.ofNat 64 now }).mapDev (fun d => { d with
  launches := [{ queue := 1, seq := 1, record := { ctx := 1, vmid := 1, flags := 5, startat := BitVec.ofNat 64 startat, levels := Vector.replicate 4 { extent := 1 } }, ended := [0], ran := 1 }] })
def finished1 : State := (ending 0 7).mapHart (fun h => { h with queue := 2 })
theorem witness_LaunchCompletion : (∃ l, (ending 7 7).dev.launches = [l] ∧ l.record.startat ≤ (ending 7 7).dev.time.dtime) ∧
    (∃ l, (ending 8 7).dev.launches = [l] ∧ (ending 8 7).dev.time.dtime < l.record.startat) ∧
    ∃ l, finished1.dev.launches = [l] ∧ l.queue = 1 ∧ l.seq = 1 ∧ l.record.marker = false ∧ l.failures = [] ∧ (∀ i, i < hartCount l.record.levels → i ∈ l.ended) ∧
      (∀ h ∈ finished1.harts, h.launch ≠ (1, 1)) ∧ finished1.dev.saved = [] ∧ finished1.dev.outstanding = [] ∧ finished1.dev.slotQueue = [] ∧ finished1.dev.courses = [] ∧
      (finished1.dev.tenant (finished1.dev.queue 1).vmid).even = false :=
  ⟨⟨_, rfl, by decide +kernel⟩, ⟨_, rfl, by decide +kernel⟩, _, rfl, by decide +kernel⟩
/-- A launch on a device all of whose channels are ready, with brick 1 the only one. -/
def launch1 : Launch := { queue := 1, seq := 1, record := { ctx := 1, vmid := 1, lgph := 3, tiles := 8, streams := 8, levels := Vector.replicate 4 { extent := 1 } },
                          sigSeen := true, startSeen := true }
def eligible : State := { hart := {}, dev := { gmc := { schedRunning := true, readyChan := BitVec.allOnes 128, readyBrick := 2, readyCourse := 1 }, launches := [launch1] } }
theorem witness_Dispatch : (eligible.dev.sched.busy = false ∧ eligible.dev.gmc.schedRunning = true ∧ (∀ c, c < 128 → eligible.dev.gmc.readyChan.getLsbD c = true) ∧
      eligible.dev.thermal.limit = false ∧ eligible.hart.run = .free ∧ eligible.dev.parked = [] ∧ eligible.dev.saved = []) ∧
    (∃ l, eligible.dev.launches = [l] ∧ let r := l.record
      r.marker = false ∧ l.killed = false ∧ r.flags.getLsbD 3 = false ∧ r.flags.getLsbD 5 = false ∧ (∀ x ∈ r.levels.toList, x.place ≠ 5) ∧ l.sigSeen = true ∧
      l.startSeen = true ∧ eligible.dev.sched.heldCtx = [] ∧ r.slotmask = 0 ∧ l.placed = [] ∧ l.home = [] ∧ l.owed = none ∧ 0 < hartCount r.levels ∧ r.tiles ≤ 8 ∧
      r.streams ≤ 8 ∧ r.lgph < 4) ∧
    (eligible.dev.gmc.readyBrick.getLsbD 1 = true ∧ eligible.dev.gmc.readyCourse.getLsbD (1 / 16) = true ∧ (∀ a, a < 1 → eligible.dev.gmc.readyBrick.getLsbD a = false) ∧ (eligible.dev.brick 1).retired = 0) ∧
    up.dev.gmc.schedRunning = false :=
  ⟨by decide +kernel, ⟨_, rfl, by decide +kernel⟩, by decide +kernel, by decide +kernel⟩
theorem witness_SavesAndRestores : let s := (pooled 1 {}).mapHart (fun h => { h with run := .stopped })
    (s.hart.run = .stopped ∧ s.brick.change = none ∧ s.dev.saved = [] ∧ 0 < s.dev.sched.saveSlots ∧ s.dev.sched.busy = false ∧ s.hart.entry = none ∧ s.hart.vqueue = [] ∧ s.hart.inflight = [] ∧ s.hart.pendCsr = [] ∧
      s.hart.ended = [] ∧ s.hart.strip = {} ∧ s.hart.r.streams = Vector.replicate 8 none) ∧ ((pooled 1 {}).mapHart (fun h => { h with run := .restoring })).hart.run = .restoring := by
  decide +kernel
/-- A gang of two devices, whose hart here is the one in focus. -/
def gangOf (phase : GangPhase) (run : RunState) (now : Nat) : State := ((withTime { dtime := BitVec.ofNat 64 now }).mapHart (fun h => { h with run := run })).mapDev (fun d => { d with
  launches := [{ queue := 1, seq := 1, record := { ctx := 1, vmid := 1, gangid := 7, levels := (Vector.replicate 4 { extent := 1 }).set 0 { extent := 2, place := 5 } }, nodes := [0, 5], phase := phase }] })
def token (kind gang bar from' phase : Nat) : Flit :=
  let l := zeros 2 ++ leBytes 2 gang ++ leBytes 2 from' ++ leBytes 2 bar ++ leBytes 8 5000 ++ leBytes 4 1 ++ leBytes 4 phase ++ zeros 200
  { cls := 2, kind := kind, src := 5, payload := l }
theorem witness_GangTokens : Comes (gangOf .ready .token 0) 0 (token 0x13 7 0 1 0) ∧
    (∀ l ∈ (gangOf .ready .token 0).dev.launches, l.record.gangid ≠ flitAt (token 0x13 8 0 1 0) 2 2 ∨ l.record.gangid = 0) ∧
    (∀ ph ∈ [GangPhase.ready, .go 5000, .started], ∀ run ∈ [RunState.token, .running], ∀ now ∈ [4999, 5000], let s := gangOf ph run now
      s.dev.sched.busy = false ∧ s.dev.saved = [] ∧ s.hart.launch = (1, 1) ∧ s.dev.parked = [] ∧ s.brick.retired = 0 ∧ s.hart.run = run ∧ s.hart.ended = [] ∧
      s.dev.time.dtime.toNat = now ∧ ∃ l ∈ s.dev.launches, s.dev.launches = [l] ∧ l.record.gangid = flitAt (token 0x13 7 0 1 0) 2 2 ∧ l.record.gangid ≠ 0 ∧
        (∃ x ∈ l.record.levels.toList, x.place = 5) ∧ l.relay = false ∧ l.phase = ph ∧ l.record.devidx = 0) ∧
    (∀ c ∈ [true, false], ((gangOf (.go 5000) .token 5000).mapDev (fun d => { d with thermal := { limit := c } })).dev.thermal.limit = c) ∧
    (∀ n ∈ [0, 1], ((gangOf .started .running 0).mapDev (fun d => { d with sched := { saveSlots := n } })).dev.sched.saveSlots = n) :=
  ⟨comes_of _ _ (by decide +kernel) (by decide +kernel) rfl rfl rfl rfl, by decide +kernel, by decide +kernel⟩
/-- Barrier 15 of a launch at which some have arrived, with the hart waiting. -/
def gathered (scope : Nat) (arrived : List Nat) (w : Wait) : State := ((gangOf .started .running 0).mapHart (fun h =>
  { h with levels := (Vector.replicate 4 { extent := 1 }).set 0 { extent := 2, place := 5 }, wait := w, arrivals := [{ bar := 15, scope := scope, phase := 0, strip := 0 }] })).mapDev
  (fun d => { d with barriers := [{ queue := 1, seq := 1, num := 15, scope := scope, inst := 0, arrived := arrived }] })
theorem witness_BarrierReleases_all : ∃ l, (gathered 4 [0] (.barw 15)).dev.launches = [l] ∧
    (∃ b, (gathered 4 [0] (.barw 15)).dev.barriers = [b] ∧ b.queue = l.queue ∧ b.seq = l.seq ∧ b.arrived ≠ [] ∧ b.scope ≠ 5 ∧
      (∀ i ∈ barrierMembers l.record.levels b.scope b.inst, i ∈ b.arrived ∨ i ∈ l.ended) ∧
      (gathered 4 [0] (.barw 15)).hart.levels = l.record.levels ∧ (gathered 4 [0] (.barw 15)).hart.index ∈ barrierMembers l.record.levels b.scope b.inst) :=
  ⟨_, rfl, _, rfl, by decide +kernel⟩
theorem witness_BarrierReleases_system : (∃ l, (gathered 5 [0] (.barw 15)).dev.launches = [l] ∧ l.devices = 2 ∧ l.record.devidx = 0 ∧
      (∀ i ∈ barrierMembers l.record.levels 5 0, i ∈ ((gathered 5 [0] (.barw 15)).dev.barrier l 15 5 0).arrived) ∧
      ¬ (∀ i ∈ barrierMembers l.record.levels 5 0, i ∈ ((gathered 5 [] (.barw 15)).dev.barrier l 15 5 0).arrived) ∧
      flitAt (token 0x10 7 15 1 0) 20 4 = ((gathered 5 [0] (.barw 15)).dev.barrier l 15 5 0).phase) ∧
    flitAt (token 0x10 7 15 1 0) 6 2 = 15 ∧ flitAt (token 0x10 7 16 1 0) 6 2 = 16 ∧ flitAt (token 0x10 7 15 1 0) 4 2 = 1 :=
  ⟨⟨_, rfl, by decide +kernel⟩, by decide +kernel⟩

/-! Between a hart's instructions, and the engines. -/

/-- The hart has ended a strip. -/
def closing (st : Strip) : State := up.mapHart (fun h => { h with ended := [{ strip := st, ckpt := h.ckpt }] })
def stored8 : Strip := { stores := [{ va := 8, place := [.phys 8], data := [7], path := .s, elem := 0, soft := false, ins := 0 }], used := 1, count := 1 }
/-- A copy of 32 bytes from 0x1000 to an address; and its command. -/
def copied (dst : Nat) : CopyBlock :=
  { xform := false, kind := 0, ecode := 0, rows := 0, cols := 0, n := 0, src := 0x1000, dst := BitVec.ofNat 64 dst, len := 32, record := 0 }
theorem witness_StripsClose : (up.hart.run = .running ∧ (closing stored8).hart.inflight = [] ∧ (closing stored8).hart.ended = { strip := stored8, ckpt := up.hart.ckpt } :: [] ∧
      stored8.cmds = [] ∧ NoFailures (closing stored8) ∧ MemoryCanonical (closing stored8) ∧ (closing stored8).dev.onWay 1 = [] ∧ PlainStores (closing stored8) stored8) ∧
    (∃ e, (closing { cmds := [.copy 0 1 (copied 0x2000)] }).hart.ended = [e] ∧ e.strip.stores = [] ∧ e.strip.cmds = [.copy 0 1 (copied 0x2000)]) ∧
    (∃ e, (closing { cmds := [.merge 0 1 (.push [])] }).hart.ended = [e] ∧ e.strip.stores = [] ∧ e.strip.cmds = [.merge 0 1 (.push [])]) ∧
    (up.mapHart (fun h => { h with strip := stored8 })).hart.strip.stores ≠ [] ∧ up.hart.strip.stores = [] ∧
    ((closing stored8).mapHart (fun h => { h with inflight := [{ word := 0, pc := 0 }] })).hart.inflight ≠ [] := by
  refine ⟨⟨rfl, rfl, rfl, rfl, by simp only [NoFailures]; decide +kernel, ⟨by decide +kernel, by decide +kernel⟩, by decide +kernel, ?_⟩, ⟨_, rfl, rfl, rfl⟩, ⟨_, rfl, rfl, rfl⟩, by decide +kernel, rfl, by decide +kernel⟩
  refine ⟨by decide +kernel, fun b hb => ?_⟩
  obtain rfl : b = _ := List.mem_singleton.mp hb
  exact ⟨by decide, rfl, rfl, by decide +kernel, fun p hp => ⟨8, by simpa using hp, by decide +kernel⟩⟩
/-- A hart that waits; and one whose smcast of register 0 stands first in its queue, with a receiver that has given so many permits. -/
def waitingFor (w : Wait) (change : Option Bool) : State := (up.mapHart (fun h => { h with wait := w })).mapDev (fun d => { d with bricks := [(0, { change := change })] })
def sends0 : Queued := { word := 0xC4E01000, pc := 0, x := up.hart.r.x, f := up.hart.r.f, lidx := up.hart.r.lidx, issued := up.hart.r.issued, ins := 0 }
def casting (change : Option Bool) (permits : Nat) : State := ((waitingFor .smcast change).mapHart (fun h => { h with vqueue := [sends0] })).mapDev
  (fun d => { d with groups := [{ sender := 1, receiver := 2, stream := 7, permits := permits }] })
theorem witness_WaitsEnd_tiles : (∀ g ∈ [some true, none], let s := waitingFor (.tileon 8) g
      s.hart.wait = .tileon 8 ∧ s.hart.bound ≠ 0 ∧ s.hart.r.ncl = 0 ∧ s.brick.change = g ∧ s.canClaim (·.tileRes) Hart.claims 8 = true) ∧
    tileless.canClaim (·.tileRes) Hart.claims 1 = false := by decide +kernel
theorem witness_WaitsEnd : ((∀ g ∈ [some true, none], ∀ p ∈ [0, 1], let s := casting g p
      s.hart.wait = .smcast ∧ s.hart.vqueue = sends0 :: [] ∧ isSmcast sends0.word = true ∧ s.brick.change = g ∧ s.hart.inflight = [] ∧ s.hart.entry = none ∧
      gOf (s.asOf sends0) = 1 ∧ (s.asOf sends0).hart.openCommands 0 < 64 ∧ (∃ g ∈ s.dev.groups, (g.sender = s.hart.uid ∧ g.gone = false) ∧ g.permits = p)) ∧
      VReady ((casting none 1).asOf sends0) [0]) ∧
    ((waitingFor .memory none).hart.wait = .memory ∧ (∀ o ∈ (waitingFor .memory none).dev.outstanding, ¬ (o.owner = .hart 1 ∧ o.kind = 0)) ∧
      (awaits 0 0).owner = .hart (waitingFor .memory none).hart.uid ∧ (awaits 0 0).kind = 0) :=
  ⟨⟨by decide +kernel, ready_of _ _ (by decide +kernel) rfl (by decide +kernel) ⟨rfl, rfl, rfl⟩ (by decide +kernel) rfl ⟨rfl, rfl, rfl⟩ (by decide +kernel) rfl⟩, by decide +kernel⟩
/-- Register 1 holds the number v under a name with digest 5, and register 0 holds 0 and is being compared. -/
def digest5 : GroupName := { digest := 5, salt := 0, gm := 0, vl := 1, vtype := 3 }
def comparing (v : Nat) : State := (up.mapRegs (fun r => { r with v := r.v.set 1 (BitVec.ofNat 8192 v), names := r.names.set 1 (some digest5) })).mapHart (fun h => { h with comparing := [(0, digest5)] })
/-- Registers 1 to 4 hold numbers of their own under names with digest 5 and all four salts. -/
def salted : State := (comparing 1).mapRegs (fun r => (List.range 4).foldl (fun r k =>
  { r with v := r.v.setIfInBounds (k + 1) (BitVec.ofNat 8192 (k + 1)), names := r.names.setIfInBounds (k + 1) (some { digest5 with salt := k }) }) r)
theorem witness_VectorCompletion_salts : (∀ l ∈ salted.liveGroups, l.regs ≠ (salted.hart.r.named 0 digest5).regs) ∧
    ∀ k ∈ [0, 1, 2, 3], ∃ l ∈ salted.liveGroups, (l.name.digest = digest5.digest ∧ l.name.gm = digest5.gm) ∧ l.name.salt = k := by decide +kernel
theorem witness_VectorCompletion : (∃ l ∈ (comparing 0).liveGroups, (l.name.digest = digest5.digest ∧ l.name.gm = digest5.gm) ∧ l.regs = ((comparing 0).hart.r.named 0 digest5).regs ∧
      l.mortar = ((comparing 0).hart.r.named 0 digest5).mortar ∧ l.name.vl = digest5.vl ∧ l.name.vtype = digest5.vtype ∧ l.phys.length = 2 ^ digest5.gm.toNat) ∧ (comparing 0).liveGroups.length = 1 ∧
    (∃ l ∈ (comparing 1).liveGroups, l.name.digest = digest5.digest ∧ l.regs ≠ ((comparing 1).hart.r.named 0 digest5).regs ∧ l.name.salt = 0) ∧ (comparing 1).liveGroups.length = 1 ∧
    (up.mapHart (fun h => { h with comparing := [(0, digest5)] })).liveGroups = [] ∧
    ((up.mapHart (fun h => { h with inflight := [{ word := 0, pc := 0, finished := true }, { word := 0, pc := 0 }] })).hart.inflight.map (·.finished) = [true, false]) := by decide +kernel
/-- Copy commands of the hart with identifier 1 on channel 0. -/
def job (b : CopyBlock) : CopyJob := { uid := 1, brick := 0, ctx := 1, vmid := 1, launch := (1, 1), chan := 0, id := 1, block := b }
def copying (b : CopyBlock) : State := (shot false).mapDev (fun d => { d with courses := [(0, { copies := [job b] })] })
theorem copyHere (b : CopyBlock) (h : b.record = 0) : CopyHere (copying b) 0 0 (job b) := ⟨rfl, rfl, rfl, rfl, h, nofun, by rfl, by simp only [job]; omega, rfl, by rfl⟩
/-- A transposition of 2 by 3 bytes, and both images of 512 codes; the segments of the last are zero but for their format. -/
def transposed (src dst : Nat) : CopyBlock :=
  { xform := true, kind := 0, ecode := 0, rows := 2, cols := 3, n := 0, src := BitVec.ofNat 64 src, dst := BitVec.ofNat 64 dst, len := 0, record := 0 }
def reimaged (kind : Nat) : CopyBlock := { xform := true, kind := kind, ecode := 0, rows := 0, cols := 0, n := 512, src := 0x1000, dst := 0x2000, len := 0, record := 0 }
def segments : List Byte := (List.range 8).flatMap (fun _ => zeros 33 ++ [4] ++ zeros 2)
theorem witness_CopiesPerform (b : CopyBlock) (h : b = copied 0x2000 ∨ b = transposed 0x1000 0x2000 ∨ b = reimaged 2) : CopyHere (copying b) 0 0 (job b) ∧
    (let w : Issuer := ⟨(job b).brick, (job b).ctx, (job b).vmid, (job b).launch⟩
     (b.xform = true → sourceBytes b ≤ (b.dst - b.src).toNat ∧ destinationBytes b ≤ (b.src - b.dst).toNat) ∧
     (b.xform = true → b.kind ≤ 2 ∧ (b.kind ≠ 0 → b.n % 512 = 0) ∧ (b.kind = 0 → 1 ≤ b.rows ∧ 1 ≤ b.cols)) ∧
     (∀ o, o < sourceBytes b → (copying b).dev.engineAddr w ((b.src.toNat + o) % 2 ^ 64) .read = .ok (0x1000 + o) ∧ (copying b).dev.own (0x1000 + o) = true ∧
       (copying b).dev.poisoned (offsetOf (0x1000 + o)) = false) ∧
     (∀ o, o < destinationBytes b → HeldFor (copying b) w (b.dst.toNat + o) ∧ (copying b).dev.engineAddr w ((b.dst.toNat + o) % 2 ^ 64) .write = .ok (0x2000 + o) ∧
       (copying b).dev.own (0x2000 + o) = true) ∧ 0 < destinationBytes b) ∧ MemoryCanonical (copying b) := by
  simp only [HeldFor]
  rcases h with rfl | rfl | rfl <;> exact ⟨copyHere _ rfl, ⟨by decide +kernel, by decide +kernel, by decide +kernel, by decide +kernel, by decide +kernel⟩, by decide +kernel, by decide +kernel⟩
theorem witness_CopiesPerform_segments : let s := (copying (reimaged 1)).mapDev (fun d => { d with mem := Memory.writeBytes [] 0x1000 segments })
    CopyHere s 0 0 (job (reimaged 1)) ∧ ∀ g, g < 8 → Memory.read s.dev.mem (0x1000 + (36 * g + 33)) = 4 ∧ Memory.read s.dev.mem (0x1000 + (36 * g + 34)) = 0 ∧
      Memory.read s.dev.mem (0x1000 + (36 * g + 35)) = 0 :=
  ⟨⟨rfl, rfl, rfl, rfl, rfl, by decide +kernel, by rfl, by decide, rfl, by rfl⟩, by decide +kernel⟩
theorem witness_CopiesRefused : (let b := copied 0xFFFFFFFFE80000
      CopyHere (copying b) 0 0 (job b) ∧ (copying b).dev.launch (job b).launch = some launch0 ∧ ((copying b).dev.tenant launch0.record.vmid).even = false ∧
      (copying b).hart.aerr.held = none ∧ (copying b).dev.saved = [] ∧ 0 < destinationBytes b ∧
      ∃ o, o < destinationBytes b ∧ 0xFFFFFFFFE80000 ≤ (b.dst.toNat + o) % 2 ^ 64 ∧ (b.dst.toNat + o) % 2 ^ 64 < 2 ^ 56) ∧
    (let b := transposed 0x1000 0x1005
     CopyHere (copying b) 0 0 (job b) ∧ b.xform = true ∧ 0 < sourceBytes b ∧ (b.dst - b.src).toNat < sourceBytes b) :=
  ⟨⟨copyHere _ rfl, by decide +kernel, by decide +kernel, by decide +kernel, by decide +kernel, by decide +kernel, 0, by decide +kernel⟩, copyHere _ rfl, by decide +kernel⟩
/-- A multicast between harts, and a stream of mode 0 on the page. -/
def mcast (sender receiver : Nat) : McJob :=
  { launch := (1, 1), sender := sender, receiver := receiver, stream := 7, chan := 0, id := 1, buf := { data := 0, mortar := 0, fail := 0, vl := 1, vtype := {}, lgn := 4 } }
def landing (m : McJob) : State := (shot false).mapDev (fun d => { d with
  courses := [(0, { mcasts := [m] })], groups := [{ sender := m.sender, receiver := m.receiver, stream := 7, permits := 3 }] })
def fetching0 : Stream := { desc := { va := 0, base := 0x100, cnt0 := 1, cnt1 := 1, cnt2 := 1, ew := 3, mode := 0, win := 0, sender := 0, str0 := 0, str1 := 0, str2 := 0, wstr := 0 }, reg := 8, pos := 0 }
def streaming : State := (shot false).mapRegs (fun r => { r with streams := r.streams.set 7 (some fetching0) })
/-- The state that an access leaves, when the access gives a value. -/
def leaves {α : Type} : Except Stop (α × State) → State
  | .ok x => x.2
  | .error _ => {}
theorem of_ok {α : Type} (e : Except Stop (α × State)) (a : α) (h : (match e with | .ok x => some x.1 | .error _ => none) = some a) : e = .ok (a, leaves e) := by
  cases e with
  | ok x => simp only [Option.some.injEq] at h; subst h; rfl
  | error _ => cases h
theorem witness_StreamsDeliver : ((landing (mcast 2 1)).hart.run = .running ∧ (landing (mcast 2 1)).dev.saved = [] ∧ ((landing (mcast 2 1)).dev.course 0).mcasts = [] ++ mcast 2 1 :: [] ∧
      (mcast 2 1).receiver = (landing (mcast 2 1)).hart.uid ∧ (∃ g ∈ (landing (mcast 2 1)).dev.groups, g.sender = 2 ∧ g.receiver = 1 ∧ g.stream = 7)) ∧
    (((landing (mcast 1 2)).dev.course 0).mcasts = [mcast 1 2] ∧ (mcast 1 2).sender = (landing (mcast 1 2)).hart.uid ∧ (mcast 1 2).receiver ≠ (landing (mcast 1 2)).hart.uid ∧
      (∀ g ∈ (landing (mcast 1 2)).dev.groups, g.gone = false) ∧ (landing (mcast 1 2)).hart.finished = [] ∧ (mcast 1 2).id = (landing (mcast 1 2)).hart.done.getD 0 0 + 1) ∧
    (streaming.hart.r.streams.getD 7 none = some fetching0 ∧ streaming.hart.fetched = [] ∧ streaming.hart.fetching = [] ∧ streaming.hart.streamLanded = [] ∧ 0 < fetching0.left ∧
      (∃ ps hs u, streaming.places (fetching0.desc.addr 0) 8 .read = .ok (ps, hs, u) ∧ ps.map (u.see u.hart.earlierStores) = (zeros 8).map Seen.byte) ∧ streaming.hart.landed = [] ∧ streaming.brick.change = none ∧
      ∃ t, streaming.fetchElem fetching0 0 = .ok (.data 0, t)) ∧ changing.brick.change.isSome = true :=
  ⟨by decide +kernel, by decide +kernel, ⟨by decide +kernel, by decide +kernel, by decide +kernel, by decide +kernel, by decide +kernel, ⟨_, _, _, rfl, by decide +kernel⟩, rfl, by decide +kernel, ⟨_, of_ok _ _ (by decide +kernel)⟩⟩, by decide +kernel⟩
theorem witness_StreamsDeliver_complete : (streaming.mapHart (fun h => { h with fetching := [(7, 0, .data 5)] })).hart.fetching = [] ++ (7, 0, Fetched.data 5) :: [] := rfl
/-- A merge session of 4 rows with its entries, and a command of the hart at its course. -/
def session (l : List MergeEntry) (limit : Nat) (fp64 : Bool) : Session := { launch := (1, 1), fp64 := fp64, limit := limit, rows := 4, spill := 0x4000, spillBytes := 128, resident := l }
def merge (cmd : MergeCmd) : MergeMsg := { uid := 1, brick := 0, ctx := 1, vmid := 1, launch := (1, 1), chan := 0, id := 1, cmd := cmd }
def merging (k : Option Session) (cmd : MergeCmd) : State := (shot false).mapDev (fun d => { d with courses := [(0, { session := k, merges := [merge cmd] })] })
theorem mergeHere (k : Option Session) (cmd : MergeCmd) (h1 : ∀ r f sp n l w, cmd = .openSession r f sp n l w → r = 0) (h2 : ∀ r p q v cap, cmd = .fin r p q v cap → r = 0)
    (h3 : ∀ r o, cmd = .stat r o → r = 0) : MergeHere (merging k cmd) 0 (merge cmd) := ⟨rfl, rfl, rfl, rfl, rfl, h1, h2, h3⟩
/-- Entries of the keys 5 and, twice, 2^32. -/
def three : List MergeEntry := [⟨2 ^ 32, 0x3F800000, 1, 0⟩, ⟨5, 0x40000000, 0, 0⟩, ⟨2 ^ 32, 0x3F800000, 0, 0⟩]
theorem witness_MergeSessions : MergeHere (merging none (.openSession 0 false 0x4000 128 4 4)) 0 (merge (.openSession 0 false 0x4000 128 4 4)) ∧
    (MergeHere (merging (some (session three 3 false)) (.push [(2 ^ 32, 7)])) 0 (merge (.push [(2 ^ 32, 7)])) ∧
      ((merging (some (session three 3 false)) (.push [(2 ^ 32, 7)])).dev.course 0).session = some (session three 3 false)) ∧
    (4 ≤ 2 ^ 34 / 2 ^ 32 ∧ (2 ^ 34 - 1) / 2 ^ 32 < 4 ∧ (session three 4 false).resident.length < 4 ∧ (session three 3 false).limit ≤ (session three 3 false).resident.length ∧
      (session three 3 false).runs.length < 64 ∧ (session three 3 false).used + (64 + 16 * 3 + (3 + 1) / 2 + 63) / 64 * 64 ≤ (session three 3 false).spillBytes) :=
  ⟨mergeHere _ _ (by intros; simp_all) (by intros; simp_all) (by intros; simp_all), ⟨mergeHere _ _ (by intros; simp_all) (by intros; simp_all) (by intros; simp_all), rfl⟩, by decide +kernel⟩
def pushing : State := merging (some (session three 3 false)) (.push [(2 ^ 32, 7)])
def spilling : Nat × State := pushing.engineWrite ⟨0, 1, 1, (1, 1)⟩ (.merge 0) ((session three 3 false).spill.toNat + 0) (session three 3 false).run
theorem of_first {α β : Type} (x : α × β) (a : α) (h : x.1 = a) : x = (a, x.2) := by cases x; cases h; rfl
theorem witness_MergeSessions_spill : ∃ s1, spilling = (0, s1) ∧ s1.dev.outstanding = [] ∧ s1.dev.course 0 = pushing.dev.course 0 :=
  ⟨spilling.2, of_first _ _ (by decide +kernel), by decide +kernel, by decide +kernel⟩
theorem witness_MergeResults : MergeHere (merging (some (session three 3 false)) (.fin 0 0x1000 0x2000 0x3000 2)) 0 (merge (.fin 0 0x1000 0x2000 0x3000 2)) ∧
    (∀ e ∈ (session three 3 false).resident, e.stream < 16) ∧ Emits (session three 3 false) [(5, 0x40000000), (2 ^ 32, 0x40000000)] ∧
    (∀ x ∈ [(0x1000, 20), (0x2000, 8), (0x3000, 8)], Mapped (merging (some (session three 3 false)) (.fin 0 0x1000 0x2000 0x3000 2)) ⟨0, 1, 1, (1, 1)⟩ x.1 x.2 x.1) ∧
    MemoryCanonical (merging (some (session three 3 false)) (.fin 0 0x1000 0x2000 0x3000 2)) ∧
    ((session three 3 true).fp64 = true ∧ (0x3004 : Word).toNat % 8 ≠ 0) ∧ Mapped (merging none (.stat 0 0x1000)) ⟨0, 1, 1, (1, 1)⟩ 0x1000 128 0x1000 ∧
    MergeHere (merging none (.stat 0 0x1000)) 0 (merge (.stat 0 0x1000)) := by
  refine ⟨mergeHere _ _ (by intros; simp_all) (by intros; simp_all) (by intros; simp_all), by decide +kernel, ⟨by decide +kernel, fun key => ?_, fun x hx => ?_⟩, fun x hx => ?_, ⟨by decide +kernel, by decide +kernel⟩, by decide +kernel, ⟨0x1000, ?_⟩,
    mergeHere _ _ (by intros; simp_all) (by intros; simp_all) (by intros; simp_all)⟩
  · constructor
    · rintro ⟨v, hv⟩
      simp only [List.mem_cons, Prod.mk.injEq, List.not_mem_nil, or_false] at hv
      rcases hv with ⟨rfl, _⟩ | ⟨rfl, _⟩
      · exact ⟨⟨5, 0x40000000, 0, 0⟩, by decide, rfl⟩
      · exact ⟨⟨2 ^ 32, 0x3F800000, 1, 0⟩, by decide, rfl⟩
    · rintro ⟨e, he, rfl⟩
      simp only [session, three, List.mem_cons, List.not_mem_nil, or_false] at he
      rcases he with rfl | rfl | rfl
      · exact ⟨0x40000000, by simp⟩
      · exact ⟨0x40000000, by simp⟩
      · exact ⟨0x40000000, by simp⟩
  · simp only [List.mem_cons, List.not_mem_nil, or_false] at hx
    rcases hx with rfl | rfl
    · exact ⟨0x40000000, [], by decide +kernel, by decide +kernel⟩
    · exact ⟨0x3F800000, [0x3F800000], by decide +kernel, by decide +kernel⟩
  · simp only [List.mem_cons, List.not_mem_nil, or_false] at hx
    simp only [Mapped, HeldFor]
    rcases hx with rfl | rfl | rfl
    · exact ⟨0x1000, by decide +kernel⟩
    · exact ⟨0x2000, by decide +kernel⟩
    · exact ⟨0x3000, by decide +kernel⟩
  · simp only [HeldFor]; decide +kernel

/-! The whole machine. -/

/-- The hart stands at a word on its page. -/
def at0 (word : Nat) : State := withBlock (shot false) (leBytes 4 word)
/-- The page of the word lies on node 5. -/
def distant : State := (at0 0).mapDev (fun d => { d with tlb := [{ page0 with pa := 5 * 2 ^ 40 }] })
theorem at_of (s : State) (h : s.dev.agenda = [] ∧ s.hart.run = .running ∧ s.brick.change = none ∧ s.hart.entry = none ∧ (s.hart.inflight = [] ∧ s.hart.vqueue = []) ∧
    s.hart.ended = [] ∧ s.hart.pendCsr = [] ∧ s.updatesPending = false ∧ s.hart.timeout = false ∧ s.hart.aerr.ate = false ∧ s.hart.wait = .none) : AtInstruction s :=
  ⟨h.1, h.2.1, h.2.2.1, h.2.2.2.1, h.2.2.2.2.1, h.2.2.2.2.2.1, h.2.2.2.2.2.2.1, h.2.2.2.2.2.2.2.1, h.2.2.2.2.2.2.2.2.1, .inl h.2.2.2.2.2.2.2.2.2.1,
    by rw [h.2.2.2.2.2.2.2.2.2.2]; intros; exact nofun⟩
theorem witness_StepRunsTheDecodedInstruction : ∀ s ∈ [at0 0xF0000000, at0 0x20000100, at0 0, lost, distant], AtInstruction s := by
  intro s hs
  simp only [List.mem_cons, List.not_mem_nil, or_false] at hs
  rcases hs with rfl | rfl | rfl | rfl | rfl <;> exact at_of _ (by decide +kernel)
theorem witness_StepRunsTheDecodedInstruction_words : (∀ w ∈ [0xF0000000, 0x20000100, 0], ∃ u, (at0 w).tick.fetch = .ok (BitVec.ofNat 32 w, u)) ∧
    decodeWord 0x20000100 = .error .reserved ∧ (∃ e, e ≠ .reserved ∧ decodeWord 0 = .error e) ∧ (∃ t, lost.tick.fetch = .error (.trap t)) ∧
    ∃ w need, distant.tick.fetch = .error (.wait w need) := by
  refine ⟨fun w h => ?_, by rfl, ⟨_, by decide, rfl⟩, ⟨_, rfl⟩, _, _, rfl⟩
  simp only [List.mem_cons, List.not_mem_nil, or_false] at h
  rcases h with rfl | rfl | rfl <;> exact ⟨_, of_ok _ _ (by decide +kernel)⟩
theorem witness_StepEnds : (at0 0xF0000000).dev.closing = [] ∧ (at0 0xF0000000).dev.saved = [] ∧ (at0 0xF0000000).hart.gears.drop = false := ⟨rfl, rfl, rfl⟩
theorem witness_MemoryKeepsItsForm : MemoryCanonical State.reset ∧ MemoryCanonical (at0 0xF0000000) :=
  ⟨⟨by decide +kernel, fun _ h => nomatch h⟩, by decide +kernel, by decide +kernel⟩
theorem witness_VectorNeedsLanes : (∀ n, up.hart.r.streams.getD n none = none) ∧ (up.mapHart (fun h => { h with bound := 0 })).hart.bound = 0 ∧
    (up.mapRegs (fun r => { r with vtype := { vill := true } })).hart.r.vtype.vill = true := by
  refine ⟨fun n => ?_, rfl, rfl⟩
  have h : up.hart.r.streams = Vector.replicate 8 none := rfl
  rw [h]
  simp only [Vector.getD, Array.getD]
  split <;> simp
theorem witness_DecodeGivesBackEncode : Instr.nop.wf = true ∧ encode .nop = some 0xF0000000 := by decide +kernel

/-! ### Single steps with results from the specification's worked examples, or worked out by hand -/

/-- What is found in the state after an instruction. -/
def after {α : Type} (i : Instr) (s : State) (f : State → α) : Option α :=
  match exec i s with
  | .next t => some (f t)
  | _ => none

/-- A state of one lane group with SEW and VL and some vector registers with their mortar bytes. -/
def vec (sew vl : Nat) (vs : List (Nat × Nat × Nat)) : State :=
  (st { vl := BitVec.ofNat 14 vl, vtype := { sew := BitVec.ofNat 2 sew }
        v := Vector.ofFn (fun i => BitVec.ofNat 8192 ((lookupKey i.val (vs.map (fun x => (x.1, x.2.1)))).getD 0))
        mortar := Vector.ofFn (fun i => BitVec.ofNat 256 ((lookupKey i.val (vs.map (fun x => (x.1, x.2.2)))).getD 0)) }).mapHart
    (fun h => { h with bound := 1, next := 1, lgn := 1 })
/-- Numbers of w bits one after another. -/
def pack (w : Nat) (l : List Nat) : Nat := l.foldr (fun x n => x + 2 ^ w * n) 0

theorem test_add_wraps : after (.add 3 1 2) (v64 0 [2 ^ 64 - 1, 2]) (fun t => t.x 3) = some 1 := by decide +kernel
theorem test_sltn_is_unsigned : after (.sltn 3 1 2) (v64 0 [1, 2 ^ 64 - 1]) (fun t => t.x 3) = some 1 := by decide +kernel
theorem test_mulh : after (.mulh 3 1 2) (v64 0 [2 ^ 64 - 1, 2 ^ 64 - 1]) (fun t => t.x 3) = some 0 := by decide +kernel
theorem test_mulhn : after (.mulhn 3 1 2) (v64 0 [2 ^ 64 - 1, 2 ^ 64 - 1]) (fun t => t.x 3) = some 0xFFFFFFFFFFFFFFFE := by decide +kernel
theorem test_div_overflow : after (.div 3 1 2) (v64 0 [2 ^ 63, 2 ^ 64 - 1]) (fun t => t.x 3) = some 0x8000000000000000 := by decide +kernel
theorem test_rem_by_zero : after (.rem 3 1 2) (v64 0 [7, 0]) (fun t => t.x 3) = some 7 := by decide +kernel
theorem test_x0_stays : after (.add 0 1 2) (v64 0 [1, 2]) (fun t => t.x 0) = some 0 := by decide +kernel
theorem test_srai : after (.srai 3 1 63#6) (v64 0 [2 ^ 63]) (fun t => t.x 3) = some 0xFFFFFFFFFFFFFFFF := by decide +kernel
theorem test_andi_extends_with_zeros : after (.andi 3 1 0xFFFF#16) (v64 0 [2 ^ 64 - 1]) (fun t => t.x 3) = some 0xFFFF := by decide +kernel
theorem test_lhi_extends_its_sign : after (.lhi 3 0x100000#21) (v64 0 []) (fun t => t.x 3) = some 0xFFFFFFF000000000 := by decide +kernel
theorem test_clz_of_zero : after (.clz 3 1) (v64 0 [0]) (fun t => t.x 3) = some 64 := by decide +kernel
theorem test_ld_extends_its_sign : after (.ld 3 1 .b1 .normal 0#10) (withBlock (v64 0 [2]) [0, 0, 0x80]) (fun t => t.x 3) = some 0xFFFFFFFFFFFFFF80 := by decide +kernel
theorem test_ldz_scales_its_offset : after (.ldz 3 1 .b2 .normal 1#10) (withBlock (v64 0 [0]) [1, 2, 3, 4]) (fun t => t.x 3) = some 0x0403 := by decide +kernel
theorem test_store_is_buffered : after (.st 1 2 .b4 .normal 0#10) (v64 0 [0x12345678, 0x100]) (fun t => (t.hart.strip.used, t.hart.strip.stores.map (·.data), t.dev.mem)) =
    some (1, [[0x78, 0x56, 0x34, 0x12]], []) := by decide +kernel
theorem test_jal_links : after (.jal 1 0x1FFFFF#21) ((v64 0 []).mapRegs (fun r => { r with pc := 0x100 })) (fun t => (t.pc, t.x 1)) = some (0xFC, 0x104) := by decide +kernel
theorem test_jalr_source_is_destination : after (.jalr 1 1 8#16) (v64 0 [0x100]) (fun t => (t.pc, t.x 1)) = some (0x108, 4) := by decide +kernel
theorem test_fadd_ties_to_even : after (.fadd 3 1 2 .fp32) ((v64 0 []).mapRegs (fun r => { r with f := (r.f.set 1 0x4B800000).set 2 0x3F800000 }))
    (fun t => (t.f 3, t.hart.fstat)) = some (0x4B800000, 1) := by decide +kernel
theorem test_fdiv_by_zero : after (.fdiv 3 1 2 .fp64) ((v64 0 []).mapRegs (fun r => { r with f := r.f.set 1 0xBFF0000000000000 }))
    (fun t => (t.f 3, t.hart.fstat)) = some (0xFFF0000000000000, 8) := by decide +kernel
theorem test_fcvt_of_nan : after (.fcvt 3 1 4 1) ((v64 0 []).mapRegs (fun r => { r with f := r.f.set 1 0x7FC00000 })) (fun t => (t.x 3, t.hart.fstat)) = some (0, 16) := by decide +kernel
theorem test_setvl : after (.setvl 3 1 2) ((v64 0 [300, 0x0A]).mapHart (fun h => { h with bound := 3, next := 3, lgn := 2 })) (fun t => (t.x 3, t.hart.r.vtype.gm)) = some (256, 1) := by
  decide +kernel
theorem test_vadd_wraps : after (.vaddVv 3 1 2 0) (vec 0 2 [(1, pack 8 [0xFF, 1], 0), (2, pack 8 [2, 3], 0)]) (fun t => (el t 8 3 0, el t 8 3 1, el t 8 3 2)) = some (1, 4, 0) := by
  decide +kernel
/-- R215's worked example: 123.4, −0.5, 2.0 × 10^−5 and zeros as D8, and the codes converted back. -/
def quantizing : State := vec 2 32 [(1, pack 32 [0x42F6CCCD, 0xBF000000, 0x37A7C5AC], 0)]
theorem test_vqz : after (.vqz 3 1 4 0 1) quantizing (fun t => (scaleByte t 3 0, (List.range 4).map (el t 8 3), t.hart.fstat, t.hart.fidx)) =
    some (2, [0x42, 0x8C, 0x00, 0x00], 3, #v[BitVec.allOnes 64, BitVec.allOnes 64, BitVec.allOnes 64, 2, 0]) := by decide +kernel
theorem test_vdq : after (.vdq 4 3 1 0 4) (vec 2 32 [(3, pack 8 [0x42, 0x8C], 2)]) (fun t => (el t 32 4 0, el t 32 4 1, el t 32 4 2, t.hart.fstat)) =
    some (0x43002000, 0xBF0CCCCD, 0, 1) := by decide +kernel
/-- R316's worked example, masked and not. -/
def dotting : State := (vec 0 32 [(2, pack 8 [0x40, 0x42], 1), (3, pack 8 [0x44, 0x20, 0x80], 0), (6, 0x3F000000, 0)]).mapRegs
  (fun r => { r with k := r.k.set 1 0xFFFFFFFB })
theorem test_vdot_masked : after (.vdotG 6 2 3 1 4) dotting (fun t => (el t 32 6 0, t.hart.fstat)) = some (0x418B4000, 0) := by decide +kernel
theorem test_vdot_unmasked : after (.vdotG 6 2 3 0 4) dotting (fun t => (el t 32 6 0, t.hart.fstat, t.hart.fidx[0])) = some (0x7FC00000, 16, 2) := by decide +kernel
/-- R217's worked example: a BF16 row and column of 4,096 and eight ones. -/
def summing : State := vec 1 9 [(1, pack 16 (0x4580 :: List.replicate 8 0x3F80), 0)]
theorem test_vdot_strict : after (.vdotS 2 1 1 0 3) summing (fun t => (el t 32 2 0, t.hart.fstat)) = some (0x4B800000, 1) := by decide +kernel
theorem test_vdot_grouped : after (.vdotG 2 1 1 0 3) summing (fun t => (el t 32 2 0, t.hart.fstat)) = some (0x4B800004, 1) := by decide +kernel
/-- R332's worked example on the page at 0, whose next page is not mapped: element 6 faults at 0x1_0010. -/
def gathering (mask : Nat) : State := ((vec 2 8 [(7, pack 32 [0, 4, 8, 12, 16, 4, 32, 0], 0)]).mapRegs (fun r => { r with x := xregs [0, 0, 0, 0, 0, 0xFFF0], k := r.k.set 2 (BitVec.ofNat 8192 mask) })).mapDev
  (fun d => { d with mem := Memory.writeBytes [] 0xFFF0 (leBytes 4 10 ++ leBytes 4 11 ++ leBytes 4 12 ++ leBytes 4 13) })
theorem test_vldx : after (.vldx 3 5 7 2 false false .b4 .normal) (gathering 0xAF) (fun t => (List.range 8).map (el t 32 3)) = some [10, 11, 12, 13, 0, 11, 0, 10] := by decide +kernel
theorem test_vldx_fault : (gathering 0xEF).reach .read ((gathering 0xEF).hart.lane 32) (perElement (gathering 0xEF) 2 4 (indexedAt (gathering 0xEF) 5 7)) =
    .error (.trap { cause := 0x08, kind := 1, tval := 0x10010, elem := some 6, lane := some 0 }) := by decide +kernel
theorem test_vldff_trims : after (.vldff 3 5 0 false false .b4 .normal) (gathering 0) (fun t => (t.hart.r.vl, (List.range 5).map (el t 32 3))) = some (4, [10, 11, 12, 13, 0]) := by decide +kernel
/-- R165's worked example: a window of three over elements of four bytes. -/
theorem test_stream_window : (List.range 6).map (({ va := 0, base := 0x100, cnt0 := 2, cnt1 := 1, cnt2 := 1, ew := 2, mode := 0, win := 3, sender := 0, str0 := 4, str1 := 0, str2 := 0, wstr := 4 } : StreamDesc).addr) =
    [0x100, 0x104, 0x108, 0x104, 0x108, 0x10C] := by decide +kernel
/-- R356's worked example: a running sum, and the same with KEEP for its high micro-op. -/
def running (high : Nat) : List Byte := [0x01, 0x0A, 0x01, 0x01, 0, 0, 0, 0] ++ zeros 8 ++ [0x20, 0x08, 0, 0, 0, 0, 0, 0] ++ leBytes 2 high ++ zeros 6
theorem test_opld_legal : OpDesc.legal (value (running 0x0100)) = true ∧ OpDesc.legal (value (running 0xF800)) = false := by decide +kernel
theorem test_running_sum : after (.vpass 1 2 0 0 0) ((vec 2 2 [(1, pack 32 [5, 7], 0)]).mapRegs (fun r => { r with ops := r.ops.set 0 (BitVec.ofNat 256 (value (running 0x0100))) }))
    (fun t => (el t 32 1 0, el t 32 1 1)) = some (12, 7) := by decide +kernel
theorem test_csrs_sets_flags : after (.csrs 1 0x04) (v64 0 [0x15]) (fun t => t.hart.fstat) = some 0x15 := by decide +kernel
theorem test_frm_refuses_five : after (.csrw 1 0x05) (v64 0 [5]) (fun t => t.hart.frm) = some 0 := by decide +kernel
theorem test_amoadd : after (.amoadd 3 1 2 false .normal) (withBlock (v64 0 [0, 1]) [0xFF, 0xFF, 0xFF, 0xFF, 7]) (fun t => (t.x 3, (List.range 5).map (Memory.read t.dev.mem))) =
    some (0xFFFFFFFFFFFFFFFF, [0, 0, 0, 0, 7]) := by decide +kernel
theorem test_tile_off_is_a_trap : exec (.tzero 2) (tiled 3 3 0 []) = .next ((tiled 3 3 0 []).takeTrap { cause := 0x04 }) := by rfl
theorem test_step_runs_nop : (match step (at0 0xF0000000) with
    | .next t => t.pc == 4 && t.hart.iword == 0xF0000000
    | _ => false) = true := by decide +kernel

/-! ### Further premises of the statements, met by small states -/

theorem witness_FpZeroResults : (∀ a ∈ [0, 0x80000000, 0x3F800000, 0xBF800000], a < 2 ^ fpWidth .fp32 ∧ expField .fp32 a ≠ 2 ^ expBits .fp32 - 1) ∧
    (let n := number .fp32
     n 0 + n 0x80000000 = 0 ∧ n 0 - n 0 = 0 ∧ n 0 * n 0x3F800000 = 0 ∧ n 0x3F800000 ≠ 0 ∧ n 0x3F800000 * n 0x3F800000 + n 0xBF800000 = 0 ∧
      n 0x3F800000 * n 0x3F800000 - n 0x3F800000 = 0) := by decide +kernel
theorem witness_FpSpecialResults : (∀ a ∈ [0, 0x3F800000, 0x7F800000, 0xFF800000, 0x7FC00000, 0x7F800001], a < 2 ^ fpWidth .fp32) ∧
    isNanCode .fp32 0x7FC00000 = true ∧ isNanCode .fp32 0x3F800000 = false ∧ isSignalling .fp32 0x7F800001 = true ∧ isInfCode .fp32 0x7F800000 = true ∧
    isNeg .fp32 0xFF800000 = true ∧ isInfCode .fp32 0xFF800000 = true ∧ isZeroCode .fp32 0 = true := by decide
theorem witness_FpRoots : (isZeroCode .fp32 0 = true ∧ 0x7F800000 = infCode .fp32 false) ∧
    (isNeg .fp32 0xBF800000 = true ∧ ¬ isZeroCode .fp32 0xBF800000 = true ∧ ¬ isNanCode .fp32 0xBF800000 = true) ∧
    (expField .fp32 0x40000000 ≠ 2 ^ expBits .fp32 - 1 ∧ 0 < number .fp32 0x40000000) := by decide +kernel
theorem witness_ConversionsAreRoundedOnce : isNanCode .fp32 0x7FC00000 = true ∧ ¬ isNanCode .fp32 1 = true ∧ isInfCode .fp32 0xFF800000 = true ∧
    isZeroCode .fp32 0x80000000 = true ∧ (expField .fp32 1 ≠ 2 ^ expBits .fp32 - 1 ∧ number .fp32 1 ≠ 0 ∧ FpFmt.fp32 ≠ FpFmt.fp16) := by decide +kernel

theorem witness_WriteOneClears_keeps : (reported.x 0).getLsbD 45 = false ∧ ((v64 1 [2 ^ 45]).x 1).getLsbD 45 = true ∧ (v64 1 [2 ^ 45]).hart.aerr.all = [] := by
  decide +kernel
theorem witness_LateCsrWrites_forms : ∀ w ∈ [CsrWrite.fstat 2 3, .fidx 0 3 3, .reuseHit 2 3],
    ((v64 1 []).mapHart (fun h => { h with pendCsr := [w] })).hart.pendCsr = w :: [] := by decide +kernel
theorem witness_ForkStartsAChild_closed : ((v64 1 []).splitAndDrain.hart.ended = [] ∧ (v64 1 []).splitAndDrain.dev.onWay (v64 1 []).hart.uid = []) ∧
    (unanswered (v64 1 [])).splitAndDrain.dev.onWay (v64 1 []).hart.uid ≠ [] := by decide +kernel
theorem witness_NarrowFormats_traps : sew (v8 64 []) ≠ fpWidth .fp32 ∧ ¬ ((4 = 4 ∨ 4 = 5) ∧ 4 < 4) ∧ sew (v32 64 []) ≠ 8 ∧ vlen (v8 33 []) % 32 ≠ 0 ∧
    sew (v8 64 []) ≠ max (fpWidth .fp32) (fpWidth .fp64) ∧ sew (v8 64 []) ≠ max 16 (fpWidth .fp16) ∧ (4 ≤ 7 ∧ 7 < 8) := by decide +kernel
/-- A strip that has room for six entries only; and one before which another stays with 250 entries. -/
def crowdedStrip : State := (v64 7 [0x100, 64]).mapHart (fun h => { h with strip := { used := 250 } })
def waitsForRoom : State := ((v64 7 [0x100, 64]).mapDev (fun d => { d with groupsHeld := [(5, 8)] })).mapHart (fun h => { h with
  ended := [{ strip := { used := 250, count := 1, stores := [{ va := 8, place := (List.range 8).map (fun i => .phys (8 + i)), data := zeros 8, path := .v, op := .addInt }] }
              ckpt := h.r }] })
theorem witness_VectorStores_split : (∀ s ∈ [crowdedStrip, waitsForRoom], s.freeEntries < stridedCount (s.x 1).toNat (s.x 2).toInt 8 (vlen s) ∧
      stridedCount (s.x 1).toNat (s.x 2).toInt 8 (vlen s) ≤ 256) ∧
    waitsForRoom.splitAndDrain.freeEntries < 7 ∧ 7 ≤ crowdedStrip.splitAndDrain.freeEntries ∧
    (crowdedStrip.splitAndDrain.reach .write (crowdedStrip.hart.lane 64) (perElement crowdedStrip 0 8 (stridedAt crowdedStrip 1 2))).isOk = true := by
  decide +kernel
theorem witness_FaultFirstLoads_fresh : ∀ j l, Landed.value j l ∉ (v64 2 [65528]).hart.landed := fun _ _ h => nomatch h
theorem witness_VectorAtomics_canonical : MemoryCanonical updates.splitAndDrain ∧ ∀ e st o, Landed.atomic e st o ∉ updates.splitAndDrain.hart.landed := by
  have h : updates.splitAndDrain.hart.landed = [] := by decide +kernel
  exact ⟨⟨by decide +kernel, by decide +kernel⟩, fun _ _ _ m => nomatch (h ▸ m)⟩
theorem witness_StreamUnbinding_gone : (bound7 2).memberOf 7 = none := by decide +kernel
theorem witness_ChangeoversAndEnergy_ended : let j : CopyJob := { job (copied 0x2000) with uid := 9 }
    let s := (copying (copied 0x2000)).mapDev (fun d => { d with courses := [(0, { copies := [j] })] })
    s.dev.parked = [] ∧ s.dev.saved = [] ∧ j.uid ≠ s.hart.uid ∧ (∀ c ∈ s.dev.courses, c.2.copies = [j] ∧ c.2.merges = [] ∧ c.2.mcasts = []) ∧
      s.dev.courses ≠ [] := by decide +kernel
theorem witness_LaunchCompletion_closing : let s := finished1.mapDev (fun d => { d with closing := [{ finished1.hart with queue := 1, seq := 1 }] })
    (∃ h ∈ s.dev.closing, h.launch = (1, 1)) ∧ ∀ h ∈ finished1.dev.closing, h.launch ≠ (1, 1) := by decide +kernel
theorem witness_LaunchRecords_course : up.dev.gmc.failCourse.getLsbD 0 = false := by decide
theorem witness_Dispatch_closing : eligible.dev.closing = [] := rfl
theorem witness_SavesAndRestores_ends : (up.mapHart (fun h => { h with run := .restoring })).hart.r.streams = Vector.replicate 8 none ∧ up.hart.run ≠ .restoring :=
  ⟨rfl, by decide⟩
/-- A tileon in the queue of the vector side. -/
def queuedTileon (busy : Bool) : State := (waitingFor (.tileon 8) none).mapHart (fun h => { h with
  vqueue := [{ sends0 with word := 0xE4000000 }], inflight := if busy then [{ word := 0, pc := 0 }] else [] })
theorem witness_WaitsEnd_queued : (∀ b ∈ [true, false], let s := queuedTileon b
      s.hart.wait = .tileon 8 ∧ s.hart.vqueue.map (fun q => isTileon q.word) = [true] ∧ (s.hart.inflight ≠ [] ↔ b = true) ∧ s.hart.entry = none ∧
      s.brick.change = none ∧ ∀ q ∈ s.hart.vqueue, (s.asOf q).canClaim (·.tileRes) Hart.claims (8 - s.hart.spareTiles) = true ∧
        (s.hart.strip.younger q.ins).2 ≤ (s.asOf q).freeEntries ∧ (s.hart.strip.younger q.ins).2 ≤ 256) ∧
    (casting none 1).hart.vqueue.map (fun q => decide (((casting none 1).hart.strip.younger q.ins).2 ≤ 256)) = [true] := by decide +kernel
theorem witness_VectorCompletion_apart : (comparing 0).liveGroups.all (fun l => l.phys.length == 1 &&
    ((comparing 0).hart.r.phys.getD 0 [] == [] || l.phys.getD 0 [] != (comparing 0).hart.r.phys.getD 0 [])) = true := by decide +kernel
theorem witness_VectorNeedsLanes_words : Instr.wf (.vaddVv 1 2 3 0) = true ∧ encode (.vaddVv 1 2 3 0) = some (0x20 * 2 ^ 26 + 1 * 2 ^ 21 + 2 * 2 ^ 16 + 3 * 2 ^ 11) ∧
    0x20 ≤ (0x20 * 2 ^ 26 + 1 * 2 ^ 21 + 2 * 2 ^ 16 + 3 * 2 ^ 11 : Nat) / 2 ^ 26 ∧ (0x20 * 2 ^ 26 + 1 * 2 ^ 21 + 2 * 2 ^ 16 + 3 * 2 ^ 11 : Nat) / 2 ^ 26 ≤ 0x30 ∧
    Instr.wf (.tzero 1) = true ∧ (encode (.tzero 1)).map (fun w => decide (w / 2 ^ 26 = 0x39)) = some true ∧ up.hart.strip.used ≤ 128 := by decide +kernel
/-- A hart with an illegal type, with and without tiles. -/
def typeless (ncl : Nat) : State := (tiled 3 ncl 0 [0xFC00, 64]).mapRegs (fun r => { r with vtype := { vill := true } })
theorem witness_VectorNeedsLanes_tiles : (typeless 3).hart.bound ≠ 0 ∧ (typeless 3).hart.r.vtype.vill = true ∧ TileOn (typeless 3) False 1 ∧
    (v64 1 []).hart.r.ncl = 0 ∧ tileNeed (typeless 3) 1 2 ≤ (typeless 3).freeEntries ∧ (typeless 3).hart.r.tfail = Vector.replicate 8 0 := by
  simp only [TileOn]; decide +kernel
/-- A hart with G = 2. -/
def paired : State := (v64 2 [0x100]).mapRegs (fun r => { r with vtype := { sew := 3, gm := 1 } })
theorem witness_VectorNeedsLanes_groups : VReady paired [] ∧ VReady paired.splitAndDrain [] ∧ 3 % gOf paired ≠ 0 ∧
    stridedCount (paired.x 1).toNat 8 8 (vlen paired) ≤ paired.freeEntries :=
  ⟨ready_of _ _ (by decide +kernel) rfl (by decide +kernel) ⟨rfl, rfl, rfl⟩ (by decide +kernel) rfl ⟨rfl, rfl, rfl⟩ (fun _ h => nomatch h) rfl,
    ready_of _ _ (by decide +kernel) rfl (by decide +kernel) ⟨rfl, rfl, rfl⟩ (by decide +kernel) rfl ⟨rfl, rfl, rfl⟩ (fun _ h => nomatch h) rfl,
    by decide +kernel, by decide +kernel⟩

/-! Registers 1 to 3 under stream 3: six words from 0x100 on; a buffer that has landed; names and an entry of the reuse table. -/

def six (mode ew : Nat) : StreamDesc :=
  { va := 0, base := 0x100, cnt0 := 3, cnt1 := 2, cnt2 := 1, ew := ew, mode := mode, win := 0, sender := 0, str0 := 4, str1 := 16, str2 := 0, wstr := 0 }
def numbers : State := vec 2 4 [(1, pack 32 [1, 2, 3, 4, 5], 0), (2, pack 32 [10, 20, 30, 40], 0), (3, pack 32 [100, 200, 300, 400], 0)]
def under (v pos mode ew : Nat) : Stream := { desc := six mode ew, reg := v, pos := pos }
def streamed (t : Stream) : State := numbers.mapRegs (fun r => { r with streams := r.streams.setIfInBounds 3 (some t) })
def fetchedTwo : State := (streamed (under 2 4 0 2)).mapHart (fun h => { h with fetched := [(3, 4, .data 1000), (3, 5, .data 2000)] })
def buffer5 (sew : Nat) : McBuf := { data := BitVec.ofNat 8192 (pack 32 [7, 8, 9, 10]), mortar := 3, fail := 0, vl := 4, vtype := { sew := BitVec.ofNat 2 sew }, lgn := 1 }
def landedOne (sew : Nat) : State := (streamed (under 2 0 2 2)).mapHart (fun h => { h with buffers := [(3, buffer5 sew)] })
theorem streamed_ready (s : State) (h : unstreamed s = numbers) : VReady (unstreamed s) [1, 2, 3] :=
  h ▸ ready_of _ _ (by decide +kernel) rfl (by decide +kernel) ⟨rfl, rfl, rfl⟩ (by decide +kernel) rfl ⟨rfl, rfl, rfl⟩ (by decide +kernel) rfl
theorem witness_StreamRegisters : (∀ t ∈ [under 2 4 0 2, under 1 4 1 2, under 2 0 2 2, under 1 0 1 3], VReady (unstreamed (streamed t)) [1, 2, 3] ∧ OneStream (streamed t) 3 t.reg t) ∧
    (under 1 0 1 3).desc.ew ≠ numbers.hart.r.vtype.sew.toNat ∧ (under 1 4 1 2).desc.ew = numbers.hart.r.vtype.sew.toNat := by
  refine ⟨fun t _ => ⟨streamed_ready _ rfl, rfl, rfl⟩, by decide, by decide⟩
theorem witness_StreamRegisters_in : chunkOf fetchedTwo (under 2 4 0 2) = 2 ∧ ∀ e, e < 2 →
    fetchedTwo.hart.fetched.find? (fun f => f.1 == 3 && f.2.1 == (under 2 4 0 2).pos + e) = some (3, 4 + e, .data ([1000, 2000].getD e 0)) := by decide +kernel
theorem witness_StreamRegisters_out : let t := under 1 4 1 2
    let s := streamed t
    chunkOf s t = 2 ∧ (∀ e, e < 2 → s.places (t.desc.addr (t.pos + e)) 4 .write (s.hart.lane 32 e) =
      .ok ((List.range 4).map (fun i => .phys (0x114 + 4 * e + i)), false, s)) ∧
    piecesOf ((List.range 2).map (fun e => (t.desc.addr (t.pos + e), 4))) = 1 ∧ 1 ≤ s.freeEntries := by decide +kernel
theorem witness_StreamRegisters_landed : (landed (landedOne 2) 3)[0]? = some (buffer5 2) ∧ (landed (streamed (under 2 0 2 2)) 3)[0]? = none ∧
    (buffer5 2).lgn = groups numbers.hart.bound ∧ (buffer5 2).vtype.sew = numbers.hart.r.vtype.sew ∧ (buffer5 3).vtype.sew ≠ numbers.hart.r.vtype.sew := by
  decide +kernel
theorem test_stream_operand : after (.vaddVv 1 2 3 0) fetchedTwo (fun t => ((List.range 5).map (el t 32 1), (t.hart.r.streams.getD 3 none).map (·.ended))) =
    some ([1100, 2200, 300, 400, 5], some true) := by decide +kernel
theorem test_stream_result : after (.vaddVv 1 2 3 0) (streamed (under 1 4 1 2)) (fun t => t.hart.strip.stores.map (fun b => (b.va, b.data))) =
    some [(0x114, [110, 0, 0, 0]), (0x118, [220, 0, 0, 0])] := by decide +kernel

def namedAs (n : Nat) : GroupName := { digest := BitVec.ofNat 64 n, salt := 0, gm := 0, vl := 4, vtype := 2 }
def key0 : ReuseKey :=
  { ctx := 1, vmid := 1, lgset := 1, word := 0x80000000, vtype := 2, frm := 0, vl := 4, srcs := [namedAs 2, namedAs 3], mask := none, old := some (namedAs 1)
    sop1 := 0, sop2 := 0, slot := none }
def kept0 : ReuseEntry :=
  { key := key0, held := [], result := { name := namedAs 9, regs := [7], phys := [[(0, 40)]], mortar := [0], fail := [0] }, flags := {}, kind := .compute }
def reusing : State := (numbers.mapRegs (fun r => { r with
  names := ((r.names.setIfInBounds 1 (some (namedAs 1))).setIfInBounds 2 (some (namedAs 2))).setIfInBounds 3 (some (namedAs 3)) })).mapBrick
  (fun b => { b with reuse := [kept0] })
theorem witness_ReuseHits : VReady { reusing with dev := reusing.dev.setBrick reusing.hart.brick { reusing.brick with reuse := [] } } [1, 2, 3] ∧
    reusing.hasParts 8 = true ∧ encode (.vaddVv 0 0 0 0) = some 0x80000000 ∧ reusing.brick.reuse = [kept0] ∧
    (∀ v ∈ [1, 2, 3], reusing.hart.r.names.getD v none = some (namedAs v) ∧ (namedAs v).gm = reusing.hart.r.vtype.gm) ∧
    vlen reusing < 256 * lanes reusing / sew reusing * gOf reusing ∧
    key0 = { ctx := reusing.hart.ctx, vmid := reusing.hart.vmid, lgset := reusing.hart.bound, word := BitVec.ofNat 32 0x80000000
             vtype := BitVec.ofNat 7 (64 * reusing.hart.r.vtype.kz.toNat + 8 * reusing.hart.r.vtype.gm.toNat + reusing.hart.r.vtype.sew.toNat)
             frm := 0, vl := reusing.hart.r.vl, srcs := [namedAs 2, namedAs 3], mask := none, old := some (namedAs 1), sop1 := 0, sop2 := 0, slot := none } :=
  ⟨ready_of _ _ (by decide +kernel) rfl (by decide +kernel) ⟨rfl, rfl, rfl⟩ (by decide +kernel) rfl ⟨rfl, rfl, rfl⟩ (by decide +kernel) (by decide +kernel), by decide +kernel⟩
theorem test_reuse_hit : after (.vaddVv 1 2 3 0) reusing (fun t => (el t 32 1 0, t.hart.reuseHit, t.hart.r.phys.getD 1 [])) = some (7, 1, [(0, 40)]) := by
  decide +kernel

end Sys2Proof.Tests
end

/-! Settling O47, O48 and O49: the host's windows, its commands, and launches. -/

namespace Sys2Proof.Machine

/-! ### Sending touches ports and the wire alone -/

/-- Two devices whose ports, wire, node and cabling agree send alike. -/
structure SameLinks (d e : Device) : Prop where
  ports : d.ports = e.ports
  wire : d.wire = e.wire
  node : d.node = e.node
  cabling : d.cabling = e.cabling

/-- A device with other ports and another wire. -/
def Device.withLinks (d : Device) (ports : Vector Port 32) (wire : List (Nat × Flit)) : Device := { d with ports := ports, wire := wire }

theorem SameLinks.refl (d : Device) : SameLinks d d := ⟨rfl, rfl, rfl, rfl⟩

theorem SameLinks.trans {d e f : Device} (h : SameLinks d e) (k : SameLinks e f) : SameLinks d f :=
  ⟨h.ports.trans k.ports, h.wire.trans k.wire, h.node.trans k.node, h.cabling.trans k.cabling⟩

theorem State.mapQueue_links (s : State) (q : Nat) (g : Queue → Queue) : SameLinks (s.mapQueue q g).dev s.dev := ⟨rfl, rfl, rfl, rfl⟩

theorem State.setSignal_links (s : State) (v sig : Nat) (w : Word) : SameLinks (s.setSignal v sig w).dev s.dev := ⟨rfl, rfl, rfl, rfl⟩

theorem Device.reply_eq (d : Device) (p : Nat) (f g : Flit) :
    d.reply p f g = d.withLinks (d.reply p f g).ports (d.reply p f g).wire := rfl

theorem Device.payDebts_eq (d : Device) (p : Nat) : d.payDebts p = d.withLinks (d.payDebts p).ports (d.payDebts p).wire := by
  unfold Device.payDebts
  dsimp only
  split <;> rfl

theorem SameLinks.port {d e : Device} (h : SameLinks d e) (p : Nat) : d.port p = e.port p := by
  simp only [Device.port, h.ports]

theorem SameLinks.transmit {d e : Device} (h : SameLinks d e) (p : Nat) (f : Flit) : SameLinks (d.transmit p f) (e.transmit p f) := by
  constructor <;> simp only [Device.transmit, Device.pump, Device.setPort, Device.port, h.ports, h.wire, h.node, h.cabling]

theorem SameLinks.reply {d e : Device} (h : SameLinks d e) (p : Nat) (f g : Flit) : SameLinks (d.reply p f g) (e.reply p f g) := by
  have hf : d.follows g.cls f.src = e.follows g.cls f.src := by simp only [Device.follows, h.port]
  simpa only [Device.reply, hf] using h.transmit _ _

theorem SameLinks.payDebts {d e : Device} (h : SameLinks d e) (p : Nat) : SameLinks (d.payDebts p) (e.payDebts p) := by
  unfold Device.payDebts
  simp only [h.port p]
  split
  · constructor <;> simp only [Device.linkControl, Device.setPort, Device.port, h.ports, h.wire, h.node, h.cabling]
  · exact h

theorem SameLinks.ite {c : Prop} [Decidable c] {d : Device} {a b : State} (ha : SameLinks d a.dev) (hb : SameLinks d b.dev) :
    SameLinks d (if c then a else b).dev := by
  split
  · exact ha
  · exact hb

end Sys2Proof.Machine

namespace Sys2Proof.Claims
open Sys2Proof.Machine

/-! ### A flit that a port takes in -/

/-- The state in which a row serves a flit: only the links have changed, and the flits that wait no longer. -/
def Arrived (s u : State) : Prop :=
  ∃ ports wire released, u = { s with dev := { s.dev with ports := ports, wire := wire, released := released } }

theorem Arrived.register {s u : State} (h : Arrived s u) (v r : Nat) : u.dev.register v r = s.dev.register v r := by
  obtain ⟨ports, wire, released, rfl⟩ := h
  rfl

theorem Arrived.windowOpen {s u : State} (h : Arrived s u) (f : Flit) : windowOpen u.dev f = windowOpen s.dev f := by
  obtain ⟨ports, wire, released, rfl⟩ := h
  rfl

theorem Device.arrive_eq {d d' : Device} {p : Nat} {f : Flit} (h : d.arrive p f = some d') : d' = d.withLinks d'.ports d'.wire := by
  unfold Device.arrive at h
  dsimp only at h
  split at h
  · cases h; rfl
  · cases h

theorem Device.arrive_isSome {d : Device} {p : Nat} {f : Flit} (h : f.seq = ((d.port p).ackIn + 1) % 256) : ∃ d', d.arrive p f = some d' := by
  have hack : ((d.port p).acked f).ackIn = (d.port p).ackIn := rfl
  unfold Device.arrive
  simp only [hack, h, if_true]
  exact ⟨_, rfl⟩

theorem Device.defers_of_free {s : State} {d : Device} {f : Flit} (h : Free s f) (hd : d.deferred = s.dev.deferred)
    (hg : d.groupsHeld = s.dev.groupsHeld) : d.defers f = false := by
  simp only [Device.defers, hd, hg, Bool.and_eq_false_imp, beq_iff_eq, Bool.or_eq_false_iff, List.any_eq_false, Bool.and_eq_true,
    bne_iff_ne, ne_eq]
  intro hc
  obtain h | ⟨hdef, hgrp⟩ := h
  · exact absurd hc h
  · refine ⟨fun x hx ⟨a, b⟩ => hdef x hx a b, fun hk x hx ⟨a, b⟩ => b (hgrp hk x hx a)⟩

/-- A row that serves a flit takes it, when what it does in every state of the arrival is as said. -/
theorem takes_onFlit {i : Instr} {s : State} {p : Nat} {f : Flit} {h : State → Option State} {P : State → State → Prop}
    (hx : exec i s = .next (s.onFlit p f h))
    (hh : ∀ u, Arrived s u → ∃ t, h u = some t ∧ P u (t.mapDev (fun d => d.payDebts p))) : Takes i s p f P := by
  constructor
  · rintro ⟨-, hready, hseq, hrel, hfree⟩
    obtain ⟨d, hd⟩ := Device.arrive_isSome hseq
    have heq := Device.arrive_eq hd
    have hu : Received s p f = { s with dev := d } := by simp only [Received, hd, Option.getD_some]
    obtain ⟨t, ht, hP⟩ := hh _ ⟨d.ports, d.wire, s.dev.released, (hu.trans (by rw [heq]; rfl))⟩
    have hdef : d.defers f = false := Device.defers_of_free hfree (by rw [heq]; rfl) (by rw [heq]; rfl)
    have hnot : s.dev.released.contains (p, f) = false := by simpa using hrel
    rw [hu] at ht hP
    refine ⟨_, hx, ?_⟩
    have : s.onFlit p f h = t.mapDev (fun d => d.payDebts p) := by
      simp only [State.onFlit, hnot, hready, hd, hdef, ht, Bool.false_eq_true, if_false, Bool.not_true]
    rw [hu, this]
    exact hP
  · rintro ⟨hrel, hfree⟩
    obtain ⟨t, ht, hP⟩ := hh (Returned s p f) ⟨_, _, _, rfl⟩
    have hdef : (Returned s p f).dev.defers f = false := Device.defers_of_free hfree rfl rfl
    refine ⟨_, hx, ?_⟩
    have hin : s.dev.released.contains (p, f) = true := by simpa using hrel
    have : s.onFlit p f h = t.mapDev (fun d => d.payDebts p) := by
      have hr : s.mapDev (fun d => { d with released := removeFirst (fun x => x == (p, f)) d.released }) = Returned s p f := rfl
      simp only [State.onFlit, hin, hr, hdef, ht, if_true, Bool.false_eq_true, if_false, Option.getD_some]
    rw [this]
    exact hP

/-- The answers that a state has given, when its links are those of the arrival with the answers on them. -/
theorem answers_of_links {u t : State} {p : Nat} {f : Flit} {gs : List Flit}
    (h : SameLinks (gs.foldl (fun d g => d.reply p f g) u.dev) t.dev) : Answers u (t.mapDev (fun d => d.payDebts p)) p f gs :=
  ⟨(h.payDebts p).ports.symm, (h.payDebts p).wire.symm⟩

/-- Two states that differ by their links at most. -/
def Relinked (t t' : State) : Prop := ∃ ports wire, t' = { t with dev := { t.dev with ports := ports, wire := wire } }

theorem Relinked.trans {t u v : State} : Relinked t u → Relinked u v → Relinked t v := by
  rintro ⟨_, _, rfl⟩ ⟨ports, wire, rfl⟩
  exact ⟨ports, wire, rfl⟩

theorem Relinked.payDebts (t : State) (p : Nat) : Relinked t (t.mapDev (fun d => d.payDebts p)) :=
  ⟨_, _, congrArg (fun d => ({ t with dev := d } : State)) (Device.payDebts_eq t.dev p)⟩

theorem Relinked.answer (t : State) (p : Nat) (f g : Flit) : Relinked t ((t.answer p f g).mapDev (fun d => d.payDebts p)) :=
  have h : Relinked t (t.answer p f g) := ⟨_, _, congrArg (fun d => ({ t with dev := d } : State)) (Device.reply_eq t.dev p f g)⟩
  h.trans (Relinked.payDebts _ p)

/-- A row that answers a flit once, after an effect that leaves the links as they are. -/
theorem serves_answer {i : Instr} {s : State} {p : Nat} {f g : Flit} {h : State → Option State} {P : State → State → Prop}
    (hx : exec i s = .next (s.onFlit p f h))
    (hh : ∀ u, Arrived s u → ∃ t, h u = some (t.answer p f g) ∧ SameLinks u.dev t.dev ∧ ∀ t', Relinked t t' → P u t') :
    Serves i s p f (fun _ => [g]) P := by
  refine takes_onFlit hx (fun u hu => ?_)
  obtain ⟨t, ht, hl, hP⟩ := hh u hu
  exact ⟨_, ht, answers_of_links (hl.reply p f g), hP _ (Relinked.answer t p f g)⟩

/-- A row that gives no answer. -/
theorem serves_silent {i : Instr} {s : State} {p : Nat} {f : Flit} {h : State → Option State} {P : State → State → Prop}
    (hx : exec i s = .next (s.onFlit p f h))
    (hh : ∀ u, Arrived s u → ∃ t, h u = some t ∧ SameLinks u.dev t.dev ∧ ∀ t', Relinked t t' → P u t') :
    Serves i s p f (fun _ => []) P := by
  refine takes_onFlit hx (fun u hu => ?_)
  obtain ⟨t, ht, hl, hP⟩ := hh u hu
  exact ⟨_, ht, answers_of_links hl, hP _ (Relinked.payDebts t p)⟩

/-! ### A write to a window -/

theorem statusFlit_eq (kind : Nat) (f : Flit) (st : Nat) : statusFlit kind f.cls f.pa st = statusOf kind f st := rfl

theorem windowOf_place {pa v r : Nat} (hr : r < 2 ^ 32) (h : offsetOf pa = Config.commandBase + v * 2 ^ 32 + r) :
    windowOf (offsetOf pa) = (v, r) := by
  rw [h, windowOf]
  ext <;> simp only [Config.commandBase] <;> omega

theorem ForWindow.windowOf {s : State} {f : Flit} {v r : Nat} (h : ForWindow s f v r) : windowOf (offsetOf f.pa) = (v, r) :=
  windowOf_place h.range.2 h.place

theorem ForWindow.windowOpen {s : State} {f : Flit} {v r : Nat} (h : ForWindow s f v r) : windowOpen s.dev f = true := by
  have hbase : Config.commandBase ≤ offsetOf f.pa := by rw [h.place]; omega
  simp only [Machine.windowOpen, h.own, hbase, h.cls, h.windowOf]
  obtain hv | hv := h.vmid <;> simp [hv]

theorem part_eq_flitAt (f : Flit) (o n : Nat) : part f.payload o n = flitAt f o n := by
  have hv : ∀ l : List Byte, value l = ofLe l := fun l => by
    induction l with
    | nil => rfl
    | cons b l ih => simp only [value, List.foldr_cons, ofLe] at *; rw [ih]
  exact hv _

/-- A row takes a write to one of its registers. -/
theorem accepts_onWindow {i : Nat → Flit → Instr} {s : State} {p : Nat} {f : Flit} {v r : Nat} {w : Word} {row : Nat → Nat → Bool}
    {h : State → Nat → Nat → Word → State} {P : State → State → Prop} (hx : exec (i p f) s = .next (s.onWindow p f row h))
    (hw : PutsWord s f v r w) (hreg : (s.dev.register v r).isSome = true) (hrow : row v r = true)
    (hh : ∀ u, Arrived s u → SameLinks u.dev (h u v r w).dev ∧ ∀ t, Relinked (h u v r w) t → P u t) : Accepts i s p f P := by
  obtain ⟨hw, hlen, rfl⟩ := hw
  refine serves_answer hx (fun u hu => ?_)
  obtain ⟨hl, hP⟩ := hh u hu
  refine ⟨h u v r (BitVec.ofNat 64 (part f.payload 0 8)), ?_, hl, hP⟩
  simp only [hw.windowOf, hu.windowOpen, hu.register, hw.windowOpen, hlen, hreg, hrow, part_eq_flitAt, beq_self_eq_true, Bool.and_self, if_true, statusFlit_eq]

/-- A window refuses a flit that it is not open to, of another size than 8 bytes, or for no register. -/
theorem serves_refused {i : Nat → Flit → Instr} {s : State} {p : Nat} {f : Flit} {row : Nat → Nat → Bool}
    {h : State → Nat → Nat → Word → State} (hx : exec (i p f) s = .next (s.onWindow p f row h))
    (hno : windowOpen s.dev f = false ∨ f.len ≠ 7 ∨
      s.dev.register (windowOf (offsetOf f.pa)).1 (windowOf (offsetOf f.pa)).2 = none) :
    Serves (i p f) s p f (fun _ => [statusOf 3 f 1]) OnlyPorts := by
  refine serves_answer hx (fun u hu => ⟨u, ?_, SameLinks.refl _, ?_⟩)
  · have hno' : (windowOpen s.dev f && f.len == 7 &&
        (s.dev.register (windowOf (offsetOf f.pa)).1 (windowOf (offsetOf f.pa)).2).isSome) = false := by
      obtain h | h | h := hno <;> simp [h]
    simp only [hu.windowOpen, hu.register, hno', Bool.false_and, Bool.false_eq_true, if_false, statusFlit_eq]
  · rintro t ⟨ports, wire, rfl⟩
    rfl

end Sys2Proof.Claims

namespace Sys2Proof.Claims
open Sys2Proof.Machine

/-! ### Fields of a written word -/

theorem bit_eq_testBit (v i : Nat) : bit v i = v.testBit i := by
  rw [bit, Nat.testBit_eq_decide_div_mod_eq]
  rfl

theorem bit_toNat (w : Word) (i : Nat) : bit w.toNat i = w.getLsbD i := bit_eq_testBit w.toNat i

/-- A field in its place is the word with every other bit cleared. -/
theorem ofNat_field_mul (w : Word) (lo n : Nat) :
    BitVec.ofNat 64 (field w.toNat lo n * 2 ^ lo) = w &&& BitVec.ofNat 64 ((2 ^ n - 1) * 2 ^ lo) := by
  apply BitVec.eq_of_getLsbD_eq
  intro i hi
  simp only [BitVec.getLsbD_and, BitVec.getLsbD_ofNat, hi, decide_true, Bool.true_and, Nat.testBit_mul_two_pow, field_testBit,
    Nat.testBit_two_pow_sub_one, BitVec.testBit_toNat]
  by_cases h : lo ≤ i
  · rw [Nat.add_sub_cancel' h]
    simp only [h, decide_true, Bool.true_and, Bool.and_comm]
  · simp only [h, decide_false, Bool.false_and, Bool.and_false]

theorem ofNat_ringBase (w : Word) : BitVec.ofNat 64 (ringBase w) = base52 w := ofNat_field_mul w 16 36

theorem ringBase_eq (w : Word) : ringBase w = (base52 w).toNat := by
  have h : ringBase w < 2 ^ 64 := by
    have := field_lt w.toNat 16 36
    unfold ringBase
    omega
  rw [← ofNat_ringBase, BitVec.toNat_ofNat, Nat.mod_eq_of_lt h]

theorem ofNat_command (w : Word) : BitVec.ofNat 64 (field w.toNat 0 16) = w &&& 0xFFFF#64 := by
  simpa using ofNat_field_mul w 0 16

theorem ofNat_page (w : Word) : BitVec.ofNat 64 (field w.toNat 16 40 * 65536) = w &&& 0x00FFFFFFFFFF0000#64 := ofNat_field_mul w 16 40

/-! ### What the windows hold -/

theorem register_none {d : Device} {v r : Nat} (h : r % 8 ≠ 0 ∨ (0x1000 ≤ r ∧ r < 0x10000 ∧ v ≠ 0) ∨ 0x50000000 ≤ r) :
    d.register v r = none := by
  rcases h with h | ⟨h1, h2, hv⟩ | h
  · simp [Device.register, h]
  · have e : ∀ n, n < 0x1000 → r ≠ n := fun n _ => by omega
    have a : ¬ (0x10000 ≤ r ∧ r < 0x12000) := by omega
    have b : ¬ (0x10000000 ≤ r ∧ r < 0x20000000) := by omega
    simp [Device.register, e, a, b, hv]
  · have e : ∀ n, n < 0x50000000 → r ≠ n := fun n _ => by omega
    have a : ∀ lo hi, hi ≤ 0x50000000 → ¬ (lo ≤ r ∧ r < hi) := fun lo hi _ => by omega
    simp [Device.register, Device.adminRegister, e, a]

/-- Queue q's page has a register of its owner's window. -/
theorem register_page {d : Device} {q o r v : Nat} (hr : r = pageAt q + o) (hq : q < 4096) (ho : o < 0x10000) (h8 : o % 8 = 0)
    (hv : (d.queue q).vmid = v) : d.register v r = (d.queue q).page o := by
  unfold pageAt at hr
  have e : ∀ n, n < 0x10000000 → r ≠ n := fun n _ => by omega
  have m : r % 8 = 0 := by omega
  have a : ¬ (0x10000 ≤ r ∧ r < 0x12000) := by omega
  have b : 0x10000000 ≤ r ∧ r < 0x20000000 := by omega
  have c : (r - 0x10000000) / 0x10000 = q := by omega
  have o' : r % 0x10000 = o := by omega
  simp [Device.register, e, m, a, b, c, o', hv]

/-- Window 0 alone has the registers above every tenant's. -/
theorem register_admin {d : Device} {r : Nat} (h8 : r % 8 = 0) (hlo : 0x30 ≤ r) (hs : ¬ (0x10000 ≤ r ∧ r < 0x12000))
    (hp : ¬ (0x10000000 ≤ r ∧ r < 0x20000000)) : d.register 0 r = d.adminRegister r := by
  have e : ∀ n, n < 0x30 → r ≠ n := fun n _ => by omega
  simp [Device.register, e, h8, hs, hp]

/-- Offset o of queue q's configuration. -/
theorem register_config {d : Device} {q o r : Nat} (hr : r = configAt q + o) (hq : q < 4096) (ho : o = 0 ∨ o = 8 ∨ o = 16) :
    (d.register 0 r).isSome = true := by
  unfold configAt at hr
  have e : ∀ n, n < 0x20000000 → r ≠ n := fun n _ => by omega
  have a : ¬ (0x1000 ≤ r ∧ r < 0x1100) := by omega
  have b : 0x20000000 ≤ r ∧ r < 0x20020000 := by omega
  have m : r % 32 = o := by omega
  rw [register_admin (by omega) (by omega) (by omega) (by omega)]
  obtain rfl | rfl | rfl := ho <;> simp [Device.adminRegister, e, a, b, m]

theorem register_context {d : Device} {c r : Nat} (hr : r = 0x30000000 + 8 * c) (hc : c < 4096) : (d.register 0 r).isSome = true := by
  have e : ∀ n, n < 0x30000000 → r ≠ n := fun n _ => by omega
  have a : ¬ (0x1000 ≤ r ∧ r < 0x1100) := by omega
  have b : ¬ (0x20000000 ≤ r ∧ r < 0x20020000) := by omega
  have c' : 0x30000000 ≤ r ∧ r < 0x30008000 := by omega
  rw [register_admin (by omega) (by omega) (by omega) (by omega)]
  simp [Device.adminRegister, e, a, b, c']

theorem register_weight {d : Device} {v r : Nat} (hr : r = 0x40000000 + 8 * v) (hv : v < 64) : (d.register 0 r).isSome = true := by
  have e : ∀ n, n < 0x40000000 → r ≠ n := fun n _ => by omega
  have a : ¬ (0x1000 ≤ r ∧ r < 0x1100) := by omega
  have b : ¬ (0x20000000 ≤ r ∧ r < 0x20020000) := by omega
  have c : ¬ (0x30000000 ≤ r ∧ r < 0x30008000) := by omega
  have w : 0x40000000 ≤ r ∧ r < 0x40000200 := by omega
  rw [register_admin (by omega) (by omega) (by omega) (by omega)]
  simp [Device.adminRegister, e, a, b, c, w]

/-! ### What a write leaves -/

theorem Arrived.tenant {s u : State} (h : Arrived s u) (v : Nat) : u.dev.tenant v = s.dev.tenant v := by
  obtain ⟨ports, wire, released, rfl⟩ := h
  rfl

theorem Arrived.queue {s u : State} (h : Arrived s u) (q : Nat) : u.dev.queue q = s.dev.queue q := by
  obtain ⟨ports, wire, released, rfl⟩ := h
  rfl

theorem tenant_setTenant_eq (d : Device) (v y : Nat) (x : Tenant) : (d.setTenant v x).tenant y = if y = v then x else d.tenant y := by
  split
  case isTrue h => rw [h, Device.tenant_setTenant]
  case isFalse h => exact Device.tenant_setTenant_ne _ _ _ _ h

theorem queue_setQueue_eq (d : Device) (q y : Nat) (x : Queue) : (d.setQueue q x).queue y = if y = q then x else d.queue y := by
  split
  case isTrue h => rw [h, Device.queue_setQueue]
  case isFalse h => exact Device.queue_setQueue_ne _ _ _ _ h

theorem Relinked.onlyPorts {u t : State} (h : Relinked u t) : OnlyPorts u t := by
  obtain ⟨ports, wire, rfl⟩ := h
  rfl

theorem Relinked.setsTenant {u t : State} {v : Nat} {g : Tenant → Tenant} (h : Relinked (u.mapTenant v g) t) :
    SetsTenant u t v (g (u.dev.tenant v)) := by
  obtain ⟨ports, wire, rfl⟩ := h
  exact ⟨rfl, fun y => tenant_setTenant_eq _ _ _ _⟩

theorem Relinked.setsQueue {u t : State} {q : Nat} {g : Queue → Queue} (h : Relinked (u.mapQueue q g) t) :
    SetsQueue u t q (g (u.dev.queue q)) := by
  obtain ⟨ports, wire, rfl⟩ := h
  exact ⟨rfl, fun y => queue_setQueue_eq _ _ _ _⟩

theorem Relinked.setsSched {u t : State} {g : SchedRegs → SchedRegs} (h : Relinked (u.mapSched g) t) :
    SetsSched u t (g u.dev.sched) := by
  obtain ⟨ports, wire, rfl⟩ := h
  rfl

/-- A state whose links alone have changed keeps its tenants, its queues and the scheduler's registers. -/
theorem Relinked.keepsTenant {u t : State} (h : Relinked u t) (v : Nat) : SetsTenant u t v (u.dev.tenant v) := by
  obtain ⟨ports, wire, rfl⟩ := h
  exact ⟨rfl, fun y => by split <;> simp_all [Device.tenant]⟩

theorem Relinked.keepsSched {u t : State} (h : Relinked u t) : SetsSched u t u.dev.sched := by
  obtain ⟨ports, wire, rfl⟩ := h
  rfl

end Sys2Proof.Claims

namespace Sys2Proof.Claims
open Sys2Proof.Machine

/-! ### Registers that only store their fields -/

theorem storeRegister_links (s : State) (v r : Nat) (w : Word) : SameLinks s.dev (s.storeRegister v r w).dev := by
  unfold State.storeRegister
  repeat' apply SameLinks.ite
  all_goals exact ⟨rfl, rfl, rfl, rfl⟩

/-- A write to a register that has no row of its own and sets no EN. -/
theorem accepts_store {s : State} {p : Nat} {f : Flit} {v r : Nat} {w : Word} {P : State → State → Prop} (hw : PutsWord s f v r w)
    (hreg : (s.dev.register v r).isSome = true) (hown : ownRow v r = false) (hen : s.enChange v r w = false)
    (hh : ∀ u, Arrived s u → ∀ t, Relinked (u.storeRegister v r w) t → P u t) : Accepts .windowRegisterWrite s p f P := by
  refine accepts_onWindow (row := fun _ _ => true) rfl hw hreg rfl (fun u hu => ?_)
  have hen' : u.enChange v r w = false := by simpa only [State.enChange, hu.queue] using hen
  simp only [hown, hen', Bool.or_false, Bool.false_eq_true, if_false]
  exact ⟨storeRegister_links _ _ _ _, hh u hu⟩

theorem enChange_of_not_cfg {s : State} {v r : Nat} {w : Word} (h : isCfg v r = false) : s.enChange v r w = false := by
  simp only [State.enChange, h, Bool.false_and]

/-- Each row of register writes serves a window. -/
theorem windowRows_onWindow {i : Nat → Flit → Instr} (h : i ∈ windowRows) :
    ∃ row f', ∀ p f s, exec (i p f) s = .next (State.onWindow s p f row f') := by
  simp only [windowRows, List.mem_cons, List.not_mem_nil, or_false] at h
  rcases h with rfl | rfl | rfl | rfl | rfl | rfl | rfl | rfl | rfl | rfl | rfl | rfl <;> exact ⟨_, _, fun _ _ _ => rfl⟩

theorem window_refuses (s : State) (p : Nat) (f : Flit) (v r : Nat)
    (hno : f.cls ≠ 0 ∨ (f.vmid ≠ 0 ∧ f.vmid ≠ v) ∨ f.len ≠ 7 ∨ r % 8 ≠ 0 ∨ (0x1000 ≤ r ∧ r < 0x10000 ∧ v ≠ 0) ∨ 0x50000000 ≤ r)
    (hr : r < 2 ^ 32) (hpl : offsetOf f.pa = Config.commandBase + v * 2 ^ 32 + r) {row : Nat → Flit → Instr} (hrow : row ∈ windowRows) :
    Serves (row p f) s p f (fun _ => [statusOf 3 f 1]) OnlyPorts := by
  obtain ⟨row', f', hx⟩ := windowRows_onWindow hrow
  refine serves_refused (hx p f s) ?_
  rw [windowOpen, windowOf_place hr hpl]
  rcases hno with h | ⟨h0, hv⟩ | h | h | h | h
  · exact .inl (by simp [h])
  · exact .inl (by simp [h0, hv])
  · exact .inr (.inl h)
  · exact .inr (.inr (register_none (.inl h)))
  · exact .inr (.inr (register_none (.inr (.inl h))))
  · exact .inr (.inr (register_none (.inr (.inr h))))

variable {s : State} {p : Nat} {f : Flit} {w : Word}

theorem evbase_written {v : Nat} (hw : PutsWord s f v 0x00 w) :
    Accepts .windowRegisterWrite s p f fun u t => SetsTenant u t v { s.dev.tenant v with evbase := base52 w } := by
  refine accepts_store hw rfl (by simp [ownRow]) (enChange_of_not_cfg (by simp [isCfg])) (fun u hu t ht => ?_)
  have h := Relinked.setsTenant (u := u) (v := v) (g := fun k => { k with evbase := BitVec.ofNat 64 (ringBase w) }) ht
  rwa [ofNat_ringBase, hu.tenant] at h

theorem readOnly_written {v r : Nat} (hr : r = 0x10 ∨ r = 0x20 ∨ r = 0x28) (hw : PutsWord s f v r w) :
    Accepts .windowRegisterWrite s p f OnlyPorts := by
  have hreg : (s.dev.register v r).isSome = true := by obtain rfl | rfl | rfl := hr <;> rfl
  have hown : ownRow v r = false := by obtain rfl | rfl | rfl := hr <;> simp [ownRow]
  have hcfg : isCfg v r = false := by obtain rfl | rfl | rfl := hr <;> simp [isCfg]
  refine accepts_store hw hreg hown (enChange_of_not_cfg hcfg) (fun u _ t ht => ?_)
  have hs : u.storeRegister v r w = u := by obtain rfl | rfl | rfl := hr <;> simp [State.storeRegister, isCfg]
  rw [hs] at ht
  exact ht.onlyPorts

theorem queueStatus_written {q v : Nat} (hq : q < 4096) (hv : (s.dev.queue q).vmid = v) (hw : PutsWord s f v (pageAt q + 0x18) w) :
    Accepts .windowRegisterWrite s p f fun u t => SetsQueue u t q
      { s.dev.queue q with ovr := (s.dev.queue q).ovr && !(w.getLsbD 0), sigerr := (s.dev.queue q).sigerr && !(w.getLsbD 1) } := by
  generalize hr : pageAt q + 0x18 = r at hw
  have hreg : (s.dev.register v r).isSome = true := by rw [register_page hr.symm hq (by decide) (by decide) hv]; rfl
  unfold pageAt at hr
  have hno0 : r ≠ 0 := by omega
  have h8 : ¬ (r = 0x08 ∨ r = 0x18 ∨ r = 0x60) := by omega
  have hin : 0x10000000 ≤ r ∧ r < 0x20000000 := by omega
  have hmod : r % 0x10000 = 0x18 := by omega
  have hdiv : (r - 0x10000000) / 0x10000 = q := by omega
  have hctx : ¬ 0x30000000 ≤ r := by omega
  have hcfg : ¬ 0x20000000 ≤ r := by omega
  refine accepts_store hw hreg (by simp_all [ownRow]) (enChange_of_not_cfg (by simp [isCfg, hcfg])) (fun u hu t ht => ?_)
  simp only [State.storeRegister, hno0, hin, hmod, hdiv, if_true, if_false, and_self, bit_toNat] at ht
  have h := ht.setsQueue
  rwa [hu.queue] at h

/-- A register of window 0 that no queue's block holds. -/
theorem adminStore {r : Nat} {P : State → State → Prop} (hr : r = 0x38 ∨ r = 0x40 ∨ r = 0x50 ∨ r = 0x58 ∨ r = 0x68) (hw : PutsWord s f 0 r w)
    (hh : ∀ u, Arrived s u → ∀ t, Relinked (u.storeRegister 0 r w) t → P u t) : Accepts .windowRegisterWrite s p f P := by
  have hreg : (s.dev.register 0 r).isSome = true := by obtain rfl | rfl | rfl | rfl | rfl := hr <;> rfl
  have hown : ownRow 0 r = false := by obtain rfl | rfl | rfl | rfl | rfl := hr <;> simp [ownRow]
  have hcfg : isCfg 0 r = false := by obtain rfl | rfl | rfl | rfl | rfl := hr <;> simp [isCfg]
  exact accepts_store hw hreg hown (enChange_of_not_cfg hcfg) hh

/-- What a write at offset o of a queue's configuration stores. -/
def configured (o : Nat) (w : Word) (k : Queue) : Queue :=
  if o = 0 then k.configure w
  else if k.en = true then k
  else if o = 8 then { k with base := ringBase w } else { k with cmpl := ringBase w }

theorem storeRegister_config {q o r : Nat} (hr : r = configAt q + o) (hq : q < 4096) (ho : o = 0 ∨ o = 8 ∨ o = 16) (u : State) :
    u.storeRegister 0 r w = u.mapQueue q (configured o w) := by
  unfold configAt at hr
  have e : ∀ n, n < 0x20000000 → r ≠ n := fun n _ => by omega
  have hb : 0x20000000 ≤ r ∧ r < 0x20020000 := by omega
  have hp : ¬ (0x10000000 ≤ r ∧ r < 0x20000000) := by omega
  have hq' : queueOfCfg r = q := by unfold queueOfCfg; omega
  have hm : r % 32 = o := by omega
  have hcfg : isCfg 0 r = true := by simp [isCfg, hb]
  simp only [State.storeRegister, e _ (by decide : 0 < 0x20000000), e _ (by decide : 0x38 < 0x20000000), e _ (by decide : 0x40 < 0x20000000),
    e _ (by decide : 0x50 < 0x20000000), e _ (by decide : 0x58 < 0x20000000), e _ (by decide : 0x68 < 0x20000000), hp, hcfg, hq',
    if_true, if_false, ne_eq, not_true_eq_false, hm]
  obtain rfl | rfl | rfl := ho <;> rfl

/-- A write to a queue's configuration that leaves EN as it is. -/
theorem config_written {q o r : Nat} (hr : r = configAt q + o) (hq : q < 4096) (ho : o = 0 ∨ o = 8 ∨ o = 16)
    (hen : o = 0 → (s.dev.queue q).en = w.getLsbD 63) (hw : PutsWord s f 0 r w) :
    Accepts .windowRegisterWrite s p f fun u t => SetsQueue u t q (configured o w (s.dev.queue q)) := by
  have hreg := register_config (d := s.dev) hr hq ho
  have hstore := storeRegister_config (w := w) hr hq ho
  unfold configAt at hr
  have hown : ownRow 0 r = false := by
    have e : ∀ n, n < 0x20000000 → r ≠ n := fun n _ => by omega
    have hc : ¬ 0x30000000 ≤ r := by omega
    have hp : ¬ r < 0x20000000 := by omega
    simp [ownRow, e, hc, hp]
  have hsame : s.enChange 0 r w = false := by
    have hq' : queueOfCfg r = q := by unfold queueOfCfg; omega
    have hm : r % 32 = o := by omega
    by_cases h0 : o = 0
    · simp [State.enChange, hq', bit_toNat, hen h0]
    · simp [State.enChange, hm, h0]
  refine accepts_store hw hreg hown hsame (fun u hu t ht => ?_)
  rw [hstore] at ht
  have h := ht.setsQueue
  rwa [hu.queue] at h

theorem newWeight_eq (w : Word) (old : Nat) : newWeight w old = if w.toNat % 256 = 0 then old else w.toNat % 256 := by
  simp [newWeight, field]

theorem configure_eq (k : Queue) (w : Word) :
    k.configure w =
      (let weight := if w.toNat % 256 = 0 then k.weight else w.toNat % 256
       if k.en = true then { k with weight := weight }
       else { k with vmid := w.toNat / 2 ^ 56 % 64, qsz := w.toNat / 2 ^ 52 % 16, weight := weight }) := by
  simp only [Queue.configure, newWeight_eq]
  rfl

theorem weight_written {v : Nat} (hv : v < 64) (hw : PutsWord s f 0 (0x40000000 + 8 * v) w) :
    Accepts .windowRegisterWrite s p f fun u t => SetsTenant u t v
      (if w.toNat % 256 = 0 then s.dev.tenant v else { s.dev.tenant v with weight := w.toNat % 256 }) := by
  generalize hr : 0x40000000 + 8 * v = r at hw
  have hreg := register_weight (d := s.dev) hr.symm hv
  have e : ∀ n, n < 0x40000000 → r ≠ n := fun n _ => by omega
  have hp : ¬ (0x10000000 ≤ r ∧ r < 0x20000000) := by omega
  have hc : ¬ (0x30000000 ≤ r ∧ r < 0x30008000) := by omega
  have hcfg : isCfg 0 r = false := by
    have : ¬ r < 0x20020000 := by omega
    simp [isCfg, this]
  have hin : 0x40000000 ≤ r ∧ r < 0x40000200 := by omega
  have hdiv : (r - 0x40000000) / 8 = v := by omega
  have hfield : field w.toNat 0 8 = w.toNat % 256 := by simp [field]
  have hown : ownRow 0 r = false := by
    have : ¬ r < 0x20000000 := by omega
    have : 0x30000000 ≤ r → ¬ r < 0x30008000 := by omega
    simp_all [ownRow]
  refine accepts_store hw hreg hown (enChange_of_not_cfg hcfg) (fun u hu t ht => ?_)
  simp only [State.storeRegister, e _ (by decide : 0 < 0x40000000), e _ (by decide : 0x38 < 0x40000000), e _ (by decide : 0x40 < 0x40000000),
    e _ (by decide : 0x50 < 0x40000000), e _ (by decide : 0x58 < 0x40000000), e _ (by decide : 0x68 < 0x40000000), hp, hcfg, hin, hdiv,
    hfield, if_true, if_false, ne_eq, not_true_eq_false, Bool.false_eq_true, and_self] at ht
  split at ht
  case isTrue h => simpa only [h, if_true, hu.tenant] using ht.keepsTenant v
  case isFalse h => simpa only [h, if_false, hu.tenant] using ht.setsTenant

theorem Relinked.setsSched_ite {c : Prop} [Decidable c] {u t : State} {g : SchedRegs → SchedRegs}
    (h : Relinked (if c then u else u.mapSched g) t) : SetsSched u t (if c then u.dev.sched else g u.dev.sched) := by
  split at h
  case isTrue hc => rw [if_pos hc]; exact h.keepsSched
  case isFalse hc => rw [if_neg hc]; exact h.setsSched

/-- A register of the scheduler that keeps its value on a condition of the tenants' saved harts and the scheduler's registers. -/
theorem sched_written {r : Nat} {c : Device → Prop} [∀ d, Decidable (c d)] {g : SchedRegs → SchedRegs} {x : SchedRegs}
    (hr : r = 0x38 ∨ r = 0x40 ∨ r = 0x50 ∨ r = 0x58 ∨ r = 0x68) (hw : PutsWord s f 0 r w)
    (hs : ∀ u : State, u.storeRegister 0 r w = if c u.dev then u else u.mapSched g) (hc : ∀ u, Arrived s u → (c u.dev ↔ c s.dev))
    (hx : x = if c s.dev then s.dev.sched else g s.dev.sched) : Accepts .windowRegisterWrite s p f fun u t => SetsSched u t x := by
  refine adminStore hr hw (fun u hu t ht => ?_)
  have hsched : u.dev.sched = s.dev.sched := by obtain ⟨_, _, _, rfl⟩ := hu; rfl
  rw [hs] at ht
  have h := ht.setsSched_ite
  rw [hsched] at h
  simp only [hc u hu] at h
  rwa [hx]

theorem quantum_written (hw : PutsWord s f 0 0x38 w) :
    Accepts .windowRegisterWrite s p f fun u t => SetsSched u t
      (let q := w.toNat % 2 ^ 14
       if 10 ≤ q ∧ q ≤ 10000 then { s.dev.sched with quantum := q } else s.dev.sched) := by
  have hfield : field w.toNat 0 14 = w.toNat % 2 ^ 14 := by simp [field]
  refine sched_written (c := fun _ => ¬ (10 ≤ w.toNat % 2 ^ 14 ∧ w.toNat % 2 ^ 14 ≤ 10000)) (g := fun c => { c with quantum := w.toNat % 2 ^ 14 })
    (.inl rfl) hw (fun u => ?_) (fun _ _ => Iff.rfl) (by rw [ite_not])
  rw [ite_not, ← hfield]
  rfl

theorem savePool_written (hw : PutsWord s f 0 0x50 w) :
    Accepts .windowRegisterWrite s p f fun u t => SetsSched u t
      (if s.dev.saved.any (·.spilled) then s.dev.sched else { s.dev.sched with savePool := (base52 w).toNat }) := by
  refine sched_written (c := fun d => d.saved.any (·.spilled) = true) (g := fun c => { c with savePool := ringBase w })
    (.inr (.inr (.inl rfl))) hw (fun _ => rfl) ?_ (by rw [ringBase_eq])
  rintro u ⟨_, _, _, rfl⟩
  rfl

theorem saveSlots_written (hw : PutsWord s f 0 0x58 w) :
    Accepts .windowRegisterWrite s p f fun u t => SetsSched u t
      (if s.dev.saved = [] then { s.dev.sched with saveSlots := w.toNat % 2 ^ 16 } else s.dev.sched) := by
  have hfield : field w.toNat 0 16 = w.toNat % 2 ^ 16 := by simp [field]
  refine sched_written (c := fun d => ¬ d.saved.isEmpty = true) (g := fun c => { c with saveSlots := w.toNat % 2 ^ 16 })
    (.inr (.inr (.inr (.inl rfl)))) hw (fun u => ?_) ?_ (by simp only [ite_not, List.isEmpty_iff])
  · rw [ite_not, ← hfield]
    rfl
  · rintro u ⟨_, _, _, rfl⟩
    rfl

theorem tlbinvVa_written (hw : PutsWord s f 0 0x68 w) :
    Accepts .windowRegisterWrite s p f fun u t => SetsSched u t { s.dev.sched with invVa := w &&& 0x00FFFFFFFFFF0000#64 } := by
  refine sched_written (c := fun _ => False) (g := fun c => { c with invVa := BitVec.ofNat 64 (field w.toNat 16 40 * 65536) })
    (.inr (.inr (.inr (.inr rfl)))) hw (fun _ => rfl) (fun _ _ => Iff.rfl) (by rw [if_neg not_false, ofNat_page])

theorem otherCommand_written (hw : PutsWord s f 0 0x40 w) :
    Accepts .windowRegisterWrite s p f fun u t => SetsSched u t
      (if s.dev.sched.busy = true then s.dev.sched else { s.dev.sched with cmd := w &&& 0xFFFF#64, result := 2 }) := by
  refine sched_written (c := fun d => d.sched.busy = true) (g := fun c => { c with cmd := BitVec.ofNat 64 (field w.toNat 0 16), result := 2 })
    (.inr (.inl rfl)) hw (fun _ => rfl) ?_ (by rw [ofNat_command])
  rintro u ⟨_, _, _, rfl⟩
  rfl

/-- R41 to R47, R82, R159. -/
theorem windowRegisters : WindowRegisters := by
  intro s p f
  refine ⟨fun v r hno hown hr hpl row hrow => window_refuses s p f v r hno hr hpl hrow, fun w => ⟨fun v => evbase_written, ?_, ?_, ?_, ?_,
    quantum_written, savePool_written, saveSlots_written, tlbinvVa_written, fun hw _ => otherCommand_written hw⟩⟩
  · intro v r hr hw
    exact readOnly_written (by simpa using hr) hw
  · exact fun q v hq hv hw => queueStatus_written hq hv hw
  · intro q hq
    refine ⟨fun hw hen => ?_, fun hw => ?_, fun hw => ?_⟩
    · have h := config_written (p := p) (o := 0) rfl hq (.inl rfl) (fun _ => hen) hw
      rwa [configured, if_pos rfl, configure_eq] at h
    · have h := config_written (p := p) (o := 8) rfl hq (.inr (.inl rfl)) (by simp) hw
      rwa [configured, if_neg (by decide), if_pos rfl, ringBase_eq] at h
    · have h := config_written (p := p) (o := 16) rfl hq (.inr (.inr rfl)) (by simp) hw
      rwa [configured, if_neg (by decide : ¬ 16 = 0), if_neg (by decide : ¬ 16 = 8), ringBase_eq] at h
  · exact fun v hv hw => weight_written hv hw

end Sys2Proof.Claims

namespace Sys2Proof.Claims
open Sys2Proof.Machine

variable {s : State} {p : Nat} {f : Flit} {w : Word}

/-! ### Queues (R47, R48) -/

theorem queueOfCfg_configAt (q : Nat) : queueOfCfg (configAt q) = q := by
  unfold queueOfCfg configAt
  omega

theorem isCfg_configAt {q : Nat} (hq : q < 4096) : isCfg 0 (configAt q) = true := by
  have h : configAt q < 0x20020000 ∧ 0x20000000 ≤ configAt q := by unfold configAt; omega
  simp [isCfg, h]

theorem enChange_configAt {q : Nat} (hq : q < 4096) (s : State) (w : Word) :
    s.enChange 0 (configAt q) w = (w.getLsbD 63 != (s.dev.queue q).en) := by
  have hm : configAt q % 32 = 0 := by unfold configAt; omega
  simp only [State.enChange, isCfg_configAt hq, hm, queueOfCfg_configAt, bit_toNat, beq_self_eq_true, Bool.true_and]

/-- A row of QCFG writes takes a write to the configuration of a queue. -/
theorem accepts_config {i : Nat → Flit → Instr} {q : Nat} {h : State → Nat → Nat → Word → State} {P : State → State → Prop}
    (hx : exec (i p f) s = .next (s.onWindow p f (fun v r => isCfg v r && r % 32 == 0) h)) (hq : q < 4096)
    (hw : PutsWord s f 0 (configAt q) w)
    (hh : ∀ u, Arrived s u → SameLinks u.dev (h u 0 (configAt q) w).dev ∧ ∀ t, Relinked (h u 0 (configAt q) w) t → P u t) :
    Accepts i s p f P := by
  have hm : configAt q % 32 = 0 := by unfold configAt; omega
  exact accepts_onWindow hx hw (register_config rfl hq (.inl rfl)) (by simp only [isCfg_configAt hq, hm]; rfl) hh

theorem here_iff (d : Device) (base : Nat) : d.here base = true ↔ d.own base = true ∧ offsetOf base < d.gddr := by
  simp only [Device.here, Device.populated, Bool.and_eq_true, decide_eq_true_eq]

theorem busyQueue_eq_false (d : Device) (q : Nat) : d.busyQueue q = false ↔ ∀ l ∈ d.launches, l.queue ≠ q := by
  simp [Device.busyQueue]

/-- The queue that a QCFG write would enable. -/
def enabled (k : Queue) (w : Word) : Queue :=
  { k with
    en := true, vmid := w.toNat / 2 ^ 56 % 64, qsz := w.toNat / 2 ^ 52 % 16
    weight := if w.toNat % 256 = 0 then k.weight else w.toNat % 256
    head := 0, tail := 0, done := 0, doneSet := [], ovr := false, sigerr := false, reads := 0 }

/-- What R47 asks of a queue that is enabled. -/
def MayEnable (s : State) (q : Nat) (w : Word) : Prop :=
  w.toNat / 2 ^ 52 % 16 ≤ 10 ∧ RingHere s (s.dev.queue q).base ∧ RingHere s (s.dev.queue q).cmpl ∧ ∀ l ∈ s.dev.launches, l.queue ≠ q

theorem Arrived.mayEnable {u : State} (hu : Arrived s u) (q : Nat) (w : Word) : MayEnable u q w ↔ MayEnable s q w := by
  obtain ⟨_, _, _, rfl⟩ := hu
  exact Iff.rfl

/-- The test of R47 as the model makes it. -/
theorem enable_test {q : Nat} (hen : (s.dev.queue q).en = false) :
    (((s.dev.queue q).configure w).qsz ≤ 10 && s.dev.here ((s.dev.queue q).configure w).base && s.dev.here ((s.dev.queue q).configure w).cmpl &&
      !(s.dev.busyQueue q)) = true ↔ MayEnable s q w := by
  simp only [configure_eq, hen, Bool.false_eq_true, if_false, Bool.and_eq_true, decide_eq_true_eq, here_iff,
    Bool.not_eq_eq_eq_not, Bool.not_true, busyQueue_eq_false, and_assoc, MayEnable, RingHere]

theorem enableQueue_may {q : Nat} (hen : (s.dev.queue q).en = false) (h : MayEnable s q w) :
    s.enableQueue q w = s.mapQueue q (fun _ => enabled (s.dev.queue q) w) := by
  unfold State.enableQueue
  rw [if_pos ((enable_test hen).2 h), configure_eq, hen]
  rfl

theorem enableQueue_not {q : Nat} (hen : (s.dev.queue q).en = false) (h : ¬ MayEnable s q w) : s.enableQueue q w = s := by
  unfold State.enableQueue
  rw [if_neg (fun hc => h ((enable_test hen).1 hc))]

theorem enableQueue_links (s : State) (q : Nat) (w : Word) : SameLinks s.dev (s.enableQueue q w).dev := by
  unfold State.enableQueue
  exact .ite ⟨rfl, rfl, rfl, rfl⟩ (.refl _)

theorem en_set {q : Nat} (hq : q < 4096) (hw : PutsWord s f 0 (configAt q) w) (hen : (s.dev.queue q).en = false) (h63 : w.getLsbD 63 = true)
    (hok : MayEnable s q w) :
    Accepts .queueEnable s p f fun u t => SetsQueue u t q (enabled (s.dev.queue q) w) := by
  refine accepts_config rfl hq hw (fun u hu => ?_)
  have hen' : (u.dev.queue q).en = false := by rw [hu.queue, hen]
  simp only [enChange_configAt hq, hen', bit_toNat, h63, Bool.true_bne, Bool.not_false, Bool.and_self, if_true, queueOfCfg_configAt]
  refine ⟨enableQueue_links _ _ _, fun t ht => ?_⟩
  rw [enableQueue_may hen' ((hu.mayEnable q w).2 hok)] at ht
  simpa only [hu.queue] using ht.setsQueue

theorem en_refused {q : Nat} (hq : q < 4096) (hw : PutsWord s f 0 (configAt q) w) (hen : (s.dev.queue q).en = false)
    (hok : ¬ MayEnable s q w) :
    Accepts .queueEnable s p f OnlyPorts := by
  refine accepts_config rfl hq hw (fun u hu => ?_)
  have hen' : (u.dev.queue q).en = false := by rw [hu.queue, hen]
  have hsame : u.enableQueue q w = u := enableQueue_not hen' (fun h => hok ((hu.mayEnable q w).1 h))
  simp only [queueOfCfg_configAt, hsame, ite_self]
  exact ⟨.refl _, fun t ht => ht.onlyPorts⟩

theorem en_cleared {q : Nat} (hq : q < 4096) (hw : PutsWord s f 0 (configAt q) w) (hen : (s.dev.queue q).en = true) (h63 : w.getLsbD 63 = false) :
    Accepts .queueDisable s p f fun u t => SetsQueue u t q { s.dev.queue q with
      en := false, weight := if w.toNat % 256 = 0 then (s.dev.queue q).weight else w.toNat % 256 } := by
  refine accepts_config rfl hq hw (fun u hu => ?_)
  have hen' : (u.dev.queue q).en = true := by rw [hu.queue, hen]
  simp only [enChange_configAt hq, hen', bit_toNat, h63, Bool.false_bne, Bool.not_false, Bool.and_self, if_true, queueOfCfg_configAt]
  refine ⟨⟨rfl, rfl, rfl, rfl⟩, fun t ht => ?_⟩
  have h := ht.setsQueue
  simpa only [hu.queue, newWeight_eq] using h

/-- A tail is in the ring and does not go back (R48). -/
def GoodTail (k : Queue) (w : Word) : Prop :=
  let size := 2 ^ (k.qsz + 6)
  let T := w.toNat % 2 ^ 16
  T < size ∧ (k.tail + size - k.head) % size ≤ (T + size - k.head) % size

/-- The row of tail writes takes one to a queue's page. -/
theorem accepts_tail {q v : Nat} {P : State → State → Prop} (hq : q < 4096) (hv : (s.dev.queue q).vmid = v)
    (hw : PutsWord s f v (pageAt q) w) (hl : ∀ u, Arrived s u → SameLinks u.dev (u.writeTail q w).dev)
    (hh : ∀ u, Arrived s u → ∀ t, Relinked (u.writeTail q w) t → P u t) : Accepts .qtailWrite s p f P := by
  have hin : 0x10000000 ≤ pageAt q ∧ pageAt q < 0x20000000 ∧ pageAt q % 0x10000 = 0 := by unfold pageAt; omega
  have hdiv : (pageAt q - 0x10000000) / 0x10000 = q := by unfold pageAt; omega
  have hreg : (s.dev.register v (pageAt q)).isSome = true := by
    rw [register_page (o := 0) (Nat.add_zero _).symm hq (by decide) (by decide) hv]
    rfl
  refine accepts_onWindow (row := fun _ r => 0x10000000 ≤ r && r < 0x20000000 && r % 0x10000 == 0) rfl hw hreg (by simp [hin]) (fun u hu => ?_)
  rw [hdiv]
  exact ⟨hl u hu, hh u hu⟩

theorem writeTail_eq (s : State) (q : Nat) (w : Word) [Decidable (GoodTail (s.dev.queue q) w)] :
    s.writeTail q w =
      if (s.dev.queue q).en = false then s
      else if GoodTail (s.dev.queue q) w then s.mapQueue q (fun k => { k with tail := w.toNat % 2 ^ 16 })
      else (s.mapQueue q (fun k => { k with ovr := true })).mapDev (fun d => d.postEvent (s.dev.queue q).vmid 0x03 q 0 w) := by
  simp only [State.writeTail, Bool.not_eq_eq_eq_not, Bool.not_true, GoodTail, field, ringRecords, Nat.pow_zero, Nat.div_one]
  congr

theorem postEvent_disabled {d : Device} {v : Nat} (h : (d.tenant v).even = false) (code queue seq : Nat) (data : Word) :
    d.postEvent v code queue seq data = d := by
  simp [Device.postEvent, h]

theorem tail_disabled {q v : Nat} (hq : q < 4096) (hv : (s.dev.queue q).vmid = v) (hw : PutsWord s f v (pageAt q) w)
    (hen : (s.dev.queue q).en = false) : Accepts .qtailWrite s p f OnlyPorts := by
  have hsame : ∀ u, Arrived s u → u.writeTail q w = u := fun u hu => by
    classical rw [writeTail_eq, if_pos (by rw [hu.queue, hen])]
  exact accepts_tail hq hv hw (fun u hu => by rw [hsame u hu]; exact .refl _)
    (fun u hu t ht => by rw [hsame u hu] at ht; exact ht.onlyPorts)

theorem tail_taken {q v : Nat} (hq : q < 4096) (hv : (s.dev.queue q).vmid = v) (hw : PutsWord s f v (pageAt q) w)
    (hen : (s.dev.queue q).en = true) (hgood : GoodTail (s.dev.queue q) w) :
    Accepts .qtailWrite s p f fun u t => SetsQueue u t q { s.dev.queue q with tail := w.toNat % 2 ^ 16 } := by
  have hsame : ∀ u, Arrived s u → u.writeTail q w = u.mapQueue q (fun k => { k with tail := w.toNat % 2 ^ 16 }) := fun u hu => by
    classical rw [writeTail_eq, if_neg (by simp [hu.queue, hen]), if_pos (by rwa [hu.queue])]
  exact accepts_tail hq hv hw (fun u hu => by rw [hsame u hu]; exact ⟨rfl, rfl, rfl, rfl⟩)
    (fun u hu t ht => by rw [hsame u hu] at ht; simpa only [hu.queue] using ht.setsQueue)

theorem writeTail_bad {q : Nat} {u : State} (hu : Arrived s u) (hen : (s.dev.queue q).en = true) (hbad : ¬ GoodTail (s.dev.queue q) w) :
    u.writeTail q w = (u.mapQueue q (fun k => { k with ovr := true })).mapDev (fun d => d.postEvent (s.dev.queue q).vmid 0x03 q 0 w) := by
  classical rw [writeTail_eq, if_neg (by simp [hu.queue, hen]), if_neg (by rwa [hu.queue]), hu.queue]

theorem tail_overflow {q v : Nat} (hq : q < 4096) (hv : (s.dev.queue q).vmid = v) (hw : PutsWord s f v (pageAt q) w)
    (hen : (s.dev.queue q).en = true) (hbad : ¬ GoodTail (s.dev.queue q) w) (heven : (s.dev.tenant v).even = false) :
    Accepts .qtailWrite s p f fun u t => SetsQueue u t q { s.dev.queue q with ovr := true } := by
  have hsame : ∀ u, Arrived s u → u.writeTail q w = u.mapQueue q (fun k => { k with ovr := true }) := fun u hu => by
    have he : ((u.mapQueue q (fun k => { k with ovr := true })).dev.tenant (s.dev.queue q).vmid).even = false := by
      rw [hv, ← heven, ← hu.tenant]
      rfl
    rw [writeTail_bad hu hen hbad, State.mapDev, postEvent_disabled he]
  exact accepts_tail hq hv hw (fun u hu => by rw [hsame u hu]; exact ⟨rfl, rfl, rfl, rfl⟩)
    (fun u hu t ht => by rw [hsame u hu] at ht; simpa only [hu.queue] using ht.setsQueue)

/-! ### Context entries (R45) -/

/-- The entry that a context table write holds. -/
def contextOf (w : Word) : CtxEnt := { valid := w.getLsbD 63, vmid := w.toNat / 2 ^ 56 % 64, root := (base52 w).toNat }

theorem accepts_context {c : Nat} {P : State → State → Prop} (hc : c < 4096) (hw : PutsWord s f 0 (0x30000000 + 8 * c) w)
    (hh : ∀ u, Arrived s u → ∀ t, Relinked (if c = 0 ∨ u.dev.launches.any (fun l => l.record.ctx == c) then u
      else u.mapDev (fun d => { d with ctxents := insertKey c (contextOf w) d.ctxents })) t → P u t) :
    Accepts .ctxentWrite s p f P := by
  have hin : 0x30000000 ≤ 0x30000000 + 8 * c ∧ 0x30000000 + 8 * c < 0x30008000 := by omega
  have hdiv : (0x30000000 + 8 * c - 0x30000000) / 8 = c := by omega
  refine accepts_onWindow (row := fun v r => v == 0 && 0x30000000 ≤ r && r < 0x30008000) rfl hw (register_context rfl hc) (by simp [hin.2])
    (fun u hu => ?_)
  simp only [hdiv, bit_toNat, ringBase_eq]
  exact ⟨.ite (.refl _) ⟨rfl, rfl, rfl, rfl⟩, hh u hu⟩

theorem context_kept {c : Nat} (hc : c < 4096) (hw : PutsWord s f 0 (0x30000000 + 8 * c) w)
    (hno : c = 0 ∨ ∃ l ∈ s.dev.launches, l.record.ctx = c) : Accepts .ctxentWrite s p f OnlyPorts := by
  refine accepts_context hc hw (fun u hu t ht => ?_)
  have hl : u.dev.launches = s.dev.launches := by obtain ⟨_, _, _, rfl⟩ := hu; rfl
  rw [if_pos (by simpa [hl] using hno)] at ht
  exact ht.onlyPorts

theorem context_written {c : Nat} (hc : c < 4096) (hw : PutsWord s f 0 (0x30000000 + 8 * c) w) (h0 : c ≠ 0)
    (hno : ∀ l ∈ s.dev.launches, l.record.ctx ≠ c) : Accepts .ctxentWrite s p f fun u t =>
      t = { u with dev := { u.dev with ctxents := t.dev.ctxents, ports := t.dev.ports, wire := t.dev.wire } } ∧
      ∀ y, t.dev.ctxent y = if y = c then contextOf w else s.dev.ctxent y := by
  refine accepts_context hc hw (fun u hu t ht => ?_)
  have hl : u.dev.launches = s.dev.launches := by obtain ⟨_, _, _, rfl⟩ := hu; rfl
  have hcx : u.dev.ctxents = s.dev.ctxents := by obtain ⟨_, _, _, rfl⟩ := hu; rfl
  rw [if_neg (by simpa [hl, h0] using hno)] at ht
  obtain ⟨_, _, rfl⟩ := ht
  refine ⟨rfl, fun y => ?_⟩
  simp only [State.mapDev, Device.ctxent, hcx]
  split
  case isTrue h => rw [h, lookupKey_insertKey]; rfl
  case isFalse h => rw [lookupKey_insertKey_ne _ _ _ h]

end Sys2Proof.Claims

namespace Sys2Proof.Claims
open Sys2Proof.Machine

/-! ### Events (R58) -/

/-- The 16 bytes of an event. -/
def eventBytes (code queue seq : Nat) (data : Word) : List Byte :=
  leBytes 1 code ++ leBytes 1 0 ++ leBytes 2 queue ++ leBytes 4 seq ++ leBytes 8 data.toNat

/-- The physical address of the next event of a tenant. -/
def eventAt (k : Tenant) : Nat := (base52 k.evbase).toNat + 16 * (k.evprod.toNat % 2 ^ (k.evsz + 8))

theorem tenant_writeAccess (d : Device) (off : Nat) (l : List Byte) (v : Nat) : (d.writeAccess off l).tenant v = d.tenant v := by
  obtain ⟨_, _, _, _, _, h⟩ := d.writeAccess_dev off l
  rw [h]
  rfl

theorem queue_writeAccess (d : Device) (off : Nat) (l : List Byte) (q : Nat) : (d.writeAccess off l).queue q = d.queue q := by
  obtain ⟨_, _, _, _, _, h⟩ := d.writeAccess_dev off l
  rw [h]
  rfl

theorem writeAccess_links (d : Device) (off : Nat) (l : List Byte) : SameLinks d (d.writeAccess off l) := by
  obtain ⟨_, _, _, _, _, h⟩ := d.writeAccess_dev off l
  rw [h]
  exact ⟨rfl, rfl, rfl, rfl⟩

/-- The whole event lies in this device's memory. -/
def EventHere (d : Device) (k : Tenant) : Prop := d.own (eventAt k) = true ∧ offsetOf (eventAt k) + 16 ≤ d.gddr

/-- An event whose place is here is written there, and EVPROD goes up by one. -/
theorem writeEvent_here {d : Device} {v : Nat} (h : EventHere d (d.tenant v)) (code queue seq : Nat) (data : Word) :
    d.writeEvent v code queue seq data =
      (d.setTenant v { d.tenant v with evprod := (d.tenant v).evprod + 1 }).writeAccess (offsetOf (eventAt (d.tenant v)))
        (eventBytes code queue seq data) := by
  have hpa : field (d.tenant v).evbase.toNat 16 36 * 65536 + 16 * ((d.tenant v).evprod.toNat % 2 ^ ((d.tenant v).evsz + 8)) =
      eventAt (d.tenant v) := by rw [eventAt, ← ringBase_eq]; rfl
  unfold Device.writeEvent
  dsimp only
  rw [hpa]
  have hown : (d.setTenant v { d.tenant v with evprod := (d.tenant v).evprod + 1 }).own (eventAt (d.tenant v)) = true := h.1
  have hpop : (d.setTenant v { d.tenant v with evprod := (d.tenant v).evprod + 1 }).populated (offsetOf (eventAt (d.tenant v))) = true :=
    decide_eq_true (Nat.lt_of_lt_of_le (Nat.lt_add_of_pos_right (by decide)) h.2)
  rw [if_pos hown, if_pos hpop]
  rfl

theorem room_iff (k : Tenant) : k.room = true ↔ ¬ k.evprod - k.evcons = BitVec.ofNat 64 (2 ^ (k.evsz + 8)) := by
  simp [Tenant.room]

theorem tellLost_idle {d : Device} {v : Nat} (h : (d.tenant v).even = false ∨ (d.tenant v).owes = false) : d.tellLost v = d := by
  obtain h | h := h <;> simp [Device.tellLost, h]

theorem tellLost_tells {d : Device} {v : Nat} (heven : (d.tenant v).even = true) (howes : (d.tenant v).owes = true)
    (hroom : (d.tenant v).room = true) :
    d.tellLost v = (d.setTenant v { d.tenant v with owes := false }).writeEvent v 0x06 0 0 (d.tenant v).evlost := by
  simp [Device.tellLost, heven, howes, hroom]

theorem postEvent_room {d : Device} {v : Nat} (heven : (d.tenant v).even = true) (howes : (d.tenant v).owes = false)
    (hroom : (d.tenant v).room = true) (code queue seq : Nat) (data : Word) :
    d.postEvent v code queue seq data = d.writeEvent v code queue seq data := by
  simp [Device.postEvent, heven, tellLost_idle (.inr howes), hroom]

theorem postEvent_full {d : Device} {v : Nat} (heven : (d.tenant v).even = true) (howes : (d.tenant v).owes = false)
    (hroom : (d.tenant v).room = false) (code queue seq : Nat) (data : Word) :
    d.postEvent v code queue seq data = d.setTenant v { d.tenant v with evlost := (d.tenant v).evlost + 1, owes := true } := by
  simp [Device.postEvent, heven, tellLost_idle (.inr howes), hroom]

/-- What stands at a place of memory after a write, and that the rest is as it was. -/
theorem wrote_bytes {m : List Host.Cell} (hm : Memory.wf m = true) (a : Nat) (l : List Byte) {n : Nat} (hn : l.length = n) :
    Memory.readBytes (Memory.writeBytes m a l) a n = l ∧
    ∀ x, (x < a ∨ a + n ≤ x) → Memory.read (Memory.writeBytes m a l) x = Memory.read m x := by
  subst hn
  exact ⟨Memory.readBytes_writeBytes m a l hm, fun x hx => Memory.read_writeBytes_out l m a x hm hx⟩

theorem eventBytes_length (code queue seq : Nat) (data : Word) : (eventBytes code queue seq data).length = 16 := by
  simp [eventBytes]

/-- An event has been written for a tenant whose registers were k, into memory m: its bytes stand at its place, the rest of memory is as it was, and
EVPROD is one higher. -/
structure WroteEvent (m : List Host.Cell) (d : Device) (v : Nat) (k : Tenant) (l : List Byte) : Prop where
  tenant : d.tenant v = { k with evprod := k.evprod + 1 }
  bytes : Memory.readBytes d.mem (offsetOf (eventAt k)) 16 = l
  rest : ∀ a, (a < offsetOf (eventAt k) ∨ offsetOf (eventAt k) + 16 ≤ a) → Memory.read d.mem a = Memory.read m a

theorem wroteEvent_writeEvent {d : Device} {v : Nat} {m : List Host.Cell} {k : Tenant} (hk : d.tenant v = k) (hmem : d.mem = m)
    (hm : Memory.wf m = true) (h : EventHere d k) (code queue seq : Nat) (data : Word) :
    WroteEvent m (d.writeEvent v code queue seq data) v k (eventBytes code queue seq data) := by
  subst hk hmem
  rw [writeEvent_here h]
  generalize hd : d.setTenant v { d.tenant v with evprod := (d.tenant v).evprod + 1 } = e
  have hmem : e.mem = d.mem := by rw [← hd]; rfl
  have hw := wrote_bytes hm (offsetOf (eventAt (d.tenant v))) _ (eventBytes_length code queue seq data)
  refine ⟨?_, ?_, ?_⟩
  · rw [tenant_writeAccess, ← hd, Device.tenant_setTenant]
  · rw [Device.writeAccess_mem, hmem]; exact hw.1
  · rw [Device.writeAccess_mem, hmem]; exact hw.2

theorem writeEvent_frame {d : Device} {v : Nat} (h : EventHere d (d.tenant v)) (code queue seq : Nat) (data : Word) :
    SameLinks d (d.writeEvent v code queue seq data) ∧ ∀ q, (d.writeEvent v code queue seq data).queue q = d.queue q := by
  rw [writeEvent_here h]
  refine ⟨?_, fun q => queue_writeAccess _ _ _ _⟩
  have hl := writeAccess_links (d.setTenant v { d.tenant v with evprod := (d.tenant v).evprod + 1 }) (offsetOf (eventAt (d.tenant v)))
    (eventBytes code queue seq data)
  exact ⟨hl.ports, hl.wire, hl.node, hl.cabling⟩

variable {s : State} {p : Nat} {f : Flit} {w : Word}

/-! ### Writes of EVCFG and EVCONS -/

/-- A tenant's registers after an EVCFG write that is not ignored, before the lost count is told. -/
def ringConfigured (k : Tenant) (w : Word) : Tenant :=
  let t := { k with even := bit w.toNat 63, evsz := field w.toNat 0 4 }
  if bit w.toNat 63 && !k.even then { t with evprod := 0, evcons := 0, evlost := 0, owes := false } else t

theorem ringConfigured_eq (k : Tenant) (w : Word) : ringConfigured k w =
    if w.getLsbD 63 = true ∧ k.even = false then
      { k with even := true, evsz := w.toNat % 16, evprod := 0, evcons := 0, evlost := 0, owes := false }
    else { k with even := w.getLsbD 63, evsz := w.toNat % 16 } := by
  have hsz : field w.toNat 0 4 = w.toNat % 16 := by simp [field]
  simp only [ringConfigured, bit_toNat, hsz, Bool.and_eq_true, Bool.not_eq_eq_eq_not, Bool.not_true]
  split
  case isTrue h => rw [h.1]
  case isFalse h => rfl

theorem accepts_evcfg {v : Nat} {P : State → State → Prop} (hw : PutsWord s f v 0x08 w)
    (hl : ∀ u, Arrived s u → ¬ 9 ≤ w.toNat % 16 → SameLinks u.dev ((u.dev.setTenant v (ringConfigured (u.dev.tenant v) w)).tellLost v))
    (hh : ∀ u, Arrived s u → ∀ t, Relinked (if 9 ≤ w.toNat % 16 then u
      else { u with dev := (u.dev.setTenant v (ringConfigured (u.dev.tenant v) w)).tellLost v }) t → P u t) :
    Accepts .evcfgWrite s p f P := by
  have hsz : field w.toNat 0 4 = w.toNat % 16 := by simp [field]
  refine accepts_onWindow (row := fun _ r => r == 0x08) rfl hw rfl rfl (fun u hu => ?_)
  change SameLinks _ (if 9 ≤ field w.toNat 0 4 then u
      else { u with dev := (u.dev.setTenant v (ringConfigured (u.dev.tenant v) w)).tellLost v }).dev ∧
    ∀ t, Relinked (if 9 ≤ field w.toNat 0 4 then u
      else { u with dev := (u.dev.setTenant v (ringConfigured (u.dev.tenant v) w)).tellLost v }) t → P u t
  rw [hsz]
  refine ⟨?_, hh u hu⟩
  split
  · exact .refl _
  case isFalse h => exact hl u hu h

theorem accepts_evcons {v : Nat} {P : State → State → Prop} (hw : PutsWord s f v 0x18 w)
    (hl : ∀ u, Arrived s u → SameLinks u.dev ((u.dev.setTenant v { u.dev.tenant v with evcons := w }).tellLost v))
    (hh : ∀ u, Arrived s u → ∀ t, Relinked (if ¬ ((u.dev.tenant v).evcons ≤ w ∧ w ≤ (u.dev.tenant v).evprod) then u
      else { u with dev := (u.dev.setTenant v { u.dev.tenant v with evcons := w }).tellLost v }) t → P u t) :
    Accepts .evconsWrite s p f P := by
  refine accepts_onWindow (row := fun _ r => r == 0x18) rfl hw rfl rfl (fun u hu => ?_)
  have hc : ((u.dev.tenant v).evprod.ult w || w.ult (u.dev.tenant v).evcons) = true ↔
      ¬ ((u.dev.tenant v).evcons ≤ w ∧ w ≤ (u.dev.tenant v).evprod) := by
    simp only [Bool.or_eq_true, BitVec.ult, decide_eq_true_eq, BitVec.le_def]
    omega
  simp only [State.mapTenant, State.mapDev, hc]
  refine ⟨?_, hh u hu⟩
  split
  · exact .refl _
  · exact hl u hu

theorem setTenant_links (d : Device) (v : Nat) (x : Tenant) : SameLinks d (d.setTenant v x) := ⟨rfl, rfl, rfl, rfl⟩

theorem evcfg_quiet {v : Nat} (hw : PutsWord s f v 0x08 w)
    (hq : (s.dev.tenant v).owes = false ∨ (s.dev.tenant v).even = false ∨ w.getLsbD 63 = false) :
    Accepts .evcfgWrite s p f fun u t => SetsTenant u t v
      (if 9 ≤ w.toNat % 16 then s.dev.tenant v else ringConfigured (s.dev.tenant v) w) := by
  have hsame : ∀ u, Arrived s u → (u.dev.setTenant v (ringConfigured (u.dev.tenant v) w)).tellLost v =
      u.dev.setTenant v (ringConfigured (u.dev.tenant v) w) := fun u hu => by
    refine tellLost_idle ?_
    rw [Device.tenant_setTenant, hu.tenant, ringConfigured_eq]
    split
    · exact .inr rfl
    case isFalse h =>
      obtain hq | hq | hq := hq
      · exact .inr hq
      · exact .inl (by simpa [hq] using h)
      · exact .inl hq
  refine accepts_evcfg hw (fun u hu _ => by rw [hsame u hu]; exact setTenant_links _ _ _) (fun u hu t ht => ?_)
  rw [hsame u hu] at ht
  split at ht
  case isTrue h => rw [if_pos h, ← hu.tenant]; exact ht.keepsTenant v
  case isFalse h => rw [if_neg h, ← hu.tenant]; exact ht.setsTenant (g := fun k => ringConfigured k w)

theorem evcons_quiet {v : Nat} (hw : PutsWord s f v 0x18 w) (hq : (s.dev.tenant v).owes = false) :
    Accepts .evconsWrite s p f fun u t => SetsTenant u t v
      (if (s.dev.tenant v).evcons ≤ w ∧ w ≤ (s.dev.tenant v).evprod then { s.dev.tenant v with evcons := w } else s.dev.tenant v) := by
  have hsame : ∀ u, Arrived s u → (u.dev.setTenant v { u.dev.tenant v with evcons := w }).tellLost v =
      u.dev.setTenant v { u.dev.tenant v with evcons := w } := fun u hu =>
    tellLost_idle (.inr (by rw [Device.tenant_setTenant, hu.tenant, hq]))
  refine accepts_evcons hw (fun u hu => by rw [hsame u hu]; exact setTenant_links _ _ _) (fun u hu t ht => ?_)
  rw [hsame u hu, hu.tenant] at ht
  split at ht
  case isTrue h => rw [if_neg h, ← hu.tenant]; exact ht.keepsTenant v
  case isFalse h =>
    rw [if_pos (not_not.1 h), ← hu.tenant]
    rw [← hu.tenant] at ht
    exact ht.setsTenant (g := fun k => { k with evcons := w })

/-- R45, R47, R48, R58. -/
theorem queuesContextsAndEvents : QueuesContextsAndEvents := by
  intro s p f w
  refine ⟨fun q hq hw => ⟨fun hen h63 => ⟨en_set hq hw hen h63, en_refused hq hw hen⟩, en_cleared hq hw⟩,
    fun q v hq hv hw => ⟨tail_disabled hq hv hw, tail_taken hq hv hw, tail_overflow hq hv hw⟩,
    fun c hc hw => ⟨context_kept hc hw, context_written hc hw⟩, fun v => ⟨fun hw hq => ?_, evcons_quiet⟩⟩
  simpa only [ringConfigured_eq] using evcfg_quiet hw hq

/-! ### The event ring -/

theorem not_goodTail {k : Queue} (h : 2 ^ (k.qsz + 6) ≤ w.toNat % 2 ^ 16) : ¬ GoodTail k w := fun hg => absurd hg.1 (by omega)

/-- The device in which a refused tail write has set OVR and posts its event. -/
theorem badTail {q v : Nat} {u : State} (hu : Arrived s u) (hv : (s.dev.queue q).vmid = v) (hen : (s.dev.queue q).en = true)
    (hbad : ¬ GoodTail (s.dev.queue q) w) : ∃ d : Device, (u.writeTail q w) = { u with dev := d.postEvent v 0x03 q 0 w } ∧
      d.tenant v = s.dev.tenant v ∧ (d.queue q).ovr = true ∧ d.mem = s.dev.mem ∧ SameLinks u.dev d ∧ d.gddr = s.dev.gddr := by
  refine ⟨(u.mapQueue q (fun k => { k with ovr := true })).dev, ?_, hu.tenant v, congrArg Queue.ovr (Device.queue_setQueue _ _ _), ?_,
    ⟨rfl, rfl, rfl, rfl⟩, ?_⟩
  · rw [writeTail_bad hu hen hbad, hv]
    rfl
  · obtain ⟨_, _, _, rfl⟩ := hu; rfl
  · obtain ⟨_, _, _, rfl⟩ := hu; rfl

theorem EventHere.of_same {d e : Device} {k : Tenant} (h : EventHere d k) (hn : e.node = d.node) (hg : e.gddr = d.gddr) : EventHere e k :=
  ⟨by simpa only [Device.own, hn] using h.1, hg ▸ h.2⟩

theorem tail_event {q v : Nat} (hm : Memory.wf s.dev.mem = true) (hq : q < 4096) (hv : (s.dev.queue q).vmid = v)
    (hw : PutsWord s f v (pageAt q) w) (hen : (s.dev.queue q).en = true) (hbad : ¬ GoodTail (s.dev.queue q) w)
    (heven : (s.dev.tenant v).even = true) (howes : (s.dev.tenant v).owes = false) (hroom : (s.dev.tenant v).room = true)
    (hh : EventHere s.dev (s.dev.tenant v)) :
    Accepts .qtailWrite s p f fun _ t => (t.dev.queue q).ovr = true ∧
      WroteEvent s.dev.mem t.dev v (s.dev.tenant v) (eventBytes 0x03 q 0 w) := by
  have hpost : ∀ u, Arrived s u → SameLinks u.dev (u.writeTail q w).dev ∧ ((u.writeTail q w).dev.queue q).ovr = true ∧
      WroteEvent s.dev.mem (u.writeTail q w).dev v (s.dev.tenant v) (eventBytes 0x03 q 0 w) := fun u hu => by
    obtain ⟨d, hd, ht, hovr, hmem, hl, hg⟩ := badTail hu hv hen hbad
    have hn : d.node = s.dev.node := by rw [← hl.node]; obtain ⟨_, _, _, rfl⟩ := hu; rfl
    have he := hh.of_same hn hg
    rw [hd, postEvent_room (by rw [ht, heven]) (by rw [ht, howes]) (by rw [ht, hroom])]
    have hf := writeEvent_frame (d := d) (v := v) (by rwa [ht]) 0x03 q 0 w
    exact ⟨hl.trans hf.1,
      by rw [hf.2, hovr], wroteEvent_writeEvent ht hmem hm he 0x03 q 0 w⟩
  refine accepts_tail hq hv hw (fun u hu => (hpost u hu).1) (fun u hu t ht => ?_)
  obtain ⟨_, _, rfl⟩ := ht
  obtain ⟨-, hovr, hwr⟩ := hpost u hu
  exact ⟨hovr, hwr.tenant, hwr.bytes, hwr.rest⟩

theorem tail_lost {q v : Nat} (hq : q < 4096) (hv : (s.dev.queue q).vmid = v) (hw : PutsWord s f v (pageAt q) w)
    (hen : (s.dev.queue q).en = true) (hbad : ¬ GoodTail (s.dev.queue q) w) (heven : (s.dev.tenant v).even = true)
    (howes : (s.dev.tenant v).owes = false) (hroom : (s.dev.tenant v).room = false) :
    Accepts .qtailWrite s p f fun _ t => (t.dev.queue q).ovr = true ∧
      t.dev.tenant v = { s.dev.tenant v with evlost := (s.dev.tenant v).evlost + 1, owes := true } ∧ t.dev.mem = s.dev.mem := by
  have hpost : ∀ u, Arrived s u → SameLinks u.dev (u.writeTail q w).dev ∧ ((u.writeTail q w).dev.queue q).ovr = true ∧
      (u.writeTail q w).dev.tenant v = { s.dev.tenant v with evlost := (s.dev.tenant v).evlost + 1, owes := true } ∧
      (u.writeTail q w).dev.mem = s.dev.mem := fun u hu => by
    obtain ⟨d, hd, ht, hovr, hmem, hl, hg⟩ := badTail hu hv hen hbad
    rw [hd, postEvent_full (by rw [ht, heven]) (by rw [ht, howes]) (by rw [ht, hroom]), ht]
    exact ⟨⟨hl.ports, hl.wire, hl.node, hl.cabling⟩, hovr, Device.tenant_setTenant _ _ _, hmem⟩
  refine accepts_tail hq hv hw (fun u hu => (hpost u hu).1) (fun u hu t ht => ?_)
  obtain ⟨_, _, rfl⟩ := ht
  exact (hpost u hu).2

/-- Once a tenant whose ring was full has room, event 0x06 tells the count of what was lost. -/
theorem told {d : Device} {v : Nat} {k : Tenant} {u : State} (hu : Arrived s u) (hm : Memory.wf s.dev.mem = true) (heven : k.even = true)
    (howes : k.owes = true) (hroom : k.room = true) (hh : EventHere s.dev k) (hd : d = (u.dev.setTenant v k).tellLost v) :
    SameLinks u.dev d ∧ WroteEvent s.dev.mem d v { k with owes := false } (eventBytes 0x06 0 0 k.evlost) := by
  have hk : ((u.dev.setTenant v k).setTenant v { k with owes := false }).tenant v = { k with owes := false } := Device.tenant_setTenant _ _ _
  have he : EventHere ((u.dev.setTenant v k).setTenant v { k with owes := false }) { k with owes := false } := by
    obtain ⟨_, _, _, rfl⟩ := hu; exact hh
  have hmem : ((u.dev.setTenant v k).setTenant v { k with owes := false }).mem = s.dev.mem := by obtain ⟨_, _, _, rfl⟩ := hu; rfl
  have ht : (u.dev.setTenant v k).tenant v = k := Device.tenant_setTenant _ _ _
  rw [hd, tellLost_tells (by rw [ht, heven]) (by rw [ht, howes]) (by rw [ht, hroom]), ht]
  have hf := (writeEvent_frame (by rwa [hk]) 0x06 0 0 k.evlost).1
  exact ⟨⟨hf.ports, hf.wire, hf.node, hf.cabling⟩, wroteEvent_writeEvent hk hmem hm he 0x06 0 0 k.evlost⟩

theorem evcons_tells {v : Nat} (hm : Memory.wf s.dev.mem = true) (hw : PutsWord s f v 0x18 w) (heven : (s.dev.tenant v).even = true)
    (howes : (s.dev.tenant v).owes = true) (hle : (s.dev.tenant v).evcons ≤ w ∧ w ≤ (s.dev.tenant v).evprod)
    (hroom : ({ s.dev.tenant v with evcons := w } : Tenant).room = true) (hh : EventHere s.dev (s.dev.tenant v)) :
    Accepts .evconsWrite s p f fun _ t => WroteEvent s.dev.mem t.dev v { s.dev.tenant v with evcons := w, owes := false }
      (eventBytes 0x06 0 0 (s.dev.tenant v).evlost) := by
  have htold := fun u (hu : Arrived s u) => told (v := v) (k := { s.dev.tenant v with evcons := w }) hu hm heven howes hroom hh rfl
  refine accepts_evcons hw (fun u hu => ?_) (fun u hu t ht => ?_)
  · rw [hu.tenant]; exact (htold u hu).1
  · rw [hu.tenant, if_neg (not_not.2 hle)] at ht
    obtain ⟨_, _, rfl⟩ := ht
    obtain ⟨-, hwr⟩ := htold u hu
    exact ⟨hwr.tenant, hwr.bytes, hwr.rest⟩

theorem evcfg_tells {v : Nat} (hm : Memory.wf s.dev.mem = true) (hw : PutsWord s f v 0x08 w) (heven : (s.dev.tenant v).even = true)
    (howes : (s.dev.tenant v).owes = true) (h63 : w.getLsbD 63 = true) (hsz : w.toNat % 16 ≤ 8)
    (hroom : ({ s.dev.tenant v with evsz := w.toNat % 16 } : Tenant).room = true)
    (hh : EventHere s.dev { s.dev.tenant v with evsz := w.toNat % 16 }) :
    Accepts .evcfgWrite s p f fun _ t => WroteEvent s.dev.mem t.dev v { s.dev.tenant v with evsz := w.toNat % 16, owes := false }
      (eventBytes 0x06 0 0 (s.dev.tenant v).evlost) := by
  have hk : ringConfigured (s.dev.tenant v) w = { s.dev.tenant v with evsz := w.toNat % 16 } := by
    rw [ringConfigured_eq, heven, if_neg (by simp), h63, ← heven]
  have htold := fun u (hu : Arrived s u) => told (v := v) (k := { s.dev.tenant v with evsz := w.toNat % 16 }) hu hm heven howes hroom hh rfl
  refine accepts_evcfg hw (fun u hu _ => ?_) (fun u hu t ht => ?_)
  · rw [hu.tenant, hk]; exact (htold u hu).1
  · rw [hu.tenant, hk, if_neg (by omega)] at ht
    obtain ⟨_, _, rfl⟩ := ht
    obtain ⟨-, hwr⟩ := htold u hu
    exact ⟨hwr.tenant, hwr.bytes, hwr.rest⟩

theorem Accepts.mono {i : Nat → Flit → Instr} {P Q : State → State → Prop} (h : Accepts i s p f P) (hPQ : ∀ u t, P u t → Q u t) :
    Accepts i s p f Q := by
  refine ⟨fun hc => ?_, fun hr => ?_⟩
  · obtain ⟨t, hx, ha, hP⟩ := h.1 hc
    exact ⟨t, hx, ha, hPQ _ _ hP⟩
  · obtain ⟨t, hx, ha, hP⟩ := h.2 hr
    exact ⟨t, hx, ha, hPQ _ _ hP⟩

/-- R58. -/
theorem eventRing : EventRing := by
  rintro s p f w q v ⟨hm, -⟩
  refine ⟨fun hq hv hw hen hbig heven howes => ⟨fun hroom hh => ?_, fun hfull => ?_⟩, fun hw heven howes hlo hhi hroom hh => ?_,
    fun hw heven howes h63 hsz hroom hh => ?_⟩
  · exact (tail_event hm hq hv hw hen (not_goodTail hbig) heven howes ((room_iff _).2 hroom) hh).mono
      (fun _ _ h => ⟨h.1, h.2.tenant, h.2.bytes, h.2.rest⟩)
  · exact tail_lost hq hv hw hen (not_goodTail hbig) heven howes (by simpa [Tenant.room] using hfull)
  · exact (evcons_tells hm hw heven howes ⟨hlo, hhi⟩ ((room_iff _).2 hroom) hh).mono (fun _ _ h => ⟨h.tenant, h.bytes, h.rest⟩)
  · exact (evcfg_tells hm hw heven howes h63 hsz ((room_iff _).2 hroom) hh).mono (fun _ _ h => ⟨h.tenant, h.bytes, h.rest⟩)

/-- Settles O47: a row of window writes serves one flit, and what each register stores, the rings included, is said register by register. -/
theorem hostWindows : Obligations.HostWindows := ⟨windowRegisters, queuesContextsAndEvents, eventRing⟩

end Sys2Proof.Claims

namespace Sys2Proof.Claims
open Sys2Proof.Machine

variable {s : State} {p : Nat} {f : Flit}

theorem queue_mapQueue (s : State) (q : Nat) (g : Queue → Queue) : (s.mapQueue q g).dev.queue q = g (s.dev.queue q) :=
  Device.queue_setQueue _ _ _

theorem answer_eq (s : State) (p : Nat) (f g : Flit) :
    s.answer p f g = { s with dev := s.dev.withLinks (s.dev.reply p f g).ports (s.dev.reply p f g).wire } :=
  congrArg (fun d => ({ s with dev := d } : State)) (Device.reply_eq s.dev p f g)

/-- An event that answers a flit at its end. -/
theorem completes_answer {i : Instr} {s x : State} {m : Nat} {g a : Flit} (hx : exec i s = .next (x.answer m g a)) (hl : SameLinks x.dev s.dev) :
    Completes i s fun t => t.hart = x.hart ∧ (∀ q, t.dev.queue q = x.dev.queue q) ∧
      t.dev.wire = (s.dev.reply m g a).wire ∧ t.dev.ports = (s.dev.reply m g a).ports := by
  have hr := hl.reply m g a
  rw [answer_eq] at hx
  exact ⟨_, hx, rfl, fun _ => rfl, hr.wire, hr.ports⟩

/-! ### The signal lane (R51, R52) -/

/-- A write of an entry that R51 takes: one aligned write of 16 bytes with a known OP, and zero where it is reserved. -/
def GoodSignal (f : Flit) (o : Nat) : Prop :=
  o = 0 ∧ f.len = 15 ∧ (part f.payload 0 1 = 1 ∨ part f.payload 0 1 = 2) ∧ part f.payload 1 1 = 0 ∧ part f.payload 2 2 < 1024 ∧
  part f.payload 4 4 = 0

/-- The entry it carries. -/
def signalOf (f : Flit) : SigEntry :=
  { add := part f.payload 0 1 == 2, sig := part f.payload 2 2, value := BitVec.ofNat 64 (part f.payload 8 8) }

theorem sigQueue_eq {q v o : Nat} (h : ForWindow s f v (pageAt q + 0x40 + o)) (hq : q < 4096) (ho : o < 16) (hv : (s.dev.queue q).vmid = v) :
    s.dev.sigQueue f = some q := by
  have hw := h.windowOf
  have hopen := h.windowOpen
  generalize hr : pageAt q + 0x40 + o = r at hw
  unfold pageAt at hr
  have hin : 0x10000000 ≤ r ∧ r < 0x20000000 ∧ 0x40 ≤ r % 0x10000 ∧ r % 0x10000 < 0x50 := by omega
  have hdiv : (r - 0x10000000) / 0x10000 = q := by omega
  simp only [Device.sigQueue, hw, hdiv, hopen, hin, hv, decide_true, beq_self_eq_true, Bool.and_self, if_true]

theorem sigEntry_offset {v q o : Nat} (h : ForWindow s f v (pageAt q + 0x40 + o)) (ho : o < 16) : offsetOf f.pa % 0x10000 = 0x40 ↔ o = 0 := by
  rw [h.place]
  unfold pageAt Config.commandBase
  omega

/-- The test of R51 as the model makes it. -/
theorem sigEntry_test {v q o : Nat} (h : ForWindow s f v (pageAt q + 0x40 + o)) (ho : o < 16) :
    (offsetOf f.pa % 0x10000 = 0x40 ∧ f.len = 15 ∧ 1 ≤ flitAt f 0 1 ∧ flitAt f 0 1 ≤ 2 ∧ flitAt f 1 1 = 0 ∧ flitAt f 2 2 < 1024 ∧
      flitAt f 4 4 = 0) ↔ GoodSignal f o := by
  rw [sigEntry_offset h ho]
  simp only [GoodSignal, part_eq_flitAt]
  omega

theorem sigEntry_good {v q o : Nat} (h : ForWindow s f v (pageAt q + 0x40 + o)) (ho : o < 16) (hg : GoodSignal f o) :
    sigEntry f = some (signalOf f) := by
  unfold sigEntry
  rw [if_pos ((sigEntry_test h ho).2 hg)]
  simp only [signalOf, part_eq_flitAt]

theorem sigEntry_bad {v q o : Nat} (h : ForWindow s f v (pageAt q + 0x40 + o)) (ho : o < 16) (hg : ¬ GoodSignal f o) : sigEntry f = none := by
  unfold sigEntry
  rw [if_neg (fun hc => hg ((sigEntry_test h ho).1 hc))]

theorem Arrived.sigQueue {u : State} (h : Arrived s u) (f : Flit) : u.dev.sigQueue f = s.dev.sigQueue f := by
  obtain ⟨_, _, _, rfl⟩ := h
  rfl

theorem exec_sigpush {i : Instr} (h : i ∈ [Instr.sigpushSet p f, Instr.sigpushAdd p f]) (s : State) : exec i s = .next (s.sigpush p f) := by
  simp only [List.mem_cons, List.not_mem_nil, or_false] at h
  obtain rfl | rfl := h <;> rfl

variable {q v o : Nat} {i : Instr}

theorem signal_taken (hi : i ∈ [Instr.sigpushSet p f, Instr.sigpushAdd p f]) (h : ForWindow s f v (pageAt q + 0x40 + o)) (hq : q < 4096)
    (ho : o < 16) (hv : (s.dev.queue q).vmid = v) (hg : GoodSignal f o) (hroom : (s.dev.queue q).lane.length < 2)
    (hheld : (s.dev.queue q).held = []) : Serves i s p f (fun _ => [statusOf 3 f 0]) fun u t =>
      SetsQueue u t q { s.dev.queue q with lane := (s.dev.queue q).lane ++ [signalOf f] } := by
  refine serves_answer (exec_sigpush hi s) (fun u hu => ⟨u.mapQueue q (fun k => { k with lane := k.lane ++ [signalOf f] }), ?_, ⟨rfl, rfl, rfl, rfl⟩,
    fun t ht => ?_⟩)
  · simp only [hu.sigQueue, sigQueue_eq h hq ho hv, sigEntry_good h ho hg, State.pushSignal, hu.queue, hroom, hheld, List.isEmpty_nil,
      and_self, if_true, statusFlit_eq]
  · simpa only [hu.queue] using ht.setsQueue

theorem signal_held (hi : i ∈ [Instr.sigpushSet p f, Instr.sigpushAdd p f]) (h : ForWindow s f v (pageAt q + 0x40 + o)) (hq : q < 4096)
    (ho : o < 16) (hv : (s.dev.queue q).vmid = v) (hg : GoodSignal f o) (hfull : 2 ≤ (s.dev.queue q).lane.length ∨ (s.dev.queue q).held ≠ []) :
    Serves i s p f (fun _ => []) fun u t => SetsQueue u t q { s.dev.queue q with held := (s.dev.queue q).held ++ [(p, f)] } := by
  have hno : ¬ ((s.dev.queue q).lane.length < 2 ∧ (s.dev.queue q).held.isEmpty = true) := by
    rw [List.isEmpty_iff]
    rintro ⟨h1, h2⟩
    obtain h | h := hfull
    · omega
    · exact h h2
  refine serves_silent (exec_sigpush hi s) (fun u hu => ⟨u.mapQueue q (fun k => { k with held := k.held ++ [(p, f)] }), ?_, ⟨rfl, rfl, rfl, rfl⟩,
    fun t ht => ?_⟩)
  · simp only [hu.sigQueue, sigQueue_eq h hq ho hv, sigEntry_good h ho hg, State.pushSignal, hu.queue, hno, if_false]
  · simpa only [hu.queue] using ht.setsQueue

theorem signal_refused (hi : i ∈ [Instr.sigpushSet p f, Instr.sigpushAdd p f]) (h : ForWindow s f v (pageAt q + 0x40 + o)) (hq : q < 4096)
    (ho : o < 16) (hv : (s.dev.queue q).vmid = v) (hg : ¬ GoodSignal f o) (heven : (s.dev.tenant v).even = false) :
    Serves i s p f (fun _ => [statusOf 3 f 0]) fun u t => SetsQueue u t q { s.dev.queue q with sigerr := true } := by
  refine serves_answer (exec_sigpush hi s) (fun u hu => ⟨u.mapQueue q (fun k => { k with sigerr := true }), ?_, ⟨rfl, rfl, rfl, rfl⟩,
    fun t ht => ?_⟩)
  · have hvm : ((u.mapQueue q (fun k => { k with sigerr := true })).dev.queue q).vmid = v := by
      rw [queue_mapQueue, ← hv, ← hu.queue]
    have he : ((u.mapQueue q (fun k => { k with sigerr := true })).dev.tenant v).even = false := by
      rw [← heven, ← hu.tenant]
      rfl
    simp only [hu.sigQueue, sigQueue_eq h hq ho hv, sigEntry_bad h ho hg, State.mapDev, hvm, postEvent_disabled he, statusFlit_eq]
  · simpa only [hu.queue] using ht.setsQueue

/-- A signal takes a value, and no other signal changes. -/
theorem signal_setSignal (s : State) (v sig : Nat) (w : Word) (y n : Nat) :
    (s.setSignal v sig w).signal y n = if y = v ∧ n = sig then w else s.signal y n := by
  have ht : (s.setSignal v sig w).dev.tenant y =
      if y = v then { s.dev.tenant v with sigs := insertKey sig w (s.dev.tenant v).sigs } else s.dev.tenant y := tenant_setTenant_eq _ _ _ _
  simp only [State.signal, ht]
  by_cases hy : y = v
  · subst hy
    by_cases hn : n = sig
    · subst hn
      simp [lookupKey_insertKey]
    · simp [hn, lookupKey_insertKey_ne _ _ _ hn]
  · simp [hy]

theorem sigSeen_setSignal (s : State) (v sig : Nat) (w : Word) :
    (s.setSignal v sig w).dev.launches.map (·.sigSeen) = s.dev.launches.map (fun l => l.sigSeen ||
      decide (l.record.vmid = v ∧ l.record.flags.getLsbD 4 = true ∧ l.record.waitsig = sig ∧ l.record.waitval ≤ w)) := by
  have hl : (s.setSignal v sig w).dev.launches = s.dev.launches.map (fun l =>
    if l.record.vmid = v ∧ l.record.flags.getLsbD 4 ∧ l.record.waitsig = sig ∧ l.record.waitval ≤ w then { l with sigSeen := true }
    else l) := rfl
  rw [hl, List.map_map]
  refine List.map_congr_left (fun l _ => ?_)
  simp only [Function.comp_apply]
  split
  case isTrue h => rw [decide_eq_true h, Bool.or_true]
  case isFalse h => rw [decide_eq_false h, Bool.or_false]

/-- The state in which the oldest entry of a lane has been applied, and a held write may take the room. -/
def signalApplied (s : State) (q : Nat) (e : SigEntry) (rest : List SigEntry) : State :=
  (s.mapQueue q (fun k => { k with lane := rest, held := k.held.drop 1 })).setSignal (s.dev.queue q).vmid e.sig
    (if e.add = true then s.signal (s.dev.queue q).vmid e.sig + e.value else e.value)

theorem exec_signalApply_none {e : SigEntry} {rest : List SigEntry} (hlane : (s.dev.queue q).lane = e :: rest)
    (hheld : (s.dev.queue q).held = []) : exec (.signalApply q) s = .next (signalApplied s q e rest) := by
  change execSignalApply q s = _
  simp only [execSignalApply, hlane, hheld]
  rfl

theorem exec_signalApply_held {e e' : SigEntry} {rest : List SigEntry} {m : Nat} {g : Flit} {more : List (Nat × Flit)}
    (hlane : (s.dev.queue q).lane = e :: rest) (hheld : (s.dev.queue q).held = (m, g) :: more) (hg : sigEntry g = some e') :
    exec (.signalApply q) s =
      .next (((signalApplied s q e rest).mapQueue q (fun k => { k with lane := k.lane ++ [e'] })).answer m g (statusFlit 3 g.cls g.pa 0)) := by
  change execSignalApply q s = _
  simp only [execSignalApply, hlane, hheld, hg]
  rfl

theorem signalApplied_links (s : State) (q : Nat) (e : SigEntry) (rest : List SigEntry) : SameLinks (signalApplied s q e rest).dev s.dev := by
  unfold signalApplied
  exact (State.setSignal_links _ _ _ _).trans (State.mapQueue_links _ _ _)

theorem signalApplied_hart (s : State) (q : Nat) (e : SigEntry) (rest : List SigEntry) : (signalApplied s q e rest).hart = s.hart := rfl

theorem signalApplied_queue (s : State) (q : Nat) (e : SigEntry) (rest : List SigEntry) :
    (signalApplied s q e rest).dev.queue q = { s.dev.queue q with lane := rest, held := (s.dev.queue q).held.drop 1 } := by
  have h : (signalApplied s q e rest).dev.queues = (s.mapQueue q (fun k => { k with lane := rest, held := k.held.drop 1 })).dev.queues := rfl
  rw [Device.queue, h]
  exact queue_mapQueue s q (fun k => { k with lane := rest, held := k.held.drop 1 })

theorem signalApplied_signal (s : State) (q : Nat) (e : SigEntry) (rest : List SigEntry) (y n : Nat) :
    (signalApplied s q e rest).signal y n = if y = (s.dev.queue q).vmid ∧ n = e.sig then
      if e.add = true then s.signal (s.dev.queue q).vmid e.sig + e.value else e.value
      else s.signal y n := by
  unfold signalApplied
  rw [signal_setSignal]
  rfl

theorem signalApplied_sigSeen (s : State) (q : Nat) (e : SigEntry) (rest : List SigEntry) :
    (signalApplied s q e rest).dev.launches.map (·.sigSeen) = s.dev.launches.map (fun l => l.sigSeen ||
      decide (l.record.vmid = (s.dev.queue q).vmid ∧ l.record.flags.getLsbD 4 = true ∧ l.record.waitsig = e.sig ∧
        l.record.waitval ≤ (if e.add = true then s.signal (s.dev.queue q).vmid e.sig + e.value else e.value))) := by
  unfold signalApplied
  rw [sigSeen_setSignal]
  rfl

theorem signal_applied {e : SigEntry} {rest : List SigEntry} (hv : (s.dev.queue q).vmid = v) (hlane : (s.dev.queue q).lane = e :: rest)
    (hheld : (s.dev.queue q).held = []) : Completes (.signalApply q) s fun t =>
      let new := if e.add = true then s.signal v e.sig + e.value else e.value
      (∀ y n, t.signal y n = if y = v ∧ n = e.sig then new else s.signal y n) ∧ (t.dev.queue q).lane = rest ∧
      t.hart = s.hart ∧ t.dev.mem = s.dev.mem ∧
      t.dev.launches.map (·.sigSeen) = s.dev.launches.map (fun l => l.sigSeen || decide (l.record.vmid = v ∧ l.record.flags.getLsbD 4 = true ∧
        l.record.waitsig = e.sig ∧ l.record.waitval ≤ new)) := by
  subst hv
  refine ⟨signalApplied s q e rest, exec_signalApply_none hlane hheld, ?_, ?_, ?_, ?_, ?_⟩
  · exact signalApplied_signal s q e rest
  · rw [signalApplied_queue]
  · rfl
  · rfl
  · exact signalApplied_sigSeen s q e rest

theorem signal_released {e e' : SigEntry} {rest : List SigEntry} {m : Nat} {g : Flit} {more : List (Nat × Flit)}
    (hlane : (s.dev.queue q).lane = e :: rest) (hheld : (s.dev.queue q).held = (m, g) :: more) (hg : sigEntry g = some e') :
    Completes (.signalApply q) s fun t => (t.dev.queue q).lane = rest ++ [e'] ∧ (t.dev.queue q).held = more ∧ t.hart = s.hart ∧
      t.dev.wire = (s.dev.reply m g (statusOf 3 g 0)).wire ∧ t.dev.ports = (s.dev.reply m g (statusOf 3 g 0)).ports := by
  have hl : SameLinks ((signalApplied s q e rest).mapQueue q (fun k => { k with lane := k.lane ++ [e'] })).dev s.dev :=
    (State.mapQueue_links _ _ _).trans (signalApplied_links s q e rest)
  have hq : (((signalApplied s q e rest).mapQueue q (fun k => { k with lane := k.lane ++ [e'] })).dev.queue q) =
      { s.dev.queue q with lane := rest ++ [e'], held := more } := by
    rw [queue_mapQueue, signalApplied_queue, hheld]
    rfl
  obtain ⟨t, hx, hhart, hqueue, hlinks⟩ := completes_answer (exec_signalApply_held hlane hheld hg) hl
  exact ⟨t, hx, by rw [hqueue, hq], by rw [hqueue, hq], hhart.trans (signalApplied_hart s q e rest), hlinks⟩

/-- R43, R51, R52, R54. -/
theorem signalLane : SignalLane := by
  intro s p f q v o hq ho hv
  exact ⟨fun h i hi => ⟨signal_taken hi h hq ho hv, signal_held hi h hq ho hv, signal_refused hi h hq ho hv⟩,
    fun e rest hlane hheld => signal_applied hv hlane hheld, fun e rest m g more e' => signal_released⟩

end Sys2Proof.Claims

namespace Sys2Proof.Machine

/-! ### What a restart keeps (R233) -/

/-- A device in which bricks, reads under way, multicast groups and parked harts alone may have changed. -/
def Device.Stirred (d e : Device) : Prop :=
  ∃ bricks outstanding groups parked, e = { d with bricks := bricks, outstanding := outstanding, groups := groups, parked := parked }

theorem Device.Stirred.refl (d : Device) : d.Stirred d := ⟨_, _, _, _, rfl⟩

theorem Device.Stirred.trans {d e g : Device} (h : d.Stirred e) (k : e.Stirred g) : d.Stirred g := by
  obtain ⟨_, _, _, _, rfl⟩ := h
  obtain ⟨b, o, gr, p, rfl⟩ := k
  exact ⟨b, o, gr, p, rfl⟩

/-- A step within a restart: the hart in focus keeps its place, its state and what it holds beside its streams; the other harts keep everything. -/
structure State.Rebinds (s t : State) : Prop where
  dev : s.dev.Stirred t.dev
  parked : t.dev.parked = s.dev.parked
  brick : t.hart.brick = s.hart.brick
  num : t.hart.num = s.hart.num
  run : t.hart.run = s.hart.run
  strip : t.hart.strip = s.hart.strip
  pc : t.hart.r.pc = s.hart.r.pc
  x : t.hart.r.x = s.hart.r.x
  v : t.hart.r.v = s.hart.r.v

namespace State.Rebinds

theorem refl (s : State) : s.Rebinds s := ⟨.refl _, rfl, rfl, rfl, rfl, rfl, rfl, rfl, rfl⟩

theorem trans {s t u : State} (h : s.Rebinds t) (k : t.Rebinds u) : s.Rebinds u :=
  ⟨h.dev.trans k.dev, k.parked.trans h.parked, k.brick.trans h.brick, k.num.trans h.num, k.run.trans h.run, k.strip.trans h.strip,
    k.pc.trans h.pc, k.x.trans h.x, k.v.trans h.v⟩

theorem foldl {α : Type} {f : State → α → State} (h : ∀ (s : State) (a : α), s.Rebinds (f s a)) : ∀ (l : List α) (s : State), s.Rebinds (l.foldl f s)
  | [], s => refl s
  | a :: l, s => (h s a).trans (foldl h l (f s a))

/-- A change of the hart that keeps its place, state, strip and registers. -/
theorem mapHart (s : State) {f : Hart → Hart} (hf : ∀ h : Hart, (f h).brick = h.brick ∧ (f h).num = h.num ∧ (f h).run = h.run ∧
    (f h).strip = h.strip ∧ (f h).r.pc = h.r.pc ∧ (f h).r.x = h.r.x ∧ (f h).r.v = h.r.v) : s.Rebinds (s.mapHart f) := by
  obtain ⟨h1, h2, h3, h4, h5, h6, h7⟩ := hf s.hart
  exact ⟨.refl _, rfl, h1, h2, h3, h4, h5, h6, h7⟩

/-- A change of a brick. -/
theorem setBrick (s : State) (b : Nat) (k : Brick) : s.Rebinds { s with dev := s.dev.setBrick b k } :=
  ⟨⟨_, _, _, _, rfl⟩, rfl, rfl, rfl, rfl, rfl, rfl, rfl, rfl⟩

theorem mapGroups (s : State) (g : List McMember) : s.Rebinds { s with dev := { s.dev with groups := g } } :=
  ⟨⟨_, _, _, _, rfl⟩, rfl, rfl, rfl, rfl, rfl, rfl, rfl, rfl⟩

theorem relieveLane (b lg : Nat) : ∀ (n : Nat) (s : State), s.Rebinds (State.relieveLane b lg n s)
  | 0, s => refl s
  | n + 1, s => by
    unfold State.relieveLane
    split
    · exact refl s
    · exact trans (setBrick s _ _) (relieveLane b lg n _)

theorem relieve (s : State) (b : Nat) : s.Rebinds (s.relieve b) := foldl (fun s lg => relieveLane b lg _ s) _ s

theorem reserve (s : State) (n k : Nat) : s.Rebinds (s.reserve n k) := by
  unfold State.reserve
  refine trans ?_ (relieve _ _)
  exact mapHart s (fun _ => ⟨rfl, rfl, rfl, rfl, rfl, rfl, rfl⟩)

theorem leaveGroup (s : State) (n : Nat) : s.Rebinds (s.leaveGroup n) :=
  ⟨⟨_, _, _, _, rfl⟩, rfl, rfl, rfl, rfl, rfl, rfl, rfl, rfl⟩

theorem joinGroup (s : State) (n : Nat) (t : StreamDesc) : s.Rebinds (s.joinGroup n t) := by
  unfold State.joinGroup
  split
  · exact trans (mapGroups s _) (reserve _ _ _)
  · exact refl s

theorem mapCopies (s : State) (f : Regs → Regs) (hf : ∀ r : Regs, (f r).pc = r.pc ∧ (f r).x = r.x ∧ (f r).v = r.v) :
    s.Rebinds (s.mapHart (fun h => h.mapCopies f)) :=
  mapHart s (fun h => ⟨rfl, rfl, rfl, rfl, (hf h.r).1, (hf h.r).2.1, (hf h.r).2.2⟩)

theorem rebind (s : State) (n : Nat) (u : Unbound) : s.Rebinds (s.rebind n u) := by
  unfold State.rebind
  dsimp only
  refine trans ?_ (foldl ?_ u.buffers _)
  · split
    · exact trans (trans (leaveGroup s n) (mapGroups _ _)) (reserve _ _ _)
    · exact trans (leaveGroup s n) (mapCopies _ _ (fun _ => ⟨rfl, rfl, rfl⟩))
  · intro s b
    exact mapHart s (fun _ => ⟨rfl, rfl, rfl, rfl, rfl, rfl, rfl⟩)

/-- A restart binds the mode-2 streams again. -/
theorem regroup (s : State) : s.Rebinds s.regroup := by
  unfold State.regroup
  dsimp only
  refine trans (foldl ?_ (List.range 8) s) (mapHart _ (fun _ => ⟨rfl, rfl, rfl, rfl, rfl, rfl, rfl⟩))
  intro s n
  split
  · split
    · split
      · exact rebind _ _ _
      · exact joinGroup _ _ _
      · exact refl _
    · split
      · cases s.hart.unbound.find? (fun u => u.member.stream == n) with
        | none => exact refl s
        | some u => exact rebind s n u
      · exact leaveGroup _ _
  · exact leaveGroup _ _

end State.Rebinds

/-- A step after which the hart in focus has its place and state, and the other harts have not changed. -/
structure State.Stays (s t : State) : Prop where
  dev : s.dev.Stirred t.dev
  parked : t.dev.parked = s.dev.parked
  brick : t.hart.brick = s.hart.brick
  num : t.hart.num = s.hart.num
  run : t.hart.run = s.hart.run

theorem State.Rebinds.stays {s t : State} (h : s.Rebinds t) : s.Stays t := ⟨h.dev, h.parked, h.brick, h.num, h.run⟩

theorem State.Stays.trans {s t u : State} (h : s.Stays t) (k : t.Stays u) : s.Stays u :=
  ⟨h.dev.trans k.dev, k.parked.trans h.parked, k.brick.trans h.brick, k.num.trans h.num, k.run.trans h.run⟩

/-- A restart: the hart is back at its checkpoint with an empty strip, and the other harts are as they were. -/
structure State.Restarted (s t : State) : Prop extends State.Stays s t where
  pc : t.hart.r.pc = s.hart.ckpt.pc
  strip : t.hart.strip = {}
  x : t.hart.r.x = s.hart.ckpt.x
  v : t.hart.r.v = s.hart.ckpt.v

/-- A step within the brick of the hart in focus, which keeps the hart itself. -/
def State.InBrick (s t : State) : Prop := t.hart = s.hart ∧ s.dev.Stirred t.dev ∧ t.dev.parked = s.dev.parked

theorem State.InBrick.mapBrick (s : State) (f : Brick → Brick) : s.InBrick (s.mapBrick f) := ⟨rfl, ⟨_, _, _, _, rfl⟩, rfl⟩

theorem State.InBrick.trans {s t u : State} (h : s.InBrick t) (k : t.InBrick u) : s.InBrick u :=
  ⟨k.1.trans h.1, h.2.1.trans k.2.1, k.2.2.trans h.2.2⟩

theorem State.InBrick.foldl {α : Type} {f : State → α → State} (h : ∀ (s : State) (a : α), s.InBrick (f s a)) :
    ∀ (l : List α) (s : State), s.InBrick (l.foldl f s)
  | [], _ => ⟨rfl, .refl _, rfl⟩
  | a :: l, s => (h s a).trans (foldl h l (f s a))

theorem State.InBrick.ite {s t : State} (c : Prop) [Decidable c] (h : s.InBrick t) : s.InBrick (if c then t else s) := by
  split
  · exact h
  · exact ⟨rfl, .refl _, rfl⟩

/-- A restart that has reached `t`, before its streams are bound again. -/
theorem State.Restarted.regroup {s t : State} (h : s.Restarted t) : s.Restarted t.regroup := by
  have k := State.Rebinds.regroup t
  exact ⟨h.toStays.trans k.stays, k.pc.trans h.pc, k.strip.trans h.strip, k.x.trans h.x, k.v.trans h.v⟩

theorem State.restart_restarted (s : State) : s.Restarted s.restart := by
  unfold State.restart
  dsimp only
  generalize hs : List.foldl _ s (List.range 8) = u
  have hu : s.InBrick u := by
    rw [← hs]
    refine State.InBrick.foldl ?_ _ s
    intro s i
    exact (State.InBrick.ite _ (.mapBrick s _)).trans (State.InBrick.ite _ (.mapBrick _ _))
  clear hs
  obtain ⟨hh, hd, hp⟩ := hu
  have hbrick : u.hart.brick = s.hart.brick := congrArg Hart.brick hh
  have hnum : u.hart.num = s.hart.num := congrArg Hart.num hh
  have hrun : u.hart.run = s.hart.run := congrArg Hart.run hh
  refine State.Restarted.regroup ⟨⟨?_, ?_, ?_, ?_, ?_⟩, ?_, rfl, ?_, ?_⟩
  · exact hd.trans ⟨_, _, _, _, rfl⟩
  · exact hp
  · exact hbrick
  · exact hnum
  · exact hrun
  · exact congrArg (fun h => h.ckpt.pc) hh
  · exact congrArg (fun h => h.ckpt.x) hh
  · exact congrArg (fun h => h.ckpt.v) hh

theorem State.cancelEntry_stays (s : State) : s.Stays s.cancelEntry := by
  unfold State.cancelEntry
  split
  · split
    · exact ⟨.refl _, rfl, rfl, rfl, rfl⟩
    · exact State.Rebinds.stays (.refl s)
  · exact State.Rebinds.stays (.refl s)

theorem State.returnPermits_stays (s : State) (c : Command) : s.Stays (s.returnPermits c) := by
  unfold State.returnPermits
  split
  · exact ⟨⟨_, _, _, _, rfl⟩, rfl, rfl, rfl, rfl⟩
  · exact State.Rebinds.stays (.refl s)

theorem State.Stays.foldl {α : Type} {f : State → α → State} (h : ∀ (s : State) (a : α), s.Stays (f s a)) :
    ∀ (l : List α) (s : State), s.Stays (l.foldl f s)
  | [], s => State.Rebinds.stays (.refl s)
  | a :: l, s => (h s a).trans (foldl h l (f s a))

theorem State.restartOldest_stays (s : State) : s.Stays s.restartOldest := by
  unfold State.restartOldest
  split
  · exact (State.restart_restarted s).toStays
  · refine State.Stays.trans ?_ (State.restart_restarted _).toStays
    have k := State.Stays.foldl State.returnPermits_stays ((s.hart.ended.filter (fun e => !e.kept)).flatMap (·.strip.cmds)) s
    exact ⟨k.dev, k.parked, k.brick, k.num, k.run⟩

/-- With no strip of its own between its checkpoint and the oldest one, a hart goes back to its checkpoint. -/
theorem State.restartOldest_restarted {s : State} (h : ∀ e ∈ s.hart.ended, e.kept = true) : s.Restarted s.restartOldest := by
  have hn : s.hart.ended.find? (fun e => !e.kept) = none := by
    rw [List.find?_eq_none]
    intro e he
    simp [h e he]
  unfold State.restartOldest
  rw [hn]
  exact State.restart_restarted s

theorem State.cancelEntry_hart (s : State) : s.cancelEntry.hart.ended = s.hart.ended ∧ s.cancelEntry.hart.ckpt = s.hart.ckpt := by
  unfold State.cancelEntry
  split
  · split <;> exact ⟨rfl, rfl⟩
  · exact ⟨rfl, rfl⟩

/-- What a shootdown does to a hart (R159). -/
def State.again (s : State) : State := s.cancelEntry.restartOldest

theorem State.again_stays (s : State) : s.Stays s.again := s.cancelEntry_stays.trans (State.restartOldest_stays _)

theorem State.again_restarted {s : State} (h : ∀ e ∈ s.hart.ended, e.kept = true) : s.Restarted s.again := by
  obtain ⟨he, hc⟩ := s.cancelEntry_hart
  have k := State.restartOldest_restarted (s := s.cancelEntry) (by rw [he]; exact h)
  exact ⟨s.cancelEntry_stays.trans k.toStays, k.pc.trans (by rw [hc]), k.strip, k.x.trans (by rw [hc]), k.v.trans (by rw [hc])⟩

/-! ### Other harts of the device -/

theorem State.focus_stirred (s : State) (b n : Nat) : s.dev.Stirred (s.focus b n).dev := by
  unfold State.focus
  split
  · exact .refl _
  · exact ⟨_, _, _, _, rfl⟩

theorem State.withHart_stirred {f : State → State} (hf : ∀ s : State, s.Stays (f s)) (s : State) (b n : Nat) : s.dev.Stirred (s.withHart b n f).dev :=
  ((s.focus_stirred b n).trans (hf _).dev).trans (State.focus_stirred _ _ _)

theorem State.focus_here (s : State) : s.focus s.hart.brick s.hart.num = s := if_pos ⟨rfl, rfl⟩

theorem State.withHart_here (s : State) (f : State → State) (hb : (f s).hart.brick = s.hart.brick) (hn : (f s).hart.num = s.hart.num) :
    s.withHart s.hart.brick s.hart.num f = f s := by
  unfold State.withHart
  rw [s.focus_here]
  exact if_pos ⟨hb, hn⟩

/-- The harts that a state has parked when it brings the hart of a place into focus. -/
theorem State.focus_away {s : State} {b n : Nat} (hrun : s.hart.run ≠ .free) (haway : ¬ (s.hart.brick = b ∧ s.hart.num = n)) :
    (s.focus b n).dev.parked = s.hart :: s.dev.parked.filter (fun h => !(h.brick == b && h.num == n)) ∧
    (s.focus b n).hart = (s.dev.parked.find? (fun h => h.brick == b && h.num == n)).getD { brick := b, num := n } := by
  unfold State.focus
  rw [if_neg haway]
  exact ⟨if_neg hrun, rfl⟩

theorem State.focus_place (s : State) (b n : Nat) : (s.focus b n).hart.brick = b ∧ (s.focus b n).hart.num = n := by
  unfold State.focus
  split
  · assumption
  · dsimp only
    cases hf : s.dev.parked.find? (fun h => h.brick == b && h.num == n) with
    | none => exact ⟨rfl, rfl⟩
    | some h => simpa using List.find?_some hf

/-- A hart that is not free is back as it was after something was done with another hart. -/
theorem State.withHart_away {f : State → State} (hf : ∀ s : State, s.Stays (f s)) {s : State} {b n : Nat} (hrun : s.hart.run ≠ .free)
    (haway : ¬ (s.hart.brick = b ∧ s.hart.num = n)) :
    (s.withHart b n f).hart = s.hart := by
  obtain ⟨hp, -⟩ := State.focus_away hrun haway
  obtain ⟨hb, hn⟩ := s.focus_place b n
  have k := hf (s.focus b n)
  set u := f (s.focus b n) with hu
  have hub : u.hart.brick = b := k.brick.trans hb
  have hun : u.hart.num = n := k.num.trans hn
  have hup : u.dev.parked = s.hart :: s.dev.parked.filter (fun h => !(h.brick == b && h.num == n)) := k.parked.trans hp
  have hback : ¬ (u.hart.brick = s.hart.brick ∧ u.hart.num = s.hart.num) := by
    rw [hub, hun]; rintro ⟨rfl, rfl⟩; exact haway ⟨rfl, rfl⟩
  show (u.focus s.hart.brick s.hart.num).hart = s.hart
  unfold State.focus
  rw [if_neg hback]
  dsimp only
  rw [hup, List.find?_cons_of_pos (by simp)]
  rfl
/-! ### Shootdowns -/

/-- What a list of harts has done with it, one after another. -/
def State.eachAgain (l : List Hart) (s : State) : State := l.foldl (fun s h => s.withHart h.brick h.num State.again) s

theorem State.eachAgain_stirred : ∀ (l : List Hart) (s : State), s.dev.Stirred (State.eachAgain l s).dev
  | [], _ => .refl _
  | h :: l, s => (State.withHart_stirred State.again_stays s h.brick h.num).trans (eachAgain_stirred l _)

/-- Harts at other places leave the hart in focus as it is. -/
theorem State.eachAgain_away : ∀ (l : List Hart) {s : State}, s.hart.run ≠ .free →
    (∀ h ∈ l, h.brick ≠ s.hart.brick ∨ h.num ≠ s.hart.num) → (State.eachAgain l s).hart = s.hart
  | [], _, _, _ => rfl
  | h :: l, s, hrun, hl => by
    have haway : ¬ (s.hart.brick = h.brick ∧ s.hart.num = h.num) := fun e => (hl h (.head _)).elim (fun k => k e.1.symm) (fun k => k e.2.symm)
    have hh := State.withHart_away State.again_stays hrun haway
    have ih := State.eachAgain_away l (s := s.withHart h.brick h.num State.again) (by rw [hh]; exact hrun)
      (by rw [hh]; exact fun x hx => hl x (.tail _ hx))
    exact ih.trans hh

/-- The translations that a shootdown leaves (R159). -/
def State.without (s : State) (ctx : Nat) (gone : TlbEntry → Bool) : State :=
  s.mapDev (fun d => { d with tlb := d.tlb.filter (fun e => !(e.ctx == ctx && gone e)) })

theorem State.shootDown_eq (s : State) (ctx : Nat) (gone : TlbEntry → Bool) :
    s.shootDown ctx gone = State.eachAgain ((s.without ctx gone).harts.filter (fun h => h.ctx == ctx && !(h.run == .token))) (s.without ctx gone) := rfl

theorem State.shootDown_stirred (s : State) (ctx : Nat) (gone : TlbEntry → Bool) : (s.without ctx gone).dev.Stirred (s.shootDown ctx gone).dev := by
  rw [s.shootDown_eq]
  exact State.eachAgain_stirred _ _

/-- The parked harts of a context that are not tokens. -/
def State.parkedOf (s : State) (ctx : Nat) : List Hart := (s.dev.parked.filter (fun h => !(h.run == .free))).filter (fun h => h.ctx == ctx && !(h.run == .token))

theorem State.mem_parked_of_parkedOf {s : State} {ctx : Nat} {h : Hart} (hh : h ∈ s.parkedOf ctx) : h ∈ s.dev.parked :=
  (List.mem_filter.mp (List.mem_filter.mp hh).1).1

theorem State.harts_running {s : State} (hrun : s.hart.run = .running) (ctx : Nat) : s.harts.filter (fun h => h.ctx == ctx && !(h.run == .token)) =
    if s.hart.ctx = ctx then s.hart :: s.parkedOf ctx else s.parkedOf ctx := by
  have h1 : s.harts = s.hart :: s.dev.parked.filter (fun h => !(h.run == .free)) := by
    unfold State.harts
    rw [List.filter_cons_of_pos (by rw [hrun]; rfl)]
  rw [h1]
  split
  · next h => rw [List.filter_cons_of_pos (by rw [h, hrun]; simp)]; rfl
  · next h => rw [List.filter_cons_of_neg (by simp [h])]; rfl

/-- A shootdown of another context leaves a running hart as it is. -/
theorem State.shootDown_other {s : State} (hrun : s.hart.run = .running) (hown : Claims.OwnPlace s) {ctx : Nat} (gone : TlbEntry → Bool)
    (hctx : s.hart.ctx ≠ ctx) : (s.shootDown ctx gone).hart = s.hart := by
  have hrun' : (s.without ctx gone).hart.run = .running := hrun
  have hctx' : (s.without ctx gone).hart.ctx ≠ ctx := hctx
  rw [s.shootDown_eq, State.harts_running hrun', if_neg hctx']
  exact State.eachAgain_away _ (by rw [hrun']; decide) (fun h hh => hown h (State.mem_parked_of_parkedOf hh))

/-- A shootdown of its context restarts a running hart. -/
theorem State.shootDown_restarts {s : State} (hrun : s.hart.run = .running) (hown : Claims.OwnPlace s) {ctx : Nat} (gone : TlbEntry → Bool)
    (hctx : s.hart.ctx = ctx) : (s.shootDown ctx gone).hart = (s.without ctx gone).again.hart := by
  set u := s.without ctx gone with hu
  have hrun' : u.hart.run = .running := hrun
  have hctx' : u.hart.ctx = ctx := hctx
  have hown' : Claims.OwnPlace u := hown
  have k := u.again_stays
  rw [s.shootDown_eq, ← hu, State.harts_running hrun', if_pos hctx']
  show (State.eachAgain (u.parkedOf ctx) (u.withHart u.hart.brick u.hart.num State.again)).hart = _
  rw [u.withHart_here State.again k.brick k.num]
  refine State.eachAgain_away _ (by rw [k.run, hrun']; decide) ?_
  rw [k.brick, k.num]
  exact fun h hh => hown' h (State.mem_parked_of_parkedOf hh)

end Sys2Proof.Machine

namespace Sys2Proof.Claims
open Sys2Proof.Machine

variable {s : State} {p : Nat} {f : Flit} {w : Word}

/-! ### TLBINV (R159) -/

/-- Whether a TLBINV write names a translation. -/
def Hit (c : SchedRegs) (w : Word) (e : TlbEntry) : Prop :=
  e.ctx = w.toNat % 2 ^ 12 ∧ (w.getLsbD 16 = true ∨
    e.va / 2 ^ max e.bits (if w.toNat / 2 ^ 14 % 4 = 0 then 16 else if w.toNat / 2 ^ 14 % 4 = 1 then 21 else 30) =
      c.invVa.toNat / 2 ^ max e.bits (if w.toNat / 2 ^ 14 % 4 = 0 then 16 else if w.toNat / 2 ^ 14 % 4 = 1 then 21 else 30))

/-- The addresses that a TLBINV write names, as the model finds them in a translation. -/
def named (c : SchedRegs) (w : Word) (e : TlbEntry) : Bool :=
  bit w.toNat 16 || e.covers c.invVa.toNat (if field w.toNat 14 2 = 0 then 16 else if field w.toNat 14 2 = 1 then 21 else 30)

theorem hit_iff (c : SchedRegs) (w : Word) (e : TlbEntry) : Hit c w e ↔ (e.ctx == w.toNat % 2 ^ 12 && named c w e) = true := by
  simp only [Hit, named, TlbEntry.covers, bit_toNat, Bool.and_eq_true, Bool.or_eq_true, beq_iff_eq]
  rfl

/-- A TLBINV write is ignored while another shootdown is busy, for context 0 and for the reserved size. -/
def ShootIgnored (c : SchedRegs) (w : Word) : Prop :=
  c.invBusy = true ∨ w.toNat % 2 ^ 12 = 0 ∨ w.toNat / 2 ^ 14 % 4 = 3 ∧ w.getLsbD 16 = false

theorem shootIgnored_iff (c : SchedRegs) (w : Word) :
    (c.invBusy = true ∨ field w.toNat 0 12 = 0 ∨ field w.toNat 14 2 = 3 ∧ !(bit w.toNat 16)) ↔ ShootIgnored c w := by
  simp only [ShootIgnored, bit_toNat, field, Bool.not_eq_eq_eq_not, Bool.not_true, Nat.pow_zero, Nat.div_one, Nat.reducePow]

/-- The state in which a shootdown has begun. -/
def begunShoot (u : State) (w : Word) : State :=
  u.mapSched (fun c => { c with invBusy := true, inv := packed [((bit w.toNat 16).toNat, 16), (field w.toNat 14 2, 14), (w.toNat % 2 ^ 12, 0)], invPage := c.invVa.toNat })

theorem writeTlbinv_ignored {u : State} (h : ShootIgnored u.dev.sched w) : u.writeTlbinv w = u := if_pos ((shootIgnored_iff _ _).2 h)

theorem writeTlbinv_taken {u : State} (h : ¬ ShootIgnored u.dev.sched w) :
    u.writeTlbinv w = (begunShoot u w).shootDown (w.toNat % 2 ^ 12) (named u.dev.sched w) := by
  have hf : field w.toNat 0 12 = w.toNat % 2 ^ 12 := by simp [field]
  unfold State.writeTlbinv
  dsimp only
  rw [if_neg (fun hc => h ((shootIgnored_iff _ _).1 hc)), hf]
  rfl

/-- The rows of shootdowns, by the ALL bit of the write. -/
theorem accepts_tlbinv {P : State → State → Prop} (hw : PutsWord s f 0 0x60 w) (hl : ∀ u, Arrived s u → SameLinks u.dev (u.writeTlbinv w).dev)
    (hh : ∀ u, Arrived s u → ∀ t, Relinked (u.writeTlbinv w) t → P u t) :
    Accepts (if w.getLsbD 16 = true then Instr.tlbinvAll else Instr.tlbinvPage) s p f P := by
  split
  · next hall =>
    refine accepts_onWindow (row := fun v r => v == 0 && r == 0x60) rfl hw rfl rfl (fun u hu => ?_)
    simp only [bit_toNat, hall, if_true]
    exact ⟨hl u hu, hh u hu⟩
  · next hall =>
    refine accepts_onWindow (row := fun v r => v == 0 && r == 0x60) rfl hw rfl rfl (fun u hu => ?_)
    simp only [bit_toNat, hall]
    exact ⟨hl u hu, hh u hu⟩

theorem Arrived.sched {u : State} (h : Arrived s u) : u.dev.sched = s.dev.sched := by
  obtain ⟨_, _, _, rfl⟩ := h; rfl

theorem tlbinv_ignored (hw : PutsWord s f 0 0x60 w) (h : ShootIgnored s.dev.sched w) :
    Accepts (if w.getLsbD 16 = true then Instr.tlbinvAll else Instr.tlbinvPage) s p f OnlyPorts := by
  have hsame : ∀ u, Arrived s u → u.writeTlbinv w = u := fun u hu => writeTlbinv_ignored (by rwa [hu.sched])
  exact accepts_tlbinv hw (fun u hu => by rw [hsame u hu]; exact .refl _) (fun u hu t ht => by rw [hsame u hu] at ht; exact ht.onlyPorts)

/-- A shootdown that is not ignored, from the state in which its write has arrived. -/
theorem shootdown_begun {u : State} (hu : Arrived s u) (h : ¬ ShootIgnored s.dev.sched w) :
    SameLinks u.dev (u.writeTlbinv w).dev ∧ (u.writeTlbinv w).dev.sched.invBusy = true ∧
    (∀ e, e ∈ (u.writeTlbinv w).dev.tlb ↔ e ∈ u.dev.tlb ∧ ¬ Hit s.dev.sched w e) ∧ (u.writeTlbinv w).dev.mem = u.dev.mem := by
  rw [writeTlbinv_taken (by rwa [hu.sched]), hu.sched]
  obtain ⟨_, _, _, _, hd⟩ := (begunShoot u w).shootDown_stirred (w.toNat % 2 ^ 12) (named s.dev.sched w)
  rw [hd]
  refine ⟨⟨rfl, rfl, rfl, rfl⟩, rfl, fun e => ?_, rfl⟩
  have hmem : e ∈ ((begunShoot u w).without (w.toNat % 2 ^ 12) (named s.dev.sched w)).dev.tlb ↔
      e ∈ u.dev.tlb ∧ (!(e.ctx == w.toNat % 2 ^ 12 && named s.dev.sched w e)) = true := List.mem_filter
  rw [hit_iff, Bool.not_eq_true, ← Bool.not_eq_true']
  exact hmem

/-- What the shootdown of a context does to the hart in focus. -/
theorem shootdown_hart {u : State} (hu : Arrived s u) (h : ¬ ShootIgnored s.dev.sched w) (hrun : s.hart.run = .running) (hown : OwnPlace s) :
    (s.hart.ctx = w.toNat % 2 ^ 12 → (∀ e ∈ s.hart.ended, e.kept = true) → ((u.writeTlbinv w).pc = s.hart.ckpt.pc ∧
      (u.writeTlbinv w).hart.strip = {} ∧ (u.writeTlbinv w).hart.r.x = s.hart.ckpt.x ∧ (u.writeTlbinv w).hart.r.v = s.hart.ckpt.v)) ∧
    (s.hart.ctx ≠ w.toNat % 2 ^ 12 → (u.writeTlbinv w).hart = s.hart) := by
  have hh : (begunShoot u w).hart = s.hart := by obtain ⟨_, _, _, rfl⟩ := hu; rfl
  have hp : (begunShoot u w).dev.parked = s.dev.parked := by obtain ⟨_, _, _, rfl⟩ := hu; rfl
  have hrun' : (begunShoot u w).hart.run = .running := by rw [hh]; exact hrun
  have hown' : OwnPlace (begunShoot u w) := by unfold OwnPlace; rw [hh, hp]; exact hown
  rw [writeTlbinv_taken (by rwa [hu.sched])]
  refine ⟨fun hctx hkept => ?_, fun hctx => ?_⟩
  · have k := State.again_restarted (s := (begunShoot u w).without (w.toNat % 2 ^ 12) (named u.dev.sched w)) (congrArg Hart.ended hh ▸ hkept)
    have hq := State.shootDown_restarts hrun' hown' (named u.dev.sched w) (hh ▸ hctx)
    have hck : ((begunShoot u w).without (w.toNat % 2 ^ 12) (named u.dev.sched w)).hart.ckpt = s.hart.ckpt := congrArg Hart.ckpt hh
    rw [State.pc, hq]
    exact ⟨k.pc.trans (by rw [hck]), k.strip, k.x.trans (by rw [hck]), k.v.trans (by rw [hck])⟩
  · exact (State.shootDown_other hrun' hown' _ (by rw [hh]; exact hctx)).trans hh

theorem tlbinv_taken (hw : PutsWord s f 0 0x60 w) (h : ¬ ShootIgnored s.dev.sched w) :
    Accepts (if w.getLsbD 16 = true then Instr.tlbinvAll else Instr.tlbinvPage) s p f fun u t =>
      t.dev.sched.invBusy = true ∧ (∀ e, e ∈ t.dev.tlb ↔ e ∈ u.dev.tlb ∧ ¬ Hit s.dev.sched w e) ∧ t.dev.mem = u.dev.mem ∧
      (s.hart.run = .running → OwnPlace s →
        (s.hart.ctx = w.toNat % 2 ^ 12 → (∀ e ∈ s.hart.ended, e.kept = true) →
          t.pc = s.hart.ckpt.pc ∧ t.hart.strip = {} ∧ t.hart.r.x = s.hart.ckpt.x ∧ t.hart.r.v = s.hart.ckpt.v) ∧
        (s.hart.ctx ≠ w.toNat % 2 ^ 12 → t.hart = s.hart)) := by
  refine accepts_tlbinv hw (fun u hu => (shootdown_begun hu h).1) (fun u hu t ht => ?_)
  obtain ⟨_, hbusy, htlb, hmem⟩ := shootdown_begun hu h
  obtain ⟨_, _, rfl⟩ := ht
  exact ⟨hbusy, htlb, hmem, shootdown_hart hu h⟩

theorem shootdown_completes (hbusy : s.dev.sched.invBusy = true) (hfree : s.translatedBefore (s.dev.sched.inv.toNat % 2 ^ 12) = false) :
    Completes .shootdownComplete s fun t => t.hart = s.hart ∧ t.dev.mem = s.dev.mem ∧ t.dev.sched.invBusy = false ∧ t.dev.tlb = s.dev.tlb ∧
      ∀ b ∈ t.dev.bricks, ∀ e ∈ b.2.reuse, e.kind = .const → e.key.ctx ≠ s.dev.sched.inv.toNat % 2 ^ 12 := by
  have hf : field s.dev.sched.inv.toNat 0 12 = s.dev.sched.inv.toNat % 2 ^ 12 := by simp [field]
  refine ⟨_, if_pos (by rw [hf, hbusy, hfree]; rfl), rfl, rfl, rfl, rfl, ?_⟩
  rw [hf]
  intro b hb e he hk
  obtain ⟨b', -, rfl⟩ := List.mem_map.mp hb
  have := (List.mem_filter.mp he).2
  simpa [hk] using this

theorem shootdown_waits (h : s.dev.sched.invBusy = false ∨ s.translatedBefore (s.dev.sched.inv.toNat % 2 ^ 12) = true) :
    exec .shootdownComplete s = .next s := by
  have hf : field s.dev.sched.inv.toNat 0 12 = s.dev.sched.inv.toNat % 2 ^ 12 := by simp [field]
  refine if_neg ?_
  rw [hf]
  obtain h | h := h <;> simp only [h, Bool.false_and, Bool.not_true, Bool.and_false, Bool.false_eq_true, not_false_eq_true]

/-! ### A walk that ends (R157) -/

theorem scrub_tlb (d : Device) (g : Nat) : (d.scrub g).tlb = d.tlb := by
  unfold Device.scrub Device.logError Device.addPoison
  dsimp only
  split
  · split <;> rfl
  · rfl

theorem foldl_scrub_tlb (l : List Nat) (d : Device) : (l.foldl Device.scrub d).tlb = d.tlb := by
  induction l generalizing d with
  | nil => rfl
  | cons g l ih => rw [List.foldl_cons, ih, scrub_tlb]

theorem meetWalk_tlb (d : Device) (ctx va : Nat) : (d.meetWalk ctx va).tlb = d.tlb := by
  unfold Device.meetWalk
  split
  · rfl
  · next h => rw [Device.meet, if_neg h]; exact foldl_scrub_tlb _ d

theorem mem_of_mem_removeFirst {α : Type} {p : α → Bool} {a : α} : ∀ {l : List α}, a ∈ removeFirst p l → a ∈ l
  | [], h => h
  | b :: l, h => by
    unfold removeFirst at h
    split at h
    · exact .tail _ h
    · rcases List.mem_cons.mp h with rfl | h
      · exact .head _
      · exact .tail _ (mem_of_mem_removeFirst h)

theorem self_mem_keepEntry (l : List TlbEntry) (e : TlbEntry) : e ∈ keepEntry l e := by
  unfold keepEntry
  dsimp only
  split <;> exact .head _

theorem mem_of_mem_keepEntry {l : List TlbEntry} {e x : TlbEntry} (h : x ∈ keepEntry l e) : x ∈ l ∨ x = e := by
  unfold keepEntry at h
  dsimp only at h
  split at h <;> rcases List.mem_cons.mp h with rfl | h
  · exact .inr rfl
  · exact .inl h
  · exact .inr rfl
  · exact .inl (List.mem_reverse.mp (mem_of_mem_removeFirst (List.mem_reverse.mp h)))

/-- A structure that is not full keeps what it holds. -/
theorem mem_keepEntry_of_room {l : List TlbEntry} {e x : TlbEntry} (hroom : (l.filter (fun y => y.brick == e.brick && y.level == e.level)).length < e.level.size)
    (h : x ∈ l) : x ∈ keepEntry l e := by
  unfold keepEntry
  rw [if_pos hroom]
  exact .tail _ h

theorem walk_completes {b ctx vmid va : Nat} {e : TlbEntry} (hh : ∃ h ∈ s.harts, h.brick = b ∧ h.ctx = ctx ∧ h.vmid = vmid)
    (hnone : s.dev.tlbFind b ctx vmid va = none) (hwalk : s.dev.walk ctx va = .ok e) :
    Completes (.walkComplete b ctx vmid va) s fun t =>
      t.hart = s.hart ∧ t.dev.mem = s.dev.mem ∧ { e with brick := b, ctx := ctx, vmid := vmid, level := .second } ∈ t.dev.tlb ∧
      (∀ x ∈ t.dev.tlb, x ∈ s.dev.tlb ∨ x = { e with brick := b, ctx := ctx, vmid := vmid, level := .second }) ∧
      ((s.dev.tlb.filter (fun x => x.brick == b && x.level == .second)).length < 4096 → ∀ x ∈ s.dev.tlb, x ∈ t.dev.tlb) := by
  have hany : s.harts.any (fun h => h.brick == b && h.ctx == ctx && h.vmid == vmid) = true := by
    obtain ⟨h, hm, h1, h2, h3⟩ := hh
    exact List.any_eq_true.mpr ⟨h, hm, by simp [h1, h2, h3]⟩
  have hx : exec (.walkComplete b ctx vmid va) s =
      .next (s.mapDev (fun d => (d.meetWalk ctx va).keepWalk { e with brick := b, ctx := ctx, vmid := vmid } .second)) := by
    change execWalkComplete b ctx vmid va s = _
    simp only [execWalkComplete, hany, hnone, hwalk, if_true]
  have htlb : ((s.dev.meetWalk ctx va).keepWalk { e with brick := b, ctx := ctx, vmid := vmid } .second).tlb =
      keepEntry s.dev.tlb { e with brick := b, ctx := ctx, vmid := vmid, level := .second } := by
    rw [← meetWalk_tlb s.dev ctx va]
    rfl
  refine ⟨_, hx, rfl, (s.dev.meetWalk_checks ctx va).mem, ?_⟩
  show _ ∈ ((s.dev.meetWalk ctx va).keepWalk _ .second).tlb ∧ (∀ x ∈ ((s.dev.meetWalk ctx va).keepWalk _ .second).tlb, _) ∧
    (_ → ∀ x ∈ s.dev.tlb, x ∈ ((s.dev.meetWalk ctx va).keepWalk _ .second).tlb)
  rw [htlb]
  exact ⟨self_mem_keepEntry _ _, fun x hx => mem_of_mem_keepEntry hx, fun hroom x hx => mem_keepEntry_of_room hroom hx⟩

/-- R124, R157, R159, R418. -/
theorem shootdowns : Shootdowns := by
  intro s p f w
  refine ⟨fun hw => ⟨fun h => tlbinv_ignored hw h, fun hb hc hs => tlbinv_taken hw ?_⟩,
    ⟨fun hb hf => ?_, fun h => ?_⟩, fun b ctx vmid va e => walk_completes⟩
  · rintro (h | h | ⟨h, h'⟩)
    · exact absurd h (by simp [hb])
    · exact hc h
    · obtain hs | hs := hs
      · exact hs h
      · exact absurd (h'.symm.trans hs) (by decide)
  · exact shootdown_completes hb hf
  · exact shootdown_waits h

end Sys2Proof.Claims

namespace Sys2Proof.Claims
open Sys2Proof.Machine

variable {s : State} {p : Nat} {f : Flit} {w : Word}

/-! ### The commands of the scheduler (R82) -/

/-- A command of the scheduler: its row, its operation and what it does when it is not ignored. -/
inductive Command82 : (Nat → Flit → Instr) → Nat → (State → Nat → State) → Prop
  | hold : Command82 .schedHold 1 State.holdCtx
  | release : Command82 .schedRelease 2 State.releaseCtx
  | flush : Command82 .schedFlush 3 (fun s _ => s.mapSched (fun c => { c with busy := true }))

/-- The scheduler's registers once a command has begun. -/
def begun82 (c : SchedRegs) (w : Word) (result : Nat) : SchedRegs := { c with cmd := w &&& 0xFFFF#64, result := result }

theorem schedCommand_busy {u : State} {h : State → Nat → State} (hb : u.dev.sched.busy = true) : u.schedCommand w h = u := if_pos hb

theorem schedCommand_zero {u : State} {h : State → Nat → State} (hb : u.dev.sched.busy = false) (hc : w.toNat % 2 ^ 12 = 0) :
    u.schedCommand w h = u.mapSched (fun c => begun82 c w 2) := by
  have hf : field w.toNat 0 12 = 0 := by simpa [field] using hc
  unfold State.schedCommand
  rw [if_neg (by simp [hb]), hf, ofNat_command]
  rfl

theorem schedCommand_does {u : State} {h : State → Nat → State} (hb : u.dev.sched.busy = false) (hc : w.toNat % 2 ^ 12 ≠ 0) :
    u.schedCommand w h = h (u.mapSched (fun c => begun82 c w 0)) (w.toNat % 2 ^ 12) := by
  have hf : field w.toNat 0 12 = w.toNat % 2 ^ 12 := by simp [field]
  unfold State.schedCommand
  rw [if_neg (by simp [hb]), hf, ofNat_command]
  dsimp only
  rw [if_neg hc, if_neg hc]
  rfl

theorem accepts_command {i : Nat → Flit → Instr} {op : Nat} {h : State → Nat → State} {P : State → State → Prop} (hi : Command82 i op h)
    (hw : PutsWord s f 0 0x40 w) (hop : w.toNat / 2 ^ 12 % 16 = op) (hl : ∀ u, Arrived s u → SameLinks u.dev (u.schedCommand w h).dev)
    (hh : ∀ u, Arrived s u → ∀ t, Relinked (u.schedCommand w h) t → P u t) : Accepts i s p f P := by
  have hc : isCommand w op = true := beq_iff_eq.mpr hop
  cases hi
  all_goals
    refine accepts_onWindow (row := fun v r => v == 0 && r == 0x40) rfl hw rfl rfl (fun u hu => ?_)
    simp only [hc, if_true]
    exact ⟨hl u hu, hh u hu⟩

theorem command_busy {i : Nat → Flit → Instr} {op : Nat} {h : State → Nat → State} (hi : Command82 i op h) (hw : PutsWord s f 0 0x40 w)
    (hop : w.toNat / 2 ^ 12 % 16 = op) (hb : s.dev.sched.busy = true) : Accepts i s p f OnlyPorts := by
  have hsame : ∀ u, Arrived s u → u.schedCommand w h = u := fun u hu => schedCommand_busy (by rwa [hu.sched])
  exact accepts_command hi hw hop (fun u hu => by rw [hsame u hu]; exact .refl _) (fun u hu t ht => by rw [hsame u hu] at ht; exact ht.onlyPorts)

theorem command_zero {i : Nat → Flit → Instr} {op : Nat} {h : State → Nat → State} (hi : Command82 i op h) (hw : PutsWord s f 0 0x40 w)
    (hop : w.toNat / 2 ^ 12 % 16 = op) (hb : s.dev.sched.busy = false) (hc : w.toNat % 2 ^ 12 = 0) :
    Accepts i s p f fun u t => SetsSched u t (begun82 s.dev.sched w 2) := by
  have hsame : ∀ u, Arrived s u → u.schedCommand w h = u.mapSched (fun c => begun82 c w 2) := fun u hu =>
    schedCommand_zero (by rwa [hu.sched]) hc
  refine accepts_command hi hw hop (fun u hu => by rw [hsame u hu]; exact ⟨rfl, rfl, rfl, rfl⟩) (fun u hu t ht => ?_)
  rw [hsame u hu] at ht
  have := ht.setsSched
  rwa [hu.sched] at this

/-- A command that is not ignored, of a context that is not 0. -/
theorem command_does {i : Nat → Flit → Instr} {op : Nat} {h : State → Nat → State} {P : State → State → Prop} (hi : Command82 i op h)
    (hw : PutsWord s f 0 0x40 w) (hop : w.toNat / 2 ^ 12 % 16 = op) (hb : s.dev.sched.busy = false) (hc : w.toNat % 2 ^ 12 ≠ 0)
    (hl : ∀ u, Arrived s u → SameLinks u.dev (h (u.mapSched (fun c => begun82 c w 0)) (w.toNat % 2 ^ 12)).dev)
    (hh : ∀ u, Arrived s u → ∀ t, Relinked (h (u.mapSched (fun c => begun82 c w 0)) (w.toNat % 2 ^ 12)) t → P u t) : Accepts i s p f P := by
  have hsame : ∀ u, Arrived s u → u.schedCommand w h = h (u.mapSched (fun c => begun82 c w 0)) (w.toNat % 2 ^ 12) := fun u hu =>
    schedCommand_does (by rwa [hu.sched]) hc
  refine accepts_command hi hw hop (fun u hu => by rw [hsame u hu]; exact hl u hu) (fun u hu t ht => hh u hu t ?_)
  rwa [hsame u hu] at ht

/-! HOLD. -/

/-- One running hart of the context, alone on the device. -/
structure Lone (u : State) (ctx : Nat) : Prop where
  run : u.hart.run = .running
  parked : u.dev.parked = []
  ctx : u.hart.ctx = ctx
  fork : u.hart.fork = .none

theorem Lone.harts {u : State} {ctx : Nat} (h : Lone u ctx) : u.harts = [u.hart] := by
  unfold State.harts
  rw [h.parked, List.filter_cons_of_pos (by rw [h.run]; rfl)]
  rfl

theorem holdCtx_noPool {u : State} {ctx : Nat} (h : u.dev.sched.saveSlots = 0) : u.holdCtx ctx = u.mapSched (fun c => { c with result := 1 }) :=
  if_pos (.inl h)

/-- Without a slot for the hart, a HOLD has no effect. -/
theorem holdCtx_full {u : State} {ctx : Nat} (h : Lone u ctx) (hs : u.dev.sched.saveSlots ≤ u.dev.saved.length) :
    u.holdCtx ctx = u.mapSched (fun c => { c with result := 1 }) := by
  refine if_pos (.inr ?_)
  rw [h.harts, List.filter_cons_of_pos (by simp only [h.run, h.ctx, beq_self_eq_true])]
  have : u.dev.freeSlots = 0 := Nat.sub_eq_zero_of_le hs
  rw [this]
  exact Nat.succ_pos _

/-- The scheduler's registers in which a HOLD is busy. -/
def holding (c : SchedRegs) (ctx : Nat) : SchedRegs := { c with busy := true, heldCtx := if c.heldCtx.contains ctx then c.heldCtx else ctx :: c.heldCtx }

/-- A HOLD with a slot for its one hart stops it. -/
theorem holdCtx_stops {u : State} {ctx : Nat} (h : Lone u ctx) (hs : u.dev.saved.length < u.dev.sched.saveSlots)
    (hg : ∀ l ∈ u.dev.launches, l.record.ctx = ctx → l.record.gang = false) :
    u.holdCtx ctx = ((u.mapSched (fun c => holding c ctx)).stopWhere (fun h => h.ctx == ctx)).settleHold := by
  have hgang : u.dev.launches.filter (fun l => l.record.ctx == ctx && l.record.gang) = [] := by
    rw [List.filter_eq_nil_iff]
    intro l hl hc
    obtain ⟨h1, h2⟩ := Bool.and_eq_true_iff.mp hc
    rw [hg l hl (by simpa using h1)] at h2
    cases h2
  have hneed : ¬ (u.dev.sched.saveSlots = 0 ∨ u.dev.freeSlots < 1) := by unfold Device.freeSlots; omega
  unfold State.holdCtx
  dsimp only
  rw [h.harts, List.filter_cons_of_pos (by simp only [h.run, h.ctx, beq_self_eq_true])]
  rw [List.filter_nil, List.length_singleton, if_neg hneed]
  have hl : (u.mapSched (fun c => { c with busy := true, heldCtx := if c.heldCtx.contains ctx then c.heldCtx else ctx :: c.heldCtx })).dev.launches = u.dev.launches := rfl
  rw [hl, hgang]
  simp only [List.foldl_nil, List.any_nil, Bool.not_false, Bool.and_true]
  rfl

/-- Only launches differ. -/
def SameButLaunches (d e : Device) : Prop := ∃ l, e = { d with launches := l }

theorem foldl_mapLaunch {α : Type} (id : α → Nat × Nat) (g : Launch → Launch) (l : List α) (d : Device) :
    SameButLaunches d (l.foldl (fun d a => d.mapLaunch (id a) g) d) := by
  induction l generalizing d with
  | nil => exact ⟨_, rfl⟩
  | cons a l ih =>
    obtain ⟨x, hx⟩ := ih (d.mapLaunch (id a) g)
    exact ⟨x, by rw [List.foldl_cons, hx]; rfl⟩

theorem stopWhere_lone {u : State} {ctx : Nat} (h : Lone u ctx) :
    (u.stopWhere (fun h => h.ctx == ctx)).hart = { u.hart with run := .stopped } ∧
    SameButLaunches u.dev (u.stopWhere (fun h => h.ctx == ctx)).dev := by
  have hmine : ∀ b : Bool, ((u.hart.run == .running || u.hart.run == .restoring) && (u.hart.ctx == ctx || b)) = true := fun b => by
    simp [h.run, h.ctx]
  unfold State.stopWhere
  dsimp only
  refine ⟨if_pos (hmine _), ?_⟩
  rw [h.parked]
  generalize distinct (List.map Hart.launch _) = ids
  obtain ⟨l, hl⟩ := foldl_mapLaunch (fun a : Nat × Nat => a) (fun l => { l with preempts := l.preempts + 1 }) ids { u.dev with parked := [] }
  exact ⟨l, by rw [List.map_nil, hl, ← h.parked]⟩

/-- A HOLD goes on while a hart of its context is on the device. -/
theorem settleHold_waits {u : State} (h : u.hart.ctx = field u.dev.sched.cmd.toNat 0 12) (hrun : u.hart.run ≠ .free) : u.settleHold = u := by
  refine if_neg ?_
  have hin : u.hart ∈ u.harts := List.mem_filter.mpr ⟨.head _, by simpa using hrun⟩
  have hany : u.harts.any (fun h => h.ctx == field u.dev.sched.cmd.toNat 0 12) = true := List.any_eq_true.mpr ⟨_, hin, by simp [h]⟩
  simp only [hany, Bool.not_true, Bool.and_false, Bool.false_eq_true, not_false_eq_true]

theorem begun82_ctx (c : SchedRegs) (w : Word) (n : Nat) : field (begun82 c w n).cmd.toNat 0 12 = w.toNat % 2 ^ 12 := by
  have h : (begun82 c w n).cmd = BitVec.ofNat 64 (field w.toNat 0 16) := (ofNat_command w).symm
  rw [h, BitVec.toNat_ofNat]
  simp only [field, Nat.pow_zero, Nat.div_one]
  omega

variable {ctx : Nat}

theorem Arrived.lone {u : State} (hu : Arrived s u) (h : Lone s ctx) (c : SchedRegs → SchedRegs) : Lone (u.mapSched c) ctx := by
  obtain ⟨_, _, _, rfl⟩ := hu
  exact ⟨h.run, h.parked, h.ctx, h.fork⟩

theorem hold_noPool (hw : PutsWord s f 0 0x40 w) (hb : s.dev.sched.busy = false) (hc : w.toNat % 2 ^ 12 ≠ 0) (hop : w.toNat / 2 ^ 12 % 16 = 1)
    (hs : s.dev.sched.saveSlots = 0) : Accepts .schedHold s p f fun u t => SetsSched u t (begun82 s.dev.sched w 1) := by
  have hsame : ∀ u, Arrived s u → (u.mapSched (fun c => begun82 c w 0)).holdCtx (w.toNat % 2 ^ 12) = u.mapSched (fun c => begun82 c w 1) := fun u hu =>
    holdCtx_noPool (by rw [← hs, ← hu.sched]; rfl)
  refine command_does .hold hw hop hb hc (fun u hu => by rw [hsame u hu]; exact ⟨rfl, rfl, rfl, rfl⟩) (fun u hu t ht => ?_)
  rw [hsame u hu] at ht
  have := ht.setsSched
  rwa [hu.sched] at this

theorem hold_full (hw : PutsWord s f 0 0x40 w) (hb : s.dev.sched.busy = false) (hc : w.toNat % 2 ^ 12 ≠ 0) (hop : w.toNat / 2 ^ 12 % 16 = 1)
    (h : Lone s (w.toNat % 2 ^ 12)) (hs : s.dev.sched.saveSlots ≤ s.dev.saved.length) :
    Accepts .schedHold s p f fun u t => SetsSched u t (begun82 s.dev.sched w 1) := by
  have hsame : ∀ u, Arrived s u → (u.mapSched (fun c => begun82 c w 0)).holdCtx (w.toNat % 2 ^ 12) = u.mapSched (fun c => begun82 c w 1) := fun u hu =>
    holdCtx_full (hu.lone h _) (by obtain ⟨_, _, _, rfl⟩ := hu; exact hs)
  refine command_does .hold hw hop hb hc (fun u hu => by rw [hsame u hu]; exact ⟨rfl, rfl, rfl, rfl⟩) (fun u hu t ht => ?_)
  rw [hsame u hu] at ht
  have := ht.setsSched
  rwa [hu.sched] at this

/-- The state of a HOLD that goes on. -/
theorem hold_state {u : State} (hu : Arrived s u) (h : Lone s (w.toNat % 2 ^ 12)) (hs : s.dev.saved.length < s.dev.sched.saveSlots)
    (hg : ∀ l ∈ s.dev.launches, l.record.ctx = w.toNat % 2 ^ 12 → l.record.gang = false) (hheld : s.dev.sched.heldCtx = []) :
    ∃ t, (u.mapSched (fun c => begun82 c w 0)).holdCtx (w.toNat % 2 ^ 12) = t ∧ SameLinks u.dev t.dev ∧ t.hart = { s.hart with run := .stopped } ∧
      t.dev.sched = { begun82 s.dev.sched w 0 with busy := true, heldCtx := [w.toNat % 2 ^ 12] } ∧ t.dev.mem = s.dev.mem := by
  have hl := hu.lone h (fun c => holding (begun82 c w 0) (w.toNat % 2 ^ 12))
  obtain ⟨hh, l, hd⟩ := stopWhere_lone hl
  rw [holdCtx_stops (hu.lone h _) (by obtain ⟨_, _, _, rfl⟩ := hu; exact hs) (by obtain ⟨_, _, _, rfl⟩ := hu; exact hg)]
  generalize ht : (u.mapSched (fun c => holding (begun82 c w 0) (w.toNat % 2 ^ 12))).stopWhere (fun h => h.ctx == w.toNat % 2 ^ 12) = t at hh hd
  have heq : ((u.mapSched (fun c => begun82 c w 0)).mapSched (fun c => holding c (w.toNat % 2 ^ 12))).stopWhere (fun h => h.ctx == w.toNat % 2 ^ 12) = t := ht
  have hhart : (u.mapSched (fun c => holding (begun82 c w 0) (w.toNat % 2 ^ 12))).hart = s.hart := by obtain ⟨_, _, _, rfl⟩ := hu; rfl
  have hsched : t.dev.sched = holding (begun82 s.dev.sched w 0) (w.toNat % 2 ^ 12) := by
    rw [hd, ← hu.sched]
    rfl
  rw [heq, settleHold_waits (by rw [hh, hhart, hsched]; exact h.ctx.trans (begun82_ctx s.dev.sched w 0).symm) (by rw [hh]; simp)]
  rw [hhart] at hh
  have hx : holding (begun82 s.dev.sched w 0) (w.toNat % 2 ^ 12) = { begun82 s.dev.sched w 0 with busy := true, heldCtx := [w.toNat % 2 ^ 12] } := by
    have : (begun82 s.dev.sched w 0).heldCtx = [] := hheld
    simp only [holding, this, List.contains_nil, Bool.false_eq_true, if_false]
  refine ⟨t, rfl, ?_, hh, hsched.trans hx, ?_⟩
  · rw [hd]
    exact ⟨rfl, rfl, rfl, rfl⟩
  · rw [hd]
    obtain ⟨_, _, _, rfl⟩ := hu
    rfl

theorem hold_stops (hw : PutsWord s f 0 0x40 w) (hb : s.dev.sched.busy = false) (hc : w.toNat % 2 ^ 12 ≠ 0) (hop : w.toNat / 2 ^ 12 % 16 = 1)
    (h : Lone s (w.toNat % 2 ^ 12)) (hs : s.dev.saved.length < s.dev.sched.saveSlots)
    (hg : ∀ l ∈ s.dev.launches, l.record.ctx = w.toNat % 2 ^ 12 → l.record.gang = false) (hheld : s.dev.sched.heldCtx = []) :
    Accepts .schedHold s p f fun _ t => t.hart = { s.hart with run := .stopped } ∧
      t.dev.sched = { begun82 s.dev.sched w 0 with busy := true, heldCtx := [w.toNat % 2 ^ 12] } ∧ t.dev.mem = s.dev.mem := by
  refine command_does .hold hw hop hb hc (fun u hu => ?_) (fun u hu t ht => ?_)
  · obtain ⟨t, rfl, hl, -⟩ := hold_state hu h hs hg hheld
    exact hl
  · obtain ⟨t', heq, -, hrest⟩ := hold_state hu h hs hg hheld
    rw [heq] at ht
    obtain ⟨_, _, rfl⟩ := ht
    exact hrest

/-! RELEASE and FLUSH. -/

/-- What a RELEASE makes of a saved area. -/
def released (ctx : Nat) (a : SaveArea) : SaveArea := if a.hart.ctx = ctx ∧ a.flushed = true then { a with spilled := true, flushed := false } else a

theorem mapSched_links (u : State) (g : SchedRegs → SchedRegs) : SameLinks u.dev (u.mapSched g).dev := ⟨rfl, rfl, rfl, rfl⟩

theorem releaseCtx_links (u : State) (ctx : Nat) : SameLinks u.dev (u.releaseCtx ctx).dev := ⟨rfl, rfl, rfl, rfl⟩

theorem releaseCtx_eq (u : State) (ctx : Nat) : u.releaseCtx ctx = { u with dev := { u.dev with
    sched := { u.dev.sched with heldCtx := u.dev.sched.heldCtx.filter (· != ctx) }, saved := u.dev.saved.map (released ctx) } } := rfl

theorem release_done (hw : PutsWord s f 0 0x40 w) (hb : s.dev.sched.busy = false) (hc : w.toNat % 2 ^ 12 ≠ 0) (hop : w.toNat / 2 ^ 12 % 16 = 2) :
    Accepts .schedRelease s p f fun _ t =>
      t.dev.sched = { begun82 s.dev.sched w 0 with heldCtx := s.dev.sched.heldCtx.filter (· != w.toNat % 2 ^ 12) } ∧ t.hart = s.hart ∧
      t.dev.mem = s.dev.mem ∧ t.dev.saved = s.dev.saved.map (released (w.toNat % 2 ^ 12)) := by
  refine command_does .release hw hop hb hc (fun u _ => (mapSched_links u _).trans (releaseCtx_links _ _)) (fun u hu t ht => ?_)
  rw [releaseCtx_eq] at ht
  obtain ⟨_, _, rfl⟩ := ht
  obtain ⟨_, _, _, rfl⟩ := hu
  exact ⟨rfl, rfl, rfl, rfl⟩

theorem flush_begun (hw : PutsWord s f 0 0x40 w) (hb : s.dev.sched.busy = false) (hc : w.toNat % 2 ^ 12 ≠ 0) (hop : w.toNat / 2 ^ 12 % 16 = 3) :
    Accepts .schedFlush s p f fun u t => SetsSched u t { begun82 s.dev.sched w 0 with busy := true } := by
  refine command_does .flush hw hop hb hc (fun u _ => (mapSched_links u _).trans (mapSched_links _ _)) (fun u hu t ht => ?_)
  have h := ht.setsSched
  have hs : (u.mapSched (fun c => begun82 c w 0)).dev.sched = begun82 s.dev.sched w 0 := by rw [← hu.sched]; rfl
  rw [hs] at h
  exact h

end Sys2Proof.Claims

namespace Sys2Proof.Claims
open Sys2Proof.Machine

variable {s : State}

/-! ### FLUSH writes the areas of a context (R82) -/

/-- The control registers that an area holds come from its hart, but for GEARS (R80). -/
theorem csr_of_hart (h : Hart) (d e : Device) {n : Nat} (hn : n ∈ controlSlots) (h21 : n ≠ 0x21) :
    State.csr { hart := h, dev := d } n = State.csr { hart := h, dev := e } n := by
  have h20 : n ≠ 0x20 := by rintro rfl; exact absurd hn (by decide)
  have h31 : n ≠ 0x31 := by rintro rfl; exact absurd hn (by decide)
  unfold State.csr
  split
  case h_20 => exact absurd rfl h20
  case h_21 => exact absurd rfl h21
  case h_32 => exact absurd rfl h31
  all_goals rfl

/-- What an area's bytes hold comes from its hart, its launch and the groups it is in. -/
theorem areaBytes_congr {s t : State} {a b : SaveArea} (hl : t.dev.launches = s.dev.launches) (hg : t.dev.groups = s.dev.groups)
    (h : b.hart = a.hart) (hp : b.peer = a.peer) (hu : b.saveUj = a.saveUj) (ht : b.saveTime = a.saveTime) (hb : b.gearBits = a.gearBits) :
    t.areaBytes b = s.areaBytes a := by
  have hheader : t.areaHeader b = s.areaHeader a := by
    simp only [State.areaHeader, Device.launch, Device.permits, hl, hg, h, hp, hu, ht]
  have hcsr : controlSlots.flatMap (fun n => leBytes 8 (if n = 0x21 then b.hart.gears.saved b.gearBits else (State.csr { t with hart := b.hart } n).getD 0).toNat) =
      controlSlots.flatMap (fun n => leBytes 8 (if n = 0x21 then a.hart.gears.saved a.gearBits else (State.csr { s with hart := a.hart } n).getD 0).toNat) := by
    refine List.flatMap_congr (fun n hn => ?_)
    by_cases h21 : n = 0x21
    · rw [if_pos h21, if_pos h21, h, hb]
    · rw [if_neg h21, if_neg h21, h, csr_of_hart a.hart t.dev s.dev hn h21]
  unfold State.areaBytes
  dsimp only
  rw [hheader, hcsr, h]

/-- What the writing of areas leaves as it is. -/
structure Flushing (s t : State) : Prop where
  hart : t.hart = s.hart
  sched : t.dev.sched = s.dev.sched
  launches : t.dev.launches = s.dev.launches
  groups : t.dev.groups = s.dev.groups
  node : t.dev.node = s.dev.node
  gddr : t.dev.gddr = s.dev.gddr

theorem Flushing.refl (s : State) : Flushing s s := ⟨rfl, rfl, rfl, rfl, rfl, rfl⟩

theorem Flushing.trans {s t u : State} (h : Flushing s t) (k : Flushing t u) : Flushing s u :=
  ⟨k.hart.trans h.hart, k.sched.trans h.sched, k.launches.trans h.launches, k.groups.trans h.groups, k.node.trans h.node, k.gddr.trans h.gddr⟩

theorem Flushing.slotAt {s t : State} (h : Flushing s t) (n : Nat) : t.dev.slotAt n = s.dev.slotAt n := by
  simp only [Device.slotAt, Device.here, Device.own, Device.populated, h.sched, h.node, h.gddr]
  rfl

/-- What becomes of an area keeps its slot, its context and where it is, and a flush stands. -/
structure KeepsArea (g : SaveArea → SaveArea) : Prop where
  slot : ∀ a, (g a).slot = a.slot
  ctx : ∀ a, (g a).hart.ctx = a.hart.ctx
  spilled : ∀ a, (g a).spilled = a.spilled
  flushed : ∀ a, a.flushed = true → (g a).flushed = true

theorem KeepsArea.id : KeepsArea (fun a => a) := ⟨fun _ => rfl, fun _ => rfl, fun _ => rfl, fun _ h => h⟩

theorem KeepsArea.comp {g k : SaveArea → SaveArea} (hk : KeepsArea k) (hg : KeepsArea g) : KeepsArea (fun a => k (g a)) :=
  ⟨fun a => (hk.slot _).trans (hg.slot a), fun a => (hk.ctx _).trans (hg.ctx a), fun a => (hk.spilled _).trans (hg.spilled a),
    fun a h => hk.flushed _ (hg.flushed a h)⟩

/-- A change of the area of one slot. -/
def inSlot (n : Nat) (g : SaveArea → SaveArea) (a : SaveArea) : SaveArea := if a.slot = n then g a else a

theorem KeepsArea.inSlot {g : SaveArea → SaveArea} (h : KeepsArea g) (n : Nat) : KeepsArea (inSlot n g) := by
  refine ⟨fun a => ?_, fun a => ?_, fun a => ?_, fun a ha => ?_⟩ <;> unfold Claims.inSlot <;> split
  · exact h.slot a
  · rfl
  · exact h.ctx a
  · rfl
  · exact h.spilled a
  · rfl
  · exact h.flushed a ha
  · exact ha

theorem inSlot_eq {n : Nat} {g : SaveArea → SaveArea} {a : SaveArea} (h : a.slot = n) : inSlot n g a = g a := if_pos h

theorem mapArea_saved (s : State) (n : Nat) (g : SaveArea → SaveArea) : (s.mapArea n g).dev.saved = s.dev.saved.map (inSlot n g) := rfl

theorem mapArea_mem (s : State) (n : Nat) (g : SaveArea → SaveArea) : (s.mapArea n g).dev.mem = s.dev.mem := rfl

theorem mapArea_flushing (s : State) (n : Nat) (g : SaveArea → SaveArea) : Flushing s (s.mapArea n g) := ⟨rfl, rfl, rfl, rfl, rfl, rfl⟩

theorem foldl_addPoison (l : List Nat) (n : Nat) (d : Device) : ∃ p, l.foldl (fun d g => d.addPoison (n + g)) d = { d with poison := p } := by
  induction l generalizing d with
  | nil => exact ⟨_, rfl⟩
  | cons g l ih =>
    have h : ∃ p, d.addPoison (n + g) = { d with poison := p } := by
      unfold Device.addPoison
      split <;> exact ⟨_, rfl⟩
    obtain ⟨p, hp⟩ := h
    obtain ⟨q, hq⟩ := ih { d with poison := p }
    exact ⟨q, by rw [List.foldl_cons, hp, hq]⟩

/-- A write of bytes of which some granules are poisoned. -/
theorem writeAccess_poisoned (d : Device) (off : Nat) (l : List Byte) (gs : List Nat) :
    ∃ p q f c g, gs.foldl (fun d g => d.addPoison (off / 64 + g)) (d.writeAccess off l) = { d with
      mem := Memory.writeBytes d.mem off l, poison := p, latent := q, fresh := f, gmc := { d.gmc with corrected := c, log := g } } := by
  obtain ⟨p, hp⟩ := foldl_addPoison gs (off / 64) (d.writeAccess off l)
  obtain ⟨_, q, f, c, g, hd⟩ := d.writeAccess_dev off l
  exact ⟨p, q, f, c, g, by rw [hp, hd]⟩

/-- An area goes into its slot: its bytes stand there, and it knows with which hart it was written. -/
theorem writeArea_slot {s : State} {a : SaveArea} {off : Nat} (h : s.dev.slotAt a.slot = some off) : Flushing s (s.writeArea a) ∧
    (s.writeArea a).dev.saved = s.dev.saved.map (inSlot a.slot (fun x => { x with written := some x.hart })) ∧
    (s.writeArea a).dev.mem = Memory.writeBytes s.dev.mem off (s.areaBytes a) := by
  have hw : s.writeArea a = (s.mapDev (fun d => a.hart.r.poisonedGranules.foldl (fun d g => d.addPoison (off / 64 + g))
      (d.writeAccess off (s.areaBytes a)))).mapArea a.slot (fun x => { x with written := some x.hart }) := by
    unfold State.writeArea
    rw [h]
    rfl
  obtain ⟨_, _, _, _, _, hd⟩ := writeAccess_poisoned s.dev off (s.areaBytes a) a.hart.r.poisonedGranules
  rw [hw, State.mapDev, hd]
  exact ⟨⟨rfl, rfl, rfl, rfl, rfl, rfl⟩, mapArea_saved _ _ _, by rw [mapArea_mem]⟩

theorem writeArea_noSlot {s : State} {a : SaveArea} (h : s.dev.slotAt a.slot = none) : s.writeArea a = s := by
  unfold State.writeArea
  rw [h]

/-- The writing of an area keeps the areas, whether or not it has a slot. -/
theorem writeArea_keeps (s : State) (a : SaveArea) : Flushing s (s.writeArea a) ∧ ∃ g, KeepsArea g ∧ (s.writeArea a).dev.saved = s.dev.saved.map g := by
  cases h : s.dev.slotAt a.slot with
  | none =>
    rw [writeArea_noSlot h]
    exact ⟨.refl s, _, .id, (List.map_id' _).symm⟩
  | some off =>
    obtain ⟨hf, hs, -⟩ := writeArea_slot h
    have k : KeepsArea (fun x => { x with written := some x.hart }) := ⟨fun _ => rfl, fun _ => rfl, fun _ => rfl, fun _ h => h⟩
    exact ⟨hf, _, k.inSlot _, hs⟩

/-- The energy of a write is charged to its hart (R59, R147). -/
def charged (n : Nat) (a : SaveArea) : SaveArea := { a with hart := { a.hart with energy := a.hart.energy + BitVec.ofNat 48 (Config.energy n) } }

theorem charged_keeps (n : Nat) : KeepsArea (charged n) := ⟨fun _ => rfl, fun _ => rfl, fun _ => rfl, fun _ h => h⟩

/-- The state in which the energy of an area's write has been charged. -/
def paid (s : State) (a : SaveArea) : State :=
  (s.draw.2.mapArea a.slot (charged s.dev.fresh)).mapTenant a.hart.vmid (fun t => { t with energy := t.energy + BitVec.ofNat 64 (Config.energy s.dev.fresh) })

theorem paid_flushing (s : State) (a : SaveArea) : Flushing s (paid s a) := ⟨rfl, rfl, rfl, rfl, rfl, rfl⟩
theorem paid_saved (s : State) (a : SaveArea) : (paid s a).dev.saved = s.dev.saved.map (inSlot a.slot (charged s.dev.fresh)) := rfl

theorem flushArea_eq (s : State) (a : SaveArea) :
    s.flushArea a = ((paid s a).writeArea (charged s.dev.fresh a)).mapArea a.slot (fun x => { x with flushed := true }) := rfl

/-- A flush of an area marks the areas of its slot. -/
theorem flushArea_keeps (s : State) (a : SaveArea) : Flushing s (s.flushArea a) ∧
    ∃ g, KeepsArea g ∧ (∀ x, x.slot = a.slot → (g x).flushed = true) ∧ (s.flushArea a).dev.saved = s.dev.saved.map g := by
  obtain ⟨hf, g, hg, hs⟩ := writeArea_keeps (paid s a) (charged s.dev.fresh a)
  have kf : KeepsArea (fun x => { x with flushed := true }) := ⟨fun _ => rfl, fun _ => rfl, fun _ => rfl, fun _ _ => rfl⟩
  rw [flushArea_eq]
  refine ⟨((paid_flushing s a).trans hf).trans (mapArea_flushing _ _ _), _, ((kf.inSlot a.slot).comp hg).comp ((charged_keeps s.dev.fresh).inSlot a.slot), fun x hx => ?_, ?_⟩
  · unfold inSlot
    rw [if_pos]
    exact (hg.slot _).trans ((((charged_keeps s.dev.fresh).inSlot a.slot).slot x).trans hx)
  · rw [mapArea_saved, hs, paid_saved, List.map_map, List.map_map]
    rfl

theorem flushAreas_keeps (l : List SaveArea) (s : State) : Flushing s (l.foldl State.flushArea s) ∧
    ∃ g, KeepsArea g ∧ (∀ a ∈ l, ∀ x, x.slot = a.slot → (g x).flushed = true) ∧ (l.foldl State.flushArea s).dev.saved = s.dev.saved.map g := by
  induction l generalizing s with
  | nil => exact ⟨.refl s, _, .id, fun a ha => absurd ha List.not_mem_nil, (List.map_id' _).symm⟩
  | cons a l ih =>
    obtain ⟨hf, g, hg, hm, hs⟩ := flushArea_keeps s a
    obtain ⟨hf', g', hg', hm', hs'⟩ := ih (s.flushArea a)
    refine ⟨hf.trans hf', _, hg'.comp hg, fun b hb x hx => ?_, ?_⟩
    · rcases List.mem_cons.mp hb with rfl | hb
      · exact hg'.flushed _ (hm x hx)
      · exact hm' b hb _ ((hg.slot x).trans hx)
    · rw [List.foldl_cons, hs', hs, List.map_map]
      rfl

/-- A flush of an area that has a slot writes its bytes there. -/
theorem flushArea_writes {s : State} {a : SaveArea} {off : Nat} (hsaved : s.dev.saved = [a]) (hslot : s.dev.slotAt a.slot = some off)
    (hm : Memory.wf s.dev.mem = true) : ∃ x, (s.flushArea a).dev.saved = [x] ∧ x.hart = { a.hart with energy := x.hart.energy } ∧
      Memory.readBytes (s.flushArea a).dev.mem off ((s.flushArea a).areaBytes x).length = (s.flushArea a).areaBytes x := by
  obtain ⟨hf, hs, hmem⟩ := writeArea_slot (s := paid s a) (a := charged s.dev.fresh a) ((paid_flushing s a).slotAt a.slot |>.trans hslot)
  have hin : ∀ (g : SaveArea → SaveArea) (y : SaveArea), y.slot = a.slot → inSlot a.slot g y = g y := fun g y hy => if_pos hy
  rw [flushArea_eq]
  refine ⟨{ charged s.dev.fresh a with written := some (charged s.dev.fresh a).hart, flushed := true }, ?_, rfl, ?_⟩
  · rw [mapArea_saved, hs, paid_saved, hsaved, List.map_singleton, List.map_singleton, List.map_singleton, inSlot_eq rfl, inSlot_eq rfl]
    exact congrArg (fun y => [y]) (inSlot_eq rfl)
  · have hb : State.areaBytes (((paid s a).writeArea (charged s.dev.fresh a)).mapArea a.slot (fun x => { x with flushed := true }))
        { charged s.dev.fresh a with written := some (charged s.dev.fresh a).hart, flushed := true } = (paid s a).areaBytes (charged s.dev.fresh a) :=
      areaBytes_congr hf.launches hf.groups rfl rfl rfl rfl rfl
    have hmem' : (((paid s a).writeArea (charged s.dev.fresh a)).mapArea a.slot (fun x => { x with flushed := true })).dev.mem =
        Memory.writeBytes s.dev.mem off ((paid s a).areaBytes (charged s.dev.fresh a)) := hmem
    rw [hb, hmem']
    exact Memory.readBytes_writeBytes _ off _ hm

theorem flush_completes (hb : s.dev.sched.busy = true) (hop : s.dev.sched.cmd.toNat / 2 ^ 12 % 16 = 3) : Completes .flushComplete s fun t =>
    t.dev.sched = { s.dev.sched with busy := false } ∧ t.hart = s.hart ∧
    (∀ a ∈ t.dev.saved, a.hart.ctx = s.dev.sched.cmd.toNat % 2 ^ 12 → a.spilled = false → a.flushed = true) ∧
    (∀ a off, s.dev.saved = [a] → a.hart.ctx = s.dev.sched.cmd.toNat % 2 ^ 12 → a.spilled = false → s.dev.slotAt a.slot = some off → MemoryCanonical s →
      ∃ x, t.dev.saved = [x] ∧ x.hart = { a.hart with energy := x.hart.energy } ∧
        Memory.readBytes t.dev.mem off (t.areaBytes x).length = t.areaBytes x) := by
  have hf : field s.dev.sched.cmd.toNat 0 12 = s.dev.sched.cmd.toNat % 2 ^ 12 := by simp [field]
  have hc : isCommand s.dev.sched.cmd 3 = true := beq_iff_eq.mpr hop
  refine ⟨_, if_pos (by rw [hb, hc]; rfl), ?_⟩
  rw [hf]
  obtain ⟨hfl, g, hg, hm, hs⟩ := flushAreas_keeps (s.dev.saved.filter (fun a => a.hart.ctx == s.dev.sched.cmd.toNat % 2 ^ 12 && !a.spilled)) s
  refine ⟨congrArg (fun c => { c with busy := false }) hfl.sched, hfl.hart, fun a ha hctx hsp => ?_, fun a off hsaved hctx hsp hslot hcan => ?_⟩
  · have ha' : a ∈ s.dev.saved.map g := hs ▸ ha
    obtain ⟨b, hb', rfl⟩ := List.mem_map.mp ha'
    refine hm b (List.mem_filter.mpr ⟨hb', ?_⟩) b rfl
    rw [hg.ctx] at hctx
    rw [hg.spilled] at hsp
    simp [hctx, hsp]
  · have hl : s.dev.saved.filter (fun a => a.hart.ctx == s.dev.sched.cmd.toNat % 2 ^ 12 && !a.spilled) = [a] := by
      rw [hsaved, List.filter_cons_of_pos (by simp [hctx, hsp]), List.filter_nil]
    obtain ⟨x, hx, hh, hbytes⟩ := flushArea_writes hsaved hslot hcan.1
    rw [hl]
    have hsame : ∀ (u : State) (k : SchedRegs → SchedRegs), (u.mapSched k).areaBytes x = u.areaBytes x := fun u k =>
      areaBytes_congr rfl rfl rfl rfl rfl rfl rfl
    refine ⟨x, hx, hh, ?_⟩
    rw [hsame]
    exact hbytes

/-- R78, R81, R82. -/
theorem schedulerCommands : SchedulerCommands := by
  intro s p f w
  refine ⟨fun hw => ⟨fun m hm hop => ?_, fun hb hc => ⟨fun hop hrun hpark hctx hg hheld hfork => ?_, fun hop hs => hold_noPool hw hb hc hop hs,
    fun hop => release_done hw hb hc hop, fun hop => flush_begun hw hb hc hop⟩⟩, flush_completes⟩
  · obtain ⟨h, hi⟩ : ∃ h, Command82 m.1 m.2 h := by
      simp only [List.mem_cons, List.not_mem_nil, or_false] at hm
      obtain rfl | rfl | rfl := hm
      · exact ⟨_, .hold⟩
      · exact ⟨_, .release⟩
      · exact ⟨_, .flush⟩
    exact ⟨command_busy hi hw hop, command_zero hi hw hop⟩
  · have hl : Lone s (w.toNat % 2 ^ 12) := ⟨hrun, hpark, hctx, hfork⟩
    exact ⟨hold_full hw hb hc hop hl, fun hs => hold_stops hw hb hc hop hl hs hg hheld⟩

/-- Settles O48: signals enter and leave their lanes in order, a shootdown restarts the harts of its context one by one, and each command of the
scheduler is said by itself. -/
theorem hostCommands : Obligations.HostCommands := ⟨signalLane, shootdowns, schedulerCommands⟩

end Sys2Proof.Claims

namespace Sys2Proof.Claims
open Sys2Proof.Machine

variable {s : State}

/-! ### Saves (R76 to R81) -/

/-- A stopped hart with nothing in flight, queued or buffered, and no stream. -/
structure AtRest (h : Hart) : Prop where
  vqueue : h.vqueue = []
  inflight : h.inflight = []
  pendCsr : h.pendCsr = []
  ended : h.ended = []
  strip : h.strip = {}
  streams : h.r.streams = Vector.replicate 8 none

theorem foldl_same {α β : Type} {f : α → β → α} {a : α} (h : ∀ b, f a b = a) (l : List β) : l.foldl f a = a := by
  induction l with
  | nil => rfl
  | cons b l ih => rw [List.foldl_cons, h, ih]

theorem getD_noStream {h : Hart} (hs : h.r.streams = Vector.replicate 8 none) (n : Nat) : h.r.streams.getD n none = none := by
  rw [hs]
  simp [Vector.getD, Array.getD]

theorem dropUsed_noStream {h : Hart} (hs : h.r.streams = Vector.replicate 8 none) : h.dropUsed = h := by
  refine foldl_same (fun n => ?_) _
  rw [getD_noStream hs]

theorem mcStreams_noStream {h : Hart} (hs : h.r.streams = Vector.replicate 8 none) : h.mcStreams = [] := by
  unfold Hart.mcStreams
  rw [List.filterMap_eq_nil_iff]
  intro n _
  rw [getD_noStream hs]

theorem spillBuffers_noStream (hs : s.hart.r.streams = Vector.replicate 8 none) : s.spillBuffers = s := by
  unfold State.spillBuffers
  rw [mcStreams_noStream hs]
  rfl

/-- A hart at rest as its stop leaves it. -/
def stopped (h : Hart) : Hart := { h with pendCsr := [], inflight := [], freed := [], ended := [], strip := {} }

theorem stopHere_atRest (h : AtRest s.hart) : s.stopHere = (false, { s with hart := stopped s.hart }) := by
  have hsq : s.squash = s := by unfold State.squash; rw [h.vqueue]
  have hops : s.hart.openStrips = [({} : Strip)] := by rw [Hart.openStrips, h.ended, h.strip]; rfl
  have howe : s.hart.owesUpdates = false := by rw [Hart.owesUpdates, h.ended]; rfl
  unfold State.stopHere
  simp only [hsq, h.inflight, List.foldl_nil, h.pendCsr, howe, hops, Bool.false_eq_true, if_false]
  have hst : ({ s.hart with } : Hart).dropUsed = s.hart := dropUsed_noStream h.streams
  simp only [List.flatMap_cons, List.flatMap_nil, List.append_nil, List.foldl_nil, List.isEmpty_nil, Bool.not_true, State.mapHart, hst, h.strip, h.ended, h.inflight, if_true, List.map_nil]
  rfl

/-- A gear that is computed again changes bricks alone. -/
theorem recomputeGear_bricks (s : State) (b : Nat) : ∃ k, s.recomputeGear b = { s with dev := { s.dev with bricks := k } } := by
  unfold State.recomputeGear
  dsimp only
  split
  · exact ⟨_, rfl⟩
  · exact ⟨_, rfl⟩

/-- One area leaves room in its region. -/
theorem makeRegionRoom_one {a : SaveArea} (h : s.dev.saved = [a]) (w : Nat) : s.makeRegionRoom w = s := by
  unfold State.makeRegionRoom
  rw [h, List.filter_cons, List.filter_nil]
  split
  · next heq =>
    split at heq
    · obtain ⟨-, rfl⟩ := List.cons.inj heq
      exact if_pos (.inl (by decide))
    · cases heq
  · rfl

/-- What a save makes of a hart that was at rest (R76 to R81), with the energy that it took. -/
structure Saves (h a : Hart) (uj : Nat) : Prop where
  r : a.r = h.r
  fstat : a.fstat = h.fstat
  fidx : a.fidx = h.fidx
  frm : a.frm = h.frm
  done : a.done = h.done
  aerr : a.aerr = { h.aerr with pending := h.aerr.pending || (h.aerr.ate && !h.aerr.inh && !h.aerr.all.isEmpty) }
  energy : a.energy = h.energy + BitVec.ofNat 48 uj
  uid : a.uid = h.uid
  launch : a.launch = h.launch
  index : a.index = h.index
  eff : a.gears.eff = h.gears.req

/-- Two states with one memory, scheduler, tenants and place of the hart in focus. -/
structure SameMachine (s t : State) : Prop where
  mem : t.dev.mem = s.dev.mem
  sched : t.dev.sched = s.dev.sched
  tenants : t.dev.tenants = s.dev.tenants
  brick : t.hart.brick = s.hart.brick
  num : t.hart.num = s.hart.num

theorem SameMachine.trans {s t u : State} (h : SameMachine s t) (k : SameMachine t u) : SameMachine s u :=
  ⟨k.mem.trans h.mem, k.sched.trans h.sched, k.tenants.trans h.tenants, k.brick.trans h.brick, k.num.trans h.num⟩

theorem freeHart_hart (s : State) : s.freeHart.hart = { brick := s.hart.brick, num := s.hart.num } := rfl
theorem mapTenant_energy (s : State) (v : Nat) (x : Word) :
    ((s.mapTenant v (fun t => { t with energy := t.energy + x })).dev.tenant v).energy = (s.dev.tenant v).energy + x :=
  congrArg Tenant.energy (Device.tenant_setTenant _ _ _)
theorem stopped_machine (s : State) : SameMachine s ((State.mk (stopped s.hart) s.dev).dropFetched (fun _ => true)) := ⟨rfl, rfl, rfl, rfl, rfl⟩

theorem saveHart_atRest (h : AtRest s.hart) (hrun : s.hart.run = .stopped) (hsaved : s.dev.saved = []) (slot : Nat) :
    (s.saveHart slot).hart = { brick := s.hart.brick, num := s.hart.num } ∧ (s.saveHart slot).dev.mem = s.dev.mem ∧
    (s.saveHart slot).dev.sched = s.dev.sched ∧
    ∃ a, (s.saveHart slot).dev.saved = [a] ∧ a.slot = slot ∧ Saves s.hart a.hart a.saveUj ∧
      ((s.saveHart slot).dev.tenant s.hart.vmid).energy = (s.dev.tenant s.hart.vmid).energy + BitVec.ofNat 64 a.saveUj ∧
      a.gearBits = s.dev.thermal.hold.isSome.toNat * 128 + s.brick.gear.toNat * 16 := by
  have hspill : (State.mk (stopped s.hart) s.dev).spillBuffers = State.mk (stopped s.hart) s.dev := spillBuffers_noStream h.streams
  generalize ht : s.saveHart slot = t
  unfold State.saveHart at ht
  rw [hrun] at ht
  extract_lets lost retire at ht
  have hstop : (if retire then (false, s.stopForRetirement) else s.stopHere) = (false, State.mk (stopped s.hart) s.dev) := stopHere_atRest h
  rw [hstop] at ht
  dsimp -zeta only at ht
  extract_lets u atStart spilled uj peer aerr saved a cleaned listed charged at ht
  have hsp : spilled = (State.mk (stopped s.hart) s.dev).dropFetched (fun _ => true) := congrArg (fun x => State.dropFetched x _) hspill
  have hdev : spilled.dev.saved = [] ∧ spilled.dev.thermal = s.dev.thermal ∧ spilled.brick = s.brick := by
    rw [hsp]
    exact ⟨hsaved, rfl, rfl⟩
  obtain ⟨hnone, htherm, hbrick⟩ := hdev
  have hbase : SameMachine s spilled := hsp ▸ stopped_machine s
  have hlist : listed.dev.saved = [a] := by
    have : listed.dev.saved = spilled.dev.saved.map (fun x => if peer.map (·.slot) = some x.slot then { x with peer := some slot } else x) ++ [a] := rfl
    rw [this, hnone, List.map_nil, List.nil_append]
  have hlisted : SameMachine spilled listed := ⟨rfl, rfl, rfl, rfl, rfl⟩
  have hfree : charged.freeHart.dev.saved = [a] := hlist
  have hkeep := (hbase.trans hlisted)
  have hplace : charged.freeHart.hart = { brick := s.hart.brick, num := s.hart.num } := by
    have : charged.hart = listed.hart := rfl
    rw [freeHart_hart, this, hkeep.brick, hkeep.num]
  have hcharged : charged.freeHart.dev.mem = listed.dev.mem ∧ charged.freeHart.dev.sched = listed.dev.sched ∧
      charged.freeHart.dev.tenants = charged.dev.tenants := ⟨rfl, rfl, rfl⟩
  obtain ⟨hmem, hsched, htenants⟩ := hcharged
  obtain ⟨bricks, hk⟩ := recomputeGear_bricks charged.freeHart saved.brick
  have hone : (charged.freeHart.recomputeGear saved.brick).dev.saved = [a] := by rw [hk]; exact hfree
  rw [makeRegionRoom_one hone, hk] at ht
  subst ht
  refine ⟨hplace, hmem.trans hkeep.mem, hsched.trans hkeep.sched, a, hfree, rfl, ⟨rfl, rfl, rfl, rfl, rfl, rfl, rfl, rfl, rfl, rfl, rfl⟩, ?_, ?_⟩
  · have hv : listed.dev.tenant s.hart.vmid = s.dev.tenant s.hart.vmid := by rw [Device.tenant, hkeep.tenants]; rfl
    have hc : (charged.freeHart.dev.tenant s.hart.vmid).energy = (charged.dev.tenant s.hart.vmid).energy := by rw [Device.tenant, htenants]; rfl
    have he : (charged.dev.tenant s.hart.vmid).energy = (listed.dev.tenant s.hart.vmid).energy + BitVec.ofNat 64 a.saveUj :=
      mapTenant_energy listed s.hart.vmid _
    exact hc.trans (he.trans (by rw [hv]))
  · have hb : a.gearBits = spilled.dev.thermal.hold.isSome.toNat * 128 + spilled.brick.gear.toNat * 16 := rfl
    rw [hb, htherm, hbrick]

theorem freeSlot_empty (hsaved : s.dev.saved = []) (hslots : 0 < s.dev.sched.saveSlots) : s.dev.freeSlot = some 0 := by
  unfold Device.freeSlot
  rw [hsaved]
  obtain ⟨n, hn⟩ := Nat.exists_eq_succ_of_ne_zero (Nat.ne_of_gt hslots)
  rw [hn, List.range_succ_eq_map, List.find?_cons_of_pos (by rfl)]

theorem hartAt_focus (hrun : s.hart.run ≠ .free) : s.hartAt s.hart.brick s.hart.num = some s.hart := by
  unfold State.hartAt State.harts
  rw [List.filter_cons_of_pos (by simpa using hrun), List.find?_cons_of_pos (by simp)]

theorem settleHold_idle (h : s.dev.sched.busy = false) : s.settleHold = s := by
  refine if_neg ?_
  rw [h]
  simp only [Bool.false_and, Bool.false_eq_true, not_false_eq_true]

/-- A stopped hart at rest is saved in the lowest slot of an empty pool. -/
theorem exec_hartSave (h : AtRest s.hart) (hrun : s.hart.run = .stopped) (hchange : s.brick.change = none) (hsaved : s.dev.saved = [])
    (hslots : 0 < s.dev.sched.saveSlots) (hbusy : s.dev.sched.busy = false) (hentry : s.hart.entry = none) :
    exec (.hartSave s.hart.brick s.hart.num) s = .next (s.saveHart 0) := by
  obtain ⟨hh, -, hsched, -⟩ := saveHart_atRest h hrun hsaved 0
  have hfree : (s.dev.brick s.hart.brick).change.isNone = true := by
    have : (s.dev.brick s.hart.brick).change = none := hchange
    rw [this]
    rfl
  change execHartSave s.hart.brick s.hart.num s = _
  simp only [execHartSave, hartAt_focus (s := s) (by rw [hrun]; decide), freeSlot_empty hsaved hslots, hrun, hentry, hfree, Option.isNone_none, Bool.and_self, if_true]
  rw [State.withHart_here s _ (by rw [hh]) (by rw [hh]), settleHold_idle (by rw [hsched]; exact hbusy)]

theorem pending_iff (a : Aerr) : (a.pending || (a.ate && !a.inh && !a.all.isEmpty)) = true ↔
    a.pending = true ∨ a.ate = true ∧ a.inh = false ∧ (a.held ≠ none ∨ a.queue ≠ []) := by
  have hall : (!a.all.isEmpty) = true ↔ a.held ≠ none ∨ a.queue ≠ [] := by
    unfold Aerr.all
    cases a.held <;> simp
  rw [Bool.or_eq_true, Bool.and_eq_true, Bool.and_eq_true, hall, Bool.not_eq_true', and_assoc]

theorem gearBits_eq (a b : Bool) : a.toNat * 128 + b.toNat * 16 = (if a = false then 0 else 128) + (if b = true then 16 else 0) := by
  cases a <;> cases b <;> rfl

/-! ### Restores (R77, R80) -/

theorem rereadNeeds_noStream (hs : s.hart.r.streams = Vector.replicate 8 none) : s.rereadNeeds = [] := by
  unfold State.rereadNeeds
  rw [List.flatMap_eq_nil_iff]
  intro x hx
  rw [hs, Vector.toList_replicate] at hx
  rw [List.eq_of_mem_replicate hx]

theorem rereadStreams_noStream (hs : s.hart.r.streams = Vector.replicate 8 none) : s.rereadStreams = s := by
  refine foldl_same (fun n => ?_) _
  rw [getD_noStream hs]

theorem unspillNeeds_noStream (hs : s.hart.r.streams = Vector.replicate 8 none) : s.unspillNeeds = [] := by
  unfold State.unspillNeeds
  rw [mcStreams_noStream hs]
  rfl

theorem unspill_noStream (hs : s.hart.r.streams = Vector.replicate 8 none) : s.unspill = s := by
  unfold State.unspill
  rw [mcStreams_noStream hs]
  rfl

/-- With no stream there is nothing to read again, and the hart runs. -/
theorem endRestore_noStream (hs : s.hart.r.streams = Vector.replicate 8 none) :
    s.endRestore = s.mapHart (fun h => { h.dropRead with run := .running, ckpt := h.r }) := by
  unfold State.endRestore
  rw [rereadNeeds_noStream hs, rereadStreams_noStream hs]
  dsimp only
  rw [unspillNeeds_noStream hs, unspill_noStream hs]
  rfl

theorem dropRead_landed (h : Hart) {x : Landed} (hx : x ∈ h.dropRead.landed) : ∃ e st v, x = .atomic e st v := by
  have := (List.mem_filter.mp hx).2
  cases x with
  | atomic e st v => exact ⟨e, st, v, rfl⟩
  | _ => cases this

/-- What the end of a restore does to the hart of its place. -/
def restoreEnded (s : State) : State := if s.hart.run = .restoring then s.endRestore else s

theorem exec_restoreComplete (b n : Nat) (s : State) : exec (.restoreComplete b n) s = .next (s.withHart b n restoreEnded) := rfl

theorem restore_completes (hrun : s.hart.run = .restoring) (hs : s.hart.r.streams = Vector.replicate 8 none) :
    Completes (.restoreComplete s.hart.brick s.hart.num) s fun t => ∃ l : List Landed, (∀ x ∈ l, ∃ e st v, x = .atomic e st v) ∧
      t = { s with hart := { s.hart with run := .running, ckpt := s.hart.r, landed := l } } := by
  have h : restoreEnded s = s.mapHart (fun h => { h.dropRead with run := .running, ckpt := h.r }) := (if_pos hrun).trans (endRestore_noStream hs)
  refine ⟨_, exec_restoreComplete _ _ s, s.hart.dropRead.landed, fun x hx => dropRead_landed s.hart hx, ?_⟩
  rw [s.withHart_here restoreEnded (by rw [h]; rfl) (by rw [h]; rfl), h]
  rfl

theorem restore_waits (hrun : s.hart.run ≠ .restoring) : exec (.restoreComplete s.hart.brick s.hart.num) s = .next s := by
  have h : restoreEnded s = s := if_neg hrun
  rw [exec_restoreComplete, s.withHart_here restoreEnded (by rw [h]) (by rw [h]), h]

/-- R76, R77, R80, R81, R132, R147. -/
theorem savesAndRestores : SavesAndRestores := by
  intro s
  refine ⟨fun hrun hchange hsaved hslots hbusy hentry hv hi hp he hst hstr => ?_, restore_completes, restore_waits⟩
  have hrest : AtRest s.hart := ⟨hv, hi, hp, he, hst, hstr⟩
  obtain ⟨hh, hm, -, a, ha, hslot, k, htenant, hbits⟩ := saveHart_atRest hrest hrun hsaved 0
  refine ⟨_, exec_hartSave hrest hrun hchange hsaved hslots hbusy hentry, by rw [hh], hm, a, ha, hslot, k.r, k.fstat, k.fidx, k.frm, k.done, ?_, ?_,
    k.energy, htenant, k.uid, k.launch, k.index, k.eff, ?_⟩
  · rw [k.aerr]
  · rw [k.aerr]; exact pending_iff _
  · rw [hbits, gearBits_eq]
    simp only [Option.isSome_eq_false_iff, Option.isNone_iff_eq_none]

end Sys2Proof.Claims

namespace Sys2Proof.Claims
open Sys2Proof.Machine

/-! ### Bytes of records (R53, R57) -/

theorem part_eq_leAt (l : List Byte) (o n : Nat) : part l o n = leAt l o n := by
  have hv : ∀ l : List Byte, value l = ofLe l := fun l => by
    induction l with
    | nil => rfl
    | cons b l ih => rw [ofLe, ← ih]; rfl
  exact hv _

theorem leAt_lt (l : List Byte) (o n : Nat) : leAt l o n < 256 ^ n :=
  Nat.lt_of_lt_of_le (ofLe_lt _) (Nat.pow_le_pow_right (by decide) (List.length_take_le _ _))

theorem leAt_low (l : List Byte) (o : Nat) : leAt l o 8 % 4 = leAt l o 1 % 4 := by
  unfold leAt
  cases l.drop o with
  | nil => rfl
  | cons b rest => simp only [List.take_succ_cons, List.take_zero, ofLe]; omega

/-- What stands behind some bytes. -/
theorem part_skip {a l : List Byte} {o n : Nat} (h : a.length ≤ o) : part (a ++ l) o n = part l (o - a.length) n := by
  rw [part, part, List.drop_append, List.drop_eq_nil_of_le h, List.nil_append]

/-- A number that stands first. -/
theorem part_leBytes (n v : Nat) (l : List Byte) : part (leBytes n v ++ l) 0 n = v % 256 ^ n := by
  rw [part_eq_leAt, leAt, List.drop_zero, List.take_left' (leBytes_length n v), ofLe_leBytes]

theorem recordLegal_iff (l : List Byte) : recordLegal l = true ↔ FieldsLegal l := by
  simp only [recordLegal, FieldsLegal, part_eq_leAt, leAt_low, Bool.and_eq_true, beq_iff_eq, decide_eq_true_eq, Bool.not_eq_true', beq_eq_false_iff_ne]
  omega

/-- The fields of a completion record. -/
structure HoldsCompletion (m : List Byte) (l : Launch) (status : Nat) (tend : Word) : Prop where
  seq : part m 0 4 = l.seq % 2 ^ 32
  status : part m 4 1 = status % 256
  queue : part m 6 2 = l.queue % 2 ^ 16
  usertag : part m 8 4 = l.record.usertag % 2 ^ 32
  tend : part m 24 8 = tend.toNat
  ran : part m 40 4 = l.ran % 2 ^ 32

theorem record64_holds (l : Launch) (status : Nat) (tend : Word) : HoldsCompletion (l.record64 status tend) l status tend := by
  constructor <;> simp only [Launch.record64, List.append_assoc, zeros]
  · exact part_leBytes _ _ _
  · simp only [part_skip, leBytes_length, Nat.reduceLeDiff, Nat.reduceSub, part_leBytes, Nat.reducePow]
  · simp only [part_skip, leBytes_length, List.length_replicate, Nat.reduceLeDiff, Nat.reduceSub, part_leBytes, Nat.reducePow]
  · simp only [part_skip, leBytes_length, List.length_replicate, Nat.reduceLeDiff, Nat.reduceSub, part_leBytes, Nat.reducePow]
  · simp only [part_skip, leBytes_length, List.length_replicate, Nat.reduceLeDiff, Nat.reduceSub, part_leBytes, Nat.reducePow]
    exact Nat.mod_eq_of_lt tend.isLt
  · simp only [part_skip, leBytes_length, List.length_replicate, Nat.reduceLeDiff, Nat.reduceSub, part_leBytes, Nat.reducePow]

theorem record64_length (l : Launch) (status : Nat) (tend : Word) : (l.record64 status tend).length = 64 := by
  simp only [Launch.record64, zeros, List.length_append, leBytes_length, List.length_replicate, Nat.reduceAdd]

/-! ### The completion of a launch (R54, R55, R57) -/

/-- QDONE moves, and nothing else of the queue but the launches that it has passed. -/
theorem moveDone_eq : ∀ (m : Nat) (k : Queue), ∃ x, moveDone m k = { k with done := (moveDone m k).done, doneSet := x } ∧ k.done ≤ (moveDone m k).done
  | 0, k => ⟨_, rfl, Nat.le_refl _⟩
  | m + 1, k => by
    unfold moveDone
    split
    · obtain ⟨x, hx, hle⟩ := moveDone_eq m { k with done := k.done + 1, doneSet := k.doneSet.filter (· != k.done + 1) }
      exact ⟨x, hx, Nat.le_trans (Nat.le_succ _) hle⟩
    · exact ⟨_, rfl, Nat.le_refl _⟩

/-- QDONE passes the launch that follows it. -/
theorem moveDone_passes {m : Nat} {k : Queue} (h : k.done + 1 ∈ k.doneSet) : k.done + 1 ≤ (moveDone (m + 1) k).done := by
  unfold moveDone
  rw [if_pos (List.contains_iff_mem.mpr h)]
  obtain ⟨_, -, hle⟩ := moveDone_eq m { k with done := k.done + 1, doneSet := k.doneSet.filter (· != k.done + 1) }
  exact hle

/-- The three steps of a completion: its record, its signal and QDONE. -/
def recorded (s : State) (l : Launch) (status : Nat) : State :=
  if l.record.cmplSet && s.dev.populated (completionAt (s.dev.queue l.queue) l.seq + 63) then
    s.mapDev (fun d => d.writeAccess (completionAt (s.dev.queue l.queue) l.seq) (l.record64 status d.time.dtime))
  else s
def signalled (s : State) (l : Launch) (refused : Bool) : State :=
  if l.record.dsig && !refused then
    s.setSignal l.record.vmid l.record.donesig (s.signal l.record.vmid l.record.donesig + l.record.doneval)
  else s
def passedBy (s : State) (l : Launch) : State := s.mapQueue l.queue (fun k => moveDone 9 { k with doneSet := l.seq :: k.doneSet })

/-- What the steps of a completion keep. -/
structure SameHost (s t : State) : Prop where
  hart : t.hart = s.hart
  queue : ∀ q, t.dev.queue q = s.dev.queue q
  even : ∀ v, (t.dev.tenant v).even = (s.dev.tenant v).even
  barriers : t.dev.barriers = s.dev.barriers
  slots : t.dev.slots = s.dev.slots
  launches : ∃ g : Launch → Launch, (∀ x, (g x).queue = x.queue ∧ (g x).seq = x.seq) ∧ t.dev.launches = s.dev.launches.map g

theorem SameHost.refl (s : State) : SameHost s s :=
  ⟨rfl, fun _ => rfl, fun _ => rfl, rfl, rfl, fun x => x, fun _ => ⟨rfl, rfl⟩, (List.map_id' _).symm⟩

theorem SameHost.trans {s t u : State} (h : SameHost s t) (k : SameHost t u) : SameHost s u := by
  obtain ⟨g, hg, hl⟩ := h.launches
  obtain ⟨g', hg', hl'⟩ := k.launches
  exact ⟨k.hart.trans h.hart, fun q => (k.queue q).trans (h.queue q), fun v => (k.even v).trans (h.even v), k.barriers.trans h.barriers,
    k.slots.trans h.slots, g' ∘ g, fun x => ⟨(hg' _).1.trans (hg x).1, (hg' _).2.trans (hg x).2⟩, by rw [hl', hl, List.map_map]⟩

theorem writeAccess_host (s : State) (off : Nat) (l : List Byte) : SameHost s { s with dev := s.dev.writeAccess off l } := by
  obtain ⟨_, _, _, _, _, h⟩ := s.dev.writeAccess_dev off l
  rw [h]
  exact ⟨rfl, fun _ => rfl, fun _ => rfl, rfl, rfl, fun x => x, fun _ => ⟨rfl, rfl⟩, (List.map_id' _).symm⟩

theorem recorded_host (s : State) (l : Launch) (status : Nat) : SameHost s (recorded s l status) := by
  unfold recorded
  split
  · exact writeAccess_host s (completionAt (s.dev.queue l.queue) l.seq) (l.record64 status s.dev.time.dtime)
  · exact .refl s

theorem setSignal_host (s : State) (v sig : Nat) (w : Word) : SameHost s (s.setSignal v sig w) := by
  refine ⟨rfl, fun _ => rfl, fun y => ?_, rfl, rfl, _, fun x => ?_, rfl⟩
  · have ht : (s.setSignal v sig w).dev.tenant y =
        if y = v then { s.dev.tenant v with sigs := insertKey sig w (s.dev.tenant v).sigs } else s.dev.tenant y := tenant_setTenant_eq _ _ _ _
    rw [ht]
    split
    · next h => rw [h]
    · rfl
  · split <;> exact ⟨rfl, rfl⟩

theorem signalled_host (s : State) (l : Launch) (refused : Bool) : SameHost s (signalled s l refused) := by
  unfold signalled
  split
  · exact setSignal_host s _ _ _
  · exact .refl s

/-- The completion of a launch whose tenant has its event ring off. -/
theorem complete_quiet {s : State} {l : Launch} (heven : (s.dev.tenant (s.dev.queue l.queue).vmid).even = false) (status : Nat) (refused : Bool) :
    s.complete l status refused = passedBy (signalled (recorded s l status) l refused) l := by
  have hoff : ((passedBy (signalled (recorded s l status) l refused) l).dev.tenant (s.dev.queue l.queue).vmid).even = false := by
    have h := ((recorded_host s l status).trans (signalled_host _ l refused)).even (s.dev.queue l.queue).vmid
    exact h.trans heven
  have hpost : ∀ code data, (passedBy (signalled (recorded s l status) l refused) l).mapDev
      (fun d => d.postEvent (s.dev.queue l.queue).vmid code l.queue l.seq data) = passedBy (signalled (recorded s l status) l refused) l := fun code data => by
    rw [State.mapDev, postEvent_disabled hoff]
  have h : s.complete l status refused =
      (let t := passedBy (signalled (recorded s l status) l refused) l
       let t := if l.record.evt then t.mapDev (fun d => d.postEvent (s.dev.queue l.queue).vmid 0x01 l.queue l.seq (BitVec.ofNat 64 status)) else t
       if refused then t.mapDev (fun d => d.postEvent (s.dev.queue l.queue).vmid 0x02 l.queue l.seq (BitVec.ofNat 64 status)) else t) := rfl
  rw [h]
  dsimp only
  rw [hpost, ite_self, hpost, ite_self]

theorem passedBy_queue (s : State) (l : Launch) : ((passedBy s l).dev.queue l.queue) =
    moveDone 9 { s.dev.queue l.queue with doneSet := l.seq :: (s.dev.queue l.queue).doneSet } := queue_mapQueue _ _ _

/-- The steps of a completion after its record keep memory. -/
theorem complete_mem {s : State} {l : Launch} (heven : (s.dev.tenant (s.dev.queue l.queue).vmid).even = false) (status : Nat) (refused : Bool) :
    (s.complete l status refused).dev.mem = (recorded s l status).dev.mem := by
  rw [complete_quiet heven]
  show (signalled (recorded s l status) l refused).dev.mem = _
  unfold signalled
  split <;> rfl

theorem recorded_none {s : State} {l : Launch} (h : l.record.cmplSet = false) (status : Nat) : recorded s l status = s := by
  refine if_neg ?_
  rw [h, Bool.false_and]
  exact Bool.false_ne_true

/-- A completion record stands at its place. -/
theorem recorded_holds {s : State} {l : Launch} (h : l.record.cmplSet = true) (hm : Memory.wf s.dev.mem = true)
    (hin : completionAt (s.dev.queue l.queue) l.seq + 64 ≤ s.dev.gddr) (status : Nat) :
    HoldsCompletion (Memory.readBytes (recorded s l status).dev.mem (completionAt (s.dev.queue l.queue) l.seq) 64) l status s.dev.time.dtime := by
  have hpop : s.dev.populated (completionAt (s.dev.queue l.queue) l.seq + 63) = true := decide_eq_true (Nat.lt_of_lt_of_le (Nat.lt_succ_self _) hin)
  have hr : recorded s l status = s.mapDev (fun d => d.writeAccess (completionAt (s.dev.queue l.queue) l.seq) (l.record64 status d.time.dtime)) :=
    if_pos (by rw [h, hpop]; rfl)
  rw [hr, State.mapDev, Device.writeAccess_mem, (wrote_bytes hm _ _ (record64_length l status s.dev.time.dtime)).1]
  exact record64_holds l status s.dev.time.dtime

end Sys2Proof.Claims

namespace Sys2Proof.Claims
open Sys2Proof.Machine

variable {s : State} {q n : Nat} {l : Launch}

/-! ### STARTAT -/

theorem exec_startatReached (s : State) (q n : Nat) : exec (.startatReached q n) s =
    .next { s with dev := { s.dev with launches := s.dev.launches.map (fun l => if l.queue = q ∧ l.seq = n then
      (if l.record.startat ≤ s.dev.time.dtime then { l with startSeen := true } else l) else l) } } := rfl

theorem startat_reached (hl : s.dev.launches = [l]) (hq : l.queue = q) (hn : l.seq = n) (h : l.record.startat ≤ s.dev.time.dtime) :
    exec (.startatReached q n) s = .next { s with dev := { s.dev with launches := [{ l with startSeen := true }] } } := by
  rw [exec_startatReached, hl, List.map_singleton, if_pos ⟨hq, hn⟩, if_pos h]

theorem startat_waits (hl : s.dev.launches = [l]) (hq : l.queue = q) (hn : l.seq = n) (h : s.dev.time.dtime < l.record.startat) :
    exec (.startatReached q n) s = .next s := by
  rw [exec_startatReached, hl, List.map_singleton, if_pos ⟨hq, hn⟩, if_neg (BitVec.not_le.mpr h), ← hl]

/-! ### A launch completes (R55, R57) -/

theorem launch_one (hl : s.dev.launches = [l]) (hq : l.queue = q) (hn : l.seq = n) : s.dev.launch (q, n) = some l := by
  rw [Device.launch, hl, List.find?_cons_of_pos (by simp [hq, hn])]

theorem exec_launchComplete (hl : s.dev.launches = [l]) (hq : l.queue = q) (hn : l.seq = n) : exec (.launchComplete q n) s =
    if s.finished l then .next ((s.complete l l.status false).forget (q, n)) else .next s := by
  change execLaunchComplete q n s = _
  unfold execLaunchComplete
  rw [launch_one hl hq hn]

theorem finished_closing (hmark : l.record.marker = false) (hq : l.queue = q) (hn : l.seq = n) (h : ∃ h ∈ s.dev.closing, h.launch = (q, n)) :
    s.finished l = false := by
  obtain ⟨x, hx, hlaunch⟩ := h
  have hany : (s.harts ++ s.dev.closing).any (fun h => h.launch == (q, n)) = true :=
    List.any_eq_true.mpr ⟨x, List.mem_append_right _ hx, by simp [hlaunch]⟩
  simp only [State.finished, hmark, State.underWay, hq, hn, hany, Bool.true_or, Bool.not_true, Bool.and_false, Bool.false_eq_true, if_false]

/-- Nothing of a launch is left on the device, in a save area, on the links or in an engine. -/
structure Gone (s : State) (id : Nat × Nat) : Prop where
  harts : ∀ h ∈ s.harts, h.launch ≠ id
  saved : s.dev.saved = []
  closing : ∀ h ∈ s.dev.closing, h.launch ≠ id
  outstanding : s.dev.outstanding = []
  slotQueue : s.dev.slotQueue = []
  courses : s.dev.courses = []

theorem Gone.underWay {id : Nat × Nat} (h : Gone s id) : s.underWay id = false := by
  have hany : (s.harts ++ s.dev.closing).any (fun h => h.launch == id) = false := by
    rw [List.any_eq_false]
    intro x hx
    rw [beq_iff_eq]
    exact (List.mem_append.mp hx).elim (h.harts x) (h.closing x)
  simp only [State.underWay, hany, h.saved, h.outstanding, h.slotQueue, h.courses, List.any_nil, Bool.or_self]

theorem finished_gone (hmark : l.record.marker = false) (hfail : l.failures = []) (hended : ∀ i, i < hartCount l.record.levels → i ∈ l.ended)
    (h : Gone s (l.queue, l.seq)) : s.finished l = true := by
  have hall : (List.range (hartCount l.record.levels)).all l.ended.contains = true := by
    rw [List.all_eq_true]
    intro i hi
    exact List.contains_iff_mem.mpr (hended i (List.mem_range.mp hi))
  simp only [State.finished, hmark, hfail, hall, h.underWay, Bool.or_true, List.isEmpty_nil, Bool.not_false, Bool.and_self, Bool.false_eq_true, if_false]

theorem status_eq (l : Launch) : l.status = if l.uncorrectable = true then 8 else if l.gangFailed = true then 7 else if l.trapped = true then 5
    else if l.asyncLeft = true then 6 else 0 := rfl

theorem status_lt (l : Launch) : l.status % 256 = l.status := by
  rw [status_eq]
  repeat' split
  all_goals rfl

/-- What a completion leaves, once its launch is forgotten. -/
theorem complete_forget {s : State} {l : Launch} (hl : s.dev.launches = [l]) (heven : (s.dev.tenant (s.dev.queue l.queue).vmid).even = false) :
    let t := (s.complete l l.status false).forget (l.queue, l.seq)
    t.dev.launches = [] ∧ t.hart = s.hart ∧ ((s.dev.queue l.queue).done + 1 = l.seq → l.seq ≤ (t.dev.queue l.queue).done) ∧
    (∀ b ∈ t.dev.barriers, ¬ (b.queue = l.queue ∧ b.seq = l.seq)) ∧ (∀ x ∈ t.dev.slots, x.2.2 ≠ (l.queue, l.seq)) := by
  dsimp only
  rw [complete_quiet heven]
  have k := (recorded_host s l l.status).trans (signalled_host (recorded s l l.status) l false)
  generalize signalled (recorded s l l.status) l false = u at k
  refine ⟨?_, k.hart, fun hd => ?_, fun b hb => ?_, fun x hx => ?_⟩
  · obtain ⟨g, hg, hgl⟩ := k.launches
    show u.dev.launches.filter _ = []
    rw [hgl, hl, List.map_singleton, List.filter_cons_of_neg (by simp [hg]), List.filter_nil]
  · show l.seq ≤ ((passedBy u l).dev.queue l.queue).done
    rw [passedBy_queue, k.queue]
    have h := moveDone_passes (m := 8) (k := { s.dev.queue l.queue with doneSet := l.seq :: (s.dev.queue l.queue).doneSet })
      (hd.symm ▸ .head _)
    rwa [hd] at h
  · have := (List.mem_filter.mp hb).2
    rintro ⟨h1, h2⟩
    simp [h1, h2] at this
  · have := (List.mem_filter.mp hx).2
    simpa using this

theorem complete_signal {s : State} {l : Launch} (hsig : l.record.dsig = true) (heven : (s.dev.tenant (s.dev.queue l.queue).vmid).even = false) :
    ((s.complete l l.status false).forget (l.queue, l.seq)).signal l.record.vmid l.record.donesig =
      s.signal l.record.vmid l.record.donesig + l.record.doneval := by
  have hrec : ∀ y m, (recorded s l l.status).signal y m = s.signal y m := fun y m => by
    unfold recorded
    split
    · rw [State.signal, State.mapDev, tenant_writeAccess]; rfl
    · rfl
  have hs : signalled (recorded s l l.status) l false = (recorded s l l.status).setSignal l.record.vmid l.record.donesig
      ((recorded s l l.status).signal l.record.vmid l.record.donesig + l.record.doneval) := if_pos (by rw [hsig]; rfl)
  rw [complete_quiet heven]
  show (signalled (recorded s l l.status) l false).signal l.record.vmid l.record.donesig = _
  rw [hs, signal_setSignal, if_pos ⟨rfl, rfl⟩, hrec]

theorem launch_completes (hl : s.dev.launches = [l]) (hq : l.queue = q) (hn : l.seq = n) (hmark : l.record.marker = false) (hfail : l.failures = [])
    (hended : ∀ i, i < hartCount l.record.levels → i ∈ l.ended) (hgone : Gone s (q, n)) (heven : (s.dev.tenant (s.dev.queue q).vmid).even = false) :
    Completes (.launchComplete q n) s fun t =>
      t.dev.launches = [] ∧ t.hart = s.hart ∧ ((s.dev.queue q).done + 1 = n → n ≤ (t.dev.queue q).done) ∧
      (∀ b ∈ t.dev.barriers, ¬ (b.queue = q ∧ b.seq = n)) ∧ (∀ x ∈ t.dev.slots, x.2.2 ≠ (q, n)) ∧
      (l.record.flags.getLsbD 2 = true → t.signal l.record.vmid l.record.donesig = s.signal l.record.vmid l.record.donesig + l.record.doneval) ∧
      (l.record.flags.getLsbD 0 = true → MemoryCanonical s → completionAt (s.dev.queue q) n + 64 ≤ s.dev.gddr →
        HoldsCompletion (Memory.readBytes t.dev.mem (completionAt (s.dev.queue q) n) 64) l l.status s.dev.time.dtime) := by
  subst hq hn
  refine ⟨_, (exec_launchComplete hl rfl rfl).trans (if_pos (finished_gone hmark hfail hended hgone)), ?_⟩
  obtain ⟨h1, h2, h3, h4, h5⟩ := complete_forget hl heven
  refine ⟨h1, h2, h3, h4, h5, fun hs => complete_signal hs heven, fun hc hm hin => ?_⟩
  have hmem : ((s.complete l l.status false).forget (l.queue, l.seq)).dev.mem = (recorded s l l.status).dev.mem := complete_mem heven l.status false
  rw [hmem]
  exact recorded_holds hc hm.1 hin l.status

/-- R52, R54, R55, R57. -/
theorem launchCompletion : LaunchCompletion := by
  intro s q n l hl hq hn
  refine ⟨startat_reached hl hq hn, startat_waits hl hq hn, fun hmark hclose => ?_,
    fun hmark hfail hended hharts hsaved hclosing hout hslots hcourses heven _ => ?_⟩
  · rw [exec_launchComplete hl hq hn, finished_closing hmark hq hn hclose, if_neg Bool.false_ne_true]
  · obtain ⟨t, hx, h1, h2, h3, h4, h5, h6, h7⟩ := launch_completes hl hq hn hmark hfail hended ⟨hharts, hsaved, hclosing, hout, hslots, hcourses⟩ heven
    refine ⟨t, hx, h1, h2, h3, h4, h5, h6, fun hc hm hin => ?_⟩
    have k := h7 hc hm hin
    exact ⟨by rw [k.seq, hn], k.usertag, k.tend, k.ran, by rw [k.status, status_lt, status_eq]⟩

end Sys2Proof.Claims

namespace Sys2Proof.Claims
open Sys2Proof.Machine

variable {s : State} {q : Nat} {l : List Byte}

/-! ### Reading a record (R49, R53, R54) -/

/-- The record at HEAD. -/
def headRecord (s : State) (q : Nat) : List Byte :=
  Memory.readBytes s.dev.mem (offsetOf (s.dev.queue q).base + 128 * (s.dev.queue q).head) 128

/-- The conditions for a record to be read. -/
def Due (s : State) (q : Nat) : Prop :=
  s.dev.gmc.schedRunning = true ∧ (s.dev.queue q).en = true ∧ (s.dev.queue q).head ≠ (s.dev.queue q).tail ∧
  (s.dev.queue q).reads + 1 ≤ (s.dev.queue q).done + 8

/-- The state in which the granules that a record lies in have been checked. -/
def met (s : State) (q : Nat) : State :=
  s.mapDev (fun d => d.meet ((List.range 128).map (offsetOf (s.dev.queue q).base + 128 * (s.dev.queue q).head + ·) ++
    d.tableGranules (recordOf (headRecord s q))))

/-- HEAD has passed a record. -/
def headPassed (s : State) (q : Nat) : State :=
  s.mapQueue q (fun k => { k with head := (k.head + 1) % ringRecords k.qsz, reads := k.reads + 1 })

/-- The launch of a record. -/
def launchOf (s : State) (q : Nat) : Launch := { queue := q, seq := (s.dev.queue q).reads + 1, record := recordOf (headRecord s q) }

theorem due_iff (s : State) (q : Nat) : Due s q ↔ (s.dev.gmc.schedRunning && (s.dev.queue q).en && (s.dev.queue q).head != (s.dev.queue q).tail &&
    (s.dev.queue q).reads + 1 ≤ (s.dev.queue q).done + 8) = true := by
  simp only [Due, Bool.and_eq_true, bne_iff_ne, decide_eq_true_eq, and_assoc]

theorem recordRead_waits (h : ¬ Due s q) : exec (.recordRead q) s = .next s := by
  rw [due_iff, Bool.not_eq_true] at h
  exact if_pos (by rw [h]; rfl)

theorem recordRead_refused (h : Due s q) {st : Nat} (hr : (met s q).dev.refusal q (headRecord s q) = some st) :
    exec (.recordRead q) s = .next ((headPassed (met s q) q).complete (launchOf s q) st true) := by
  rw [due_iff] at h
  change execRecordRead q s = _
  unfold execRecordRead
  dsimp only
  rw [if_neg (by rw [h]; exact Bool.false_ne_true)]
  change (match (met s q).dev.refusal q (headRecord s q) with
    | some st => Host.Outcome.next ((headPassed (met s q) q).complete (launchOf s q) st true)
    | none => _) = _
  rw [hr]

/-- The launch that a record which is not refused becomes. -/
def taken (s : State) (q : Nat) : Launch :=
  { launchOf s q with
    nodes := ((met s q).dev.gangTable (recordOf (headRecord s q))).getD []
    sigSeen := !(recordOf (headRecord s q)).wsig ||
      (recordOf (headRecord s q)).waitval ≤ (met s q).signal (recordOf (headRecord s q)).vmid (recordOf (headRecord s q)).waitsig
    startSeen := (recordOf (headRecord s q)).startat ≤ (met s q).dev.time.dtime }

/-- A launch comes to the scheduler. -/
def enlist (s : State) (x : Launch) : State := s.mapDev (fun d => { d with launches := d.launches ++ [x] })

theorem recordRead_taken (h : Due s q) (hr : (met s q).dev.refusal q (headRecord s q) = none) :
    exec (.recordRead q) s = .next (enlist ((headPassed (met s q) q).activate q (recordOf (headRecord s q)).vmid) (taken s q)) := by
  rw [due_iff] at h
  change execRecordRead q s = _
  unfold execRecordRead
  dsimp only
  rw [if_neg (by rw [h]; exact Bool.false_ne_true)]
  change (match (met s q).dev.refusal q (headRecord s q) with
    | some st => _
    | none => Host.Outcome.next _) = _
  rw [hr]
  rfl

theorem met_checks (s : State) (q : Nat) : s.dev.SameButChecks (met s q).dev := s.dev.meet_checks _

theorem met_host (s : State) (q : Nat) : SameHost s (met s q) := by
  obtain ⟨⟨_, _, _, _, _, _, h⟩, -⟩ := met_checks s q
  refine ⟨rfl, fun _ => ?_, fun _ => ?_, ?_, ?_, fun x => x, fun _ => ⟨rfl, rfl⟩, ?_⟩ <;> rw [h]
  · rfl
  · rfl
  · exact (List.map_id' _).symm

/-! ### Whether a record is refused (R54) -/

/-- A record on one device with no placement, no scheduled slots, no wait and no gang. -/
structure Simple (l : List Byte) : Prop where
  places : ∀ i, i < 4 → part l (48 + i) 1 = 0
  gangnodes : part l 112 8 = 0
  slotmask : part l 56 4 = 0
  wdone : (BitVec.ofNat 16 (part l 2 2)).getLsbD 3 = false
  gang : (BitVec.ofNat 16 (part l 2 2)).getLsbD 5 = false

/-- A record of the queue's tenant for a context that is valid for it. -/
def Owned (d : Device) (q : Nat) (l : List Byte) : Prop :=
  part l 26 1 = (d.queue q).vmid ∧ part l 24 2 ≠ 0 ∧ (d.ctxent (part l 24 2)).valid = true ∧ (d.ctxent (part l 24 2)).vmid = part l 26 1

theorem record_levels (l : List Byte) {x : Level} (h : Simple l) (hx : x ∈ (recordOf l).levels.toList) : x.place = 0 := by
  have hl : (recordOf l).levels = Vector.ofFn (fun i => { extent := leAt l (32 + 4 * i.val) 4, place := leAt l (48 + i.val) 1 }) := rfl
  rw [hl, Vector.mem_toList_iff, Vector.mem_ofFn] at hx
  obtain ⟨i, rfl⟩ := hx
  have := h.places i.val i.isLt
  rwa [part_eq_leAt] at this

theorem record_one (h : Simple l) : spatialLevels (recordOf l).levels = [] := by
  unfold spatialLevels
  rw [List.filter_eq_nil_iff]
  intro x hx
  simp [record_levels l h hx]

theorem record_spans (h : Simple l) : (recordOf l).spansDevices = false := by
  unfold Record.spansDevices
  rw [List.any_eq_false]
  intro x hx
  simp [record_levels l h hx]

theorem record_gang (h : Simple l) : (recordOf l).gang = false := by
  have h5 : (recordOf l).flags.getLsbD 5 = false := by rw [← h.gang, part_eq_leAt]; rfl
  rw [Record.gang, h5, record_spans h]
  rfl

theorem record_loop (h : Simple l) : (recordOf l).loopLegal = true := by
  have hused : (recordOf l).levels.toList.takeWhile (fun x => x.place != 0) = [] := by
    cases hc : (recordOf l).levels.toList with
    | nil => rfl
    | cons x rest => exact List.takeWhile_cons_of_neg (by simp [record_levels l h (x := x) (by rw [hc]; exact .head _)])
  have hcount : hartCount (recordOf l).levels = 1 := by rw [hartCount, record_one h]; rfl
  unfold Record.loopLegal
  dsimp only
  rw [hused, hcount]
  have hall : ((recordOf l).levels.toList.drop ([] : List Level).length).all (fun x => x.place == 0) = true := by
    rw [List.all_eq_true]
    intro x hx
    simp [record_levels l h (List.mem_of_mem_drop hx)]
  rw [hall]
  rfl

theorem record_table (d : Device) (h : Simple l) : d.gangTable (recordOf l) = some [] := by
  have h0 : (recordOf l).gangnodes.toNat = 0 := by
    have : leAt l 112 8 = 0 := by rw [← part_eq_leAt]; exact h.gangnodes
    show (BitVec.ofNat 64 (leAt l 112 8)).toNat = 0
    rw [this]
    rfl
  simp only [Device.gangTable, record_spans h, h0, Bool.not_false, if_true]

/-- The limits of R53 that cut a field's bits. -/
structure Limits (l : List Byte) : Prop where
  ctx : leAt l 24 2 < 4096
  vmid : leAt l 26 1 < 64
  lgph : leAt l 28 1 < 4
  tiles : leAt l 29 1 ≤ 8
  streams : leAt l 30 1 ≤ 8
  waitsig : leAt l 72 2 < 1024
  donesig : leAt l 88 2 < 1024

theorem FieldsLegal.limits (h : FieldsLegal l) : Limits l := by
  simp only [FieldsLegal, part_eq_leAt] at h
  constructor <;> omega

theorem record_vmid (h : FieldsLegal l) : (recordOf l).vmid = part l 26 1 := by
  rw [part_eq_leAt]
  exact Nat.mod_eq_of_lt h.limits.vmid

theorem record_ctx (h : FieldsLegal l) : (recordOf l).ctx = part l 24 2 := by
  rw [part_eq_leAt]
  exact Nat.mod_eq_of_lt h.limits.ctx

theorem refusal_fields (d : Device) (h : ¬ FieldsLegal l) : d.refusal q l = some 1 := by
  have hl : recordLegal l = false := by rw [← Bool.not_eq_true, recordLegal_iff]; exact h
  exact if_pos (by rw [hl]; rfl)

theorem refusal_step {d : Device} (h : FieldsLegal l) (hs : Simple l) : (!(recordLegal l) || (d.gangTable (recordOf l)).isNone) = false := by
  rw [(recordLegal_iff l).mpr h, record_table d hs]
  rfl

theorem refusal_owner {d : Device} (h : FieldsLegal l) (hs : Simple l) (hno : ¬ Owned d q l) : d.refusal q l = some 2 := by
  have hc : (recordOf l).vmid ≠ (d.queue q).vmid ∨ (recordOf l).ctx = 0 ∨ (!(d.ctxent (recordOf l).ctx).valid) = true ∨
      (d.ctxent (recordOf l).ctx).vmid ≠ (recordOf l).vmid := by
    rw [record_vmid h, record_ctx h, Bool.not_eq_true']
    by_contra hc
    simp only [not_or, not_not, Bool.not_eq_false] at hc
    exact hno ⟨hc.1, hc.2.1, hc.2.2.1, hc.2.2.2⟩
  unfold Device.refusal
  dsimp only
  rw [refusal_step h hs, if_neg Bool.false_ne_true, if_pos hc]

/-! ### What an empty brick holds (R64) -/

/-- An empty brick with its four lane groups sound. -/
def emptyRoom (b : Nat) : Room := { brick := b, harts := [0, 1, 2, 3], lgs := 15, tiles := 16, streams := 16 }

theorem room_empty {d : Device} {b : Nat} (hret : (d.brick b).retired = 0) (hclosing : d.closing = []) : d.room [] b = emptyRoom b := by
  have hlanes : d.closingLanes b = 0 := by rw [Device.closingLanes, hclosing]; rfl
  unfold Device.room
  rw [hret, hlanes]
  simp only [List.filter_nil, List.any_nil, heldBy, List.foldl_nil, emptyRoom, Config.hartsPerBrick]
  rfl

theorem laneSets_full {n : Nat} (hn : n = 0 ∨ n = 1 ∨ n = 2 ∨ n = 4) : ((laneSets n).find? (fun x => x &&& 15 == x)) = some ((laneSets n).headD 0) := by
  obtain rfl | rfl | rfl | rfl := hn <;> decide

/-- Every request finds place on an empty brick: hart 0 on the lowest lane groups. -/
theorem grant_empty {n tiles streams b : Nat} (hn : n = 0 ∨ n = 1 ∨ n = 2 ∨ n = 4) (ht : tiles ≤ 16) (hs : streams ≤ 16) :
    (emptyRoom b).grant n tiles streams = some (0, (laneSets n).headD 0) := by
  unfold Room.grant emptyRoom
  dsimp only
  rw [laneSets_full hn]
  exact if_pos ⟨ht, hs⟩

theorem laneGroups_mem {r : Record} (h : r.lgph < 4) : r.laneGroups = 0 ∨ r.laneGroups = 1 ∨ r.laneGroups = 2 ∨ r.laneGroups = 4 := by
  have : r.lgph = 0 ∨ r.lgph = 1 ∨ r.lgph = 2 ∨ r.lgph = 3 := by omega
  obtain h | h | h | h := this <;> simp [Record.laneGroups, h]

theorem canEverHold_simple {d : Device} (h : FieldsLegal l) (hs : Simple l) {b : Nat} (hb : b < 1024) (hready : d.gmc.readyBrick.getLsbD b = true)
    (hcourse : d.gmc.failCourse.getLsbD (b / 16) = false) (hret : (d.brick b).retired = 0) : d.canEverHold (recordOf l) = true := by
  have hroom : d.cleared.room [] b = emptyRoom b := room_empty hret rfl
  have hgrant := grant_empty (b := b) (laneGroups_mem (r := recordOf l) (Nat.mod_lt _ (by decide)))
    (Nat.le_trans h.limits.tiles (by decide : 8 ≤ 16)) (Nat.le_trans h.limits.streams (by decide : 8 ≤ 16))
  have hmem : b ∈ d.everBricks := List.mem_filter.mpr ⟨List.mem_range.mpr hb, by
    rw [Device.mayTakeWork, hready, courseOf, hcourse]
    rfl⟩
  unfold Device.canEverHold
  split
  · rfl
  · rw [record_gang hs, if_neg Bool.false_ne_true, List.any_eq_true]
    exact ⟨b, hmem, by rw [hroom]; exact (congrArg Option.isSome hgrant).trans rfl⟩

theorem refusal_none {d : Device} (h : FieldsLegal l) (hs : Simple l) (hown : Owned d q l) {b : Nat} (hb : b < 1024)
    (hready : d.gmc.readyBrick.getLsbD b = true) (hcourse : d.gmc.failCourse.getLsbD (b / 16) = false) (hret : (d.brick b).retired = 0) :
    d.refusal q l = none := by
  have hc : ¬ ((recordOf l).vmid ≠ (d.queue q).vmid ∨ (recordOf l).ctx = 0 ∨ (!(d.ctxent (recordOf l).ctx).valid) = true ∨
      (d.ctxent (recordOf l).ctx).vmid ≠ (recordOf l).vmid) := by
    obtain ⟨h1, h2, h3, h4⟩ := hown
    rw [record_vmid h, record_ctx h]
    simp [h1, h2, h3, h4.trans h1]
  have hwdone : (recordOf l).wdone = false := by rw [← hs.wdone, part_eq_leAt]; rfl
  have hmask : (recordOf l).slotmask = 0 := by rw [← hs.slotmask, part_eq_leAt]; rfl
  unfold Device.refusal
  dsimp only
  rw [refusal_step h hs, if_neg Bool.false_ne_true, if_neg hc, record_loop hs, hwdone, canEverHold_simple h hs hb hready hcourse hret, hmask]
  rfl

/-! ### What a read record leaves -/

/-- HEAD has passed the record, and the launch has its number. -/
def Stepped (s t : State) (q : Nat) : Prop :=
  (t.dev.queue q).head = ((s.dev.queue q).head + 1) % 2 ^ ((s.dev.queue q).qsz + 6) ∧ (t.dev.queue q).reads = (s.dev.queue q).reads + 1

theorem headPassed_queue (s : State) (q : Nat) : (headPassed s q).dev.queue q =
    { s.dev.queue q with head := ((s.dev.queue q).head + 1) % ringRecords (s.dev.queue q).qsz, reads := (s.dev.queue q).reads + 1 } := queue_mapQueue _ _ _

theorem headPassed_stepped (s : State) (q : Nat) : Stepped s (headPassed (met s q) q) q := by
  unfold Stepped
  rw [headPassed_queue, (met_host s q).queue]
  exact ⟨rfl, rfl⟩

theorem signalled_refused (s : State) (x : Launch) : signalled s x true = s := by
  refine if_neg ?_
  rw [Bool.not_true, Bool.and_false]
  exact Bool.false_ne_true

theorem recorded_launches (s : State) (x : Launch) (st : Nat) : (recorded s x st).dev.launches = s.dev.launches := by
  unfold recorded
  split
  · obtain ⟨_, _, _, _, _, h⟩ := s.dev.writeAccess_dev (completionAt (s.dev.queue x.queue) x.seq) (x.record64 st s.dev.time.dtime)
    rw [State.mapDev, h]
  · rfl

theorem complete_refused {v : State} {x : Launch} (heven : (v.dev.tenant (v.dev.queue x.queue).vmid).even = false) (st : Nat) :
    ((v.complete x st true).dev.queue x.queue).head = (v.dev.queue x.queue).head ∧
    ((v.complete x st true).dev.queue x.queue).reads = (v.dev.queue x.queue).reads ∧
    (v.complete x st true).dev.launches = v.dev.launches ∧ (v.complete x st true).hart = v.hart := by
  have hr := recorded_host v x st
  rw [complete_quiet heven, signalled_refused, passedBy_queue, hr.queue]
  obtain ⟨_, h, -⟩ := moveDone_eq 9 { v.dev.queue x.queue with doneSet := x.seq :: (v.dev.queue x.queue).doneSet }
  rw [h]
  exact ⟨rfl, rfl, recorded_launches v x st, hr.hart⟩

theorem met_mem (s : State) (q : Nat) : (met s q).dev.mem = s.dev.mem := (met_checks s q).mem

theorem met_gddr (s : State) (q : Nat) : (met s q).dev.gddr = s.dev.gddr := by
  obtain ⟨⟨_, _, _, _, _, _, h⟩, -⟩ := met_checks s q
  rw [h]

theorem met_launches (s : State) (q : Nat) : (met s q).dev.launches = s.dev.launches := by
  obtain ⟨⟨_, _, _, _, _, _, h⟩, -⟩ := met_checks s q
  rw [h]

theorem record_refused (hdue : Due s q) (heven : (s.dev.tenant (s.dev.queue q).vmid).even = false) {st : Nat}
    (hr : (met s q).dev.refusal q (headRecord s q) = some st) : Completes (.recordRead q) s fun t =>
      Stepped s t q ∧ t.dev.launches = s.dev.launches ∧ t.hart = s.hart ∧
      ((launchOf s q).record.cmplSet = false → t.dev.mem = s.dev.mem) ∧
      ((launchOf s q).record.cmplSet = true → MemoryCanonical s →
        completionAt (s.dev.queue q) ((s.dev.queue q).reads + 1) + 64 ≤ s.dev.gddr →
        HoldsCompletion (Memory.readBytes t.dev.mem (completionAt (s.dev.queue q) ((s.dev.queue q).reads + 1)) 64) (launchOf s q) st (met s q).dev.time.dtime) := by
  have hq : (headPassed (met s q) q).dev.queue (launchOf s q).queue = _ := headPassed_queue (met s q) q
  rw [(met_host s q).queue] at hq
  have he : ((headPassed (met s q) q).dev.tenant ((headPassed (met s q) q).dev.queue (launchOf s q).queue).vmid).even = false := by
    rw [hq]
    exact ((met_host s q).even _).trans heven
  have hc : completionAt ((headPassed (met s q) q).dev.queue (launchOf s q).queue) (launchOf s q).seq =
      completionAt (s.dev.queue q) ((s.dev.queue q).reads + 1) := by rw [hq]; rfl
  obtain ⟨h1, h2, h3, h4⟩ := complete_refused he st
  obtain ⟨hs1, hs2⟩ := headPassed_stepped s q
  have hmem : (headPassed (met s q) q).dev.mem = s.dev.mem := met_mem s q
  have hgddr : (headPassed (met s q) q).dev.gddr = s.dev.gddr := met_gddr s q
  refine ⟨_, recordRead_refused hdue hr, ⟨h1.trans hs1, h2.trans hs2⟩, h3.trans (met_launches s q), h4.trans (met_host s q).hart, fun hcm => ?_,
    fun hcm hm hin => ?_⟩
  · rw [complete_mem he, recorded_none hcm, hmem]
  · rw [complete_mem he, ← hc]
    refine recorded_holds hcm (by rw [hmem]; exact hm.1) ?_ st
    rw [hc, hgddr]
    exact hin

/-- Only clocks of queues and tenants differ (R61). -/
structure SameButClocks (s t : State) : Prop where
  head : ∀ y, (t.dev.queue y).head = (s.dev.queue y).head
  reads : ∀ y, (t.dev.queue y).reads = (s.dev.queue y).reads
  mem : t.dev.mem = s.dev.mem
  hart : t.hart = s.hart
  launches : t.dev.launches = s.dev.launches

theorem SameButClocks.refl (s : State) : SameButClocks s s := ⟨fun _ => rfl, fun _ => rfl, rfl, rfl, rfl⟩

theorem SameButClocks.trans {s t u : State} (h : SameButClocks s t) (k : SameButClocks t u) : SameButClocks s u :=
  ⟨fun y => (k.head y).trans (h.head y), fun y => (k.reads y).trans (h.reads y), k.mem.trans h.mem, k.hart.trans h.hart, k.launches.trans h.launches⟩

theorem mapTenant_clocks (s : State) (v : Nat) (g : Tenant → Tenant) : SameButClocks s (s.mapTenant v g) := ⟨fun _ => rfl, fun _ => rfl, rfl, rfl, rfl⟩

theorem mapQueue_clocks (s : State) (q n : Nat) : SameButClocks s (s.mapQueue q (fun k => { k with qvt := n })) := by
  have h : ∀ y, ((s.mapQueue q (fun k => { k with qvt := n })).dev.queue y) = if y = q then { s.dev.queue q with qvt := n } else s.dev.queue y :=
    fun y => queue_setQueue_eq _ _ _ _
  refine ⟨fun y => ?_, fun y => ?_, rfl, rfl, rfl⟩ <;> rw [h] <;> split
  · next e => rw [e]
  · rfl
  · next e => rw [e]
  · rfl

theorem SameButClocks.ite {s t u : State} (c : Prop) [Decidable c] (h : SameButClocks s t) (k : SameButClocks s u) :
    SameButClocks s (if c then t else u) := by
  split
  · exact h
  · exact k

/-- A queue and its tenant become active: their clocks alone change (R61). -/
theorem activate_clocks (s : State) (q v : Nat) : SameButClocks s (s.activate q v) := by
  unfold State.activate
  dsimp only
  generalize hu : (if (distinct (List.map (fun x => x.queue) s.dev.launches)).contains q = true then s else _) = u
  have h : SameButClocks s u := by
    rw [← hu]
    split
    · exact .refl s
    · split
      · exact mapQueue_clocks s q _
      · exact .refl s
  refine h.trans (.ite _ (.refl u) ?_)
  split
  · exact mapTenant_clocks u v _
  · exact .refl u

theorem taken_record (h : FieldsLegal l) : HoldsRecord l (recordOf l) := by
  have k := h.limits
  simp only [HoldsRecord, part_eq_leAt]
  refine ⟨rfl, rfl, rfl, rfl, rfl, Nat.mod_eq_of_lt k.ctx, Nat.mod_eq_of_lt k.vmid, rfl, Nat.mod_eq_of_lt k.lgph, rfl, rfl, rfl,
    Nat.mod_eq_of_lt k.waitsig, rfl, Nat.mod_eq_of_lt k.donesig, rfl, rfl, fun i hi => ?_⟩
  simp only [recordOf, Vector.getD]
  simp [Array.getD, hi]

theorem record_taken (hdue : Due s q) (hr : (met s q).dev.refusal q (headRecord s q) = none) (hl : FieldsLegal (headRecord s q)) :
    Completes (.recordRead q) s fun t => Stepped s t q ∧ t.dev.mem = s.dev.mem ∧ t.hart = s.hart ∧
      ∃ x, t.dev.launches = s.dev.launches ++ [x] ∧ x.queue = q ∧ x.seq = (s.dev.queue q).reads + 1 ∧ HoldsRecord (headRecord s q) x.record ∧
        x.placed = [] ∧ x.ended = [] := by
  have k := activate_clocks (headPassed (met s q) q) q (recordOf (headRecord s q)).vmid
  have hx := recordRead_taken hdue hr
  generalize (headPassed (met s q) q).activate q (recordOf (headRecord s q)).vmid = u at k hx
  obtain ⟨h1, h2⟩ := headPassed_stepped s q
  have hmem : (headPassed (met s q) q).dev.mem = s.dev.mem := met_mem s q
  have hhart : (headPassed (met s q) q).hart = s.hart := (met_host s q).hart
  have hlaunches : (headPassed (met s q) q).dev.launches = s.dev.launches := met_launches s q
  have hadd : (enlist u (taken s q)).dev.launches = u.dev.launches ++ [taken s q] := rfl
  refine ⟨enlist u (taken s q), hx, ⟨(k.head q).trans h1, (k.reads q).trans h2⟩, k.mem.trans hmem, k.hart.trans hhart, taken s q, ?_, rfl, rfl,
    taken_record hl, rfl, rfl⟩
  rw [hadd, k.launches, hlaunches]

/-- R49, R53, R54, R57. -/
theorem launchRecords : LaunchRecords := by
  intro s q
  refine ⟨recordRead_waits, fun hdue heven => ⟨fun st hst => ?_, fun hl ⟨h1, h2, h3, h4, h5⟩ hown ⟨b, hb, hready, hcourse, hret⟩ => ?_⟩⟩
  · have hr : (met s q).dev.refusal q (headRecord s q) = some st ∧ st < 256 := by
      obtain ⟨rfl, h⟩ | ⟨rfl, h, ⟨h1, h2, h3, h4, h5⟩, hno⟩ := hst
      · exact ⟨refusal_fields _ h, by decide⟩
      · refine ⟨refusal_owner h ⟨h1, h2, h3, h4, h5⟩ (fun hown => hno ?_), by decide⟩
        obtain ⟨⟨_, _, _, _, _, _, hd⟩, -⟩ := met_checks s q
        rw [hd] at hown
        exact hown
    obtain ⟨t, hx, hs, hl, hh, hno, hyes⟩ := record_refused hdue heven hr.1
    have hflag : (launchOf s q).record.cmplSet = (BitVec.ofNat 16 (part (headRecord s q) 2 2)).getLsbD 0 := by rw [part_eq_leAt]; rfl
    rw [hflag] at hno hyes
    refine ⟨t, hx, hs, hl, hh, hno, fun hc hm hin => ?_⟩
    have k := hyes hc hm hin
    refine ⟨k.seq, k.status.trans (Nat.mod_eq_of_lt hr.2), k.queue, k.usertag.trans ?_⟩
    rw [part_eq_leAt]
    exact Nat.mod_eq_of_lt (leAt_lt _ 4 4)
  · have hd : (met s q).dev.refusal q (headRecord s q) = none := by
      obtain ⟨⟨_, _, _, _, _, _, hd⟩, -⟩ := met_checks s q
      rw [hd]
      exact refusal_none hl ⟨h1, h2, h3, h4, h5⟩ hown hb hready hcourse hret
    exact record_taken hdue hd hl

end Sys2Proof.Claims

namespace Sys2Proof.Claims
open Sys2Proof.Machine

/-! ### A hart comes to its brick (R63, R111) -/

/-- What the mapping of its first registers keeps of a hart. -/
structure KeepsHart (h g : Hart) : Prop where
  brick : g.brick = h.brick
  num : g.num = h.num
  run : g.run = h.run
  queue : g.queue = h.queue
  seq : g.seq = h.seq
  index : g.index = h.index
  ctx : g.ctx = h.ctx
  vmid : g.vmid = h.vmid
  bound : g.bound = h.bound
  strip : g.strip = h.strip
  fstat : g.fstat = h.fstat
  gears : g.gears = h.gears
  pc : g.r.pc = h.r.pc
  x : g.r.x = h.r.x
  vl : g.r.vl = h.r.vl
  vtype : g.r.vtype = h.r.vtype

theorem KeepsHart.refl (h : Hart) : KeepsHart h h := ⟨rfl, rfl, rfl, rfl, rfl, rfl, rfl, rfl, rfl, rfl, rfl, rfl, rfl, rfl, rfl, rfl⟩

theorem KeepsHart.trans {h g k : Hart} (a : KeepsHart h g) (b : KeepsHart g k) : KeepsHart h k :=
  ⟨b.brick.trans a.brick, b.num.trans a.num, b.run.trans a.run, b.queue.trans a.queue, b.seq.trans a.seq, b.index.trans a.index, b.ctx.trans a.ctx,
    b.vmid.trans a.vmid, b.bound.trans a.bound, b.strip.trans a.strip, b.fstat.trans a.fstat, b.gears.trans a.gears, b.pc.trans a.pc, b.x.trans a.x,
    b.vl.trans a.vl, b.vtype.trans a.vtype⟩

/-- Two devices with the same bricks for work: what the placement of a hart asks of a device. -/
structure SameBricks (d e : Device) : Prop where
  gmc : e.gmc = d.gmc
  closing : e.closing = d.closing
  retired : ∀ b, (e.brick b).retired = (d.brick b).retired

theorem SameBricks.refl (d : Device) : SameBricks d d := ⟨rfl, rfl, fun _ => rfl⟩

theorem SameBricks.trans {d e f : Device} (h : SameBricks d e) (k : SameBricks e f) : SameBricks d f :=
  ⟨k.gmc.trans h.gmc, k.closing.trans h.closing, fun b => (k.retired b).trans (h.retired b)⟩

theorem SameBricks.setBrick (d : Device) {b : Nat} {k : Brick} (h : k.retired = (d.brick b).retired) : SameBricks d (d.setBrick b k) := by
  refine ⟨rfl, rfl, fun c => ?_⟩
  by_cases hc : c = b
  · rw [hc, Device.brick_setBrick, h]
  · rw [Device.brick_setBrick_ne d b c k hc]

/-- A step that changes storage of bricks and of the hart in focus alone. -/
structure Maps (s t : State) : Prop where
  bricks : SameBricks s.dev t.dev
  parked : t.dev.parked = s.dev.parked
  launches : t.dev.launches = s.dev.launches
  hart : KeepsHart s.hart t.hart

theorem Maps.refl (s : State) : Maps s s := ⟨.refl _, rfl, rfl, .refl _⟩

theorem Maps.trans {s t u : State} (h : Maps s t) (k : Maps t u) : Maps s u :=
  ⟨h.bricks.trans k.bricks, k.parked.trans h.parked, k.launches.trans h.launches, h.hart.trans k.hart⟩

theorem Maps.foldl {α : Type} {f : State → α → State} (h : ∀ (s : State) (a : α), Maps s (f s a)) : ∀ (l : List α) (s : State), Maps s (l.foldl f s)
  | [], s => .refl s
  | a :: l, s => (h s a).trans (foldl h l (f s a))

theorem Maps.mapHart (s : State) {f : Hart → Hart} (hf : ∀ h, KeepsHart h (f h)) : Maps s (s.mapHart f) := ⟨.refl _, rfl, rfl, hf _⟩

theorem Maps.setBrick (s : State) {b : Nat} {k : Brick} (h : k.retired = (s.dev.brick b).retired) :
    Maps s (s.mapDev (fun d => d.setBrick b k)) := ⟨.setBrick _ h, rfl, rfl, .refl _⟩

theorem relieveLane_maps (b lg : Nat) : ∀ (n : Nat) (s : State), Maps s (State.relieveLane b lg n s)
  | 0, s => .refl s
  | n + 1, s => by
    unfold State.relieveLane
    split
    · exact .refl s
    · refine Maps.trans ?_ (relieveLane_maps b lg n _)
      exact ⟨.setBrick _ rfl, rfl, rfl, .refl _⟩

theorem relieve_maps (s : State) (b : Nat) : Maps s (s.relieve b) := Maps.foldl (fun s lg => relieveLane_maps b lg _ s) _ s

theorem mapCopies_maps (s : State) {f : Regs → Regs} (hf : ∀ r, (f r).pc = r.pc ∧ (f r).x = r.x ∧ (f r).vl = r.vl ∧ (f r).vtype = r.vtype) :
    Maps s (s.mapHart (fun h => h.mapCopies f)) :=
  Maps.mapHart s (fun h => ⟨rfl, rfl, rfl, rfl, rfl, rfl, rfl, rfl, rfl, rfl, rfl, rfl, (hf h.r).1, (hf h.r).2.1, (hf h.r).2.2.1, (hf h.r).2.2.2⟩)

theorem setName_maps (s : State) (v : Nat) (m : GroupName) : Maps s (s.setName v m) := mapCopies_maps s (fun _ => ⟨rfl, rfl, rfl, rfl⟩)

theorem nameGroup_maps (s : State) (v : Nat) (vl : BitVec 14) (t : VType) : Maps s (s.nameGroup v vl t) := by
  unfold State.nameGroup
  dsimp only
  split
  · exact Maps.mapHart s (fun _ => ⟨rfl, rfl, rfl, rfl, rfl, rfl, rfl, rfl, rfl, rfl, rfl, rfl, rfl, rfl, rfl, rfl⟩)
  · exact setName_maps s _ _

theorem firstMap_maps (s : State) : Maps s s.firstMap := by
  unfold State.firstMap
  split
  · exact .refl s
  · refine (Maps.trans ?_ (nameGroup_maps _ _ _ _)).trans (relieve_maps _ _)
    exact mapCopies_maps s (fun _ => ⟨rfl, rfl, rfl, rfl⟩)

theorem recomputeGear_maps (s : State) (b : Nat) : Maps s (s.recomputeGear b) := by
  unfold State.recomputeGear
  dsimp only
  split
  · exact ⟨.setBrick _ rfl, rfl, rfl, .refl _⟩
  · exact .refl s

theorem zeroLocal_retired (k : Brick) (lgs : BitVec 4) : (k.zeroLocal lgs).retired = k.retired := by
  unfold Brick.zeroLocal
  generalize setBits 4 lgs.toNat = l
  induction l generalizing k with
  | nil => rfl
  | cons g l ih => rw [List.foldl_cons, ih]

theorem grant_retired (k : Brick) (lgs : BitVec 4) (ctx vmid : Nat) : (k.grant lgs ctx vmid).retired = k.retired := zeroLocal_retired _ lgs

/-! ### Bringing a hart into its place -/

/-- A place where no hart is. -/
def FreePlace (s : State) (b n : Nat) : Prop := ∀ x ∈ s.harts, ¬ (x.brick = b ∧ x.num = n)

theorem mem_harts {s : State} {x : Hart} : x ∈ s.harts ↔ (x = s.hart ∨ x ∈ s.dev.parked) ∧ x.run ≠ .free := by
  unfold State.harts
  rw [List.mem_filter, List.mem_cons]
  simp

/-- The harts that are parked once another place is in focus. -/
theorem mem_parked_focus {s : State} {b n : Nat} (haway : ¬ (s.hart.brick = b ∧ s.hart.num = n)) {x : Hart} :
    x ∈ (s.focus b n).dev.parked ↔ (x = s.hart ∧ s.hart.run ≠ .free) ∨ (x ∈ s.dev.parked ∧ ¬ (x.brick = b ∧ x.num = n)) := by
  have hrest : x ∈ s.dev.parked.filter (fun h => !(h.brick == b && h.num == n)) ↔ x ∈ s.dev.parked ∧ ¬ (x.brick = b ∧ x.num = n) := by
    rw [List.mem_filter]
    simp [imp_iff_not_or]
  unfold State.focus
  rw [if_neg haway]
  dsimp only
  split
  · next h => rw [hrest]; exact ⟨.inr, fun k => k.elim (fun k => absurd h k.2) id⟩
  · next h => rw [List.mem_cons, hrest]; exact ⟨fun k => k.imp (fun e => ⟨e, h⟩) id, fun k => k.imp (fun e => e.1) id⟩

/-- The place of the hart in focus, once it is back. -/
theorem focus_back_hart {s u : State} {b n : Nat} (hown : OwnPlace s) (haway : ¬ (s.hart.brick = b ∧ s.hart.num = n))
    (hparked : u.dev.parked = (s.focus b n).dev.parked) (hback : ¬ (u.hart.brick = s.hart.brick ∧ u.hart.num = s.hart.num)) :
    (u.focus s.hart.brick s.hart.num).hart = if s.hart.run = .free then { brick := s.hart.brick, num := s.hart.num } else s.hart := by
  have hhart : (u.focus s.hart.brick s.hart.num).hart =
      (u.dev.parked.find? (fun h => h.brick == s.hart.brick && h.num == s.hart.num)).getD { brick := s.hart.brick, num := s.hart.num } := by
    unfold State.focus
    rw [if_neg hback]
  rw [hhart, hparked]
  split
  · next hfree =>
    have hnone : (s.focus b n).dev.parked.find? (fun h => h.brick == s.hart.brick && h.num == s.hart.num) = none := by
      rw [List.find?_eq_none]
      intro x hx
      rcases (mem_parked_focus haway).mp hx with ⟨-, hne⟩ | ⟨hx, -⟩
      · exact absurd hfree hne
      · simpa [imp_iff_not_or] using hown x hx
    rw [hnone]
    rfl
  · next hne =>
    rw [(State.focus_away hne haway).1, List.find?_cons_of_pos (by simp)]
    rfl

section
variable {f : State → State} {s : State} {b n : Nat}

/-- A hart that is put into the free place in focus comes to the others, which stay. -/
theorem puts_here (hown : OwnPlace s) (hplace : s.hart.brick = b ∧ s.hart.num = n) (hgone : s.hart.run = .free) {u : State}
    (hparked : u.dev.parked = s.dev.parked) (hb : u.hart.brick = b) (hn : u.hart.num = n) (hrun : u.hart.run ≠ .free) :
    (∀ x, x ∈ u.harts ↔ x ∈ s.harts ∨ x = u.hart) ∧ OwnPlace u := by
  refine ⟨fun x => ?_, ?_⟩
  · rw [mem_harts, mem_harts, hparked]
    constructor
    · rintro ⟨rfl | hx, hne⟩
      · exact .inr rfl
      · exact .inl ⟨.inr hx, hne⟩
    · rintro (⟨rfl | hx, hne⟩ | rfl)
      · exact absurd hgone hne
      · exact ⟨.inr hx, hne⟩
      · exact ⟨.inl rfl, hrun⟩
  · unfold OwnPlace
    rw [hparked, hb, hn, ← hplace.1, ← hplace.2]
    exact hown

/-- A hart that is put into a free place elsewhere comes to the others, which stay. -/
theorem puts_away (hown : OwnPlace s) (hfree : FreePlace s b n) (hplace : ¬ (s.hart.brick = b ∧ s.hart.num = n)) {u : State}
    (hparked : u.dev.parked = (s.focus b n).dev.parked) (hb : u.hart.brick = b) (hn : u.hart.num = n) (hrun : u.hart.run ≠ .free) :
    (∀ x, x ∈ (u.focus s.hart.brick s.hart.num).harts ↔ x ∈ s.harts ∨ x = u.hart) ∧ OwnPlace (u.focus s.hart.brick s.hart.num) := by
  have hback : ¬ (u.hart.brick = s.hart.brick ∧ u.hart.num = s.hart.num) := by
    rw [hb, hn]
    exact fun h => hplace ⟨h.1.symm, h.2.symm⟩
  have hhart := focus_back_hart hown hplace hparked hback
  have hmem : ∀ x, x ∈ (u.focus s.hart.brick s.hart.num).dev.parked ↔ x = u.hart ∨ (x ∈ s.dev.parked ∧ ¬ (x.brick = b ∧ x.num = n)) := fun x => by
    rw [mem_parked_focus hback, hparked, mem_parked_focus hplace]
    constructor
    · rintro (⟨rfl, -⟩ | ⟨⟨rfl, -⟩ | hx, hno⟩)
      · exact .inl rfl
      · exact absurd ⟨rfl, rfl⟩ hno
      · exact .inr hx
    · rintro (rfl | ⟨hx, hno⟩)
      · exact .inl ⟨rfl, hrun⟩
      · exact .inr ⟨.inr ⟨hx, hno⟩, fun h => (hown x hx).elim (fun k => k h.1) (fun k => k h.2)⟩
  refine ⟨fun x => ?_, fun x hx => ?_⟩
  · rw [mem_harts, mem_harts, hhart, hmem]
    constructor
    · rintro ⟨hx | rfl | ⟨hx, -⟩, hne⟩
      · split at hx
        · rw [hx] at hne; exact absurd rfl hne
        · exact .inl ⟨.inl hx, hne⟩
      · exact .inr rfl
      · exact .inl ⟨.inr hx, hne⟩
    · rintro (⟨rfl | hx, hne⟩ | rfl)
      · exact ⟨.inl (if_neg hne).symm, hne⟩
      · exact ⟨.inr (.inr ⟨hx, hfree x (mem_harts.mpr ⟨.inr hx, hne⟩)⟩), hne⟩
      · exact ⟨.inr (.inl rfl), hrun⟩
  · obtain ⟨h1, h2⟩ := u.focus_place s.hart.brick s.hart.num
    rw [h1, h2]
    rcases (hmem x).mp hx with rfl | ⟨hx, -⟩
    · exact not_and_or.mp hback
    · exact hown x hx

/-- A hart that is put into a free place comes to the others, which stay. -/
theorem withHart_puts (hown : OwnPlace s) (hfree : FreePlace s b n)
    (hparked : (f (s.focus b n)).dev.parked = (s.focus b n).dev.parked) (hb : (f (s.focus b n)).hart.brick = b) (hn : (f (s.focus b n)).hart.num = n)
    (hrun : (f (s.focus b n)).hart.run ≠ .free) :
    (∀ x, x ∈ (s.withHart b n f).harts ↔ x ∈ s.harts ∨ x = (f (s.focus b n)).hart) ∧ OwnPlace (s.withHart b n f) := by
  unfold State.withHart
  by_cases hplace : s.hart.brick = b ∧ s.hart.num = n
  · have hgone : s.hart.run = .free := by
      by_contra hne
      exact hfree s.hart (mem_harts.mpr ⟨.inl rfl, hne⟩) hplace
    have hfocus : s.focus b n = s := if_pos hplace
    rw [hfocus] at hparked hb hn hrun ⊢
    have hsame : (f s).focus s.hart.brick s.hart.num = f s := if_pos ⟨hb.trans hplace.1.symm, hn.trans hplace.2.symm⟩
    rw [hsame]
    exact puts_here hown hplace hgone hparked hb hn hrun
  · exact puts_away hown hfree hplace hparked hb hn hrun

end

end Sys2Proof.Claims

namespace Sys2Proof.Claims
open Sys2Proof.Machine

/-! ### Members of one barrier, and runs of spatial-brick indices (R56, R297) -/

theorem indexTuple_length : ∀ (sp : List Level) (i : Nat), (indexTuple sp i).length = sp.length
  | [], _ => rfl
  | _ :: rest, i => congrArg (· + 1) (indexTuple_length rest i)

/-- Two lists of indices that agree at every level in what one function tells of it agree in what a coarser one tells. -/
theorem zip_map_coarser {f g : Level × Nat → Nat} (h : ∀ (x : Level) (m n : Nat), f (x, m) = f (x, n) → g (x, m) = g (x, n)) :
    ∀ {sp : List Level} {a c : List Nat}, a.length = sp.length → c.length = sp.length →
      (sp.zip a).map f = (sp.zip c).map f → (sp.zip a).map g = (sp.zip c).map g
  | [], _, _, _, _, _ => rfl
  | x :: sp, m :: a, n :: c, ha, hc, heq => by
    simp only [List.zip_cons_cons, List.map_cons, List.cons.injEq] at heq ⊢
    exact ⟨h x m n heq.1, zip_map_coarser h (Nat.succ.inj ha) (Nat.succ.inj hc) heq.2⟩

/-- A level at which the members of one barrier of a scope may differ. -/
def mayDiffer (scope : Nat) (x : Level) : Bool := x.place == 2 || (x.place == 3 && scope ≥ 3) || scope ≥ 4

/-- The index of a hart at one level, where the members of one barrier of a scope agree. -/
def sharedIndex (scope : Nat) (x : Level × Nat) : Nat := if mayDiffer scope x.1 then 0 else x.2

/-- What the members of one barrier of a scope have in common. -/
def barrierKey (ls : Vector Level 4) (scope i : Nat) : List Nat :=
  ((spatialLevels ls).zip (indexTuple (spatialLevels ls) i)).map (sharedIndex scope)

theorem sharedIndex_eq_iff (scope : Nat) (x : Level) (m n : Nat) :
    (m == n || (x.place == 2) || (x.place == 3 && scope ≥ 3) || scope ≥ 4) = true ↔ sharedIndex scope (x, m) = sharedIndex scope (x, n) := by
  have hsplit : (m == n || (x.place == 2) || (x.place == 3 && scope ≥ 3) || scope ≥ 4) = (m == n || mayDiffer scope x) := by
    simp only [mayDiffer, Bool.or_assoc]
  rw [hsplit]
  unfold sharedIndex
  cases mayDiffer scope x <;> simp

theorem zip_all_iff (scope : Nat) : ∀ {sp : List Level} {a c : List Nat}, a.length = sp.length → c.length = sp.length →
    ((sp.zip (a.zip c)).all (fun x => x.2.1 == x.2.2 || (x.1.place == 2) || (x.1.place == 3 && scope ≥ 3) || scope ≥ 4) = true ↔
      (sp.zip a).map (sharedIndex scope) = (sp.zip c).map (sharedIndex scope))
  | [], _, _, _, _ => by simp
  | x :: sp, m :: a, n :: c, ha, hc => by
    rw [List.zip_cons_cons, List.zip_cons_cons, List.zip_cons_cons, List.zip_cons_cons, List.all_cons, List.map_cons, List.map_cons, List.cons.injEq,
      Bool.and_eq_true, sharedIndex_eq_iff, zip_all_iff scope (Nat.succ.inj ha) (Nat.succ.inj hc)]

theorem sameBarrier_iff (ls : Vector Level 4) (scope i j : Nat) : sameBarrier ls scope i j = true ↔ barrierKey ls scope i = barrierKey ls scope j :=
  zip_all_iff scope (indexTuple_length _ i) (indexTuple_length _ j)

theorem barrierKey_wider {ls : Vector Level 4} {i j : Nat} (h : barrierKey ls 2 i = barrierKey ls 2 j) : barrierKey ls 3 i = barrierKey ls 3 j := by
  refine zip_map_coarser (fun x m n => ?_) (indexTuple_length _ i) (indexTuple_length _ j) h
  unfold sharedIndex mayDiffer
  by_cases h2 : x.place = 2 <;> by_cases h3 : x.place = 3 <;> simp [h2, h3]

/-- The harts of one run differ at the spatial-brick level alone. -/
theorem barrierKey_of_block {r : Record} {i j : Nat} (h : r.block i = r.block j) : barrierKey r.levels 2 i = barrierKey r.levels 2 j := by
  refine zip_map_coarser (fun x m n => ?_) (indexTuple_length _ i) (indexTuple_length _ j) h
  unfold sharedIndex mayDiffer
  by_cases h2 : x.place = 2 <;> simp [h2]

/-! ### Locality (R56) -/

/-- What R56 asks of the bricks of two harts of a launch, each given by its index and its brick. -/
structure Near (r : Record) (x y : Nat × Nat) : Prop where
  course : sameBarrier r.levels 2 x.1 y.1 = true → courseOf x.2 = courseOf y.2
  wythe : sameBarrier r.levels 3 x.1 y.1 = true → wytheOf x.2 = wytheOf y.2
  run : r.hasRuns = true → (x.2 = y.2 ↔ r.block x.1 = r.block y.1)

theorem Near.refl (r : Record) (x : Nat × Nat) : Near r x x := ⟨fun _ => rfl, fun _ => rfl, fun _ => ⟨fun _ => rfl, fun _ => rfl⟩⟩

theorem Near.symm {r : Record} {x y : Nat × Nat} (h : Near r x y) : Near r y x where
  course := fun k => (h.course ((sameBarrier_iff _ _ _ _).mpr ((sameBarrier_iff _ _ _ _).mp k).symm)).symm
  wythe := fun k => (h.wythe ((sameBarrier_iff _ _ _ _).mpr ((sameBarrier_iff _ _ _ _).mp k).symm)).symm
  run := fun k => ⟨fun e => ((h.run k).mp e.symm).symm, fun e => ((h.run k).mpr e.symm).symm⟩

theorem wytheOf_of_course {a b : Nat} (h : courseOf a = courseOf b) : wytheOf a = wytheOf b := by
  unfold courseOf at h
  unfold wytheOf
  omega

variable {l : Launch} {i b : Nat}

theorem anchor_some {scope a : Nat} (h : l.anchor scope i = some a) :
    ∃ x ∈ l.home, x.2 = a ∧ barrierKey l.record.levels scope i = barrierKey l.record.levels scope x.1 := by
  unfold Launch.anchor at h
  obtain ⟨x, hx, rfl⟩ := Option.map_eq_some_iff.mp h
  have hsame := List.find?_some (p := fun x : Nat × Nat => sameBarrier l.record.levels scope i x.1) hx
  exact ⟨x, List.mem_of_find?_eq_some hx, rfl, (sameBarrier_iff _ _ _ _).mp hsame⟩

theorem anchor_none {scope : Nat} (h : l.anchor scope i = none) {y : Nat × Nat} (hy : y ∈ l.home) :
    barrierKey l.record.levels scope i ≠ barrierKey l.record.levels scope y.1 := by
  unfold Launch.anchor at h
  have := List.find?_eq_none.mp (Option.map_eq_none_iff.mp h) y hy
  exact fun k => this ((sameBarrier_iff _ _ _ _).mpr k)

/-- A brick beside the launch's harts is in the course and in the wythe of those that ask for it. -/
theorem beside_near (hnear : ∀ x ∈ l.home, ∀ y ∈ l.home, Near l.record x y) (h : l.beside i b = true) {y : Nat × Nat} (hy : y ∈ l.home) :
    (barrierKey l.record.levels 2 i = barrierKey l.record.levels 2 y.1 → courseOf b = courseOf y.2) ∧
    (barrierKey l.record.levels 3 i = barrierKey l.record.levels 3 y.1 → wytheOf b = wytheOf y.2) := by
  unfold Launch.beside at h
  split at h
  · next a ha =>
    obtain ⟨x, hx, rfl, hkey⟩ := anchor_some ha
    have hcourse : courseOf x.2 = courseOf b := by simpa using h
    refine ⟨fun k => ?_, fun k => ?_⟩
    · exact hcourse.symm.trans ((hnear x hx y hy).course ((sameBarrier_iff _ _ _ _).mpr (hkey.symm.trans k)))
    · exact (wytheOf_of_course hcourse.symm).trans
        ((hnear x hx y hy).wythe ((sameBarrier_iff _ _ _ _).mpr ((barrierKey_wider hkey).symm.trans k)))
  · next ha =>
    refine ⟨fun k => absurd k (anchor_none ha hy), fun k => ?_⟩
    split at h
    · next a ha =>
      obtain ⟨x, hx, rfl, hkey⟩ := anchor_some ha
      have hwythe : wytheOf x.2 = wytheOf b := by simpa using h
      exact hwythe.symm.trans ((hnear x hx y hy).wythe ((sameBarrier_iff _ _ _ _).mpr (hkey.symm.trans k)))
    · next ha => exact absurd k (anchor_none ha hy)

/-- A brick that a launch allows for a hart is near all of its harts. -/
theorem allows_near {hs : List Hart} (hnear : ∀ x ∈ l.home, ∀ y ∈ l.home, Near l.record x y)
    (hharts : ∀ y ∈ l.home, ∃ h ∈ hs, h.launch = l.id ∧ h.index = y.1 ∧ h.brick = y.2) (h : l.allows hs i b = true) :
    ∀ y ∈ l.home, Near l.record (i, b) y := by
  intro y hy
  unfold Launch.allows at h
  split at h
  · next hruns =>
    obtain ⟨h2, h3⟩ := beside_near hnear h hy
    exact ⟨fun k => h2 ((sameBarrier_iff _ _ _ _).mp k), fun k => h3 ((sameBarrier_iff _ _ _ _).mp k), fun k => by simp [k] at hruns⟩
  · obtain ⟨halone, hplace⟩ := Bool.and_eq_true_iff.mp h
    have hblock : b = y.2 → l.record.block i = l.record.block y.1 := fun e => by
      obtain ⟨g, hg, hid, hi, hb⟩ := hharts y hy
      by_contra hne
      have hany : hs.any (fun h => h.launch == l.id && h.brick == b && l.record.block h.index != l.record.block i) = true := by
        rw [List.any_eq_true]
        refine ⟨g, hg, ?_⟩
        rw [hid, hb, hi, e]
        simpa using fun k => hne k.symm
      rw [hany] at halone
      exact absurd halone (by decide)
    split at hplace
    · next x hfind =>
      have hx := List.mem_of_find?_eq_some hfind
      have hxi : l.record.block x.1 = l.record.block i := by simpa using List.find?_some hfind
      have hxb : x.2 = b := by simpa using hplace
      have hkey := barrierKey_of_block hxi
      have hxy := hnear x hx y hy
      refine ⟨fun k => ?_, fun k => ?_, fun k => ⟨hblock, fun e => ?_⟩⟩
      · exact hxb ▸ hxy.course ((sameBarrier_iff _ _ _ _).mpr (hkey.trans ((sameBarrier_iff _ _ _ _).mp k)))
      · exact hxb ▸ hxy.wythe ((sameBarrier_iff _ _ _ _).mpr ((barrierKey_wider hkey).trans ((sameBarrier_iff _ _ _ _).mp k)))
      · exact hxb ▸ (hxy.run k).mpr (hxi.trans e)
    · next hfind =>
      obtain ⟨h2, h3⟩ := beside_near hnear hplace hy
      refine ⟨fun k => h2 ((sameBarrier_iff _ _ _ _).mp k), fun k => h3 ((sameBarrier_iff _ _ _ _).mp k), fun _ => ⟨hblock, fun e => ?_⟩⟩
      have := List.find?_eq_none.mp hfind y hy
      exact absurd (by simpa using e.symm) this

end Sys2Proof.Claims

namespace Sys2Proof.Claims
open Sys2Proof.Machine

/-! ### One hart is dispatched (R55, R63, R99) -/

/-- The device has one launch: a given one, with given homes of its harts. -/
def OneLaunch (d : Device) (l : Launch) (home : List (Nat × Nat)) : Prop :=
  ∃ x, d.launches = [x] ∧ x.queue = l.queue ∧ x.seq = l.seq ∧ x.record = l.record ∧ x.home = home

variable {s t u : State} {l : Launch} {home : List (Nat × Nat)}

theorem OneLaunch.mapLaunch {d : Device} (h : OneLaunch d l home) {f : Launch → Launch} (g : List (Nat × Nat) → List (Nat × Nat))
    (hf : ∀ x, (f x).queue = x.queue ∧ (f x).seq = x.seq ∧ (f x).record = x.record ∧ (f x).home = g x.home) :
    OneLaunch (d.mapLaunch (l.queue, l.seq) f) l (g home) := by
  obtain ⟨x, hx, hq, hs, hr, hh⟩ := h
  obtain ⟨fq, fs, fr, fh⟩ := hf x
  refine ⟨f x, ?_, fq.trans hq, fs.trans hs, fr.trans hr, by rw [fh, hh]⟩
  unfold Device.mapLaunch
  dsimp only
  rw [hx, List.map_singleton, if_pos ⟨hq, hs⟩]

/-- A step in the books of the device alone: its harts and what a placement asks of it stay. -/
structure KeepsHarts (s t : State) : Prop where
  hart : t.hart = s.hart
  parked : t.dev.parked = s.dev.parked
  bricks : SameBricks s.dev t.dev

theorem KeepsHarts.trans (h : KeepsHarts s t) (k : KeepsHarts t u) : KeepsHarts s u :=
  ⟨k.hart.trans h.hart, k.parked.trans h.parked, h.bricks.trans k.bricks⟩

theorem KeepsHarts.harts (h : KeepsHarts s t) : t.harts = s.harts := by
  unfold State.harts
  rw [h.hart, h.parked]

theorem KeepsHarts.ownPlace (h : KeepsHarts s t) (hown : OwnPlace s) : OwnPlace t := by
  unfold OwnPlace
  rw [h.hart, h.parked]
  exact hown

theorem KeepsHarts.mapLaunch (s : State) (id : Nat × Nat) (f : Launch → Launch) : KeepsHarts s (s.mapDev (fun d => d.mapLaunch id f)) :=
  ⟨rfl, rfl, rfl, rfl, fun _ => rfl⟩

theorem takeSlots_keeps (s : State) (x : Launch) : KeepsHarts s (s.takeSlots x) := by
  unfold State.takeSlots
  split
  · exact ⟨rfl, rfl, rfl, rfl, fun _ => rfl⟩
  · exact ⟨rfl, rfl, .refl _⟩

theorem takeSlots_launch (h : OneLaunch s.dev l home) {x : Launch} (hx : x.id = (l.queue, l.seq)) : OneLaunch (s.takeSlots x).dev l home := by
  unfold State.takeSlots
  split
  · rw [hx]
    exact OneLaunch.mapLaunch h id (fun x => ⟨rfl, rfl, rfl, rfl⟩)
  · exact h

/-- What the device is once a hart has come to it. -/
structure Brought (s t : State) (h : Hart) : Prop where
  own : OwnPlace t
  bricks : SameBricks s.dev t.dev
  comes : ∃ g, KeepsHart h g ∧ ∀ x, x ∈ t.harts ↔ x ∈ s.harts ∨ x = g

theorem Brought.of_keeps {h : Hart} (k : KeepsHarts s t) (hb : Brought t u h) : Brought s u h := by
  obtain ⟨own, bricks, g, hg, hmem⟩ := hb
  exact ⟨own, k.bricks.trans bricks, g, hg, fun x => by rw [hmem, k.harts]⟩

theorem Brought.then_keeps {h : Hart} (hb : Brought s t h) (k : KeepsHarts t u) : Brought s u h := by
  obtain ⟨own, bricks, g, hg, hmem⟩ := hb
  exact ⟨k.ownPlace own, bricks.trans k.bricks, g, hg, fun x => by rw [k.harts, hmem]⟩

/-- A hart starts in its place with its first registers mapped. -/
def seat (h : Hart) (s : State) : State := s.withHart h.brick h.num (fun s => State.firstMap { s with hart := h })

theorem seat_maps (h : Hart) (s : State) : Maps { (s.focus h.brick h.num) with hart := h } (State.firstMap { (s.focus h.brick h.num) with hart := h }) :=
  firstMap_maps _

theorem focus_bricks (s : State) (b n : Nat) : SameBricks s.dev (s.focus b n).dev ∧ (s.focus b n).dev.launches = s.dev.launches := by
  unfold State.focus
  split
  · exact ⟨.refl _, rfl⟩
  · exact ⟨⟨rfl, rfl, fun _ => rfl⟩, rfl⟩

theorem seat_brought {h : Hart} (hown : OwnPlace s) (hfree : FreePlace s h.brick h.num) (hrun : h.run ≠ .free) : Brought s (seat h s) h := by
  have hmaps := seat_maps h s
  obtain ⟨hmem, hown'⟩ := withHart_puts (f := fun s => State.firstMap { s with hart := h }) hown hfree hmaps.parked hmaps.hart.brick hmaps.hart.num
    (by rw [hmaps.hart.run]; exact hrun)
  exact ⟨hown', ((focus_bricks s _ _).1.trans hmaps.bricks).trans (focus_bricks _ _ _).1, _, hmaps.hart, hmem⟩

theorem seat_launches (h : Hart) (s : State) : (seat h s).dev.launches = s.dev.launches :=
  (focus_bricks _ _ _).2.trans ((seat_maps h s).launches.trans (focus_bricks _ _ _).2)

theorem recomputeGear_keeps (s : State) (b : Nat) : KeepsHarts s (s.recomputeGear b) := by
  obtain ⟨k, hk⟩ := recomputeGear_bricks s b
  have hmaps := recomputeGear_maps s b
  exact ⟨by rw [hk], hmaps.parked, hmaps.bricks⟩

/-- A brick makes room for a hart (R150). -/
def cleared (h : Hart) (s : State) : State :=
  s.mapDev (fun d => { d.setBrick h.brick ((d.brick h.brick).grant h.bound h.ctx h.vmid) with uids := d.uids + 1 })

theorem cleared_keeps (h : Hart) (s : State) : KeepsHarts s (cleared h s) := by
  have hb := SameBricks.setBrick s.dev (grant_retired (s.dev.brick h.brick) h.bound h.ctx h.vmid)
  exact ⟨rfl, rfl, hb.gmc, hb.closing, hb.retired⟩

/-- A launch notes where a hart lies. -/
def noted (h : Hart) (s : State) : State :=
  s.mapDev (fun d => d.mapLaunch h.launch (fun l => { l.placedOn h.index h.brick with placed := h.index :: l.placed }))

theorem bring_eq (s : State) (h : Hart) (run : RunState) :
    s.bring h run = (seat { h with run := run, uid := s.dev.uids } (noted { h with run := run, uid := s.dev.uids }
      (cleared { h with run := run, uid := s.dev.uids } s))).recomputeGear h.brick := rfl

/-- The homes of a launch's harts once one lies on a brick. -/
def homes (i b : Nat) (home : List (Nat × Nat)) : List (Nat × Nat) := (i, b) :: home.filter (fun x => x.1 != i)

theorem noted_launch (h : OneLaunch s.dev l home) {g : Hart} (hg : g.launch = (l.queue, l.seq)) :
    OneLaunch (noted g s).dev l (homes g.index g.brick home) := by
  unfold noted
  rw [hg]
  exact OneLaunch.mapLaunch h (homes g.index g.brick) (fun x => ⟨rfl, rfl, rfl, rfl⟩)

theorem bring_launch (h : OneLaunch s.dev l home) {g : Hart} (hg : g.launch = (l.queue, l.seq)) (run : RunState) :
    OneLaunch (s.bring g run).dev l (homes g.index g.brick home) := by
  rw [bring_eq]
  have hnoted := noted_launch (s := cleared { g with run := run, uid := s.dev.uids } s) (g := { g with run := run, uid := s.dev.uids }) h hg
  generalize noted _ _ = u at hnoted ⊢
  unfold OneLaunch
  rw [(recomputeGear_maps _ _).launches, seat_launches]
  exact hnoted

theorem bring_brought {h : Hart} {run : RunState} (hown : OwnPlace s) (hfree : FreePlace s h.brick h.num) (hrun : run ≠ .free) :
    Brought s (s.bring h run) { h with run := run, uid := s.dev.uids } := by
  rw [bring_eq]
  generalize hk : ({ h with run := run, uid := s.dev.uids } : Hart) = k
  have hbrick : k.brick = h.brick := by rw [← hk]
  have hnum : k.num = h.num := by rw [← hk]
  have hkrun : k.run ≠ .free := by rw [← hk]; exact hrun
  have hpre : KeepsHarts s (noted k (cleared k s)) := (cleared_keeps k s).trans (KeepsHarts.mapLaunch _ _ _)
  generalize noted k (cleared k s) = u at hpre ⊢
  refine Brought.of_keeps hpre ((seat_brought (hpre.ownPlace hown) ?_ hkrun).then_keeps (recomputeGear_keeps _ _))
  unfold FreePlace
  rw [hpre.harts, hbrick, hnum]
  exact hfree

theorem dispatch_brought {h : Hart} (hown : OwnPlace s) (hfree : FreePlace s h.brick h.num) (x : Launch) :
    Brought s (s.dispatch x h) { h with run := .running, uid := (s.takeSlots x).dev.uids } := by
  have hslots := takeSlots_keeps s x
  unfold State.dispatch
  generalize s.takeSlots x = u at hslots ⊢
  have hfree' : FreePlace u h.brick h.num := by
    unfold FreePlace
    rw [hslots.harts]
    exact hfree
  have hbring := Brought.of_keeps hslots (bring_brought (run := .running) (hslots.ownPlace hown) hfree' (fun e => RunState.noConfusion e))
  generalize u.bring h .running = v at hbring ⊢
  exact hbring.then_keeps ⟨rfl, rfl, rfl, rfl, fun _ => rfl⟩

theorem dispatch_launch (h : OneLaunch s.dev l home) {x : Launch} (hx : x.id = (l.queue, l.seq)) {g : Hart} (hg : g.launch = (l.queue, l.seq)) :
    OneLaunch (s.dispatch x g).dev l (homes g.index g.brick home) := by
  have hbring := bring_launch (takeSlots_launch h hx) hg .running
  unfold State.dispatch
  generalize State.bring _ g .running = u at hbring ⊢
  rw [hx]
  exact OneLaunch.mapLaunch hbring id (fun x => ⟨rfl, rfl, rfl, rfl⟩)

end Sys2Proof.Claims

namespace Sys2Proof.Claims
open Sys2Proof.Machine

/-! ### What a room gives (R64) -/

theorem holds_bound (h : Hart) {i : Nat} (k : h.bound.getLsbD i = true) : h.holds.getLsbD i = true := by
  unfold Hart.holds
  rw [BitVec.getLsbD_or, BitVec.getLsbD_or, k]
  rfl

/-- The lane groups that some harts hold together. -/
theorem foldl_holds (i : Nat) : ∀ (l : List Hart) (m : BitVec 4), (m.getLsbD i = true ∨ ∃ h ∈ l, h.holds.getLsbD i = true) →
    (l.foldl (fun (m : BitVec 4) h => m ||| h.holds) m).getLsbD i = true
  | [], m, k => k.elim id (fun ⟨_, h, _⟩ => absurd h List.not_mem_nil)
  | g :: l, m, k => by
    rw [List.foldl_cons]
    refine foldl_holds i l _ ?_
    rw [BitVec.getLsbD_or, Bool.or_eq_true]
    rcases k with k | ⟨h, hh, k⟩
    · exact .inl (.inl k)
    · rcases List.mem_cons.mp hh with rfl | hh
      · exact .inl (.inr k)
      · exact .inr ⟨h, hh, k⟩

/-- What a room grants is free on its brick: a hart number that no hart there has, and lane groups that none is bound to. -/
theorem room_grant {d : Device} {hs : List Hart} {b n tiles streams k : Nat} {lgs : BitVec 4}
    (h : (d.room hs b).grant n tiles streams = some (k, lgs)) :
    k < 4 ∧ ∀ g ∈ hs, g.brick = b → g.num ≠ k ∧ g.bound &&& lgs = 0 := by
  unfold Room.grant at h
  split at h
  · next k' rest lgs' hharts hfind =>
    split at h
    · obtain ⟨rfl, rfl⟩ := Prod.mk.inj (Option.some.inj h)
      have hk : k' ∈ (d.room hs b).harts := hharts ▸ List.mem_cons_self
      have hlgs : lgs' &&& (d.room hs b).lgs = lgs' := by simpa using List.find?_some hfind
      unfold Device.room at hk hlgs
      dsimp only at hk hlgs
      obtain ⟨hlt, hno⟩ := List.mem_filter.mp hk
      refine ⟨List.mem_range.mp hlt, fun g hg hb => ⟨fun e => ?_, ?_⟩⟩
      · have hany : (hs.filter (fun h => h.brick == b)).any (fun h => h.num == k') = true :=
          List.any_eq_true.mpr ⟨g, List.mem_filter.mpr ⟨hg, by simpa using hb⟩, by simpa using e⟩
        rw [hany] at hno
        exact absurd hno (by decide)
      · refine BitVec.eq_of_getLsbD_eq (fun i hi => ?_)
        rw [show (0 : BitVec 4) = 0#4 from rfl, BitVec.getLsbD_and, BitVec.getLsbD_zero, Bool.and_eq_false_iff]
        by_contra hboth
        rw [not_or, Bool.not_eq_false, Bool.not_eq_false] at hboth
        have hfold := foldl_holds i (hs.filter (fun h => h.brick == b)) 0
          (.inr ⟨g, List.mem_filter.mpr ⟨hg, by simpa using hb⟩, holds_bound g hboth.1⟩)
        have hbit := hboth.2
        rw [← hlgs, BitVec.getLsbD_and, BitVec.getLsbD_not, BitVec.getLsbD_or, BitVec.getLsbD_or, hfold] at hbit
        simp at hbit
    · exact absurd h (by simp)
  · exact absurd h (by simp)

theorem firstSome_some {α β : Type} {f : α → Option β} : ∀ {l : List α} {y : β}, firstSome f l = some y → ∃ a ∈ l, f a = some y
  | a :: l, y, h => by
    unfold firstSome at h
    split at h
    · next z hz => exact ⟨a, List.mem_cons_self, hz.trans h⟩
    · obtain ⟨c, hc, hy⟩ := firstSome_some h
      exact ⟨c, List.mem_cons_of_mem a hc, hy⟩

theorem readyBricks_takesWork {d : Device} {b : Nat} (h : b ∈ d.readyBricks) : d.takesWork b = true := (List.mem_filter.mp h).2

/-- A hart has found a place on a brick. -/
structure Placed (d : Device) (hs : List Hart) (l : Launch) (i : Nat) (h : Hart) : Prop where
  ready : d.takesWork h.brick = true
  allowed : l.allows hs i h.brick = true
  num : h.num < 4
  free : ∀ g ∈ hs, g.brick = h.brick → g.num ≠ h.num ∧ g.bound &&& h.bound = 0
  launch : h.launch = l.id
  index : h.index = i

theorem placeMember_placed {d : Device} {hs : List Hart} {l : Launch} {i : Nat} {h : Hart} (k : d.placeMember hs l i = some h) : Placed d hs l i h := by
  unfold Device.placeMember at k
  obtain ⟨b, hb, hgrant⟩ := firstSome_some k
  split at hgrant
  · next hallows =>
    obtain ⟨⟨n, lgs⟩, hroom, rfl⟩ := Option.map_eq_some_iff.mp hgrant
    obtain ⟨hn, hfree⟩ := room_grant hroom
    exact ⟨readyBricks_takesWork hb, (Bool.and_eq_true_iff.mp hallows).1, hn, hfree, rfl, rfl⟩
  · exact absurd hgrant (by simp)

/-! ### The harts of a launch are dispatched in hart order (R63) -/

/-- A launch of which the harts below `m` are on the device, which it has for itself. -/
structure Serving (l : Launch) (d : Device) (m : Nat) (s : State) : Prop where
  own : OwnPlace s
  bricks : SameBricks d s.dev
  books : ∃ home, OneLaunch s.dev l home ∧ ∀ y, y ∈ home ↔ ∃ h ∈ s.harts, y = (h.index, h.brick)
  near : ∀ h ∈ s.harts, ∀ g ∈ s.harts, Near l.record (h.index, h.brick) (g.index, g.brick)
  indices : ∀ i, (∃ h ∈ s.harts, h.index = i) ↔ i < m
  each : ∀ h ∈ s.harts, h.launch = l.id ∧ h.run = .running ∧ d.takesWork h.brick = true ∧ h.num < 4
  single : ∀ h ∈ s.harts, ∀ g ∈ s.harts, h.index = g.index → h = g
  apart : ∀ h ∈ s.harts, ∀ g ∈ s.harts, h.brick = g.brick → h.index ≠ g.index → h.num ≠ g.num ∧ h.bound &&& g.bound = 0

theorem mem_homes {i b : Nat} {home : List (Nat × Nat)} {y : Nat × Nat} : y ∈ homes i b home ↔ y = (i, b) ∨ (y ∈ home ∧ y.1 ≠ i) := by
  unfold homes
  rw [List.mem_cons, List.mem_filter]
  simp

/-- A property of pairs of harts holds of one hart more when it holds of the new one with each old one. -/
theorem pairs_insert {P : Hart → Hart → Prop} {old new : List Hart} {g : Hart} (hmem : ∀ x, x ∈ new ↔ x ∈ old ∨ x = g)
    (hold : ∀ x ∈ old, ∀ y ∈ old, P x y) (hself : P g g) (hnew : ∀ x ∈ old, P x g ∧ P g x) : ∀ x ∈ new, ∀ y ∈ new, P x y := by
  intro x hx y hy
  rcases (hmem x).mp hx with hx | rfl <;> rcases (hmem y).mp hy with hy | rfl
  · exact hold x hx y hy
  · exact (hnew x hx).1
  · exact (hnew y hy).2
  · exact hself

theorem takesWork_same {d e : Device} (h : SameBricks d e) (b : Nat) : e.takesWork b = d.takesWork b := by
  unfold Device.takesWork
  rw [h.gmc]

/-- A brick that the launch allows for one more hart is near all that it has. -/
theorem Serving.near_of_allows {l x : Launch} {d : Device} {m i b : Nat} {s : State} (hs : Serving l d m s) (hx : s.dev.launches = [x])
    (hallowed : x.allows s.harts i b = true) : ∀ y ∈ s.harts, Near l.record (i, b) (y.index, y.brick) := by
  obtain ⟨home, ⟨x', hx', hq, hseq, hrec, rfl⟩, hhome⟩ := hs.books
  obtain rfl : x = x' := List.singleton_inj.mp (hx.symm.trans hx')
  have hid : x.id = l.id := congrArg₂ Prod.mk hq hseq
  have hall : ∀ a ∈ x.home, ∀ c ∈ x.home, Near x.record a c := fun a ha c hc => by
    obtain ⟨ga, hga, rfl⟩ := (hhome a).mp ha
    obtain ⟨gc, hgc, rfl⟩ := (hhome c).mp hc
    exact hrec ▸ hs.near ga hga gc hgc
  have hharts : ∀ a ∈ x.home, ∃ g ∈ s.harts, g.launch = x.id ∧ g.index = a.1 ∧ g.brick = a.2 := fun a ha => by
    obtain ⟨ga, hga, rfl⟩ := (hhome a).mp ha
    exact ⟨ga, hga, (hs.each ga hga).1.trans hid.symm, rfl, rfl⟩
  exact fun y hy => hrec ▸ allows_near hall hharts hallowed _ ((hhome _).mpr ⟨y, hy, rfl⟩)

/-- One more hart of the launch is dispatched, and those that are on the device stay. -/
theorem Serving.step {l x : Launch} {d : Device} {m : Nat} {s : State} {h : Hart} (hs : Serving l d m s) (hx : s.dev.launches = [x])
    (hplace : s.dev.placeMember s.harts x m = some h) : Serving l d (m + 1) (s.dispatch x h) ∧ ∀ g ∈ s.harts, g ∈ (s.dispatch x h).harts := by
  obtain ⟨home, hone, hhome⟩ := hs.books
  obtain ⟨x', hx', hq, hseq, hrec, rfl⟩ := hone
  obtain rfl : x = x' := List.singleton_inj.mp (hx.symm.trans hx')
  have hid : x.id = (l.queue, l.seq) := congrArg₂ Prod.mk hq hseq
  obtain ⟨hready, hallowed, hnum, hfree, hlaunch, hindex⟩ := placeMember_placed hplace
  have hnew : ∀ y ∈ s.harts, y.index ≠ m := fun y hy e => Nat.lt_irrefl m ((hs.indices m).mp ⟨y, hy, e⟩)
  have hnear := hs.near_of_allows hx hallowed
  have hplaceFree : FreePlace s h.brick h.num := fun y hy e => (hfree y hy e.1).1 e.2
  obtain ⟨own, bricks, g, hg, hmem⟩ := dispatch_brought hs.own hplaceFree x
  have hbooks := dispatch_launch ⟨x, hx, hq, hseq, hrec, rfl⟩ hid (hlaunch.trans hid)
  have gindex : g.index = m := hg.index.trans hindex
  have gbrick : g.brick = h.brick := hg.brick
  have gnum : g.num = h.num := hg.num
  have gbound : g.bound = h.bound := hg.bound
  have glaunch : g.launch = x.id := (congrArg₂ Prod.mk hg.queue hg.seq).trans hlaunch
  refine ⟨⟨own, hs.bricks.trans bricks, ⟨_, hbooks, fun y => ?_⟩, ?_, fun i => ?_, fun y hy => ?_, ?_, ?_⟩, fun y hy => (hmem y).mpr (.inl hy)⟩
  · rw [mem_homes, hindex]
    constructor
    · rintro (rfl | ⟨hy, -⟩)
      · exact ⟨g, (hmem g).mpr (.inr rfl), by rw [gindex, gbrick]⟩
      · obtain ⟨c, hc, rfl⟩ := (hhome y).mp hy
        exact ⟨c, (hmem c).mpr (.inl hc), rfl⟩
    · rintro ⟨c, hc, rfl⟩
      rcases (hmem c).mp hc with hc | rfl
      · exact .inr ⟨(hhome _).mpr ⟨c, hc, rfl⟩, hnew c hc⟩
      · exact .inl (by rw [gindex, gbrick])
  · refine pairs_insert (P := fun x y => Near l.record (x.index, x.brick) (y.index, y.brick)) hmem hs.near (.refl _ _) (fun y hy => ?_)
    rw [gindex, gbrick]
    exact ⟨(hnear y hy).symm, hnear y hy⟩
  · constructor
    · rintro ⟨c, hc, rfl⟩
      rcases (hmem c).mp hc with hc | rfl
      · exact Nat.lt_succ_of_lt ((hs.indices _).mp ⟨c, hc, rfl⟩)
      · rw [gindex]; exact Nat.lt_succ_self m
    · intro hi
      rcases Nat.lt_succ_iff_lt_or_eq.mp hi with hi | rfl
      · obtain ⟨c, hc, hci⟩ := (hs.indices i).mpr hi
        exact ⟨c, (hmem c).mpr (.inl hc), hci⟩
      · exact ⟨g, (hmem g).mpr (.inr rfl), gindex⟩
  · rcases (hmem y).mp hy with hy | rfl
    · exact hs.each y hy
    · exact ⟨glaunch.trans hid, hg.run, by rw [gbrick, ← takesWork_same hs.bricks]; exact hready, by rw [gnum]; exact hnum⟩
  · exact pairs_insert hmem hs.single (fun _ => rfl) (fun y hy =>
      ⟨fun e => absurd (e.trans gindex) (hnew y hy), fun e => absurd (e.symm.trans gindex) (hnew y hy)⟩)
  · refine pairs_insert hmem hs.apart (fun _ k => absurd rfl k) (fun y hy => ?_)
    rw [gbrick, gnum, gbound]
    refine ⟨fun e _ => hfree y hy e, fun e _ => ?_⟩
    obtain ⟨h1, h2⟩ := hfree y hy e.symm
    exact ⟨h1.symm, by rw [BitVec.and_comm]; exact h2⟩

section
/-! The two cases of `State.dispatchOn`. Lean's equations for it are not at hand: their proof exceeds the recursion depth. -/

variable {l x : Launch} {s : State} {i : Nat} {rest : List Nat}

theorem dispatchOn_full (hl : s.dev.launch l.id = some x) (hplace : s.dev.placeMember s.harts x i = none) : State.dispatchOn l (i :: rest) s = s := by
  delta State.dispatchOn State.dispatchOn._f
  dsimp only
  rw [hl]
  dsimp only
  rw [hplace]

theorem dispatchOn_fits {h : Hart} (hl : s.dev.launch l.id = some x) (hplace : s.dev.placeMember s.harts x i = some h) :
    State.dispatchOn l (i :: rest) s = State.dispatchOn l rest (s.dispatch x h) := by
  generalize hnext : s.dispatch x h = t
  delta State.dispatchOn State.dispatchOn._f
  dsimp only
  rw [hl]
  dsimp only
  rw [hplace]
  dsimp only
  rw [hnext]

end

/-- The harts of a launch are dispatched until one does not fit. -/
theorem Serving.dispatchOn {l : Launch} {d : Device} : ∀ (k m : Nat) {s : State}, Serving l d m s →
    (∀ g ∈ s.harts, g ∈ (State.dispatchOn l (List.range' m k) s).harts) ∧
    ∃ n, n ≤ m + k ∧ Serving l d n (State.dispatchOn l (List.range' m k) s) ∧
      (n < m + k → ∀ x, (State.dispatchOn l (List.range' m k) s).dev.launches = [x] →
        (State.dispatchOn l (List.range' m k) s).dev.placeMember (State.dispatchOn l (List.range' m k) s).harts x n = none)
  | 0, m, s, hs => ⟨fun _ hg => hg, m, Nat.le_refl m, hs, fun h => absurd h (Nat.lt_irrefl m)⟩
  | k + 1, m, s, hs => by
    obtain ⟨home, ⟨x, hx, hq, hseq, hrec, hh⟩, hhome⟩ := hs.books
    have hlaunch : s.dev.launch l.id = some x := launch_one hx hq hseq
    rw [List.range'_succ]
    cases hplace : s.dev.placeMember s.harts x m with
    | none =>
      rw [dispatchOn_full hlaunch hplace]
      refine ⟨fun _ hg => hg, m, by omega, hs, fun _ y hy => ?_⟩
      obtain rfl : x = y := List.singleton_inj.mp (hx.symm.trans hy)
      exact hplace
    | some h =>
      rw [dispatchOn_fits hlaunch hplace]
      obtain ⟨hnext, hstay⟩ := hs.step hx hplace
      obtain ⟨hkeep, n, hn, hserve, hstop⟩ := Serving.dispatchOn k (m + 1) hnext
      exact ⟨fun g hg => hkeep g (hstay g hg), n, by omega, hserve, fun h => hstop (by omega)⟩

end Sys2Proof.Claims

namespace Sys2Proof.Claims
open Sys2Proof.Machine

/-! ### The choice of the scheduler on an idle device (R60, R62) -/

/-- The scheduler may give harts to bricks (R36, R145). -/
structure MayServe (s : State) : Prop where
  busy : s.dev.sched.busy = false
  runs : s.dev.gmc.schedRunning = true
  channels : ∀ c, c < 128 → s.dev.gmc.readyChan.getLsbD c = true
  limit : s.dev.thermal.limit = false

/-- A device with nothing on it. -/
structure Empty (s : State) : Prop where
  run : s.hart.run = .free
  parked : s.dev.parked = []
  saved : s.dev.saved = []
  closing : s.dev.closing = []

/-- A launch that runs on one device, is eligible, and of which no hart has been dispatched. -/
structure ReadyLaunch (l : Launch) : Prop where
  marker : l.record.marker = false
  killed : l.killed = false
  wdone : l.record.flags.getLsbD 3 = false
  gangFlag : l.record.flags.getLsbD 5 = false
  places : ∀ x ∈ l.record.levels.toList, x.place ≠ 5
  sigSeen : l.sigSeen = true
  startSeen : l.startSeen = true
  slotmask : l.record.slotmask = 0
  placed : l.placed = []
  owed : l.owed = none
  some : 0 < hartCount l.record.levels

variable {s : State} {l : Launch}

theorem memReady_iff (d : Device) : d.memReady = true ↔ ∀ c, c < 128 → d.gmc.readyChan.getLsbD c = true := by
  unfold Device.memReady
  rw [List.all_eq_true]
  exact forall_congr' (fun c => by rw [List.mem_range]; rfl)

theorem choose_waits (hbusy : s.dev.sched.busy = false)
    (h : s.dev.gmc.schedRunning = false ∨ (∃ c, c < 128 ∧ s.dev.gmc.readyChan.getLsbD c = false) ∨ s.dev.thermal.limit = true) : s.choose = s := by
  have hstop : (!(s.dev.gmc.schedRunning && s.dev.memReady) || s.dev.thermal.limit) = true := by
    rcases h with h | ⟨c, hc, h⟩ | h
    · rw [h]; rfl
    · have hmem : s.dev.memReady = false := by
        rw [← Bool.not_eq_true, memReady_iff]
        exact fun k => by rw [k c hc] at h; exact absurd h (by decide)
      rw [hmem, Bool.and_false]; rfl
    · rw [h, Bool.or_true]
  unfold State.choose
  rw [settleHold_idle hbusy]
  exact if_pos hstop

theorem MayServe.goes (h : MayServe s) : (!(s.dev.gmc.schedRunning && s.dev.memReady) || s.dev.thermal.limit) = false := by
  rw [h.runs, (memReady_iff s.dev).mpr h.channels, h.limit]
  rfl

theorem harts_empty {t : State} (hrun : t.hart.run = .free) (hparked : t.dev.parked = []) : t.harts = [] := by
  unfold State.harts
  rw [hparked, List.filter_singleton, hrun]
  rfl

theorem Empty.harts (h : Empty s) : s.harts = [] := harts_empty h.run h.parked

theorem foldl_mapLaunch_parked (f : Launch → Launch) : ∀ (ids : List (Nat × Nat)) (d : Device),
    (ids.foldl (fun d id => d.mapLaunch id f) d).parked = d.parked
  | [], _ => rfl
  | _ :: ids, _ => foldl_mapLaunch_parked f ids _

theorem stopWhere_empty (h : Empty s) (p : Hart → Bool) : (s.stopWhere p).hart.run = .free ∧ (s.stopWhere p).dev.parked = [] := by
  unfold State.stopWhere
  extract_lets hit mine ids stop
  have hstay : stop s.hart = s.hart := if_neg (by simp [mine, h.run])
  refine ⟨by dsimp only; rw [hstay]; exact h.run, ?_⟩
  dsimp only
  rw [foldl_mapLaunch_parked]
  dsimp only
  rw [h.parked]
  rfl

theorem stopGang_empty (h : Empty s) (l : Launch) : (s.stopGang l).harts = [] := by
  unfold State.stopGang
  dsimp only
  split
  · exact harts_empty h.run h.parked
  · obtain ⟨hrun, hparked⟩ := stopWhere_empty h (fun h => h.launch == l.id)
    exact harts_empty hrun hparked

theorem savesDue_none {t : State} (h : t.harts = []) : t.savesDue = 0 := by
  unfold State.savesDue
  rw [h]
  rfl

theorem ReadyLaunch.gang (h : ReadyLaunch l) : l.record.gang = false := by
  have hspan : l.record.spansDevices = false := by
    unfold Record.spansDevices
    rw [List.any_eq_false]
    exact fun x hx => by simpa using h.places x hx
  rw [Record.gang, h.gangFlag, hspan]
  rfl

theorem awaitedMember_empty (h : Empty s) (hl : ReadyLaunch l) : s.awaitedMember l = none := by
  unfold State.awaitedMember
  rw [hl.owed, h.harts]
  rfl

theorem progressBarrier_empty (h : Empty s) (hl : ReadyLaunch l) : s.progressBarrier l = none := by
  unfold State.progressBarrier
  rw [awaitedMember_empty h hl, ite_self]

theorem ReadyLaunch.undispatched (h : ReadyLaunch l) : l.undispatched = 0 :: List.range' 1 (hartCount l.record.levels - 1) := by
  obtain ⟨n, hn⟩ := Nat.exists_eq_succ_of_ne_zero (Nat.pos_iff_ne_zero.mp h.some)
  unfold Launch.undispatched
  rw [h.placed, hn, List.range_eq_range', List.range'_succ]
  simp

theorem ReadyLaunch.slots (h : ReadyLaunch l) (d : Device) : (d.slotGrant l).isSome = true := by
  unfold Device.slotGrant
  rw [h.slotmask]
  split <;> rfl

theorem ReadyLaunch.mayDispatch (h : ReadyLaunch l) {d : Device} (hheld : d.sched.heldCtx = []) : d.mayDispatch l = true := by
  have heligible : l.isEligible d = true := by
    unfold Launch.isEligible
    rw [show l.record.wdone = false from h.wdone, h.sigSeen, h.startSeen]
    rfl
  unfold Device.mayDispatch
  rw [h.marker, heligible, hheld, h.slots, h.gang]
  rfl

theorem candidate_one (h : ReadyLaunch l) {d : Device} (hl : d.launches = [l]) : d.candidate l.queue = some l := by
  unfold Device.candidate
  rw [hl, List.filter_singleton, beq_self_eq_true, cond_true]
  have hgoes : (if l.record.marker = true then !(l.isEligible d) else !l.killed && !l.undispatched.isEmpty) = true := by
    rw [h.marker, h.killed, h.undispatched]
    rfl
  exact List.find?_cons_of_pos hgoes

theorem resumeBids_empty (h : Empty s) (x : Launch) : s.resumeBids x = [] := by
  have hunits : s.savedUnits x = [] := by
    unfold State.savedUnits
    rw [h.saved]
    rfl
  unfold State.resumeBids
  rw [hunits]
  exact ite_self _

theorem distinct_singleton (q : Nat) : distinct [q] = [q] := rfl

theorem bids_one (h : Empty s) (hl : ReadyLaunch l) (hone : s.dev.launches = [l]) (hheld : s.dev.sched.heldCtx = []) : s.bids = [.fresh l] := by
  have hagain : s.dev.launches.flatMap s.resumeBids = [] := by
    rw [hone, List.flatMap_singleton, resumeBids_empty h]
  unfold State.bids
  dsimp only
  rw [hagain, hone, List.map_singleton, distinct_singleton, List.filterMap_cons, candidate_one hl hone]
  dsimp only
  rw [if_pos (hl.mayDispatch hheld)]
  rfl

/-- With one launch that waits and nothing else, the choice is to serve it. -/
theorem choose_serves {t : State} (hs : MayServe s) (h : Empty s) (hl : ReadyLaunch l) (hone : s.dev.launches = [l]) (hheld : s.dev.sched.heldCtx = [])
    (hserve : s.serve (.fresh l) = some t) : s.choose = t := by
  have hend : s.endUnresumable = none := by
    unfold State.endUnresumable
    rw [h.saved]
    rfl
  have hrelay : (l.relay && l.phase == .started && (s.stopGang l).savesDue != s.savesDue) = false := by
    rw [savesDue_none (stopGang_empty h l), savesDue_none h.harts, bne_self_eq_false, Bool.and_false]
  unfold State.choose
  rw [settleHold_idle hs.busy]
  dsimp only
  rw [hs.goes, if_neg Bool.false_ne_true, hend]
  dsimp only
  rw [hone, firstSome, hrelay, if_neg Bool.false_ne_true, progressBarrier_empty h hl]
  dsimp only
  rw [firstSome, bids_one h hl hone hheld, firstSome, hserve]

end Sys2Proof.Claims

namespace Sys2Proof.Claims
open Sys2Proof.Machine

/-! ### The first hart of a launch (R55, R63, R64, R99) -/

variable {s : State} {l : Launch} {b : Nat}

/-- The first of the numbers below `n` of which a predicate holds heads those of which it holds. -/
theorem filter_range_first {p : Nat → Bool} {n : Nat} (hb : b < n) (hp : p b = true) (hlow : ∀ a, a < b → p a = false) :
    ∃ rest, (List.range n).filter p = b :: rest := by
  have hsplit : List.range n = List.range b ++ List.range' b (n - b) := by
    have happend := List.range'_append_1 (s := 0) (m := b) (n := n - b)
    rw [Nat.zero_add, Nat.add_sub_cancel' (Nat.le_of_lt hb)] at happend
    rw [List.range_eq_range', List.range_eq_range', happend]
  obtain ⟨k, hk⟩ := Nat.exists_eq_succ_of_ne_zero (Nat.sub_ne_zero_of_lt hb)
  have hnone : (List.range b).filter p = [] := List.filter_eq_nil_iff.mpr (fun a ha => by
    rw [hlow a (List.mem_range.mp ha)]
    exact Bool.false_ne_true)
  exact ⟨_, by rw [hsplit, List.filter_append, hnone, hk, List.range'_succ, List.nil_append, List.filter_cons_of_pos hp]⟩

theorem allows_first (h : l.home = []) (i b : Nat) : l.allows [] i b = true := by
  have hanchor : ∀ scope, l.anchor scope i = none := fun scope => by
    unfold Launch.anchor
    rw [h]
    rfl
  have hbeside : l.beside i b = true := by
    unfold Launch.beside
    rw [hanchor, hanchor]
  unfold Launch.allows
  rw [h, hbeside]
  split <;> rfl

/-- The lane groups of the first hart: the lowest ones of its brick. -/
theorem firstLanes {r : Record} (h : r.lgph < 4) : (laneSets r.laneGroups).headD 0 = [0, 1, 3, 15].getD r.lgph 0 := by
  have : r.lgph = 0 ∨ r.lgph = 1 ∨ r.lgph = 2 ∨ r.lgph = 3 := by omega
  obtain h | h | h | h := this <;> rw [Record.laneGroups, h] <;> decide

/-- What a launch asks of its first brick. -/
structure Asks (r : Record) : Prop where
  tiles : r.tiles ≤ 8
  streams : r.streams ≤ 8
  lgph : r.lgph < 4

theorem placeMember_first {d : Device} (hl : ReadyLaunch l) (hhome : l.home = []) (hask : Asks l.record) (hb : b < 1024) (hready : d.takesWork b = true)
    (hlow : ∀ a, a < b → d.takesWork a = false) (hret : (d.brick b).retired = 0) (hclosing : d.closing = []) :
    d.placeMember [] l 0 = some (l.member 0 b 0 ([0, 1, 3, 15].getD l.record.lgph 0)) := by
  obtain ⟨rest, hrest⟩ := filter_range_first (n := Config.bricks) hb hready hlow
  have hgrant := grant_empty (b := b) (laneGroups_mem hask.lgph) (Nat.le_trans hask.tiles (by decide : 8 ≤ 16))
    (Nat.le_trans hask.streams (by decide : 8 ≤ 16))
  unfold Device.placeMember
  dsimp only
  rw [show d.readyBricks = b :: rest from hrest, firstSome, allows_first hhome, hl.gang, room_empty hret hclosing, hgrant, firstLanes hask.lgph]
  rfl

theorem Serving.start (h : Empty s) (hone : s.dev.launches = [l]) (hhome : l.home = []) : Serving l s.dev 0 s := by
  have hno : ∀ x, x ∉ s.harts := fun x => by rw [h.harts]; exact List.not_mem_nil
  refine ⟨fun x hx => ?_, .refl _, ⟨[], ⟨l, hone, rfl, rfl, rfl, hhome⟩, fun y => ?_⟩, fun x hx => absurd hx (hno x), fun i => ?_,
    fun x hx => absurd hx (hno x), fun x hx => absurd hx (hno x), fun x hx => absurd hx (hno x)⟩
  · rw [h.parked] at hx
    exact absurd hx List.not_mem_nil
  · exact ⟨fun k => absurd k List.not_mem_nil, fun ⟨x, hx, _⟩ => absurd hx (hno x)⟩
  · exact ⟨fun ⟨x, hx, _⟩ => absurd hx (hno x), fun k => absurd k (Nat.not_lt_zero i)⟩

/-- A hart of a launch as it starts. -/
structure Starts (l : Launch) (b : Nat) (h : Hart) : Prop where
  launch : h.launch = (l.queue, l.seq)
  index : h.index = 0
  brick : h.brick = b
  num : h.num = 0
  run : h.run = .running
  ctx : h.ctx = l.record.ctx
  vmid : h.vmid = l.record.vmid
  bound : h.bound = [0, 1, 3, 15].getD l.record.lgph 0
  pc : h.r.pc = l.record.kernel
  x : ∀ n, 0 < n → n < 32 → h.r.x.getD n 0 = if n = 10 then l.record.args else if n = 11 then BitVec.ofNat 64 l.record.usertag else 0
  vl : h.r.vl = 0
  vtype : h.r.vtype = {}
  strip : h.strip = {}
  fstat : h.fstat = 0
  req : h.gears.req = l.record.gearcfg.testBit 0
  auto : h.gears.auto = l.record.gearcfg.testBit 1

theorem member_x (l : Launch) (i b n : Nat) (lgs : BitVec 4) {k : Nat} (hk : k < 32) :
    (l.member i b n lgs).r.x.getD k 0 = if k = 10 then l.record.args else if k = 11 then BitVec.ofNat 64 l.record.usertag else 0 := by
  have hx : (l.member i b n lgs).r.x =
      ((Vector.replicate 32 0).setIfInBounds 10 l.record.args).setIfInBounds 11 (BitVec.ofNat 64 l.record.usertag) := rfl
  rw [hx]
  obtain rfl | h11 := eq_or_ne k 11
  · simp [Vector.getD]
  · obtain rfl | h10 := eq_or_ne k 10
    · simp [Vector.getD]
    · simp [Vector.getD, hk, h10, h11, h10.symm, h11.symm]

/-- The first hart as a placement gives it. -/
def firstHart (l : Launch) (b u : Nat) : Hart := { l.member 0 b 0 ([0, 1, 3, 15].getD l.record.lgph 0) with run := .running, uid := u }

theorem starts_of_keeps {u : Nat} {h : Hart} (k : KeepsHart (firstHart l b u) h) : Starts l b h where
  launch := congrArg₂ Prod.mk k.queue k.seq
  index := k.index
  brick := k.brick
  num := k.num
  run := k.run
  ctx := k.ctx
  vmid := k.vmid
  bound := k.bound
  pc := k.pc
  x := fun n _ hn => (congrArg (fun x => x.getD n 0) k.x).trans (member_x l 0 b 0 ([0, 1, 3, 15].getD l.record.lgph 0) hn)
  vl := k.vl
  vtype := k.vtype
  strip := k.strip
  fstat := k.fstat
  req := (congrArg Gears.req k.gears).trans (bit_eq_testBit _ _)
  auto := (congrArg Gears.auto k.gears).trans (bit_eq_testBit _ _)

/-- A launch that waits on an idle device is served: its first hart starts on the lowest brick, and others follow until one does not fit. -/
theorem choose_dispatches (hs : MayServe s) (h : Empty s) (hl : ReadyLaunch l) (hone : s.dev.launches = [l]) (hheld : s.dev.sched.heldCtx = [])
    (hhome : l.home = []) (hask : Asks l.record) (hb : b < 1024) (hready : s.dev.takesWork b = true) (hlow : ∀ a, a < b → s.dev.takesWork a = false)
    (hret : (s.dev.brick b).retired = 0) :
    (∃ g ∈ s.choose.harts, Starts l b g) ∧ ∃ m, m ≤ hartCount l.record.levels ∧ Serving l s.dev m s.choose ∧
      (m < hartCount l.record.levels → ∀ x, s.choose.dev.launches = [x] → s.choose.dev.placeMember s.choose.harts x m = none) := by
  have hplace : s.dev.placeMember s.harts l 0 = some (l.member 0 b 0 ([0, 1, 3, 15].getD l.record.lgph 0)) := by
    rw [h.harts]
    exact placeMember_first hl hhome hask hb hready hlow hret h.closing
  have hserve : s.serve (.fresh l) = some (State.dispatchOn l (List.range' 1 (hartCount l.record.levels - 1))
      (s.dispatch l (l.member 0 b 0 ([0, 1, 3, 15].getD l.record.lgph 0)))) := by
    unfold State.serve
    dsimp only
    rw [hl.gang, if_neg Bool.false_ne_true, hl.undispatched]
    dsimp only
    rw [hplace, Option.map_some]
  rw [choose_serves hs h hl hone hheld hserve]
  have hstart := Serving.start h hone hhome
  have hfree : FreePlace s b 0 := fun x hx => by rw [h.harts] at hx; exact absurd hx List.not_mem_nil
  obtain ⟨-, -, g, hg, hmem⟩ := dispatch_brought (h := l.member 0 b 0 ([0, 1, 3, 15].getD l.record.lgph 0)) hstart.own hfree l
  obtain ⟨hstay, m, hm, hserving, hstop⟩ := Serving.dispatchOn (hartCount l.record.levels - 1) 1 (hstart.step hone hplace).1
  have hcount : 1 + (hartCount l.record.levels - 1) = hartCount l.record.levels := by have := hl.some; omega
  rw [hcount] at hm hstop
  exact ⟨⟨g, hstay g ((hmem g).mpr (.inr rfl)), starts_of_keeps hg⟩, m, hm, hserving, hstop⟩

theorem takesWork_iff (d : Device) (a : Nat) : d.takesWork a = true ↔ d.gmc.readyBrick.getLsbD a = true ∧ d.gmc.readyCourse.getLsbD (a / 16) = true := by
  unfold Device.takesWork
  rw [Bool.and_eq_true]
  rfl

theorem exec_schedulerChoice (s : State) : exec .schedulerChoice s = .next s.choose := rfl

theorem hasRuns_of_mem {r : Record} {x : Level} (hx : x ∈ r.levels.toList) (h : x.place = 2) : r.hasRuns = true :=
  List.any_eq_true.mpr ⟨x, hx, by simpa using h⟩

theorem dispatch : Dispatch := by
  intro s hbusy
  refine ⟨fun h => by rw [exec_schedulerChoice, choose_waits hbusy h], ?_⟩
  intro l b hruns hchan hlimit hrun hparked hsaved hclosing hone
  dsimp only
  intro hmark hkill hwdone hgang hplaces hsig hstart hheld hmask hplaced hhome howed hsome htiles hstreams hlgph hb hready hlow hret
  obtain ⟨⟨g, hg, hfirst⟩, m, hm, hserving, hstop⟩ := choose_dispatches ⟨hbusy, hruns, hchan, hlimit⟩ ⟨hrun, hparked, hsaved, hclosing⟩
    ⟨hmark, hkill, hwdone, hgang, hplaces, hsig, hstart, hmask, hplaced, howed, hsome⟩ hone hheld hhome ⟨htiles, hstreams, hlgph⟩ hb
    ((takesWork_iff s.dev b).mpr hready) (fun a ha => Bool.eq_false_iff.mpr (fun k => hlow a ha ((takesWork_iff s.dev a).mp k))) hret
  refine ⟨s.choose, exec_schedulerChoice s, ⟨g, hg, ?_⟩, ⟨m, hm, hserving.indices, hstop⟩, fun h hh => ?_, fun h hh k hk => ?_⟩
  · obtain ⟨a1, a2, a3, a4, a5, a6, a7, a8, a9, a10, a11, a12, a13, a14, a15, a16⟩ := hfirst
    exact ⟨a1, a2, a3, a4, a5, a6, a7, a8, a9, a10, a11, a12, a13, a14, a15, a16⟩
  · obtain ⟨h1, h2, h3, h4⟩ := hserving.each h hh
    exact ⟨h1, h2, (takesWork_iff s.dev h.brick).mp h3, h4⟩
  · obtain ⟨hcourse, hwythe, hblock⟩ := hserving.near h hh k hk
    exact ⟨hserving.single h hh k hk, hserving.apart h hh k hk, hcourse, hwythe, fun x hx h2 => hblock (hasRuns_of_mem hx h2)⟩

/-- Settles O49: a launch record is read, refused or taken as its fields say; a launch is dispatched hart by hart under the rules of locality, kept by
an invariant of the harts that are on the device; it is saved and restored with every register, and completes once nothing of it is under way. -/
theorem launches : Obligations.Launches := ⟨launchRecords, launchCompletion, dispatch, savesAndRestores⟩

end Sys2Proof.Claims
